-- ==== Sys2Proof/Word.lean ====
section
/-! DEFINITION. The word types of the model and the plainest operations on them: bits are numbered from the least
significant bit (R18). -/

namespace Sys2Proof

/-- A register is 32 bits wide (R15). -/
abbrev Word := BitVec 32
abbrev Byte := BitVec 8
abbrev Half := BitVec 16
/-- A full valve time, network time or handshake data word (R23, R38). -/
abbrev Long := BitVec 64

/-- One bit as a word with that bit set or clear. -/
def bitIf (b : Bool) (i : Nat) : Word := if b then 1#32 <<< i else 0#32

/-- A field of a word: `n` bits from bit `lo` up, as a number. -/
def fieldOf {w : Nat} (x : BitVec w) (lo n : Nat) : Nat := (x.toNat / 2 ^ lo) % 2 ^ n

/-- A number placed at bit `lo` of a word. -/
def putField (v lo : Nat) : Word := BitVec.ofNat 32 (v * 2 ^ lo)

/-- The signed distance of R6 and R7 between two n-bit times, `a` seen from `b`; half range reads as past. -/
def timeDiff {w : Nat} (a b : BitVec w) : Int := (a - b).toInt

/-- A saturating count: one more, at most `m`. -/
def satInc (x m : Nat) : Nat := if x < m then x + 1 else m

/-- A saturating sum. -/
def satAdd (x k m : Nat) : Nat := min (x + k) m

/-- A pair is valid when its halves are exact complements (R8). -/
def pairOk {w : Nat} (v c : BitVec w) : Bool := c == ~~~ v

end Sys2Proof
end

