-- ==== Sys2Proof/Machine/Reg.lean ====
section
/-! DEFINITION. The register map: the address of every register of the spec by its own name, and one table row per
register with its access code, its reset value and the bits a write may change (the chapters' register tables, R857). -/

namespace Sys2Proof.Machine

/-- The access codes of R15; `prv` and `prc` are the value and the complement half of a paired register (R9). -/
inductive Acc where
  | ro | rw | wo | w1c | w1s | prv | prc
  deriving DecidableEq, Repr

/-- One row of a register table: offset, access, reset value, writable bits, and for an array the count and the
byte stride of each index. -/
structure RegRow where
  off : Nat
  acc : Acc
  reset : Word
  wmask : Word
  dims : List (Nat × Nat)
  deriving DecidableEq, Repr

namespace Reg

/-- The base of a lane register block: ports 0 to 11, and 12 for the twin port X13 (R111, R857). -/
def laneBase (p : Nat) : Nat := if p < 12 then 0x20200000 + 0x10000 * p else 0x20060800

/-- TB_VT_LO of 01 (R68). -/
def TB_VT_LO : Nat := 0x20010000
/-- TB_VT_HI of 01 (R68). -/
def TB_VT_HI : Nat := 0x20010004
/-- TB_PC of 01 (R68). -/
def TB_PC : Nat := 0x20010008
/-- TB_STAT of 01 (R68). -/
def TB_STAT : Nat := 0x2001000C
/-- TB_PERIOD of 01 (R68). -/
def TB_PERIOD : Nat := 0x20010010
/-- TB_PERIOD_NEXT of 01 (R68). -/
def TB_PERIOD_NEXT : Nat := 0x20010014
/-- TB_NEXT_B_LO of 01 (R68). -/
def TB_NEXT_B_LO : Nat := 0x20010018
/-- TB_NEXT_B_HI of 01 (R68). -/
def TB_NEXT_B_HI : Nat := 0x2001001C
/-- TB_I_END of 01 (R68). -/
def TB_I_END : Nat := 0x20010020
/-- TB_E_START of 01 (R68). -/
def TB_E_START : Nat := 0x20010024
/-- TB_REPLICA_ERR of 01 (R68). -/
def TB_REPLICA_ERR : Nat := 0x20010028
/-- TB_ISLAND_MAP of 01 (R68). -/
def TB_ISLAND_MAP : Nat := 0x2001002C
/-- TB_REPLICA_ERR_HI of 01 (R68). -/
def TB_REPLICA_ERR_HI : Nat := 0x20010030
/-- TB_ULEAD[n] of 01 (R68). -/
def TB_ULEAD (n : Nat) : Nat := 0x20010040 + 4 * n
/-- TB_E_END[n] of 01 (R68). -/
def TB_E_END (n : Nat) : Nat := 0x20010080 + 4 * n
/-- TB_MARGIN[n] of 01 (R68). -/
def TB_MARGIN (n : Nat) : Nat := 0x200100C0 + 4 * n
/-- TB_ENERGY_VOID[n] of 01 (R68). -/
def TB_ENERGY_VOID (n : Nat) : Nat := 0x20010100 + 4 * n
/-- PRT_LANE_CTL of 02 (R111). -/
def PRT_LANE_CTL (p : Nat) : Nat := laneBase p + 0x0
/-- PRT_LANE_STAT of 02 (R111). -/
def PRT_LANE_STAT (p : Nat) : Nat := laneBase p + 0x4
/-- PRT_LANE_EVT of 02 (R111). -/
def PRT_LANE_EVT (p : Nat) : Nat := laneBase p + 0x8
/-- PRT_RX_EYE of 02 (R111). -/
def PRT_RX_EYE (p : Nat) : Nat := laneBase p + 0xC
/-- PRT_RX_DESKEW of 02 (R111). -/
def PRT_RX_DESKEW (p : Nat) : Nat := laneBase p + 0x10
/-- PRT_RX_POWER of 02 (R111). -/
def PRT_RX_POWER (p : Nat) : Nat := laneBase p + 0x14
/-- PRT_TX_POWER of 02 (R111). -/
def PRT_TX_POWER (p : Nat) : Nat := laneBase p + 0x18
/-- PRT_PHERR_MAX of 02 (R111). -/
def PRT_PHERR_MAX (p : Nat) : Nat := laneBase p + 0x1C
/-- PRT_LOS_CNT of 02 (R111). -/
def PRT_LOS_CNT (p : Nat) : Nat := laneBase p + 0x20
/-- PRT_LOL_CNT of 02 (R111). -/
def PRT_LOL_CNT (p : Nat) : Nat := laneBase p + 0x24
/-- PRT_TRAIN_CNT of 02 (R111). -/
def PRT_TRAIN_CNT (p : Nat) : Nat := laneBase p + 0x28
/-- PRT_PRBS_ERR of 02 (R111). -/
def PRT_PRBS_ERR (p : Nat) : Nat := laneBase p + 0x2C
/-- PRT_CNT_CLR of 02 (R111). -/
def PRT_CNT_CLR (p : Nat) : Nat := laneBase p + 0x30
/-- PRT_FRM_CTL of 03 (R190). -/
def PRT_FRM_CTL (p : Nat) : Nat := 0x20200000 + 0x10000 * p + 0x100
/-- PRT_FRM_STAT of 03 (R190). -/
def PRT_FRM_STAT (p : Nat) : Nat := 0x20200000 + 0x10000 * p + 0x104
/-- PRT_FRM_EVT of 03 (R190). -/
def PRT_FRM_EVT (p : Nat) : Nat := 0x20200000 + 0x10000 * p + 0x108
/-- PRT_BLK_DISC of 03 (R190). -/
def PRT_BLK_DISC (p : Nat) : Nat := 0x20200000 + 0x10000 * p + 0x10C
/-- PRT_BLK_STALE of 03 (R190). -/
def PRT_BLK_STALE (p : Nat) : Nat := 0x20200000 + 0x10000 * p + 0x110
/-- PRT_ECHO_MISS of 03 (R190). -/
def PRT_ECHO_MISS (p : Nat) : Nat := 0x20200000 + 0x10000 * p + 0x114
/-- PRT_ECHO_TOT of 03 (R190). -/
def PRT_ECHO_TOT (p : Nat) : Nat := 0x20200000 + 0x10000 * p + 0x118
/-- PRT_FRM_CNT_CLR of 03 (R190). -/
def PRT_FRM_CNT_CLR (p : Nat) : Nat := 0x20200000 + 0x10000 * p + 0x11C
/-- PRT_CENSUS of 03 (R190). -/
def PRT_CENSUS (p : Nat) : Nat := 0x20200000 + 0x10000 * p + 0x120
/-- PRT_CENSUS_RES of 03 (R190). -/
def PRT_CENSUS_RES (p : Nat) : Nat := 0x20200000 + 0x10000 * p + 0x124
/-- PRT_T_PORT of 03 (R190). -/
def PRT_T_PORT (p : Nat) : Nat := 0x20200000 + 0x10000 * p + 0x128
/-- PRT_T_DOWN of 03 (R190). -/
def PRT_T_DOWN (p : Nat) : Nat := 0x20200000 + 0x10000 * p + 0x12C
/-- PRT_DLY_IDX of 03 (R190). -/
def PRT_DLY_IDX (p : Nat) : Nat := 0x20200000 + 0x10000 * p + 0x130
/-- PRT_DLY_DATA of 03 (R190). -/
def PRT_DLY_DATA (p : Nat) : Nat := 0x20200000 + 0x10000 * p + 0x134
/-- PRT_HOLD of 03 (R190). -/
def PRT_HOLD (p : Nat) : Nat := 0x20200000 + 0x10000 * p + 0x138
/-- PRT_WIT_LAST of 03 (R190). -/
def PRT_WIT_LAST (p : Nat) : Nat := 0x20200000 + 0x10000 * p + 0x13C
/-- PRT_CTL_REQ of 03 (R190). -/
def PRT_CTL_REQ (p : Nat) : Nat := 0x20200000 + 0x10000 * p + 0x140
/-- PRT_CTL_TGT of 03 (R190). -/
def PRT_CTL_TGT (p : Nat) : Nat := 0x20200000 + 0x10000 * p + 0x144
/-- PRT_CTL_XA of 03 (R190). -/
def PRT_CTL_XA (p : Nat) : Nat := 0x20200000 + 0x10000 * p + 0x148
/-- PRT_CTL_ARG_LO of 03 (R190). -/
def PRT_CTL_ARG_LO (p : Nat) : Nat := 0x20200000 + 0x10000 * p + 0x14C
/-- PRT_CTL_ARG_HI of 03 (R190). -/
def PRT_CTL_ARG_HI (p : Nat) : Nat := 0x20200000 + 0x10000 * p + 0x150
/-- PRT_BAR_RES of 03 (R190). -/
def PRT_BAR_RES (p : Nat) : Nat := 0x20200000 + 0x10000 * p + 0x154
/-- PRT_ECHO_RES of 03 (R190). -/
def PRT_ECHO_RES (p : Nat) : Nat := 0x20200000 + 0x10000 * p + 0x158
/-- AE_STAT of 04 (R245). -/
def AE_STAT (a : Nat) : Nat := 0x20400000 + 0x10000 * a + 0x0
/-- AE_EVT of 04 (R245). -/
def AE_EVT (a : Nat) : Nat := 0x20400000 + 0x10000 * a + 0x4
/-- AE_LEVEL of 04 (R245). -/
def AE_LEVEL (a : Nat) : Nat := 0x20400000 + 0x10000 * a + 0x8
/-- AE_INSERTED of 04 (R245). -/
def AE_INSERTED (a : Nat) : Nat := 0x20400000 + 0x10000 * a + 0xC
/-- AE_OUT of 04 (R245). -/
def AE_OUT (a : Nat) : Nat := 0x20400000 + 0x10000 * a + 0x10
/-- AE_REDUND of 04 (R245). -/
def AE_REDUND (a : Nat) : Nat := 0x20400000 + 0x10000 * a + 0x14
/-- AE_BAND of 04 (R245). -/
def AE_BAND (a : Nat) : Nat := 0x20400000 + 0x10000 * a + 0x18
/-- AE_BAND_LIM of 04 (R245). -/
def AE_BAND_LIM (a : Nat) : Nat := 0x20400000 + 0x10000 * a + 0x1C
/-- AE_BAND_CFG of 04 (R245). -/
def AE_BAND_CFG (a : Nat) : Nat := 0x20400000 + 0x10000 * a + 0x20
/-- AE_SW_CFG of 04 (R245). -/
def AE_SW_CFG (a : Nat) : Nat := 0x20400000 + 0x10000 * a + 0x24
/-- AE_SW_RATE of 04 (R245). -/
def AE_SW_RATE (a : Nat) : Nat := 0x20400000 + 0x10000 * a + 0x28
/-- AE_SPREAD of 04 (R245). -/
def AE_SPREAD (a : Nat) : Nat := 0x20400000 + 0x10000 * a + 0x2C
/-- AE_SEL_CFG of 04 (R245). -/
def AE_SEL_CFG (a : Nat) : Nat := 0x20400000 + 0x10000 * a + 0x30
/-- AE_PULSE of 04 (R245). -/
def AE_PULSE (a : Nat) : Nat := 0x20400000 + 0x10000 * a + 0x34
/-- AE_EDGE of 04 (R245). -/
def AE_EDGE (a : Nat) : Nat := 0x20400000 + 0x10000 * a + 0x38
/-- AE_HOT_REL of 04 (R245). -/
def AE_HOT_REL (a : Nat) : Nat := 0x20400000 + 0x10000 * a + 0x3C
/-- AE_I_DEAD of 04 (R245). -/
def AE_I_DEAD (a : Nat) : Nat := 0x20400000 + 0x10000 * a + 0x40
/-- AE_CNT_FRAC of 04 (R245). -/
def AE_CNT_FRAC (a : Nat) : Nat := 0x20400000 + 0x10000 * a + 0x44
/-- AE_CNT_DWELL of 04 (R245). -/
def AE_CNT_DWELL (a : Nat) : Nat := 0x20400000 + 0x10000 * a + 0x48
/-- AE_CNT_DIR of 04 (R245). -/
def AE_CNT_DIR (a : Nat) : Nat := 0x20400000 + 0x10000 * a + 0x4C
/-- AE_CNT_MISS of 04 (R245). -/
def AE_CNT_MISS (a : Nat) : Nat := 0x20400000 + 0x10000 * a + 0x50
/-- AE_CNT_NOORD of 04 (R245). -/
def AE_CNT_NOORD (a : Nat) : Nat := 0x20400000 + 0x10000 * a + 0x54
/-- AE_CNT_CLR of 04 (R245). -/
def AE_CNT_CLR (a : Nat) : Nat := 0x20400000 + 0x10000 * a + 0x58
/-- AE_CELL_IDX of 04 (R245). -/
def AE_CELL_IDX (a : Nat) : Nat := 0x20400000 + 0x10000 * a + 0x60
/-- AE_CELL_INFO of 04 (R245). -/
def AE_CELL_INFO (a : Nat) : Nat := 0x20400000 + 0x10000 * a + 0x64
/-- AE_CELL_SW of 04 (R245). -/
def AE_CELL_SW (a : Nat) : Nat := 0x20400000 + 0x10000 * a + 0x68
/-- AE_CELL_CMD of 04 (R245). -/
def AE_CELL_CMD (a : Nat) : Nat := 0x20400000 + 0x10000 * a + 0x70
/-- PRT_AUD_STAT of 04 (R249). -/
def PRT_AUD_STAT (p : Nat) : Nat := 0x20200000 + 0x10000 * p + 0x200
/-- PRT_AUD_EVT of 04 (R249). -/
def PRT_AUD_EVT (p : Nat) : Nat := 0x20200000 + 0x10000 * p + 0x204
/-- PRT_AUD_FAIL of 04 (R249). -/
def PRT_AUD_FAIL (p : Nat) : Nat := 0x20200000 + 0x10000 * p + 0x208
/-- PRT_AUD_RUN of 04 (R249). -/
def PRT_AUD_RUN (p : Nat) : Nat := 0x20200000 + 0x10000 * p + 0x20C
/-- PRT_AUD_PASS_PC of 04 (R249). -/
def PRT_AUD_PASS_PC (p : Nat) : Nat := 0x20200000 + 0x10000 * p + 0x210
/-- PRT_AUD_CLR of 04 (R249). -/
def PRT_AUD_CLR (p : Nat) : Nat := 0x20200000 + 0x10000 * p + 0x214
/-- LE_STAT of 05 (R314). -/
def LE_STAT (e : Nat) : Nat := 0x20600000 + 0x10000 * e + 0x0
/-- LE_EVT of 05 (R314). -/
def LE_EVT (e : Nat) : Nat := 0x20600000 + 0x10000 * e + 0x4
/-- LE_CNT_NUM of 05 (R314). -/
def LE_CNT_NUM (e : Nat) : Nat := 0x20600000 + 0x10000 * e + 0x8
/-- LE_CNT_HELD of 05 (R314). -/
def LE_CNT_HELD (e : Nat) : Nat := 0x20600000 + 0x10000 * e + 0xC
/-- LE_CNT_PAIR of 05 (R314). -/
def LE_CNT_PAIR (e : Nat) : Nat := 0x20600000 + 0x10000 * e + 0x10
/-- LE_CNT_LVCLAMP of 05 (R314). -/
def LE_CNT_LVCLAMP (e : Nat) : Nat := 0x20600000 + 0x10000 * e + 0x14
/-- LE_CNT_CLR of 05 (R314). -/
def LE_CNT_CLR (e : Nat) : Nat := 0x20600000 + 0x10000 * e + 0x18
/-- LE_CUE_CNT of 05 (R314). -/
def LE_CUE_CNT (e : Nat) : Nat := 0x20600000 + 0x10000 * e + 0x1C
/-- LE_SLOT_IDX of 05 (R314). -/
def LE_SLOT_IDX (e : Nat) : Nat := 0x20600000 + 0x10000 * e + 0x20
/-- LE_SLOT_VAL of 05 (R314). -/
def LE_SLOT_VAL (e : Nat) : Nat := 0x20600000 + 0x10000 * e + 0x24
/-- LE_SLOT_Q of 05 (R314). -/
def LE_SLOT_Q (e : Nat) : Nat := 0x20600000 + 0x10000 * e + 0x28
/-- LE_FP_CFG of 05 (R315). -/
def LE_FP_CFG : Nat := 0x20600100
/-- LE_FP_STAT of 05 (R315). -/
def LE_FP_STAT : Nat := 0x20600104
/-- LE_FP_EVT of 05 (R315). -/
def LE_FP_EVT : Nat := 0x20600108
/-- LE_FP_IOC[n] of 05 (R315). -/
def LE_FP_IOC (n : Nat) : Nat := 0x20600140 + 4 * n
/-- LE_FP_VUV[m] of 05 (R315). -/
def LE_FP_VUV (m : Nat) : Nat := 0x20600180 + 4 * m
/-- LE_FP_UVCH[m] of 05 (R315). -/
def LE_FP_UVCH (m : Nat) : Nat := 0x20600190 + 4 * m
/-- LE_FP_OCCH[n] of 05 (R315). -/
def LE_FP_OCCH (n : Nat) : Nat := 0x206001C0 + 4 * n
/-- LE_MEAS_CFG of 05 (R315). -/
def LE_MEAS_CFG : Nat := 0x20600200
/-- LE_ISL_EVT of 05 (R315). -/
def LE_ISL_EVT : Nat := 0x20600204
/-- LE_MEAS_LOST of 05 (R315). -/
def LE_MEAS_LOST : Nat := 0x20600208
/-- LE_EDDY_FREEZE of 05 (R315). -/
def LE_EDDY_FREEZE : Nat := 0x20600300
/-- LE_EDDY_CLEAR of 05 (R315). -/
def LE_EDDY_CLEAR : Nat := 0x20600304
/-- LE_EDDY_LEARN of 05 (R315). -/
def LE_EDDY_LEARN : Nat := 0x20600308
/-- LE_EDDY_CLAMP of 05 (R315). -/
def LE_EDDY_CLAMP : Nat := 0x2060030C
/-- LE_EDDY_PAIR of 05 (R315). -/
def LE_EDDY_PAIR : Nat := 0x20600310
/-- LE_EDDY_NB[c] of 05 (R315). -/
def LE_EDDY_NB (c : Nat) : Nat := 0x20600340 + 4 * c
/-- LE_PROF_HOLD of 05 (R315). -/
def LE_PROF_HOLD : Nat := 0x20600380
/-- LE_PROF_STAT of 05 (R315). -/
def LE_PROF_STAT : Nat := 0x20600384
/-- LE_PROF_JUMP of 05 (R315). -/
def LE_PROF_JUMP : Nat := 0x20600388
/-- LE_PROF_X[c] of 05 (R315). -/
def LE_PROF_X (c : Nat) : Nat := 0x206003C0 + 4 * c
/-- LE_INJ_CTL of 05 (R315). -/
def LE_INJ_CTL : Nat := 0x20600400
/-- LE_INJ_STAT of 05 (R315). -/
def LE_INJ_STAT : Nat := 0x20600404
/-- LE_INJ_MEAS of 05 (R315). -/
def LE_INJ_MEAS : Nat := 0x20600408
/-- LE_INJ_AMP of 05 (R315). -/
def LE_INJ_AMP : Nat := 0x2060040C
/-- LE_INJ_PRBS of 05 (R315). -/
def LE_INJ_PRBS : Nat := 0x20600410
/-- LE_INJ_F0 of 05 (R315). -/
def LE_INJ_F0 : Nat := 0x20600414
/-- LE_INJ_F1 of 05 (R315). -/
def LE_INJ_F1 : Nat := 0x20600418
/-- LE_INJ_LEN of 05 (R315). -/
def LE_INJ_LEN : Nat := 0x2060041C
/-- LE_INJ_STEP of 05 (R315). -/
def LE_INJ_STEP : Nat := 0x20600420
/-- LE_INJ_NF of 05 (R315). -/
def LE_INJ_NF : Nat := 0x20600424
/-- LE_INJ_AMIN of 05 (R315). -/
def LE_INJ_AMIN : Nat := 0x20600428
/-- LE_INJ_FIDX of 05 (R315). -/
def LE_INJ_FIDX : Nat := 0x2060042C
/-- LE_INJ_FREQ of 05 (R315). -/
def LE_INJ_FREQ : Nat := 0x20600430
/-- LE_INJ_GAIN of 05 (R315). -/
def LE_INJ_GAIN : Nat := 0x20600434
/-- LE_INJ_PHASE of 05 (R315). -/
def LE_INJ_PHASE : Nat := 0x20600438
/-- LE_INJ_AMAG of 05 (R315). -/
def LE_INJ_AMAG : Nat := 0x2060043C
/-- LE_INJ_VALID_LO of 05 (R315). -/
def LE_INJ_VALID_LO : Nat := 0x20600440
/-- LE_INJ_VALID_HI of 05 (R315). -/
def LE_INJ_VALID_HI : Nat := 0x20600444
/-- LE_MCORR[c] of 05 (R315). -/
def LE_MCORR (c : Nat) : Nat := 0x20601000 + 8 * c
/-- LE_ORD[i] of 05 (R315). -/
def LE_ORD (i : Nat) : Nat := 0x20601800 + 8 * i
/-- LE_STATV[i] of 05 (R315). -/
def LE_STATV (i : Nat) : Nat := 0x20601A00 + 8 * i
/-- LE_STATV_Q[i] of 05 (R315). -/
def LE_STATV_Q (i : Nat) : Nat := 0x20601B00 + 4 * i
/-- SCH_STAT of 06 (R367). -/
def SCH_STAT : Nat := 0x20020000
/-- SCH_EVT of 06 (R367). -/
def SCH_EVT : Nat := 0x20020004
/-- SCH_LOAD_RES of 06 (R367). -/
def SCH_LOAD_RES : Nat := 0x20020008
/-- SCH_ID of 06 (R367). -/
def SCH_ID : Nat := 0x2002000C
/-- SCH_ID_NEXT of 06 (R367). -/
def SCH_ID_NEXT : Nat := 0x20020010
/-- SCH_SLACK_WARN of 06 (R367). -/
def SCH_SLACK_WARN : Nat := 0x20020014
/-- SCH_MISS_LAST of 06 (R367). -/
def SCH_MISS_LAST : Nat := 0x20020018
/-- SCH_MISS_PER of 06 (R367). -/
def SCH_MISS_PER : Nat := 0x2002001C
/-- SCH_SLACK of 06 (R367). -/
def SCH_SLACK : Nat := 0x20020020
/-- SCH_SLACK_AT of 06 (R367). -/
def SCH_SLACK_AT : Nat := 0x20020024
/-- SCH_XING_MAX of 06 (R367). -/
def SCH_XING_MAX : Nat := 0x20020028
/-- SCH_XING_OVER of 06 (R367). -/
def SCH_XING_OVER : Nat := 0x2002002C
/-- SCH_STALE of 06 (R367). -/
def SCH_STALE : Nat := 0x20020030
/-- SCH_CNT_CLR of 06 (R367). -/
def SCH_CNT_CLR : Nat := 0x20020034
/-- SCH_LAST_MISS of 06 (R367). -/
def SCH_LAST_MISS : Nat := 0x20020038
/-- SCH_LAST_MISS_PC of 06 (R367). -/
def SCH_LAST_MISS_PC : Nat := 0x2002003C
/-- SCH_LE_MISS[n] of 06 (R367). -/
def SCH_LE_MISS (n : Nat) : Nat := 0x20020040 + 4 * n
/-- SCH_ARM_MISS[n] of 06 (R367). -/
def SCH_ARM_MISS (n : Nat) : Nat := 0x20020060 + 4 * n
/-- SCH_XING_IDX of 06 (R367). -/
def SCH_XING_IDX : Nat := 0x20020090
/-- SCH_XING_DATA of 06 (R367). -/
def SCH_XING_DATA : Nat := 0x20020094
/-- FLT_STAT of 07 (R418). -/
def FLT_STAT : Nat := 0x20040000
/-- FLT_EVT of 07 (R418). -/
def FLT_EVT : Nat := 0x20040004
/-- FLT_REACT of 07 (R418). -/
def FLT_REACT : Nat := 0x20040008
/-- FLT_FIRST of 07 (R418). -/
def FLT_FIRST : Nat := 0x2004000C
/-- FLT_FIRST_VT_LO of 07 (R418). -/
def FLT_FIRST_VT_LO : Nat := 0x20040010
/-- FLT_FIRST_VT_HI of 07 (R418). -/
def FLT_FIRST_VT_HI : Nat := 0x20040014
/-- FLT_CNT_EVT of 07 (R418). -/
def FLT_CNT_EVT : Nat := 0x20040018
/-- FLT_CNT_SQUALL of 07 (R418). -/
def FLT_CNT_SQUALL : Nat := 0x2004001C
/-- FLT_CNT_LOCK of 07 (R418). -/
def FLT_CNT_LOCK : Nat := 0x20040020
/-- FLT_CNT_CLR of 07 (R418). -/
def FLT_CNT_CLR : Nat := 0x20040024
/-- FLT_CLEAR of 07 (R418). -/
def FLT_CLEAR : Nat := 0x20040040
/-- FLT_INJ of 07 (R418). -/
def FLT_INJ : Nat := 0x20040048
/-- FLT_CONV of 07 (R418). -/
def FLT_CONV : Nat := 0x20040050
/-- FLT_INJ_AT of 07 (R418). -/
def FLT_INJ_AT : Nat := 0x20040058
/-- FLT_INJ_STAT of 07 (R418). -/
def FLT_INJ_STAT : Nat := 0x2004005C
/-- FLT_STICKY[m] of 07 (R418). -/
def FLT_STICKY (m : Nat) : Nat := 0x20040100 + 4 * m
/-- FLT_INJFLAG[m] of 07 (R418). -/
def FLT_INJFLAG (m : Nat) : Nat := 0x20040120 + 4 * m
/-- FLT_ACTIVE[m] of 07 (R418). -/
def FLT_ACTIVE (m : Nat) : Nat := 0x20040140 + 4 * m
/-- FLT_LOCKED[m] of 07 (R418). -/
def FLT_LOCKED (m : Nat) : Nat := 0x20040160 + 4 * m
/-- FLT_IRQ_EN[m] of 07 (R418). -/
def FLT_IRQ_EN (m : Nat) : Nat := 0x20040180 + 4 * m
/-- FLT_SQUALL[m] of 07 (R418). -/
def FLT_SQUALL (m : Nat) : Nat := 0x200401A0 + 4 * m
/-- FLT_SRC_CLASS[n] of 07 (R418). -/
def FLT_SRC_CLASS (n : Nat) : Nat := 0x20040400 + 4 * n
/-- FLT_SRC_WIN[n] of 07 (R418). -/
def FLT_SRC_WIN (n : Nat) : Nat := 0x20040800 + 4 * n
/-- FLT_SRC_LULL[n] of 07 (R418). -/
def FLT_SRC_LULL (n : Nat) : Nat := 0x20040C00 + 4 * n
/-- FLT_SRC_STATE[n] of 07 (R418). -/
def FLT_SRC_STATE (n : Nat) : Nat := 0x20041000 + 4 * n
/-- GST_STAT of 08 (R467). -/
def GST_STAT : Nat := 0x20050000
/-- GST_EVT of 08 (R467). -/
def GST_EVT : Nat := 0x20050004
/-- GST_CMD of 08 (R467). -/
def GST_CMD : Nat := 0x20050008
/-- GST_CFG of 08 (R467). -/
def GST_CFG : Nat := 0x20050010
/-- GST_POST of 08 (R467). -/
def GST_POST : Nat := 0x20050014
/-- GST_PRE_MIN of 08 (R467). -/
def GST_PRE_MIN : Nat := 0x20050018
/-- GST_TRIG_EN of 08 (R467). -/
def GST_TRIG_EN : Nat := 0x2005001C
/-- GST_TRIG_PC of 08 (R467). -/
def GST_TRIG_PC : Nat := 0x20050020
/-- GST_TRIG_VT_LO of 08 (R467). -/
def GST_TRIG_VT_LO : Nat := 0x20050024
/-- GST_TRIG_VT_HI of 08 (R467). -/
def GST_TRIG_VT_HI : Nat := 0x20050028
/-- GST_TRIG_SRC of 08 (R467). -/
def GST_TRIG_SRC : Nat := 0x2005002C
/-- GST_PL_CAP of 08 (R467). -/
def GST_PL_CAP : Nat := 0x20050030
/-- GST_PL_SIZE of 08 (R467). -/
def GST_PL_SIZE : Nat := 0x20050034
/-- GST_PL_HEAD of 08 (R467). -/
def GST_PL_HEAD : Nat := 0x20050038
/-- GST_PL_CNT of 08 (R467). -/
def GST_PL_CNT : Nat := 0x2005003C
/-- GST_PL_FIRST_PC of 08 (R467). -/
def GST_PL_FIRST_PC : Nat := 0x20050040
/-- GST_TR_CAP of 08 (R467). -/
def GST_TR_CAP : Nat := 0x20050044
/-- GST_TR_HEAD of 08 (R467). -/
def GST_TR_HEAD : Nat := 0x20050048
/-- GST_TR_CNT of 08 (R467). -/
def GST_TR_CNT : Nat := 0x2005004C
/-- GST_TR_FIRST_PC of 08 (R467). -/
def GST_TR_FIRST_PC : Nat := 0x20050050
/-- GST_CNT_LATE of 08 (R467). -/
def GST_CNT_LATE : Nat := 0x20050054
/-- GST_CNT_DUP of 08 (R467). -/
def GST_CNT_DUP : Nat := 0x20050058
/-- GST_CNT_PAIR of 08 (R467). -/
def GST_CNT_PAIR : Nat := 0x2005005C
/-- GST_MASK_VIOL of 08 (R467). -/
def GST_MASK_VIOL : Nat := 0x20050060
/-- GST_CNT_CLR of 08 (R467). -/
def GST_CNT_CLR : Nat := 0x20050064
/-- GST_TU_CFG[u] of 08 (R467). -/
def GST_TU_CFG (u : Nat) : Nat := 0x20050100 + 0x20 * u
/-- GST_TU_LO[u] of 08 (R467). -/
def GST_TU_LO (u : Nat) : Nat := 0x20050104 + 0x20 * u
/-- GST_TU_HI[u] of 08 (R467). -/
def GST_TU_HI (u : Nat) : Nat := 0x20050108 + 0x20 * u
/-- GST_TU_T1[u] of 08 (R467). -/
def GST_TU_T1 (u : Nat) : Nat := 0x2005010C + 0x20 * u
/-- GST_TU_T2[u] of 08 (R467). -/
def GST_TU_T2 (u : Nat) : Nat := 0x20050110 + 0x20 * u
/-- GST_CH_SRC[n] of 08 (R467). -/
def GST_CH_SRC (n : Nat) : Nat := 0x20050300 + 4 * n
/-- GST_MASK_CFG[m] of 08 (R467). -/
def GST_MASK_CFG (m : Nat) : Nat := 0x20050400 + 4 * m
/-- GST_ENV_UP[m][i] of 08 (R467). -/
def GST_ENV_UP (m : Nat) (i : Nat) : Nat := 0x20058000 + 0x2000 * m + 8 * i
/-- GST_ENV_LO[m][i] of 08 (R467). -/
def GST_ENV_LO (m : Nat) (i : Nat) : Nat := 0x20058004 + 0x2000 * m + 8 * i
/-- TWN_STAT of 09 (R515). -/
def TWN_STAT : Nat := 0x20060000
/-- TWN_EVT of 09 (R515). -/
def TWN_EVT : Nat := 0x20060004
/-- TWN_EPOCH of 09 (R515). -/
def TWN_EPOCH : Nat := 0x20060008
/-- TWN_CMD of 09 (R515). -/
def TWN_CMD : Nat := 0x20060010
/-- TWN_CFG of 09 (R515). -/
def TWN_CFG : Nat := 0x20060018
/-- TWN_RECLAIM of 09 (R515). -/
def TWN_RECLAIM : Nat := 0x2006001C
/-- TWN_VT_OFS_LO of 09 (R515). -/
def TWN_VT_OFS_LO : Nat := 0x20060020
/-- TWN_VT_OFS_HI of 09 (R515). -/
def TWN_VT_OFS_HI : Nat := 0x20060024
/-- TWN_PHASE of 09 (R515). -/
def TWN_PHASE : Nat := 0x20060028
/-- TWN_DELAY of 09 (R515). -/
def TWN_DELAY : Nat := 0x2006002C
/-- TWN_CKPT_PC of 09 (R515). -/
def TWN_CKPT_PC : Nat := 0x20060030
/-- TWN_CKPT_AGE of 09 (R515). -/
def TWN_CKPT_AGE : Nat := 0x20060034
/-- TWN_CKPT_CNT of 09 (R515). -/
def TWN_CKPT_CNT : Nat := 0x20060038
/-- TWN_CKPT_LEN of 09 (R515). -/
def TWN_CKPT_LEN : Nat := 0x2006003C
/-- TWN_WIT of 09 (R515). -/
def TWN_WIT : Nat := 0x20060040
/-- TWN_RES of 09 (R515). -/
def TWN_RES : Nat := 0x20060044
/-- TWN_TKO_PC of 09 (R515). -/
def TWN_TKO_PC : Nat := 0x20060048
/-- TWN_SURR of 09 (R515). -/
def TWN_SURR : Nat := 0x2006004C
/-- TWN_LIVE of 09 (R515). -/
def TWN_LIVE : Nat := 0x20060050
/-- TWN_CNT_CLR of 09 (R515). -/
def TWN_CNT_CLR : Nat := 0x20060054
/-- TWN_SURR_MASK[m] of 09 (R515). -/
def TWN_SURR_MASK (m : Nat) : Nat := 0x20060060 + 4 * m
/-- SYS_ID of 10 (R577). -/
def SYS_ID : Nat := 0x20000000
/-- SYS_BOOT of 10 (R577). -/
def SYS_BOOT : Nat := 0x20000004
/-- SYS_EVT of 10 (R577). -/
def SYS_EVT : Nat := 0x20000008
/-- SYS_IMG_RES of 10 (R577). -/
def SYS_IMG_RES : Nat := 0x2000000C
/-- SYS_PD_CTL of 10 (R577). -/
def SYS_PD_CTL : Nat := 0x20000010
/-- SYS_PD_STAT of 10 (R577). -/
def SYS_PD_STAT : Nat := 0x20000014
/-- SYS_PD_USE of 10 (R577). -/
def SYS_PD_USE : Nat := 0x20000018
/-- SYS_PWR_STAT of 10 (R577). -/
def SYS_PWR_STAT : Nat := 0x2000001C
/-- SYS_FEED of 10 (R577). -/
def SYS_FEED : Nat := 0x20000020
/-- SYS_HOLD_V of 10 (R577). -/
def SYS_HOLD_V : Nat := 0x20000024
/-- SYS_HOLD_C of 10 (R577). -/
def SYS_HOLD_C : Nat := 0x20000028
/-- SYS_HOLD_E of 10 (R577). -/
def SYS_HOLD_E : Nat := 0x2000002C
/-- SYS_HOLD_CFG of 10 (R577). -/
def SYS_HOLD_CFG : Nat := 0x20000030
/-- SYS_START_T of 10 (R577). -/
def SYS_START_T : Nat := 0x20000034
/-- SYS_PM_USER_LO of 10 (R577). -/
def SYS_PM_USER_LO : Nat := 0x20000038
/-- SYS_PM_USER_HI of 10 (R577). -/
def SYS_PM_USER_HI : Nat := 0x2000003C
/-- SYS_PM_USER_LEN of 10 (R577). -/
def SYS_PM_USER_LEN : Nat := 0x20000040
/-- KEY_STAT of 10 (R579). -/
def KEY_STAT : Nat := 0x20110000
/-- KEY_EVT of 10 (R579). -/
def KEY_EVT : Nat := 0x20110004
/-- KEY_CMD of 10 (R579). -/
def KEY_CMD : Nat := 0x20110008
/-- KEY_ADDR of 10 (R579). -/
def KEY_ADDR : Nat := 0x20110010
/-- KEY_LEN of 10 (R579). -/
def KEY_LEN : Nat := 0x20110014
/-- KEY_BUF_LO of 10 (R579). -/
def KEY_BUF_LO : Nat := 0x20110018
/-- KEY_BUF_HI of 10 (R579). -/
def KEY_BUF_HI : Nat := 0x2011001C
/-- KEY_ID_LO of 10 (R579). -/
def KEY_ID_LO : Nat := 0x20110020
/-- KEY_ID_HI of 10 (R579). -/
def KEY_ID_HI : Nat := 0x20110024
/-- KEY_PM of 10 (R579). -/
def KEY_PM : Nat := 0x20110028
/-- KEY_LIFE_IDX of 10 (R579). -/
def KEY_LIFE_IDX : Nat := 0x2011002C
/-- KEY_LIFE_DATA of 10 (R579). -/
def KEY_LIFE_DATA : Nat := 0x20110030
/-- KEY_FUSE of 10 (R579). -/
def KEY_FUSE : Nat := 0x20110034
/-- KEY_PUBKEY[i] of 10 (R579). -/
def KEY_PUBKEY (i : Nat) : Nat := 0x20110040 + 4 * i
/-- DRF_STAT of 10 (R581). -/
def DRF_STAT : Nat := 0x20030000
/-- DRF_EVT of 10 (R581). -/
def DRF_EVT : Nat := 0x20030004
/-- DRF_CMD of 10 (R581). -/
def DRF_CMD : Nat := 0x20030008
/-- DRF_SRC_LO of 10 (R581). -/
def DRF_SRC_LO : Nat := 0x20030010
/-- DRF_SRC_HI of 10 (R581). -/
def DRF_SRC_HI : Nat := 0x20030014
/-- DRF_COMMIT_PC of 10 (R581). -/
def DRF_COMMIT_PC : Nat := 0x20030018
/-- DRF_RES of 10 (R581). -/
def DRF_RES : Nat := 0x2003001C
/-- DRF_STAGED of 10 (R581). -/
def DRF_STAGED : Nat := 0x20030020
/-- DRF_PEND_PC of 10 (R581). -/
def DRF_PEND_PC : Nat := 0x20030024
/-- DRF_SET_ID of 10 (R581). -/
def DRF_SET_ID : Nat := 0x20030028
/-- DRF_SET_ID_EFF of 10 (R581). -/
def DRF_SET_ID_EFF : Nat := 0x2003002C
/-- DRF_CNT of 10 (R581). -/
def DRF_CNT : Nat := 0x20030030
/-- NET_STAT of 11 (R626). -/
def NET_STAT : Nat := 0x200A0000
/-- NET_EVT of 11 (R626). -/
def NET_EVT : Nat := 0x200A0004
/-- NET_NT_LO of 11 (R626). -/
def NET_NT_LO : Nat := 0x200A0008
/-- NET_NT_HI of 11 (R626). -/
def NET_NT_HI : Nat := 0x200A000C
/-- NET_NT_ADJ of 11 (R626). -/
def NET_NT_ADJ : Nat := 0x200A0010
/-- NET_NT_STEP_LO of 11 (R626). -/
def NET_NT_STEP_LO : Nat := 0x200A0014
/-- NET_NT_STEP_HI of 11 (R626). -/
def NET_NT_STEP_HI : Nat := 0x200A0018
/-- NET_NT_OFFSET of 11 (R626). -/
def NET_NT_OFFSET : Nat := 0x200A001C
/-- NET_LATCH of 11 (R626). -/
def NET_LATCH : Nat := 0x200A0020
/-- NET_LATCH_NT_LO of 11 (R626). -/
def NET_LATCH_NT_LO : Nat := 0x200A0024
/-- NET_LATCH_NT_HI of 11 (R626). -/
def NET_LATCH_NT_HI : Nat := 0x200A0028
/-- NET_LATCH_VT_LO of 11 (R626). -/
def NET_LATCH_VT_LO : Nat := 0x200A002C
/-- NET_LATCH_VT_HI of 11 (R626). -/
def NET_LATCH_VT_HI : Nat := 0x200A0030
/-- NET_NT_B_LO of 11 (R626). -/
def NET_NT_B_LO : Nat := 0x200A0034
/-- NET_NT_B_HI of 11 (R626). -/
def NET_NT_B_HI : Nat := 0x200A0038
/-- NET_PORT_CTL[p] of 11 (R626). -/
def NET_PORT_CTL (p : Nat) : Nat := 0x200A0040 + 0x20 * p
/-- NET_LAT_TX[p] of 11 (R626). -/
def NET_LAT_TX (p : Nat) : Nat := 0x200A0044 + 0x20 * p
/-- NET_LAT_RX[p] of 11 (R626). -/
def NET_LAT_RX (p : Nat) : Nat := 0x200A0048 + 0x20 * p
/-- NET_TXTS_HDR[p] of 11 (R626). -/
def NET_TXTS_HDR (p : Nat) : Nat := 0x200A004C + 0x20 * p
/-- NET_TXTS_NT[p] of 11 (R626). -/
def NET_TXTS_NT (p : Nat) : Nat := 0x200A0050 + 0x20 * p
/-- NET_SFP[p] of 11 (R626). -/
def NET_SFP (p : Nat) : Nat := 0x200A0054 + 0x20 * p
/-- NET_LATE_WIN[p] of 11 (R626). -/
def NET_LATE_WIN (p : Nat) : Nat := 0x200A0058 + 0x20 * p
/-- NET_RING_BASE_LO[p][r] of 11 (R626). -/
def NET_RING_BASE_LO (p : Nat) (r : Nat) : Nat := 0x200A0100 + 0x40 * p + 0x10 * r
/-- NET_RING_BASE_HI[p][r] of 11 (R626). -/
def NET_RING_BASE_HI (p : Nat) (r : Nat) : Nat := 0x200A0104 + 0x40 * p + 0x10 * r
/-- NET_RING_SIZE[p][r] of 11 (R626). -/
def NET_RING_SIZE (p : Nat) (r : Nat) : Nat := 0x200A0108 + 0x40 * p + 0x10 * r
/-- NET_RING_PTR[p][r] of 11 (R626). -/
def NET_RING_PTR (p : Nat) (r : Nat) : Nat := 0x200A010C + 0x40 * p + 0x10 * r
/-- NET_ORD_STAT of 11 (R626). -/
def NET_ORD_STAT : Nat := 0x200A0200
/-- NET_ORD_SEQ of 11 (R626). -/
def NET_ORD_SEQ : Nat := 0x200A0204
/-- NET_ORD_REL of 11 (R626). -/
def NET_ORD_REL : Nat := 0x200A0208
/-- NET_ORD_REF of 11 (R626). -/
def NET_ORD_REF : Nat := 0x200A020C
/-- NET_ORD_CNT of 11 (R626). -/
def NET_ORD_CNT : Nat := 0x200A0210
/-- NET_ORD_DUP of 11 (R626). -/
def NET_ORD_DUP : Nat := 0x200A0214
/-- NET_ORD_LAST of 11 (R626). -/
def NET_ORD_LAST : Nat := 0x200A0218
/-- NET_ORD_ENT[i] of 11 (R626). -/
def NET_ORD_ENT (i : Nat) : Nat := 0x200A0240 + 8 * i
/-- NET_ORD_VAL[i] of 11 (R626). -/
def NET_ORD_VAL (i : Nat) : Nat := 0x200A0244 + 8 * i
/-- NET_STAT_NEXT of 11 (R626). -/
def NET_STAT_NEXT : Nat := 0x200A0300
/-- NET_STAT_CNT of 11 (R626). -/
def NET_STAT_CNT : Nat := 0x200A0304
/-- NET_LATE_CNT of 11 (R626). -/
def NET_LATE_CNT : Nat := 0x200A0308
/-- NET_PRP_DUP of 11 (R626). -/
def NET_PRP_DUP : Nat := 0x200A0380
/-- NET_PRP_WRONG of 11 (R626). -/
def NET_PRP_WRONG : Nat := 0x200A0384
/-- NET_CNT_CLR of 11 (R626). -/
def NET_CNT_CLR : Nat := 0x200A0388
/-- DSP_STAT of 12 (R675). -/
def DSP_STAT : Nat := 0x20070000
/-- DSP_EVT of 12 (R675). -/
def DSP_EVT : Nat := 0x20070004
/-- DSP_BOOT_PC_LO of 12 (R675). -/
def DSP_BOOT_PC_LO : Nat := 0x20070010
/-- DSP_BOOT_PC_HI of 12 (R675). -/
def DSP_BOOT_PC_HI : Nat := 0x20070014
/-- DSP_WDOG_CFG of 12 (R675). -/
def DSP_WDOG_CFG : Nat := 0x20070020
/-- DSP_WDOG_KICK of 12 (R675). -/
def DSP_WDOG_KICK : Nat := 0x20070028
/-- DSP_WDOG_CNT of 12 (R675). -/
def DSP_WDOG_CNT : Nat := 0x20070030
/-- DSP_TR_BASE_LO of 12 (R675). -/
def DSP_TR_BASE_LO : Nat := 0x20070040
/-- DSP_TR_BASE_HI of 12 (R675). -/
def DSP_TR_BASE_HI : Nat := 0x20070044
/-- DSP_TR_SIZE of 12 (R675). -/
def DSP_TR_SIZE : Nat := 0x20070048
/-- DSP_TR_PTR of 12 (R675). -/
def DSP_TR_PTR : Nat := 0x2007004C
/-- DSP_TR_LOST of 12 (R675). -/
def DSP_TR_LOST : Nat := 0x20070050
/-- DSP_CTX_IDX of 12 (R675). -/
def DSP_CTX_IDX : Nat := 0x20070060
/-- DSP_CTX_INFO of 12 (R675). -/
def DSP_CTX_INFO : Nat := 0x20070064
/-- DSP_CMD[c] of 12 (R675). -/
def DSP_CMD (c : Nat) : Nat := 0x20070100 + 0x10 * c
/-- DSP_RES[c] of 12 (R675). -/
def DSP_RES (c : Nat) : Nat := 0x20070104 + 0x10 * c
/-- DSP_NEXT[c] of 12 (R675). -/
def DSP_NEXT (c : Nat) : Nat := 0x20070108 + 0x10 * c
/-- DSP_CUR[c] of 12 (R675). -/
def DSP_CUR (c : Nat) : Nat := 0x2007010C + 0x10 * c
/-- DSP_MTIMECMP_LO[c] of 12 (R675). -/
def DSP_MTIMECMP_LO (c : Nat) : Nat := 0x20070300 + 8 * c
/-- DSP_MTIMECMP_HI[c] of 12 (R675). -/
def DSP_MTIMECMP_HI (c : Nat) : Nat := 0x20070304 + 8 * c
/-- DSP_MSIP[c] of 12 (R675). -/
def DSP_MSIP (c : Nat) : Nat := 0x20070340 + 4 * c
/-- DSP_MTIME_LO of 12 (R675). -/
def DSP_MTIME_LO : Nat := 0x20070360
/-- DSP_MTIME_HI of 12 (R675). -/
def DSP_MTIME_HI : Nat := 0x20070364
/-- PLIC_PRIO[i] of 12 (R675). -/
def PLIC_PRIO (i : Nat) : Nat := 0x20078000 + 4 * i
/-- PLIC_PEND_LO of 12 (R675). -/
def PLIC_PEND_LO : Nat := 0x20078100
/-- PLIC_PEND_HI of 12 (R675). -/
def PLIC_PEND_HI : Nat := 0x20078104
/-- PLIC_EN_LO[c] of 12 (R675). -/
def PLIC_EN_LO (c : Nat) : Nat := 0x20078200 + 0x10 * c
/-- PLIC_EN_HI[c] of 12 (R675). -/
def PLIC_EN_HI (c : Nat) : Nat := 0x20078204 + 0x10 * c
/-- PLIC_THRESH[c] of 12 (R675). -/
def PLIC_THRESH (c : Nat) : Nat := 0x20078400 + 0x10 * c
/-- PLIC_CLAIM[c] of 12 (R675). -/
def PLIC_CLAIM (c : Nat) : Nat := 0x20078404 + 0x10 * c
/-- DMA_STAT of 12 (R676). -/
def DMA_STAT : Nat := 0x20080000
/-- DMA_EVT of 12 (R676). -/
def DMA_EVT : Nat := 0x20080004
/-- DMA_CH_CTL[n] of 12 (R676). -/
def DMA_CH_CTL (n : Nat) : Nat := 0x20080100 + 0x20 * n
/-- DMA_CH_STAT[n] of 12 (R676). -/
def DMA_CH_STAT (n : Nat) : Nat := 0x20080104 + 0x20 * n
/-- DMA_CH_DESC_LO[n] of 12 (R676). -/
def DMA_CH_DESC_LO (n : Nat) : Nat := 0x20080108 + 0x20 * n
/-- DMA_CH_DESC_HI[n] of 12 (R676). -/
def DMA_CH_DESC_HI (n : Nat) : Nat := 0x2008010C + 0x20 * n
/-- DMA_CH_LIMIT[n] of 12 (R676). -/
def DMA_CH_LIMIT (n : Nat) : Nat := 0x20080110 + 0x20 * n
/-- DMA_CH_DONE[n] of 12 (R676). -/
def DMA_CH_DONE (n : Nat) : Nat := 0x20080114 + 0x20 * n
/-- DMA_CH_AUDIT[n] of 12 (R676). -/
def DMA_CH_AUDIT (n : Nat) : Nat := 0x20080118 + 0x20 * n
/-- DMA_CH_EVT[n] of 12 (R676). -/
def DMA_CH_EVT (n : Nat) : Nat := 0x2008011C + 0x20 * n
/-- MEM_STAT of 12 (R677). -/
def MEM_STAT : Nat := 0x20090000
/-- MEM_EVT of 12 (R677). -/
def MEM_EVT : Nat := 0x20090004
/-- MEM_ARB_CFG of 12 (R677). -/
def MEM_ARB_CFG : Nat := 0x20090008
/-- MEM_GRANT_CLR of 12 (R677). -/
def MEM_GRANT_CLR : Nat := 0x2009000C
/-- MEM_ECC_A of 12 (R677). -/
def MEM_ECC_A : Nat := 0x20090010
/-- MEM_ECC_B of 12 (R677). -/
def MEM_ECC_B : Nat := 0x20090014
/-- MEM_ECC_ADDR_LO of 12 (R677). -/
def MEM_ECC_ADDR_LO : Nat := 0x20090018
/-- MEM_ECC_ADDR_HI of 12 (R677). -/
def MEM_ECC_ADDR_HI : Nat := 0x2009001C
/-- MEM_SCRUB of 12 (R677). -/
def MEM_SCRUB : Nat := 0x20090020
/-- MEM_WEIGHT[r] of 12 (R677). -/
def MEM_WEIGHT (r : Nat) : Nat := 0x20090100 + 4 * r
/-- MEM_GRANTS[r] of 12 (R677). -/
def MEM_GRANTS (r : Nat) : Nat := 0x20090200 + 4 * r
/-- FIO_STAT of 13 (R742). -/
def FIO_STAT : Nat := 0x200F0000
/-- FIO_EVT of 13 (R742). -/
def FIO_EVT : Nat := 0x200F0004
/-- FIO_IN of 13 (R742). -/
def FIO_IN : Nat := 0x200F0008
/-- FIO_IN_VT of 13 (R742). -/
def FIO_IN_VT : Nat := 0x200F000C
/-- FIO_OUT of 13 (R742). -/
def FIO_OUT : Nat := 0x200F0010
/-- FIO_OUT_STAT of 13 (R742). -/
def FIO_OUT_STAT : Nat := 0x200F0014
/-- FIO_CFG of 13 (R742). -/
def FIO_CFG : Nat := 0x200F0018
/-- FIO_GANG of 13 (R742). -/
def FIO_GANG : Nat := 0x200F001C
/-- FIO_RESUME of 13 (R742). -/
def FIO_RESUME : Nat := 0x200F0020
/-- FIO_OVL_CLR of 13 (R742). -/
def FIO_OVL_CLR : Nat := 0x200F0024
/-- FIO_SUPPLY of 13 (R742). -/
def FIO_SUPPLY : Nat := 0x200F0028
/-- FIO_LINK_CNT of 13 (R742). -/
def FIO_LINK_CNT : Nat := 0x200F002C
/-- FIO_LINK_FLD of 13 (R742). -/
def FIO_LINK_FLD : Nat := 0x200F0030
/-- FIO_CNT_CLR of 13 (R742). -/
def FIO_CNT_CLR : Nat := 0x200F0034
/-- FIO_IN_IRQ of 13 (R742). -/
def FIO_IN_IRQ : Nat := 0x200F0038
/-- SAF_STAT of 13 (R743). -/
def SAF_STAT : Nat := 0x20100000
/-- SAF_EVT of 13 (R743). -/
def SAF_EVT : Nat := 0x20100004
/-- SAF_PAIR of 13 (R743). -/
def SAF_PAIR : Nat := 0x20100008
/-- SAF_SO of 13 (R743). -/
def SAF_SO : Nat := 0x2010000C
/-- SAF_CAUSE of 13 (R743). -/
def SAF_CAUSE : Nat := 0x20100010
/-- SAF_BANK of 13 (R743). -/
def SAF_BANK : Nat := 0x20100014
/-- SAF_PB_CRC of 13 (R743). -/
def SAF_PB_CRC : Nat := 0x20100018
/-- SAF_CNT of 13 (R743). -/
def SAF_CNT : Nat := 0x2010001C
/-- SAF_TEST_CNT of 13 (R743). -/
def SAF_TEST_CNT : Nat := 0x20100020
/-- SAF_CNT_CLR of 13 (R743). -/
def SAF_CNT_CLR : Nat := 0x20100024
/-- SAF_ROLES of 13 (R743). -/
def SAF_ROLES : Nat := 0x20100040
/-- SAF_FUNCS of 13 (R743). -/
def SAF_FUNCS : Nat := 0x20100044
/-- SAF_PULSE of 13 (R743). -/
def SAF_PULSE : Nat := 0x20100048
/-- SAF_RESET_CFG of 13 (R743). -/
def SAF_RESET_CFG : Nat := 0x2010004C
/-- SAF_T_DISCH of 13 (R743). -/
def SAF_T_DISCH : Nat := 0x20100050
/-- SAF_T_DISC[i] of 13 (R743). -/
def SAF_T_DISC (i : Nat) : Nat := 0x20100060 + 4 * i
/-- ADC_STAT of 14 (R779). -/
def ADC_STAT : Nat := 0x200E0000
/-- ADC_EVT of 14 (R779). -/
def ADC_EVT : Nat := 0x200E0004
/-- ADC_CTL of 14 (R779). -/
def ADC_CTL : Nat := 0x200E0008
/-- ADC_JCTL of 14 (R779). -/
def ADC_JCTL : Nat := 0x200E000C
/-- ADC_JAT of 14 (R779). -/
def ADC_JAT : Nat := 0x200E0010
/-- ADC_IRQ_EN of 14 (R779). -/
def ADC_IRQ_EN : Nat := 0x200E0014
/-- ADC_NEW of 14 (R779). -/
def ADC_NEW : Nat := 0x200E0018
/-- ADC_RES_VT of 14 (R779). -/
def ADC_RES_VT : Nat := 0x200E001C
/-- ADC_ROUND of 14 (R779). -/
def ADC_ROUND : Nat := 0x200E0020
/-- ADC_SEQ[i] of 14 (R779). -/
def ADC_SEQ (i : Nat) : Nat := 0x200E0040 + 4 * i
/-- ADC_JSEQ[j] of 14 (R779). -/
def ADC_JSEQ (j : Nat) : Nat := 0x200E0080 + 4 * j
/-- ADC_OFS[m] of 14 (R779). -/
def ADC_OFS (m : Nat) : Nat := 0x200E00A0 + 4 * m
/-- ADC_GAIN[m] of 14 (R779). -/
def ADC_GAIN (m : Nat) : Nat := 0x200E00B0 + 4 * m
/-- ADC_RES[n] of 14 (R779). -/
def ADC_RES (n : Nat) : Nat := 0x200E0100 + 4 * n
/-- ADC_JRES[j] of 14 (R779). -/
def ADC_JRES (j : Nat) : Nat := 0x200E0140 + 4 * j
/-- SHF_CFG of 14 (R781). -/
def SHF_CFG (ch : Nat) : Nat := 0x200D0000 + 0x100 * ch + 0x0
/-- SHF_STAT of 14 (R781). -/
def SHF_STAT (ch : Nat) : Nat := 0x200D0000 + 0x100 * ch + 0x4
/-- SHF_EVT of 14 (R781). -/
def SHF_EVT (ch : Nat) : Nat := 0x200D0000 + 0x100 * ch + 0x8
/-- SHF_CNT of 14 (R781). -/
def SHF_CNT (ch : Nat) : Nat := 0x200D0000 + 0x100 * ch + 0xC
/-- SHF_CNT_B of 14 (R781). -/
def SHF_CNT_B (ch : Nat) : Nat := 0x200D0000 + 0x100 * ch + 0x10
/-- SHF_CNT_B_PC of 14 (R781). -/
def SHF_CNT_B_PC (ch : Nat) : Nat := 0x200D0000 + 0x100 * ch + 0x14
/-- SHF_IDX of 14 (R781). -/
def SHF_IDX (ch : Nat) : Nat := 0x200D0000 + 0x100 * ch + 0x18
/-- SHF_IDX_BAD of 14 (R781). -/
def SHF_IDX_BAD (ch : Nat) : Nat := 0x200D0000 + 0x100 * ch + 0x1C
/-- SHF_CPR of 14 (R781). -/
def SHF_CPR (ch : Nat) : Nat := 0x200D0000 + 0x100 * ch + 0x20
/-- SHF_ERR of 14 (R781). -/
def SHF_ERR (ch : Nat) : Nat := 0x200D0000 + 0x100 * ch + 0x24
/-- SHF_ABS_CFG of 14 (R781). -/
def SHF_ABS_CFG (ch : Nat) : Nat := 0x200D0000 + 0x100 * ch + 0x28
/-- SHF_ABS_TIME of 14 (R781). -/
def SHF_ABS_TIME (ch : Nat) : Nat := 0x200D0000 + 0x100 * ch + 0x2C
/-- SHF_ABS_CMD of 14 (R781). -/
def SHF_ABS_CMD (ch : Nat) : Nat := 0x200D0000 + 0x100 * ch + 0x30
/-- SHF_ABS_POS of 14 (R781). -/
def SHF_ABS_POS (ch : Nat) : Nat := 0x200D0000 + 0x100 * ch + 0x34
/-- SHF_ABS_VT of 14 (R781). -/
def SHF_ABS_VT (ch : Nat) : Nat := 0x200D0000 + 0x100 * ch + 0x38
/-- SHF_CNT_CLR of 14 (R781). -/
def SHF_CNT_CLR (ch : Nat) : Nat := 0x200D0000 + 0x100 * ch + 0x3C
/-- SHF_IRQ_EN of 14 (R781). -/
def SHF_IRQ_EN : Nat := 0x200D0200
/-- PWM_STAT of 15 (R801). -/
def PWM_STAT : Nat := 0x200C0000
/-- PWM_EVT of 15 (R801). -/
def PWM_EVT : Nat := 0x200C0004
/-- PWM_CTL of 15 (R801). -/
def PWM_CTL : Nat := 0x200C0008
/-- PWM_LOAD_RES of 15 (R801). -/
def PWM_LOAD_RES : Nat := 0x200C000C
/-- PWM_EN of 15 (R801). -/
def PWM_EN : Nat := 0x200C0010
/-- PWM_CHOP of 15 (R801). -/
def PWM_CHOP : Nat := 0x200C0014
/-- PWM_ARM_CMD of 15 (R801). -/
def PWM_ARM_CMD : Nat := 0x200C0018
/-- PWM_ARM_STAT of 15 (R801). -/
def PWM_ARM_STAT : Nat := 0x200C0020
/-- PWM_STG_PER[n] of 15 (R801). -/
def PWM_STG_PER (n : Nat) : Nat := 0x200C0100 + 0x20 * n
/-- PWM_STG_T[n] of 15 (R801). -/
def PWM_STG_T (n : Nat) : Nat := 0x200C0104 + 0x20 * n
/-- PWM_PER[n] of 15 (R801). -/
def PWM_PER (n : Nat) : Nat := 0x200C0108 + 0x20 * n
/-- PWM_T[n] of 15 (R801). -/
def PWM_T (n : Nat) : Nat := 0x200C010C + 0x20 * n
/-- PWM_MINOFF[n] of 15 (R801). -/
def PWM_MINOFF (n : Nat) : Nat := 0x200C0110 + 0x20 * n
/-- PWM_ARM_PER[n] of 15 (R801). -/
def PWM_ARM_PER (n : Nat) : Nat := 0x200C0114 + 0x20 * n
/-- PWM_ARM_T[n] of 15 (R801). -/
def PWM_ARM_T (n : Nat) : Nat := 0x200C0118 + 0x20 * n
/-- PWM_CH_STAT[n] of 15 (R801). -/
def PWM_CH_STAT (n : Nat) : Nat := 0x200C011C + 0x20 * n
/-- CAN_CTL of 15 (R821). -/
def CAN_CTL (p : Nat) : Nat := 0x200B0000 + 0x8000 * p + 0x0
/-- CAN_STAT of 15 (R821). -/
def CAN_STAT (p : Nat) : Nat := 0x200B0000 + 0x8000 * p + 0x4
/-- CAN_EVT of 15 (R821). -/
def CAN_EVT (p : Nat) : Nat := 0x200B0000 + 0x8000 * p + 0x8
/-- CAN_IRQ_EN of 15 (R821). -/
def CAN_IRQ_EN (p : Nat) : Nat := 0x200B0000 + 0x8000 * p + 0xC
/-- CAN_NBT of 15 (R821). -/
def CAN_NBT (p : Nat) : Nat := 0x200B0000 + 0x8000 * p + 0x10
/-- CAN_DBT of 15 (R821). -/
def CAN_DBT (p : Nat) : Nat := 0x200B0000 + 0x8000 * p + 0x14
/-- CAN_TDC of 15 (R821). -/
def CAN_TDC (p : Nat) : Nat := 0x200B0000 + 0x8000 * p + 0x18
/-- CAN_TS of 15 (R821). -/
def CAN_TS (p : Nat) : Nat := 0x200B0000 + 0x8000 * p + 0x1C
/-- CAN_TX_REQ_LO of 15 (R821). -/
def CAN_TX_REQ_LO (p : Nat) : Nat := 0x200B0000 + 0x8000 * p + 0x20
/-- CAN_TX_REQ_HI of 15 (R821). -/
def CAN_TX_REQ_HI (p : Nat) : Nat := 0x200B0000 + 0x8000 * p + 0x24
/-- CAN_TX_ABORT_LO of 15 (R821). -/
def CAN_TX_ABORT_LO (p : Nat) : Nat := 0x200B0000 + 0x8000 * p + 0x28
/-- CAN_TX_ABORT_HI of 15 (R821). -/
def CAN_TX_ABORT_HI (p : Nat) : Nat := 0x200B0000 + 0x8000 * p + 0x2C
/-- CAN_NEW_LO of 15 (R821). -/
def CAN_NEW_LO (p : Nat) : Nat := 0x200B0000 + 0x8000 * p + 0x30
/-- CAN_NEW_HI of 15 (R821). -/
def CAN_NEW_HI (p : Nat) : Nat := 0x200B0000 + 0x8000 * p + 0x34
/-- CAN_QUEUED of 15 (R821). -/
def CAN_QUEUED (p : Nat) : Nat := 0x200B0000 + 0x8000 * p + 0x38
/-- CAN_SENT of 15 (R821). -/
def CAN_SENT (p : Nat) : Nat := 0x200B0000 + 0x8000 * p + 0x3C
/-- CAN_DISCARDED of 15 (R821). -/
def CAN_DISCARDED (p : Nat) : Nat := 0x200B0000 + 0x8000 * p + 0x40
/-- CAN_TX_DISC of 15 (R821). -/
def CAN_TX_DISC (p : Nat) : Nat := 0x200B0000 + 0x8000 * p + 0x44
/-- CAN_RX_NOMATCH of 15 (R821). -/
def CAN_RX_NOMATCH (p : Nat) : Nat := 0x200B0000 + 0x8000 * p + 0x48
/-- CAN_RX_LOST of 15 (R821). -/
def CAN_RX_LOST (p : Nat) : Nat := 0x200B0000 + 0x8000 * p + 0x4C
/-- CAN_CNT_CLR of 15 (R821). -/
def CAN_CNT_CLR (p : Nat) : Nat := 0x200B0000 + 0x8000 * p + 0x50
/-- CAN_BUF_CFG[b] of 15 (R821). -/
def CAN_BUF_CFG (p : Nat) (b : Nat) : Nat := 0x200B0000 + 0x8000 * p + 0x1000 + 0x60 * b
/-- CAN_BUF_ID[b] of 15 (R821). -/
def CAN_BUF_ID (p : Nat) (b : Nat) : Nat := 0x200B0000 + 0x8000 * p + 0x1004 + 0x60 * b
/-- CAN_BUF_MASK[b] of 15 (R821). -/
def CAN_BUF_MASK (p : Nat) (b : Nat) : Nat := 0x200B0000 + 0x8000 * p + 0x1008 + 0x60 * b
/-- CAN_BUF_CTL[b] of 15 (R821). -/
def CAN_BUF_CTL (p : Nat) (b : Nat) : Nat := 0x200B0000 + 0x8000 * p + 0x100C + 0x60 * b
/-- CAN_BUF_TS[b] of 15 (R821). -/
def CAN_BUF_TS (p : Nat) (b : Nat) : Nat := 0x200B0000 + 0x8000 * p + 0x1010 + 0x60 * b
/-- CAN_BUF_QTS[b] of 15 (R821). -/
def CAN_BUF_QTS (p : Nat) (b : Nat) : Nat := 0x200B0000 + 0x8000 * p + 0x1014 + 0x60 * b
/-- CAN_BUF_DATA[b][w] of 15 (R821). -/
def CAN_BUF_DATA (p : Nat) (b : Nat) (w : Nat) : Nat := 0x200B0000 + 0x8000 * p + 0x1020 + 0x60 * b + 4 * w
/-- SYS_TEMP of 16 (R851). -/
def SYS_TEMP : Nat := 0x20000044
/-- SYS_TEMP_MAX of 16 (R851). -/
def SYS_TEMP_MAX : Nat := 0x20000048
/-- SYS_TEMP_S[i] of 16 (R851). -/
def SYS_TEMP_S (i : Nat) : Nat := 0x20000050 + 4 * i

end Reg

/-- Register rows of the tb block, in the order of its table. -/
def regRowsTb : List RegRow := [
  ⟨0x0, .ro, 0x0, 0x0, []⟩,  -- TB_VT_LO
  ⟨0x4, .ro, 0x0, 0x0, []⟩,  -- TB_VT_HI
  ⟨0x8, .ro, 0x0, 0x0, []⟩,  -- TB_PC
  ⟨0xC, .ro, 0xC, 0x0, []⟩,  -- TB_STAT
  ⟨0x10, .ro, 0x0, 0x0, []⟩,  -- TB_PERIOD
  ⟨0x14, .ro, 0x0, 0x0, []⟩,  -- TB_PERIOD_NEXT
  ⟨0x18, .ro, 0x0, 0x0, []⟩,  -- TB_NEXT_B_LO
  ⟨0x1C, .ro, 0x0, 0x0, []⟩,  -- TB_NEXT_B_HI
  ⟨0x20, .ro, 0x0, 0x0, []⟩,  -- TB_I_END
  ⟨0x24, .ro, 0x0, 0x0, []⟩,  -- TB_E_START
  ⟨0x28, .w1c, 0x0, 0xFFFFFFFF, []⟩,  -- TB_REPLICA_ERR
  ⟨0x2C, .ro, 0x21, 0x0, []⟩,  -- TB_ISLAND_MAP
  ⟨0x30, .w1c, 0x0, 0x3, []⟩,  -- TB_REPLICA_ERR_HI
  ⟨0x40, .ro, 0x0, 0x0, [(12, 4)]⟩,  -- TB_ULEAD[n]
  ⟨0x80, .ro, 0x0, 0x0, [(12, 4)]⟩,  -- TB_E_END[n]
  ⟨0xC0, .ro, 0x0, 0x0, [(12, 4)]⟩,  -- TB_MARGIN[n]
  ⟨0x100, .ro, 0x0, 0x0, [(12, 4)]⟩  -- TB_ENERGY_VOID[n]
]
/-- Register rows of the lane block, in the order of its table. -/
def regRowsLane : List RegRow := [
  ⟨0x0, .rw, 0x8, 0xFD, []⟩,  -- PRT_LANE_CTL
  ⟨0x4, .ro, 0x0, 0x0, []⟩,  -- PRT_LANE_STAT
  ⟨0x8, .w1c, 0x0, 0x7F, []⟩,  -- PRT_LANE_EVT
  ⟨0xC, .ro, 0x0, 0x0, []⟩,  -- PRT_RX_EYE
  ⟨0x10, .ro, 0x0, 0x0, []⟩,  -- PRT_RX_DESKEW
  ⟨0x14, .ro, 0x808080, 0x0, []⟩,  -- PRT_RX_POWER
  ⟨0x18, .ro, 0x808080, 0x0, []⟩,  -- PRT_TX_POWER
  ⟨0x1C, .ro, 0x0, 0x0, []⟩,  -- PRT_PHERR_MAX
  ⟨0x20, .ro, 0x0, 0x0, []⟩,  -- PRT_LOS_CNT
  ⟨0x24, .ro, 0x0, 0x0, []⟩,  -- PRT_LOL_CNT
  ⟨0x28, .ro, 0x0, 0x0, []⟩,  -- PRT_TRAIN_CNT
  ⟨0x2C, .ro, 0x0, 0x0, []⟩,  -- PRT_PRBS_ERR
  ⟨0x30, .wo, 0x0, 0xFFFFFFFF, []⟩  -- PRT_CNT_CLR
]
/-- Register rows of the frame block, in the order of its table. -/
def regRowsFrame : List RegRow := [
  ⟨0x100, .rw, 0x0, 0xFFFF, []⟩,  -- PRT_FRM_CTL
  ⟨0x104, .ro, 0x0, 0x0, []⟩,  -- PRT_FRM_STAT
  ⟨0x108, .w1c, 0x0, 0x3FF, []⟩,  -- PRT_FRM_EVT
  ⟨0x10C, .ro, 0x0, 0x0, []⟩,  -- PRT_BLK_DISC
  ⟨0x110, .ro, 0x0, 0x0, []⟩,  -- PRT_BLK_STALE
  ⟨0x114, .ro, 0x0, 0x0, []⟩,  -- PRT_ECHO_MISS
  ⟨0x118, .ro, 0x0, 0x0, []⟩,  -- PRT_ECHO_TOT
  ⟨0x11C, .wo, 0x0, 0xFFFFFFFF, []⟩,  -- PRT_FRM_CNT_CLR
  ⟨0x120, .ro, 0x0, 0x0, []⟩,  -- PRT_CENSUS
  ⟨0x124, .ro, 0x0, 0x0, []⟩,  -- PRT_CENSUS_RES
  ⟨0x128, .ro, 0x0, 0x0, []⟩,  -- PRT_T_PORT
  ⟨0x12C, .ro, 0x0, 0x0, []⟩,  -- PRT_T_DOWN
  ⟨0x130, .rw, 0x0, 0x7FF, []⟩,  -- PRT_DLY_IDX
  ⟨0x134, .ro, 0x0, 0x0, []⟩,  -- PRT_DLY_DATA
  ⟨0x138, .ro, 0x4, 0x0, []⟩,  -- PRT_HOLD
  ⟨0x13C, .ro, 0x0, 0x0, []⟩,  -- PRT_WIT_LAST
  ⟨0x140, .rw, 0x0, 0xFF01, []⟩,  -- PRT_CTL_REQ
  ⟨0x144, .rw, 0x0, 0xFFFFFF, []⟩,  -- PRT_CTL_TGT
  ⟨0x148, .rw, 0x0, 0xFFFF, []⟩,  -- PRT_CTL_XA
  ⟨0x14C, .rw, 0x0, 0xFFFFFFFF, []⟩,  -- PRT_CTL_ARG_LO
  ⟨0x150, .rw, 0x0, 0xFFFFFFFF, []⟩,  -- PRT_CTL_ARG_HI
  ⟨0x154, .ro, 0x0, 0x0, []⟩,  -- PRT_BAR_RES
  ⟨0x158, .ro, 0x0, 0x0, []⟩  -- PRT_ECHO_RES
]
/-- Register rows of the ae block, in the order of its table. -/
def regRowsAe : List RegRow := [
  ⟨0x0, .ro, 0x18, 0x0, []⟩,  -- AE_STAT
  ⟨0x4, .w1c, 0x0, 0x3FF, []⟩,  -- AE_EVT
  ⟨0x8, .ro, 0x0, 0x0, []⟩,  -- AE_LEVEL
  ⟨0xC, .ro, 0x0, 0x0, []⟩,  -- AE_INSERTED
  ⟨0x10, .ro, 0x0, 0x0, []⟩,  -- AE_OUT
  ⟨0x14, .ro, 0x0, 0x0, []⟩,  -- AE_REDUND
  ⟨0x18, .ro, 0x64, 0x0, []⟩,  -- AE_BAND
  ⟨0x1C, .ro, 0x1900014, 0x0, []⟩,  -- AE_BAND_LIM
  ⟨0x20, .ro, 0x640082, 0x0, []⟩,  -- AE_BAND_CFG
  ⟨0x24, .ro, 0x12C0FFF, 0x0, []⟩,  -- AE_SW_CFG
  ⟨0x28, .ro, 0x0, 0x0, []⟩,  -- AE_SW_RATE
  ⟨0x2C, .ro, 0x6400000, 0x0, []⟩,  -- AE_SPREAD
  ⟨0x30, .ro, 0x80802, 0x0, []⟩,  -- AE_SEL_CFG
  ⟨0x34, .ro, 0xA00000, 0x0, []⟩,  -- AE_PULSE
  ⟨0x38, .ro, 0x0, 0x0, []⟩,  -- AE_EDGE
  ⟨0x3C, .ro, 0x258, 0x0, []⟩,  -- AE_HOT_REL
  ⟨0x40, .ro, 0x40000000, 0x0, []⟩,  -- AE_I_DEAD
  ⟨0x44, .ro, 0x0, 0x0, []⟩,  -- AE_CNT_FRAC
  ⟨0x48, .ro, 0x0, 0x0, []⟩,  -- AE_CNT_DWELL
  ⟨0x4C, .ro, 0x0, 0x0, []⟩,  -- AE_CNT_DIR
  ⟨0x50, .ro, 0x0, 0x0, []⟩,  -- AE_CNT_MISS
  ⟨0x54, .ro, 0x0, 0x0, []⟩,  -- AE_CNT_NOORD
  ⟨0x58, .wo, 0x0, 0xFFFFFFFF, []⟩,  -- AE_CNT_CLR
  ⟨0x60, .rw, 0x0, 0x3FF, []⟩  -- AE_CELL_IDX
]
/-- Register rows of the ae block, in the order of its table. -/
def regRowsAe2 : List RegRow := [
  ⟨0x64, .ro, 0x0, 0x0, []⟩,  -- AE_CELL_INFO
  ⟨0x68, .ro, 0x0, 0x0, []⟩,  -- AE_CELL_SW
  ⟨0x70, .prv, 0x0, 0xC00003FF, []⟩,  -- AE_CELL_CMD
  ⟨0x74, .prc, 0xFFFFFFFF, 0xFFFFFFFF, []⟩  -- complement
]
/-- All register rows of the ae block. -/
def regRowsAeAll : List RegRow := regRowsAe ++ regRowsAe2
/-- Register rows of the audit block, in the order of its table. -/
def regRowsAudit : List RegRow := [
  ⟨0x200, .ro, 0x0, 0x0, []⟩,  -- PRT_AUD_STAT
  ⟨0x204, .w1c, 0x0, 0x7F, []⟩,  -- PRT_AUD_EVT
  ⟨0x208, .ro, 0x0, 0x0, []⟩,  -- PRT_AUD_FAIL
  ⟨0x20C, .ro, 0x0, 0x0, []⟩,  -- PRT_AUD_RUN
  ⟨0x210, .ro, 0x0, 0x0, []⟩,  -- PRT_AUD_PASS_PC
  ⟨0x214, .wo, 0x0, 0xFFFFFFFF, []⟩  -- PRT_AUD_CLR
]
/-- Register rows of the le block, in the order of its table. -/
def regRowsLe : List RegRow := [
  ⟨0x0, .ro, 0x0, 0x0, []⟩,  -- LE_STAT
  ⟨0x4, .w1c, 0x0, 0x7, []⟩,  -- LE_EVT
  ⟨0x8, .ro, 0x0, 0x0, []⟩,  -- LE_CNT_NUM
  ⟨0xC, .ro, 0x0, 0x0, []⟩,  -- LE_CNT_HELD
  ⟨0x10, .ro, 0x0, 0x0, []⟩,  -- LE_CNT_PAIR
  ⟨0x14, .ro, 0x0, 0x0, []⟩,  -- LE_CNT_LVCLAMP
  ⟨0x18, .wo, 0x0, 0xFFFFFFFF, []⟩,  -- LE_CNT_CLR
  ⟨0x1C, .ro, 0x0, 0x0, []⟩,  -- LE_CUE_CNT
  ⟨0x20, .rw, 0x0, 0x1FFF, []⟩,  -- LE_SLOT_IDX
  ⟨0x24, .ro, 0x0, 0x0, []⟩,  -- LE_SLOT_VAL
  ⟨0x28, .ro, 0x0, 0x0, []⟩  -- LE_SLOT_Q
]
/-- Register rows of the le0 block, in the order of its table. -/
def regRowsLe0 : List RegRow := [
  ⟨0x100, .ro, 0x20, 0x0, []⟩,  -- LE_FP_CFG
  ⟨0x104, .ro, 0x0, 0x0, []⟩,  -- LE_FP_STAT
  ⟨0x108, .w1c, 0x0, 0xFFF0F11, []⟩,  -- LE_FP_EVT
  ⟨0x140, .ro, 0x0, 0x0, [(12, 4)]⟩,  -- LE_FP_IOC[n]
  ⟨0x180, .ro, 0x0, 0x0, [(4, 4)]⟩,  -- LE_FP_VUV[m]
  ⟨0x190, .ro, 0x0, 0x0, [(4, 4)]⟩,  -- LE_FP_UVCH[m]
  ⟨0x1C0, .ro, 0x0, 0x0, [(12, 4)]⟩,  -- LE_FP_OCCH[n]
  ⟨0x200, .ro, 0x2, 0x0, []⟩,  -- LE_MEAS_CFG
  ⟨0x204, .w1c, 0x0, 0x1F, []⟩,  -- LE_ISL_EVT
  ⟨0x208, .ro, 0x0, 0x0, []⟩,  -- LE_MEAS_LOST
  ⟨0x300, .rw, 0x0, 0xFFFF, []⟩,  -- LE_EDDY_FREEZE
  ⟨0x304, .w1s, 0x0, 0xFFFF, []⟩,  -- LE_EDDY_CLEAR
  ⟨0x308, .ro, 0x0, 0x0, []⟩,  -- LE_EDDY_LEARN
  ⟨0x30C, .ro, 0x0, 0x0, []⟩,  -- LE_EDDY_CLAMP
  ⟨0x310, .ro, 0x0, 0x0, []⟩,  -- LE_EDDY_PAIR
  ⟨0x340, .ro, 0x0, 0x0, [(16, 4)]⟩,  -- LE_EDDY_NB[c]
  ⟨0x380, .rw, 0x0, 0xFFFF, []⟩,  -- LE_PROF_HOLD
  ⟨0x384, .ro, 0x0, 0x0, []⟩,  -- LE_PROF_STAT
  ⟨0x388, .ro, 0x0, 0x0, []⟩,  -- LE_PROF_JUMP
  ⟨0x3C0, .ro, 0x0, 0x0, [(16, 4)]⟩,  -- LE_PROF_X[c]
  ⟨0x400, .rw, 0x0, 0x31F06, []⟩,  -- LE_INJ_CTL
  ⟨0x404, .ro, 0x0, 0x0, []⟩,  -- LE_INJ_STAT
  ⟨0x408, .rw, 0x0, 0xDFFFDFFF, []⟩,  -- LE_INJ_MEAS
  ⟨0x40C, .rw, 0x0, 0xFFFFFFFF, []⟩  -- LE_INJ_AMP
]
/-- Register rows of the le0 block, in the order of its table. -/
def regRowsLe02 : List RegRow := [
  ⟨0x410, .rw, 0x70000, 0xF3F0F, []⟩,  -- LE_INJ_PRBS
  ⟨0x414, .rw, 0x0, 0xFFFFFFFF, []⟩,  -- LE_INJ_F0
  ⟨0x418, .rw, 0x0, 0xFFFFFFFF, []⟩,  -- LE_INJ_F1
  ⟨0x41C, .rw, 0x0, 0x1FFFFFF, []⟩,  -- LE_INJ_LEN
  ⟨0x420, .rw, 0x101, 0xFFFF, []⟩,  -- LE_INJ_STEP
  ⟨0x424, .rw, 0x0, 0x7F, []⟩,  -- LE_INJ_NF
  ⟨0x428, .rw, 0x0, 0xFFFFFFFF, []⟩,  -- LE_INJ_AMIN
  ⟨0x42C, .rw, 0x0, 0x3F, []⟩,  -- LE_INJ_FIDX
  ⟨0x430, .rw, 0x0, 0xFFFFFFFF, []⟩,  -- LE_INJ_FREQ
  ⟨0x434, .ro, 0x0, 0x0, []⟩,  -- LE_INJ_GAIN
  ⟨0x438, .ro, 0x0, 0x0, []⟩,  -- LE_INJ_PHASE
  ⟨0x43C, .ro, 0x0, 0x0, []⟩,  -- LE_INJ_AMAG
  ⟨0x440, .ro, 0x0, 0x0, []⟩,  -- LE_INJ_VALID_LO
  ⟨0x444, .ro, 0x0, 0x0, []⟩,  -- LE_INJ_VALID_HI
  ⟨0x1000, .prv, 0x3F800000, 0xFFFFFFFF, [(192, 8)]⟩,  -- LE_MCORR[c]
  ⟨0x1004, .prc, 0xC07FFFFF, 0xFFFFFFFF, [(192, 8)]⟩,  -- complement
  ⟨0x1800, .prv, 0x0, 0xFFFFFFFF, [(32, 8)]⟩,  -- LE_ORD[i]
  ⟨0x1804, .prc, 0xFFFFFFFF, 0xFFFFFFFF, [(32, 8)]⟩,  -- complement
  ⟨0x1A00, .ro, 0x0, 0x0, [(32, 8)]⟩,  -- LE_STATV[i]
  ⟨0x1A04, .ro, 0xFFFFFFFF, 0x0, [(32, 8)]⟩,  -- complement
  ⟨0x1B00, .ro, 0x0, 0x0, [(32, 4)]⟩  -- LE_STATV_Q[i]
]
/-- All register rows of the le0 block. -/
def regRowsLe0All : List RegRow := regRowsLe0 ++ regRowsLe02
/-- Register rows of the sch block, in the order of its table. -/
def regRowsSch : List RegRow := [
  ⟨0x0, .ro, 0x0, 0x0, []⟩,  -- SCH_STAT
  ⟨0x4, .w1c, 0x0, 0x1FF, []⟩,  -- SCH_EVT
  ⟨0x8, .ro, 0x0, 0x0, []⟩,  -- SCH_LOAD_RES
  ⟨0xC, .ro, 0x0, 0x0, []⟩,  -- SCH_ID
  ⟨0x10, .ro, 0x0, 0x0, []⟩,  -- SCH_ID_NEXT
  ⟨0x14, .ro, 0x0, 0x0, []⟩,  -- SCH_SLACK_WARN
  ⟨0x18, .ro, 0x0, 0x0, []⟩,  -- SCH_MISS_LAST
  ⟨0x1C, .ro, 0x0, 0x0, []⟩,  -- SCH_MISS_PER
  ⟨0x20, .ro, 0x7FFF7FFF, 0x0, []⟩,  -- SCH_SLACK
  ⟨0x24, .ro, 0x0, 0x0, []⟩,  -- SCH_SLACK_AT
  ⟨0x28, .ro, 0x0, 0x0, []⟩,  -- SCH_XING_MAX
  ⟨0x2C, .ro, 0x0, 0x0, []⟩,  -- SCH_XING_OVER
  ⟨0x30, .ro, 0x0, 0x0, []⟩,  -- SCH_STALE
  ⟨0x34, .wo, 0x0, 0xFFFFFFFF, []⟩,  -- SCH_CNT_CLR
  ⟨0x38, .ro, 0x0, 0x0, []⟩,  -- SCH_LAST_MISS
  ⟨0x3C, .ro, 0x0, 0x0, []⟩,  -- SCH_LAST_MISS_PC
  ⟨0x40, .ro, 0x0, 0x0, [(4, 4)]⟩,  -- SCH_LE_MISS[n]
  ⟨0x60, .ro, 0x0, 0x0, [(12, 4)]⟩,  -- SCH_ARM_MISS[n]
  ⟨0x90, .rw, 0x0, 0x3FF, []⟩,  -- SCH_XING_IDX
  ⟨0x94, .ro, 0x0, 0x0, []⟩  -- SCH_XING_DATA
]
/-- Register rows of the flt block, in the order of its table. -/
def regRowsFlt : List RegRow := [
  ⟨0x0, .ro, 0x8, 0x0, []⟩,  -- FLT_STAT
  ⟨0x4, .w1c, 0x0, 0x1FF, []⟩,  -- FLT_EVT
  ⟨0x8, .ro, 0x0, 0x0, []⟩,  -- FLT_REACT
  ⟨0xC, .ro, 0x0, 0x0, []⟩,  -- FLT_FIRST
  ⟨0x10, .ro, 0x0, 0x0, []⟩,  -- FLT_FIRST_VT_LO
  ⟨0x14, .ro, 0x0, 0x0, []⟩,  -- FLT_FIRST_VT_HI
  ⟨0x18, .ro, 0x0, 0x0, []⟩,  -- FLT_CNT_EVT
  ⟨0x1C, .ro, 0x0, 0x0, []⟩,  -- FLT_CNT_SQUALL
  ⟨0x20, .ro, 0x0, 0x0, []⟩,  -- FLT_CNT_LOCK
  ⟨0x24, .wo, 0x0, 0xFFFFFFFF, []⟩,  -- FLT_CNT_CLR
  ⟨0x40, .prv, 0x0, 0xC00000FF, []⟩,  -- FLT_CLEAR
  ⟨0x44, .prc, 0xFFFFFFFF, 0xFFFFFFFF, []⟩,  -- complement
  ⟨0x48, .prv, 0x0, 0xC00000FF, []⟩,  -- FLT_INJ
  ⟨0x4C, .prc, 0xFFFFFFFF, 0xFFFFFFFF, []⟩,  -- complement
  ⟨0x50, .prv, 0x0, 0xC0000000, []⟩,  -- FLT_CONV
  ⟨0x54, .prc, 0xFFFFFFFF, 0xFFFFFFFF, []⟩,  -- complement
  ⟨0x58, .rw, 0x0, 0xFFFFFFFF, []⟩,  -- FLT_INJ_AT
  ⟨0x5C, .ro, 0x0, 0x0, []⟩,  -- FLT_INJ_STAT
  ⟨0x100, .w1c, 0x0, 0xFFFFFFFF, [(8, 4)]⟩,  -- FLT_STICKY[m]
  ⟨0x120, .ro, 0x0, 0x0, [(8, 4)]⟩,  -- FLT_INJFLAG[m]
  ⟨0x140, .ro, 0x0, 0x0, [(8, 4)]⟩,  -- FLT_ACTIVE[m]
  ⟨0x160, .ro, 0x0, 0x0, [(8, 4)]⟩,  -- FLT_LOCKED[m]
  ⟨0x180, .rw, 0x0, 0xFFFFFFFF, [(8, 4)]⟩,  -- FLT_IRQ_EN[m]
  ⟨0x1A0, .ro, 0x0, 0x0, [(8, 4)]⟩  -- FLT_SQUALL[m]
]
/-- Register rows of the flt block, in the order of its table. -/
def regRowsFlt2 : List RegRow := [
  ⟨0x400, .ro, 0xA, 0x0, [(256, 4)]⟩,  -- FLT_SRC_CLASS[n]
  ⟨0x800, .ro, 0x0, 0x0, [(256, 4)]⟩,  -- FLT_SRC_WIN[n]
  ⟨0xC00, .ro, 0x3E8, 0x0, [(256, 4)]⟩,  -- FLT_SRC_LULL[n]
  ⟨0x1000, .ro, 0x8, 0x0, [(256, 4)]⟩  -- FLT_SRC_STATE[n]
]
/-- All register rows of the flt block. -/
def regRowsFltAll : List RegRow := regRowsFlt ++ regRowsFlt2
/-- Register rows of the gst block, in the order of its table. -/
def regRowsGst : List RegRow := [
  ⟨0x0, .ro, 0x0, 0x0, []⟩,  -- GST_STAT
  ⟨0x4, .w1c, 0x0, 0x7FF, []⟩,  -- GST_EVT
  ⟨0x8, .prv, 0x0, 0xC0000000, []⟩,  -- GST_CMD
  ⟨0xC, .prc, 0xFFFFFFFF, 0xFFFFFFFF, []⟩,  -- complement
  ⟨0x10, .rw, 0x80000002, 0xE00000FF, []⟩,  -- GST_CFG
  ⟨0x14, .rw, 0x0, 0xFFFFFF, []⟩,  -- GST_POST
  ⟨0x18, .rw, 0x0, 0xFFFFFF, []⟩,  -- GST_PRE_MIN
  ⟨0x1C, .rw, 0x0, 0xFFFFF, []⟩,  -- GST_TRIG_EN
  ⟨0x20, .ro, 0x0, 0x0, []⟩,  -- GST_TRIG_PC
  ⟨0x24, .ro, 0x0, 0x0, []⟩,  -- GST_TRIG_VT_LO
  ⟨0x28, .ro, 0x0, 0x0, []⟩,  -- GST_TRIG_VT_HI
  ⟨0x2C, .ro, 0x0, 0x0, []⟩,  -- GST_TRIG_SRC
  ⟨0x30, .ro, 0x0, 0x0, []⟩,  -- GST_PL_CAP
  ⟨0x34, .ro, 0x0, 0x0, []⟩,  -- GST_PL_SIZE
  ⟨0x38, .ro, 0x0, 0x0, []⟩,  -- GST_PL_HEAD
  ⟨0x3C, .ro, 0x0, 0x0, []⟩,  -- GST_PL_CNT
  ⟨0x40, .ro, 0x0, 0x0, []⟩,  -- GST_PL_FIRST_PC
  ⟨0x44, .ro, 0x0, 0x0, []⟩,  -- GST_TR_CAP
  ⟨0x48, .ro, 0x0, 0x0, []⟩,  -- GST_TR_HEAD
  ⟨0x4C, .ro, 0x0, 0x0, []⟩,  -- GST_TR_CNT
  ⟨0x50, .ro, 0x0, 0x0, []⟩,  -- GST_TR_FIRST_PC
  ⟨0x54, .ro, 0x0, 0x0, []⟩,  -- GST_CNT_LATE
  ⟨0x58, .ro, 0x0, 0x0, []⟩,  -- GST_CNT_DUP
  ⟨0x5C, .ro, 0x0, 0x0, []⟩  -- GST_CNT_PAIR
]
/-- Register rows of the gst block, in the order of its table. -/
def regRowsGst2 : List RegRow := [
  ⟨0x60, .ro, 0x0, 0x0, []⟩,  -- GST_MASK_VIOL
  ⟨0x64, .wo, 0x0, 0xFFFFFFFF, []⟩,  -- GST_CNT_CLR
  ⟨0x100, .rw, 0x0, 0x7B1FF, [(16, 0x20)]⟩,  -- GST_TU_CFG[u]
  ⟨0x104, .rw, 0x0, 0xFFFFFFFF, [(16, 0x20)]⟩,  -- GST_TU_LO[u]
  ⟨0x108, .rw, 0x0, 0xFFFFFFFF, [(16, 0x20)]⟩,  -- GST_TU_HI[u]
  ⟨0x10C, .rw, 0x0, 0xFFFFFF, [(16, 0x20)]⟩,  -- GST_TU_T1[u]
  ⟨0x110, .rw, 0x0, 0xFFFFFF, [(16, 0x20)]⟩,  -- GST_TU_T2[u]
  ⟨0x300, .rw, 0x0, 0x3FF, [(64, 4)]⟩,  -- GST_CH_SRC[n]
  ⟨0x400, .rw, 0x0, 0xEFFF07FF, [(4, 4)]⟩,  -- GST_MASK_CFG[m]
  ⟨0x8000, .rw, 0x0, 0xFFFFFFFF, [(4, 0x2000), (1024, 8)]⟩,  -- GST_ENV_UP[m][i]
  ⟨0x8004, .rw, 0x0, 0xFFFFFFFF, [(4, 0x2000), (1024, 8)]⟩  -- GST_ENV_LO[m][i]
]
/-- All register rows of the gst block. -/
def regRowsGstAll : List RegRow := regRowsGst ++ regRowsGst2
/-- Register rows of the twn block, in the order of its table. -/
def regRowsTwn : List RegRow := [
  ⟨0x0, .ro, 0x0, 0x0, []⟩,  -- TWN_STAT
  ⟨0x4, .w1c, 0x0, 0x3FF, []⟩,  -- TWN_EVT
  ⟨0x8, .ro, 0x0, 0x0, []⟩,  -- TWN_EPOCH
  ⟨0xC, .ro, 0xFFFFFFFF, 0x0, []⟩,  -- complement
  ⟨0x10, .prv, 0x0, 0xC0000000, []⟩,  -- TWN_CMD
  ⟨0x14, .prc, 0xFFFFFFFF, 0xFFFFFFFF, []⟩,  -- complement
  ⟨0x18, .ro, 0xC80004, 0x0, []⟩,  -- TWN_CFG
  ⟨0x1C, .ro, 0x2710, 0x0, []⟩,  -- TWN_RECLAIM
  ⟨0x20, .ro, 0x0, 0x0, []⟩,  -- TWN_VT_OFS_LO
  ⟨0x24, .ro, 0x0, 0x0, []⟩,  -- TWN_VT_OFS_HI
  ⟨0x28, .ro, 0x0, 0x0, []⟩,  -- TWN_PHASE
  ⟨0x2C, .ro, 0x0, 0x0, []⟩,  -- TWN_DELAY
  ⟨0x30, .ro, 0x0, 0x0, []⟩,  -- TWN_CKPT_PC
  ⟨0x34, .ro, 0xFFFFFFFF, 0x0, []⟩,  -- TWN_CKPT_AGE
  ⟨0x38, .ro, 0x0, 0x0, []⟩,  -- TWN_CKPT_CNT
  ⟨0x3C, .ro, 0x0, 0x0, []⟩,  -- TWN_CKPT_LEN
  ⟨0x40, .ro, 0x0, 0x0, []⟩,  -- TWN_WIT
  ⟨0x44, .ro, 0x0, 0x0, []⟩,  -- TWN_RES
  ⟨0x48, .ro, 0x0, 0x0, []⟩,  -- TWN_TKO_PC
  ⟨0x4C, .ro, 0x0, 0x0, []⟩,  -- TWN_SURR
  ⟨0x50, .ro, 0x0, 0x0, []⟩,  -- TWN_LIVE
  ⟨0x54, .wo, 0x0, 0xFFFFFFFF, []⟩,  -- TWN_CNT_CLR
  ⟨0x60, .ro, 0x0, 0x0, [(8, 4)]⟩  -- TWN_SURR_MASK[m]
]
/-- Register rows of the sys block, in the order of its table. -/
def regRowsSys : List RegRow := [
  ⟨0x0, .ro, 0xC120100, 0x0, []⟩,  -- SYS_ID
  ⟨0x4, .ro, 0x10000, 0x0, []⟩,  -- SYS_BOOT
  ⟨0x8, .w1c, 0x0, 0xFF, []⟩,  -- SYS_EVT
  ⟨0xC, .ro, 0x0, 0x0, []⟩,  -- SYS_IMG_RES
  ⟨0x10, .rw, 0x3, 0x3FFF, []⟩,  -- SYS_PD_CTL
  ⟨0x14, .ro, 0x3, 0x0, []⟩,  -- SYS_PD_STAT
  ⟨0x18, .ro, 0x0, 0x0, []⟩,  -- SYS_PD_USE
  ⟨0x1C, .ro, 0x0, 0x0, []⟩,  -- SYS_PWR_STAT
  ⟨0x20, .ro, 0x0, 0x0, []⟩,  -- SYS_FEED
  ⟨0x24, .ro, 0x0, 0x0, []⟩,  -- SYS_HOLD_V
  ⟨0x28, .ro, 0x0, 0x0, []⟩,  -- SYS_HOLD_C
  ⟨0x2C, .ro, 0x0, 0x0, []⟩,  -- SYS_HOLD_E
  ⟨0x30, .ro, 0x6400C8, 0x0, []⟩,  -- SYS_HOLD_CFG
  ⟨0x34, .ro, 0x0, 0x0, []⟩,  -- SYS_START_T
  ⟨0x38, .rw, 0x0, 0xFFFFFFFF, []⟩,  -- SYS_PM_USER_LO
  ⟨0x3C, .rw, 0x0, 0x3, []⟩,  -- SYS_PM_USER_HI
  ⟨0x40, .rw, 0x0, 0x1FFFFF, []⟩,  -- SYS_PM_USER_LEN
  ⟨0x44, .ro, 0x8000, 0x0, []⟩,  -- SYS_TEMP
  ⟨0x48, .ro, 0x8000, 0x0, []⟩,  -- SYS_TEMP_MAX
  ⟨0x50, .ro, 0x8000, 0x0, [(5, 4)]⟩  -- SYS_TEMP_S[i]
]
/-- Register rows of the key block, in the order of its table. -/
def regRowsKey : List RegRow := [
  ⟨0x0, .ro, 0x0, 0x0, []⟩,  -- KEY_STAT
  ⟨0x4, .w1c, 0x0, 0x3F, []⟩,  -- KEY_EVT
  ⟨0x8, .prv, 0x0, 0xF000000F, []⟩,  -- KEY_CMD
  ⟨0xC, .prc, 0xFFFFFFFF, 0xFFFFFFFF, []⟩,  -- complement
  ⟨0x10, .rw, 0x0, 0x7FFFFFF, []⟩,  -- KEY_ADDR
  ⟨0x14, .rw, 0x0, 0x1FFFFFF, []⟩,  -- KEY_LEN
  ⟨0x18, .rw, 0x0, 0xFFFFFFFF, []⟩,  -- KEY_BUF_LO
  ⟨0x1C, .rw, 0x0, 0x3, []⟩,  -- KEY_BUF_HI
  ⟨0x20, .ro, 0x0, 0x0, []⟩,  -- KEY_ID_LO
  ⟨0x24, .ro, 0x0, 0x0, []⟩,  -- KEY_ID_HI
  ⟨0x28, .ro, 0x0, 0x0, []⟩,  -- KEY_PM
  ⟨0x2C, .rw, 0x0, 0xF, []⟩,  -- KEY_LIFE_IDX
  ⟨0x30, .ro, 0x0, 0x0, []⟩,  -- KEY_LIFE_DATA
  ⟨0x34, .ro, 0x0, 0x0, []⟩,  -- KEY_FUSE
  ⟨0x40, .ro, 0x0, 0x0, [(8, 4)]⟩  -- KEY_PUBKEY[i]
]
/-- Register rows of the drf block, in the order of its table. -/
def regRowsDrf : List RegRow := [
  ⟨0x0, .ro, 0x0, 0x0, []⟩,  -- DRF_STAT
  ⟨0x4, .w1c, 0x0, 0xFF, []⟩,  -- DRF_EVT
  ⟨0x8, .prv, 0x0, 0xF0000000, []⟩,  -- DRF_CMD
  ⟨0xC, .prc, 0xFFFFFFFF, 0xFFFFFFFF, []⟩,  -- complement
  ⟨0x10, .rw, 0x0, 0xFFFFFFFF, []⟩,  -- DRF_SRC_LO
  ⟨0x14, .rw, 0x0, 0x3, []⟩,  -- DRF_SRC_HI
  ⟨0x18, .rw, 0x0, 0xFFFFFFFF, []⟩,  -- DRF_COMMIT_PC
  ⟨0x1C, .ro, 0x0, 0x0, []⟩,  -- DRF_RES
  ⟨0x20, .ro, 0x0, 0x0, []⟩,  -- DRF_STAGED
  ⟨0x24, .ro, 0x0, 0x0, []⟩,  -- DRF_PEND_PC
  ⟨0x28, .ro, 0x0, 0x0, []⟩,  -- DRF_SET_ID
  ⟨0x2C, .ro, 0x0, 0x0, []⟩,  -- DRF_SET_ID_EFF
  ⟨0x30, .ro, 0x0, 0x0, []⟩  -- DRF_CNT
]
/-- Register rows of the net block, in the order of its table. -/
def regRowsNet : List RegRow := [
  ⟨0x0, .ro, 0x0, 0x0, []⟩,  -- NET_STAT
  ⟨0x4, .w1c, 0x0, 0x1FF, []⟩,  -- NET_EVT
  ⟨0x8, .ro, 0x0, 0x0, []⟩,  -- NET_NT_LO
  ⟨0xC, .ro, 0x0, 0x0, []⟩,  -- NET_NT_HI
  ⟨0x10, .rw, 0x0, 0xFFFFFFFF, []⟩,  -- NET_NT_ADJ
  ⟨0x14, .wo, 0x0, 0xFFFFFFFF, []⟩,  -- NET_NT_STEP_LO
  ⟨0x18, .wo, 0x0, 0xFFFFFFFF, []⟩,  -- NET_NT_STEP_HI
  ⟨0x1C, .rw, 0x0, 0xFFFFFFFF, []⟩,  -- NET_NT_OFFSET
  ⟨0x20, .wo, 0x0, 0xFFFFFFFF, []⟩,  -- NET_LATCH
  ⟨0x24, .ro, 0x0, 0x0, []⟩,  -- NET_LATCH_NT_LO
  ⟨0x28, .ro, 0x0, 0x0, []⟩,  -- NET_LATCH_NT_HI
  ⟨0x2C, .ro, 0x0, 0x0, []⟩,  -- NET_LATCH_VT_LO
  ⟨0x30, .ro, 0x0, 0x0, []⟩,  -- NET_LATCH_VT_HI
  ⟨0x34, .ro, 0x0, 0x0, []⟩,  -- NET_NT_B_LO
  ⟨0x38, .ro, 0x0, 0x0, []⟩,  -- NET_NT_B_HI
  ⟨0x40, .rw, 0x0, 0x3, [(2, 0x20)]⟩,  -- NET_PORT_CTL[p]
  ⟨0x44, .rw, 0x0, 0xFFFF, [(2, 0x20)]⟩,  -- NET_LAT_TX[p]
  ⟨0x48, .rw, 0x0, 0xFFFF, [(2, 0x20)]⟩,  -- NET_LAT_RX[p]
  ⟨0x4C, .ro, 0x0, 0x0, [(2, 0x20)]⟩,  -- NET_TXTS_HDR[p]
  ⟨0x50, .ro, 0x0, 0x0, [(2, 0x20)]⟩,  -- NET_TXTS_NT[p]
  ⟨0x54, .ro, 0x0, 0x0, [(2, 0x20)]⟩,  -- NET_SFP[p]
  ⟨0x58, .ro, 0x7D, 0x0, [(2, 0x20)]⟩,  -- NET_LATE_WIN[p]
  ⟨0x100, .rw, 0x0, 0xFFFFFFFF, [(3, 0x40), (3, 0x10)]⟩,  -- NET_RING_BASE_LO[p][r]
  ⟨0x104, .rw, 0x0, 0x3, [(3, 0x40), (3, 0x10)]⟩  -- NET_RING_BASE_HI[p][r]
]
/-- Register rows of the net block, in the order of its table. -/
def regRowsNet2 : List RegRow := [
  ⟨0x108, .rw, 0x0, 0x3FF, [(3, 0x40), (3, 0x10)]⟩,  -- NET_RING_SIZE[p][r]
  ⟨0x10C, .rw, 0x0, 0x3FF, [(3, 0x40), (3, 0x10)]⟩,  -- NET_RING_PTR[p][r]
  ⟨0x200, .ro, 0x0, 0x0, []⟩,  -- NET_ORD_STAT
  ⟨0x204, .ro, 0x0, 0x0, []⟩,  -- NET_ORD_SEQ
  ⟨0x208, .wo, 0x0, 0xFFFFFFFF, []⟩,  -- NET_ORD_REL
  ⟨0x20C, .ro, 0x0, 0x0, []⟩,  -- NET_ORD_REF
  ⟨0x210, .ro, 0x0, 0x0, []⟩,  -- NET_ORD_CNT
  ⟨0x214, .ro, 0x0, 0x0, []⟩,  -- NET_ORD_DUP
  ⟨0x218, .ro, 0x0, 0x0, []⟩,  -- NET_ORD_LAST
  ⟨0x240, .ro, 0x0, 0x0, [(32, 8)]⟩,  -- NET_ORD_ENT[i]
  ⟨0x244, .ro, 0x0, 0x0, [(32, 8)]⟩,  -- NET_ORD_VAL[i]
  ⟨0x300, .ro, 0x0, 0x0, []⟩,  -- NET_STAT_NEXT
  ⟨0x304, .ro, 0x0, 0x0, []⟩,  -- NET_STAT_CNT
  ⟨0x308, .ro, 0x0, 0x0, []⟩,  -- NET_LATE_CNT
  ⟨0x380, .ro, 0x0, 0x0, []⟩,  -- NET_PRP_DUP
  ⟨0x384, .ro, 0x0, 0x0, []⟩,  -- NET_PRP_WRONG
  ⟨0x388, .wo, 0x0, 0x1, []⟩  -- NET_CNT_CLR
]
/-- All register rows of the net block. -/
def regRowsNetAll : List RegRow := regRowsNet ++ regRowsNet2
/-- Register rows of the dsp block, in the order of its table. -/
def regRowsDsp : List RegRow := [
  ⟨0x0, .ro, 0x0, 0x0, []⟩,  -- DSP_STAT
  ⟨0x4, .w1c, 0x0, 0x1F, []⟩,  -- DSP_EVT
  ⟨0x10, .rw, 0x0, 0xFFFFFFFF, []⟩,  -- DSP_BOOT_PC_LO
  ⟨0x14, .rw, 0x0, 0xFFFFFFFF, []⟩,  -- DSP_BOOT_PC_HI
  ⟨0x20, .rw, 0x0, 0x1FFFF, []⟩,  -- DSP_WDOG_CFG
  ⟨0x28, .prv, 0x0, 0xFFFFFFFF, []⟩,  -- DSP_WDOG_KICK
  ⟨0x2C, .prc, 0xFFFFFFFF, 0xFFFFFFFF, []⟩,  -- complement
  ⟨0x30, .ro, 0x0, 0x0, []⟩,  -- DSP_WDOG_CNT
  ⟨0x40, .rw, 0x0, 0xFFFFFFFF, []⟩,  -- DSP_TR_BASE_LO
  ⟨0x44, .rw, 0x0, 0x3, []⟩,  -- DSP_TR_BASE_HI
  ⟨0x48, .rw, 0x0, 0xFFFF, []⟩,  -- DSP_TR_SIZE
  ⟨0x4C, .rw, 0x0, 0xFFFF, []⟩,  -- DSP_TR_PTR
  ⟨0x50, .ro, 0x0, 0x0, []⟩,  -- DSP_TR_LOST
  ⟨0x60, .rw, 0x0, 0x7F, []⟩,  -- DSP_CTX_IDX
  ⟨0x64, .ro, 0x0, 0x0, []⟩,  -- DSP_CTX_INFO
  ⟨0x100, .wo, 0x0, 0xFFFFFF01, [(8, 0x10)]⟩,  -- DSP_CMD[c]
  ⟨0x104, .ro, 0x0, 0x0, [(8, 0x10)]⟩,  -- DSP_RES[c]
  ⟨0x108, .ro, 0x0, 0x0, [(8, 0x10)]⟩,  -- DSP_NEXT[c]
  ⟨0x10C, .ro, 0x0, 0x0, [(8, 0x10)]⟩,  -- DSP_CUR[c]
  ⟨0x300, .rw, 0xFFFFFFFF, 0xFFFFFFFF, [(8, 8)]⟩,  -- DSP_MTIMECMP_LO[c]
  ⟨0x304, .rw, 0xFFFFFFFF, 0xFFFFFFFF, [(8, 8)]⟩,  -- DSP_MTIMECMP_HI[c]
  ⟨0x340, .rw, 0x0, 0x1, [(8, 4)]⟩,  -- DSP_MSIP[c]
  ⟨0x360, .ro, 0x0, 0x0, []⟩,  -- DSP_MTIME_LO
  ⟨0x364, .ro, 0x0, 0x0, []⟩  -- DSP_MTIME_HI
]
/-- Register rows of the dsp block, in the order of its table. -/
def regRowsDsp2 : List RegRow := [
  ⟨0x8004, .rw, 0x0, 0x7, [(63, 4)]⟩,  -- PLIC_PRIO[i]
  ⟨0x8100, .ro, 0x0, 0x0, []⟩,  -- PLIC_PEND_LO
  ⟨0x8104, .ro, 0x0, 0x0, []⟩,  -- PLIC_PEND_HI
  ⟨0x8200, .rw, 0x0, 0xFFFFFFFE, [(8, 0x10)]⟩,  -- PLIC_EN_LO[c]
  ⟨0x8204, .rw, 0x0, 0xFFFFFFFF, [(8, 0x10)]⟩,  -- PLIC_EN_HI[c]
  ⟨0x8400, .rw, 0x0, 0x7, [(8, 0x10)]⟩,  -- PLIC_THRESH[c]
  ⟨0x8404, .rw, 0x0, 0xFFFFFFFF, [(8, 0x10)]⟩  -- PLIC_CLAIM[c]
]
/-- All register rows of the dsp block. -/
def regRowsDspAll : List RegRow := regRowsDsp ++ regRowsDsp2
/-- Register rows of the dma block, in the order of its table. -/
def regRowsDma : List RegRow := [
  ⟨0x0, .ro, 0x0, 0x0, []⟩,  -- DMA_STAT
  ⟨0x4, .w1c, 0x0, 0x1, []⟩,  -- DMA_EVT
  ⟨0x100, .rw, 0x0, 0x6, [(16, 0x20)]⟩,  -- DMA_CH_CTL[n]
  ⟨0x104, .ro, 0x0, 0x0, [(16, 0x20)]⟩,  -- DMA_CH_STAT[n]
  ⟨0x108, .rw, 0x0, 0xFFFFFFE0, [(16, 0x20)]⟩,  -- DMA_CH_DESC_LO[n]
  ⟨0x10C, .rw, 0x0, 0x3, [(16, 0x20)]⟩,  -- DMA_CH_DESC_HI[n]
  ⟨0x110, .rw, 0x400, 0xFFFF, [(16, 0x20)]⟩,  -- DMA_CH_LIMIT[n]
  ⟨0x114, .ro, 0x0, 0x0, [(16, 0x20)]⟩,  -- DMA_CH_DONE[n]
  ⟨0x118, .ro, 0x0, 0x0, [(16, 0x20)]⟩,  -- DMA_CH_AUDIT[n]
  ⟨0x11C, .w1c, 0x0, 0x3F, [(16, 0x20)]⟩  -- DMA_CH_EVT[n]
]
/-- Register rows of the mem block, in the order of its table. -/
def regRowsMem : List RegRow := [
  ⟨0x0, .ro, 0x0, 0x0, []⟩,  -- MEM_STAT
  ⟨0x4, .w1c, 0x0, 0xF, []⟩,  -- MEM_EVT
  ⟨0x8, .rw, 0x0, 0x1, []⟩,  -- MEM_ARB_CFG
  ⟨0xC, .wo, 0x0, 0xFFFFFFFF, []⟩,  -- MEM_GRANT_CLR
  ⟨0x10, .ro, 0x0, 0x0, []⟩,  -- MEM_ECC_A
  ⟨0x14, .ro, 0x0, 0x0, []⟩,  -- MEM_ECC_B
  ⟨0x18, .ro, 0x0, 0x0, []⟩,  -- MEM_ECC_ADDR_LO
  ⟨0x1C, .ro, 0x0, 0x0, []⟩,  -- MEM_ECC_ADDR_HI
  ⟨0x20, .ro, 0x0, 0x0, []⟩,  -- MEM_SCRUB
  ⟨0x100, .rw, 0x1, 0x1F, [(28, 4)]⟩,  -- MEM_WEIGHT[r]
  ⟨0x200, .ro, 0x0, 0x0, [(29, 4)]⟩  -- MEM_GRANTS[r]
]
/-- Register rows of the fio block, in the order of its table. -/
def regRowsFio : List RegRow := [
  ⟨0x0, .ro, 0x0, 0x0, []⟩,  -- FIO_STAT
  ⟨0x4, .w1c, 0x0, 0x7F, []⟩,  -- FIO_EVT
  ⟨0x8, .ro, 0x0, 0x0, []⟩,  -- FIO_IN
  ⟨0xC, .ro, 0x0, 0x0, []⟩,  -- FIO_IN_VT
  ⟨0x10, .rw, 0x0, 0xFFFF, []⟩,  -- FIO_OUT
  ⟨0x14, .ro, 0x0, 0x0, []⟩,  -- FIO_OUT_STAT
  ⟨0x18, .rw, 0x200, 0xF0F, []⟩,  -- FIO_CFG
  ⟨0x1C, .rw, 0x0, 0xFFF, []⟩,  -- FIO_GANG
  ⟨0x20, .wo, 0x0, 0xFFFFFFFF, []⟩,  -- FIO_RESUME
  ⟨0x24, .wo, 0x0, 0xFFFF, []⟩,  -- FIO_OVL_CLR
  ⟨0x28, .ro, 0x0, 0x0, []⟩,  -- FIO_SUPPLY
  ⟨0x2C, .ro, 0x0, 0x0, []⟩,  -- FIO_LINK_CNT
  ⟨0x30, .ro, 0x0, 0x0, []⟩,  -- FIO_LINK_FLD
  ⟨0x34, .wo, 0x0, 0xFFFFFFFF, []⟩,  -- FIO_CNT_CLR
  ⟨0x38, .rw, 0x0, 0xFFFFFFFF, []⟩  -- FIO_IN_IRQ
]
/-- Register rows of the saf block, in the order of its table. -/
def regRowsSaf : List RegRow := [
  ⟨0x0, .ro, 0x301, 0x0, []⟩,  -- SAF_STAT
  ⟨0x4, .w1c, 0x0, 0xFFF, []⟩,  -- SAF_EVT
  ⟨0x8, .ro, 0x0, 0x0, []⟩,  -- SAF_PAIR
  ⟨0xC, .ro, 0x0, 0x0, []⟩,  -- SAF_SO
  ⟨0x10, .ro, 0x1, 0x0, []⟩,  -- SAF_CAUSE
  ⟨0x14, .ro, 0x0, 0x0, []⟩,  -- SAF_BANK
  ⟨0x18, .ro, 0x0, 0x0, []⟩,  -- SAF_PB_CRC
  ⟨0x1C, .ro, 0x0, 0x0, []⟩,  -- SAF_CNT
  ⟨0x20, .ro, 0x0, 0x0, []⟩,  -- SAF_TEST_CNT
  ⟨0x24, .wo, 0x0, 0xFFFFFFFF, []⟩,  -- SAF_CNT_CLR
  ⟨0x40, .ro, 0x0, 0x0, []⟩,  -- SAF_ROLES
  ⟨0x44, .ro, 0x0, 0x0, []⟩,  -- SAF_FUNCS
  ⟨0x48, .ro, 0x0, 0x0, []⟩,  -- SAF_PULSE
  ⟨0x4C, .ro, 0x0, 0x0, []⟩,  -- SAF_RESET_CFG
  ⟨0x50, .ro, 0x0, 0x0, []⟩,  -- SAF_T_DISCH
  ⟨0x60, .ro, 0x0, 0x0, [(8, 4)]⟩  -- SAF_T_DISC[i]
]
/-- Register rows of the adc block, in the order of its table. -/
def regRowsAdc : List RegRow := [
  ⟨0x0, .ro, 0x0, 0x0, []⟩,  -- ADC_STAT
  ⟨0x4, .w1c, 0x0, 0xFF, []⟩,  -- ADC_EVT
  ⟨0x8, .rw, 0x0, 0xF0117, []⟩,  -- ADC_CTL
  ⟨0xC, .rw, 0x0, 0x800730FF, []⟩,  -- ADC_JCTL
  ⟨0x10, .rw, 0x0, 0xFFFFFFFF, []⟩,  -- ADC_JAT
  ⟨0x14, .rw, 0x64, 0xFFFFFFFF, []⟩,  -- ADC_IRQ_EN
  ⟨0x18, .w1c, 0x0, 0xFFFF, []⟩,  -- ADC_NEW
  ⟨0x1C, .ro, 0x0, 0x0, []⟩,  -- ADC_RES_VT
  ⟨0x20, .ro, 0x0, 0x0, []⟩,  -- ADC_ROUND
  ⟨0x40, .rw, 0x0, 0xF, [(16, 4)]⟩,  -- ADC_SEQ[i]
  ⟨0x80, .rw, 0x0, 0xF, [(4, 4)]⟩,  -- ADC_JSEQ[j]
  ⟨0xA0, .rw, 0x0, 0xFFFFFFFF, [(4, 4)]⟩,  -- ADC_OFS[m]
  ⟨0xB0, .rw, 0x3F800000, 0xFFFFFFFF, [(4, 4)]⟩,  -- ADC_GAIN[m]
  ⟨0x100, .ro, 0x0, 0x0, [(16, 4)]⟩,  -- ADC_RES[n]
  ⟨0x140, .ro, 0x0, 0x0, [(4, 4)]⟩  -- ADC_JRES[j]
]
/-- Register rows of the shf block, in the order of its table. -/
def regRowsShf : List RegRow := [
  ⟨0x0, .rw, 0x0, 0x71007, []⟩,  -- SHF_CFG
  ⟨0x4, .ro, 0x0, 0x0, []⟩,  -- SHF_STAT
  ⟨0x8, .w1c, 0x0, 0x3FF, []⟩,  -- SHF_EVT
  ⟨0xC, .rw, 0x0, 0xFFFFFFFF, []⟩,  -- SHF_CNT
  ⟨0x10, .ro, 0x0, 0x0, []⟩,  -- SHF_CNT_B
  ⟨0x14, .ro, 0x0, 0x0, []⟩,  -- SHF_CNT_B_PC
  ⟨0x18, .ro, 0x0, 0x0, []⟩,  -- SHF_IDX
  ⟨0x1C, .ro, 0x0, 0x0, []⟩,  -- SHF_IDX_BAD
  ⟨0x20, .rw, 0x0, 0xFFFFFFFF, []⟩,  -- SHF_CPR
  ⟨0x24, .ro, 0x0, 0x0, []⟩,  -- SHF_ERR
  ⟨0x28, .rw, 0x0, 0xF3FFFC7F, []⟩,  -- SHF_ABS_CFG
  ⟨0x2C, .rw, 0x190001, 0xFF0FFF, []⟩,  -- SHF_ABS_TIME
  ⟨0x30, .rw, 0x0, 0x1, []⟩,  -- SHF_ABS_CMD
  ⟨0x34, .ro, 0x0, 0x0, []⟩,  -- SHF_ABS_POS
  ⟨0x38, .ro, 0x0, 0x0, []⟩,  -- SHF_ABS_VT
  ⟨0x3C, .wo, 0x0, 0xFFFFFFFF, []⟩  -- SHF_CNT_CLR
]
/-- Register rows of the shfOnce block, in the order of its table. -/
def regRowsShfOnce : List RegRow := [
  ⟨0x200, .rw, 0x10001, 0x3FF03FF, []⟩  -- SHF_IRQ_EN
]
/-- Register rows of the pwm block, in the order of its table. -/
def regRowsPwm : List RegRow := [
  ⟨0x0, .ro, 0x0, 0x0, []⟩,  -- PWM_STAT
  ⟨0x4, .w1c, 0x0, 0x7F, []⟩,  -- PWM_EVT
  ⟨0x8, .rw, 0x2, 0x3, []⟩,  -- PWM_CTL
  ⟨0xC, .ro, 0x0, 0x0, []⟩,  -- PWM_LOAD_RES
  ⟨0x10, .rw, 0x0, 0xFFFF, []⟩,  -- PWM_EN
  ⟨0x14, .rw, 0x0, 0xFFFF, []⟩,  -- PWM_CHOP
  ⟨0x18, .prv, 0x0, 0xC0000000, []⟩,  -- PWM_ARM_CMD
  ⟨0x1C, .prc, 0xFFFFFFFF, 0xFFFFFFFF, []⟩,  -- complement
  ⟨0x20, .ro, 0x0, 0x0, []⟩,  -- PWM_ARM_STAT
  ⟨0x100, .rw, 0x0, 0xFFFFFF, [(16, 0x20)]⟩,  -- PWM_STG_PER[n]
  ⟨0x104, .rw, 0x0, 0x80FFFFFF, [(16, 0x20)]⟩,  -- PWM_STG_T[n]
  ⟨0x108, .ro, 0x0, 0x0, [(16, 0x20)]⟩,  -- PWM_PER[n]
  ⟨0x10C, .ro, 0x0, 0x0, [(16, 0x20)]⟩,  -- PWM_T[n]
  ⟨0x110, .rw, 0x0, 0xFFFF, [(16, 0x20)]⟩,  -- PWM_MINOFF[n]
  ⟨0x114, .rw, 0x0, 0xFFFFFF, [(16, 0x20)]⟩,  -- PWM_ARM_PER[n]
  ⟨0x118, .rw, 0x0, 0x80FFFFFF, [(16, 0x20)]⟩,  -- PWM_ARM_T[n]
  ⟨0x11C, .ro, 0x0, 0x0, [(16, 0x20)]⟩  -- PWM_CH_STAT[n]
]
/-- Register rows of the can block, in the order of its table. -/
def regRowsCan : List RegRow := [
  ⟨0x0, .rw, 0x41, 0xF3, []⟩,  -- CAN_CTL
  ⟨0x4, .ro, 0x0, 0x0, []⟩,  -- CAN_STAT
  ⟨0x8, .w1c, 0x0, 0x7FF, []⟩,  -- CAN_EVT
  ⟨0xC, .rw, 0x0, 0xFFFFFFFF, []⟩,  -- CAN_IRQ_EN
  ⟨0x10, .rw, 0x0, 0xFFFF7F7F, []⟩,  -- CAN_NBT
  ⟨0x14, .rw, 0x0, 0x1F1F0F0F, []⟩,  -- CAN_DBT
  ⟨0x18, .rw, 0x0, 0x17F, []⟩,  -- CAN_TDC
  ⟨0x1C, .ro, 0x0, 0x0, []⟩,  -- CAN_TS
  ⟨0x20, .w1s, 0x0, 0xFFFFFFFF, []⟩,  -- CAN_TX_REQ_LO
  ⟨0x24, .w1s, 0x0, 0xFFFFFFFF, []⟩,  -- CAN_TX_REQ_HI
  ⟨0x28, .w1s, 0x0, 0xFFFFFFFF, []⟩,  -- CAN_TX_ABORT_LO
  ⟨0x2C, .w1s, 0x0, 0xFFFFFFFF, []⟩,  -- CAN_TX_ABORT_HI
  ⟨0x30, .w1c, 0x0, 0xFFFFFFFF, []⟩,  -- CAN_NEW_LO
  ⟨0x34, .w1c, 0x0, 0xFFFFFFFF, []⟩,  -- CAN_NEW_HI
  ⟨0x38, .ro, 0x0, 0x0, []⟩,  -- CAN_QUEUED
  ⟨0x3C, .ro, 0x0, 0x0, []⟩,  -- CAN_SENT
  ⟨0x40, .ro, 0x0, 0x0, []⟩,  -- CAN_DISCARDED
  ⟨0x44, .ro, 0x0, 0x0, []⟩,  -- CAN_TX_DISC
  ⟨0x48, .ro, 0x0, 0x0, []⟩,  -- CAN_RX_NOMATCH
  ⟨0x4C, .ro, 0x0, 0x0, []⟩,  -- CAN_RX_LOST
  ⟨0x50, .wo, 0x0, 0xFFFFFFFF, []⟩,  -- CAN_CNT_CLR
  ⟨0x1000, .rw, 0x0, 0xF0000000, [(64, 0x60)]⟩,  -- CAN_BUF_CFG[b]
  ⟨0x1004, .rw, 0x0, 0xDFFFFFFF, [(64, 0x60)]⟩,  -- CAN_BUF_ID[b]
  ⟨0x1008, .rw, 0x0, 0xDFFFFFFF, [(64, 0x60)]⟩  -- CAN_BUF_MASK[b]
]
/-- Register rows of the can block, in the order of its table. -/
def regRowsCan2 : List RegRow := [
  ⟨0x100C, .rw, 0x0, 0xE0FFFF0F, [(64, 0x60)]⟩,  -- CAN_BUF_CTL[b]
  ⟨0x1010, .ro, 0x0, 0x0, [(64, 0x60)]⟩,  -- CAN_BUF_TS[b]
  ⟨0x1014, .ro, 0x0, 0x0, [(64, 0x60)]⟩,  -- CAN_BUF_QTS[b]
  ⟨0x1020, .rw, 0x0, 0xFFFFFFFF, [(64, 0x60), (16, 4)]⟩  -- CAN_BUF_DATA[b][w]
]
/-- All register rows of the can block. -/
def regRowsCanAll : List RegRow := regRowsCan ++ regRowsCan2

end Sys2Proof.Machine
end

