-- ==== Sys2Proof/Machine/Sparse.lean ====
section
/-! DEFINITION. Sparse tables: a list of (key, value) pairs with strictly rising keys, in which no entry equals what an
unlisted key reads as. Register files, memories and the large tables of the engines are held in this one form. -/

namespace Sys2Proof.Machine

/-- A table from numbers to values, its default kept outside the data. -/
abbrev Sparse (α : Type) := List (Nat × α)

/-- The entry of a key; an unlisted key reads as the default. DESIGN CHOICE: log entry 3. -/
def Sparse.get {α : Type} (d : Nat → α) (t : Sparse α) (k : Nat) : α :=
  match t with
  | [] => d k
  | (a, v) :: r => if a = k then v else Sparse.get d r k

/-- A table without a key. -/
def Sparse.drop {α : Type} (t : Sparse α) (k : Nat) : Sparse α :=
  match t with
  | [] => []
  | (a, v) :: r => if a = k then Sparse.drop r k else (a, v) :: Sparse.drop r k

/-- A pair put in its place before the first greater key. -/
def Sparse.place {α : Type} (t : Sparse α) (k : Nat) (v : α) : Sparse α :=
  match t with
  | [] => [(k, v)]
  | (a, w) :: r => if a < k then (a, w) :: Sparse.place r k v else (k, v) :: (a, w) :: r

/-- Writing an entry: the value an unlisted key reads as removes the entry, any other value lists it. -/
def Sparse.put {α : Type} [DecidableEq α] (d : Nat → α) (t : Sparse α) (k : Nat) (v : α) : Sparse α :=
  if v = d k then Sparse.drop t k else Sparse.place (Sparse.drop t k) k v

/-- The keys rise strictly from a bound on. -/
def Sparse.risesFrom {α : Type} (t : Sparse α) (b : Nat) : Bool :=
  match t with
  | [] => true
  | (a, _) :: r => decide (b ≤ a) && Sparse.risesFrom r (a + 1)

/-- No listed value is its key's default. -/
def Sparse.noDefault {α : Type} [DecidableEq α] (d : Nat → α) (t : Sparse α) : Bool :=
  t.all fun e => decide (e.2 ≠ d e.1)

/-- The canonical form: keys strictly rising, no entry equal to its default. -/
def Sparse.wf {α : Type} [DecidableEq α] (d : Nat → α) (t : Sparse α) : Bool :=
  Sparse.risesFrom t 0 && Sparse.noDefault d t

/-- Drops every key from `lo` up to, not including, `hi`: a stretch takes its reset contents. -/
def Sparse.clearRange {α : Type} (t : Sparse α) (lo hi : Nat) : Sparse α :=
  t.filter fun e => decide (e.1 < lo) || decide (hi ≤ e.1)

end Sys2Proof.Machine
end

