-- ==== Sys2Proof/Machine/RegMap.lean ====
section
/-! DEFINITION. The windows of the address map (R857) and what an address of a window names: a block, and within it a
register row or a hole (R17). -/

namespace Sys2Proof.Machine

/-- The blocks that own a register window (R857). -/
inductive Blk where
  | sys | tb | sch | drf | flt | gst | twn | dsp | dma | mem | net | can (p : Nat) | pwm | shf | adc | fio | saf | key
  | port (n : Nat) | ae (n : Nat) | le (n : Nat)
  deriving DecidableEq, Repr

/-- The fixed 64 KiB windows from 0x2000_0000 on, in address order (R857). -/
def fixedWindows : List Blk :=
  [.sys, .tb, .sch, .drf, .flt, .gst, .twn, .dsp, .dma, .mem, .net, .can 0, .pwm, .shf, .adc, .fio, .saf, .key]

/-- The window an address lies in, with the offset inside it (R857); none outside every window. -/
def windowOf (a : Nat) : Option (Blk × Nat) :=
  let w := a / 0x10000
  let off := a % 0x10000
  if w = 0x200B then some (if off < 0x8000 then (.can 0, off) else (.can 1, off - 0x8000))
  else if 0x2000 ≤ w ∧ w < 0x2012 then (fixedWindows[w - 0x2000]?).map fun b => (b, off)
  else if 0x2020 ≤ w ∧ w < 0x202C then some (.port (w - 0x2020), off)
  else if 0x2040 ≤ w ∧ w < 0x204C then some (.ae (w - 0x2040), off)
  else if 0x2060 ≤ w ∧ w < 0x2064 then some (.le (w - 0x2060), off)
  else none

/-- Does an offset hit a row? Arrays repeat the row at each stride. -/
def dimsHit (dims : List (Nat × Nat)) (rel : Nat) : Bool :=
  match dims with
  | [] => rel == 0
  | (c, st) :: ds => (List.range c).any fun i => decide (st * i ≤ rel) && dimsHit ds (rel - st * i)

/-- One-dimensional arrays by division, the rest by search. -/
def RegRow.hits (r : RegRow) (off : Nat) : Bool :=
  if off < r.off then false
  else match r.dims with
    | [] => off == r.off
    | [(c, st)] => (off - r.off) % st == 0 && decide ((off - r.off) / st < c)
    | ds => dimsHit ds (off - r.off)

/-- The first row of a table that an offset hits. -/
def rowIn (rows : List RegRow) (off : Nat) : Option RegRow :=
  match rows with
  | [] => none
  | r :: rs => if r.hits off then some r else rowIn rs off

/-- The register row at an offset of a block's window; none in a hole (R17). -/
def Blk.row (b : Blk) (off : Nat) : Option RegRow :=
  match b with
  | .sys => rowIn regRowsSys off
  | .tb => rowIn regRowsTb off
  | .sch => rowIn regRowsSch off
  | .drf => rowIn regRowsDrf off
  | .flt => rowIn regRowsFltAll off
  | .gst => rowIn regRowsGstAll off
  | .twn => if 0x800 ≤ off then rowIn regRowsLane (off - 0x800) else rowIn regRowsTwn off
  | .dsp => rowIn regRowsDspAll off
  | .dma => rowIn regRowsDma off
  | .mem => rowIn regRowsMem off
  | .net => rowIn regRowsNetAll off
  | .can _ => rowIn regRowsCanAll off
  | .pwm => rowIn regRowsPwm off
  | .shf =>
    if off = 0x200 then rowIn regRowsShfOnce off
    else if off < 0x200 then rowIn regRowsShf (off % 0x100) else none
  | .adc => rowIn regRowsAdc off
  | .fio => rowIn regRowsFio off
  | .saf => rowIn regRowsSaf off
  | .key => rowIn regRowsKey off
  | .port _ =>
    if off < 0x100 then rowIn regRowsLane off
    else if off < 0x200 then rowIn regRowsFrame off else rowIn regRowsAudit off
  | .ae _ => rowIn regRowsAeAll off
  | .le n => if n = 0 ∧ 0x100 ≤ off then rowIn regRowsLe0All off else rowIn regRowsLe off

/-- The register row at an address. -/
def rowAt (a : Nat) : Option RegRow :=
  match windowOf a with
  | some (b, off) => b.row off
  | none => none

/-- What a register holds at reset (the reset column of its table); a hole reads zero (R17). -/
def Reg.resetAt (a : Nat) : Word :=
  match rowAt a with
  | some r => r.reset
  | none => 0#32

/-- The value half of the pair an address belongs to. -/
def pairBase (a : Nat) : Nat :=
  match rowAt a with
  | some r => if r.acc = .prc then a - 4 else a
  | none => a

/-- The first address of a block's window and the one after its last. -/
def Blk.range (b : Blk) : Nat × Nat :=
  match b with
  | .sys => (0x20000000, 0x20010000)
  | .tb => (0x20010000, 0x20020000)
  | .sch => (0x20020000, 0x20030000)
  | .drf => (0x20030000, 0x20040000)
  | .flt => (0x20040000, 0x20050000)
  | .gst => (0x20050000, 0x20060000)
  | .twn => (0x20060000, 0x20070000)
  | .dsp => (0x20070000, 0x20080000)
  | .dma => (0x20080000, 0x20090000)
  | .mem => (0x20090000, 0x200A0000)
  | .net => (0x200A0000, 0x200B0000)
  | .can p => (0x200B0000 + 0x8000 * p, 0x200B8000 + 0x8000 * p)
  | .pwm => (0x200C0000, 0x200D0000)
  | .shf => (0x200D0000, 0x200E0000)
  | .adc => (0x200E0000, 0x200F0000)
  | .fio => (0x200F0000, 0x20100000)
  | .saf => (0x20100000, 0x20110000)
  | .key => (0x20110000, 0x20120000)
  | .port n => (0x20200000 + 0x10000 * n, 0x20210000 + 0x10000 * n)
  | .ae n => (0x20400000 + 0x10000 * n, 0x20410000 + 0x10000 * n)
  | .le n => (0x20600000 + 0x10000 * n, 0x20610000 + 0x10000 * n)

/-- Where a block's sticky PAIR_REFUSED flag stands: the register and the bit (R11, R13). -/
def Blk.pairRefused (b : Blk) : Option (Nat × Nat) :=
  match b with
  | .ae n => some (Reg.AE_EVT n, 9)
  | .le 0 => some (Reg.LE_ISL_EVT, 1)
  | .flt => some (Reg.FLT_EVT, 4)
  | .gst => some (Reg.GST_EVT, 5)
  | .twn => some (Reg.TWN_EVT, 9)
  | .key => some (Reg.KEY_EVT, 5)
  | .drf => some (Reg.DRF_EVT, 7)
  | .dsp => some (Reg.DSP_EVT, 4)
  | .pwm => some (Reg.PWM_EVT, 6)
  | _ => none

end Sys2Proof.Machine
end

