-- ==== Sys2Proof/Machine/FltTypes.lean ====
section
/-! DEFINITION. State of the fault collector and of the converter's reaction (07_fault_collection.md). -/

namespace Sys2Proof.Machine

/-- Source states (R384). -/
inductive SrcSt where
  | quiet | active | locked
  deriving DecidableEq, Repr

/-- A fault table entry (R378); the defaults are the reset entry of R393. -/
structure FltEntry where
  base : BitVec 2 := 2
  squall : BitVec 2 := 2
  n : Nat := 0
  win : BitVec 32 := 0
  lull : BitVec 32 := 0x3E8
  recLim : Nat := 0
  deriving DecidableEq, Repr

/-- What a Lull expiry or a host clear replaced, kept for an event that comes before it or in its tick (R374, R406). -/
structure Prior where
  /-- tick of the expiry or of the clear -/
  tick : BitVec 64
  st : SrcSt
  promoted : Bool
  recCnt : Nat
  ticks : List (BitVec 64)
  broken : Bool
  /-- a host clear, not an expiry -/
  clear : Bool
  /-- the expiry counted an entry to LOCKED -/
  locks : Bool
  /-- the bits of FLT_EVT that the expiry or clear set anew -/
  evt : Word
  deriving DecidableEq, Repr

/-- One fault source (R378 to R390). -/
structure Src where
  /-- the fault table entry in effect (R378) -/
  entry : FltEntry := {}
  /-- source state (R384) -/
  st : SrcSt := .quiet
  /-- promoted to the Squall class (R381) -/
  promoted : Bool := false
  /-- recovery count, saturating at 255 (R387) -/
  recCnt : Nat := 0
  /-- the state before the last event (R391, R406) -/
  wasSt : SrcSt := .quiet
  /-- event ticks of the last 15 events, newest first (R379) -/
  ticks : List (BitVec 64) := []
  /-- the last event tick, from which the Lull runs (R385) -/
  last : Option (BitVec 64) := none
  /-- WIN_CNT at the last event (R418) -/
  winCnt : Nat := 0
  /-- the last event was injected (R409) -/
  injected : Bool := false
  /-- the stored entry or state fails its pair check (R413) -/
  broken : Bool := false
  /-- what the last expiry or clear replaced, until the next event (R406) -/
  prior : Option Prior := none
  /-- event ticks of the last 16 events, also over a host clear: by them two words of a tick are known as one event (R372) -/
  heard : List (BitVec 64) := []
  /-- the entry before the last COMMIT that changed it, with the tick of that boundary (R374, R392) -/
  was : Option (BitVec 64 × FltEntry) := none
  deriving DecidableEq, Repr

/-- What the collector finds broken in its own state as it takes an EVENT word (R412, R413): the pair of the source's entry
or state, or the residue of counter FLT_CNT_EVT, FLT_CNT_SQUALL or FLT_CNT_LOCK at its update; `stays` where the residue
held with the counter stays wrong. -/
inductive FltDamage where
  | source
  | counter (c : Fin 3) (stays : Bool)
  deriving DecidableEq, Repr

/-- An armed injection (R407). -/
structure Inj where
  tick : BitVec 32
  src : Nat
  deriving DecidableEq, Repr

/-- The collector and the converter's block latch. -/
structure Flt where
  /-- the sources FS0 to FS255 (R375) -/
  srcs : Sparse Src := []
  /-- a fault table of an image is in effect (R418, TABLE) -/
  table : Bool := false
  /-- factory test mode (R539) -/
  factory : Bool := false
  /-- block latch (R395) -/
  latch : Bool := true
  /-- changes of the latch with the VT_P from which emits follow them, latest first; before the oldest, blocked
  (R396, R401). What no emit can ask for any more is left out. -/
  latchLog : List (BitVec 64 × Bool) := []
  /-- the pending injection (R407) -/
  inj : Option Inj := none
  /-- the event log: event tick bits 55 to 0 and source, latest event tick first, at most 8,192 (R573) -/
  log : List (BitVec 56 × BitVec 8) := []
  /-- the residue of one of the counters FLT_CNT_EVT, FLT_CNT_SQUALL and FLT_CNT_LOCK stays wrong, until they are cleared
  (R412) -/
  selfBad : Bool := false
  deriving DecidableEq, Repr

end Sys2Proof.Machine
end

