-- ==== Sys2Proof/Machine/LaneTypes.lean ====
section
/-! DEFINITION. State of the lanes of an arm port or of the twin port (02_uzofy_lanes.md). -/

namespace Sys2Proof.Machine

/-- The port states, coded as in PRT_LANE_STAT.STATE (R114). -/
inductive LaneSt where
  | off | clock | phase | level | align | check | data | fault | idle
  deriving DecidableEq, Repr

/-- The code of a port state (R114). -/
def LaneSt.code (s : LaneSt) : Nat :=
  match s with
  | .off => 0 | .clock => 1 | .phase => 2 | .level => 3 | .align => 4 | .check => 5 | .data => 6 | .fault => 7 | .idle => 8

/-- The receive fibres (R71). -/
inductive Fibre where
  | d0 | d1 | ck
  deriving DecidableEq, Repr

/-- What took the lock away: a receive phase error, in thousandths of a UI, that lasted 256 consecutive UI; the frequency
check; the port's own transmit multiplier (R97). -/
inductive LolCause where
  | phaseErr (err : Nat) | freq | txClk
  deriving DecidableEq, Repr

/-- What a receiver has measured when it reports a training stage as finished (R80, R91): the largest phase error of 4,096
consecutive UI in thousandths of a UI; the sampling steps at which all 64 frames were valid, per data lane; the mean of each
of the four levels, per lane; the arrival of each lane against CK in UI; the groups in error, per lane. -/
inductive StageMeas where
  | clock (err : Nat)
  | phase (good0 good1 : BitVec 32)
  | level (mean0 mean1 : Int × Int × Int × Int)
  | align (skew0 skew1 : Int)
  | check (err0 err1 : Nat)
  deriving DecidableEq, Repr

/-- One window of the frequency check: the deviation of the received CK in parts per billion, and the largest phase error
in thousandths of a UI (R80, R81). -/
structure FreqMeas where
  dev : Int
  err : Nat
  deriving DecidableEq, Repr

/-- A data lane of a port (R71). -/
structure DataLane where
  port : Fin 13
  lane : Fin 2
  deriving DecidableEq, Repr

/-- The 128 symbols of one block on each data lane, two bits each, the first in the most significant bits (R82, R117). -/
structure UpSymbols where
  d0 : BitVec 256
  d1 : BitVec 256
  deriving DecidableEq, Repr

/-- The check of received PRBS31 on one data lane: bits taken so far, the register that predicts the next, and in loop-back the
register that the port's own sequence has reached on its way back (R110). -/
structure PrbsChk where
  got : Nat := 0
  reg : BitVec 31 := 0
  own : Option (BitVec 31) := none
  deriving DecidableEq, Repr

/-- The lanes of one port (R98, R114). -/
structure Lane where
  /-- port state (R114) -/
  st : LaneSt := .off
  /-- up data has started, so that the port is in DATA for every other rule (R92) -/
  up : Bool := false
  /-- the own receiver has finished the present training stage (R90) -/
  rxDone : Bool := false
  /-- consecutive valid frames of the partner showing the stage as ready (R90) -/
  ready : Nat := 0
  /-- VT at which the present port state was entered (R91) -/
  stageAt : BitVec 64 := 0
  /-- full code of the last training failure (R93) -/
  failCode : BitVec 8 := 0
  /-- VT at which training last failed, or the port fault came (R93, R106) -/
  failAt : BitVec 64 := 0
  /-- in FAULT after a port fault or a failed training (R114) -/
  portFault : Bool := false
  /-- the last entry to FAULT was a failed training (R93, R106) -/
  trainFailed : Bool := false
  /-- D0 up is DARK (R98) -/
  dark0 : Bool := false
  /-- D1 up is DARK (R98) -/
  dark1 : Bool := false
  /-- CK up is DARK (R98) -/
  darkC : Bool := false
  /-- VT since which all three receive fibres have been LIT (R106) -/
  litAt : BitVec 64 := 0
  /-- the lock machine is in LOCKED (R98) -/
  locked : Bool := false
  /-- RX_LOCK (R114) -/
  rxLock : Bool := false
  /-- FREQ_OK (R114) -/
  freqOk : Bool := false
  /-- TX_CLK_LOCK (R114) -/
  txLock : Bool := false
  /-- loss of signal raised since the port last reached DATA (R100) -/
  losRaised : Bool := false
  /-- loss of lock raised since the port last reached DATA (R100) -/
  lolRaised : Bool := false
  /-- VT of the port fault in force (R100) -/
  faultAt : BitVec 64 := 0
  /-- LOOP in effect (R110) -/
  loopEff : BitVec 2 := 0
  /-- PRBS_TX in effect (R110) -/
  prbsTx : Bool := false
  /-- PRBS_RX in effect (R110) -/
  prbsRx : Bool := false
  /-- PLL multiplier of CK has passed one frequency check in this training (R91) -/
  freqOnce : Bool := false
  /-- the last training failure was a loss of lock under R97 (R93) -/
  failByLol : Bool := false
  /-- VT_P of the first data symbol sent, once training frames with STAGE = 6 go out (R92, R122) -/
  dataAt : BitVec 64 := 0
  /-- the receiver's last symbol index on each data lane in DATA (R85) -/
  rx0 : BitVec 2 := 0
  rx1 : BitVec 2 := 0
  /-- on X13: VT from which the three fibres sent are dark after a loss of lock on CK received (R79) -/
  darkFrom : Option (BitVec 64) := none
  /-- the PRBS31 checks of D0 and D1 (R110) -/
  prbs0 : PrbsChk := {}
  prbs1 : PrbsChk := {}
  /-- PRBS7's register before the first training frame of the present port state; none until the sequence has started (R89) -/
  seq7 : Option (BitVec 7) := none
  /-- the three slicer thresholds of D0 and of D1 that the last LEVEL stage has set, in half units of the levels measured; none
  before (R91) -/
  slicer0 : Option (Int × Int × Int) := none
  slicer1 : Option (Int × Int × Int) := none
  /-- the fibres that were DARK (D0, D1, CK from bit 0) as the microsecond `darkUs` since power-up of PD0 began (R111) -/
  darkWas : BitVec 3 := 0
  darkUs : Nat := 0
  /-- tick since power-up of PD0 at which the port's domain was switched on (R111, R859) -/
  onAt : Nat := 0
  deriving DecidableEq, Repr

end Sys2Proof.Machine
end

