-- ==== Sys2Proof/Machine/LineTypes.lean ====
section
/-! DEFINITION. How far the symbols of a port's data lanes have been worked out (02_uzofy_lanes.md, 03_uzofy_frames.md). -/

namespace Sys2Proof.Machine

/-- How far what a port sends on its data lanes has been worked out: the slot that begins at `at_`, the precoders before it
(R84), and the block of the transfer in progress on X13 that is next (R479). -/
structure LineAt where
  /-- the port's `dataAt` that this record belongs to -/
  since : BitVec 64 := 0
  at_ : BitVec 64 := 0
  y0 : BitVec 2 := 0
  y1 : BitVec 2 := 0
  next : Nat := 0
  deriving DecidableEq, Repr

end Sys2Proof.Machine
end

