-- ==== Sys2Proof/Machine/PortTypes.lean ====
section
/-! DEFINITION. State of an arm port above the lanes: frames, reports, census, calibration, control messages and the
insertion audit (03_uzofy_frames.md, 04_arm_engines.md). -/

namespace Sys2Proof.Machine

/-- A census record: address, kind, revision and serial number (R158). -/
structure CensusRec where
  addr : BitVec 24
  kind : BitVec 4
  rev : BitVec 4
  serial : BitVec 32
  deriving DecidableEq, Repr

/-- A device of the topology section's list (R532). -/
structure Dev where
  addr : BitVec 24
  kind : BitVec 4
  deriving DecidableEq, Repr

/-- The extended entry of a frame: index and second command word with their complements (R135). -/
structure Ext where
  idx : BitVec 16
  idxC : BitVec 16
  cmd : BitVec 16
  cmdC : BitVec 16
  deriving DecidableEq, Repr

/-- A command set: cell entries as (word, complement) pairs in cell-index order, and the extended entry (R130, R135). -/
structure CmdSet where
  cells : List (BitVec 16 × BitVec 16) := []
  ext : Option Ext := none
  deriving DecidableEq, Repr

/-- What an arm engine hands its port for a period (R196, R228). -/
inductive Handover where
  | none | noOrder | cmds (cs : CmdSet)
  deriving DecidableEq, Repr

/-- Why a command set goes out, which decides what PREV changes count (R205, R234). -/
inductive SendKind where
  | fresh | repeated | block00 | blockArm
  deriving DecidableEq, Repr

/-- What the port has decided at its due tick to emit (R358 to R360). -/
inductive Plan where
  | none | send (kind : SendKind) (cs : CmdSet)
  deriving DecidableEq, Repr

/-- A command frame the port has sent (R129). -/
structure Frame where
  epoch : BitVec 16
  pc : BitVec 32
  xaBase : BitVec 16
  period : Nat
  src : Bool
  blockArm : Bool
  cs : CmdSet
  kind : SendKind
  /-- cut off by a port fault during emit (R104) -/
  cut : Bool := false
  /-- VT_P of the cut: blocks sent in full by then stand, the block in transmission ends there (R104) -/
  cutAt : BitVec 64 := 0
  /-- VT_P of the start of its first block -/
  at_ : BitVec 64 := 0
  deriving DecidableEq, Repr

/-- A cell report as received, with both voltage halves (R142). -/
structure Report where
  volt : BitVec 16
  voltC : BitVec 16
  status : BitVec 8
  echo : BitVec 8
  deriving DecidableEq, Repr

/-- A control message waiting to be sent (R163). -/
structure Ctrl where
  op : BitVec 8
  target : BitVec 24
  xa : BitVec 16
  xaUsed : Bool
  arg : BitVec 64
  /-- requested by firmware through PRT_CTL_REQ (R191) -/
  fw : Bool
  /-- the EPOCH the message carries; none for the epoch in effect when it goes out (R163, R490) -/
  epoch : Option (BitVec 16) := none
  deriving DecidableEq, Repr

/-- An echo outstanding (R169, R170). -/
structure EchoOut where
  /-- device address -/
  target : BitVec 24
  /-- message sequence number -/
  seq : BitVec 8
  /-- departure in UI of VT -/
  ts : Nat
  /-- REPLY_OFS, ticks -/
  ofs : Nat
  deriving DecidableEq, Repr

/-- The steps of tree calibration (R173) and the recalibration round (R176). -/
inductive CalStep where
  | idle | census | echo (i : Nat) | finish | done | failed | recal (h : Nat)
  deriving DecidableEq, Repr

/-- The last witness block of a root (R184). -/
structure Witness where
  eMax : BitVec 16
  eMaxC : BitVec 16
  recs : List (BitVec 8)
  at_ : BitVec 64
  deriving DecidableEq, Repr

/-- An arm port. -/
structure Port where
  /-- command frames are being sent (PRT_FRM_STAT.FRAMES_ON, R190) -/
  framesOn : Bool := false
  /-- BLOCK_ARM of the last frame sent (R190) -/
  blockArm : Bool := false
  /-- commands may be sent: no port fault awaits its resume (R105) -/
  cmdsOn : Bool := true
  /-- the frames sent, newest first, as far back as the audits look (R148, R868). DEDUCED: log entry 8. -/
  sent : List Frame := []
  /-- what the port has sent in DATA, as far as it has been worked out (R84, R120) -/
  line : LineAt := {}
  /-- the command set of the last period that passed the audit since deblock (R55 to R57) -/
  passed : Option CmdSet := none
  /-- what the arm engine has handed over for the next frame (R228) -/
  hand : Handover := .none
  /-- the level order received on the port's own crossing: value and complement (R194) -/
  order : Option (BitVec 32 × BitVec 32) := none
  /-- the decision taken at the due tick (R358) -/
  plan : Plan := .none
  /-- the handover was flagged MISSED, or a miss notice has arrived, in this period (R355, R356, R358) -/
  handMissed : Bool := false
  notice : Bool := false
  /-- the due tick of this period has been decided (R357, R358) -/
  dueDone : Bool := false
  /-- a deblock whose emit phase has not come yet (R401) -/
  deblock : Bool := false
  /-- a safety block line is asserted towards the port (R681) -/
  lineA : Bool := false
  lineB : Bool := false
  /-- VT_P at which the first of them reached the port (R681) -/
  lineAt : Option (BitVec 64) := none
  /-- up block slots since the first block after DATA (R121) -/
  slot : Nat := 0
  /-- UP_PHASE, UI (R123) -/
  upPhase : Nat := 0
  /-- RPT bodies accepted for periods whose intake is still to come, by 1,024 times the low two bits of the period's PC plus
  the block index (R146) -/
  rpt : Sparse (Option (BitVec 460)) := []
  /-- RPT blocks arrive for a period that already missed by a port fault (R103) -/
  rptLost : Bool := false
  /-- what was through its checks when the port left DATA: it still counts at the next intake (R103) -/
  rptKept : Sparse (Option (BitVec 460)) := []
  /-- reports of the last intake, by cell index; none where missing (R147) -/
  reports : List (Option Report) := []
  /-- the STATE each cell reported in the last intake, whether or not the report counted as missing (R205). DEDUCED:
  log entry 32. -/
  reported : List (Option (BitVec 2)) := []
  /-- node samples of the last intake: four channels per node, none where missing (R144) -/
  nodes : List (Option (BitVec 16 × BitVec 16 × BitVec 16 × BitVec 16)) := []
  /-- node entries already passed to fast protection, by 1,024 times the low two bits of their period's PC plus the entry
  (R288) -/
  nodesSeen : List Nat := []
  /-- up blocks discarded under R121 since the last boundary (R151) -/
  discs : Nat := 0
  /-- PC of the first frame sent since commands last began or resumed (R152) -/
  echoFrom : Option (BitVec 32) := none
  /-- echo accounting has started since then (R152) -/
  echoRun : Bool := false
  /-- ECHO_MISS and the absent reports of the intake of this period (R149, PRT_ECHO_MISS) -/
  echoMiss : Nat := 0
  absentNow : Nat := 0
  /-- census records received in this census (R158) -/
  census : List CensusRec := []
  /-- the last census passed (R190, CENSUS_OK) -/
  censusOk : Bool := false
  /-- device positions found absent by the last census (R159) -/
  absent : List Nat := []
  /-- calibration step (R173) -/
  cal : CalStep := .idle
  /-- the steps of R173 have completed since the port last reached DATA (R105, R545) -/
  calDone : Bool := false
  /-- a first calibration has completed (R175) -/
  calOnce : Bool := false
  /-- DELAY of each device by topology position, UI (R169) -/
  delays : Sparse (Option Nat) := []
  /-- t_port in UI, t_down in ticks (R175) -/
  tPort : Nat := 0
  tDown : Nat := 0
  /-- VT_P of the last CENSUS message (R159) -/
  censusAt : BitVec 64 := 0
  /-- VT_P at which the steps of R173 last began (R546) -/
  calAt : BitVec 64 := 0
  /-- control messages waiting, oldest first (R162) -/
  ctrl : List Ctrl := []
  /-- message sequence number of the next CTRL block (R125) -/
  ctrlSeq : BitVec 8 := 0
  /-- the CTRL message last sent, with its sequence number and the tick of its first symbol (R163) -/
  lastCtrl : Option (Ctrl × BitVec 8 × BitVec 64) := none
  /-- the echo outstanding that calibration or a recalibration round has sent (R169, R173, R176) -/
  echo : Option EchoOut := none
  /-- the echo outstanding that firmware has asked for (R192) -/
  echoFw : Option EchoOut := none
  /-- the barrier outstanding: ID and VT_P of its deadline (R189) -/
  barrier : Option (BitVec 8 × BitVec 64) := none
  /-- a firmware request is waiting or in progress (R190, BUSY) -/
  busy : Bool := false
  /-- snapshot bodies received, by block index (R164, R167) -/
  snap : Sparse (Option (BitVec 460)) := []
  /-- XA of the last SNAP sent (R164) -/
  snapXa : Option (BitVec 16) := none
  /-- the last witness (R184) -/
  wit : Option Witness := none
  /-- E_MAX of each WITNESS of the last L, both halves, with its tick, newest first (R48, R494) -/
  eMaxs : List (BitVec 16 × BitVec 16 × BitVec 64) := []
  /-- HOLD_PERIODS sent to the tree (R190, PRT_HOLD) -/
  hold : Nat := 4
  deriving DecidableEq, Repr

end Sys2Proof.Machine
end

