-- ==== Sys2Proof/Machine/AeTypes.lean ====
section
/-! DEFINITION. State of an arm engine: parameters, cell table, rank, selection and adaptive band
(04_arm_engines.md). -/

namespace Sys2Proof.Machine

/-- The parameters of R220 except CDLY; the defaults are the defaults of that table. -/
structure AeParams where
  bInit : Nat := 100
  bMin : Nat := 20
  bMax : Nat := 400
  bStep : Nat := 8
  hyst : Nat := 2
  swTgt : Nat := 300
  wSw : Nat := 4096
  spreadLim : Nat := 1600
  dwellMin : Nat := 2
  swapMax : Nat := 8
  staleLim : Nat := 8
  minPulse : Nat := 160
  iDead : BitVec 32 := 0x40000000
  hotRelease : Nat := 600
  redAll : Nat := 0
  redFb : Nat := 0
  adaptEn : Bool := true
  deriving DecidableEq, Repr

/-- A cell record (the list before R198). -/
structure Cell where
  /-- last valid voltage, counts, and its complement (R48, R198) -/
  v : BitVec 16 := 0
  vC : BitVec 16 := 0xFFFF
  /-- periods without a valid report, saturating at 255 (R198) -/
  age : Nat := 0
  /-- state at the end of the period in execution (R205) -/
  prev : BitVec 2 := 0
  /-- PREV of the period before: the state in force before the first edge of the period in execution (R868) -/
  before : BitVec 2 := 0
  /-- periods since PREV last changed, saturating at 255 (R206) -/
  dwell : Nat := 0
  /-- last reported HOT (R198) -/
  hot : Bool := false
  /-- OUT reason, 0 in service (R199) -/
  out : Nat := 0
  /-- full-bridge cell, as the census found it (R134) -/
  fb : Bool := false
  /-- compensation in quarter ticks (R220) -/
  cdly : Nat := 0
  /-- STATUS of the last valid report (R142, R199, R247) -/
  status : BitVec 8 := 0
  /-- changes of the cell in the window in progress and in the last one (R245, AE_CELL_SW) -/
  chg : Nat := 0
  chgLast : Nat := 0
  deriving DecidableEq, Repr

/-- The result of the selection stage, before the edges are placed (R213). -/
structure Sel where
  /-- end-of-period state of each cell, in index order -/
  states : List (BitVec 2)
  /-- λ < 0 -/
  neg : Bool
  /-- the pulsing cell and its width (R221, R223) -/
  pulse : Option (Nat × Nat)
  deriving DecidableEq, Repr

/-- The six sums of an arm engine (R267). -/
structure ArmSums where
  nHb : Nat := 0
  nFb : Nat := 0
  vHb : Nat := 0
  vFb : Nat := 0
  qHb : Nat := 0
  qFb : Nat := 0
  deriving DecidableEq, Repr

/-- An arm engine. -/
structure Ae where
  /-- parameters in effect (R220) -/
  par : AeParams := {}
  /-- the cell table in cell-index order -/
  cells : List Cell := []
  /-- the level order of the period, value and complement (R194) -/
  order : Option (BitVec 32 × BitVec 32) := none
  /-- the arm current of the period, value and complement (R194) -/
  current : Option (BitVec 32 × BitVec 32) := none
  /-- direction: charging (R209, R210) -/
  charging : Bool := true
  /-- cells not OUT in ascending rank, from the RANK stage (R211) -/
  rank : Option (List Nat) := none
  /-- the SELECT stage's result; `some none` stands for NO_ORDER (R196) -/
  sel : Option (Option Sel) := none
  /-- a later stage of the period does not run any more (R356) -/
  stop : Bool := false
  /-- the SELECT stage of the period has started (R357) -/
  selStarted : Bool := false
  /-- end of each stage unit's occupation: RANK, SELECT, PLACE (R338) -/
  busyTo : Sparse (BitVec 64) := []
  /-- what is on its way to the port, and whether it is flagged MISSED (R228, R356) -/
  out : Handover := .none
  outMissed : Bool := false
  /-- the sums published in this period (R267) -/
  sums : Option ArmSums := none
  /-- B in effect (R233) -/
  band : Nat := 100
  /-- B decided at the end of a window, taken at the next boundary (R233) -/
  bandNext : Option Nat := none
  /-- periods of the adaptation window counted (R233) -/
  winCount : Nat := 0
  /-- changes counted in the window (R234) -/
  changes : Nat := 0
  /-- the spread exceeded its limit in the window (R233) -/
  spreadHit : Bool := false
  /-- spread and pool size of the last period (R218, R234) -/
  spread : Nat := 0
  pool : Nat := 0
  spreadHigh : Bool := false
  /-- a firmware cell command waiting for its compute phase: latch or release, index (R246) -/
  cellCmd : List (Bool × Nat) := []
  /-- those whose compute phase this period's is (R246) -/
  cellNow : List (Bool × Nat) := []
  /-- the last level order used, n of the last command set, and B_eff (R245) -/
  lamLast : BitVec 32 := 0
  nLast : Nat := 0
  bEff : Nat := 0
  /-- λ < 0, pulse present, set built, in the last period (AE_STAT) -/
  neg : Bool := false
  pulsing : Option Nat := none
  ran : Bool := false
  /-- smallest and largest CDLY over the cells found (R227) -/
  dMin : Nat := 0
  dMax : Nat := 0
  deriving DecidableEq, Repr

end Sys2Proof.Machine
end

