-- ==== Sys2Proof/Machine/SchTypes.lean ====
section
/-! DEFINITION. The schedule section as the part holds it, and the state of the schedule contract
(06_schedule_contract.md). -/

namespace Sys2Proof.Machine

/-- A port table entry (R322). -/
structure SchPort where
  u : Nat := 0
  eEnd : Nat := 0
  m : Nat := 0
  ncell : Nat := 0
  nnode : Nat := 0
  tDecl : Nat := 0
  deriving DecidableEq, Repr

/-- An arm-engine table entry: the start ticks of the stages (R323). -/
structure SchAe where
  rankAt : Nat := 0
  selectAt : Nat := 0
  placeAt : Nat := 0
  deriving DecidableEq, Repr

/-- A crossing table entry (R324). -/
structure Xing where
  src : Nat := 0
  dst : Nat := 0
  ep : Nat := 0
  decl : Nat := 0
  dstBase : Nat := 0
  words : Nat := 0
  kind : Nat := 0
  deriving DecidableEq, Repr

/-- A cue (R325); an input is its PREV flag and slot, none for an unused one. -/
structure Cue where
  start : Nat := 0
  block : Nat := 0
  lanes : Nat := 0
  param : Nat := 0
  state : Nat := 0
  ins : List (Option (Bool × Nat)) := []
  dest : Nat := 0
  xing : Option Nat := none
  affect : BitVec 12 := 0
  deriving DecidableEq, Repr

/-- A schedule section (R321 to R325). -/
structure SchSection where
  p : Nat := 0
  iEnd : Nat := 0
  eStart : Nat := 0
  mask : BitVec 12 := 0
  id : BitVec 32 := 0
  slackWarn : Nat := 0
  ports : List SchPort := []
  aes : List SchAe := []
  xings : List Xing := []
  /-- cue lists of LE0 to LE3 -/
  cues : List (List Cue) := []
  deriving DecidableEq, Repr

def SchSection.port (c : SchSection) (n : Nat) : SchPort := c.ports.getD n {}
def SchSection.ae (c : SchSection) (n : Nat) : SchAe := c.aes.getD n {}
def SchSection.cueList (c : SchSection) (n : Nat) : List Cue := c.cues.getD n []

/-- The schedule contract's state. -/
structure Sch where
  /-- the section in effect (R369: none before the first) -/
  cur : Option SchSection := none
  /-- bank of cue lists and tables in effect (R343) -/
  bank : Bool := false
  /-- consecutive periods with a miss, saturating at 3 (R362, R364) -/
  missRun : Nat := 0
  /-- a miss was declared in the period in progress (R362) -/
  missed : Bool := false
  /-- arms with a deadline miss in the period in progress (R359) -/
  missArms : BitVec 12 := 0
  /-- sources that have recorded their one event of the period (R244, R361, R366) -/
  once : List Nat := []
  /-- least slack of the period in progress, none while nothing was measured (R351) -/
  slackNow : Option Int := none
  /-- longest crossing time of each crossing since the last clear (R367) -/
  xingMax : Sparse Nat := []
  /-- the CUE word last handed over on each crossing (R328) -/
  cueOut : Sparse (BitVec 64) := []
  deriving DecidableEq, Repr

end Sys2Proof.Machine
end

