-- ==== Sys2Proof/Machine/LeTypes.lean ====
section
/-! DEFINITION. State of the loop engines and the loop island (05_loop_engines.md). -/

namespace Sys2Proof.Machine

/-- The value a slot held before that of its present period (R333). -/
structure SlotWas where
  v : BitVec 32
  c : BitVec 32
  held : Bool
  pc : Option (BitVec 32)
  at_ : BitVec 64
  deriving DecidableEq, Repr

/-- A slot of a state memory: both halves, quality, and when its present value came (R251, R262, R329). -/
structure Slot where
  v : BitVec 32 := 0
  c : BitVec 32 := 0xFFFFFFFF
  held : Bool := false
  /-- PC of the period that produced it, none for a slot never written or a state -/
  pc : Option (BitVec 32) := none
  /-- VT_P at which it became present -/
  at_ : BitVec 64 := 0
  /-- what it held before the value of that period came (R333) -/
  was : Option SlotWas := none
  deriving DecidableEq, Repr

/-- A write that becomes present later (R253). -/
structure LePend where
  at_ : BitVec 64
  slot : Nat
  v : BitVec 32
  c : BitVec 32
  held : Bool
  pc : BitVec 32
  deriving DecidableEq, Repr

/-- What goes wrong as a cue starts: nothing, a half of its stored entry breaks, or a result fails its residue check (R52,
R327, R353). -/
inductive CueDamage where
  | none | entry | residue
  deriving DecidableEq, Repr

/-- A transfer of slot data as it was sent: its CUE word, the lanes of its cue and its values (R326, R328). -/
structure TxRec where
  cue : BitVec 64
  lanes : Nat
  words : List (BitVec 32 × BitVec 32)
  deriving DecidableEq, Repr

/-- One loop engine. -/
structure Le where
  /-- state memory of 8,192 paired slots (R251) -/
  slots : Sparse Slot := []
  /-- parameter memory of 8,192 paired words (R251) -/
  params : Sparse (BitVec 32 × BitVec 32) := []
  /-- cue memory: the entries of the list in effect as paired words, 8 to an entry (R325, R327) -/
  cueMem : Sparse (BitVec 32 × BitVec 32) := []
  /-- results on their way to their slots, oldest first (R253) -/
  pend : List LePend := []
  /-- the datapath is occupied until this VT_P (R338) -/
  busyTo : BitVec 64 := 0
  /-- start tick and number of the cues last started on the I/O port (R338) -/
  ioAt : BitVec 64 := 0
  ioCnt : Nat := 0
  /-- the state memory as at the last boundary (LE_SLOT_VAL, LE_SLOT_Q) -/
  shown : Sparse Slot := []
  /-- cues run, cues that did not compute, and outputs marked HELD in the period in progress (R314) -/
  ran : Nat := 0
  failed : Nat := 0
  heldOut : Nat := 0
  deriving DecidableEq, Repr

/-- The parameters of an Eddy channel and its place in the Eddy memory (R295, R296). -/
structure EddyCh where
  fNom : BitVec 32 := 0
  g : BitVec 32 := 0
  rho : BitVec 32 := 0
  lead : Nat := 0
  yLim : BitVec 32 := 0
  fTol : BitVec 32 := 0
  nb : Nat := 0
  base : Nat := 0
  deriving DecidableEq, Repr

/-- The parameters of a profile channel (R301). -/
structure ProfCh where
  vMax : BitVec 32 := 0
  aMax : BitVec 32 := 0
  jMax : BitVec 32 := 0
  eps : BitVec 32 := 0
  deriving DecidableEq, Repr

/-- A fast protection comparator (R288 to R290): its run of samples beyond the threshold and of missing samples. -/
structure Cmpr where
  run : Nat := 0
  miss : Nat := 0
  deriving DecidableEq, Repr

/-- The injector's states (R315). -/
inductive InjSt where
  | idle | settling | measuring | done | aborted | refused
  deriving DecidableEq, Repr

/-- One table entry of the injector: the correlation sums, held as heads and tails (R255, R309). -/
structure InjEnt where
  caRe : BitVec 32 × BitVec 32 := (0, 0)
  caIm : BitVec 32 × BitVec 32 := (0, 0)
  cbRe : BitVec 32 × BitVec 32 := (0, 0)
  cbIm : BitVec 32 × BitVec 32 := (0, 0)
  heldSeen : Bool := false
  complete : Bool := false
  valid : Bool := false
  gain : BitVec 32 := 0
  phase : BitVec 32 := 0
  amag : BitVec 32 := 0
  deriving DecidableEq, Repr

/-- The injector (R306 to R311). -/
structure Injector where
  st : InjSt := .idle
  /-- the first period of the run has begun -/
  going : Bool := false
  /-- periods of the present settling span or record that have passed, and its length -/
  k : Nat := 0
  len : Nat := 0
  /-- the table entry in progress, in stepped sine -/
  idx : Nat := 0
  /-- the maximal-length sequence register and the periods its bit has been held (R308) -/
  lfsr : Nat := 0
  bitAge : Nat := 0
  /-- periods since the signal last began at phase zero (R308) -/
  t : Nat := 0
  /-- the record of the period in progress has been read (R307) -/
  read : Bool := false
  freqs : Sparse (BitVec 32) := []
  ents : Sparse InjEnt := []
  /-- s of the period in progress -/
  s : BitVec 32 := 0
  /-- a START was refused while this run was active: STATE shows REFUSED until the run's state next changes (R306).
  DESIGN CHOICE: log entry 115. -/
  refusedRun : Bool := false
  deriving DecidableEq, Repr

/-- The loop island beside the engines (R251, R267 to R274, R288 to R311). -/
structure Island where
  /-- node samples as delivered to an engine, by 192 × engine + channel: PC, tick of presence, and the sample unless
  missing (R264) -/
  raw : Sparse (Option (BitVec 32 × BitVec 64 × Option (BitVec 16))) := []
  /-- channel scales, from the topology in effect (R263) -/
  scale : Sparse (BitVec 32) := []
  /-- correction factors in effect, value and complement (R48, R266) -/
  corr : Sparse (BitVec 32 × BitVec 32) := []
  /-- channels now beyond MISS_HOLD (LE_MEAS_LOST) -/
  lost : List Nat := []
  /-- arm sums that have come to each engine in this period, and those of the previous one that ARMIN reads, by 16 × engine +
  arm (R267, R324) -/
  sumsNew : Sparse (Option ArmSums) := []
  sums : Sparse (Option ArmSums) := []
  /-- the ticks at which they became present (R351) -/
  sumsNewAt : Sparse (BitVec 64) := []
  sumsAt : Sparse (BitVec 64) := []
  /-- orders as latched at the last boundary, value and complement (R270) -/
  ord : Sparse (BitVec 32 × BitVec 32) := []
  /-- LE_ORD and LE_MCORR pairs written since the last boundary: address, both halves and tick of the write (R48, R266,
  R271) -/
  ordNew : List (Nat × (BitVec 32 × BitVec 32) × BitVec 64) := []
  /-- status values written since the last boundary (R273) -/
  stat : Sparse (Option (BitVec 32 × Bool)) := []
  /-- Eddy memory of 262,144 paired entries (R251) -/
  eddy : Sparse (BitVec 32 × BitVec 32) := []
  eddyCh : List EddyCh := []
  /-- the Eddy memory is occupied until this VT_P (R338) -/
  eddyBusyTo : BitVec 64 := 0
  /-- channels that have learned in this period (R315) -/
  eddyLearn : BitVec 16 := 0
  /-- bits of LE_EDDY_CLEAR and the tick at which each was set (R299, R300) -/
  eddyClr : List (Nat × BitVec 64) := []
  profCh : List ProfCh := []
  /-- moving and arrived bits of the profile channels, and x (R315) -/
  profMoving : BitVec 16 := 0
  profArrived : BitVec 16 := 0
  profX : Sparse (BitVec 32) := []
  /-- the fast protection comparators: overcurrent 0 to 11, undervoltage 12 to 15 (R288) -/
  oc : Sparse Cmpr := []
  /-- undervoltage comparators are armed (R290) -/
  uvArmed : Bool := false
  /-- INJ_ALLOW and the AMP_MAX of the points (R306, R534) -/
  injAllow : Bool := false
  injAmp : List (BitVec 32) := []
  inj : Injector := {}
  /-- level orders last sent, by arm: λ and i_a, both halves of each, and the PC of the period (R48, R283) -/
  lvl : Sparse (Option ((BitVec 32 × BitVec 32) × (BitVec 32 × BitVec 32) × BitVec 32)) := []
  /-- transfers of slot data last sent over each crossing, newest first (R326) -/
  tx : Sparse (List TxRec) := []
  /-- samples last sent to each trace channel, with quality (R274) -/
  trace : Sparse (Option (BitVec 32 × Bool)) := []
  deriving DecidableEq, Repr

end Sys2Proof.Machine
end

