-- ==== Sys2Proof/Machine/NetTypes.lean ====
section
/-! DEFINITION. State of the station network (11_station_network.md). -/

namespace Sys2Proof.Machine

/-- The network and order setup section: its 608 bytes (R623). -/
structure NetSetup where
  bytes : List (BitVec 8) := []
  deriving DecidableEq, Repr

/-- An order message that has been accepted: SEQ, COMMAND, its entries (KIND, INDEX, VALUE) and APPLY_LATE
(R609, R610, R617). -/
structure OrdMsg where
  seq : BitVec 32
  command : BitVec 8
  entries : List (BitVec 8 × BitVec 8 × BitVec 32)
  late : Bool := false
  deriving DecidableEq, Repr

/-- What waits on a launch ring: a descriptor by its index, or a status message with its LAUNCH (R605, R621). -/
inductive LaunchItem where
  | desc (idx : Nat)
  | status (launch : BitVec 32) (frame : List (BitVec 8))
  deriving DecidableEq, Repr

/-- A first copy seen on a PRP pair: source MAC, sequence number, reference tick, port, and the descriptor of ring 0 that it went to
(R589, R590). -/
structure PrpSeen where
  mac : BitVec 48
  seq : BitVec 16
  tick : Nat
  port : Nat
  slot : Option Nat := none
  deriving DecidableEq, Repr

/-- NT and ADJ as they stood at a cycle of the 125 MHz clock, before a write of ADJ or a step changed them (R593, R594). -/
structure NtMark where
  cyc : Nat
  nt : BitVec 96
  adj : Word
  deriving DecidableEq, Repr

/-- How an order datagram came: its port, and on a PRP pair the source MAC, sequence number and LanId of its frame (R588, R612). -/
structure OrdCopy where
  port : Fin 2
  tag : Option (BitVec 48 × BitVec 16 × BitVec 4) := none
  deriving DecidableEq, Repr

/-- What a status message reports, as it stood at the last boundary (R620, R621). -/
structure StatSnap where
  lease : BitVec 8 := 0
  react : BitVec 8 := 0
  epoch : BitVec 16 := 0
  pc : BitVec 32 := 0
  ordSeq : BitVec 32 := 0
  setId : BitVec 32 := 0
  firstFs : BitVec 8 := 0xFF
  activeN : Nat := 0
  vtB : BitVec 64 := 0
  /-- value and quality of LE_STATV[0] to LE_STATV[31] -/
  entries : List (BitVec 32 × Bool) := []
  deriving DecidableEq, Repr

/-- The network island. -/
structure Net where
  /-- network time NT in units of 2^-32 counts of 8 ns (R593) -/
  nt : BitVec 96 := 0
  /-- eighths of a 125 MHz cycle gone by since NT last advanced -/
  ph : Nat := 0
  /-- cycles of the 125 MHz clock gone by, and the changes of NT's course no longer ago than a frame lasts, newest first (R600) -/
  cyc : Nat := 0
  marks : List NtMark := []
  /-- NT_LOCKED, consecutive updates within LOCK_BAND, and the time of the last update, in reference ticks (R597) -/
  locked : Bool := false
  inBand : Nat := 0
  servoAt : Option Nat := none
  /-- links NET A, NET B, X16 are up (R585) -/
  link : BitVec 3 := 0
  /-- PRP paths A and B are present, and the last frame with a trailer on each, in reference ticks (R592) -/
  path : BitVec 2 := 0
  trailerAt : Sparse (Option Nat) := []
  /-- sequence number of the last frame sent with a trailer, supervision frames sent, and the reference tick of the last
  (R588, R592) -/
  prpSeq : BitVec 16 := 0
  supSent : BitVec 16 := 0
  supAt : Option Nat := none
  /-- first copies seen, newest first, at most 512 (R589) -/
  prpSeen : List PrpSeen := []
  /-- frames waiting on the launch rings of NET A and NET B (R605) -/
  launch : Sparse (List LaunchItem) := []
  /-- the launch frame in transmission on a port, with NT at its message timestamp point (R605) -/
  sending : Sparse (Option (LaunchItem × BitVec 64)) := []
  /-- the frame of ring 1 in transmission on a port: its descriptor's index, and NT at its message timestamp point
  (R604, R607) -/
  ring1 : Sparse (Option (Nat × BitVec 64)) := []
  /-- the last frame sent on each port -/
  lastTx : Sparse (List (BitVec 8)) := []
  /-- transmit timestamp queues: messageType, sequenceId, egress timestamp; oldest first (R601) -/
  txts : Sparse (List (BitVec 4 × BitVec 16 × BitVec 32)) := []
  /-- the order mailbox: front, back, held for NT_APPLY (R616, R617) -/
  front : Option OrdMsg := none
  back : Option OrdMsg := none
  held : Option (OrdMsg × BitVec 32) := none
  /-- SEQ of the last accepted message (R613, R614) -/
  lastSeq : Option (BitVec 32) := none
  /-- reference tick at which its lifetime runs out, and ORD_EXPIRED (R614) -/
  lifeTo : Option Nat := none
  expired : Bool := false
  /-- SEQ of the next status message and its LAUNCH (R609, R621) -/
  statSeq : BitVec 32 := 0
  statNext : BitVec 32 := 0
  /-- LAUNCH of the last messages counted as sent (NET_STAT_CNT) -/
  statSent : List (BitVec 32) := []
  /-- what the next status message reports -/
  snap : StatSnap := {}
  deriving DecidableEq, Repr

end Sys2Proof.Machine
end

