-- ==== Sys2Proof/Machine/PwmTypes.lean ====
section
/-! DEFINITION. State of the chopper PWM outputs and of the CAN FD ports (15_pwm_and_can.md). Pairs, timings, counters and
message buffers are registers of their windows; PWM ticks are raw VT (R785). -/

namespace Sys2Proof.Machine

/-- A PWM channel. -/
structure PwmCh where
  /-- cycling; its waveform is in the on phase; the tick of its next reload (R785, R786) -/
  run : Bool := false
  on : Bool := false
  next : BitVec 64 := 0
  /-- the tick at which the on phase ends -/
  off : BitVec 64 := 0
  /-- the cycle in progress runs the armed pair (R796) -/
  armed : Bool := false
  /-- the pair of a LOAD_ALL that waits for the next reload: PER and T with its MODE (R789) -/
  pend : Option (Word × Word) := none
  /-- the tick of that LOAD_ALL: a reload in it still uses the old pair (R790) -/
  pendAt : BitVec 64 := 0
  /-- Calm since a debug halt, until a reload without one (R792) -/
  calm : Bool := false
  deriving DecidableEq, Repr

/-- The PWM generator. -/
structure Pwm where
  chs : Sparse PwmCh := []
  /-- armed by a Trip (R795) -/
  trip : Bool := false
  /-- the clock monitor has tripped (R793) -/
  stopped : Bool := false
  deriving DecidableEq, Repr

/-- Protocol state of a CAN port (R805). -/
inductive CanSt where
  | config | active | passive | busOff | recovering
  deriving DecidableEq, Repr

def CanSt.code (x : CanSt) : Nat :=
  match x with
  | .config => 0 | .active => 1 | .passive => 2 | .busOff => 3 | .recovering => 4

/-- A CAN port. -/
structure Can where
  st : CanSt := .config
  /-- the receive and transmit error counters (CAN_STAT) -/
  recCnt : BitVec 8 := 0
  tecCnt : BitVec 8 := 0
  /-- error-active since the last entry to error-passive (R805) -/
  fresh : Bool := true
  deriving DecidableEq, Repr

/-- A frame on a CAN bus (R802, CAN_BUF_ID, CAN_BUF_CTL). -/
structure CanFrame where
  xtd : Bool
  rtr : Bool
  /-- the identifier as CAN_BUF_ID holds it: a base identifier in bits 28 to 18 -/
  id : BitVec 29
  fdf : Bool
  brs : Bool
  esi : Bool
  dlc : BitVec 4
  data : List (BitVec 8)
  deriving DecidableEq, Repr

/-- The bit-timing registers (R804). -/
inductive CanTiming where
  | nominal | data | delay
  deriving DecidableEq, Repr

end Sys2Proof.Machine
end

