-- ==== Sys2Proof/Machine/SupTypes.lean ====
section
/-! DEFINITION. State of the supervisor island: cores, thread dispatcher, interrupt controller, DMA engine and the arbiter
of DRAM channel B (12_supervisor_dma_memory.md). DSP_NEXT, DSP_CUR, DSP_RES, the trace ring pointers and the counters are
registers of their windows. -/

namespace Sys2Proof.Machine

/-- STATE of a thread's context. -/
inductive ThrSt where
  | free | blocked | ready | running
  deriving DecidableEq, Repr

def ThrSt.code (x : ThrSt) : Nat :=
  match x with
  | .free => 0 | .blocked => 1 | .ready => 2 | .running => 3

/-- The context of a thread. -/
structure Thr where
  st : ThrSt := .free
  prio : BitVec 5 := 0
  affinity : BitVec 8 := 0
  /-- LAST, the core that last ran it -/
  last : Option (Fin 8) := none
  deriving DecidableEq, Repr

/-- The kinds of a core's accesses (R630, R631): `reserve` is LR, `atomic` SC or AMO. -/
inductive AccKind where
  | load | store | fetch | reserve | atomic
  deriving DecidableEq, Repr

/-- The access fault exceptions of a core (R633). -/
inductive AccFault where
  | load | store | fetch
  deriving DecidableEq, Repr

/-- The exception that matches an access: LR loads, SC and AMO store (R631, R633). PRESUMED: log entry 117. -/
def AccKind.fault (k : AccKind) : AccFault :=
  match k with
  | .load | .reserve => .load
  | .store | .atomic => .store
  | .fetch => .fetch

/-- LR, SC and AMO (R630, R631). -/
def AccKind.isAtomic (k : AccKind) : Bool := match k with | .reserve | .atomic => true | _ => false

/-- Privilege modes of a core (R629). -/
inductive Priv where
  | user | machine
  deriving DecidableEq, Repr

/-- What the profile of R629 gives a core beside its programs: the privilege mode, the interrupt enables mie (R642), the 16
entries of physical memory protection as configuration byte and address register, and the four triggers as type and data
words. Reset values: log entry 117. -/
structure ScCore where
  mode : Priv := .machine
  mie : BitVec 64 := 0
  pmp : List (BitVec 8 × BitVec 64) := List.replicate 16 (0, 0)
  trig : List (BitVec 64 × BitVec 64) := List.replicate 4 (0, 0)
  deriving DecidableEq, Repr

/-- An access that a core begins, with what its program has made of mode, mie, protection and triggers by then (R629, R633). -/
structure CoreAcc where
  kind : AccKind
  addr : BitVec 64
  /-- 1, 2, 4 or 8 bytes, as a power of two -/
  size : Fin 4
  core : ScCore
  deriving DecidableEq, Repr

/-- misa of every core: RV64IMAFC with modes M and U (R629). -/
def misa : BitVec 64 := 0x8000000000101125

/-- mhartid of SC n (R629). -/
def mhartid (c : Fin 8) : BitVec 64 := BitVec.ofNat 64 c

/-- The cores, their watchdog, the thread dispatcher and the interrupt controller. -/
structure Dsp where
  /-- cores that have left the boot ROM, with the address each started at (R537, R634) -/
  started : BitVec 8 := 0
  startPc : Sparse (BitVec 64) := []
  /-- cores halted by the debug module (R638) -/
  halted : BitVec 8 := 0
  /-- privilege, protection and triggers of the cores (R629) -/
  cores : Sparse ScCore := []
  /-- the last access fault exception of a core (R631, R633) -/
  excs : Sparse (Option AccFault) := []
  /-- ticks of the reference at which the watchdog expires (R636) -/
  wdogDue : Nat := 0
  /-- the contexts, by TID (R644) -/
  thrs : Sparse Thr := []
  /-- READY threads that no DSP_NEXT names, by level, head first (R647) -/
  waits : Sparse (List (BitVec 7)) := []
  /-- trace records lost since the last LOST record (R651) -/
  lost : Nat := 0
  /-- sources claimed and not completed (R640) -/
  claimed : BitVec 64 := 0
  deriving DecidableEq, Repr

/-- Who starts an access: a core, or another initiator (R17, R633). -/
inductive Initiator where
  | core (c : Fin 8)
  | other
  deriving DecidableEq, Repr

/-- The data of a write over the bus, of the width the access has (R631). -/
inductive BusVal where
  | byte (v : BitVec 8) | half (v : BitVec 16) | word (v : Word) | dword (v : BitVec 64)
  deriving DecidableEq, Repr

/-- The paired registers that firmware writes (R9). -/
inductive PairReg where
  | aeCellCmd (n : Fin 12) | leMcorr (c : Fin 192) | leOrd (i : Fin 32) | fltClear | fltInj | fltConv | gstCmd | twnCmd
  | keyCmd | drfCmd | wdogKick | pwmArmCmd
  deriving DecidableEq, Repr

/-- A DMA channel's state (DMA_CH_STAT.STATE). -/
inductive DmaSt where
  | idle | active | stopping
  deriving DecidableEq, Repr

def DmaSt.code (x : DmaSt) : Nat :=
  match x with
  | .idle => 0 | .active => 1 | .stopping => 2

/-- A descriptor as the engine fetched it (R652). -/
structure DmaDesc where
  /-- the descriptor's own address -/
  at_ : Nat
  src : Nat
  dst : Nat
  len : Nat
  ctl : BitVec 32
  next : BitVec 64
  deriving DecidableEq, Repr

/-- A DMA channel. -/
structure DmaCh where
  st : DmaSt := .idle
  /-- the descriptor in progress; none while a fetch is not answered (R653) -/
  cur : Option DmaDesc := none
  deriving DecidableEq, Repr

/-- The DMA engine. -/
structure Dma where
  chs : Sparse DmaCh := []
  deriving DecidableEq, Repr

/-- The arbiter of DRAM channel B (R668 to R671). -/
structure Mem where
  /-- MODE in effect: deficit-weighted, not hierarchical -/
  weighted : Bool := false
  /-- grant slots since the last one of the slice (R668) -/
  slot : Fin 8 := 0
  /-- the slice was granted in these of the last 8 slots, newest in bit 0 (MEM_STAT) -/
  recent : BitVec 8 := 0
  /-- the group served last, and in each group the requester served last (R669) -/
  group : Fin 3 := 2
  served : Sparse Nat := []
  /-- the requester being served in mode 1, and the deficits (R670) -/
  cur : Fin 28 := 27
  deficit : Sparse Nat := []
  /-- the next idle tick holds two grant slots, not one: 300 million slots a second are three in two ticks (R666) -/
  two : Bool := false
  /-- reference tick of the last background pass over channel B, or of its power-up (R672) -/
  scrubbed : Nat := 0
  deriving DecidableEq, Repr

/-- How the move of a descriptor's data ends (R657, R664). -/
inductive DmaEnd where
  /-- all data written and read back -/
  | whole
  /-- a bus error after this many bytes were written -/
  | busError (moved : Nat)
  /-- the read-back failed -/
  | readBack
  /-- the move of a STOPPING channel has ended after this many bytes -/
  | cut (moved : Nat)
  deriving DecidableEq, Repr

def DmaEnd.isCut (e : DmaEnd) : Bool := match e with | .cut _ => true | _ => false

/-- What STOP finds of the move in progress (R661). -/
inductive DmaHalt where
  /-- its access in flight and the read-back are answered: this many bytes have been written -/
  | ended (moved : Nat)
  /-- they are still to be answered -/
  | stopping
  deriving DecidableEq, Repr

/-- What follows the return of a descriptor (R658, R660, R662). -/
inductive DmaThen where
  /-- the engine goes on -/
  | goesOn
  /-- the fetch of the next descriptor is not answered -/
  | unanswered
  /-- STOP is written in the cycle in which the OWN = 0 write completes -/
  | stopped
  deriving DecidableEq, Repr

/-- The access that is not answered (R660, R665). -/
inductive DmaAccess where
  | fetch
  /-- a data access or the read-back, after this many bytes were written -/
  | data (moved : Nat)
  /-- the OWN = 0 write -/
  | own
  deriving DecidableEq, Repr

/-- Whose read met an uncorrectable error (R673). -/
inductive EccReader where
  | core (c : Fin 8) (kind : AccKind)
  /-- a DMA channel, after this many bytes were written -/
  | dma (n : Fin 16) (moved : Nat)
  /-- the next Draft LOAD -/
  | draft
  /-- the key command in progress -/
  | key
  /-- another initiator -/
  | other
  deriving DecidableEq, Repr

end Sys2Proof.Machine
end

