-- ==== Sys2Proof/Machine/TbTypes.lean ====
section
/-! DEFINITION. State of the timebase, the handshake channels and the arm energy audit (01_period_and_islands.md). -/

namespace Sys2Proof.Machine

/-- A tagged word of a handshake channel: KIND, ENDPOINT and 64 data bits (R41). -/
structure HWord where
  kind : BitVec 3
  ep : BitVec 5
  data : BitVec 64
  deriving DecidableEq, Repr

/-- One handshake channel. The sender's credit count is D less `used` (R38, R44). -/
structure Chan where
  /-- credits taken from D by words sent (R38) -/
  used : Nat := 0
  /-- words in flight and in the receive queue, oldest first (R44, R45) -/
  words : List HWord := []
  /-- credits in flight back to the sender (R44) -/
  returning : Nat := 0
  /-- a value half received that waits for its complement: endpoint and data (R43) -/
  pend : Option (BitVec 5 × BitVec 64) := none
  /-- the tick since which the sender holds a word without credit (R349) -/
  waitSince : Option (BitVec 64) := none
  /-- words still to come of the transfer whose header was taken last (R41) -/
  left : Nat := 0
  deriving DecidableEq, Repr

/-- The energy audit of one arm (R58 to R62); energies in units of 2^-448 J / (8*10^8), which makes every term exact. -/
structure Energy where
  /-- stored energy at the start of the window; none until the first boundary of a window -/
  eStart : Option Int := none
  /-- stored energy at the last boundary -/
  eNow : Int := 0
  /-- the sum J -/
  j : Int := 0
  /-- the sum of absolute arm energy A -/
  a : Int := 0
  /-- periods of the window counted -/
  count : Nat := 0
  /-- periods of the window in which each cell's report was missing (R60) -/
  miss : Sparse Nat := []
  /-- periods of the window in which the arm current was missing (R60) -/
  missI : Nat := 0
  /-- the last valid arm current, fp32 (R60) -/
  lastI : BitVec 32 := 0
  /-- a residue check fails in the sums of the period in progress, and one has failed in the window (R52) -/
  residue : Bool := false
  broken : Bool := false
  deriving DecidableEq, Repr

/-- The timebase. -/
structure Tb where
  /-- valve time VT in ticks of 5 ns (R23) -/
  vt : BitVec 64 := 0
  /-- the timebase PLL is locked (R68, TB_LOCK) -/
  lock : Bool := false
  /-- period counter PC (R28) -/
  pc : BitVec 32 := 0
  /-- b(0) has passed and periods run (R69) -/
  run : Bool := false
  /-- P in effect, ticks; 0 before b(0) (R68) -/
  period : Nat := 0
  /-- VT_P at the boundary of the period in progress -/
  bound : BitVec 64 := 0
  /-- VT_P of the last boundaries up to the period in progress, newest first, as far back as a sampling tick lies (R148) -/
  marks : List (BitVec 64) := []
  /-- VT_P of the next boundary; before b(0) the place of b(0) (R544) -/
  nextB : BitVec 64 := 0
  /-- start-up has placed b(0) (R544) -/
  placed : Bool := false
  /-- the intake phase of the period in progress has ended (R35) -/
  intakeDone : Bool := false
  /-- difference of each island's VT replica from VT, by island number (R27, R37) -/
  replica : Sparse (BitVec 64) := []
  /-- PC and phase of the last MARK word each island took (R41) -/
  marked : Sparse (Option (BitVec 32 × BitVec 2)) := []
  /-- handshake channels, keyed 64 * sender island + receiver island (R38) -/
  chans : Sparse Chan := []
  /-- the arm energy audits (R58) -/
  energy : Sparse Energy := []
  deriving DecidableEq, Repr

end Sys2Proof.Machine
end

