-- ==== Sys2Proof/Machine/TwnTypes.lean ====
section
/-! DEFINITION. State of the twin: roles, pair valve time, lease, checkpoints, claims and handovers
(09_twin_and_lease.md). The epoch in effect, the configured times and the counters are registers of the TWN window. -/

namespace Sys2Proof.Machine

/-- The lease states (R495). -/
inductive LeaseSt where
  | init | zephyr | claiming | duty | warm | handing | failed
  deriving DecidableEq, Repr

/-- The code of a lease state (R495). -/
def LeaseSt.code (l : LeaseSt) : Nat :=
  match l with
  | .init => 0 | .zephyr => 1 | .claiming => 2 | .duty => 3 | .warm => 4 | .handing => 5 | .failed => 6

/-- A message of the twin port (R480), with its sequence number (R478). -/
structure TwMsg where
  seq : BitVec 12
  op : BitVec 8
  epoch : BitVec 16
  epochC : BitVec 16
  pc : BitVec 32
  vt : BitVec 64
  arg : BitVec 64
  deriving DecidableEq, Repr

/-- A GUST block: KIND, VT_B and VT_P of its departure (R481). -/
structure TwGust where
  kind : Nat
  vtB : BitVec 64
  at_ : BitVec 64
  deriving DecidableEq, Repr

/-- A transfer that X13 carries, a checkpoint or the live state of a handover, with its number (R478, R479). -/
structure Xfer where
  live : Bool
  no : BitVec 12
  bytes : List (BitVec 8)
  deriving DecidableEq, Repr

/-- What the partner's last STATUS said (R480). -/
structure Partner where
  lease : Nat := 0
  healthy : Bool := false
  aligned : Bool := false
  owner : Bool := false
  result : Nat := 0
  /-- own VT_P at its arrival -/
  at_ : BitVec 64 := 0
  deriving DecidableEq, Repr

/-- The steps of a claim (R502, R493). -/
inductive ClaimStep where
  | power | restore | rule | learn | sent
  deriving DecidableEq, Repr

/-- What STATUS reveals beside its fields: that the partner reads the same slot role, or that its valve time is not
related to this module's (R471, R473). -/
inductive TwClash where
  | none | slot | time
  deriving DecidableEq, Repr

/-- A message block as it arrives on X13: its fields, and the phase error measured on it in ps (R475, R480). -/
structure TwMsgIn where
  epoch : BitVec 16
  epochC : BitVec 16
  pc : BitVec 32
  vt : BitVec 64
  arg : BitVec 64
  phase : BitVec 16
  deriving DecidableEq, Repr

/-- A claim in progress. -/
structure Claim where
  /-- made from INIT, not from ZEPHYR (R493, R502) -/
  fromInit : Bool := false
  step : ClaimStep := .power
  /-- VT_P at which the present step began (R502) -/
  stepAt : BitVec 64 := 0
  /-- VT_P at which the claim began: the view's expiry -/
  began : BitVec 64 := 0
  /-- the epoch the CLAIM carries, both halves (R48, R492) -/
  epoch : BitVec 16 := 0
  epochC : BitVec 16 := 0xFFFF
  /-- VT_P at which the witness rule was first met (R501) -/
  metAt : Option (BitVec 64) := none
  /-- retries of a claim made from INIT (R493) -/
  tries : Nat := 0
  /-- roots that have confirmed the new epoch (R502) -/
  confirmed : BitVec 12 := 0
  deriving DecidableEq, Repr

/-- A handover in progress, at either module (R507 to R511). -/
structure Hand where
  /-- PC of period h -/
  h : BitVec 32 := 0
  /-- VT_P at which WARM or HANDING was entered -/
  began : BitVec 64 := 0
  /-- the LIVE transfer captured by the secondary (R508) -/
  live : List (BitVec 8) := []
  captured : Bool := false
  deriving DecidableEq, Repr

/-- The twin. -/
structure Twn where
  /-- slot strap: secondary (R469) -/
  secondary : Bool := false
  /-- lease state (R495) -/
  lease : LeaseSt := .init
  /-- VT_P at which INIT was entered (R473, R495) -/
  initAt : BitVec 64 := 0
  /-- VT_OFS (R472) -/
  vtOfs : BitVec 64 := 0
  /-- VT_OFS has been set (R472) -/
  ofsSet : Bool := false
  /-- time owner (R473) -/
  owner : Bool := false
  /-- the phase lies within R475 -/
  phaseOk : Bool := false
  /-- departure of the ECHO outstanding, UI of VT (R474) -/
  echoAt : Option Nat := none
  /-- the partner's last STATUS (R480) -/
  partner : Option Partner := none
  /-- the epoch in effect has been learned (R493) -/
  epochKnown : Bool := false
  /-- VT_P at which the lease view expires (R491) -/
  viewTo : Option (BitVec 64) := none
  /-- VT_P from which "no WITNESS heard" is counted (R493) -/
  quietFrom : BitVec 64 := 0
  /-- VT_P since which the module is healthy (R496) -/
  healthyAt : Option (BitVec 64) := none
  /-- it has surrendered and must stay healthy for T_RECLAIM before it claims (R497) -/
  mustHeal : Bool := false
  /-- SEQ of the next twin message (R480) -/
  msgSeq : BitVec 12 := 0
  /-- the messages last sent on X13, the latest to depart first, at most 16; VT is the departure (R480) -/
  sent : List TwMsg := []
  /-- the GUST blocks last sent on X13, the latest to depart first, at most 16 (R481) -/
  gust : List TwGust := []
  /-- what X13 has sent in DATA, as far as it has been worked out (R84, R120) -/
  line : LineAt := {}
  /-- the transfer whose blocks fill the slots that messages and GUST blocks leave (R482) -/
  xfer : Option Xfer := none
  /-- number of the last checkpoint and the Eddy part that goes next (R483) -/
  ckptNo : BitVec 12 := 0
  ckptPart : Nat := 0
  /-- VT_P of the last capture (R483) -/
  ckptAt : Option (BitVec 64) := none
  /-- the checkpoint captured last, in the bytes of R485 (duty) -/
  ckptOut : List (BitVec 8) := []
  /-- the last valid checkpoint without its Eddy part, in the bytes of R485 (standby) -/
  held : Option (List (BitVec 8)) := none
  /-- the last valid copy of each Eddy part (R487) -/
  parts : Sparse (List (BitVec 8)) := []
  /-- VT_P from which a missing checkpoint is counted (R488) -/
  ckptFrom : BitVec 64 := 0
  /-- the claim in progress -/
  claim : Option Claim := none
  /-- the handover in progress -/
  hand : Option Hand := none
  /-- number of the last handover, modulo 4,096 (R478) -/
  handNo : BitVec 12 := 0
  /-- PC of the first period that a new or resuming duty computes (R504, R510, R511) -/
  computeFrom : Option (BitVec 32) := none
  /-- the first emit of a takeover is still to come (R502, R569) -/
  firstEmit : Bool := false
  /-- VT_P at which the module became DUTY, and at which a renewal was last due (R489, R494) -/
  dutyAt : Option (BitVec 64) := none
  renewAt : Option (BitVec 64) := none
  /-- VT_P of the last STATUS and of the last QUERY sent (R480, R493, R500) -/
  statusAt : Option (BitVec 64) := none
  queryAt : Option (BitVec 64) := none
  deriving DecidableEq, Repr

end Sys2Proof.Machine
end

