-- ==== Sys2Proof/Machine/Operands.lean ====
section
/-! DEFINITION. The operand forms of the commands: values that arrive from outside the part, in the shapes the spec gives
them, with the functions that read their fields. -/

namespace Sys2Proof.Machine

/-- A field of line bits `first` to `first + n - 1` of a block or stream of `w` bits; line bit 0 is the most
significant (R118, R119). -/
def lineField {w : Nat} (x : BitVec w) (first n : Nat) : Nat := fieldOf x (w - first - n) n

/-- The bytes of line bits 0 on, eight bits at a time, first bit most significant (R119). -/
def lineBytes {w : Nat} (x : BitVec w) (i n : Nat) : List Byte :=
  match n with
  | 0 => []
  | n + 1 => BitVec.ofNat 8 (lineField x (8 * i) 8) :: lineBytes x (i + 1) n

/-- The end of a window of an arm: the arm, and whether a residue check fails in the verdict (R52, R58, R233). -/
structure ArmWindow where
  arm : Fin 12
  residue : Bool
  deriving DecidableEq, Repr

/-- What goes wrong as an intake ends: the values, by port and cell, whose complement check fails as they enter memory island A
(R426), and the arms of which a residue check fails in the energy sums of the period (R52, R58). -/
structure IntakeDamage where
  plane : List (Nat × Nat)
  sums : List (Fin 12)
  deriving DecidableEq, Repr

/-- Where a level order arrives: at an arm engine, by a crossing of KIND 1, or at a port, by one of KIND 2 (R194, R324). -/
inductive LevelDst where
  | ae (n : Fin 12) | port (n : Fin 12)
  deriving DecidableEq, Repr

/-- A paired word whose halves arrive as two words: it is there once both are (R43, R48). -/
def wholePair (v c : Option Word) : Option (Word × Word) :=
  match v, c with
  | some v, some c => some (v, c)
  | _, _ => none

/-- The slot words of a transfer: value, complement and quality, one after the other; HELD is 1 (R48, R257, R326). -/
def slotWords (vals comps : List Word) (held : List Bool) : List (Word × Word × Bool) := vals.zip (comps.zip held)

/-- Bytes of a key in an inserted MRAM (R518). -/
def keyBytes : Nat := 0x8000000

/-- The content of a key as a sender may give it: bytes by key offset in the canonical form, every offset within the
MRAM's 128 MiB (R518). -/
def keyContentOk (content : List (Nat × BitVec 8)) : Bool :=
  Sparse.wf (fun _ => (0 : Byte)) content && content.all fun e => decide (e.1 < keyBytes)

end Sys2Proof.Machine
end

