-- ==== Sys2Proof/Syntax.lean ====
section
/-! DEFINITION. The commands of the part: one constructor per row of the table of operations and events, with the values
that come from outside with the command (opcode_table.json; each line names the rule of its row). -/

namespace Sys2Proof

open Sys2Proof.Machine

/-- A command: a register access by firmware, a word or frame that arrives, an edge or a timer of the part. -/
inductive Instr where
  /-- REGISTER_WRITE (R15). -/
  | registerWrite (w : Initiator) (a : BitVec 64) (v : BusVal)
  /-- BUS_ERROR (R17). -/
  | busError (w : Initiator) (k : AccKind) (a : BitVec 64)
  /-- PAIRED_VALUE_WRITE (R10). -/
  | pairedValueWrite (r : PairReg) (v : Word)
  /-- PAIRED_COMPLEMENT_WRITE (R11). -/
  | pairedComplementWrite (r : PairReg) (c : Word)
  /-- TB_VT_LO_READ (R24). -/
  | tbVtLoRead (mtime : Bool)
  /-- PD0_POWER_UP (R543). -/
  | pd0PowerUp (secondary : Bool)
  /-- TIMEBASE_LOCK_LOST (R375). -/
  | timebaseLockLost
  /-- PERIOD_BOUNDARY (R28). -/
  | periodBoundary
  /-- INTAKE_END (R35). -/
  | intakeEnd (bad : IntakeDamage)
  /-- EMIT_START (R127). -/
  | emitStart (p : Fin 12)
  /-- MARGIN_START (R33). -/
  | marginStart (p : Fin 12)
  /-- PERIOD_MARKER (R27). -/
  | periodMarker (isl : Fin 34) (vt : BitVec 16)
  /-- WORD_SEND (R38). -/
  | wordSend (src dst : Fin 34) (w : HWord)
  /-- WORD_RECEIVE (R42). -/
  | wordReceive (src dst : Fin 34)
  /-- CREDIT_RETURN (R39). -/
  | creditReturn (src dst : Fin 34)
  /-- ENERGY_WINDOW_END (R58). -/
  | energyWindowEnd (w : ArmWindow)
  /-- DOMAIN_SWITCH (R578). -/
  | domainSwitch (v : Word)
  /-- DOMAIN_POWER_ON (R859). -/
  | domainPowerOn (d : Fin 14)
  /-- DOMAIN_POWER_OFF (R66). -/
  | domainPowerOff (d : Fin 14)
  /-- PRT_TX_ENABLE (R109). -/
  | prtTxEnable (p : Fin 13)
  /-- PRT_TX_DISABLE (R113). -/
  | prtTxDisable (p : Fin 13)
  /-- TRAIN_REQ (R107). -/
  | trainReq (p : Fin 13)
  /-- AUTO_RETRAIN_SET (R109). -/
  | autoRetrainSet (p : Fin 13)
  /-- TEST_MODE_WRITE (R110). -/
  | testModeWrite (p : Fin 13) (loop : BitVec 2) (prbsTx : Bool) (prbsRx : Bool)
  /-- PRT_CNT_CLR (R111). -/
  | prtCntClr (p : Fin 13)
  /-- TRAINING_FRAME (R88). -/
  | trainingFrame (p : Fin 13) (marker : BitVec 32) (train : BitVec 16) (comp : BitVec 16)
  /-- TRAINING_STAGE_DONE (R90). -/
  | trainingStageDone (p : Fin 13) (st : LaneSt) (m : StageMeas)
  /-- TRAINING_STAGE_TIMEOUT (R91). -/
  | trainingStageTimeout (p : Fin 13)
  /-- UP_DATA_START (R92). -/
  | upDataStart (p : Fin 13) (ui : Fin 32)
  /-- PRBS_CHECK (R110). -/
  | prbsCheck (l : DataLane) (group : BitVec 2)
  /-- LOS_ASSERT (R96). -/
  | losAssert (p : Fin 13) (f : Fibre)
  /-- LOS_DEASSERT (R96). -/
  | losDeassert (p : Fin 13) (f : Fibre)
  /-- LOL_ASSERT (R97). -/
  | lolAssert (p : Fin 13) (cause : LolCause)
  /-- FREQ_CHECK (R81). -/
  | freqCheck (p : Fin 13) (m : FreqMeas)
  /-- AUTO_RETRAIN_TIMER (R106). -/
  | autoRetrainTimer (p : Fin 13)
  /-- COMMANDS_RESUME (R105). -/
  | commandsResume (p : Fin 12)
  /-- UP_BLOCK_RECEIVE (R121). -/
  | upBlockReceive (p : Fin 13) (d : UpSymbols)
  /-- RPT_BLOCK_RECEIVE (R146). -/
  | rptBlockReceive (p : Fin 12) (tag : BitVec 12) (body : BitVec 460)
  /-- ECHO_RESPONSE (R169). -/
  | echoResponse (p : Fin 12) (target : BitVec 24) (seq : BitVec 8) (ui : Fin 32)
  /-- CENSUS_RESPONSE (R159). -/
  | censusResponse (p : Fin 12) (recs : List CensusRec)
  /-- BARRIER_RESPONSE (R189). -/
  | barrierResponse (p : Fin 12) (id : BitVec 8) (nack : BitVec 8)
  /-- SNAPSHOT_RESPONSE (R164). -/
  | snapshotResponse (p : Fin 12) (index : BitVec 8) (body : BitVec 460)
  /-- WITNESS_RECEIVE (R184). -/
  | witnessReceive (p : Fin 12) (eMax : BitVec 16) (eMaxC : BitVec 16) (recs : List (BitVec 8))
  /-- CTRL_BLOCK_SEND (R162). -/
  | ctrlBlockSend (p : Fin 12)
  /-- ECHO_REQUEST (R192). -/
  | echoRequest (p : Fin 12)
  /-- SNAP_REQUEST (R187). -/
  | snapRequest (p : Fin 12)
  /-- BARRIER_REQUEST (R189). -/
  | barrierRequest (p : Fin 12)
  /-- RESET_REQUEST (R188). -/
  | resetRequest (p : Fin 12)
  /-- ECHO_TIMEOUT (R170). -/
  | echoTimeout (p : Fin 12)
  /-- BARRIER_TIMEOUT (R189). -/
  | barrierTimeout (p : Fin 12)
  /-- CENSUS_TIMEOUT (R159). -/
  | censusTimeout (p : Fin 12)
  /-- CENSUS_RETRY (R546). -/
  | censusRetry (p : Fin 12)
  /-- RECAL_ROUND (R176). -/
  | recalRound (p : Fin 12)
  /-- PRT_FRM_CNT_CLR (R190). -/
  | prtFrmCntClr (p : Fin 12)
  /-- PORT_DUE_TICK (R358). -/
  | portDueTick (p : Fin 12) (residue : Bool)
  /-- RANK_START (R211). -/
  | rankStart (n : Fin 12) (residue : Bool)
  /-- SELECT_START (R213). -/
  | selectStart (n : Fin 12) (residue : Bool)
  /-- PLACE_START (R228). -/
  | placeStart (n : Fin 12) (residue : Bool)
  /-- LEVEL_ORDER_RECEIVE (R194). -/
  | levelOrderReceive (dst : LevelDst) (pcLo : BitVec 16) (lam lamC cur curC : Option Word)
  /-- SW_WINDOW_END (R233). -/
  | swWindowEnd (w : ArmWindow)
  /-- CELL_LATCH_OUT (R246). -/
  | cellLatchOut (n : Fin 12) (j : Fin 1024)
  /-- CELL_RELEASE (R247). -/
  | cellRelease (n : Fin 12) (j : Fin 1024)
  /-- AE_CNT_CLR (R245). -/
  | aeCntClr (n : Fin 12)
  /-- PRT_AUD_CLR (R249). -/
  | prtAudClr (p : Fin 12)
  /-- CUE_START (R253). -/
  | cueStart (e : Fin 4) (j : Fin 2048) (dmg : CueDamage)
  /-- EDDY_CLEAR (R299). -/
  | eddyClear (bits : BitVec 16)
  /-- INJ_START (R306). -/
  | injStart (mode : BitVec 2) (pt : BitVec 5)
  /-- INJ_STOP (R310). -/
  | injStop
  /-- INJ_RECORD_END (R309). -/
  | injRecordEnd
  /-- LE_CNT_CLR (R314). -/
  | leCntClr (e : Fin 4)
  /-- TRANSFER_RECEIVE (R346). -/
  | transferReceive (w : BitVec 64) (vals comps : List Word) (held : List Bool) (damage : List Nat)
  /-- CREDIT_WAIT_TIMEOUT (R349). -/
  | creditWaitTimeout (src dst : Fin 34)
  /-- SCH_CNT_CLR (R367). -/
  | schCntClr
  /-- FAULT_EVENT (R370). -/
  | faultEvent (word : BitVec 64) (damage : Option FltDamage)
  /-- LULL_EXPIRY (R385). -/
  | lullExpiry (n : Fin 256)
  /-- CLEAR_SOURCE (R390). -/
  | clearSource (n : Fin 256)
  /-- CLEAR_ALL (R390). -/
  | clearAll
  /-- INJECT (R407). -/
  | inject (n : Fin 256)
  /-- INJECTION_FIRE (R408). -/
  | injectionFire
  /-- DEBLOCK (R400). -/
  | deblock
  /-- BLOCK_REQUEST (R402). -/
  | blockRequest
  /-- FLT_CNT_CLR (R418). -/
  | fltCntClr
  /-- COUNTER_AREA_WRITE (R521). -/
  | counterAreaWrite (ok : Bool)
  /-- ARM (R442). -/
  | arm
  /-- GUST_ARM_EFFECT (R442). -/
  | gustArmEffect
  /-- STOP (R447). -/
  | stop
  /-- FORCE (R448). -/
  | force
  /-- TRACE_WORD (R431). -/
  | traceWord (word : BitVec 64)
  /-- TRACE_ROW_CLOSE (R432). -/
  | traceRowClose
  /-- RECORD_DEADLINE (R438). -/
  | recordDeadline (trace : Bool)
  /-- GUST_ARM_RECEIVE (R461). -/
  | gustArmReceive
  /-- GUST_FIRE_RECEIVE (R462). -/
  | gustFireReceive (vt : BitVec 64)
  /-- GST_CNT_CLR (R467). -/
  | gstCntClr
  /-- RENEW_SEND (R489). -/
  | renewSend
  /-- RENEW (R491). -/
  | renew (m : TwMsgIn)
  /-- STATUS (R480). -/
  | status (m : TwMsgIn) (clash : TwClash)
  /-- STATUS_SEND (R480). -/
  | statusSend
  /-- SURRENDER (R491). -/
  | surrender (m : TwMsgIn)
  /-- RECLAIM (R507). -/
  | reclaim (m : TwMsgIn)
  /-- HANDOVER (R510). -/
  | handover (m : TwMsgIn)
  /-- ACK (R495). -/
  | ack (m : TwMsgIn)
  /-- NAK (R511). -/
  | nak (m : TwMsgIn)
  /-- ECHO (R474). -/
  | echo (m : TwMsgIn)
  /-- ECHO_RESP (R474). -/
  | echoResp (m : TwMsgIn) (ui : Fin 32)
  /-- TWIN_ECHO_SEND (R475). -/
  | twinEchoSend
  /-- PARTNER_TIMEOUT (R473). -/
  | partnerTimeout
  /-- CHECKPOINT_CAPTURE (R483). -/
  | checkpointCapture
  /-- CHECKPOINT_RECEIVE (R487). -/
  | checkpointReceive (bytes : List (BitVec 8))
  /-- CHECKPOINT_TIMEOUT (R488). -/
  | checkpointTimeout
  /-- LEASE_VIEW_EXPIRY (R491). -/
  | leaseViewExpiry
  /-- LEASE_QUERY_SEND (R500). -/
  | leaseQuerySend
  /-- CLAIM_DELAY_EXPIRY (R501). -/
  | claimDelayExpiry
  /-- CLAIM_SEND (R502). -/
  | claimSend
  /-- ENGINE_POWER_UP_DONE (R502). -/
  | enginePowerUpDone (testOk : Bool)
  /-- RESTORE_DONE (R504). -/
  | restoreDone
  /-- CLAIM_STEP_TIMEOUT (R505). -/
  | claimStepTimeout
  /-- EPOCH_LEARN_TIMEOUT (R493). -/
  | epochLearnTimeout
  /-- CLAIM_CONFIRM_TIMEOUT (R493). -/
  | claimConfirmTimeout
  /-- RECLAIM_HEALTH_TIMER (R496). -/
  | reclaimHealthTimer (testOk : Bool)
  /-- LIVE_CAPTURE (R508). -/
  | liveCapture
  /-- LIVE_RECEIVE (R510). -/
  | liveReceive (bytes : List (BitVec 8))
  /-- LIVE_DEADLINE (R510). -/
  | liveDeadline
  /-- HANDING_TIMEOUT (R495). -/
  | handingTimeout
  /-- TWN_SURRENDER_CMD (R498). -/
  | twnSurrenderCmd
  /-- TWN_RETRY (R495). -/
  | twnRetry
  /-- TWN_ABORT_WARM (R495). -/
  | twnAbortWarm
  /-- TWN_CNT_CLR (R515). -/
  | twnCntClr
  /-- START_STAGE_BOUND (R547). -/
  | startStageBound
  /-- BANK_CHARGED (R564). -/
  | bankCharged (c : BitVec 16)
  /-- IMAGE_CHECK (R540). -/
  | imageCheck
  /-- DOMAIN_SELF_TEST_DONE (R543). -/
  | domainSelfTestDone (pass : Bool)
  /-- FIRST_BOUNDARY_PLACE (R544). -/
  | firstBoundaryPlace
  /-- READY_BLOCKED (R545). -/
  | readyBlocked
  /-- KEY_INSERT (R524). -/
  | keyInsert (content : List (Nat × BitVec 8))
  /-- KEY_REMOVE (R523). -/
  | keyRemove
  /-- KEY_READ (R580). -/
  | keyRead
  /-- KEY_WRITE (R580). -/
  | keyWrite
  /-- KEY_INVALIDATE_PM (R580). -/
  | keyInvalidatePm (slot : Fin 16)
  /-- KEY_VERIFY (R580). -/
  | keyVerify (b : Bool)
  /-- KEY_COMMAND_DONE (R580). -/
  | keyCommandDone (ok : Bool)
  /-- OPEN (R551). -/
  | draftOpen
  /-- LOAD (R552). -/
  | load
  /-- CHECK (R553). -/
  | check
  /-- CHECK_DONE (R553). -/
  | checkDone
  /-- COMMIT (R556). -/
  | commit
  /-- ABORT (R559). -/
  | abort
  /-- DRAFT_COMMIT_BOUNDARY (R557). -/
  | draftCommitBoundary
  /-- FEED_OUT_OF_RANGE (R833). -/
  | feedOutOfRange (f : Fin 2) (v : BitVec 16)
  /-- FEED_IN_RANGE (R833). -/
  | feedInRange (f : Fin 2) (v : BitVec 16)
  /-- FEEDS_LOST (R566). -/
  | feedsLost (a : BitVec 16) (b : BitVec 16)
  /-- RIDE_END (R566). -/
  | rideEnd (f : Fin 2) (v : BitVec 16)
  /-- HOLD_VOLTAGE_MEASURE (R563). -/
  | holdVoltageMeasure (v : BitVec 16)
  /-- SHED (R567). -/
  | shed
  /-- SHED_FEED_RETURN (R568). -/
  | shedFeedReturn
  /-- PM_RECORD_START (R570). -/
  | pmRecordStart (v : BitVec 16)
  /-- PM_RECORD_DONE (R576). -/
  | pmRecordDone (ok : Bool)
  /-- TEMP_MEASURE (R849). -/
  | tempMeasure (t0 : BitVec 16) (t1 : BitVec 16) (t2 : BitVec 16) (t3 : BitVec 16) (t4 : BitVec 16)
  /-- TEMP_CUTOFF (R850). -/
  | tempCutoff (j : Fin 5)
  /-- LINK_DOWN (R585). -/
  | linkDown (p : Fin 3)
  /-- LINK_UP (R585). -/
  | linkUp (p : Fin 3)
  /-- FRAME_RECEIVE (R600). -/
  | frameReceive (p : Fin 3) (f : List (BitVec 8))
  /-- PRP_SUPERVISION_SEND (R592). -/
  | prpSupervisionSend
  /-- PRP_PATH_TIMEOUT (R592). -/
  | prpPathTimeout (p : Fin 2)
  /-- ORDER_MESSAGE (R612). -/
  | orderMessage (c : OrdCopy) (ip : BitVec 32) (d : List (BitVec 8))
  /-- ORDER_APPLY (R617). -/
  | orderApply
  /-- ORDER_LIFETIME_EXPIRY (R614). -/
  | orderLifetimeExpiry
  /-- NET_ORD_REL (R618). -/
  | netOrdRel
  /-- STATUS_BUILD (R621). -/
  | statusBuild
  /-- LAUNCH_FRAME_SEND (R605). -/
  | launchFrameSend (p : Fin 2)
  /-- RING_TAIL_WRITE (R604). -/
  | ringTailWrite (p : Fin 3) (r : Fin 3) (tail : BitVec 10)
  /-- FRAME_TRANSMIT_DONE (R604). -/
  | frameTransmitDone (p : Fin 3)
  /-- NET_NT_ADJ (R593). -/
  | netNtAdj (v : Word)
  /-- NT_STEP (R594). -/
  | ntStep (hi : Word)
  /-- NET_NT_OFFSET (R597). -/
  | netNtOffset (v : Word)
  /-- SERVO_UPDATE_TIMEOUT (R597). -/
  | servoUpdateTimeout
  /-- NET_LATCH (R596). -/
  | netLatch
  /-- NET_NT_LO_READ (R595). -/
  | netNtLoRead
  /-- TXTS_POP (R601). -/
  | txtsPop (p : Fin 2)
  /-- SFP_DIAG_READ (R584). -/
  | sfpDiagRead (p : Fin 2) (rx : BitVec 16) (tx : BitVec 16)
  /-- NET_CNT_CLR (R626). -/
  | netCntClr
  /-- WATCHDOG_KICK (R636). -/
  | watchdogKick (v : BitVec 32)
  /-- WATCHDOG_ENABLE (R636). -/
  | watchdogEnable (period : BitVec 16)
  /-- WATCHDOG_EXPIRY (R636). -/
  | watchdogExpiry
  /-- DEBUG_HALT (R638). -/
  | debugHalt (c : Fin 8)
  /-- CORE_START (R634). -/
  | coreStart (c : Fin 8)
  /-- MTIMECMP_MATCH (R635). -/
  | mtimecmpMatch (c : Fin 8)
  /-- PLIC_CLAIM (R640). -/
  | plicClaim (c : Fin 8)
  /-- PLIC_COMPLETE (R640). -/
  | plicComplete (c : Fin 8) (id : Word)
  /-- CREATE (R644). -/
  | create (c : Fin 8) (t : BitVec 7) (prio : BitVec 5) (aff : BitVec 8)
  /-- READY (R647). -/
  | ready (c : Fin 8) (t : BitVec 7)
  /-- BLOCK (R644). -/
  | block (c : Fin 8) (t : BitVec 7)
  /-- YIELD (R644). -/
  | yield (c : Fin 8) (t : BitVec 7)
  /-- PRIO (R644). -/
  | prio (c : Fin 8) (t : BitVec 7) (prio : BitVec 5)
  /-- AFFINITY (R644). -/
  | affinity (c : Fin 8) (t : BitVec 7) (aff : BitVec 8)
  /-- DELETE (R644). -/
  | delete (c : Fin 8) (t : BitVec 7)
  /-- DISPATCH_ACK (R649). -/
  | dispatchAck (c : Fin 8) (t : BitVec 7) (idle : Bool)
  /-- DMA_START (R653). -/
  | dmaStart (n : Fin 16) (answered : Bool)
  /-- DMA_STOP (R661). -/
  | dmaStop (n : Fin 16) (h : DmaHalt)
  /-- DESCRIPTOR_RETURN (R657). -/
  | descriptorReturn (n : Fin 16) (e : DmaEnd) (after : DmaThen)
  /-- DMA_ACCESS_TIMEOUT (R660). -/
  | dmaAccessTimeout (n : Fin 16) (a : DmaAccess)
  /-- ARB_MODE_WRITE (R671). -/
  | arbModeWrite (mode : BitVec 1)
  /-- MEM_GRANT_CLR (R677). -/
  | memGrantClr
  /-- ECC_CORRECTED (R672). -/
  | eccCorrected (chB : Bool)
  /-- ECC_UNCORRECTABLE (R673). -/
  | eccUncorrectable (chB : Bool) (a : BitVec 35) (w : EccReader)
  /-- SCRUB_PASS (R672). -/
  | scrubPass
  /-- SAFETY_SAMPLE (R686). -/
  | safetySample (c : Fin 2) (ins : BitVec 32)
  /-- RESET_HELD (R694). -/
  | resetHeld (c : Fin 2)
  /-- TRIP_REQUEST_LINE (R698). -/
  | tripRequestLine (c : Fin 2)
  /-- CROSS_LINK_EXCHANGE (R704). -/
  | crossLinkExchange
  /-- CROSS_CHECK_FAIL (R705). -/
  | crossCheckFail (lost : Bool)
  /-- OFF_PULSE_TEST (R707). -/
  | offPulseTest (c : Fin 2) (so : Fin 8)
  /-- OFF_PULSE_VERDICT (R709). -/
  | offPulseVerdict (c : Fin 2) (pass : Bool)
  /-- SWITCH_BANK_READ (R720). -/
  | switchBankRead (c : Fin 2) (v : BitVec 16)
  /-- DISCHARGE_TIMER (R701). -/
  | dischargeTimer (c : Fin 2)
  /-- SAFETY_BLOCK_LINE (R681). -/
  | safetyBlockLine (p : Fin 12) (c : Fin 2)
  /-- SAFETY_PB_CHUNK (R716). -/
  | safetyPbChunk (c : Fin 2) (idx : BitVec 8) (data : BitVec 128)
  /-- SAFETY_CHANNEL_POWER_UP (R696). -/
  | safetyChannelPowerUp (c : Fin 2) (bank : BitVec 16)
  /-- FIELD_INPUT_CHANGE (R723). -/
  | fieldInputChange (n : Fin 32) (level : Bool) (run : Nat)
  /-- OUTPUT_OVERLOAD (R727). -/
  | outputOverload (n : Fin 16)
  /-- FIELD_SUPPLY_LOW (R728). -/
  | fieldSupplyLow (v : BitVec 16)
  /-- FIELD_SUPPLY_RECOVER (R728). -/
  | fieldSupplyRecover (v : BitVec 16)
  /-- DOWN_FRAME_SEND (R730). -/
  | downFrameSend
  /-- UP_FRAME_RECEIVE (R738). -/
  | upFrameReceive (f : BitVec 256)
  /-- UP_FRAME_LOST (R734). -/
  | upFrameLost
  /-- FIELD_DOWN_FRAME_RECEIVE (R733). -/
  | fieldDownFrameReceive (f : BitVec 256)
  /-- FIELD_DOWN_FRAME_LOST (R736). -/
  | fieldDownFrameLost
  /-- FIO_RESUME (R736). -/
  | fioResume
  /-- FIO_OVL_CLR (R727). -/
  | fioOvlClr (v : BitVec 16)
  /-- FIO_CNT_CLR (R742). -/
  | fioCntClr
  /-- SAF_CNT_CLR (R743). -/
  | safCntClr
  /-- ADC_START (R753). -/
  | adcStart
  /-- ADC_STOP (R756). -/
  | adcStop
  /-- ADC_CAL (R761). -/
  | adcCal
  /-- CAL_DONE (R763). -/
  | calDone (o0 : BitVec 32) (o1 : BitVec 32) (o2 : BitVec 32) (o3 : BitVec 32) (r0 : BitVec 32) (r1 : BitVec 32) (r2 : BitVec 32) (r3 : BitVec 32)
  /-- JGO (R757). -/
  | jgo
  /-- JAT_MATCH (R757). -/
  | jatMatch
  /-- ADC_SLOT_END (R750). -/
  | adcSlotEnd (m : Fin 4) (raw : BitVec 32)
  /-- ADC_FACTOR_WRITE (R764). -/
  | adcFactorWrite (m : Fin 4) (gain : Bool) (v : BitVec 32)
  /-- ADC_RES_READ (R752). -/
  | adcResRead (inj : Bool) (n : Fin 16)
  /-- SHAFT_EDGE (R766). -/
  | shaftEdge (ch : Fin 2) (a : Bool) (b : Bool) (z : Bool)
  /-- INDEX_EDGE (R774). -/
  | indexEdge (ch : Fin 2)
  /-- SHF_CNT_WRITE (R773). -/
  | shfCntWrite (ch : Fin 2) (v : BitVec 32)
  /-- SHF_CFG_WRITE (R767). -/
  | shfCfgWrite (ch : Fin 2) (v : BitVec 32)
  /-- SSI_REQ (R778). -/
  | ssiReq (ch : Fin 2)
  /-- SSI_READ_DONE (R777). -/
  | ssiReadDone (ch : Fin 2) (ready : Bool) (vt : BitVec 32) (bits : BitVec 32) (high : Bool)
  /-- SSI_TM_END (R778). -/
  | ssiTmEnd (ch : Fin 2)
  /-- SHF_ABS_CFG_WRITE (R782). -/
  | shfAbsCfgWrite (ch : Fin 2) (time : Bool) (v : BitVec 32)
  /-- SHF_CNT_CLR (R781). -/
  | shfCntClr (ch : Fin 2)
  /-- LOAD_ALL (R788). -/
  | loadAll
  /-- PWM_RELOAD (R785). -/
  | pwmReload (n : Fin 16)
  /-- PWM_OFF_EDGE (R785). -/
  | pwmOffEdge (n : Fin 16)
  /-- PWM_EN_WRITE (R786). -/
  | pwmEnWrite (v : BitVec 16)
  /-- PWM_MINOFF_WRITE (R787). -/
  | pwmMinoffWrite (n : Fin 16) (v : BitVec 16)
  /-- CHOPPER_ARM (R795). -/
  | chopperArm
  /-- CHOPPER_DISARM (R799). -/
  | chopperDisarm
  /-- ARM_PAIR_WRITE (R800). -/
  | armPairWrite (n : Fin 16) (isT : Bool) (v : BitVec 32)
  /-- PWM_CHOP_WRITE (R801). -/
  | pwmChopWrite (v : BitVec 16)
  /-- CLOCK_STOP (R793). -/
  | clockStop
  /-- CAN_FRAME_RECEIVE (R806). -/
  | canFrameReceive (p : Fin 2) (f : CanFrame) (ts : BitVec 32)
  /-- CAN_TX_REQ (R809). -/
  | canTxReq (p : Fin 2) (m : BitVec 64)
  /-- CAN_TX_ABORT (R812). -/
  | canTxAbort (p : Fin 2) (m : BitVec 64) (cur : Option (Fin 64))
  /-- CAN_FRAME_SENT (R811). -/
  | canFrameSent (p : Fin 2) (b : Fin 64) (start : BitVec 32)
  /-- CAN_FRAME_FAIL (R810). -/
  | canFrameFail (p : Fin 2) (b : Fin 64)
  /-- CAN_STATE_CHANGE (R805). -/
  | canStateChange (p : Fin 2) (rxErr : BitVec 8) (txErr : BitVec 8) (busOff : Bool)
  /-- CAN_REC (R815). -/
  | canRec (p : Fin 2)
  /-- CAN_RECOVERED (R815). -/
  | canRecovered (p : Fin 2)
  /-- CAN_STALE_TEST (R814). -/
  | canStaleTest (p : Fin 2) (b : Fin 64)
  /-- CAN_INIT (R816). -/
  | canInit (p : Fin 2)
  /-- CAN_TIMING_WRITE (R804). -/
  | canTimingWrite (p : Fin 2) (k : CanTiming) (v : BitVec 32)
  /-- CAN_CNT_CLR (R821). -/
  | canCntClr (p : Fin 2)
  /-- DEBUG_RESUME (R792). -/
  | debugResume (c : Fin 8)
  /-- RAIL_OUT_OF_RANGE (R375). -/
  | railOutOfRange (d : Fin 14)
  /-- FIELD_UP_FRAME_SEND (R730). -/
  | fieldUpFrameSend
  /-- PMP_DENIAL (R633). -/
  | pmpDenial (c : Fin 8) (k : CoreAcc)
  /-- OUTPUT_ABOVE_5V_WHILE_OFF (R709). -/
  | outputAbove5vWhileOff (so : Fin 8)
  /-- PD0_POWER_DOWN (R567). -/
  | pd0PowerDown
  deriving DecidableEq, Repr

end Sys2Proof
end

