-- ==== Sys2Proof/Decode.lean ====
section
/-! DEFINITION. The commands that words spell. The table of operations and events gives none of its rows any bits, so no
word spells a command. -/

namespace Sys2Proof

/-- The command that `w` spells in `nbits` bits of the table: none, since no row of the table has bits. DESIGN CHOICE:
log entry 5. -/
def decodeTableWord (_nbits _w : Nat) : Option Instr := none

end Sys2Proof
end

