-- ==== Sys2Proof/Machine/Crc.lean ====
section
/-! DEFINITION. The two cyclic redundancy checks of the part: CRC-32C (R20) and CRC-16/CCITT-FALSE (R21). -/

namespace Sys2Proof.Machine

/-- Eight shift steps of the reflected CRC-32C register (polynomial 0x1EDC_6F41, reflected 0x82F6_3B78). -/
def crc32cShift (k : Nat) (c : Nat) : Nat :=
  match k with
  | 0 => c
  | k + 1 => crc32cShift k (if c % 2 = 1 then (c / 2) ^^^ 0x82F63B78 else c / 2)

/-- The CRC-32C register after one byte. -/
def crc32cByte (c : Nat) (b : Byte) : Nat := crc32cShift 8 (c ^^^ b.toNat)

/-- CRC-32C of a byte string (R20). -/
def crc32c (bs : List Byte) : Word :=
  BitVec.ofNat 32 (bs.foldl crc32cByte 0xFFFFFFFF ^^^ 0xFFFFFFFF)

/-- Shift steps of CRC-16/CCITT-FALSE, most significant bit first. -/
def crc16Shift (k : Nat) (c : Nat) : Nat :=
  match k with
  | 0 => c
  | k + 1 => crc16Shift k (if 0x8000 ≤ c then ((2 * c) % 0x10000) ^^^ 0x1021 else 2 * c)

/-- The CRC-16 register after one byte. -/
def crc16Byte (c : Nat) (b : Byte) : Nat := crc16Shift 8 (c ^^^ (b.toNat * 256))

/-- CRC-16/CCITT-FALSE of a byte string (R21). -/
def crc16 (bs : List Byte) : BitVec 16 := BitVec.ofNat 16 (bs.foldl crc16Byte 0xFFFF)

/-- The four little-endian bytes of a word (R18). -/
def wordBytes (w : Word) : List Byte :=
  [w.setWidth 8, (w >>> 8).setWidth 8, (w >>> 16).setWidth 8, (w >>> 24).setWidth 8]

/-- The `n` little-endian bytes of a number (R18). -/
def natBytes (n v : Nat) : List Byte :=
  match n with
  | 0 => []
  | n + 1 => BitVec.ofNat 8 v :: natBytes n (v / 256)

/-- The number that little-endian bytes spell (R18). -/
def leNat (bs : List Byte) : Nat :=
  match bs with
  | [] => 0
  | b :: r => b.toNat + 256 * leNat r

/-- A little-endian field of a byte string. -/
def bytesAt (b : List Byte) (off n : Nat) : Nat := leNat ((b.drop off).take n)

/-- The number that big-endian bytes spell (R19). -/
def beNat (bs : List Byte) : Nat := leNat bs.reverse

/-- A big-endian field of a byte string, and a number as big-endian bytes (R19). -/
def beAt (b : List Byte) (off n : Nat) : Nat := beNat ((b.drop off).take n)
def beBytes (n v : Nat) : List Byte := (natBytes n v).reverse

/-- Bits as a number, bit i from entry i. -/
def flagNat (l : List Bool) : Nat :=
  match l with
  | [] => 0
  | b :: r => (if b then 1 else 0) + 2 * flagNat r

/-- Fields one after the other, the first in the most significant bits: pairs of a value and its width. -/
def packFields (l : List (Nat × Nat)) : Nat := l.foldl (fun a e => a * 2 ^ e.2 + e.1 % 2 ^ e.2) 0

end Sys2Proof.Machine
end

