-- ==== Sys2Proof/Config.lean ====
section
/-! DEFINITION. What the spec leaves open: values an implementation fixes or that no rule states. Each is a constant
without a body, so no proof can see what it is. -/

namespace Sys2Proof

/-- Depth D of a channel, by its key, less 8 and before it is held within 8 to 64 (R38). DESIGN CHOICE: log entry 18.
-/
opaque Config.chanDepth : Nat → Nat
/-- REPLY_OFS of an ECHO, by the tick of its departure, less 64 and before it is held within 64 to 4,000 (R164, R170).
DESIGN CHOICE: log entry 19. -/
opaque Config.replyOfs : Nat → Nat
/-- How many training frames with STAGE = 6 a port sends, by port and the tick it leaves CHECK, less 1 and before it is held
within what 1 µs has room for (R92). DESIGN CHOICE: log entry 98. -/
opaque Config.dataFrames : Nat → Nat → Nat
/-- Registers of PRBS7 and PRBS31, and precoder of a lane, at the first training frame of a port's state or at the first
symbol of PRBS_TX, by port, tick and index: no rule gives a seed (R89, R110). DESIGN CHOICE: log entry 99. -/
opaque Config.prbsSeed : Nat → Nat → Nat → BitVec 31
/-- CODE of the training frames sent after a port fault, for which no rule states a code, by port and tick (R87, R103).
DESIGN CHOICE: log entry 99. -/
opaque Config.faultCode : Nat → Nat → BitVec 8
/-- Ticks from a loss of lock on X13 to the darkness of its transmit fibres, before they are held below 1 µs (R79).
DESIGN CHOICE: log entry 100. -/
opaque Config.darkDelay : Nat → Nat
/-- The sine and cosine a loop engine delivers, before the bound of R275 is applied.
DESIGN CHOICE: log entry 50. -/
opaque Config.sinOf : BitVec 32 → BitVec 32
opaque Config.cosOf : BitVec 32 → BitVec 32
/-- The angle ATAN2 delivers before its bound is applied, and its magnitude, for which no error is stated (R861).
DESIGN CHOICE: log entry 50. -/
opaque Config.atanOf : BitVec 32 → BitVec 32 → BitVec 32
opaque Config.magOf : BitVec 32 → BitVec 32 → BitVec 32
/-- Coefficients of LPF1, SOGI, RES, LEADLAG and of PIR's harmonics before their bound of one last place is applied
(R861), by block, index and the words they depend on. DESIGN CHOICE: log entry 50. -/
opaque Config.coefOf : Nat → List (BitVec 32) → BitVec 32
/-- The gain of RES and of a harmonic of PIR beside KR, by h, ω and ζ: no rule states what KR multiplies (R275).
DESIGN CHOICE: log entry 49. -/
opaque Config.resGain : BitVec 32 → BitVec 32 → BitVec 32 → BitVec 32
/-- Does the check of an Ed25519 signature leave out the cofactor, as RFC 8032 allows (R528, R538)?
DESIGN CHOICE: log entry 71. -/
opaque Config.edStrict : Bool
/-- Does a 1 of a maximal-length sequence stand for +AMP? (R308). DESIGN CHOICE: log entry 41. -/
opaque Config.prbsHigh : Bool
/-- The phase of a logarithmic chirp between frequencies that are not both above 0, for which no sweep exists, in turns of
2^-64, by F0, F1, LE_INJ_LEN and the period since its start (R308). DESIGN CHOICE: log entry 41. -/
opaque Config.chirpTurn : BitVec 32 → BitVec 32 → BitVec 32 → Nat → BitVec 64
/-- The hardware address that a port has learned for an IPv4 address on its network, by port and address, and the fields of an
IPv4 header for which no rule states a value, by the number of the message (R621, R623). DESIGN CHOICE: log entry 84. -/
opaque Config.arpMac : Nat → Nat → BitVec 48
opaque Config.ipFields : Nat → BitVec 48
/-- The module's serial number (R520, R572). DESIGN CHOICE: log entry 72. -/
opaque Config.serial : BitVec 32
/-- A byte of the capture memory in which no record held lies, by the number of the free value and the address
(R422, R423).
DESIGN CHOICE: log entry 67. -/
opaque Config.captureLeft : Nat → Nat → BitVec 8
/-- V_FULL of the hold-up bank in 10 mV, less 71.0 V and before it is held within 71.0 to 73.0 V (R562). DESIGN
CHOICE: log entry 79. -/
opaque Config.bankFull : Nat
/-- Average optical power at a fibre, by register address and microsecond since PD0 power-up (R111). DESIGN CHOICE:
log entry 24. -/
opaque Config.optical : Nat → Nat → BitVec 32
/-- What a register reads as where no rule states it, by its address and the number of the free value.
DESIGN CHOICE: log entry 94. -/
opaque Config.openReg : Nat → Nat → BitVec 32
/-- A value no rule states, fresh for each number.
DESIGN CHOICE: log entry 11. -/
opaque Config.freeWord : Nat → BitVec 32

end Sys2Proof
end

