-- ==== Sys2Proof/Machine/Line.lean ====
section
/-! DEFINITION. What a link carries, down to its symbols: blocks and their bodies in line order (R82 to R89, R117 to R125,
R129 to R138, R163, R478 to R481), the PAM4 code, and training frames. Nothing here reads the state of the part. -/

namespace Sys2Proof.Machine

/-! ## Blocks and their contents -/

/-- Fields in line order with zeros up to `w` bits, the first field first on the line (R19). -/
def lineFields (w : Nat) (l : List (Nat × Nat)) : BitVec w :=
  BitVec.ofNat w (packFields l * 2 ^ (w - (l.map (·.2)).sum))

/-- A block: TAG, SEQ, BODY and the CRC of line bits 0 to 479 (R118, R119). -/
def blockOf (tag : BitVec 16) (seq : Nat) (body : BitVec 460) : BitVec 512 :=
  let front := lineFields 480 [(tag.toNat, 16), (seq, 4), (body.toNat, 460)]
  lineFields 512 [(front.toNat, 480), ((crc32c (lineBytes front 0 60)).toNat, 32)]

/-- A header tag: TYPE and what follows it (R125). -/
def tagOf (type rest : Nat) : BitVec 16 := lineFields 16 [(type, 4), (rest, 12)]

/-- Blocks of a frame of a command set (R138). -/
def CmdSet.blocks (c : CmdSet) : Nat :=
  (128 + 32 * c.cells.length + (if c.ext.isSome then 64 else 0) + 459) / 460

/-- The extended entry in line order (R135). -/
def Ext.fields (x : Ext) : List (Nat × Nat) :=
  [(x.idx.toNat, 16), (x.idxC.toNat, 16), (x.cmd.toNat, 16), (x.cmdC.toNat, 16)]

/-- The fields of a command frame in line order (R129, R130, R135, R137). -/
def Frame.fields (f : Frame) : List (Nat × Nat) :=
  [(f.epoch.toNat, 16), ((~~~ f.epoch).toNat, 16), (f.pc.toNat, 32), (f.xaBase.toNat, 16), ((~~~ f.xaBase).toNat, 16),
   (f.period, 12), (if f.src then 1 else 0, 1), (if f.cs.ext.isSome then 1 else 0, 1), (if f.blockArm then 1 else 0, 1), (0, 1),
   (f.cs.cells.length, 16)] ++
  (f.cs.cells.map fun e => [(e.1.toNat, 16), (e.2.toNat, 16)]).flatten ++
  (match f.cs.ext with | some x => x.fields | none => [])

/-- The bits of a frame, filled with zeros up to the end of its last block (R129). -/
def Frame.bits (f : Frame) : BitVec (460 * f.cs.blocks) := lineFields _ f.fields

/-- Body and tag of block `i` of a frame (R125, R129). -/
def Frame.body (f : Frame) (i : Nat) : BitVec 460 := BitVec.ofNat 460 (lineField f.bits (460 * i) 460)
def Frame.tag (f : Frame) (i : Nat) : BitVec 16 := tagOf 1 (f.pc.toNat % 4 * 1024 + i % 1024)

/-- Body and tag of a CTRL block; a message whose XA is unused carries 0x0000 and 0xFFFF (R125, R163). -/
def Ctrl.body (c : Ctrl) (epoch : BitVec 16) : BitVec 460 :=
  let xa : BitVec 16 := if c.xaUsed then c.xa else 0
  lineFields 460 [(c.op.toNat, 8), (c.target.toNat, 24), (epoch.toNat, 16), ((~~~ epoch).toNat, 16), (xa.toNat, 16),
    ((~~~ xa).toNat, 16), (c.arg.toNat, 64)]
def ctrlTag (seq : BitVec 8) : BitVec 16 := tagOf 3 seq.toNat

/-- The 52 bytes of block `i` of a transfer, zeros past its end, with the block's INDEX (R479). DEDUCED: log entry 97. -/
def transferBody (b : List Byte) (i : Nat) : BitVec 460 :=
  let l := (b.drop (52 * i)).take 52
  lineFields 460 ((i, 16) :: l.map fun x => (x.toNat, 8))

/-- Blocks of a transfer (R479). DEDUCED: log entry 97. -/
def transferBlocks (b : List Byte) : Nat := (b.length + 51) / 52

/-- Body of a GUST block (R481). -/
def gustBody (kind : Nat) (vt : BitVec 64) : BitVec 460 := lineFields 460 [(kind, 8), (vt.toNat, 64)]

/-- An IDLE block (R125). -/
def idleBlock (seq : Nat) : BitVec 512 := blockOf 0 seq 0

/-! ## The PAM4 code -/

/-- The Gray index of a group, and the group of an index (R83, R85). -/
def grayOf (g : BitVec 2) : BitVec 2 := g ^^^ (g >>> 1)
def groupOf (x : BitVec 2) : BitVec 2 := x ^^^ (x >>> 1)

/-- The symbol index sent for an index after the state `y`, and the index a receiver recovers (R84, R85). -/
def precode (y x : BitVec 2) : BitVec 2 := x - y
def unprecode (y y' : BitVec 2) : BitVec 2 := y' + y

/-- The optical level of a symbol index (R85). -/
def levelOf (y : BitVec 2) : Int := 2 * (y.toNat : Int) - 3

/-- The symbol indices a lane sends for its groups, after the state `y` (R83, R84). -/
def encodeLane (y : BitVec 2) (l : List (BitVec 2)) : List (BitVec 2) :=
  match l with
  | [] => []
  | g :: r => let z := precode y (grayOf g); z :: encodeLane z r

/-- The groups a receiver recovers from symbol indices, after the state `y` (R85). -/
def decodeLane (y : BitVec 2) (l : List (BitVec 2)) : List (BitVec 2) :=
  match l with
  | [] => []
  | z :: r => groupOf (unprecode y z) :: decodeLane z r

/-- The last symbol index of a lane, which is the state of its precoder. -/
def lastSymbol (y : BitVec 2) (l : List (BitVec 2)) : BitVec 2 := l.getLastD y

/-- Lane `n` of a block: its groups 2 j + n, first to last (R82, R117). -/
def dealt (b : BitVec 512) (n : Nat) : List (BitVec 2) :=
  (List.range 128).map fun j => BitVec.ofNat 2 (lineField b (4 * j + 2 * n) 2)

/-- The block whose lanes carry two runs of 128 groups (R82). -/
def undealt (d0 d1 : List (BitVec 2)) : BitVec 512 :=
  lineFields 512 (((d0.zip d1).map fun e => [(e.1.toNat, 2), (e.2.toNat, 2)]).flatten)

/-- The 128 symbol indices of a word, the first in its most significant bits. -/
def symbolsOf (w : BitVec 256) : List (BitVec 2) := (List.range 128).map fun j => BitVec.ofNat 2 (lineField w (2 * j) 2)
def symbolWord (l : List (BitVec 2)) : BitVec 256 := lineFields 256 (l.map fun y => (y.toNat, 2))

/-- What the precoders of the two lanes hold. -/
abbrev Pair2 := BitVec 2 × BitVec 2

/-- The symbol indices of a block on the two lanes, and the precoders after it (R82 to R84). -/
def encodeBlock (y : Pair2) (b : BitVec 512) : List (BitVec 2) × List (BitVec 2) :=
  (encodeLane y.1 (dealt b 0), encodeLane y.2 (dealt b 1))
def afterBlock (y : Pair2) (b : BitVec 512) : Pair2 :=
  let e := encodeBlock y b
  (lastSymbol y.1 e.1, lastSymbol y.2 e.2)

/-- The precoders after a run of blocks. -/
def afterBlocks (y : Pair2) (l : List (BitVec 512)) : Pair2 := l.foldl afterBlock y

/-- The precoders after `n` IDLE blocks, the first with SEQ `q`: a block of an even number of symbols adds a fixed amount to
each state, and sixteen of them in a row make one turn of SEQ. -/
def afterIdle (y : Pair2) (q n : Nat) : Pair2 :=
  let adds := (List.range 16).map fun i => afterBlock (0, 0) (idleBlock (q + i))
  let sum := fun (l : List Pair2) => l.foldl (fun (a : Pair2) e => (a.1 + e.1, a.2 + e.2)) (0, 0)
  let turn := sum adds
  let k : BitVec 2 := BitVec.ofNat 2 (n / 16)
  let rest := sum (adds.take (n % 16))
  (y.1 + k * turn.1 + rest.1, y.2 + k * turn.2 + rest.2)

/-! ## Training frames -/

/-- The marker of a training frame (R87). -/
def trainMarker : BitVec 32 := 0x1F350D79

/-- A TRAIN word (R87). -/
def trainWord (stage status : Nat) (code : BitVec 8) : BitVec 16 :=
  lineFields 16 [(stage, 4), (status, 2), (0, 2), (if status = 2 then code.toNat else 0, 8)]

/-- The symbol index of a bit sent on the outer levels: 0 at -3, 1 at +3 (R87). -/
def outer (b : Bool) : BitVec 2 := if b then 3 else 0

/-- Symbols 0 to 63 of a training frame (R87). -/
def trainHead (train : BitVec 16) : List (BitVec 2) :=
  let w := lineFields 64 [(trainMarker.toNat, 32), (train.toNat, 16), ((~~~ train).toNat, 16)]
  (List.range 64).map fun i => outer (lineField w i 1 == 1)

/-- One step of PRBS7 (x^7 + x^6 + 1) and of PRBS31 (x^31 + x^28 + 1): the bit sent, and the register after it, which holds
the last bits sent, the newest in bit 0 (R89). -/
def prbs7Step (r : BitVec 7) : Bool × BitVec 7 :=
  let b := r.getLsbD 6 ^^ r.getLsbD 5
  (b, (r <<< 1) ||| (if b then 1 else 0))
def prbs31Step (r : BitVec 31) : Bool × BitVec 31 :=
  let b := r.getLsbD 30 ^^ r.getLsbD 27
  (b, (r <<< 1) ||| (if b then 1 else 0))

/-- PRBS7 after `n` bits, and the next `n` bits on the outer levels (R89). -/
def prbs7After (r : BitVec 7) (n : Nat) : BitVec 7 := Nat.repeat (fun r => (prbs7Step r).2) (n % 127) r
def prbs7Symbols (r : BitVec 7) (n : Nat) : List (BitVec 2) :=
  match n with
  | 0 => []
  | n + 1 => let e := prbs7Step r; outer e.1 :: prbs7Symbols e.2 n

/-- The next `n` groups of PRBS31, the first bit of each the more significant, and the register after them (R82, R89). -/
def prbs31Groups (r : BitVec 31) (n : Nat) : List (BitVec 2) × BitVec 31 :=
  match n with
  | 0 => ([], r)
  | n + 1 =>
    let a := prbs31Step r
    let b := prbs31Step a.2
    let t := prbs31Groups b.2 n
    (((if a.1 then 2 else 0) + (if b.1 then 1 else 0)) :: t.1, t.2)

/-- The 64 groups of frame `m` of PRBS31 with the precoders as they stand before it (R89). -/
def prbs31Frame (r : BitVec 31) (y : Pair2) (m : Nat) : List (BitVec 2) × Pair2 :=
  match m with
  | 0 => ((prbs31Groups r 64).1, y)
  | m + 1 =>
    let g := prbs31Groups r 64
    prbs31Frame g.2 (lastSymbol y.1 (encodeLane y.1 g.1), lastSymbol y.2 (encodeLane y.2 g.1)) m

/-- The LEVEL pattern: each level for 16 symbols (R89). -/
def levelPattern : List (BitVec 2) := (List.range 64).map fun i => BitVec.ofNat 2 (i / 16)

/-- A training frame on the two lanes (R87, R89): frame `m` since the port's present state began, with the registers of the
sequences at frame 0. -/
def trainFrame (stage : Nat) (train : BitVec 16) (r7 : BitVec 7) (r31 : BitVec 31) (y : Pair2) (m : Nat) :
    List (BitVec 2) × List (BitVec 2) :=
  let head := trainHead train
  if stage = 3 then (head ++ levelPattern, head ++ levelPattern)
  else if stage = 5 then
    let g := prbs31Frame r31 y m
    (head ++ encodeLane g.2.1 g.1, head ++ encodeLane g.2.2 g.1)
  else
    let p := prbs7Symbols (prbs7After r7 (64 * m)) 64
    (head ++ p, head ++ p)

end Sys2Proof.Machine
end

