-- ==== Sys2Proof/Machine/Fp.lean ====
section
/-! DEFINITION. fp32 values as exact integers: every finite fp32 number is a whole multiple of 2^-149, so arithmetic is
done exactly on integers and narrowed once (R254, R255). -/

namespace Sys2Proof.Machine

/-- The exponent field of an fp32 word. -/
def fpExp (x : BitVec 32) : Nat := fieldOf x 23 8

/-- The fraction field of an fp32 word. -/
def fpFrac (x : BitVec 32) : Nat := fieldOf x 0 23

/-- The sign of an fp32 word. -/
def fpNeg (x : BitVec 32) : Bool := x.getLsbD 31

/-- An infinity or a NaN. -/
def fpSpecial (x : BitVec 32) : Bool := fpExp x == 255

def fpIsNan (x : BitVec 32) : Bool := fpExp x == 255 && fpFrac x != 0

/-- The magnitude of a finite fp32 word in units of 2^-149. -/
def fpMag (x : BitVec 32) : Nat :=
  if fpExp x = 0 then fpFrac x else (0x800000 + fpFrac x) * 2 ^ (fpExp x - 1)

/-- A finite fp32 word in units of 2^-149. -/
def fpInt (x : BitVec 32) : Int := if fpNeg x then - (fpMag x : Int) else (fpMag x : Int)

/-- Division rounded to the nearest whole number, ties to even. -/
def rneDiv (n d : Nat) : Nat :=
  let q := n / d
  let r := n % d
  if 2 * r < d then q else if d < 2 * r then q + 1 else if q % 2 = 0 then q else q + 1

/-- Number of bits of a magnitude, by its base-2 logarithm. -/
def bitLen (n : Nat) : Nat := if n = 0 then 0 else Nat.log2 n + 1

/-- The fp32 word of a sign and a magnitude `n / d` in units of 2^-149: 24 significant bits, to nearest, ties to even,
as if the exponent were unbounded; below 2^-126 a zero of the sign, beyond the range an infinity (R254). -/
def fpPack (neg : Bool) (n d : Nat) : BitVec 32 :=
  let sgn : BitVec 32 := if neg then 0x80000000 else 0
  let b := bitLen (n * 2 ^ 64 / d)
  if b < 64 then sgn
  else
    let sh := b - 24
    let m := rneDiv (n * 2 ^ 64) (d * 2 ^ sh)
    let m' := if m = 0x1000000 then 0x800000 else m
    let e := (if m = 0x1000000 then sh + 1 else sh) + 1
    if e ≤ 64 then sgn
    else if 255 ≤ e - 64 then sgn ||| 0x7F800000
    else sgn ||| BitVec.ofNat 32 ((e - 64) * 0x800000 + (m' - 0x800000))

/-- The fp32 word of an exact value `v / d` in units of 2^-149. -/
def fpRound (v : Int) (d : Nat) : BitVec 32 := fpPack (decide (v < 0)) v.natAbs d

/-- 2^149, the units of one. -/
def fpUnit : Nat := 2 ^ 149

/-- An integer as fp32. -/
def fpOfInt (n : Int) : BitVec 32 := fpRound (n * fpUnit) 1

def fpNan : BitVec 32 := 0x7FC00000
def fpOne : BitVec 32 := 0x3F800000
def fpZero : BitVec 32 := 0

def fpInf (neg : Bool) : BitVec 32 := if neg then 0xFF800000 else 0x7F800000

/-- The other sign. -/
def fpMinus (x : BitVec 32) : BitVec 32 := x ^^^ 0x80000000

/-- The magnitude. -/
def fpAbs (x : BitVec 32) : BitVec 32 := x &&& 0x7FFFFFFF

/-- A subnormal operand reads as zero of its sign (R254). -/
def fpFlush (x : BitVec 32) : BitVec 32 := if fpExp x = 0 then x &&& 0x80000000 else x

/-- A rounded sum whose exact value is given; an exact zero is +0 unless both operands are negative zeros. -/
def fpSumRes (v : Int) (d : Nat) (a b : BitVec 32) : BitVec 32 :=
  if v = 0 then (if fpNeg a && fpNeg b then 0x80000000 else 0) else fpRound v d

/-- a + b (R254). -/
def fpAdd (a b : BitVec 32) : BitVec 32 :=
  let a := fpFlush a
  let b := fpFlush b
  if fpIsNan a || fpIsNan b then fpNan
  else if fpSpecial a && fpSpecial b then (if fpNeg a = fpNeg b then a else fpNan)
  else if fpSpecial a then a else if fpSpecial b then b
  else fpSumRes (fpInt a + fpInt b) 1 a b

/-- a − b (R254). -/
def fpSub (a b : BitVec 32) : BitVec 32 := fpAdd a (fpMinus b)

/-- a × b (R254). -/
def fpMul (a b : BitVec 32) : BitVec 32 :=
  let a := fpFlush a
  let b := fpFlush b
  let neg := fpNeg a != fpNeg b
  if fpIsNan a || fpIsNan b then fpNan
  else if fpSpecial a || fpSpecial b then
    (if fpMag a = 0 ∨ fpMag b = 0 then fpNan else fpInf neg)
  else fpPack neg (fpMag a * fpMag b) fpUnit

/-- a × b + c with a single rounding (R275, MAC). -/
def fpMac (a b c : BitVec 32) : BitVec 32 :=
  let a := fpFlush a
  let b := fpFlush b
  let c := fpFlush c
  if fpSpecial a || fpSpecial b || fpSpecial c then fpAdd (fpMul a b) c
  else
    let pn : BitVec 32 := if fpNeg a != fpNeg b then 0x80000000 else 0
    fpSumRes (fpInt a * fpInt b + fpInt c * fpUnit) fpUnit pn c

/-- a / b (R254); by zero an infinity, or NaN for 0/0. -/
def fpDiv (a b : BitVec 32) : BitVec 32 :=
  let a := fpFlush a
  let b := fpFlush b
  let neg := fpNeg a != fpNeg b
  if fpIsNan a || fpIsNan b then fpNan
  else if fpSpecial a then (if fpSpecial b then fpNan else fpInf neg)
  else if fpSpecial b then (if neg then 0x80000000 else 0)
  else if fpMag b = 0 then (if fpMag a = 0 then fpNan else fpInf neg)
  else if fpMag a = 0 then (if neg then 0x80000000 else 0)
  else fpPack neg (fpMag a * fpUnit) (fpMag b)

/-- The whole part of a square root, bit by bit from bit `k - 1` down. -/
def isqrtFrom (k : Nat) (n r : Nat) : Nat :=
  match k with
  | 0 => r
  | k + 1 => let t := r + 2 ^ k; isqrtFrom k n (if t * t ≤ n then t else r)

def isqrt (n : Nat) : Nat := isqrtFrom (bitLen n / 2 + 1) n 0

/-- The root of a magnitude of units 2^-149 as a fraction that rounds to 24 bits as the exact root does. -/
def sqrtFrac (m : Nat) : Nat × Nat :=
  let r := isqrt (m * fpUnit * 2 ^ 160)
  if r * r = m * fpUnit * 2 ^ 160 then (r, 2 ^ 80) else (2 * r + 1, 2 ^ 81)

/-- √a (R254): a negative operand gives NaN, −0 gives −0. -/
def fpSqrt (a : BitVec 32) : BitVec 32 :=
  let a := fpFlush a
  if fpIsNan a then fpNan
  else if fpMag a = 0 then a
  else if fpNeg a then fpNan
  else if fpSpecial a then a
  else let f := sqrtFrac (fpMag a); fpPack false f.1 f.2

/-- The order of finite values, both zeros equal. -/
def fpLt (a b : BitVec 32) : Bool :=
  !fpIsNan a && !fpIsNan b && decide (fpInt (fpFlush a) < fpInt (fpFlush b))
def fpLe (a b : BitVec 32) : Bool :=
  !fpIsNan a && !fpIsNan b && decide (fpInt (fpFlush a) ≤ fpInt (fpFlush b))

def fpMax (a b : BitVec 32) : BitVec 32 := if fpLt a b then b else a
def fpMin (a b : BitVec 32) : BitVec 32 := if fpLt b a then b else a

/-- a held within [lo, hi]; a limit is an operand and reads as zero when subnormal (R254). -/
def fpClamp (a lo hi : BitVec 32) : BitVec 32 :=
  if fpLt a lo then fpFlush lo else if fpLt hi a then fpFlush hi else a

/-- A flag output (R275): exactly 1.0 or 0.0. -/
def fpFlag (b : Bool) : BitVec 32 := if b then fpOne else fpZero

/-- An input used as a flag is true when it is 0.5 or more (R275). -/
def fpTrue (x : BitVec 32) : Bool := fpLe 0x3F000000 x

/-- The fp32 word nearest the fraction `n / d`. -/
def fpOfFrac (n : Int) (d : Nat) : BitVec 32 := fpRound (n * fpUnit) d

/-- dt = P × 5 ns (R256). -/
def dtOf (p : Nat) : BitVec 32 := fpOfFrac (5 * p) 1000000000

/-- The whole number an fp32 parameter holds (R862). -/
def fpNat (x : BitVec 32) : Nat := (fpInt x / fpUnit).toNat

/-- A value rounded to 48 significant bits and held as head and tail (R255). -/
def fpSplit (v : Int) (d : Nat) : BitVec 32 × BitVec 32 :=
  let n := v.natAbs
  let b := bitLen (n / d)
  let sh := b - 48
  let m : Int := (rneDiv n (d * 2 ^ sh) * 2 ^ sh : Nat)
  let q : Int := if v < 0 then -m else m
  let h := fpRound q 1
  if fpSpecial h then (h, 0) else (h, fpRound (q - fpInt h) 1)

/-- The value of a head and tail, in units of 2^-149. -/
def fpWide (x : BitVec 32 × BitVec 32) : Int := fpInt (fpFlush x.1) + fpInt (fpFlush x.2)

/-- A state of 48 significant bits plus an fp32 term (R861). -/
def fpWideAdd (x : BitVec 32 × BitVec 32) (t : BitVec 32) : BitVec 32 × BitVec 32 :=
  if fpSpecial t then (t, 0) else fpSplit (fpWide x + fpInt (fpFlush t)) 1

/-- A wide state held within fp32 limits. -/
def fpWideClamp (x : BitVec 32 × BitVec 32) (lo hi : BitVec 32) : BitVec 32 × BitVec 32 :=
  if fpSpecial x.1 then x
  else if fpWide x < fpInt (fpFlush lo) then (fpFlush lo, 0)
  else if fpInt (fpFlush hi) < fpWide x then (fpFlush hi, 0) else x

/-- The fp32 output of a wide state (R255). -/
def fpNarrow (x : BitVec 32 × BitVec 32) : BitVec 32 := if fpSpecial x.1 then x.1 else
  (if fpWide x = 0 then x.1 &&& 0x80000000 else fpRound (fpWide x) 1)

end Sys2Proof.Machine
end

