-- ==== Sys2Proof/Machine/AdcTypes.lean ====
section
/-! DEFINITION. State of the precision ΣΔ converter and of the shaft channels (14_precision_adc_and_shaft.md). Results,
factors, counts and configuration are registers of their windows; times are raw VT (R749). -/

namespace Sys2Proof.Machine

/-- A conversion that a modulator does next or is doing: the entry of its sequence and the tick at which its slot
begins. -/
structure AdcConv where
  entry : Nat
  at_ : BitVec 64
  deriving DecidableEq, Repr

/-- A modulator (R747, R753, R758). -/
structure AdcMod where
  /-- the regular conversion in progress or waiting for its grid slot -/
  cur : Option AdcConv := none
  /-- regular entries of the round still to come after it -/
  todo : List Nat := []
  /-- the injected conversion in progress, and those to come after it -/
  inj : Option AdcConv := none
  /-- a regular conversion whose slot had ended when an injection came: its result is still to be written (R750, R758) -/
  late : Option AdcConv := none
  injTodo : List Nat := []
  deriving DecidableEq, Repr

/-- The converter. -/
structure Adc where
  run : Bool := false
  /-- an injection runs, and a calibration runs (JBUSY, CAL_BUSY) -/
  jbusy : Bool := false
  cal : Bool := false
  calValid : Bool := false
  mods : Sparse AdcMod := []
  /-- regular entries of the round that have completed (ENTRY) -/
  done : BitVec 16 := 0
  /-- slot starts of the results, by input, and of the injected results from 16 on (R752) -/
  starts : Sparse Word := []
  deriving DecidableEq, Repr

/-- An absolute word read (R777, R778). -/
inductive SsiSt where
  | idle | reading | pause
  deriving DecidableEq, Repr

/-- A shaft channel. -/
structure Shf where
  /-- accepted levels (R765) -/
  a : Bool := false
  b : Bool := false
  z : Bool := false
  /-- direction of the last count, none before the first (R771) -/
  dir : Option Bool := none
  /-- an index reference is held (REF_VALID), and the next index becomes the reference (R773, R774) -/
  ref : Bool := false
  next : Bool := false
  ssi : SsiSt := .idle
  deriving DecidableEq, Repr

/-- The two incremental lines as a quadrature state AB (R766). -/
def quadUp (a b a1 b1 : Bool) : Bool :=
  match a, b, a1, b1 with
  | false, false, true, false | true, false, true, true | true, true, false, true | false, true, false, false => true
  | _, _, _, _ => false

end Sys2Proof.Machine
end

