-- ==== Sys2Proof/Machine/GstTypes.lean ====
section
/-! DEFINITION. State of the Gust recorder (08_gust_recorder.md). The counters, the trigger registers and the
configuration are registers of the GST window. -/

namespace Sys2Proof.Machine

/-- The recorder's states (R441). -/
inductive GstSt where
  | idle | armed | triggered | stopped
  deriving DecidableEq, Repr

def GstSt.code (x : GstSt) : Nat :=
  match x with
  | .idle => 0 | .armed => 1 | .triggered => 2 | .stopped => 3

/-- What the recorder holds of one captured period: the header fields, the plane record and the trace row
(R424 to R436). -/
structure GstPer where
  pc : BitVec 32
  /-- periods captured before it since the ARM (R442) -/
  idx : Nat
  p : Nat
  /-- VT_P at b(k) -/
  vtB : BitVec 64
  /-- NT latched at b(k) -/
  ntB : BitVec 64
  ntValid : Bool
  /-- the REACT byte (R427) -/
  react : Nat
  epoch : BitVec 16
  mask : BitVec 12
  ncells : List Nat
  first : Bool
  schedSwitched : Bool := false
  pChanged : Bool := false
  /-- trigger units that fired and masks that were violated in the period (R427) -/
  fired : BitVec 16 := 0
  viol : BitVec 4 := 0
  /-- the plane's values by port and cell, with the counts of R424 and R426 -/
  plane : List (List (BitVec 16)) := []
  plMissing : Nat := 0
  plPair : Nat := 0
  /-- the plane record was not complete at its deadline (R438) -/
  plFault : Bool := false
  /-- samples of the trace row, with HELD (R432, R436) -/
  row : Sparse (Option (BitVec 32 × Bool)) := []
  /-- the FAULTS field (R435) -/
  faults : BitVec 256 := 0
  /-- late words and replaced samples (R432, R434) -/
  late : Nat := 0
  dup : Nat := 0
  /-- the trace row was not complete at its deadline (R438) -/
  trFault : Bool := false
  deriving DecidableEq, Repr

/-- The run counts and region states of a trigger unit (R454). -/
structure GstUnit where
  /-- consecutive valid periods in the active region -/
  width : Nat := 0
  /-- consecutive valid periods not in the active region -/
  quiet : Nat := 0
  /-- PC of the last valid rest period, with only middle or skipped periods since -/
  rest : Option (BitVec 32) := none
  /-- the middle region has been entered since that rest period -/
  mid : Bool := false
  deriving DecidableEq, Repr

/-- The recorder. -/
structure Gst where
  st : GstSt := .idle
  /-- an accepted ARM that waits for its boundary: PC at its acceptance (R442) -/
  armAt : Option (BitVec 32) := none
  /-- PC of the first period captured (R442, R456) -/
  pcA : BitVec 32 := 0
  /-- periods whose capture has begun since the ARM (R442, R444) -/
  taken : Nat := 0
  /-- PC of the trigger period T (R445) -/
  trig : Option (BitVec 32) := none
  /-- T came from the partner (R462) -/
  remote : Bool := false
  /-- the record was stopped by a mask (R458) -/
  maskStop : Bool := false
  /-- the last period by T + POST, and by a stop (R446, R447, R458, R463) -/
  postEnd : Option (BitVec 32) := none
  stopAt : Option (BitVec 32) := none
  /-- periods whose trace row has not closed, newest first -/
  live : List GstPer := []
  /-- periods in capture memory, newest first (R422) -/
  hist : List GstPer := []
  /-- trace units, plane record size and the capacities of the record, as they stood at the ARM (R421, R422, R428) -/
  traceUnits : Nat := 0
  planeOn : Bool := false
  plSize : Nat := 0
  plCap : Nat := 0
  trCap : Nat := 0
  units : Sparse GstUnit := []
  /-- PC of the last period that began with a COMMIT, whether its section switched the schedule, and whether it changed P
  (R427, R450) -/
  switched : Option (BitVec 32 × Bool × Bool) := none
  deriving DecidableEq, Repr

end Sys2Proof.Machine
end

