-- ==== Sys2Proof/Machine/SafTypes.lean ====
section
/-! DEFINITION. State of the safety channels, the field-I/O island and the isolation link (13_safety_and_field_io.md). -/

namespace Sys2Proof.Machine

/-- Causes of a safety trip, in the bit order of SAF_CAUSE (R696, R743). -/
inductive SafCause where
  | start | estop | access | earthReq | disc | test | bank | cross | collector | pb
  deriving DecidableEq, Repr

def SafCause.bit (c : SafCause) : Nat :=
  match c with
  | .start => 0 | .estop => 1 | .access => 2 | .earthReq => 3 | .disc => 4
  | .test => 5 | .bank => 6 | .cross => 7 | .collector => 8 | .pb => 9

/-- A safety channel: A is 0, B is 1. Times are ticks of the reference. -/
structure SafCh where
  /-- powered and running (R696) -/
  on : Bool := false
  /-- body of the safety parameter block accepted, with the CRC of its section (R716) -/
  blk : Option (List (BitVec 8) × BitVec 32) := none
  /-- chunks received of the transfer in progress, in order (R715) -/
  rx : List (BitVec 8) := []
  /-- the safety trip latch, its causes since it last cleared, and the time it was set (R696, R701) -/
  latch : Bool := false
  causes : BitVec 10 := 0
  latchAt : Nat := 0
  /-- the latch has been set for T_DISCH (R701) -/
  dischOk : Bool := false
  /-- pair values as last read, and the inputs as last sampled (R686, R687) -/
  pairs : BitVec 8 := 0
  /-- consecutive samples in which the inputs of a pair differ (R690) -/
  differ : Sparse Nat := []
  /-- pairs latched by a discrepancy fault (R692) -/
  disc : BitVec 8 := 0
  /-- consecutive samples in which RESET_IN has read 0, and 1 (R693, R694) -/
  zeros : Nat := 0
  ones : Nat := 0
  /-- the reset input has been held beyond RESET_MAX (R694) -/
  held : Bool := false
  /-- an accepted edge that waits for the other channel (R699) -/
  edgeAt : Option Nat := none
  /-- the trip request line as the channel sees it (R698) -/
  req : Bool := false
  /-- its own switches commanded on (R701) -/
  sw : BitVec 8 := 0
  /-- the output whose switch it holds open for an off-pulse test (R707) -/
  test : Option (Fin 8) := none
  /-- the switch bank as last read; and a mismatch since the last accepted reset edge (R718, R720) -/
  bank : BitVec 16 := 0
  bankBad : Bool := false
  deriving DecidableEq, Repr

/-- The safety section. -/
structure Saf where
  chs : Sparse SafCh := []
  /-- the trip request lines, as the collector drives both (R398, R679) -/
  req : Bool := false
  /-- a Trip holds the breaker-trip output off: its reaction has not ended, or no reset edge has been accepted since
  (R399). DEDUCED: log entry 59. -/
  brkOff : Bool := false
  /-- outputs latched off in both channels (R709) -/
  fail : BitVec 8 := 0
  /-- outputs on, as they were when last looked at (R702) -/
  out : BitVec 8 := 0
  /-- the cross-link is intact (R705) -/
  linkOk : Bool := false
  /-- SAF_EVT bits, and counts of trips, resets, tests run and failed tests, that the next up frame accepted brings to the
  supervisor (R743) -/
  note : BitVec 12 := 0
  trips : Nat := 0
  resets : Nat := 0
  tests : Nat := 0
  fails : Nat := 0
  deriving DecidableEq, Repr

/-- The field-I/O island and the two ends of the isolation link. -/
structure Fio where
  /-- filtered input values (R723) -/
  ins : BitVec 32 := 0
  /-- requested outputs, FILT − 1, IN_MODE and gangs as the last valid down frame carried them (R731) -/
  out : BitVec 16 := 0
  filt : BitVec 4 := 2
  mode : BitVec 4 := 0
  gang : BitVec 12 := 0
  /-- outputs latched off (R727) -/
  ovl : BitVec 16 := 0
  /-- the field supply is low, and its last measure in 10 mV units (R728) -/
  low : Bool := false
  vsup : BitVec 16 := 0
  /-- field outputs are held off after a loss of the link (R736) -/
  heldOff : Bool := false
  /-- down frames lost in a row, and LINKF (R732, R734) -/
  lostRow : Nat := 0
  lost : BitVec 4 := 0
  crc : BitVec 4 := 0
  /-- SLOT of the last valid down frame (R732) -/
  slot : BitVec 8 := 0
  /-- the event set in transmission, its number, and the events gathered for the next one (R738) -/
  evtNo : BitVec 8 := 0
  evtSet : BitVec 16 := 0
  evtNext : BitVec 16 := 0
  /-- FIO_EVT bits that the next up frame accepted brings to the supervisor (R742) -/
  note : BitVec 7 := 0
  /-- the last down frame and up frame sent (R731, R732) -/
  down : BitVec 256 := 0
  up : BitVec 256 := 0
  deriving DecidableEq, Repr

/-- The supervisor end of the isolation link, in PD1. -/
structure Iso where
  /-- EVT_NO of the last up frame accepted, and the last LINKF (R732, R738) -/
  ack : BitVec 8 := 0
  linkf : BitVec 8 := 0
  /-- up frames lost in a row; stale; the last up slot was valid (R734, R735) -/
  lostRow : Nat := 0
  stale : Bool := false
  up : Bool := false
  /-- slot whose up frame was valid last (R734) -/
  slotOk : Option Nat := none
  /-- RESUME goes into the next down frame (R736) -/
  resume : Bool := false
  /-- SAF_STAT, FIO_STAT.SUPPLY_LOW and FIO_STAT.OUT_HELD_OFF as the last valid up frame brought them -/
  low : Bool := false
  heldOff : Bool := false
  /-- VT of the last write to FIO_OUT, and what FIO_OUT held before that tick (R740) -/
  outWas : Option (BitVec 64 × BitVec 16) := none
  /-- the next chunk of the safety section to send (R715) -/
  chunk : Nat := 0
  deriving DecidableEq, Repr

end Sys2Proof.Machine
end

