-- ==== Sys2Proof/Machine/ImgTypes.lean ====
section
/-! DEFINITION. What the sections of an image hold once read: the configuration in effect, or staged in the Draft
(R530 to R537). -/

namespace Sys2Proof.Machine

/-- Device parameters (R530). -/
structure DevPar where
  pdUse : BitVec 14 := 3
  twinEn : Bool := false
  autoReclaim : Bool := true
  l : Nat := 200
  liveWords : Nat := 0
  tReclaim : Nat := 10000
  tRide : Nat := 200
  eMargin : Nat := 100
  deriving DecidableEq, Repr

/-- A port entry of the topology with its device list (R531, R532). -/
structure TopoPort where
  ncell : Nat := 0
  nfb : Nat := 0
  nhub : Nat := 0
  nnode : Nat := 0
  hold : Nat := 4
  scale : BitVec 32 := 0
  cHb : BitVec 32 := 0
  cFb : BitVec 32 := 0
  chScale : List (BitVec 32) := []
  devs : List Dev := []
  deriving DecidableEq, Repr

/-- A topology section (R531). -/
structure Topo where
  mask : BitVec 12 := 0
  ports : List TopoPort := []
  deriving DecidableEq, Repr

def Topo.port (t : Topo) (n : Nat) : TopoPort := t.ports.getD n {}

/-- The arm energy audit's parameters (R59). -/
structure EnergyPar where
  wE : Nat := 4096
  eFix : BitVec 32 := 0x42480000
  eRel : BitVec 32 := 0x3CA3D70A
  deriving DecidableEq, Repr

/-- The block parameter tables (R534, R535); a target the section leaves out keeps its defaults. -/
structure ParTables where
  le : List (List (BitVec 32 × BitVec 32)) := []
  ae : List (Option (AeParams × List Nat)) := []
  energy : EnergyPar := {}
  /-- the words of LE_FP_CFG to LE_FP_OCCH, in register order -/
  fp : List (BitVec 32) := []
  missHold : Nat := 2
  mcorr : List (BitVec 32) := []
  eddy : List EddyCh := []
  prof : List ProfCh := []
  injAllow : BitVec 32 := 0
  ampMax : List (BitVec 32) := []
  live : List (Nat × Nat) := []
  deriving DecidableEq, Repr

/-- A fault table section: entries, initial FLT_IRQ_EN bits and TWN_SURR_MASK bits (R533). -/
structure FltTable where
  entries : List FltEntry := []
  irqEn : List Bool := []
  surr : List Bool := []
  deriving DecidableEq, Repr

/-- The sections of an image or of a Draft set, each absent until given. -/
structure Sections where
  dev : Option DevPar := none
  topo : Option Topo := none
  sch : Option SchSection := none
  par : Option ParTables := none
  flt : Option FltTable := none
  recs : Option (List (Nat × Word)) := none
  /-- the safety parameter block as raw bytes (R711) -/
  saf : Option (List (BitVec 8)) := none
  net : Option NetSetup := none
  /-- firmware: LOAD_ADDR, ENTRY and the code (R537) -/
  fw : Option (Nat × Nat × List (BitVec 8)) := none
  deriving DecidableEq, Repr

/-- The configuration in effect. -/
structure Cfg where
  dev : DevPar := {}
  topo : Topo := {}
  par : ParTables := {}
  flt : FltTable := {}
  net : NetSetup := {}
  safety : List (BitVec 8) := []
  deriving DecidableEq, Repr

end Sys2Proof.Machine
end

