-- ==== Sys2Proof/Machine/SysTypes.lean ====
section
/-! DEFINITION. State of the system block: power domains, start-up, feeds and hold-up, temperatures, the config key and the
Draft (10_config_key_startup.md, 16_electrical_and_mechanical.md). -/

namespace Sys2Proof.Machine

/-- A shed in progress (R567, R568). -/
inductive ShedSt where
  | none | waiting | recording | off
  deriving DecidableEq, Repr

/-- A cause for a post-mortem record: its bit, and what the header shows of the moment it came (R569, R572). -/
structure PmDue where
  cause : Nat
  at_ : BitVec 64
  nt : BitVec 64
  pc : BitVec 32
  epoch : BitVec 16
  lease : Nat
  feeds : BitVec 32
  snap : List (BitVec 32)
  deriving DecidableEq, Repr

/-- A post-mortem record being written (R569 to R576). -/
structure PmRec where
  /-- the first cause -/
  first : PmDue
  /-- CAUSE of R572 -/
  cause : BitVec 3
  /-- FLAGS of R572 -/
  flags : Nat
  slot : Nat
  seq : BitVec 32
  /-- E_usable and E_REQ at the start, mJ -/
  eUsable : Nat
  eReq : Nat
  /-- VT_P of the last cause added, 0 when none (R575) -/
  later : BitVec 64 := 0
  /-- the body (R573) -/
  body : List (BitVec 8) := []
  deriving DecidableEq, Repr

/-- The power domains, start-up and hold-up. -/
structure Sys where
  /-- domain PDn is powered (R578) -/
  pdOn : BitVec 14 := 3
  /-- its rail is good (SYS_PD_STAT) -/
  rail : BitVec 14 := 0
  /-- the engines of the domain hold the configuration since the domain was switched on (R202, R554) -/
  loaded : BitVec 14 := 0
  /-- PD0 has powered up and VT counts (R23, R543) -/
  going : Bool := false
  /-- ticks of the reference since PD0 power-up -/
  up : Nat := 0
  /-- start-up stage, the time it began, and the result code (R543, R547) -/
  stage : Nat := 1
  stageUp : Nat := 0
  result : Nat := 0
  /-- start-up has reached ready, blocked (R545, stage 6) -/
  ready : Bool := false
  /-- the bank has been charged and measured (R564) -/
  bankOk : Bool := false
  /-- the image in use: B, not A (R541), and its IMG_SEQ (R525) -/
  imageB : Bool := false
  imgSeq : BitVec 32 := 0
  sigChecked : Bool := false
  /-- feeds A and B are within range (R833); both read in range until they leave it -/
  feedBad : BitVec 2 := 0
  /-- disconnected inside the module, above 33.0 V (R833) -/
  feedCut : BitVec 2 := 0
  /-- riding through since this VT_P (R566) -/
  riding : Option (BitVec 64) := none
  /-- a shed is under way, the VT_P at which its wait for the ports began, and a feed has returned since its step 2
  (R567, R568) -/
  shed : ShedSt := .none
  shedAt : BitVec 64 := 0
  feedBack : Bool := false
  /-- E_usable is below E_REQ, as FS3 was last raised (R565) -/
  holdLow : Bool := false
  /-- sensors that have raised FS5 and FS6 and not fallen back (R849) -/
  tempWarn : BitVec 5 := 0
  tempShut : BitVec 5 := 0
  /-- a temperature cut-off has switched the module off (R850) -/
  cutOff : Bool := false
  /-- the post-mortem record being written, and the causes that wait for E_usable to be measured (R569, R570) -/
  pm : Option PmRec := none
  pmDue : List PmDue := []
  /-- times of the last full records by cause, in reference ticks (R571) -/
  pmLast : Sparse (Option Nat) := []
  /-- a record that could not be written, shown as PM_LOST at the next start (R523, R570) -/
  pmLost : Bool := false
  /-- the sections of the image accepted at this start, and the CRC fields of its sections in TYPE order (R540, R555) -/
  img : Option Sections := none
  imgCrcs : List (BitVec 32) := []
  /-- the configuration in effect -/
  cfg : Cfg := {}
  deriving DecidableEq, Repr

/-- A key command being carried out (R580). -/
structure KeyCmd where
  action : Nat
  slot : Nat
  addr : Nat
  len : Nat
  buf : Nat
  /-- data that it read from DRAM channel B is marked in error (R673) -/
  marked : Bool := false
  deriving DecidableEq, Repr

/-- The config key as the module holds it. Its bytes stand in `State.mram`. -/
structure Key where
  /-- the slot's contact senses a key (R523) -/
  present : Bool := false
  /-- the key is not the one read at start-up (R524) -/
  foreign : Bool := false
  /-- KEY_ID read at start-up (R524) -/
  id : Option (BitVec 64) := none
  /-- the counter area in effect: SEQ, copy, stored epoch and lifetime counters in the order of R520 (R521) -/
  seq : BitVec 32 := 0
  copy : Nat := 0
  epoch : BitVec 16 := 0
  life : List (BitVec 32) := List.replicate 9 0
  /-- reference tick at which the oldest change not yet written fell due (R389, R492) -/
  due : Option Nat := none
  /-- full hours with PD0 powered for which RUN_MIN has been written (R520) -/
  hours : Nat := 0
  /-- minutes of this power-up that the counter area held when it was last read: they do not count again (R520) -/
  runFrom : Nat := 0
  /-- KEY_ID of the key last written in this power-up, and the minutes of this power-up that its counter area has since (R520) -/
  wrote : Option (BitVec 64 × Nat) := none
  /-- a command in progress (R580) -/
  cmd : Option KeyCmd := none
  /-- newest post-mortem record: SEQ and slot, and the number of valid ones (R574) -/
  pmNew : Option (BitVec 32 × Nat) := none
  pmCount : Nat := 0
  deriving DecidableEq, Repr

/-- The Draft's states (R551). -/
inductive DrfSt where
  | empty | staging | checking | checked | pending
  deriving DecidableEq, Repr

def DrfSt.code (x : DrfSt) : Nat :=
  match x with
  | .empty => 0 | .staging => 1 | .checking => 2 | .checked => 3 | .pending => 4

/-- The Draft. -/
structure Drf where
  st : DrfSt := .empty
  /-- data that the next LOAD reads is marked in error (R673) -/
  marked : Bool := false
  /-- the bodies of the staged sections, by type (R550, R552) -/
  staged : Sparse (Option (List (BitVec 8))) := []
  /-- the sections of the set that has passed its CHECK (R557) -/
  set : Sections := {}
  /-- CRC fields of the nine sections in effect, and of the checked set (R555) -/
  crcs : List (BitVec 32) := []
  nextCrcs : List (BitVec 32) := []
  /-- the boundary named by a COMMIT that is pending (R556) -/
  pendAt : Option (BitVec 32) := none
  deriving DecidableEq, Repr

end Sys2Proof.Machine
end

