-- ==== Sys2Proof/Machine/State.lean ====
section
/-! DEFINITION. The state of the part: one register file over all windows, the typed state of every block, the memories,
the answer of the last bus access, and the queue of commands that wait. -/

namespace Sys2Proof.Machine

/-- Byte memory: (address, byte) pairs in the canonical form of `Sparse`. -/
abbrev Memory := List Host.Cell

/-- The answer of the last register or memory access (R15, R17). -/
structure Bus where
  /-- data of the last read -/
  data : Word := 0
  /-- the last access ended in a bus error -/
  err : Bool := false
  deriving DecidableEq, Repr

/-- The state of the part. -/
structure State where
  /-- the registers of every window, by physical address: control registers, counters, flags and values that hardware
  writes (R857) -/
  regs : Sparse Word := []
  /-- bits that hardware has set in a register, by its address, with the tick since power-up in which it last did: a
  write of 1 in that tick does not clear them (R116, R193, R250). DEDUCED: log entry 15. DEDUCED: log entry 58. -/
  setAt : Sparse (Nat × Word) := []
  /-- values held for a paired write, by the address of the value half (R10) -/
  held : Sparse (Option Word) := []
  /-- power domains, start-up, hold-up and temperatures (R577, R851) -/
  sys : Sys := {}
  /-- timebase, channels and energy audits (R23 to R62) -/
  tb : Tb := {}
  /-- lanes: ports 0 to 11, and 12 for X13 (R98) -/
  lanes : Sparse Lane := []
  /-- arm ports (R129 to R190) -/
  ports : Sparse Port := []
  /-- arm engines (R194 to R245) -/
  aes : Sparse Ae := []
  /-- loop engines (R251 to R258) -/
  les : Sparse Le := []
  /-- the loop island (R264 to R315) -/
  isl : Island := {}
  /-- the schedule contract (R321 to R367) -/
  sch : Sch := {}
  /-- the fault collector (R375 to R418) -/
  flt : Flt := {}
  /-- the Gust recorder (R420 to R467) -/
  gst : Gst := {}
  /-- the twin (R469 to R515) -/
  twn : Twn := {}
  /-- the config key (R520 to R540, R579) -/
  key : Key := {}
  /-- the Draft (R551 to R559) -/
  drf : Drf := {}
  /-- the station network (R582 to R626) -/
  net : Net := {}
  /-- supervisor cores, dispatcher and interrupt controller (R627 to R651) -/
  dsp : Dsp := {}
  /-- the DMA engine (R652 to R663) -/
  dma : Dma := {}
  /-- the memory arbiters and their error codes (R664 to R677) -/
  mem : Mem := {}
  /-- the safety channels: A is 0, B is 1 (R678 to R721) -/
  saf : Saf := {}
  /-- the 24 V field inputs and outputs and the isolation link (R722 to R742) -/
  fio : Fio := {}
  /-- the supervisor end of the isolation link (R730 to R739) -/
  iso : Iso := {}
  /-- the ΣΔ front end (R744 to R764) -/
  adc : Adc := {}
  /-- the shaft channels 0 and 1 (R765 to R782) -/
  shfs : Sparse Shf := []
  /-- the chopper PWM outputs (R783 to R801) -/
  pwm : Pwm := {}
  /-- the CAN FD ports 0 and 1 (R802 to R821) -/
  cans : Sparse Can := []
  /-- boot ROM, SRAM and DRAM channel B, by physical address (R857) -/
  ram : Memory := []
  /-- the MRAM of the inserted key, by key offset (R518) -/
  mram : Memory := []
  /-- the answer of the last bus access -/
  bus : Bus := {}
  /-- number of the next free value: the model's own, not the spec's. DESIGN CHOICE: log entry 11. -/
  free : Nat := 0
  /-- the commands that wait, first in, first out. DESIGN CHOICE: log entry 1. -/
  pending : List Instr := []
  deriving DecidableEq, Repr

/-- Why the machine stops. -/
inductive Fault where
  /-- an operand of a command lies outside its shape (WellFormed.lean): raised by the meaning of that command, and safe,
  because no sender of the part can form such a command -/
  | illFormed
  deriving DecidableEq, Repr

/-- Why a command has no meaning here. -/
inductive Refusal where
  /-- the dispatch has no meaning for the command yet: raised by a refused arm only, and safe -/
  | notModelled (mnemonic : String)
  deriving DecidableEq, Repr

/-- The machine right after reset: PD0 and PD1 alone are on, every register holds the reset value of its table,
no memory byte is listed and no command waits. DESIGN CHOICE: log entry 4. -/
def State.reset : State := {}

end Sys2Proof.Machine
end

