-- ==== Sys2Proof/Machine/Ops.lean ====
section
/-! DEFINITION. The named operations over the register file, the state of the blocks and time, which every meaning is
built from. -/

namespace Sys2Proof.Machine

/-- The outcome of a command. -/
abbrev Res := Host.Outcome State Fault Refusal

/-- A register as it is held (R15). -/
def State.rd (s : State) (a : Nat) : Word := Sparse.get Reg.resetAt s.regs a

/-- A register takes a value. -/
def State.wr (s : State) (a : Nat) (v : Word) : State := { s with regs := Sparse.put Reg.resetAt s.regs a v }

/-- A register as a number. -/
def State.rdNat (s : State) (a : Nat) : Nat := (s.rd a).toNat

/-- One bit of a register. -/
def State.bitOf (s : State) (a i : Nat) : Bool := (s.rd a).getLsbD i

/-- The bits that hardware has set in a register in the present tick (R116, R193, R250). -/
def State.setNow (s : State) (a : Nat) : Word :=
  let x := Sparse.get (fun _ => (0, 0)) s.setAt a
  if x.1 = s.sys.up then x.2 else 0

/-- Hardware sets bits of a register. -/
def State.setBits (s : State) (a : Nat) (m : Word) : State :=
  { s.wr a (s.rd a ||| m) with setAt := Sparse.put (fun _ => (0, 0)) s.setAt a (s.sys.up, s.setNow a ||| m) }

/-- A bit is set. -/
def State.setBit (s : State) (a i : Nat) : State := s.setBits a (bitIf true i)

/-- A bit is cleared. -/
def State.clrBit (s : State) (a i : Nat) : State := s.wr a (s.rd a &&& ~~~ bitIf true i)

/-- A bit is set when a condition holds. -/
def State.setBitIf (s : State) (c : Bool) (a i : Nat) : State := if c then s.setBit a i else s

/-- A bit takes a value. -/
def State.putBit (s : State) (a i : Nat) (b : Bool) : State := if b then s.setBit a i else s.clrBit a i

/-- A field of a register. -/
def State.field (s : State) (a lo n : Nat) : Nat := fieldOf (s.rd a) lo n

/-- A field of a register takes a value. -/
def State.setField (s : State) (a lo n v : Nat) : State :=
  s.wr a ((s.rd a &&& ~~~ putField (2 ^ n - 1) lo) ||| putField (v % 2 ^ n) lo)

/-- A counter field goes up by `k`, saturating at all ones. -/
def State.addField (s : State) (a lo n k : Nat) : State :=
  s.setField a lo n (satAdd (s.field a lo n) k (2 ^ n - 1))

/-- A counter register goes up by one, saturating at 0xFFFF_FFFF. -/
def State.bump (s : State) (a : Nat) : State := s.wr a (BitVec.ofNat 32 (satInc (s.rdNat a) 0xFFFFFFFF))

/-- Both halves of a pair take effect together (R11). -/
def State.wrPair (s : State) (a : Nat) (v : Word) : State := (s.wr a v).wr (a + 4) (~~~ v)

/-- The value of a stored pair, nothing while its halves do not fit (R8, R49, R50). -/
def State.paired (s : State) (a : Nat) : Option Word := if s.rd (a + 4) = ~~~ s.rd a then some (s.rd a) else none

/-- Each of a list of registers takes its value 0. -/
def State.clearAll (s : State) (l : List Nat) : State := l.foldl (fun t a => t.wr a 0) s

/-- A lifetime counter of the key goes up, in the order of R520, and its change falls due for writing (R520, R522). -/
def State.lifeUp (s : State) (i : Nat) : State :=
  let k := s.key
  { s with key := { k with
    life := k.life.set i (BitVec.ofNat 32 (satInc (k.life.getD i 0).toNat 0xFFFFFFFF)), due := some (k.due.getD s.sys.up) } }

/-- A change of REC_CNT or of the epoch falls due for writing to the key (R389, R492). -/
def State.keyDue (s : State) : State := { s with key := { s.key with due := some (s.key.due.getD s.sys.up) } }

/-- A byte of the part's memories; one that nothing has written reads 0. DESIGN CHOICE: log entry 6. -/
def Memory.byte (m : Memory) (a : Nat) : Byte := Sparse.get (fun _ => (0 : Byte)) m a

/-- A byte takes a value. -/
def Memory.put (m : Memory) (a : Nat) (b : Byte) : Memory := Sparse.put (fun _ => (0 : Byte)) m a b

/-- The canonical form of a memory. -/
def Memory.wf (m : Memory) : Bool := Sparse.wf (fun _ => (0 : Byte)) m

/-- `n` bytes from an address on. -/
def Memory.bytes (m : Memory) (a n : Nat) : List Byte := (List.range n).map fun i => m.byte (a + i)

/-- Bytes are written from an address on. -/
def Memory.write (m : Memory) (a : Nat) (l : List Byte) : Memory :=
  match l with
  | [] => m
  | b :: r => Memory.write (m.put a b) (a + 1) r

/-- Bytes of SRAM or DRAM channel B are written. DEDUCED: log entry 16. -/
def State.ramWrite (s : State) (a : Nat) (l : List Byte) : State := { s with ram := s.ram.write a l }

/-- Bytes of the key are written. -/
def State.keyPut (s : State) (a : Nat) (l : List Byte) : State := { s with mram := s.mram.write a l }

/-- The state of a lane, a port, an engine: by index. -/
def State.lane (s : State) (n : Nat) : Lane := Sparse.get (fun _ => {}) s.lanes n
def State.setLane (s : State) (n : Nat) (x : Lane) : State :=
  { s with lanes := Sparse.put (fun _ => {}) s.lanes n x }
def State.port (s : State) (n : Nat) : Port := Sparse.get (fun _ => {}) s.ports n
def State.setPort (s : State) (n : Nat) (x : Port) : State :=
  { s with ports := Sparse.put (fun _ => {}) s.ports n x }
def State.ae (s : State) (n : Nat) : Ae := Sparse.get (fun _ => {}) s.aes n
def State.setAe (s : State) (n : Nat) (x : Ae) : State := { s with aes := Sparse.put (fun _ => {}) s.aes n x }
def State.le (s : State) (n : Nat) : Le := Sparse.get (fun _ => {}) s.les n
def State.setLe (s : State) (n : Nat) (x : Le) : State := { s with les := Sparse.put (fun _ => {}) s.les n x }
def State.src (s : State) (n : Nat) : Src := Sparse.get (fun _ => {}) s.flt.srcs n
def State.setSrc (s : State) (n : Nat) (x : Src) : State :=
  { s with flt := { s.flt with srcs := Sparse.put (fun _ => {}) s.flt.srcs n x } }
def State.chan (s : State) (k : Nat) : Chan := Sparse.get (fun _ => {}) s.tb.chans k
def State.setChan (s : State) (k : Nat) (x : Chan) : State :=
  { s with tb := { s.tb with chans := Sparse.put (fun _ => {}) s.tb.chans k x } }
def State.shf (s : State) (n : Nat) : Shf := Sparse.get (fun _ => {}) s.shfs n
def State.setShf (s : State) (n : Nat) (x : Shf) : State := { s with shfs := Sparse.put (fun _ => {}) s.shfs n x }
def State.can (s : State) (n : Nat) : Can := Sparse.get (fun _ => {}) s.cans n
def State.setCan (s : State) (n : Nat) (x : Can) : State := { s with cans := Sparse.put (fun _ => {}) s.cans n x }

/-- A free value is used up: the number of the next one. -/
def State.tick1 (s : State) : State := { s with free := s.free + 1 }

/-- The next free value. -/
def State.fresh (s : State) : Word := Config.freeWord s.free

/-- The pair valve time VT_P = VT + VT_OFS (R472). -/
def State.now (s : State) : BitVec 64 := s.tb.vt + s.twn.vtOfs

/-- Has time `t` come or passed? (R6) -/
def reached (now t : BitVec 64) : Bool := decide (0 ≤ timeDiff now t)

/-- Ticks by which `t` lies ahead, 0 when it does not. -/
def ahead (now t : BitVec 64) : Nat := (timeDiff t now).toNat

/-- Is a domain powered? (R63, R578) -/
def State.powered (s : State) (d : Nat) : Bool := s.sys.pdOn.getLsbD d

/-- The domain whose power a window needs (R858). -/
def Blk.domain (b : Blk) : Nat :=
  match b with
  | .port n => if n < 6 then 5 else 6
  | .ae n => if n < 6 then 3 else 4
  | .le _ => 2
  | .gst => 7
  | .net | .can _ | .twn => 9
  | .adc | .shf => 10
  | _ => 1

/-- Is a window reachable? (R858) -/
def State.open (s : State) (b : Blk) : Bool := s.powered b.domain

/-- A command that firmware gives through a register of a window: nothing happens in an unpowered window (R858).
DESIGN CHOICE: log entry 9. -/
def State.via (s : State) (b : Blk) (f : State → State) : Res := .next (if s.open b then f s else s)

/-- The domain of an island, by its number (R37 and the island map). -/
def islandDomain (i : Nat) : Nat :=
  if i = 0 then 0 else if i = 1 then 1 else if i = 2 then 7 else if i = 3 then 8
  else if i = 4 ∨ i = 5 then 9 else if i < 12 then 3 else if i < 18 then 4 else if i < 22 then 2
  else if i < 28 then 5 else 6

/-- The integrity fault source of an island (R375, R243, R312, R365). DEDUCED: log entry 34. -/
def islandFault (i : Nat) : Nat :=
  if i = 1 ∨ i = 0 then 14 else if i = 2 then 245 else if i = 3 then 246 else if i = 4 then 215
  else if i = 5 then 204 else if i < 12 then 152 else if i < 18 then 153 else if i < 22 then 172 + (i - 18)
  else if i < 28 then 12 else 13

/-- The control period in effect, or that of the boundary to come before b(0). -/
def State.per (s : State) : Nat := s.tb.period

/-- The schedule section in effect; an empty one before the first (R369). -/
def State.sec (s : State) : SchSection := s.sch.cur.getD {}

/-- Is port `n` in use? (R321, PORT_MASK) -/
def State.inUse (s : State) (n : Nat) : Bool := s.sec.mask.getLsbD n

/-- The ports in use in ascending order. -/
def State.portsUsed (s : State) : List Nat := (List.range 12).filter s.inUse

/-- Is the module in DUTY? (R495) -/
def State.duty (s : State) : Bool := s.twn.lease == .duty

/-- Does the module hold the lease? A duty that has sent HANDOVER holds it until the answer comes (R495, R508). -/
def State.holds (s : State) : Bool := s.twn.lease == .duty || s.twn.lease == .handing

/-- Has the first period come that a new or resuming duty computes, and has the last one before a handover not gone by?
(R504, R508, R510, R511) -/
def State.inTurn (s : State) : Bool :=
  (match s.twn.computeFrom with | some p => decide (0 ≤ timeDiff s.tb.pc p) | none => true) &&
  (s.twn.lease != .handing || (match s.twn.hand with | some h => decide (timeDiff s.tb.pc h.h < 0) | none => false))

/-- The module commands the converter in this period (R499, R506, R508, R510). -/
def State.acts (s : State) : Bool := s.holds && s.inTurn

/-- Loop cues and arm stages run; in WARM and after a handover they do not (R506, R508). -/
def State.computes (s : State) : Bool := s.twn.lease != .warm && s.inTurn

end Sys2Proof.Machine
end

