-- ==== Sys2Proof/Machine/Time.lean ====
section
/-! DEFINITION. The passing of time: ticks of 5 ns on VT, cycles of 8 ns on network time (R23, R593), and the phases of
the control period (R32 to R36). -/

namespace Sys2Proof.Machine

/-- Network time after `n` ticks: each tick is five eighths of a 125 MHz cycle, and each cycle adds 1 + ADJ × 2^-32
counts (R593). -/
def Net.elapse (x : Net) (adj : Word) (n : Nat) : Net :=
  { x with nt := x.nt + BitVec.ofInt 96 ((((x.ph + 5 * n) / 8 : Nat) : Int) * ((2 ^ 32 : Nat) + adj.toInt))
           ph := (x.ph + 5 * n) % 8
           cyc := x.cyc + (x.ph + 5 * n) / 8 }

/-- NT as it stood `k` cycles ago (R593, R600). -/
def Net.ntBack (x : Net) (adj : Word) (k : Nat) : BitVec 96 :=
  let c := x.cyc - k
  let m := (x.marks.filter fun m => decide (c < m.cyc)).getLastD { cyc := x.cyc, nt := x.nt, adj := adj }
  m.nt - BitVec.ofInt 96 (((m.cyc - c : Nat) : Int) * ((2 ^ 32 : Nat) + m.adj.toInt))

/-- The course of NT is kept before it changes, as far back as the longest frame (R583, R593, R594, R600). -/
def Net.marked (x : Net) (adj : Word) : Net :=
  { x with marks := { cyc := x.cyc, nt := x.nt, adj := adj } :: x.marks.filter fun m => decide (x.cyc < m.cyc + 2048) }

/-- `n` ticks go by; VT counts from the first lock of the timebase (R23, R593). -/
def State.elapse (s : State) (n : Nat) : State :=
  let s1 := { s with
    tb := { s.tb with vt := if s.sys.going then s.tb.vt + BitVec.ofNat 64 n else s.tb.vt }
    sys := { s.sys with up := s.sys.up + n } }
  if s.powered 9 then { s1 with net := s.net.elapse (s.rd Reg.NET_NT_ADJ) n } else s1

/-- Time moves on to `t` where `t` lies ahead; a time already reached leaves it. DESIGN CHOICE: log entry 10. DESIGN
CHOICE: log entry 95. -/
def State.advanceTo (s : State) (t : BitVec 64) : State := s.elapse (ahead s.now t)

/-- NT in counts (R593). -/
def Net.count (x : Net) : BitVec 64 := BitVec.ofNat 64 (x.nt.toNat / 2 ^ 32)

/-- The tick `n` of the period in progress. -/
def State.tickAt (s : State) (n : Nat) : BitVec 64 := s.tb.bound + BitVec.ofNat 64 n

/-- The offset of the present tick in its period. -/
def State.inPer (s : State) : Nat := (timeDiff s.now s.tb.bound).toNat

/-- Latest E_END over the ports in use (R70). -/
def State.lastEEnd (s : State) : Nat := s.portsUsed.foldl (fun m n => max m (s.sec.port n).eEnd) 0

/-- TB_STAT.PHASE (R69, R70): intake, compute, emit, margin. -/
def State.phase (s : State) : Nat :=
  if !s.tb.run then 3
  else if s.inPer < s.sec.iEnd then 0
  else if s.inPer < s.sec.eStart then 1
  else if s.inPer < s.lastEEnd then 2 else 3

/-- Microseconds since a port's domain was switched on (R111, R859). -/
def State.laneUs (s : State) (p : Nat) : Nat := (s.sys.up - (s.lane p).onAt) / 200

/-- Ticks of a number of microseconds. -/
def us (n : Nat) : Nat := 200 * n

/-- Has a span of `n` ticks from `t` gone by? -/
def State.since (s : State) (t : BitVec 64) (n : Nat) : Bool := reached s.now (t + BitVec.ofNat 64 n)

end Sys2Proof.Machine
end

