-- ==== Sys2Proof/Machine/AdcOps.lean ====
section
/-! DEFINITION. The precision ΣΔ converter (R747 to R764): grid, rounds, injections and results, shared by its commands. -/

namespace Sys2Proof.Machine

/-- A modulator. -/
def State.adcMod (s : State) (m : Nat) : AdcMod := Sparse.get (fun _ => {}) s.adc.mods m
def State.setAdcMod (s : State) (m : Nat) (x : AdcMod) : State :=
  { s with adc := { s.adc with mods := Sparse.put (fun _ => {}) s.adc.mods m x } }

/-- Fine mode, and the length of a slot, which is the grid too (R749). -/
def State.adcFine (s : State) : Bool := s.bitOf Reg.ADC_CTL 8
def State.adcSlot (s : State) : Nat := if s.adcFine then 200000 else 20000

/-- The first grid slot at or after a tick (R749). -/
def State.adcGrid (s : State) (t : BitVec 64) : BitVec 64 :=
  BitVec.ofNat 64 ((t.toNat + s.adcSlot - 1) / s.adcSlot * s.adcSlot)

/-- The input of a regular and of an injected entry. -/
def State.adcIn (s : State) (i : Nat) : Nat := s.field (Reg.ADC_SEQ i) 0 4
def State.adcJIn (s : State) (j : Nat) : Nat := s.field (Reg.ADC_JSEQ j) 0 4

/-- The regular entries that a modulator serves, in sequence order (R747, R753). -/
def State.adcEntries (s : State) (m : Nat) : List Nat :=
  (List.range (s.field Reg.ADC_CTL 16 4 + 1)).filter fun i => s.adcIn i / 4 == m

/-- The injected entries that a modulator serves (R758). -/
def State.adcJEntries (s : State) (m : Nat) : List Nat :=
  (List.range (s.field Reg.ADC_JCTL 12 2 + 1)).filter fun j => s.adcJIn j / 4 == m

/-- CMD_REFUSED, and JOVERRUN. -/
def State.adcRefuse (s : State) : State := s.setBit Reg.ADC_EVT 7
def State.adcOverrun (s : State) : State := s.setBit Reg.ADC_EVT 3

/-- The first grid slot that a modulator has free: the given one, or the first after the injection that it runs (R758). -/
def State.adcFree (s : State) (x : AdcMod) (at_ : BitVec 64) : BitVec 64 :=
  match x.inj with
  | none => at_
  | some c =>
    let g := s.adcGrid (c.at_ + BitVec.ofNat 64 (s.adcSlot * (x.injTodo.length + 1)))
    if reached g at_ then g else at_

/-- A round begins at a grid slot; a modulator that runs an injection waits for the slot after it (R753, R758). -/
def State.adcRound (s : State) (at_ : BitVec 64) : State :=
  let s1 := (List.range 4).foldl (fun (t : State) m =>
    let x := t.adcMod m
    match t.adcEntries m with
    | [] => t.setAdcMod m { x with cur := none, todo := [] }
    | e :: r => t.setAdcMod m { x with cur := some { entry := e, at_ := t.adcFree x at_ }, todo := r }) s
  { s1 with adc := { s1.adc with done := 0 } }

/-- The converter is busy (R780). -/
def Adc.busy (x : Adc) : Bool := x.run || x.jbusy || x.cal

/-- START (R753, R756, R762). -/
def State.adcStart (s : State) : State :=
  if s.adc.run ∨ s.adc.cal then s.adcRefuse
  else { s with adc := { s.adc with run := true } }.adcRound (s.adcGrid s.now)

/-- STOP: every conversion in progress is abandoned and the round ends (R756). -/
def State.adcStop (s : State) : State :=
  if s.adc.run = false then s.adcRefuse
  else { s with adc := { s.adc with run := false, jbusy := false, mods := [], done := 0 } }.setBit Reg.ADC_EVT 0

/-- CAL (R761, R762). -/
def State.adcCal (s : State) : State :=
  if s.adc.busy then s.adcRefuse else { s with adc := { s.adc with cal := true } }

/-- An injection reaches a modulator: its regular conversion is abandoned, and its injected entries follow one another
from a tick at most 200 after the trigger (R758). The abandoned entry restarts at the first grid slot after them. A
conversion whose slot has ended keeps its result, and the entry after it is the one abandoned (R750). DEDUCED: log
entry 90. -/
def State.adcInject (s : State) (m : Nat) (from_ : BitVec 64) : State :=
  match s.adcJEntries m with
  | [] => s
  | j :: r =>
    let x := s.adcMod m
    let ends := from_ + BitVec.ofNat 64 (s.adcSlot * (r.length + 1))
    let over_ := x.cur.filter fun c => reached s.now (c.at_ + BitVec.ofNat 64 s.adcSlot)
    let y := match over_, x.todo with
      | none, _ => x
      | some c, [] => { x with late := some c, cur := none }
      | some c, e :: t => { x with late := some c, cur := some { entry := e, at_ := c.at_ }, todo := t }
    let cur := y.cur.map fun c => { c with at_ := s.adcGrid ends }
    s.setAdcMod m { y with cur := cur, inj := some { entry := j, at_ := from_ }, injTodo := r }

/-- The trigger of the injected sequence (R757 to R760, R762). Its delay, 0 to 200 ticks, is a free value. -/
def State.adcTrigger (s : State) (t : BitVec 64) : State :=
  if s.adc.jbusy ∨ s.adc.cal then s.adcOverrun
  else
    let from_ := t + BitVec.ofNat 64 (s.fresh.toNat % 201)
    (List.range 4).foldl (fun (u : State) m => u.adcInject m from_) { s.tick1 with adc := { s.adc with jbusy := true } }

/-- JTRIG (R757). -/
def State.adcTrig (s : State) : Nat := s.field Reg.ADC_JCTL 16 3

/-- An event of the fault source JSRC triggers the injected sequence (R757). -/
def State.adcEvent (s : State) (src : Nat) : State :=
  if s.powered 10 ∧ s.adcTrig = 3 ∧ s.field Reg.ADC_JCTL 0 8 = src then s.adcTrigger s.now else s

/-- A write of 1 to JGO (R757). -/
def State.adcJgo (s : State) : State := if s.adcTrig = 1 then s.adcTrigger s.now else s

/-- A write to ADC_JCTL (R757, R780). -/
def State.adcJctl (s : State) (v : Word) : State :=
  let w := v &&& 0x000730FF
  let s1 := if w = s.rd Reg.ADC_JCTL then s
    else if s.adc.jbusy ∨ 3 < fieldOf v 16 3 then s.adcRefuse
    else s.wr Reg.ADC_JCTL w
  if v.getLsbD 31 then s1.adcJgo else s1

/-- A write to ADC_CTL: the configuration, then STOP, START and CAL (R753, R756, R761, R780). -/
def State.adcCtl (s : State) (v : Word) : State :=
  let w := v &&& 0x000F0110
  let s1 := if w = s.rd Reg.ADC_CTL then s else if s.adc.busy then s.adcRefuse else s.wr Reg.ADC_CTL w
  let s2 := if v.getLsbD 1 then s1.adcStop else s1
  let s3 := if v.getLsbD 0 then s2.adcStart else s2
  if v.getLsbD 2 then s3.adcCal else s3

/-- A write to ADC_SEQ[i], and to ADC_JSEQ[j] (R780). -/
def State.adcSeqWrite (s : State) (a : Nat) (v : Word) (inj : Bool) : State :=
  if (inj ∧ s.adc.jbusy) ∨ (inj = false ∧ s.adc.busy) then s.adcRefuse else s.wr a (v &&& 15)

/-- A write to ADC_OFS[m] or ADC_GAIN[m] (R764). -/
def State.adcFactor (s : State) (m : Nat) (gain : Bool) (v : Word) : State :=
  if s.adc.busy then s.adcRefuse
  else { s with adc := { s.adc with calValid := true } }.wr (if gain then Reg.ADC_GAIN m else Reg.ADC_OFS m) v

/-- A quotient rounded to a whole number; a tie goes up or down with `up`. -/
def roundInt (n : Int) (d : Nat) (up : Bool) : Int :=
  let q := n.fdiv d
  let r := n.fmod d
  if 2 * r < d then q else if d < 2 * r then q + 1 else if up then q + 1 else q

/-- A number held within ±8,388,607, and whether it was outside (R748, R751). -/
def adcHold (v : Int) : Int × Bool :=
  if 8388607 < v then (8388607, true) else if v < -8388607 then (-8388607, true) else (v, false)

/-- The code of a result: the factors applied, rounded and held (R748, R751). Ties, the last four bits of a standard-mode
result and the product with a factor that is no number are left open: they follow the free value `f`. -/
def adcCode (raw : Int) (ofs gain : Word) (fine : Bool) (f : Nat) : Int × Bool :=
  if fpSpecial ofs ∨ fpSpecial gain then adcHold ((BitVec.ofNat 24 f).toInt)
  else
    let exact := (raw * fpUnit - fpInt ofs) * fpInt gain
    let v := roundInt exact (fpUnit * fpUnit) (f % 2 = 1)
    let w := if fine then v else (v + ((f / 2 % 16 : Nat) : Int)).fdiv 16 * 16
    let h := adcHold w
    let o := decide (raw ≤ -8388608) || decide (8388608 ≤ raw)
    if o then ((if raw < 0 then -8388607 else 8388607), true) else h

/-- A result word (ADC_RES). -/
def adcWord (code : Int × Bool) (uncal : Bool) (round : Nat) : Word :=
  bitIf code.2 31 ||| bitIf uncal 30 ||| putField (round % 16) 24 ||| (BitVec.ofInt 24 code.1).setWidth 32

/-- A result is written with the stamp of its slot's start (R750 to R752, R755, R759). -/
def State.adcResult (s : State) (m : Nat) (raw : Int) (a slot : Nat) (round : Nat) (at_ : BitVec 64) : State :=
  let code := adcCode raw (s.rd (Reg.ADC_OFS m)) (s.rd (Reg.ADC_GAIN m)) s.adcFine s.fresh.toNat
  let s1 := (s.tick1.wr a (adcWord code (!s.adc.calValid) round)).setBitIf code.2 Reg.ADC_EVT 4
  { s1 with adc := { s1.adc with starts := Sparse.put (fun _ => 0) s1.adc.starts slot (at_.setWidth 32) } }

/-- An injected conversion completes (R758, R759). -/
def State.adcInjDone (s : State) (m : Nat) (c : AdcConv) (raw : Int) : State :=
  let x := s.adcMod m
  let s1 := s.adcResult m raw (Reg.ADC_JRES c.entry) (16 + c.entry) 0 c.at_
  let x1 := match x.injTodo with
    | [] => { x with inj := none }
    | j :: r => { x with inj := some { entry := j, at_ := c.at_ + BitVec.ofNat 64 s.adcSlot }, injTodo := r }
  let s2 := s1.setAdcMod m x1
  if s2.adc.mods.all fun e => e.2.inj.isNone then
    { s2 with adc := { s2.adc with jbusy := false } }.setBit Reg.ADC_EVT 2
  else s2

/-- A regular conversion has its result; the round ends with the last one (R753 to R755). -/
def State.adcRegDone (s : State) (m : Nat) (c : AdcConv) (raw : Int) : State :=
  let x := s.adcMod m
  let n := s.adcIn c.entry
  let ends := c.at_ + BitVec.ofNat 64 s.adcSlot
  let s1 := (s.adcResult m raw (Reg.ADC_RES n) n (s.rdNat Reg.ADC_ROUND) c.at_).setBit Reg.ADC_NEW n
  let x1 := match x.late, x.todo with
    | some _, _ => { x with late := none }
    | none, [] => { x with cur := none }
    | none, e :: r => { x with cur := some { entry := e, at_ := ends }, todo := r }
  let s2 := s1.setAdcMod m x1
  let s3 := { s2 with adc := { s2.adc with done := s2.adc.done ||| ((1 : BitVec 16) <<< c.entry) } }
  if s3.adc.mods.all fun e => e.2.cur.isNone && e.2.late.isNone then
    let s4 := (s3.wr Reg.ADC_ROUND (s3.rd Reg.ADC_ROUND + 1)).setBit Reg.ADC_EVT 1
    if s4.bitOf Reg.ADC_CTL 4 then s4.adcRound ends else { s4 with adc := { s4.adc with run := false } }
  else s3

end Sys2Proof.Machine
end

