-- ==== Sys2Proof/Machine/StatView.lean ====
section
/-! DEFINITION. The status registers that a post-mortem record shows, formed from the state at the moment they are read,
and the snapshot of a cause (R418, R467, R515, R572, R577). -/

namespace Sys2Proof.Machine

/-- Is the source in its fault state? (R384, R413) -/
def Src.inFault (x : Src) : Bool := x.broken || x.st != .quiet

/-- The state of a source: one that fails its pair check is treated as ACTIVE (R384, R413). -/
def Src.state (x : Src) : SrcSt := if x.broken then .active else x.st

/-- The class in effect of source `n` (R381, R412, R413). -/
def Src.cls (x : Src) (n : Nat) : Nat :=
  if n = 15 then 2 else if x.broken then 2
  else if x.promoted then x.entry.squall.toNat else x.entry.base.toNat

/-- The reaction in effect: the highest class among the sources in their fault state (R394). -/
def Flt.reaction (f : Flt) : Nat :=
  f.srcs.foldl (fun m e => if e.2.inFault then max m (e.2.cls e.1) else m) 0

def State.reaction (s : State) : Nat := s.flt.reaction

/-- Number of sources in ACTIVE or LOCKED (FLT_REACT). -/
def Flt.faults (f : Flt) : Nat := (f.srcs.filter fun e => e.2.inFault).length

/-- Is the port in DATA for every rule but the display of STATE? (R92) -/
def Lane.inData (x : Lane) : Bool := x.st == .data && x.up

/-- TWIN_EN (R470). -/
def State.twinEn (s : State) : Bool := s.bitOf Reg.TWN_CFG 0

/-- The conditions under which the partner may take over (R498). -/
def State.partnerReady (s : State) : Bool :=
  match s.twn.partner with
  | some p => p.lease == 1 && p.healthy && !s.since p.at_ (8 * s.per + 1)
  | none => false

/-- Does the partner's last STATUS show it as the holder? (R473) -/
def State.partnerHolds (s : State) : Bool :=
  match s.twn.partner with
  | some p => p.lease == 3 || p.lease == 5
  | none => false

/-- Is the module the time owner? The lease holder; with no holder the primary, or a module that became owner for want of
a partner (R473). -/
def State.timeOwner (s : State) : Bool := s.holds || (!s.partnerHolds && (!s.twn.secondary || s.twn.owner))

/-- Is VT_OFS set and the phase within R475? (TWN_STAT.ALIGNED) -/
def State.aligned (s : State) : Bool := s.twn.ofsSet && (s.timeOwner || s.twn.phaseOk)

/-- Is any source marked in TWN_SURR_MASK in ACTIVE or LOCKED? (R496) -/
def State.maskedFault (s : State) : Bool :=
  s.flt.srcs.any fun e => e.2.inFault && s.bitOf (Reg.TWN_SURR_MASK (e.1 / 32)) (e.1 % 32)

/-- HEALTHY (R496). -/
def State.healthy (s : State) : Bool :=
  s.sys.ready && s.twn.lease != .failed && (s.lane 12).inData && !s.maskedFault &&
  s.portsUsed.all fun n => (s.lane n).inData && (s.port n).censusOk

/-- The topology entry in effect of an arm (R531). -/
def State.topo (s : State) (n : Nat) : TopoPort := s.sys.cfg.topo.port n

/-- Hubs of all ports in use (R494, R500). -/
def State.hubCount (s : State) : Nat := (s.portsUsed.map fun n => (s.topo n).nhub).foldl (· + ·) 0

/-- The lease view is valid (R491). -/
def State.viewValid (s : State) : Bool :=
  match s.twn.viewTo with
  | some t => !reached s.now (t + 1)
  | none => false

/-- Is the arm blocked? (R865) -/
def State.armBlocked (s : State) (n : Nat) : Bool := !(s.port n).framesOn || (s.port n).blockArm

/-- OUT_ALL and OUT_FB (R203). -/
def outAll (cells : List Cell) : Nat := (cells.filter fun c => c.out != 0).length

def outFb (cells : List Cell) : Nat := (cells.filter fun c => c.out != 0 && c.fb).length

/-- Is the recorder capturing? (R441) -/
def Gst.captures (g : Gst) : Bool := g.st == .armed || g.st == .triggered

def State.gstPreMin (s : State) : Nat := s.field Reg.GST_PRE_MIN 0 24

/-- Is the period in progress being captured? -/
def State.gstInPeriod (s : State) : Bool := s.gst.live.any fun r => r.pc == s.tb.pc

/-- Periods captured since the ARM: those begun, less the one in progress (R444, HOLDOFF). -/
def State.gstCaptured (s : State) : Nat := s.gst.taken - (if s.gstInPeriod then 1 else 0)

def State.gstHoldoff (s : State) : Bool := s.gst.st != .idle && decide (s.gstCaptured < s.gstPreMin)

/-- Is the capture memory readable? (R465, READABLE) -/
def State.gstReadable (s : State) : Bool := s.powered 7 && !s.gst.captures

/-- A field of a status register: value and lowest bit. -/
def statWord (l : List (Nat × Nat)) : Word := l.foldl (fun w e => w ||| putField e.1 e.2) 0

/-- A flag as a number. -/
def flag (b : Bool) : Nat := if b then 1 else 0

/-- The 32 sources of mask register `m` for which a condition holds (FLT_INJFLAG, FLT_ACTIVE, FLT_LOCKED, FLT_SQUALL). -/
def State.srcMask (s : State) (m : Nat) (f : Src → Bool) : Word :=
  (List.range 32).foldl (fun w i => w ||| bitIf (f (s.src (32 * m + i))) i) 0

/-- FLT_STAT (R418). -/
def State.fltStat (s : State) : Word :=
  statWord [(s.reaction, 0), (flag s.flt.latch, 3), (flag (s.flt.srcs.any fun e => e.2.state == .locked), 4), (flag s.pwm.trip, 5),
    (flag s.saf.brkOff, 6), (flag s.flt.table, 7), (flag s.flt.factory, 8), (flag (s.src 15).inFault, 9)]

/-- The lowest-numbered source whose class in effect sets the reaction (FLT_REACT). -/
def State.fltLead (s : State) : Nat :=
  match s.flt.srcs.find? fun e => e.2.inFault && e.2.cls e.1 == s.reaction with
  | some e => e.1
  | none => 0

/-- FLT_REACT (R418). -/
def State.fltReact (s : State) : Word := statWord [(s.fltLead, 24), (s.reaction, 16), (s.flt.faults, 0)]

/-- TB_STAT (R68 to R70). -/
def State.tbStat (s : State) : Word :=
  let pending := s.drf.pendAt.isSome && s.drf.set.sch.isSome
  statWord [(flag pending, 4), (s.phase, 2), (flag s.tb.run, 1), (flag s.tb.lock, 0)]

/-- TB_PERIOD: 0 before b(0) (R68). -/
def State.tbPeriod (s : State) : Nat := if s.tb.run then s.tb.period else 0

/-- SCH_STAT (R367). -/
def State.schStat (s : State) : Word :=
  let pending := s.drf.pendAt.isSome && s.drf.set.sch.isSome
  statWord [(s.sch.missRun, 16), (flag (s.src 45).inFault, 4), (flag pending, 3), (flag s.sch.bank, 2),
    (flag (s.tb.run && s.sch.cur.isSome), 1), (flag s.sch.cur.isSome, 0)]

/-- The partner's last STATUS came within the last 8 periods (TWN_STAT.PARTNER_SEEN). -/
def State.partnerSeen (s : State) : Bool :=
  match s.twn.partner with
  | some p => !s.since p.at_ (8 * s.per + 1)
  | none => false

/-- Time since the capture of the held checkpoint, in ticks (R485, TWN_CKPT_AGE). -/
def State.ckptAge (s : State) : Option Nat :=
  s.twn.held.map fun b =>
    let vt : BitVec 64 := BitVec.ofNat 64 (((b.drop 8).take 8).foldr (fun x a => x.toNat + 256 * a) 0)
    (s.now - vt).toNat

/-- TWN_STAT (R515). -/
def State.twnStat (s : State) : Word :=
  let stale := match s.ckptAge with | some t => decide (us 10000 < t) | none => false
  let majority := decide (s.field Reg.TWN_WIT 16 10 < 2 * s.field Reg.TWN_WIT 0 10)
  statWord [((s.twn.partner.map Partner.lease).getD 0 % 16, 16), (s.twn.lease.code, 12), (flag s.twn.secondary, 11),
    (flag s.twinEn, 10), (flag s.timeOwner, 9), (flag s.aligned, 8), (flag s.viewValid, 7), (flag majority, 6),
    (flag s.healthy, 5), (flag s.partnerSeen, 4), (flag stale, 3)]

/-- GST_STAT (R467). -/
def State.gstStat (s : State) : Word :=
  statWord [(flag s.gstReadable, 7), (flag s.gst.maskStop, 6), (flag s.gst.remote, 5), (flag s.gstHoldoff, 4),
    (flag (s.gst.captures && s.gst.planeOn), 3), (s.gst.st.code, 0)]

/-- SYS_PD_STAT (R577). -/
def State.pdStat (s : State) : Word := statWord [(s.sys.rail.toNat, 16), (s.sys.pdOn.toNat, 0)]

/-- Is a feed present? (R566, R833) -/
def State.feedOk (s : State) (f : Nat) : Bool := s.sys.going && !s.sys.feedBad.getLsbD f

/-- E_PM and E_REQ in mJ (R565). -/
def ePm : Nat := 113
def State.eReq (s : State) : Nat := ePm + s.field Reg.SYS_HOLD_CFG 16 16

/-- E_usable as last measured, in mJ (R563). -/
def State.eUsable (s : State) : Nat := s.field Reg.SYS_HOLD_E 16 16

/-- V_FULL in 10 mV, between its limits (R562). -/
def vFull : Nat := 7100 + Config.bankFull % 201

/-- SYS_PWR_STAT (R577). The bank charges while a feed is present and it is not full. -/
def State.pwrStat (s : State) : Word :=
  let charging := (s.feedOk 0 || s.feedOk 1) && decide (s.rdNat Reg.SYS_HOLD_V < vFull)
  statWord [(flag (s.sys.shed != .none), 7), (flag s.sys.riding.isSome, 6), (flag (s.feedOk 1), 5), (flag (s.feedOk 0), 4),
    (flag (decide (s.eReq ≤ s.eUsable)), 3), (flag charging, 2), (flag s.sys.pm.isSome, 1),
    (flag (decide (1200 ≤ s.rdNat Reg.SYS_HOLD_C)), 0)]

/-- PRT_LANE_STAT (R114). -/
def Lane.stat (x : Lane) : Word :=
  statWord [(flag x.txLock, 15), (flag x.freqOk, 14), (flag x.rxLock, 13), (flag x.portFault, 12), (flag x.darkC, 11),
    (flag x.dark1, 10), (flag x.dark0, 9), (x.failCode.toNat % 16, 4), (x.st.code, 0)]

/-- Is a calibration or a recalibration round in progress? (PRT_FRM_STAT.CAL_BUSY) -/
def CalStep.busy (c : CalStep) : Bool :=
  match c with
  | .idle | .done | .failed => false
  | .census | .echo _ | .finish | .recal _ => true

/-- PRT_FRM_STAT (R190). -/
def Port.frmStat (x : Port) : Word :=
  statWord [(x.upPhase % 128, 8), (flag x.cal.busy, 7), (flag x.censusOk, 6), (flag x.framesOn, 5), (flag x.blockArm, 4)]

/-- More cells are OUT than the redundancy allows (R203, AE_STAT.REDUND_EXH). -/
def Ae.exhausted (a : Ae) : Bool := decide (a.par.redAll < outAll a.cells) || decide (a.par.redFb < outFb a.cells)

/-- AE_STAT (R245). DEDUCED: log entry 25. -/
def State.aeStat (s : State) (n : Nat) : Word :=
  let a := s.ae n
  statWord [(flag a.exhausted, 7), (flag a.spreadHigh, 6), (flag (s.armBlocked n), 5), (flag a.par.adaptEn, 4),
    (flag a.charging, 3), (flag a.neg, 2), (flag a.pulsing.isSome, 1), (flag a.ran, 0)]

/-- A value as it is read through its window: zero in an unpowered domain (R858). -/
def State.seen (s : State) (b : Blk) (v : Word) : Word := if s.open b then v else 0

/-- The snapshot of a post-mortem header: one word per register (R572). -/
def State.snapshot (s : State) : List Word :=
  let masks := fun (f : Nat → Word) => (List.range 8).map f
  let arms := fun (f : Nat → Word) => (List.range 12).map f
  [s.fltStat, s.fltReact, s.rd Reg.FLT_FIRST, s.rd Reg.FLT_FIRST_VT_LO, s.rd Reg.FLT_FIRST_VT_HI] ++
  masks (fun m => s.rd (Reg.FLT_STICKY m)) ++ masks (fun m => s.srcMask m Src.inFault) ++
  masks (fun m => s.srcMask m fun x => x.st == .locked) ++ masks (fun m => s.srcMask m Src.promoted) ++
  [s.tbStat, BitVec.ofNat 32 s.tbPeriod, s.schStat, s.rd Reg.SCH_MISS_LAST, s.seen .twn s.twnStat,
    s.seen .twn (s.rd Reg.TWN_EPOCH), s.seen .gst s.gstStat, s.pdStat, s.pwrStat] ++
  arms (fun n => s.seen (.port n) (s.lane n).stat) ++ arms (fun n => s.seen (.port n) (s.port n).frmStat) ++
  arms (fun n => s.seen (.ae n) (s.aeStat n))

/-- What a cause of a post-mortem record fixes: what the header shows of the moment it came (R572). DEDUCED: log entry
78. -/
def State.pmMoment (s : State) (c : Nat) : PmDue where
  cause := c
  at_ := s.now
  nt := s.net.count
  pc := s.tb.pc
  epoch := (s.rd Reg.TWN_EPOCH).setWidth 16
  lease := s.twn.lease.code
  feeds := s.rd Reg.SYS_FEED
  snap := s.snapshot

end Sys2Proof.Machine
end

