-- ==== Sys2Proof/Machine/PwmOps.lean ====
section
/-! DEFINITION. The PWM generator (R784 to R801): pairs, cycles, LOAD_ALL, the chopper arm and Calm, shared by its
commands. -/

namespace Sys2Proof.Machine

/-- A channel. -/
def State.pwmCh (s : State) (n : Nat) : PwmCh := Sparse.get (fun _ => {}) s.pwm.chs n
def State.setPwmCh (s : State) (n : Nat) (x : PwmCh) : State :=
  { s with pwm := { s.pwm with chs := Sparse.put (fun _ => {}) s.pwm.chs n x } }

/-- PER, and T with the MODE, of a pair's words; the on-time and the off-time (R784). -/
def pwmPer (per : Word) : Nat := fieldOf per 0 24
def pwmT (t : Word) : Nat := fieldOf t 0 24
def pwmOn (per t : Word) : Nat := if t.getLsbD 31 then pwmPer per - pwmT t else pwmT t
def pwmOffTime (per t : Word) : Nat := pwmPer per - pwmOn per t

/-- The first check of R788 that a pair fails; 0 when it is valid (R784). -/
def pwmCode (per t : Word) (minOff : Nat) : Nat :=
  if pwmPer per < 20 then 1
  else if pwmPer per < pwmT t then 2
  else if pwmOffTime per t < minOff then 3
  else if 0 < pwmOn per t ∧ pwmOn per t < 20 then 4
  else 0

/-- MINOFF of a channel, and its EN and chopper bits. -/
def State.pwmMinOff (s : State) (n : Nat) : Nat := s.field (Reg.PWM_MINOFF n) 0 16
def State.pwmEn (s : State) (n : Nat) : Bool := s.bitOf Reg.PWM_EN n
def State.pwmChop (s : State) (n : Nat) : Bool := s.bitOf Reg.PWM_CHOP n

/-- Armed by firmware: PWM_ARM_CMD holds ACTION 01 (R795). -/
def State.pwmFw (s : State) : Bool :=
  match s.paired Reg.PWM_ARM_CMD with
  | some v => fieldOf v 30 2 == 1
  | none => false

/-- A core is halted by the debug module with HALT_CALM set (R792, R799). -/
def State.pwmHalt (s : State) : Bool := s.dsp.halted != 0 && s.bitOf Reg.PWM_CTL 1

/-- A channel takes the pair of a LOAD_ALL; LOAD_DONE follows the last one (R789, R791). -/
def State.pwmTake (s : State) (n : Nat) : State :=
  match (s.pwmCh n).pend with
  | none => s
  | some (per, t) =>
    let s1 := ((s.wr (Reg.PWM_PER n) per).wr (Reg.PWM_T n) t).setPwmCh n { s.pwmCh n with pend := none }
    s1.setBitIf (s1.pwm.chs.all fun e => e.2.pend.isNone) Reg.PWM_EVT 0

/-- A cycle begins at a tick (R785): with the armed pair on a chopper channel armed by a Trip, else with the pair in
effect (R796, R797), which takes the pair of a LOAD_ALL of an earlier tick first (R789, R790). It puts out Calm while a core is
halted (R792). A Trip arm whose armed pair was never written valid keeps the channel dark. DEDUCED: log entry
92. -/
def State.pwmCycle (s : State) (n : Nat) (at_ : BitVec 64) : State :=
  let s1 := if (s.pwmCh n).pendAt = at_ then s else s.pwmTake n
  let x := s1.pwmCh n
  let arm := s1.pwm.trip && s1.pwmChop n
  let per := if arm then s1.rd (Reg.PWM_ARM_PER n) else s1.rd (Reg.PWM_PER n)
  let t := if arm then s1.rd (Reg.PWM_ARM_T n) else s1.rd (Reg.PWM_T n)
  let calm := s1.pwmHalt
  if pwmPer per = 0 then s1.setPwmCh n { x with run := false, on := false, armed := arm, calm := calm }
  else
    let lit := decide (0 < pwmOn per t)
    s1.setPwmCh n { x with
      run := true, on := lit, armed := arm, calm := calm, next := at_ + BitVec.ofNat 64 (pwmPer per)
      off := at_ + BitVec.ofNat 64 (pwmOn per t) }

/-- The channels with EN = 1 that are chopper channels. -/
def State.choppers (s : State) : List Nat := (List.range 16).filter fun n => s.pwmEn n && s.pwmChop n

/-- A Trip reaction begins: every chopper channel with EN = 1 starts a cycle with its armed pair (R796). -/
def State.pwmTrip (s : State) : State :=
  let s1 := { s with pwm := { s.pwm with trip := true } }.setBitIf (decide (s.field Reg.PWM_CHOP 0 16 ≠ 0)) Reg.PWM_EVT 3
  s1.choppers.foldl (fun t n => t.pwmCycle n t.tb.vt) s1

/-- The Trip reaction has ended: a chopper channel armed by firmware starts a cycle with its pair in effect; the others
go dark (R798). -/
def State.pwmTripEnds (s : State) : State :=
  let s1 := { s with pwm := { s.pwm with trip := false } }
  if s1.pwmFw then s1.choppers.foldl (fun t n => t.pwmCycle n t.tb.vt) s1
  else s1.choppers.foldl (fun t n => t.setPwmCh n { t.pwmCh n with armed := false }) s1

/-- Is the output of a channel lit? (R785, R792, R793, R795) -/
def State.pwmLit (s : State) (n : Nat) : Bool :=
  let x := s.pwmCh n
  let byTrip := s.pwmChop n && s.pwm.trip
  x.run && x.on && !s.pwm.stopped && (!s.pwmChop n || byTrip || s.pwmFw) && (byTrip || !(x.calm || s.pwmHalt))

/-- Every channel goes to Calm where a core is halted with HALT_CALM set (R792). -/
def State.pwmCalm (s : State) : State :=
  if s.pwmHalt then
    ((List.range 16).foldl (fun t n => if (t.pwmCh n).run then t.setPwmCh n { t.pwmCh n with calm := true } else t) s).setBit
      Reg.PWM_EVT 4
  else s

/-- EN of a channel is cleared: dark at once, and a pair that waits is taken (R786, R791). -/
def State.pwmOff (s : State) (n : Nat) : State :=
  let s1 := s.pwmTake n
  (s1.setPwmCh n { s1.pwmCh n with run := false, on := false, armed := false }).clrBit Reg.PWM_EN n

/-- The result of a refused load (R788). -/
def State.pwmRefuse (s : State) (n code : Nat) : State :=
  (s.wr Reg.PWM_LOAD_RES (BitVec.ofNat 32 (256 * n + code))).setBit Reg.PWM_EVT 1

/-- EN of a channel is set: its first reload falls 4 ticks later; with an invalid pair in effect it is refused (R786). -/
def State.pwmStart (s : State) (n : Nat) : State :=
  if pwmCode (s.rd (Reg.PWM_PER n)) (s.rd (Reg.PWM_T n)) (s.pwmMinOff n) ≠ 0 then s.pwmRefuse n 6
  else (s.setPwmCh n { s.pwmCh n with run := true, on := false, calm := s.pwmHalt, next := s.tb.vt + 4 }).setBit Reg.PWM_EN n

/-- A write to PWM_EN (R786, R791). -/
def State.pwmEnWrite (s : State) (v : BitVec 16) : State :=
  (List.range 16).foldl (fun (t : State) n =>
    if v.getLsbD n = t.pwmEn n then t else if v.getLsbD n then t.pwmStart n else t.pwmOff n) s

/-- The first enabled channel whose staged pair fails, with its code (R788). -/
def State.pwmFails (s : State) : Option (Nat × Nat) :=
  (List.range 16).findSome? fun n =>
    if s.pwmEn n = false then none
    else
      let c := pwmCode (s.rd (Reg.PWM_STG_PER n)) (s.rd (Reg.PWM_STG_T n)) (s.pwmMinOff n)
      if c ≠ 0 then some (n, c) else if (s.pwmCh n).pend.isSome then some (n, 5) else none

/-- LOAD_ALL (R788 to R790). -/
def State.pwmLoadAll (s : State) : State :=
  match s.pwmFails with
  | some (n, c) => s.pwmRefuse n c
  | none =>
    let s1 := (List.range 16).foldl (fun (t : State) n =>
      let p := (t.rd (Reg.PWM_STG_PER n), t.rd (Reg.PWM_STG_T n))
      if t.pwmEn n then t.setPwmCh n { t.pwmCh n with pend := some p, pendAt := s.tb.vt }
      else (t.wr (Reg.PWM_PER n) p.1).wr (Reg.PWM_T n) p.2) (s.wr Reg.PWM_LOAD_RES 0)
    s1.setBitIf (s1.pwm.chs.all fun e => e.2.pend.isNone) Reg.PWM_EVT 0

/-- A write to PWM_MINOFF[n] (R787). -/
def State.pwmMinOffWrite (s : State) (n : Nat) (v : BitVec 16) : State :=
  if s.pwmEn n then s.setBit Reg.PWM_EVT 2 else s.wr (Reg.PWM_MINOFF n) (v.setWidth 32)

/-- A write to PWM_ARM_PER[n] or PWM_ARM_T[n] (R800). -/
def State.pwmArmPair (s : State) (n : Nat) (isT : Bool) (v : Word) : State :=
  let w := if isT then v &&& 0x80FFFFFF else v &&& 0x00FFFFFF
  let per := if isT then s.rd (Reg.PWM_ARM_PER n) else w
  let t := if isT then w else s.rd (Reg.PWM_ARM_T n)
  if s.pwm.trip ∨ pwmCode per t (s.pwmMinOff n) ≠ 0 then s.setBit Reg.PWM_EVT 2
  else s.wr (if isT then Reg.PWM_ARM_T n else Reg.PWM_ARM_PER n) w

/-- A write to PWM_CHOP: only while no Trip reaction is in effect (R801). -/
def State.pwmChopWrite (s : State) (v : BitVec 16) : State :=
  if s.pwm.trip then s else s.wr Reg.PWM_CHOP (v.setWidth 32)

/-- An accepted pair of PWM_ARM_CMD: 01 arms and 10 disarms; every other code, and any while a core is halted with
HALT_CALM, is refused (R795, R799). -/
def State.pwmArm (s : State) (v : Word) : State :=
  if (fieldOf v 30 2 = 1 ∨ fieldOf v 30 2 = 2) ∧ s.pwmHalt = false then s.wrPair Reg.PWM_ARM_CMD v
  else s.setBit Reg.PWM_EVT 2

/-- A write to PWM_CTL (R788, R792). -/
def State.pwmCtl (s : State) (v : Word) : State :=
  let was := s.pwmHalt
  let s1 := s.wr Reg.PWM_CTL (v &&& 2)
  let s2 := if s1.pwmHalt ∧ was = false then s1.pwmCalm else s1
  if v.getLsbD 0 then s2.pwmLoadAll else s2

end Sys2Proof.Machine
end

