-- ==== Sys2Proof/Machine/Hooks.lean ====
section
/-! DEFINITION. What other blocks do at once when the collector takes an event or the reaction changes: recorder row,
injected conversions, injector, trip request lines and chopper arm. -/

namespace Sys2Proof.Machine

/-- The FAULTS field of the open row whose period, b(k) to b(k + 1) − 1, holds the event tick takes the source (R435). -/
def rowEvent (l : List GstPer) (src : Nat) (tick : BitVec 64) : List GstPer :=
  match l with
  | [] => []
  | r :: rest =>
    if reached tick (r.vtB + BitVec.ofNat 64 r.p) then r :: rest
    else if reached tick r.vtB then { r with faults := r.faults ||| ((1 : BitVec 256) <<< src) } :: rest
    else r :: rowEvent rest src tick

/-- The recorder takes an event (R435). -/
def Gst.event (g : Gst) (src : Nat) (tick : BitVec 64) : Gst := { g with live := rowEvent g.live src tick }

/-- An event reaches the recorder's trace row and the converter's injected trigger. -/
def State.eventHook (s : State) (src : Nat) (tick : BitVec 64) : State :=
  { s with gst := s.gst.event src tick }.adcEvent src

/-- Is an injector run active? (R306) -/
def Injector.active (x : Injector) : Bool := x.st == .settling || x.st == .measuring

/-- A run is aborted; s is 0 from the next period (R310). -/
def State.injAbort (s : State) : State :=
  if s.isl.inj.active then
    ({ s with isl := { s.isl with inj := { s.isl.inj with st := .aborted, refusedRun := false } } }.clrBit Reg.LE_INJ_CTL 2).clrBit Reg.LE_INJ_CTL 1
  else s

/-- A cause for a post-mortem record: it falls due, or is added to the record being written (R569, R575). -/
def State.pmCause (s : State) (c : Nat) : State :=
  match s.sys.pm with
  | some r => { s with sys := { s.sys with pm := some { r with cause := r.cause ||| ((1 : BitVec 3) <<< c), later := s.now } } }
  | none => { s with sys := { s.sys with pmDue := s.sys.pmDue ++ [s.pmMoment c] } }

/-- A Block or Trip reaction begins: it aborts an injector run (R310). -/
def State.blockBegins (s : State) : State := s.injAbort

/-- The trip request goes out on both lines, and the chopper is armed (R398, R796). -/
def State.tripOn (s : State) : State := { s with saf := { s.saf with req := true, brkOff := true } }.pwmTrip

/-- A Trip reaction begins: the trip request goes out on both lines, the chopper is armed, the trip counts in TRIPS and
is a cause for a post-mortem record (R398, R520, R569, R796). -/
def State.tripBegins (s : State) : State :=
  (s.tripOn.lifeUp 2).pmCause 1

/-- The Trip reaction has ended: the trip request lines are released and the Trip arm with them (R399, R798). -/
def State.tripEnds (s : State) : State := { s with saf := { s.saf with req := false } }.pwmTripEnds

/-- A COMMIT that was due in this tick does not come: a source that had taken its entry for an event of the tick has the
one in effect again (R392, R406). -/
def State.unclass (s : State) : State :=
  s.flt.srcs.foldl (fun (u : State) (e : Nat × Src) => match e.2.was with
    | some (t, old) => if t = s.now then u.setSrc e.1 { e.2 with entry := old, was := none } else u
    | none => u) s

/-- A CHECKED or PENDING set is cancelled: it holds a topology and the latch is cleared, code 0x35, or it holds a recorder
setup and the recorder leaves IDLE or STOPPED, code 0x36 (R558). -/
def State.draftCancel (s : State) (code : Nat) : State :=
  let d := s.drf
  let holds := if code = 0x35 then d.set.topo.isSome else d.set.recs.isSome
  if (d.st = .checked ∨ d.st = .pending) ∧ holds then
    (({ s.unclass with drf := { d with st := .staging, pendAt := none } }).wr Reg.DRF_RES (BitVec.ofNat 32 code)).setBit Reg.DRF_EVT 5
  else s

/-- A safety channel's state. -/
def State.safCh (s : State) (c : Nat) : SafCh := Sparse.get (fun _ => {}) s.saf.chs c
def State.setSafCh (s : State) (c : Nat) (x : SafCh) : State :=
  { s with saf := { s.saf with chs := Sparse.put (fun _ => {}) s.saf.chs c x } }

/-- A channel asserts its safety block line while its latch is set, and while the other channel is unpowered (R680,
R706). -/
def State.safLine (s : State) (c : Nat) : Bool := (s.safCh c).on && ((s.safCh c).latch || !s.powered (13 - c))

/-- Is a safety block line asserted? (R681, R683) -/
def State.blockLine (s : State) : Bool := s.safLine 0 || s.safLine 1

end Sys2Proof.Machine
end

