-- ==== Sys2Proof/Machine/Collect.lean ====
section
/-! DEFINITION. The fault collector: taking an event, promotion, states, the reaction, the block latch and what follows
from a change of it (R370 to R416). -/

namespace Sys2Proof.Machine

/-- The sources that R375 marks reserved. -/
def reservedSrc (n : Nat) : Bool :=
  decide (19 ≤ n ∧ n ≤ 31) || decide (58 ≤ n ∧ n ≤ 63) || decide (124 ≤ n ∧ n ≤ 127) || n == 159 ||
  decide (205 ≤ n ∧ n ≤ 207) || decide (221 ≤ n ∧ n ≤ 223) || decide (237 ≤ n ∧ n ≤ 239)

/-- The source that an EVENT word's number stands for: a reserved number raises FS15 (R406, R412). -/
def srcOf (n : Nat) : Nat := if reservedSrc n ∨ 256 ≤ n then 15 else n

/-- Any source in LOCKED with a class in effect of block or trip (R400). -/
def Flt.lockedHigh (f : Flt) : Bool := f.srcs.any fun e => e.2.state == .locked && decide (2 ≤ e.2.cls e.1)

/-- Is the latch in force for an emit that begins at `t`? (R396, R401) -/
def Flt.blockedAt (f : Flt) (t : BitVec 64) : Bool :=
  match f.latchLog.find? fun e => reached t e.1 with
  | some e => e.2
  | none => true

/-- The changes of the latch down to the one in force at `t`. -/
def latchSince (t : BitVec 64) : List (BitVec 64 × Bool) → List (BitVec 64 × Bool)
  | [] => []
  | e :: l => if reached t e.1 then [e] else e :: latchSince t l

/-- The changes of the latch with a new one, which emits follow from `t` on: it takes the place of every change that they
would follow no earlier. An emit lies less than 8,000 ticks back. -/
def Flt.latched (f : Flt) (b : Bool) (t now : BitVec 64) : Flt :=
  { f with latch := b, latchLog := (t, b) :: latchSince (now - 8000) (f.latchLog.filter fun e => !reached e.1 t) }

/-- While the latch is set, undervoltage comparators are disarmed and their runs return to 0 (R290). -/
def Island.uvOff (x : Island) : Island :=
  { x with uvArmed := false
           oc := (List.range 4).foldl (fun l i =>
             Sparse.put (fun _ => {}) l (12 + i) { Sparse.get (fun _ => {}) l (12 + i) with run := 0 }) x.oc }

/-- The block latch takes a value; emits follow it from `t` on (R290, R395, R396, R401). -/
def State.setLatch (s : State) (b : Bool) (t : BitVec 64) : State :=
  { s with flt := s.flt.latched b t s.now, isl := if b then s.isl.uvOff else s.isl }

/-- What follows from a change of the sources: the reaction is formed anew, and what depends on it happens (R394 to R399,
R403, R405). `before` is the state before the change, `tick` the event tick. -/
def State.settle (before s : State) (tick : BitVec 64) : State :=
  let r0 := before.reaction
  let r1 := s.reaction
  let enters := decide (2 ≤ r1) && decide (r0 < r1)
  let s1 := if enters then (s.setLatch true (tick + 16)).blockBegins else s
  let s2 := if r1 = 3 ∧ r0 ≠ 3 then s1.tripBegins else s1
  let s3 := if r0 = 3 ∧ r1 ≠ 3 then s2.tripEnds else s2
  s3.setBitIf (decide (r0 ≠ r1) || (before.flt.latch != s3.flt.latch)) Reg.FLT_EVT 1

/-- The event tick that FLT_FIRST shows. -/
def State.firstTick (s : State) : BitVec 64 :=
  BitVec.ofNat 64 (s.rdNat Reg.FLT_FIRST_VT_HI * 2 ^ 32 + s.rdNat Reg.FLT_FIRST_VT_LO)

/-- The sticky bit of a source, and FLT_FIRST when every sticky bit was clear, or when the event it shows has a later
tick (R374, R386, R416). -/
def State.setSticky (s : State) (n : Nat) (tick : BitVec 64) : State :=
  let clear := (List.range 8).all fun m => s.rd (Reg.FLT_STICKY m) == 0
  let s1 := if clear || (s.bitOf Reg.FLT_FIRST 31 && !reached tick s.firstTick) then
      ((s.wr Reg.FLT_FIRST (bitIf true 31 ||| BitVec.ofNat 32 n)).wr Reg.FLT_FIRST_VT_LO (tick.setWidth 32)).wr
        Reg.FLT_FIRST_VT_HI (BitVec.ofNat 32 (tick.toNat / 2 ^ 32))
    else s
  s1.setBit (Reg.FLT_STICKY (n / 32)) (n % 32)

/-- An item takes its place behind those that are newer. -/
def insertBy {α : Type} (newer : α → Bool) (x : α) : List α → List α
  | [] => [x]
  | y :: l => if newer y then y :: insertBy newer x l else x :: y :: l

/-- The event ticks of a source with a new one, latest first (R374). -/
def Src.ticksWith (x : Src) (tick : BitVec 64) : List (BitVec 64) := insertBy (fun t => !reached tick t) tick x.ticks

/-- Has the source an event at `tick` already? Two words of a tick are one event (R372). -/
def Src.seen (x : Src) (tick : BitVec 64) : Bool := x.last == some tick || x.heard.contains tick

/-- Does an event at `tick` promote, itself or as a predecessor of a later one? (R374, R379, R380) -/
def Src.promotes (x : Src) (tick : BitVec 64) : Bool :=
  let l := x.ticksWith tick
  if x.entry.n = 0 then false
  else if x.entry.n = 1 then true
  else (List.range l.length).any fun j =>
    match l[j]?, l[j + (x.entry.n - 1)]? with
    | some t, some u => reached t tick && decide ((t - u).toNat < x.entry.win.toNat * 200)
    | _, _ => false

/-- The last event and the stored events less than W before it (WIN_CNT of R418). -/
def windowCount (l : List (BitVec 64)) (w : BitVec 32) : Nat :=
  match l with
  | [] => 0
  | t :: rest => 1 + (rest.filter fun u => decide ((t - u).toNat < w.toNat * 200)).length

/-- A source enters LOCKED (R384, R414). -/
def State.lockedNow (s : State) : State := (s.bump Reg.FLT_CNT_LOCK).setBit Reg.FLT_EVT 3

/-- The event log takes an event, in the order of event ticks (R374, R573). -/
def Flt.logged (f : Flt) (n : Nat) (tick : BitVec 64) : Flt :=
  let t : BitVec 56 := tick.setWidth 56
  { f with log := (insertBy (fun e => decide (t ≠ e.1 ∧ (e.1 - t).toNat < 2 ^ 55)) (t, BitVec.ofNat 8 n) f.log).take 8192 }

/-- The counting of an event that every source shares: log, counter, sticky bit, NEW_EVENT (R379, R386, R414). -/
def State.noteEvent (s : State) (n : Nat) (tick : BitVec 64) : State :=
  let s1 := ({ s with flt := s.flt.logged n tick }.bump Reg.FLT_CNT_EVT).setSticky n tick
  (s1.setBitIf (s1.bitOf (Reg.FLT_IRQ_EN (n / 32)) (n % 32)) Reg.FLT_EVT 0).eventHook n tick

/-- Is an event at `tick` the source's latest? -/
def Src.latest (x : Src) (tick : BitVec 64) : Bool :=
  match x.last with
  | some t => reached tick t
  | none => true

/-- Source `n` after an event (R374, R379, R384, R409): FS15 enters LOCKED at once and is not promoted (R412), and the entry
of a source that fails its pair check promotes nothing (R50, R413). -/
def Src.afterEvent (x : Src) (n : Nat) (tick : BitVec 64) (inj : Bool) : Src :=
  { x with
    st := if x.st = .locked ∨ n = 15 then .locked else .active
    promoted := n != 15 && (x.promoted || (!x.broken && x.promotes tick))
    wasSt := if x.latest tick then x.st else x.wasSt
    ticks := (x.ticksWith tick).take 15
    heard := (insertBy (fun t => !reached tick t) tick x.heard).take 16
    last := if x.latest tick then some tick else x.last
    winCnt := windowCount (x.ticksWith tick) x.entry.win
    injected := if x.latest tick then inj else x.injected
    prior := none }

/-- What an expiry or a clear of the source replaces (R406). -/
def Src.replaced (x : Src) (tick : BitVec 64) (clear locks : Bool) (evt : Word) : Option Prior :=
  some { tick, st := x.st, promoted := x.promoted, recCnt := x.recCnt, ticks := x.ticks, broken := x.broken, clear, locks, evt }

/-- The source as it was before an expiry or a clear (R374, R406). -/
def Src.restored (x : Src) (p : Prior) : Src :=
  { x with st := p.st, promoted := p.promoted, recCnt := p.recCnt, ticks := p.ticks, broken := p.broken, prior := none }

/-- The host clear that took the source out of its fault state after `tick`: an event at `tick` comes before it (R374,
R390). -/
def Src.clearedAfter (x : Src) (tick : BitVec 64) : Option Prior :=
  match x.prior with
  | some p => if p.clear && (p.broken || p.st != .quiet) && p.tick != tick && reached p.tick tick then some p else none
  | none => none

/-- An event at `tick` wins over an expiry or a host clear of its source in that tick or later: the source is again as it
was before, and a clear is refused (R374, R406). DESIGN CHOICE: log entry 116. -/
def State.undo (s : State) (n : Nat) (tick : BitVec 64) : State :=
  let x := s.src n
  match x.prior with
  | none => s
  | some p =>
    if reached p.tick tick then
      let s1 := (s.setSrc n (x.restored p)).wr Reg.FLT_EVT (s.rd Reg.FLT_EVT &&& ~~~ p.evt)
      let s2 := s1.setBitIf p.clear Reg.FLT_EVT 5
      let s3 := if p.locks then s2.wr Reg.FLT_CNT_LOCK (BitVec.ofNat 32 (s2.rdNat Reg.FLT_CNT_LOCK - 1)) else s2
      let s4 := if p.recCnt ≠ x.recCnt then s3.keyDue else s3
      if s4.reaction = 3 ∧ s.reaction ≠ 3 then s4.tripOn else s4
    else s

/-- The pending injection is dropped: a real event of its source has the same event tick (R411). -/
def State.collide (s : State) (n : Nat) : State :=
  let s1 := s.setSrc n { s.src n with injected := false }
  ({ s1 with flt := { s1.flt with inj := none } }.wr Reg.FLT_INJ_STAT
    (bitIf true 10 ||| bitIf true 9 ||| BitVec.ofNat 32 n)).setBit Reg.FLT_EVT 8

/-- The fault table entry of source `n` that a COMMIT brings into effect in this very tick (R392, R406). -/
def State.entryDue (s : State) (n : Nat) : Option FltEntry :=
  let d := s.drf
  if d.st = .pending ∧ ((d.pendAt = some s.tb.pc ∧ s.now = s.tb.bound) ∨
      (d.pendAt = some (s.tb.pc + 1) ∧ s.now = s.tb.bound + BitVec.ofNat 64 s.per)) then
    d.set.flt.map fun t => t.entries.getD n {}
  else none

/-- A source takes a new table entry at `t`; the one before is kept for events of earlier ticks (R374, R392). -/
def Src.reclassed (x : Src) (e : FltEntry) (t : BitVec 64) : Src :=
  if x.entry = e then x else { x with entry := e, was := some (t, x.entry) }

def State.reclass (s : State) (n : Nat) (e : FltEntry) : State := s.setSrc n ((s.src n).reclassed e s.now)

/-- The counting, the state, promotion and reaction of an event under the entry the source has (R379 to R386, R394 to
R399, R403, R412). A block or trip class that is in effect already holds the latch from this event's tick too (R374). -/
def State.takeEvent (s : State) (k : Nat) (tick : BitVec 64) (inj : Bool) : State :=
  let x := s.src k
  let x' := x.afterEvent k tick inj
  let s1 := (s.noteEvent k tick).setSrc k x'
  let s2 := if x'.promoted ∧ x.promoted = false
    then (s1.bump Reg.FLT_CNT_SQUALL).setBit Reg.FLT_EVT 2 else s1
  let s3 := if k = 15 ∧ x.st ≠ .locked then s2.lockedNow else s2
  let s4 := State.settle s s3 tick
  if 2 ≤ x'.cls k ∧ s4.reaction ≤ s.reaction then s4.setLatch true (tick + 16) else s4

/-- An event under the table in effect at its tick: an event before the last COMMIT of its source's entry is classed by the
entry before, and the COMMIT follows it (R374, R392, R406). -/
def State.takeUnder (s : State) (k : Nat) (tick : BitVec 64) (inj : Bool) : State :=
  let x := s.src k
  match x.was with
  | some (t, old) =>
    if reached tick t then s.takeEvent k tick inj
    else
      let s1 := (s.setSrc k { x with entry := old }).takeEvent k tick inj
      let s2 := s1.setSrc k { s1.src k with entry := x.entry }
      if s2.reaction = s.reaction ∧ s1.reaction ≤ s2.reaction then s2 else State.settle s1 s2 t
  | none => s.takeEvent k tick inj

/-- A change of a source's REC_CNT falls due for writing to the key (R389). -/
def State.recDue (s : State) (from_ to_ : Nat) : State := if from_ = to_ then s else s.keyDue

/-- The bits of FLT_EVT that are set in `t` and not in `s`. -/
def State.newEvt (s t : State) : Word := t.rd Reg.FLT_EVT &&& ~~~ s.rd Reg.FLT_EVT

/-- A source returns to QUIET by a host clear at tick `t`, which writes its entry anew (R390, R413). -/
def State.clearAt (s : State) (n : Nat) (t : BitVec 64) : State :=
  let x := s.src n
  let y := { x with st := .quiet, promoted := false, recCnt := 0, ticks := [], broken := false }
  let s1 := State.settle s (s.setSrc n y) t
  (s1.setSrc n { y with prior := x.replaced t true false (s.newEvt s1) }).recDue x.recCnt 0

def State.clearSrc (s : State) (n : Nat) : State := s.clearAt n s.now

/-- The collector takes an event of a source at an event tick (R371 to R386, R403 to R406, R412). An event that comes
before a host clear which has acted already is taken first and the clear after it. DESIGN CHOICE: log entry 116. -/
def State.collect (s : State) (n : Nat) (tick : BitVec 64) (inj : Bool) : State :=
  let k := srcOf n
  if (s.src k).seen tick then
    -- one event of a source in a tick (R372); a real one wins over the injection (R411)
    (if (s.src k).injected ∧ (s.src k).last = some tick ∧ inj = false then s.collide k else s)
  else
    let s0 := match s.entryDue k with | some e => s.reclass k e | none => s
    match (s0.src k).clearedAfter tick with
    | some p => ((s0.setSrc k ((s0.src k).restored p)).takeUnder k tick inj).clearAt k p.tick
    | none =>
      let u := s0.undo k tick
      let hit := match u.flt.inj with
        | some j => !inj && j.src == k && j.tick == tick.setWidth 32
        | none => false
      let s1 := u.takeUnder k tick inj
      if hit then s1.collide k else s1

end Sys2Proof.Machine
end

