-- ==== Sys2Proof/Machine/Power.lean ====
section
/-! DEFINITION. Switching power domains: what a domain loses and what it restarts with (R47, R63 to R67, R858, R859). -/

namespace Sys2Proof.Machine

/-- The windows whose block lies in a domain (R858). DEDUCED: log entry 17. -/
def domainBlks (d : Nat) : List Blk :=
  match d with
  | 1 => [.sch, .drf, .flt, .dsp, .dma, .mem, .pwm, .fio, .saf]
  | 2 => (List.range 4).map .le
  | 3 => (List.range 6).map .ae
  | 4 => (List.range 6).map fun n => .ae (n + 6)
  | 5 => (List.range 6).map .port
  | 6 => (List.range 6).map fun n => .port (n + 6)
  | 7 => [.gst]
  | 9 => [.net, .can 0, .can 1, .twn]
  | 10 => [.adc, .shf]
  | _ => []

/-- The registers of a window take their reset values (R859). -/
def State.resetWindow (s : State) (b : Blk) : State :=
  { s with regs := Sparse.clearRange s.regs b.range.1 b.range.2, held := Sparse.clearRange s.held b.range.1 b.range.2 }

/-- The typed state that a domain holds is lost. What the twin keeps as long as PD0 is powered stays (R469, R472). -/
def State.loseBlocks (s : State) (d : Nat) : State :=
  match d with
  | 1 => { s with
      sch := {}, flt := {}, drf := {}, dsp := {}, dma := {}, mem := {}, iso := {}, pwm := {}
      ram := Sparse.clearRange s.ram 0x10000000 0x10200000 }
  | 2 => { s with les := [], isl := {} }
  | 3 => { s with aes := Sparse.clearRange s.aes 0 6 }
  | 4 => { s with aes := Sparse.clearRange s.aes 6 12 }
  | 5 => { s with lanes := Sparse.clearRange s.lanes 0 6, ports := Sparse.clearRange s.ports 0 6 }
  | 6 => { s with lanes := Sparse.clearRange s.lanes 6 12, ports := Sparse.clearRange s.ports 6 12 }
  | 7 => { s with gst := {} }
  | 8 => { s with ram := Sparse.clearRange s.ram 0x200000000 0x400000000 }
  | 9 => { s with
      lanes := Sparse.clearRange s.lanes 12 13, ports := Sparse.clearRange s.ports 12 13, net := {}, cans := []
      twn := { secondary := s.twn.secondary, vtOfs := s.twn.vtOfs, ofsSet := s.twn.ofsSet, lease := s.twn.lease,
               initAt := s.twn.initAt, owner := s.twn.owner, epochKnown := s.twn.epochKnown } }
  | 10 => { s with adc := {}, shfs := [] }
  | 11 => { s with fio := {} }
  | 12 => { s with saf := { s.saf with chs := Sparse.clearRange s.saf.chs 0 1, linkOk := false } }
  | 13 => { s with saf := { s.saf with chs := Sparse.clearRange s.saf.chs 1 2, linkOk := false } }
  | _ => s

/-- Does a channel have an end in a domain? -/
def chanEnds (k d : Nat) : Bool := islandDomain (k / 64) == d || islandDomain (k % 64) == d

/-- What the queues of a channel's ends in the domain hold is lost, without an event: the receive queue at the receiver, and a
word the sender holds (R66). -/
def Chan.lose (c : Chan) (receiver sender : Bool) : Chan :=
  { c with words := if receiver then [] else c.words, pend := if receiver then none else c.pend
           left := if receiver then 0 else c.left, waitSince := if sender then none else c.waitSince }
def dropWords (d : Nat) (c : Sparse Chan) : Sparse Chan :=
  c.map fun e => (e.1, e.2.lose (islandDomain (e.1 % 64) == d) (islandDomain (e.1 / 64) == d))

/-- Channels with an end in the domain restart with full credits and an empty queue (R47). -/
def restartChans (d : Nat) (c : Sparse Chan) : Sparse Chan := c.filter fun e => !chanEnds e.1 d

/-- A channel record that says nothing is not listed. -/
def tidyChans (c : Sparse Chan) : Sparse Chan := c.filter fun e => decide (e.2 ≠ {})

/-- A domain is switched off (R65, R66). -/
def State.domainOff (s : State) (d : Nat) : State :=
  if s.powered d then
    let s1 := (domainBlks d).foldl State.resetWindow (s.loseBlocks d)
    let bit := (1 : BitVec 14) <<< d
    let tb := { s1.tb with chans := tidyChans (dropWords d s1.tb.chans),
                           replica := s1.tb.replica.filter fun e => islandDomain e.1 != d
                           marked := s1.tb.marked.filter fun e => islandDomain e.1 != d }
    { s1 with tb := tb
              sys := { s1.sys with pdOn := s1.sys.pdOn &&& ~~~ bit
                                   rail := s1.sys.rail &&& ~~~ bit
                                   loaded := s1.sys.loaded &&& ~~~ bit } }
  else s

/-- May a domain be switched on? PD0 and PD1 must be on and the timebase locked, and neither a shed nor a cut-off holds
the domains off (R64, R567, R568, R850). -/
def State.mayPower (s : State) : Bool := s.powered 1 && s.tb.lock && s.sys.shed == .none && !s.sys.cutOff

/-- The ports whose lanes lie in a domain (R63). -/
def lanesOf (d : Nat) : List Nat :=
  match d with
  | 5 => List.range 6
  | 6 => (List.range 6).map (· + 6)
  | 9 => [12]
  | _ => []

/-- A domain is switched on: its windows take their reset values and its channels restart (R47, R859). -/
def State.domainOn (s : State) (d : Nat) : State :=
  if s.powered d ∨ s.mayPower = false then s
  else
    let s0 := (domainBlks d).foldl State.resetWindow (s.loseBlocks d)
    let s1 := (lanesOf d).foldl (fun t n => t.setLane n { onAt := s.sys.up }) s0
    { s1 with sys := { s1.sys with pdOn := s1.sys.pdOn ||| ((1 : BitVec 14) <<< d) }
              tb := { s1.tb with chans := restartChans d s1.tb.chans }
              mem := if d = 8 then { s1.mem with scrubbed := s1.sys.up } else s1.mem }

end Sys2Proof.Machine
end

