-- ==== Sys2Proof/Machine/LineOps.lean ====
section
/-! DEFINITION. What a port sends at the present tick: darkness, training frames, blocks in their slots, and the precoders
behind them (R78, R79, R82 to R92, R103, R104, R110, R117 to R129, R482). -/

namespace Sys2Proof.Machine

/-- A block's tag and body. -/
abbrev LineBlk := BitVec 16 × BitVec 460

/-- The first tick at or after `t` on which a down block may begin (R122). -/
def nextBlock (t : BitVec 64) : BitVec 64 := t + BitVec.ofNat 64 ((4 - t.toNat % 4) % 4)

/-- The first tick at or after `t` on which a training frame of an arm port may begin (R122). -/
def nextTrain (t : BitVec 64) : BitVec 64 := nextBlock (t + 2) - 2

/-- The first slot of the port that begins at or after `t` (R117, R120). -/
def Lane.nextSlot (x : Lane) (t : BitVec 64) : BitVec 64 :=
  if reached t x.dataAt then t + BitVec.ofNat 64 ((4 - (t - x.dataAt).toNat % 4) % 4) else x.dataAt

/-- SEQ of the block that begins at `t` (R120). -/
def Lane.seqAt (x : Lane) (t : BitVec 64) : Nat := (t - x.dataAt).toNat / 4 % 16

/-! ## The blocks of a port -/

/-- The blocks of a frame with their slots, as far as they are sent: a frame that is cut has none that begins after the cut
(R104, R127). -/
def Frame.slots (f : Frame) : List (BitVec 64 × LineBlk) :=
  let b := f.bits
  ((List.range f.cs.blocks).map fun i =>
    (f.at_ + BitVec.ofNat 64 (4 * i), f.tag i, BitVec.ofNat 460 (lineField b (460 * i) 460))).filter fun e =>
      !f.cut || !reached e.1 f.cutAt

/-- Is block `i` of a frame sent in full by tick `t`? (R104) -/
def Frame.stands (f : Frame) (i : Nat) (t : BitVec 64) : Bool :=
  let e := f.at_ + BitVec.ofNat 64 (4 * (i + 1))
  decide (i < f.cs.blocks) && reached t e && (!f.cut || reached f.cutAt e)

/-- A message block (R478, R480). -/
def TwMsg.blk (m : TwMsg) : LineBlk :=
  (tagOf 10 m.seq.toNat, lineFields 460 [(m.op.toNat, 8), (m.epoch.toNat, 16), (m.epochC.toNat, 16), (m.pc.toNat, 32),
    (m.vt.toNat, 64), (m.arg.toNat, 64)])

/-- A GUST block (R478, R481). -/
def TwGust.blk (g : TwGust) : LineBlk := (tagOf 11 0, gustBody g.kind g.vtB)

/-- Block `i` of a transfer (R478, R479). -/
def Xfer.blk (f : Xfer) (i : Nat) : LineBlk := (tagOf (if f.live then 9 else 8) f.no.toNat, transferBody f.bytes i)

/-- An entry is put in its place by its tick. -/
def byTick (e : BitVec 64 × LineBlk) (l : List (BitVec 64 × LineBlk)) : List (BitVec 64 × LineBlk) :=
  match l with
  | [] => [e]
  | x :: r => if 0 < timeDiff x.1 e.1 then e :: l else x :: byTick e r

/-- How far a port's line has been worked out: from its first data symbol on, with both precoders at 0 (R84, R120). -/
def State.line (s : State) (p : Nat) : LineAt :=
  let d := (s.lane p).dataAt
  let l := if p < 12 then (s.port p).line else s.twn.line
  if l.since = d then l else { since := d, at_ := d }
def State.setLine (s : State) (p : Nat) (l : LineAt) : State :=
  if p < 12 then s.setPort p { s.port p with line := l } else { s with twn := { s.twn with line := l } }

/-- The blocks of a port that are neither IDLE nor of a transfer, with their slots, oldest first (R127, R162, R482). -/
def State.lineBlks (s : State) (p : Nat) : List (BitVec 64 × LineBlk) :=
  let from_ := (s.line p).at_
  if p < 12 then
    let x := s.port p
    let fr := ((x.sent.filter fun f => reached f.at_ from_ || reached (f.at_ + BitVec.ofNat 64 (4 * f.cs.blocks)) from_).reverse.map
      Frame.slots).flatten
    match x.lastCtrl with
    | some m => byTick (m.2.2, ctrlTag m.2.1, m.1.body (m.1.epoch.getD 0)) fr
    | none => fr
  else
    let ms := s.twn.sent.map fun m => (m.vt, m.blk)
    let gs := s.twn.gust.map fun g => (g.at_, g.blk)
    (ms ++ gs).foldr byTick []

/-- The transfer of a port: on X13 only, and while the port is in DATA. -/
def State.lineXfer (s : State) (p : Nat) : Option Xfer := if p < 12 then none else s.twn.xfer

/-- One block goes by. -/
def LineAt.pass (l : LineAt) (x : Lane) (b : LineBlk) : LineAt :=
  let y := afterBlock (l.y0, l.y1) (blockOf b.1 (x.seqAt l.at_) b.2)
  { l with at_ := l.at_ + 4, y0 := y.1, y1 := y.2 }

/-- `n` slots go by that carry the transfer's next blocks and then IDLE (R86, R117, R482). -/
def LineAt.gap (l : LineAt) (x : Lane) (f : Option Xfer) (n : Nat) : LineAt :=
  let m := match f with | some g => min n (transferBlocks g.bytes - l.next) | none => 0
  let k := match f with
    | some g => (List.range m).foldl (fun (k : LineAt) i => k.pass x (g.blk (l.next + i))) l
    | none => l
  let y := afterIdle (k.y0, k.y1) (x.seqAt k.at_) (n - m)
  { k with at_ := k.at_ + BitVec.ofNat 64 (4 * (n - m)), y0 := y.1, y1 := y.2, next := l.next + m }

/-- The slots before tick `t` go by, with the blocks that lie in them. -/
def LineAt.upTo (l : LineAt) (x : Lane) (f : Option Xfer) (t : BitVec 64) (bs : List (BitVec 64 × LineBlk)) : LineAt :=
  match bs with
  | [] => l.gap x f (ahead l.at_ t / 4)
  | b :: r =>
    if reached b.1 t ∨ reached b.1 l.at_ = false then l.upTo x f t r
    else ((l.gap x f (ahead l.at_ b.1 / 4)).pass x b.2).upTo x f t r

/-- Where a port's line stands at the slot that begins at or before `t` (R84, R120). -/
def State.lineAt (s : State) (p : Nat) (t : BitVec 64) : LineAt :=
  let x := s.lane p
  (s.line p).upTo x (s.lineXfer p) (x.dataAt + BitVec.ofNat 64 (4 * (ahead x.dataAt t / 4))) (s.lineBlks p)

/-- What has gone by is worked out, before the lists that say it change. -/
def State.lineNote (s : State) (p : Nat) : State :=
  let x := s.lane p
  if x.st = .data ∧ reached s.now x.dataAt then s.setLine p (s.lineAt p s.now) else s

/-- The block in the slot that contains the present tick, with the precoders before it (R117 to R120, R125). -/
def State.lineBlock (s : State) (p : Nat) : BitVec 512 × Pair2 :=
  let x := s.lane p
  let l := s.lineAt p s.now
  let b := match (s.lineBlks p).find? fun e => e.1 == l.at_ with
    | some e => e.2
    | none => match s.lineXfer p with
      | some f => if l.next < transferBlocks f.bytes then f.blk l.next else (0, 0)
      | none => (0, 0)
  (blockOf b.1 (x.seqAt l.at_) b.2, (l.y0, l.y1))

/-! ## Light, training frames and symbols -/

/-- Do the fibres of a port carry light? Its domain is on and TX_EN is set; X13 also needs TWIN_EN, and is dark after it has
lost lock on CK received (R78, R79, R109, R113, R470). -/
def State.lit (s : State) (p : Nat) : Bool :=
  s.powered (if p < 6 then 5 else if p < 12 then 6 else 9) && s.bitOf (Reg.PRT_LANE_CTL p) 2 && ((s.lane p).st != .off) &&
  (match (s.lane p).darkFrom with | some t => !reached s.tb.vt t | none => true)

/-- The TRAIN word a port sends: its state, ready once its receiver has finished, and the failure code in FAULT
(R87, R93, R103). In IDLE, and with STAGE = 6, STATUS is busy. DESIGN CHOICE: log entry 99. -/
def State.trainSent (s : State) (p : Nat) : BitVec 16 :=
  let x := s.lane p
  if x.st = .fault then
    trainWord 7 2 (if x.trainFailed then x.failCode else Config.faultCode p x.stageAt.toNat)
  else trainWord x.st.code (if x.rxDone then 1 else 0) 0

/-- The tick on which the training frames of the port's present state begin (R122). -/
def State.trainFrom (s : State) (p : Nat) : BitVec 64 :=
  let t := (s.lane p).stageAt + s.twn.vtOfs
  if p < 12 then nextTrain t else t

/-- PRBS7's register before the first training frame of the port's present state (R89). DESIGN CHOICE: log entry 99. -/
def State.seq7 (s : State) (p : Nat) : BitVec 7 :=
  let r : BitVec 7 := (Config.prbsSeed p (s.lane p).stageAt.toNat 0).setWidth 7
  (s.lane p).seq7.getD (if r = 0 then 1 else r)

/-- Training frames of the present state that begin before `t` (R92, R122). -/
def State.framesTo (s : State) (p : Nat) (t : BitVec 64) : Nat :=
  let x := s.lane p
  let f0 := s.trainFrom p
  let e := if x.st = .data ∧ reached t (x.dataAt - 4) then x.dataAt - 4 else t
  (ahead f0 e + 3) / 4

/-- PRBS7's register once the present state ends now: the sequence goes on from frame to frame, through the states whose frames
carry it, and starts anew after darkness (R89). DESIGN CHOICE: log entry 99. -/
def State.seq7Next (s : State) (p : Nat) : Option (BitVec 7) :=
  let x := s.lane p
  if x.st = .off then none
  else if x.st = .level ∨ x.st = .check ∨ x.prbsTx then x.seq7
  else
    let f1 := if p < 12 then nextTrain s.now else s.now
    some (prbs7After (s.seq7 p) (64 * s.framesTo p f1))

/-- What the two data lanes of a port carry. -/
inductive LineOut where
  /-- no light -/
  | dark
  /-- a block, with the symbol indices of the two lanes -/
  | block (b : BitVec 512) (d0 d1 : List (BitVec 2))
  /-- a training frame that began at a tick, with the symbol indices of the two lanes -/
  | train (from_ : BitVec 64) (d0 d1 : List (BitVec 2))
  /-- PRBS31 in place of training frames: the groups of the present tick on the two lanes -/
  | prbs (d0 d1 : List (BitVec 2))
  /-- symbols that no rule states: between two port states, and between the last training frame and the first block -/
  | open
  deriving DecidableEq, Repr

/-- A nonzero seed. -/
def seedOf (r : BitVec 31) : BitVec 31 := if r = 0 then 1 else r

/-- The 32 groups of PRBS31 in the present tick, coded with each lane's precoder (R89, R110). DESIGN CHOICE: log entry 99. -/
def State.prbsOut (s : State) (p : Nat) : LineOut :=
  let t0 := (s.lane p).stageAt.toNat
  let n := (s.tb.vt - (s.lane p).stageAt).toNat
  let seed := fun i => Config.prbsSeed p t0 i
  let r := (prbs31Groups (seedOf (seed 1)) (32 * n)).2
  let pre := fun (i : Nat) => lastSymbol (BitVec.ofNat 2 (seed i).toNat) (encodeLane (BitVec.ofNat 2 (seed i).toNat)
    (prbs31Groups (seedOf (seed 1)) (32 * n)).1)
  let g := (prbs31Groups r 32).1
  .prbs (encodeLane (pre 2) g) (encodeLane (pre 3) g)

/-- Training frame of the present tick (R87, R89, R122). -/
def State.trainOut (s : State) (p : Nat) : LineOut :=
  let x := s.lane p
  let f0 := s.trainFrom p
  if reached s.now f0 = false then .open
  else
    let m := (s.now - f0).toNat / 4
    let at_ := f0 + BitVec.ofNat 64 (4 * m)
    if x.st = .data ∧ reached at_ (x.dataAt - 4) then .open
    else
      let seed := fun i => Config.prbsSeed p x.stageAt.toNat i
      let e := trainFrame x.st.code (s.trainSent p) (s.seq7 p) (seedOf (seed 1))
        (BitVec.ofNat 2 (seed 2).toNat, BitVec.ofNat 2 (seed 3).toNat) m
      .train at_ e.1 e.2

/-- What a port in loop-back sends in the present tick on data lane `l`, as the groups that its own receiver sees (R85, R110). -/
def LineOut.groups (o : LineOut) (l : Nat) : List (BitVec 2) :=
  match o with
  | .block _ d0 d1 | .train _ d0 d1 | .prbs d0 d1 => (decodeLane 0 (if l = 0 then d0 else d1)).drop 1
  | _ => []

/-- What a port sends on D0 and D1 at the present tick (R86, R92, R103, R110, R117). -/
def State.lineOut (s : State) (p : Nat) : LineOut :=
  let x := s.lane p
  if s.lit p = false then .dark
  else if x.st = .data ∧ reached s.now x.dataAt then
    let b := s.lineBlock p
    let e := encodeBlock b.2 b.1
    .block b.1 e.1 e.2
  else if x.prbsTx then s.prbsOut p
  else s.trainOut p

end Sys2Proof.Machine
end

