-- ==== Sys2Proof/Machine/Lease.lean ====
section
/-! DEFINITION. The lease states, twin messages and the surrender of the lease (R480, R495 to R499). -/

namespace Sys2Proof.Machine

/-- The epoch in effect (TWN_EPOCH). While the stored pair is broken it is not used, and the epoch stored on the key stands in
(R49, R50). DESIGN CHOICE: log entry 124. -/
def State.epoch (s : State) : BitVec 16 :=
  match s.paired Reg.TWN_EPOCH with
  | some v => v.setWidth 16
  | none => s.key.epoch

/-- The highest E_MAX of the last witnesses (TWN_EPOCH); while the stored pair is broken, none above the epoch (R49, R50).
DESIGN CHOICE: log entry 124. -/
def State.eMax (s : State) : BitVec 16 :=
  match s.paired Reg.TWN_EPOCH with
  | some v => BitVec.ofNat 16 (v.toNat / 65536)
  | none => s.key.epoch

/-- The epoch register takes an epoch and a highest E_MAX, both halves; an epoch that differs from the key's falls due
for writing (R492, R515). -/
def State.setEpochs (s : State) (e m : BitVec 16) : State :=
  let s1 := if s.key.epoch = e then s else { s.keyDue with key := { s.keyDue.key with epoch := e } }
  s1.wrPair Reg.TWN_EPOCH (BitVec.ofNat 32 (m.toNat * 65536 + e.toNat))

/-- The lease length L in ticks (R489). -/
def State.leaseTicks (s : State) : Nat := us (s.field Reg.TWN_CFG 16 16)


/-- X13 takes up a transfer; its first block goes out in the next free slot (R479, R482, R483). -/
def State.startXfer (s : State) (f : Option Xfer) : State :=
  let s1 := s.lineNote 12
  { s1 with twn := { s1.twn with xfer := f, line := { s1.line 12 with next := 0 } } }

/-- The lease state changes; the transfer that X13 carries ends with the state that sent it (R482, R495,
TWN_EVT.LEASE_CHANGE). DEDUCED: log entry 97. -/
def State.setLease (s : State) (l : LeaseSt) : State :=
  if s.twn.lease = l then s
  else
    let s1 := s.startXfer none
    ({ s1 with twn := { s1.twn with lease := l, firstEmit := s.twn.firstEmit && l == LeaseSt.duty } }).setBit Reg.TWN_EVT 0

/-- A result code (TWN_RES). -/
def State.twnResult (s : State) (c : Nat) : State := s.setField Reg.TWN_RES 24 8 c

/-- PC of the period that contains a tick of the present period or the next. -/
def State.pcAt (s : State) (t : BitVec 64) : BitVec 32 := if s.tb.run && reached t s.tb.nextB then s.tb.pc + 1 else s.tb.pc

/-- A message of the twin port that departs at `t` (R478, R480). -/
def State.mkMsg (s : State) (op : BitVec 8) (arg t : BitVec 64) : TwMsg :=
  { seq := s.twn.msgSeq, op := op, epoch := s.epoch, epochC := ~~~ s.epoch, pc := s.pcAt t, vt := t, arg := arg }

/-- The first slot of X13 from `t` on that no message takes (R482). -/
def freeSlot (n : Nat) (taken : List (BitVec 64)) (t : BitVec 64) : BitVec 64 :=
  match n with
  | 0 => t
  | n + 1 => if t ∈ taken then freeSlot n taken (t + 4) else t

/-- The slot of X13 that the next message takes (R117, R482). -/
def State.msgSlot (s : State) : BitVec 64 := freeSlot 17 (s.twn.sent.map (·.vt)) ((s.lane 12).nextSlot s.now)

/-- A message joins those sent; a GUST block whose slot it takes goes later (R482). -/
def State.putMsg (s : State) (m : TwMsg) : State :=
  let s1 := s.lineNote 12
  let gust := if s1.twn.gust.any fun g => g.at_ == m.vt
    then s1.twn.gust.map fun g => if reached g.at_ m.vt then { g with at_ := g.at_ + 4 } else g
    else s1.twn.gust
  { s1 with twn := { s1.twn with sent := (m :: s1.twn.sent).take 16, msgSeq := s1.twn.msgSeq + 1, gust := gust } }

/-- A message goes out on X13 in the next slot that no message takes (R480, R482). -/
def State.sendMsg (s : State) (op : BitVec 8) (arg : BitVec 64) : State := s.putMsg (s.mkMsg op arg s.msgSlot)

/-- An ECHO goes out on X13; its departure is held in UI of VT (R474). -/
def State.sendEcho (s : State) : State :=
  let s1 := s.sendMsg 0x08 0
  { s1 with twn := { s1.twn with echoAt := some (32 * (s.msgSlot - s.twn.vtOfs).toNat) } }

/-- A GUST block goes out on X13, after the messages that wait (R460, R481, R482). -/
def State.sendGust (s : State) (kind : Nat) (vt : BitVec 64) : State :=
  let s1 := s.lineNote 12
  let at_ := freeSlot 33 (s1.twn.sent.map (·.vt) ++ s1.twn.gust.map (·.at_)) ((s1.lane 12).nextSlot s1.now)
  { s1 with twn := { s1.twn with gust := ({ kind := kind, vtB := vt, at_ := at_ } :: s1.twn.gust).take 16 } }

/-- The tick after the last block of a frame; a down block takes 4 ticks (R128). -/
def Frame.endsAt (f : Frame) : BitVec 64 := f.at_ + BitVec.ofNat 64 (4 * f.cs.blocks)

/-- The frame in transmission is cut off at this tick; one already sent in full stands (R104). -/
def Port.cutFrame (x : Port) (now : BitVec 64) : Port :=
  match x.sent with
  | f :: r => if f.cut || reached now f.endsAt then x else { x with sent := { f with cut := true, cutAt := now } :: r }
  | [] => x

/-- Frames end at once on every port; a frame in transmission is cut (R104, R499). -/
def State.stopFrames (s : State) : State :=
  (List.range 12).foldl (fun t n =>
    t.setPort n { (t.port n).cutFrame t.now with framesOn := false, plan := .none, hand := .none }) s

/-- PD2 to PD4 go off (R495, R499). -/
def State.enginesOff (s : State) : State := ((s.domainOff 2).domainOff 3).domainOff 4

/-- A primary in WARM drops a handover in progress without having answered: it, too, raises FS203 (R511, R513, R514). -/
def State.dropHand (s : State) : State :=
  if s.twn.lease = .warm ∧ s.twn.hand.isSome then ((s.twnResult 0x21).setBit Reg.TWN_EVT 7).collect 203 s.now false else s

/-- A module in ZEPHYR gives up a claim or a takeback in progress, and its engines go off (R495, R513). -/
def State.standDown (s : State) : State :=
  let s1 := (s.dropHand.stopFrames.setLease .zephyr).enginesOff
  { s1 with twn := { s1.twn with claim := none, hand := none, computeFrom := none, dutyAt := none } }

/-- The module's health may have been lost: the count of T_RECLAIM ends, and a module in WARM stands down
(R495, R496). -/
def State.ill (s : State) : State :=
  let s1 := { s with twn := { s.twn with healthyAt := none } }
  if s1.twn.lease = .warm then s1.standDown else s1

/-- What the duty does in the tick of surrender (R499). `why` and `what` go to TWN_SURR. -/
def State.surrender (s : State) (why what : Nat) : State :=
  let s1 := (s.stopFrames.sendMsg 0x03 (BitVec.ofNat 64 why)).wr Reg.TWN_SURR (BitVec.ofNat 32 (what * 256 + why))
  let s2 := (s1.collect 196 s1.now false).setBit Reg.TWN_EVT 4
  let s3 := { s2 with twn := { s2.twn with
    mustHeal := true, healthyAt := none, viewTo := none, hand := none, computeFrom := none, dutyAt := none, renewAt := none } }
  (s3.setLease .zephyr).enginesOff

/-- A source that enters ACTIVE makes the duty surrender when it is marked in TWN_SURR_MASK and the partner is ready
(R498, condition 2). DEDUCED: log entry 64. -/
def State.maskSurrender (before s : State) (n : Nat) : State :=
  if s.twinEn && s.duty && s.partnerReady && (before.src n).state == .quiet && (s.src n).state == .active &&
      s.bitOf (Reg.TWN_SURR_MASK (n / 32)) (n % 32)
  then s.surrender 2 n
  else if s.bitOf (Reg.TWN_SURR_MASK (n / 32)) (n % 32) && (s.src n).inFault then s.ill else s

/-- A fault source of the module raises an event at the present tick (R370 to R374). -/
def State.raise (s : State) (n : Nat) : State := State.maskSurrender s (s.collect n s.now false) n

/-- A source that records one event a period (R244, R361, R366). -/
def State.raiseOnce (s : State) (n : Nat) : State :=
  if n ∈ s.sch.once then s
  else ({ s with sch := { s.sch with once := n :: s.sch.once } }).raise n

/-- A source is raised when a condition holds. -/
def State.raiseIf (s : State) (c : Bool) (n : Nat) : State := if c then s.raise n else s

/-- A pair break or residue fault found by an island; an arm engine marks it in AE_EVT (R50 to R52, R245). -/
def State.integrity (s : State) (island : Nat) : State :=
  let s1 := if 6 ≤ island ∧ island < 18 then s.setBit (Reg.AE_EVT (island - 6)) 0 else s
  s1.raise (islandFault island)

end Sys2Proof.Machine
end

