-- ==== Sys2Proof/Machine/Fault.lean ====
section
/-! DEFINITION. The commands of the fault collector (07_fault_collection.md). -/

namespace Sys2Proof.Machine

/-- The full VT_P whose low 16 bits are `lo` and which lies nearest the collector's own (R371). -/
def nearest16 (now : BitVec 64) (lo : BitVec 16) : BitVec 64 :=
  now + BitVec.ofInt 64 (timeDiff lo (now.setWidth 16))

/-- The counters whose residue the collector checks. -/
def fltCounter (c : Nat) : Nat :=
  match c with
  | 0 => Reg.FLT_CNT_EVT
  | 1 => Reg.FLT_CNT_SQUALL
  | _ => Reg.FLT_CNT_LOCK

/-- A source whose pair is found broken at an event of `tick`. An expiry or a refused clear that the event comes before leaves it
broken, and no clear that has acted already mends it (R406, R413). -/
def Src.breakAt (x : Src) (tick : BitVec 64) : Src :=
  { x with broken := true
           prior := x.prior.bind fun p =>
             if p.clear && p.tick != tick && reached p.tick tick then none else some { p with broken := true } }

/-- A pair break in the entry or state of a source: it is treated as ACTIVE with class block until a host clear, from
`tick` on (R413). FS15 ignores its entry and is LOCKED by the event that the break raises (R412). -/
def State.sourceBreak (s : State) (n : Nat) (tick : BitVec 64) : State :=
  if n = 15 then s
  else
    let s1 := s.setSrc n ((s.src n).breakAt tick)
    let s2 := State.settle s s1 tick
    State.maskSurrender s (if s2.reaction ≤ s.reaction then s2.setLatch true (tick + 16) else s2) n

/-- A residue fault in the update of a counter: the result is discarded and FS15 is raised (R52, R412). `stays`: the
residue held with the counter is wrong too. -/
def State.counterBreak (before s : State) (c : Nat) (stays : Bool) : State :=
  let s1 := s.wr (fltCounter c) (before.rd (fltCounter c))
  { s1 with flt := { s1.flt with selfBad := s1.flt.selfBad || stays } }.raise 15

/-- FAULT_EVENT: the collector takes an EVENT word (R370 to R372, R403, R406). `damage`: what it finds broken in its own
state as it takes the word (R412, R413). -/
def execFaultEvent (word : BitVec 64) (damage : Option FltDamage) (s : State) : Res :=
  let src := fieldOf word 40 8
  let tick := nearest16 s.now (BitVec.ofNat 16 (fieldOf word 48 16))
  let take := fun (t : State) => State.maskSurrender t (t.collect src tick false) (srcOf src)
  match damage with
  | none => .next (take s)
  | some .source => .next ((take (s.sourceBreak (srcOf src) tick)).raise 15)
  | some (.counter c stays) => .next (State.counterBreak s (take s) c stays)

/-- The tick at which a source's Lull expires (R385). -/
def Src.lullEnds (x : Src) : Option (BitVec 64) :=
  x.last.map fun t => t + BitVec.ofNat 64 (x.entry.lull.toNat * 200)

/-- LULL_EXPIRY: an ACTIVE source returns to QUIET or enters LOCKED (R384, R385, R387 to R389). A source that fails its
pair check stays ACTIVE until a host clear (R413). -/
def execLullExpiry (n : Fin 256) (s : State) : Res :=
  let x := s.src n
  match x.st, x.broken, x.lullEnds with
  | .active, false, some t =>
    let s1 := s.advanceTo t
    let locks := decide (0 < x.entry.recLim ∧ x.entry.recLim ≤ x.recCnt + 1)
    let x1 := { x with recCnt := satInc x.recCnt 255 }
    let x2 := if locks then { x1 with st := .locked } else { x1 with st := .quiet, promoted := false }
    let s2 := s1.setSrc n x2
    let s3 := State.settle s1 (if locks then s2.lockedNow else s2) s1.now
    .next ((s3.setSrc n { x2 with prior := x.replaced t false locks (s1.newEvt s3) }).recDue x.recCnt x1.recCnt)
  | _, _, _ => .next s

/-- An event of the source lies in this very tick (R406). -/
def Src.eventNow (x : Src) (now : BitVec 64) : Bool := x.last == some now && !x.ticks.isEmpty

/-- Does the full self-check of the collector fail at a clear of FS15? The clear writes the entry of FS15 itself anew
(R412). -/
def Flt.selfFails (f : Flt) : Bool := f.selfBad || f.srcs.any fun e => e.1 != 15 && e.2.broken

/-- FLT_CLEAR with ACTION 01: the source named by INDEX (R390, R391, R406). A self-check that fails at the clear of FS15
is found by the collector in its own state, and raises FS15 (R412). -/
def State.clearOne (s : State) (n : Nat) : State :=
  let x := s.src n
  if n = 15 ∧ s.flt.selfFails then (s.setBit Reg.FLT_EVT 5).raise 15
  else if (x.st = .active ∧ x.broken = false) ∨ x.eventNow s.now then s.setBit Reg.FLT_EVT 5 else s.clearSrc n

/-- FLT_CLEAR with ACTION 10: every source that is not ACTIVE, other than FS15 (R390, R391). An event in this tick of a
source that was not ACTIVE before it wins, and the clear of that source is refused (R406). -/
def State.clearEvery (s : State) : State :=
  (s.flt.srcs.map (·.1)).foldl (fun t n =>
    let x := t.src n
    if n = 15 then t
    else if x.eventNow t.now ∧ x.wasSt ≠ .active then t.setBit Reg.FLT_EVT 5
    else if x.st = .active ∧ x.broken = false then t
    else if x.eventNow t.now then t.setBit Reg.FLT_EVT 5
    else t.clearSrc n) s

/-- The action of an accepted pair of FLT_CLEAR (R390, FLT_CLEAR.ACTION). -/
def State.fltClear (s : State) (v : Word) : State :=
  match fieldOf v 30 2 with
  | 1 => s.clearOne (fieldOf v 0 8)
  | 2 => s.clearEvery
  | 3 => s.setBit Reg.FLT_EVT 5
  | _ => s

/-- The action of an accepted pair of FLT_INJ (R407). -/
def State.fltInj (s : State) (v : Word) : State :=
  let n := fieldOf v 0 8
  let at_ := s.rd Reg.FLT_INJ_AT
  if fieldOf v 30 2 = 0 then s
  else if fieldOf v 30 2 ≠ 1 ∨ s.flt.factory = false ∨ s.flt.inj.isSome ∨ n = 15 ∨ reservedSrc n ∨
      timeDiff at_ (s.now.setWidth 32) < 1000 then s.setBit Reg.FLT_EVT 6
  else ({ s with flt := { s.flt with inj := some { tick := at_, src := n } } }).wr Reg.FLT_INJ_STAT
    (bitIf true 8 ||| BitVec.ofNat 32 n)

/-- May a deblock be accepted? (R400, R683) -/
def State.deblockOk (s : State) : Bool :=
  s.sys.ready && decide (s.reaction < 2) && !s.flt.lockedHigh && s.holds && !(s.src 15).inFault && !s.blockLine

/-- The deblock stands before every port's next unblocked emit phase (R401). -/
def State.awaitDeblock (s : State) : State :=
  (List.range 12).foldl (fun t n => if t.open (.port n) then t.setPort n { t.port n with deblock := true } else t) s

/-- An accepted deblock (R401); a set that holds a topology section is cancelled (R558). -/
def State.deblockNow (s : State) : State :=
  let s1 := s.setLatch false (s.now + 16)
  ((s1.setBitIf s.flt.latch Reg.FLT_EVT 1).awaitDeblock).draftCancel 0x35

/-- A block request (R402). -/
def State.blockNow (s : State) : State :=
  if s.flt.latch then s.setLatch true (s.now + 16)
  else (s.setLatch true (s.now + 16)).setBit Reg.FLT_EVT 1

/-- The action of an accepted pair of FLT_CONV (R400 to R402). -/
def State.fltConv (s : State) (v : Word) : State :=
  match fieldOf v 30 2 with
  | 1 => if s.deblockOk then s.deblockNow else s.setBit Reg.FLT_EVT 7
  | 2 => s.blockNow
  | 3 => s.setBit Reg.FLT_EVT 7
  | _ => s

/-- A command word of FLT_CLEAR, FLT_INJ and FLT_CONV. -/
def actionWord (a n : Nat) : Word := putField a 30 ||| BitVec.ofNat 32 n

/-- CLEAR_SOURCE: an accepted paired write to FLT_CLEAR with ACTION 01 (R390, R391, R406, R412, R413). -/
def execClearSource (n : Fin 256) (s : State) : Res :=
  s.via .flt fun t => (t.wrPair Reg.FLT_CLEAR (actionWord 1 n)).fltClear (actionWord 1 n)

/-- CLEAR_ALL: an accepted paired write to FLT_CLEAR with ACTION 10 (R390, R391). -/
def execClearAll (s : State) : Res :=
  s.via .flt fun t => (t.wrPair Reg.FLT_CLEAR (actionWord 2 0)).fltClear (actionWord 2 0)

/-- INJECT: an accepted paired write to FLT_INJ with ACTION 01 (R407). -/
def execInject (n : Fin 256) (s : State) : Res :=
  s.via .flt fun t => (t.wrPair Reg.FLT_INJ (actionWord 1 n)).fltInj (actionWord 1 n)

/-- An injection ends: INJ_STAT shows DONE, and COLLIDED when a real event won (R409, R411). -/
def State.injDone (s : State) (n : Nat) : State :=
  (({ s with flt := { s.flt with inj := none } }).wr Reg.FLT_INJ_STAT (bitIf true 9 ||| BitVec.ofNat 32 n)).setBit
    Reg.FLT_EVT 8

/-- INJECTION_FIRE: the collector takes the injected event at the tick of FLT_INJ_AT, unless a real event of the source
has that tick (R408 to R411). -/
def execInjectionFire (s : State) : Res :=
  match s.flt.inj with
  | none => .next s
  | some j =>
    let s1 := s.advanceTo (s.now + BitVec.ofNat 64 (timeDiff j.tick (s.now.setWidth 32)).toNat)
    let x := s1.src j.src
    if x.last = some s1.now ∧ x.injected = false then .next (s1.collide j.src)
    else
      let s2 := { s1 with flt := { s1.flt with inj := none } }
      .next ((State.maskSurrender s2 (s2.collect j.src s2.now true) j.src).injDone j.src)

/-- DEBLOCK: an accepted paired write to FLT_CONV with ACTION 01 (R400, R401, R558, R683). -/
def execDeblock (s : State) : Res :=
  s.via .flt fun t => (t.wrPair Reg.FLT_CONV (actionWord 1 0)).fltConv (actionWord 1 0)

/-- BLOCK_REQUEST: an accepted paired write to FLT_CONV with ACTION 10 (R402). -/
def execBlockRequest (s : State) : Res :=
  s.via .flt fun t => (t.wrPair Reg.FLT_CONV (actionWord 2 0)).fltConv (actionWord 2 0)

/-- The counters that FLT_CNT_CLR clears, their residues with them (R412, R418). -/
def State.fltCntClr (s : State) : State :=
  { s with flt := { s.flt with selfBad := false } }.clearAll [Reg.FLT_CNT_EVT, Reg.FLT_CNT_SQUALL, Reg.FLT_CNT_LOCK]

/-- FLT_CNT_CLR: a write of 1 to bit 0 (R418). -/
def execFltCntClr (s : State) : Res := s.via .flt State.fltCntClr

end Sys2Proof.Machine
end

