-- ==== Sys2Proof/Machine/DspOps.lean ====
section
/-! DEFINITION. The thread dispatcher and its trace (R644 to R651), shared by the rows of DSP_CMD. -/

namespace Sys2Proof.Machine

/-- A physical address in SRAM, outside the event log (R573, R630, R857). -/
def inSram (a : Nat) : Bool := decide (0x10000000 ≤ a ∧ a < 0x10200000)
def inEventLog (a : Nat) : Bool := decide (0x101F0000 ≤ a ∧ a < 0x10200000)
def inDramB (a : Nat) : Bool := decide (0x200000000 ≤ a ∧ a < 0x400000000)

/-- The event log: the accepted events, oldest first, in 64 KiB (R573). -/
def State.eventLog (s : State) : List Byte :=
  let l := s.flt.log.take 8192
  (l.reverse.map fun e => natBytes 8 (e.1.toNat * 256 + e.2.toNat)).flatten ++ natBytes (65536 - 8 * l.length) 0

/-- Bytes read over the bus from SRAM or DRAM channel B: the top of SRAM reads as the event log (R573). -/
def State.busBytes (s : State) (a n : Nat) : List Byte :=
  if inSram a ∧ 0x101F0000 < a + n then
    s.ram.bytes a (0x101F0000 - a) ++ (s.eventLog.drop (a - 0x101F0000)).take (n - (0x101F0000 - a))
  else s.ram.bytes a n

/-- Does a stretch of `n` bytes lie in one memory? -/
def spanIn (p : Nat → Bool) (a n : Nat) : Bool := p a && (n == 0 || p (a + n - 1))

/-- Bytes written over the bus: the event log area ignores them, and so does what no memory backs (R573, R630). -/
def State.busWrite (s : State) (a : Nat) (l : List Byte) : State :=
  match l with
  | [] => s
  | b :: r =>
    State.busWrite (if (inSram a && !inEventLog a) || (inDramB a && s.powered 8) then { s with ram := s.ram.put a b } else s) (a + 1) r

/-- A thread's context. -/
def State.thr (s : State) (t : BitVec 7) : Thr := Sparse.get (fun _ => {}) s.dsp.thrs t.toNat
def State.setThr (s : State) (t : BitVec 7) (x : Thr) : State :=
  { s with dsp := { s.dsp with thrs := Sparse.put (fun _ => {}) s.dsp.thrs t.toNat x } }

/-- The threads that wait in a level. -/
def State.waiting (s : State) (p : Nat) : List (BitVec 7) := Sparse.get (fun _ => []) s.dsp.waits p
def State.setWaiting (s : State) (p : Nat) (l : List (BitVec 7)) : State :=
  { s with dsp := { s.dsp with waits := Sparse.put (fun _ => []) s.dsp.waits p l } }

/-- A thread leaves the level it waits in. -/
def State.unwait (s : State) (t : BitVec 7) : State :=
  { s with dsp := { s.dsp with waits := s.dsp.waits.filterMap fun e =>
      let l := e.2.filter fun u => u != t
      if l.isEmpty then none else some (e.1, l) } }

/-- A thread waits at the tail, or at the head, of its level (R647, R649). -/
def State.waitTail (s : State) (t : BitVec 7) : State :=
  let p := (s.thr t).prio.toNat
  s.setWaiting p (s.waiting p ++ [t])
def State.waitHead (s : State) (t : BitVec 7) : State :=
  let p := (s.thr t).prio.toNat
  s.setWaiting p (t :: s.waiting p)

/-- The thread that DSP_NEXT[c] and DSP_CUR[c] name. -/
def namedIn (w : Word) : Option (BitVec 7) := if w.getLsbD 31 then some (w.setWidth 7) else none
def namedWord (t : Option (BitVec 7)) : Word := match t with | some x => bitIf true 31 ||| x.setWidth 32 | none => 0
def State.nextThr (s : State) (c : Nat) : Option (BitVec 7) := namedIn (s.rd (Reg.DSP_NEXT c))
def State.curThr (s : State) (c : Nat) : Option (BitVec 7) := namedIn (s.rd (Reg.DSP_CUR c))

/-- The core whose DSP_CUR, or whose DSP_NEXT, names a thread. -/
def State.curCore (s : State) (t : BitVec 7) : Option Nat := (List.range 8).find? fun c => s.curThr c == some t
def State.nextCore (s : State) (t : BitVec 7) : Option Nat := (List.range 8).find? fun c => s.nextThr c == some t

/-- Tracing is on; sizes of 1 to 15 act as 0 (R651, DSP_TR_SIZE). -/
def State.tracing (s : State) : Bool := decide (16 ≤ s.field Reg.DSP_TR_SIZE 0 16)

/-- The ring's head and tail (DSP_TR_PTR), and the address of a slot. -/
def State.trHead (s : State) : Nat := s.field Reg.DSP_TR_PTR 16 16
def State.trTail (s : State) : Nat := s.field Reg.DSP_TR_PTR 0 16
def State.trSlot (s : State) (i : Nat) : Nat :=
  s.rdNat Reg.DSP_TR_BASE_LO / 8 * 8 + 0x100000000 * s.field Reg.DSP_TR_BASE_HI 0 2 + 8 * i

/-- Is there room for one more record? (R651) -/
def State.trRoom (s : State) : Bool := (s.trHead + 1) % s.field Reg.DSP_TR_SIZE 0 16 != s.trTail

/-- A record goes into the ring (R651). -/
def State.trPut (s : State) (v : BitVec 64) : State :=
  let h := s.trHead
  (s.busWrite (s.trSlot h) (natBytes 8 v.toNat)).setField Reg.DSP_TR_PTR 16 16 ((h + 1) % s.field Reg.DSP_TR_SIZE 0 16)

/-- A record that finds the ring full is lost (R651). -/
def State.trLose (s : State) : State :=
  let s1 := { s with dsp := { s.dsp with lost := satInc s.dsp.lost 0x1FFFFFF } }
  (s1.bump Reg.DSP_TR_LOST).setBit Reg.DSP_EVT 2

/-- A record of the trace, after a LOST record where records were lost (R651). -/
def State.trRecord (s : State) (v : BitVec 64) : State :=
  if s.tracing = false then s
  else if s.trRoom = false then s.trLose
  else if s.dsp.lost = 0 then s.trPut v
  else
    let w := BitVec.ofNat 64 ((s.now.toNat % 2 ^ 32) * 2 ^ 32 + 15 * 2 ^ 28 + s.dsp.lost)
    let s1 := { s.trPut w with dsp := { s.dsp with lost := 0 } }
    if s1.trRoom then s1.trPut v else s1.trLose

/-- A trace record of a decision. Where it concerns no thread, or there is no displaced or previous one, those bits are
a free value (R651). -/
def State.trace (s : State) (kind core : Nat) (t t2 : Option (BitVec 7)) : State :=
  if s.tracing = false then s
  else
    let f := s.fresh.toNat
    let tid := match t with | some x => x.toNat | none => f % 128
    let prio := match t with | some x => (s.thr x).prio.toNat | none => f / 128 % 32
    let tid2 := match t2 with | some x => x.toNat | none => f / 4096 % 128
    s.tick1.trRecord (BitVec.ofNat 64 ((s.now.toNat % 2 ^ 32) * 2 ^ 32 + kind * 2 ^ 28 + core * 2 ^ 25 + tid * 2 ^ 18 +
      prio * 2 ^ 13 + tid2 * 2 ^ 6 + (if t2.isSome then 2 ^ 5 else 0)))

/-- A thread that DSP_NEXT[c] and DSP_CUR[c] both name runs on (R647, R649). -/
def State.runsOn (s : State) (c : Nat) (t : Option (BitVec 7)) : State :=
  match t with
  | some x => if s.curThr c = some x then s.setThr x { s.thr x with st := .running } else s
  | none => s

/-- DSP_NEXT[c] takes a value; a change of it is traced (R647, R648, R651). `kind`: NEXT set or displaced. -/
def State.setNext (s : State) (c : Nat) (t : Option (BitVec 7)) (kind : Nat) : State :=
  if s.nextThr c = t then s.runsOn c t
  else ((s.wr (Reg.DSP_NEXT c) (namedWord t)).trace kind c t (s.nextThr c)).runsOn c t

/-- Is a core halted by the debug module? (R638) -/
def State.haltedCore (s : State) (c : Nat) : Bool := s.dsp.halted.getLsbD c

/-- The level of a core, none when it is idle. -/
def State.level (s : State) (c : Nat) : Option Nat := (s.nextThr c).map fun t => (s.thr t).prio.toNat

/-- Cores on which a thread may be placed: those of its AFFINITY that the debug module has not halted, and only its own
core while a DSP_CUR names it (R638, R649). -/
def State.coresFor (s : State) (t : BitVec 7) : List Nat :=
  (List.range 8).filter fun c => (s.thr t).affinity.getLsbD c && !s.haltedCore c &&
    (match s.curCore t with | some k => k == c | none => true)

/-- The core with the lowest level below `p`, the lowest-numbered among equals (R647, step 3). -/
def State.lowestBelow (s : State) (p : Nat) (l : List Nat) : Option Nat :=
  l.foldl (fun (m : Option Nat) c =>
    match s.level c, m with
    | some x, none => if x < p then some c else none
    | some x, some k => if x < (s.level k).getD 0 then some c else some k
    | none, _ => m) none

/-- The core that the steps of R647 choose, none where the thread waits. -/
def State.chooseCore (s : State) (t : BitVec 7) : Option Nat :=
  let p := (s.thr t).prio.toNat
  let l := s.coresFor t
  let open_ := fun (c : Nat) => match s.level c with | some x => decide (x < p) | none => true
  match (s.thr t).last with
  | some k => if l.contains k.val && open_ k.val then some k.val
    else match l.find? fun c => (s.level c).isNone with
      | some c => some c
      | none => s.lowestBelow p l
  | none => match l.find? fun c => (s.level c).isNone with
    | some c => some c
    | none => s.lowestBelow p l

/-- A READY thread is placed; what it displaces is placed again unless DSP_CUR names it. Each displaced thread has a
lower priority, so 32 rounds are enough (R647). `head`: it waits at the head of its level, not at the tail. -/
def State.placeIn (s : State) (fuel : Nat) (t : BitVec 7) (head : Bool) : State :=
  match fuel with
  | 0 => s
  | fuel + 1 =>
    match s.chooseCore t with
    | none => if head then s.waitHead t else s.waitTail t
    | some c =>
      match s.nextThr c with
      | none => s.setNext c (some t) 2
      | some old =>
        let s1 := s.setNext c (some t) 4
        if s1.curThr c = some old then s1
        else (s1.setThr old { s1.thr old with st := .ready }).placeIn fuel old true

def State.place (s : State) (t : BitVec 7) (head : Bool) : State := s.placeIn 33 t head

/-- The thread a freed core takes: the head of the highest level among those it may run (R648). -/
def State.takeFor (s : State) (c : Nat) : Option (BitVec 7) :=
  if s.haltedCore c then none
  else ((List.range 32).reverse.map fun p => (s.waiting p).find? fun t => (s.coresFor t).contains c).findSome? id

/-- A core is freed (R648). -/
def State.freeCore (s : State) (c : Nat) : State :=
  match s.takeFor c with
  | some t => (s.unwait t).setNext c (some t) 2
  | none => s.setNext c none 2

/-- The result of a command (DSP_RES); a refusal sets CMD_REFUSED and is traced (R646, R651). -/
def State.dspRefuse (s : State) (c code : Nat) (t : BitVec 7) : State :=
  ((s.wr (Reg.DSP_RES c) (BitVec.ofNat 32 code)).setBit Reg.DSP_EVT 1).trace 10 c (some t) none

def State.dspDone (s : State) (c : Nat) : State := s.wr (Reg.DSP_RES c) 0

/-- CREATE (R644). -/
def State.thrCreate (s : State) (c : Nat) (t : BitVec 7) (prio : BitVec 5) (aff : BitVec 8) : State :=
  if (s.thr t).st ≠ .free then s.dspRefuse c 2 t
  else if aff = 0 then s.dspRefuse c 3 t
  else ((s.dspDone c).setThr t { st := .blocked, prio := prio, affinity := aff }).trace 8 c (some t) none

/-- READY (R644, R647). -/
def State.thrReady (s : State) (c : Nat) (t : BitVec 7) : State :=
  if (s.thr t).st ≠ .blocked then s.dspRefuse c 2 t
  else (((s.dspDone c).setThr t { s.thr t with st := .ready }).trace 1 c (some t) none).place t false

/-- BLOCK (R644, R648). -/
def State.thrBlock (s : State) (c : Nat) (t : BitVec 7) : State :=
  if (s.thr t).st ≠ .ready ∧ (s.thr t).st ≠ .running then s.dspRefuse c 2 t
  else
    let s1 := (((s.dspDone c).unwait t).setThr t { s.thr t with st := .blocked }).trace 5 c (some t) none
    match s1.nextCore t with
    | some k => s1.freeCore k
    | none => s1

/-- YIELD (R644, R648). -/
def State.thrYield (s : State) (c : Nat) (given : BitVec 7) : State :=
  match s.curThr c with
  | none => s.dspRefuse c 2 given
  | some t =>
    if (s.thr t).st ≠ .running then s.dspRefuse c 2 t
    else
      let s1 := (((s.dspDone c).setThr t { s.thr t with st := .ready }).waitTail t).trace 6 c (some t) none
      if s1.nextThr c = some t then s1.freeCore c else s1

/-- PRIO (R644, R647): a thread that a DSP_NEXT names without running there gives that core up and is placed again;
one that runs there finds its own core first. DEDUCED: log entry 85. -/
def State.thrPrio (s : State) (c : Nat) (t : BitVec 7) (prio : BitVec 5) : State :=
  if (s.thr t).st = .free then s.dspRefuse c 2 t
  else
    let queued := s.dsp.waits.any fun e => e.2.contains t
    let s1 := (((s.dspDone c).unwait t).setThr t { s.thr t with prio := prio }).trace 7 c (some t) none
    match s1.nextCore t with
    | some k =>
      if (s1.thr t).st = .running ∨ s1.haltedCore k then s1
      else if (s1.wr (Reg.DSP_NEXT k) 0).chooseCore t = some k then s1
      else
        let s2 := (s1.setNext k none 2).place t false
        if (s2.nextThr k).isNone then s2.freeCore k else s2
    | none => if queued then s1.waitTail t else s1

/-- AFFINITY (R644). -/
def State.thrAffinity (s : State) (c : Nat) (t : BitVec 7) (aff : BitVec 8) : State :=
  if (s.thr t).st = .free then s.dspRefuse c 2 t
  else if aff = 0 then s.dspRefuse c 3 t
  else ((s.dspDone c).setThr t { s.thr t with affinity := aff }).trace 7 c (some t) none

/-- DELETE (R644). -/
def State.thrDelete (s : State) (c : Nat) (t : BitVec 7) : State :=
  if (s.thr t).st ≠ .blocked then s.dspRefuse c 2 t
  else ((s.dspDone c).setThr t { s.thr t with st := .free }).trace 9 c (some t) none

/-- ACK: core `c` has switched (R646, R649, R650). -/
def State.thrAck (s : State) (c : Nat) (t : BitVec 7) (idle : Bool) : State :=
  let want : Option (BitVec 7) := if idle then none else some t
  if s.nextThr c ≠ want then s.dspRefuse c 4 t
  else
    let old := s.curThr c
    let s1 := (s.dspDone c).wr (Reg.DSP_CUR c) (namedWord want)
    let s2 := match want with
      | some x => s1.setThr x { s1.thr x with st := .running, last := some (BitVec.ofNat 3 c).toFin }
      | none => s1
    let s3 := s2.trace 3 c want old
    match old with
    | some o =>
      if some o ≠ want ∧ (s3.thr o).st = .running then (s3.setThr o { s3.thr o with st := .ready }).place o true else s3
    | none => s3

/-- A write to DSP_CMD[c] (R644 to R646, DSP_CMD). -/
def State.dspCmd (s : State) (c : Nat) (v : Word) : State :=
  let t := BitVec.ofNat 7 (fieldOf v 21 7)
  let prio := BitVec.ofNat 5 (fieldOf v 16 5)
  let aff := BitVec.ofNat 8 (fieldOf v 8 8)
  match fieldOf v 28 4 with
  | 1 => s.thrCreate c t prio aff
  | 2 => s.thrReady c t
  | 3 => s.thrBlock c t
  | 4 => s.thrYield c t
  | 5 => s.thrPrio c t prio
  | 6 => s.thrAffinity c t aff
  | 7 => s.thrDelete c t
  | 8 => s.thrAck c t (v.getLsbD 0)
  | _ => s.dspRefuse c 1 t

/-- The word of a DSP_CMD. -/
def dspWord (op : Nat) (t : BitVec 7) (prio : BitVec 5) (aff : BitVec 8) (idle : Bool) : Word :=
  putField op 28 ||| putField t.toNat 21 ||| putField prio.toNat 16 ||| putField aff.toNat 8 ||| bitIf idle 0

end Sys2Proof.Machine
end

