-- ==== Sys2Proof/Machine/Sha.lean ====
section
/-! DEFINITION. SHA-256 and SHA-512 (FIPS 180-4) and HMAC-SHA-256 (RFC 2104), which R611 and R528 name. -/

namespace Sys2Proof.Machine

/-- Round constants of SHA-256: the first 32 bits of the fractions of the cube roots of the first 64 primes. -/
def sha256K0 : List (BitVec 32) := [
  0x428A2F98, 0x71374491, 0xB5C0FBCF, 0xE9B5DBA5, 0x3956C25B, 0x59F111F1, 0x923F82A4, 0xAB1C5ED5,
  0xD807AA98, 0x12835B01, 0x243185BE, 0x550C7DC3, 0x72BE5D74, 0x80DEB1FE, 0x9BDC06A7, 0xC19BF174]
def sha256K1 : List (BitVec 32) := [
  0xE49B69C1, 0xEFBE4786, 0x0FC19DC6, 0x240CA1CC, 0x2DE92C6F, 0x4A7484AA, 0x5CB0A9DC, 0x76F988DA,
  0x983E5152, 0xA831C66D, 0xB00327C8, 0xBF597FC7, 0xC6E00BF3, 0xD5A79147, 0x06CA6351, 0x14292967]
def sha256K2 : List (BitVec 32) := [
  0x27B70A85, 0x2E1B2138, 0x4D2C6DFC, 0x53380D13, 0x650A7354, 0x766A0ABB, 0x81C2C92E, 0x92722C85,
  0xA2BFE8A1, 0xA81A664B, 0xC24B8B70, 0xC76C51A3, 0xD192E819, 0xD6990624, 0xF40E3585, 0x106AA070]
def sha256K3 : List (BitVec 32) := [
  0x19A4C116, 0x1E376C08, 0x2748774C, 0x34B0BCB5, 0x391C0CB3, 0x4ED8AA4A, 0x5B9CCA4F, 0x682E6FF3,
  0x748F82EE, 0x78A5636F, 0x84C87814, 0x8CC70208, 0x90BEFFFA, 0xA4506CEB, 0xBEF9A3F7, 0xC67178F2]
def sha256K : List (BitVec 32) := sha256K0 ++ sha256K1 ++ sha256K2 ++ sha256K3

/-- Round constants of SHA-512: the first 64 bits of the fractions of the cube roots of the first 80 primes. -/
def sha512K0 : List (BitVec 64) := [
  0x428A2F98D728AE22, 0x7137449123EF65CD, 0xB5C0FBCFEC4D3B2F, 0xE9B5DBA58189DBBC,
  0x3956C25BF348B538, 0x59F111F1B605D019, 0x923F82A4AF194F9B, 0xAB1C5ED5DA6D8118,
  0xD807AA98A3030242, 0x12835B0145706FBE, 0x243185BE4EE4B28C, 0x550C7DC3D5FFB4E2,
  0x72BE5D74F27B896F, 0x80DEB1FE3B1696B1, 0x9BDC06A725C71235, 0xC19BF174CF692694]
def sha512K1 : List (BitVec 64) := [
  0xE49B69C19EF14AD2, 0xEFBE4786384F25E3, 0x0FC19DC68B8CD5B5, 0x240CA1CC77AC9C65,
  0x2DE92C6F592B0275, 0x4A7484AA6EA6E483, 0x5CB0A9DCBD41FBD4, 0x76F988DA831153B5,
  0x983E5152EE66DFAB, 0xA831C66D2DB43210, 0xB00327C898FB213F, 0xBF597FC7BEEF0EE4,
  0xC6E00BF33DA88FC2, 0xD5A79147930AA725, 0x06CA6351E003826F, 0x142929670A0E6E70]
def sha512K2 : List (BitVec 64) := [
  0x27B70A8546D22FFC, 0x2E1B21385C26C926, 0x4D2C6DFC5AC42AED, 0x53380D139D95B3DF,
  0x650A73548BAF63DE, 0x766A0ABB3C77B2A8, 0x81C2C92E47EDAEE6, 0x92722C851482353B,
  0xA2BFE8A14CF10364, 0xA81A664BBC423001, 0xC24B8B70D0F89791, 0xC76C51A30654BE30,
  0xD192E819D6EF5218, 0xD69906245565A910, 0xF40E35855771202A, 0x106AA07032BBD1B8]
def sha512K3 : List (BitVec 64) := [
  0x19A4C116B8D2D0C8, 0x1E376C085141AB53, 0x2748774CDF8EEB99, 0x34B0BCB5E19B48A8,
  0x391C0CB3C5C95A63, 0x4ED8AA4AE3418ACB, 0x5B9CCA4F7763E373, 0x682E6FF3D6B2B8A3,
  0x748F82EE5DEFB2FC, 0x78A5636F43172F60, 0x84C87814A1F0AB72, 0x8CC702081A6439EC,
  0x90BEFFFA23631E28, 0xA4506CEBDE82BDE9, 0xBEF9A3F7B2C67915, 0xC67178F2E372532B]
def sha512K4 : List (BitVec 64) := [
  0xCA273ECEEA26619C, 0xD186B8C721C0C207, 0xEADA7DD6CDE0EB1E, 0xF57D4F7FEE6ED178,
  0x06F067AA72176FBA, 0x0A637DC5A2C898A6, 0x113F9804BEF90DAE, 0x1B710B35131C471B,
  0x28DB77F523047D84, 0x32CAAB7B40C72493, 0x3C9EBE0A15C9BEBC, 0x431D67C49C100D4C,
  0x4CC5D4BECB3E42B6, 0x597F299CFC657E2A, 0x5FCB6FAB3AD6FAEC, 0x6C44198C4A475817]
def sha512K : List (BitVec 64) := sha512K0 ++ sha512K1 ++ sha512K2 ++ sha512K3 ++ sha512K4

/-- What SHA-256 and SHA-512 differ in: round constants, first hash value, the rotations of Σ0 and Σ1 and those of σ0 and
σ1, whose third amount is a shift. -/
structure ShaKind (w : Nat) where
  ks : List (BitVec w)
  start : List (BitVec w)
  sum0 : Nat × Nat × Nat
  sum1 : Nat × Nat × Nat
  sig0 : Nat × Nat × Nat
  sig1 : Nat × Nat × Nat

def sha256Kind : ShaKind 32 :=
  { ks := sha256K
    start := [0x6A09E667, 0xBB67AE85, 0x3C6EF372, 0xA54FF53A, 0x510E527F, 0x9B05688C, 0x1F83D9AB, 0x5BE0CD19]
    sum0 := (2, 13, 22), sum1 := (6, 11, 25), sig0 := (7, 18, 3), sig1 := (17, 19, 10) }

def sha512Kind : ShaKind 64 :=
  { ks := sha512K
    start := [0x6A09E667F3BCC908, 0xBB67AE8584CAA73B, 0x3C6EF372FE94F82B, 0xA54FF53A5F1D36F1,
      0x510E527FADE682D1, 0x9B05688C2B3E6C1F, 0x1F83D9ABFB41BD6B, 0x5BE0CD19137E2179]
    sum0 := (28, 34, 39), sum1 := (14, 18, 41), sig0 := (1, 8, 7), sig1 := (19, 61, 6) }

/-- Σ: three rotations; σ: two rotations and a shift. -/
def shaSum {w : Nat} (r : Nat × Nat × Nat) (x : BitVec w) : BitVec w :=
  x.rotateRight r.1 ^^^ x.rotateRight r.2.1 ^^^ x.rotateRight r.2.2
def shaSig {w : Nat} (r : Nat × Nat × Nat) (x : BitVec w) : BitVec w :=
  x.rotateRight r.1 ^^^ x.rotateRight r.2.1 ^^^ (x >>> r.2.2)

/-- The message schedule, newest word first, `n` words longer. -/
def shaExtend {w : Nat} (k : ShaKind w) (n : Nat) (l : List (BitVec w)) : List (BitVec w) :=
  match n with
  | 0 => l
  | n + 1 => shaExtend k n ((shaSig k.sig1 (l.getD 1 0) + l.getD 6 0 + shaSig k.sig0 (l.getD 14 0) + l.getD 15 0) :: l)

/-- One round on the eight working words, with a round constant and a word of the schedule. -/
def shaRound {w : Nat} (k : ShaKind w) (v : List (BitVec w)) (c x : BitVec w) : List (BitVec w) :=
  match v with
  | [a, b, c0, d, e, f, g, h] =>
    let t1 := h + shaSum k.sum1 e + ((e &&& f) ^^^ (~~~ e &&& g)) + c + x
    let t2 := shaSum k.sum0 a + ((a &&& b) ^^^ (a &&& c0) ^^^ (b &&& c0))
    [t1 + t2, a, b, c0, d + t1, e, f, g]
  | _ => v

/-- A block of 16 words enters the hash value. -/
def shaBlock {w : Nat} (k : ShaKind w) (v block : List (BitVec w)) : List (BitVec w) :=
  let sched := (shaExtend k (k.ks.length - 16) block.reverse).reverse
  let u := (k.ks.zip sched).foldl (fun (u : List (BitVec w)) e => shaRound k u e.1 e.2) v
  v.zipWith (· + ·) u

/-- A message with its padding: a 1 bit, zeros, and its length in bits in the last `n` bytes of a block of `m`. -/
def shaPad (l : List Byte) (m n : Nat) : List Byte :=
  l ++ [0x80] ++ List.replicate ((m - (l.length + 1 + n) % m) % m) 0 ++ beBytes n (8 * l.length)

/-- `n` words of `w` bits from bytes, big-endian. -/
def beWords (w : Nat) (n : Nat) (l : List Byte) : List (BitVec w) :=
  match n with
  | 0 => []
  | n + 1 => BitVec.ofNat w (beNat (l.take (w / 8))) :: beWords w n (l.drop (w / 8))

/-- `n` blocks of 16 words, one after another. -/
def shaBlocks {w : Nat} (k : ShaKind w) (n : Nat) (l : List Byte) (v : List (BitVec w)) : List (BitVec w) :=
  match n with
  | 0 => v
  | n + 1 => shaBlocks k n (l.drop (2 * w)) (shaBlock k v (beWords w 16 l))

/-- The hash of a message. -/
def shaHash {w : Nat} (k : ShaKind w) (l : List Byte) : List Byte :=
  let p := shaPad l (2 * w) (w / 4)
  ((shaBlocks k (p.length / (2 * w)) p k.start).map fun x => beBytes (w / 8) x.toNat).flatten
def sha256 (l : List Byte) : List Byte := shaHash sha256Kind l
def sha512 (l : List Byte) : List Byte := shaHash sha512Kind l

/-- HMAC-SHA-256 of a message under a key (RFC 2104). -/
def hmacSha256 (key l : List Byte) : List Byte :=
  let k0 := if 64 < key.length then sha256 key else key
  let k := k0 ++ List.replicate (64 - k0.length) 0
  sha256 ((k.map fun b => b ^^^ 0x5C) ++ sha256 ((k.map fun b => b ^^^ 0x36) ++ l))

end Sys2Proof.Machine
end

