-- ==== Sys2Proof/Machine/Ed25519.lean ====
section
/-! DEFINITION. Verification of a pure Ed25519 signature (RFC 8032, sections 5.1.2 to 5.1.7), which R528 and R538 name.
The RFC lets an implementation check its group equation with or without the cofactor: `Config.edStrict`. -/

namespace Sys2Proof.Machine

/-- The field prime, the order of the base point, and the curve constant d = -121665/121666. -/
def edP : Nat := 2 ^ 255 - 19
def edL : Nat := 2 ^ 252 + 27742317777372353535851937790883648493

/-- x to the power e modulo p, over the bits of e below bit n. -/
def edPow (x e n : Nat) : Nat :=
  match n with
  | 0 => 1
  | n + 1 =>
    let h := edPow (x * x % edP) (e / 2) n
    if e % 2 = 1 then x * h % edP else h

def edInv (x : Nat) : Nat := edPow x (edP - 2) 255
def edD : Nat := (edP - 121665) * edInv 121666 % edP

/-- A point in extended coordinates: X, Y, Z and T = XY/Z. -/
structure EdPoint where
  x : Nat
  y : Nat
  z : Nat
  t : Nat
  deriving DecidableEq, Repr

def edZero : EdPoint := { x := 0, y := 1, z := 1, t := 0 }

/-- A difference modulo p. -/
def edSub (a b : Nat) : Nat := (a + edP - b % edP) % edP

/-- The sum of two points (RFC 8032, 5.1.4). -/
def EdPoint.add (p q : EdPoint) : EdPoint :=
  let a := edSub p.y p.x * edSub q.y q.x % edP
  let b := (p.y + p.x) * (q.y + q.x) % edP
  let c := 2 * edD * p.t % edP * q.t % edP
  let d := 2 * p.z * q.z % edP
  let e := edSub b a
  let f := edSub d c
  let g := d + c
  let h := b + a
  { x := e * f % edP, y := g * h % edP, z := f * g % edP, t := e * h % edP }

/-- A multiple of a point, over the bits of the factor below bit n. -/
def EdPoint.mul (p : EdPoint) (k n : Nat) : EdPoint :=
  match n with
  | 0 => edZero
  | n + 1 =>
    let h := (p.add p).mul (k / 2) n
    if k % 2 = 1 then p.add h else h

/-- Two points are the same. -/
def EdPoint.same (p q : EdPoint) : Bool := p.x * q.z % edP == q.x * p.z % edP && p.y * q.z % edP == q.y * p.z % edP

/-- The point that 32 bytes encode, if any (RFC 8032, 5.1.3). -/
def edDecode (l : List Byte) : Option EdPoint :=
  let v := leNat l
  let y := v % 2 ^ 255
  let sign := v / 2 ^ 255 % 2
  if edP ≤ y then none
  else
    let u := edSub (y * y) 1
    let w := (edD * (y * y % edP) + 1) % edP
    let w3 := w * w % edP * w % edP
    let r := u * w3 % edP * edPow (u * (w3 * w3 % edP * w % edP) % edP) ((edP - 5) / 8) 255 % edP
    let x :=
      if w * (r * r % edP) % edP = u then some r
      else if w * (r * r % edP) % edP = edSub 0 u then some (r * edPow 2 ((edP - 1) / 4) 255 % edP)
      else none
    match x with
    | none => none
    | some x =>
      if x = 0 ∧ sign = 1 then none
      else
        let x1 := if x % 2 = sign then x else edP - x
        some { x := x1, y := y, z := 1, t := x1 * y % edP }

/-- The base point: y = 4/5, x even. -/
def edBase : EdPoint := (edDecode (natBytes 32 (4 * edInv 5 % edP))).getD edZero

/-- Does a 64-byte signature of a message verify under a 32-byte key? (RFC 8032, 5.1.7). DESIGN CHOICE: log entry 71.
-/
def edVerify (m sig key : List Byte) : Bool :=
  let sNum := leNat (sig.drop 32)
  match edDecode key, edDecode (sig.take 32) with
  | some a, some r =>
    let k := leNat (sha512 (sig.take 32 ++ key ++ m)) % edL
    let f := if Config.edStrict then 1 else 8
    decide (key.length = 32 ∧ sig.length = 64 ∧ sNum < edL) &&
      ((edBase.mul sNum 256).mul f 4).same (((r.add (a.mul k 256))).mul f 4)
  | _, _ => false

end Sys2Proof.Machine
end

