-- ==== Sys2Proof/Machine/ArmSelect.lean ====
section
/-! DEFINITION. Ranking, selection, the pulsing cell and edge placement of an arm engine, as functions of its cell table
(R207 to R230). -/

namespace Sys2Proof.Machine

/-- Puts an element before the first that it precedes. -/
def orderedInsert {α : Type} (le : α → α → Bool) (x : α) (l : List α) : List α :=
  match l with
  | [] => [x]
  | y :: r => if le x y then x :: y :: r else y :: orderedInsert le x r

/-- Sorting by insertion; equal elements keep their order. -/
def orderedSort {α : Type} (le : α → α → Bool) (l : List α) : List α :=
  match l with
  | [] => []
  | x :: r => orderedInsert le x (orderedSort le r)

/-- A list with the index of each element. -/
def indexed {α : Type} (i : Nat) (l : List α) : List (Nat × α) :=
  match l with
  | [] => []
  | x :: r => (i, x) :: indexed (i + 1) r

/-- The stored voltage of a cell passes its pair check (R48, R49). -/
def Cell.vOk (c : Cell) : Bool := pairOk c.v c.vC

/-- The cells not OUT in ascending rank: by V, then by index (R211). A cell whose stored voltage fails its pair check has none
(R49, R50). -/
def rankCells (cells : List Cell) : List Nat :=
  ((orderedSort (fun (a b : Nat × Cell) => decide (a.2.v.toNat < b.2.v.toNat) ||
      (decide (a.2.v.toNat = b.2.v.toNat) && decide (a.1 ≤ b.1)))
    ((indexed 0 cells).filter fun e => e.2.out == 0 && e.2.vOk))).map (·.1)

/-- The cell of an index; cells past the end read as default. -/
def cellAt (cells : List Cell) (i : Nat) : Cell := cells.getD i {}

/-- The pool in ranked order (R212); the pair of each voltage is checked as it is read (R49). -/
def poolOf (cells : List Cell) (rank : List Nat) (neg : Bool) : List Nat :=
  rank.filter fun i => (cellAt cells i).vOk && (!neg || (cellAt cells i).fb)

/-- Sum of the voltages of the pool. -/
def sumV (cells : List Cell) (pool : List Nat) : Nat :=
  pool.foldl (fun a i => a + (cellAt cells i).v.toNat) 0

/-- Largest minus smallest voltage of a pool in ranked order (R218). -/
def spreadOf (cells : List Cell) (pool : List Nat) : Nat :=
  match pool.head?, pool.getLast? with
  | some lo, some hi => (cellAt cells hi).v.toNat - (cellAt cells lo).v.toNat
  | _, _ => 0

/-- Hot and not released: |V − V_mean| ≤ HOT_RELEASE (R207). -/
def isHot (par : AeParams) (cells : List Cell) (pool : List Nat) (i : Nat) : Bool :=
  let c := cellAt cells i
  let n := pool.length
  let dev : Int := (c.v.toNat * n : Nat) - (sumV cells pool : Int)
  c.hot && decide (dev.natAbs ≤ par.hotRelease * n)

/-- Priority 1 to 4 of the add and remove orders (R214). -/
def prioOf (par : AeParams) (hot : Bool) (c : Cell) : Nat :=
  if par.dwellMin ≤ c.dwell then (if hot then 2 else 1) else (if hot then 4 else 3)

/-- Candidates by priority, and within a priority in the given order of the list (R214). -/
def byPriority (prio : Nat → Nat) (l : List Nat) : List Nat :=
  l.filter (fun i => prio i == 1) ++ l.filter (fun i => prio i == 2) ++
    l.filter (fun i => prio i == 3) ++ l.filter (fun i => prio i == 4)

/-- The end states with one cell's state replaced. -/
def setState (st : List (BitVec 2)) (i : Nat) (v : BitVec 2) : List (BitVec 2) := st.set i v

def stateAt (st : List (BitVec 2)) (i : Nat) : BitVec 2 := st.getD i 0

/-- Step 1: forced removals, and cells of state 00 taken to 01 (R213). -/
def forcedState (ins : BitVec 2) (neg : Bool) (c : Cell) : BitVec 2 :=
  if c.out ≠ 0 then 1
  else if c.prev = 0 then 1
  else if c.prev = 2 ∨ c.prev = 3 then (if c.prev = ins ∧ (c.fb ∨ !neg) then c.prev else 1)
  else c.prev

/-- Step 4: exchanges of the first pairs while the difference exceeds the band (R216, R217). -/
def swapPairs (cells : List Cell) (charging : Bool) (bEff : Nat) (ins : BitVec 2) (k : Nat) (ws bs : List Nat)
    (st : List (BitVec 2)) : List (BitVec 2) :=
  match k, ws, bs with
  | k + 1, w :: ws, b :: bs =>
    let vw := (cellAt cells w).v.toNat
    let vb := (cellAt cells b).v.toNat
    let ok := if charging then decide (vb + bEff < vw) else decide (vw + bEff < vb)
    if ok then swapPairs cells charging bEff ins k ws bs (setState (setState st w 1) b ins) else st
  | _, _, _ => st

/-- The width of the pulse from its raw width; the rows are tried in the table's order, so that a w_raw between W_MAX and a larger
MIN_PULSE gives MIN_PULSE (R221). DEDUCED: log entry 141. -/
def pulseWidth (par : AeParams) (wMax wRaw : Nat) : Nat :=
  if 2 * wRaw < par.minPulse then 0
  else if wRaw < par.minPulse then par.minPulse
  else if wRaw ≤ wMax then wRaw else wMax

/-- W_MAX of R221 for a period of `p` ticks. -/
def wMaxOf (par : AeParams) (dMin dMax p : Nat) : Nat :=
  4 * p - max par.minPulse (2 * (dMax - dMin) + 2)

/-- The raw width of R221. -/
def wRawOf (frac p : Nat) : Nat := (frac * (4 * p) + 32768) / 65536

/-- What the selection stage reports beside its command set. -/
structure SelInfo where
  sel : Sel
  /-- changes of step 3 taken from priority 3 or 4 (R215) -/
  dwellChanges : Nat
  levelShort : Bool
  /-- w differed from w_raw (R222) -/
  clamp : Bool
  /-- a positive fraction gave no pulse width (R222) -/
  zeroWidth : Bool
  /-- no cell qualified as pulsing cell (R224) -/
  noCell : Bool
  pool : Nat
  spread : Nat
  deriving DecidableEq, Repr

/-- Selection, steps 1 to 5 of R213. `lam` is λ in units of 1/65,536, `p` the length of the period the set is for. -/
def selectSet (par : AeParams) (cells : List Cell) (rank : List Nat) (lam : Int) (charging : Bool)
    (band dMin dMax p : Nat) : SelInfo :=
  let neg := decide (lam < 0)
  let ins : BitVec 2 := if neg then 3 else 2
  let n := lam.natAbs / 65536
  let frac := lam.natAbs % 65536
  let pool := poolOf cells rank neg
  let spread := spreadOf cells pool
  let bEff := if par.spreadLim < spread then par.bMin else band
  let hotI := fun i => isHot par cells pool i
  let prio := fun i => prioOf par (hotI i) (cellAt cells i)
  let st1 := cells.map (forcedState ins neg)
  let changed1 := fun i => (cellAt cells i).prev ≠ stateAt st1 i
  let inserted := pool.filter fun i => (cellAt cells i).prev == ins
  let bypassed := pool.filter fun i => stateAt st1 i == 1
  let nPrev := inserted.length
  let addOrder := fun l => byPriority prio (if charging then l else l.reverse)
  let remOrder := fun l => byPriority prio (if charging then l.reverse else l)
  let adds := if nPrev < n then (addOrder bypassed).take (n - nPrev) else []
  let rems := if n < nPrev then (remOrder inserted).take (nPrev - n) else []
  let st3 := rems.foldl (fun st i => setState st i 1) (adds.foldl (fun st i => setState st i ins) st1)
  let changed3 := fun i => changed1 i ∨ i ∈ adds ∨ i ∈ rems
  let ws := remOrder (inserted.filter fun i => prio i == 1 && !decide (changed3 i))
  let bs := addOrder (bypassed.filter fun i => prio i == 1 && !decide (changed3 i))
  let st4 := swapPairs cells charging bEff ins par.swapMax ws bs st3
  let wRaw := wRawOf frac p
  let w := pulseWidth par (wMaxOf par dMin dMax p) wRaw
  let cand := (if charging then pool else pool.reverse).filter fun i =>
    let c := cellAt cells i
    (c.prev == 1 || c.prev == 0) && !hotI i && stateAt st4 i == 1
  { sel := { states := st4, neg := neg, pulse := if w = 0 then none else cand.head?.map fun i => (i, w) }
    dwellChanges := ((adds ++ rems).filter fun i => decide (3 ≤ prio i)).length
    levelShort := decide (pool.length < n)
    clamp := decide (w ≠ wRaw)
    zeroWidth := decide (0 < frac) && decide (w = 0)
    noCell := decide (0 < w) && cand.isEmpty
    pool := pool.length
    spread := spread }

/-- A command word of a state and an offset in quarter ticks (R131). -/
def cmdWord (st : BitVec 2) (off : Nat) : BitVec 16 := BitVec.ofNat 16 (st.toNat * 16384 + off % 16384)

/-- A paired entry (R130). -/
def paired (w : BitVec 16) : BitVec 16 × BitVec 16 := (w, ~~~ w)

/-- The state and the offset of a command word (R131). -/
def cmdState (w : BitVec 16) : BitVec 2 := BitVec.ofNat 2 (w.toNat / 16384)
def cmdOffset (w : BitVec 16) : Nat := w.toNat % 16384

/-- The entry of one cell (R228 to R230). -/
def placeCell (sel : Sel) (dMax p : Nat) (i : Nat) (c : Cell) : BitVec 16 :=
  match sel.pulse with
  | some (q, w) =>
    if q = i then cmdWord (if sel.neg then 3 else 2) ((dMax + 2 * p - w / 2) - c.cdly)
    else if stateAt sel.states i = c.prev then cmdWord c.prev 0
    else cmdWord (stateAt sel.states i) (dMax - c.cdly)
  | none =>
    if stateAt sel.states i = c.prev then cmdWord c.prev 0
    else cmdWord (stateAt sel.states i) (dMax - c.cdly)

/-- The extended entry of the pulsing cell (R225, R230). -/
def placeExt (sel : Sel) (cells : List Cell) (dMax p : Nat) : Option Ext :=
  match sel.pulse with
  | some (q, w) =>
    let cmd := cmdWord 1 ((dMax + 2 * p - w / 2 + w) - (cellAt cells q).cdly)
    some { idx := BitVec.ofNat 16 q, idxC := ~~~ BitVec.ofNat 16 q, cmd := cmd, cmdC := ~~~ cmd }
  | none => none

/-- The command set of a selection (R213, step 6). -/
def placeSet (sel : Sel) (cells : List Cell) (dMax p : Nat) : CmdSet :=
  { cells := (indexed 0 cells).map fun e => paired (placeCell sel dMax p e.1 e.2)
    ext := placeExt sel cells dMax p }

/-- Direction of the arm from c (R209): kept inside and on the edge of the dead band, and for a c that is no number. -/
def armDir (iDead iA : BitVec 32) (neg : Bool) (before : Bool) : Bool :=
  let c := if neg then - fpInt iA else fpInt iA
  if fpIsNan iA then before
  else if fpInt iDead < c then true else if c < - fpInt iDead then false else before

/-- The largest and the smallest compensation over the cells not absent at the census (R227). -/
def dMaxOf (cells : List Cell) : Nat := (cells.filter fun c => c.out != 1).foldl (fun m c => max m c.cdly) 0
def dMinOf (cells : List Cell) : Nat :=
  match (cells.filter fun c => c.out != 1).map (·.cdly) with
  | [] => 0
  | x :: r => r.foldl min x

/-- The tally of a command set: entries inserted positive less entries inserted negative, the cell of the extended
entry left out (R238). -/
def tallyOf (cs : CmdSet) : Int :=
  let skip : Option Nat := cs.ext.map (·.idx.toNat)
  ((indexed 0 cs.cells).foldl (fun (a : Int) e =>
    if skip = some e.1 then a
    else if cmdState e.2.1 = 2 then a + 1 else if cmdState e.2.1 = 3 then a - 1 else a) 0)

/-- λ truncated toward zero (R195). -/
def lamInt (lam : BitVec 32) : Int :=
  if lam.toInt < 0 then - ((lam.toInt.natAbs / 65536 : Nat) : Int) else ((lam.toInt.natAbs / 65536 : Nat) : Int)

/-- What the port's audit finds in a frame (R239). -/
structure AuditRes where
  tally : Int
  l : Int
  noOrder : Bool := false
  pair : Bool := false
  signMix : Bool := false
  pulseShape : Bool := false
  mismatch : Bool := false
  deriving DecidableEq, Repr

/-- No case of R239 and no mismatch. -/
def AuditRes.ok (r : AuditRes) : Bool := !(r.noOrder || r.pair || r.signMix || r.pulseShape || r.mismatch)

/-- The insertion-count audit of a command set against the level order (R54, R238 to R240). A failing pair check of λ or
of a cell entry sets PAIR only. -/
def auditSet (cs : CmdSet) (order : Option (BitVec 32 × BitVec 32)) : AuditRes :=
  match order with
  | none => { tally := tallyOf cs, l := 0, pair := true }
  | some (lam, lamC) =>
    let t := tallyOf cs
    let l := lamInt lam
    if !pairOk lam lamC || cs.cells.any (fun e => !pairOk e.1 e.2) then { tally := t, l := l, pair := true }
    else
      let pulse := cs.ext.map (·.idx.toNat)
      let ents := (indexed 0 cs.cells)
      let pos := ents.any fun e => cmdState e.2.1 == 2
      let ngt := ents.any fun e => cmdState e.2.1 == 3
      let mix := decide (l ≠ 0) && ((pos && ngt) || (decide (0 < l) && ngt) || (decide (l < 0) && pos))
      let shape := match cs.ext with
        | none => false
        | some x =>
          decide (cs.cells.length ≤ x.idx.toNat) || !pairOk x.idx x.idxC || !pairOk x.cmd x.cmdC ||
          cmdState x.cmd != 1 ||
          (match pulse with
           | some i => cmdState ((cs.cells.getD i (0, 0)).1) != (if lam.toInt < 0 then (3 : BitVec 2) else 2)
           | none => false)
      { tally := t, l := l, signMix := mix, pulseShape := shape, mismatch := decide (t ≠ l) }

/-- A word whose edge must lie `k` quarter ticks or more before the end of a period of `p` ticks: it stands, or its
edge goes there (R133). DESIGN CHOICE: log entry 106. -/
def fitWord (p k : Nat) (w : BitVec 16) : BitVec 16 :=
  if cmdOffset w + k < 4 * p then w else cmdWord (cmdState w) (4 * p - 1 - k)

/-- The set that repeats a set in a period of `p` ticks. Execute-at ticks follow XA_BASE, so the words stand; where a COMMIT
has made the period shorter than an offset, that edge goes to the end of the period (R55, R133, R135). DESIGN CHOICE: log
entry 106. -/
def repeatSet (p : Nat) (cs : CmdSet) : CmdSet :=
  let fit := fun (k : Nat) (w : BitVec 16 × BitVec 16) => if fitWord p k w.1 = w.1 then w else paired (fitWord p k w.1)
  { cells := (indexed 0 cs.cells).map fun e => fit (if (cs.ext.map fun x => x.idx.toNat) = some e.1 then 1 else 0) e.2
    ext := cs.ext.map fun x => let w := fit 0 (x.cmd, x.cmdC); { x with cmd := w.1, cmdC := w.2 } }

/-- State 00 for every cell (R57, R137). -/
def blockSet (n : Nat) : CmdSet := { cells := List.replicate n (paired (cmdWord 0 0)), ext := none }

/-- The end-of-period state of each cell of a command set: its entry, or CMD2 for the pulsing cell (R205). -/
def endStates (cs : CmdSet) : List (BitVec 2) :=
  (indexed 0 cs.cells).map fun e =>
    match cs.ext with
    | some x => if x.idx.toNat = e.1 then cmdState x.cmd else cmdState e.2.1
    | none => cmdState e.2.1

end Sys2Proof.Machine
end

