-- ==== Sys2Proof/Machine/ArmCells.lean ====
section
/-! DEFINITION. The cell table of an arm engine as the census and the parameters set it (R199, R202, R220, R227). -/

namespace Sys2Proof.Machine

/-- The cells of a device list in cell-index order, each with whether it is full-bridge (R157, R158). -/
def Dev.isCell (d : Dev) : Bool := d.kind == 1 || d.kind == 2
def cellDevs (l : List Dev) : List Dev := l.filter Dev.isCell

/-- Parameters and CDLY list the block parameter tables give an arm (R534). -/
def State.aeTable (s : State) (n : Nat) : AeParams × List Nat := (s.sys.cfg.par.ae.getD n none).getD ({}, [])

/-- The positions, among the cells, of the devices that the last census did not find. -/
def absentCells (l : List Dev) (absent : List Nat) : List Nat :=
  (indexed 0 ((indexed 0 l).filter fun (e : Nat × Dev) => e.2.isCell)).filterMap fun (e : Nat × Nat × Dev) =>
    if e.2.1 ∈ absent then some e.1 else none

/-- The cell table after a census: latches are released, absent cells are latched OUT with reason 001, and CDLY and the
full-bridge marks are taken (R134, R199, R202, R227). -/
def censusCells (old : List Cell) (l : List Dev) (absent : List Nat) (cdly : List Nat) : List Cell :=
  let ab := absentCells l absent
  (indexed 0 (cellDevs l)).map fun (e : Nat × Dev) =>
    let c := cellAt old e.1
    { c with out := if e.1 ∈ ab then 1 else 0, fb := e.2.kind == (2 : BitVec 4), cdly := cdly.getD e.1 0 }

/-- The arm engine takes the result of a census of its arm (R161, R202, R227). -/
def State.aeCensus (s : State) (n : Nat) : State :=
  if s.open (.ae n) then
    let a := s.ae n
    let cells := censusCells a.cells (s.topo n).devs (s.port n).absent (s.aeTable n).2
    s.setAe n { a with cells := cells, dMin := dMinOf cells, dMax := dMaxOf cells }
  else s

/-- The cell table after a COMMIT: CDLY and the full-bridge marks are taken and every latch stays; cells that the table did
not hold are as the last census found them (R202, R220, R227). -/
def refitCells (old : List Cell) (l : List Dev) (absent : List Nat) (cdly : List Nat) : List Cell :=
  let ab := absentCells l absent
  (indexed 0 (cellDevs l)).map fun (e : Nat × Dev) =>
    let c := cellAt old e.1
    { c with out := if e.1 < old.length then c.out else if e.1 ∈ ab then 1 else 0
             fb := e.2.kind == (2 : BitVec 4), cdly := cdly.getD e.1 0 }

/-- The sections of a committed set that take effect at the next boundary (R30, R232, R557). -/
def State.nextSet (s : State) : Sections := if s.drf.pendAt = some (s.tb.pc + 1) then s.drf.set else {}

/-- P of the next period (R30, R232). -/
def State.nextPer (s : State) : Nat :=
  match s.nextSet.sch with
  | some c => c.p
  | none => s.per

/-- The compensations of an arm where they change at the next boundary (R220, R232). -/
def State.nextCdly (s : State) (n : Nat) : Option (List Nat) :=
  s.nextSet.par.map fun p => ((p.ae.getD n none).getD ({}, [])).2

/-- The end-of-period states of a frame (R205). -/
def Frame.ends (f : Frame) : List (BitVec 2) := if f.blockArm then f.cs.cells.map fun _ => 0 else endStates f.cs

/-- B is B_INIT again and a new window starts. The window in progress gives no adaptation, and the counts shown stay those of
the last complete window (R235, AE_SW_RATE, AE_CELL_SW). DEDUCED: log entry 111. -/
def Ae.restart (a : Ae) : Ae :=
  { a with band := a.par.bInit, bandNext := none, winCount := 0, changes := 0, spreadHit := false
           cells := a.cells.map fun c => { c with chg := 0 } }

/-- PREV takes the STATE a cell reports, or one that LIVE brings: a change takes DWELL to 0 and is counted (R206, R234, R506,
R510). DEDUCED: log entry 140. -/
def Cell.follow (c : Cell) (st : Option (BitVec 2)) : Cell :=
  match st with
  | some v => if v = c.prev then c else { c with prev := v, dwell := 0, chg := satInc c.chg 0xFFFF }
  | none => c

/-- How many cells have a PREV other than before (R234). -/
def prevChanges (a b : List Cell) : Nat :=
  ((List.range b.length).filter fun i => (cellAt a i).prev != (cellAt b i).prev).length

/-- The cells' PREV outside a boundary, by cell index: changes are counted in the window in progress (R206, R234). -/
def Ae.follow (a : Ae) (st : Nat → Option (BitVec 2)) : Ae :=
  let cells := (indexed 0 a.cells).map fun (e : Nat × Cell) => e.2.follow (st e.1)
  { a with cells := cells, changes := a.changes + prevChanges a.cells cells }

/-- The arm engine takes PREV from the states the cells reported in the last intake, 00 for a report that was missing (R205,
R210, R234). -/
def Ae.resumed (a : Ae) (reported : List (Option (BitVec 2))) : Ae :=
  { a.follow (fun i => some ((reported.getD i none).getD 0)) with charging := true }

end Sys2Proof.Machine
end

