-- ==== Sys2Proof/Machine/Sched.lean ====
section
/-! DEFINITION. The schedule contract while it runs: crossings, slack monitors and deadline misses (R319 to R364). -/

namespace Sys2Proof.Machine

/-- The island number of an island code (R319, R37). -/
def codeIsland (c : Nat) : Nat :=
  if c < 6 then c
  else if 0x10 ≤ c ∧ c < 0x1C then 6 + (c - 0x10)
  else if 0x20 ≤ c ∧ c < 0x24 then 18 + (c - 0x20)
  else 22 + (c - 0x30)

/-- A crossing of the section in effect. -/
def State.xing (s : State) (i : Nat) : Xing := s.sec.xings.getD i {}

/-- Does a crossing lead into or out of a memory island? (R320) -/
def Xing.mem (x : Xing) : Bool := x.src == 2 || x.src == 3 || x.dst == 2 || x.dst == 3

/-- The bound of a crossing (R320). -/
def Xing.bound (x : Xing) : Nat := if x.mem then 6 else 4

/-- The index of the first crossing that a test picks. -/
def State.findXing (s : State) (f : Xing → Bool) : Option Nat :=
  (indexed 0 s.sec.xings).findSome? fun (e : Nat × Xing) => if f e.2 then some e.1 else none

/-- VT_P on an island's replica (R27, R472). -/
def State.replicaTime (s : State) (island : Nat) : BitVec 64 := s.now + Sparse.get (fun _ => 0) s.tb.replica island

/-- A slack in the range of its register field (SCH_SLACK). -/
def clampSlack (v : Int) : Int := max (-32768) (min 32766 v)

/-- The least slack since the last clear. -/
def State.slackLeast (s : State) : Int := (BitVec.ofNat 16 (s.field Reg.SCH_SLACK 16 16)).toInt

/-- A monitor records a slack; `code` and `idx` name its consumer (R351, SCH_SLACK_AT). -/
def State.noteSlack (s : State) (code idx : Nat) (slack : Int) : State :=
  let v := clampSlack slack
  let s1 := { s with sch := { s.sch with slackNow := some (match s.sch.slackNow with | some w => min w v | none => v) } }
  if v < s.slackLeast then
    (s1.setField Reg.SCH_SLACK 16 16 (BitVec.ofInt 16 v).toNat).wr Reg.SCH_SLACK_AT
      (BitVec.ofNat 32 (code * 2 ^ 24 + idx % 2048))
  else s1

/-- The block latch is set, and frames carry the Block from the first emit that begins at `t` or later (R291, R363,
R395). -/
def State.blockFrom (s : State) (t : BitVec 64) : State :=
  (s.setLatch true t).setBitIf (!s.flt.latch) Reg.FLT_EVT 1

/-- A deadline miss is declared (R353, R361 to R364). `code` and `idx` say where; `kind` is its KIND. -/
def State.declareMiss (s : State) (code kind idx : Nat) (origins : List Nat) : State :=
  let s1 := ((s.setBit Reg.SCH_EVT 1).wr Reg.SCH_LAST_MISS
    (BitVec.ofNat 32 (code * 2 ^ 24 + kind * 2 ^ 21 + idx % 2048))).wr Reg.SCH_LAST_MISS_PC s.tb.pc
  let run := satInc s.sch.missRun 3
  let s2 := if s.sch.missed then s1
    else { s1.bump Reg.SCH_MISS_PER with sch := { s1.sch with missed := true, missRun := run } }
  let s3 := s2.setBitIf (!s.sch.missed && run == 3 && s.sch.missRun != 3) Reg.SCH_EVT 2
  let s4 := if s.sch.missed = false ∧ run = 3 then (s3.blockFrom (s.now + 8)).raise 45 else s3
  origins.foldl State.raiseOnce s4

/-- The miss notices of a loop cue reach the ports of the arms in its AFFECT (R355). -/
def State.missNotices (s : State) (affect : BitVec 12) : State :=
  (List.range 12).foldl (fun t n =>
    if affect.getLsbD n && t.open (.port n) then t.setPort n { t.port n with notice := true } else t) s

/-- The origin source of an arm engine (R365). -/
def aeOrigin (n : Nat) : Nat := if n < 6 then 50 else 51

/-- The island code of an arm engine, a loop engine and a port (R319). -/
def aeCode (n : Nat) : Nat := 0x10 + n
def leCode (n : Nat) : Nat := 0x20 + n
def portCode (n : Nat) : Nat := 0x30 + n

/-- Offset of the due tick (R334). -/
def State.dueAt (s : State) : Nat := s.sec.eStart - 8

/-- The period marker of a boundary or phase: has the time of a tick of the period gone by? -/
def State.pastTick (s : State) (n : Nat) : Bool := decide (n < timeDiff s.now s.tb.bound)

/-- The measured crossing time of a transfer (R346). DEDUCED: log entry 43. -/
def State.crossingTime (s : State) (x : Xing) (stamp : BitVec 16) : Nat :=
  (timeDiff ((s.replicaTime (codeIsland x.dst)).setWidth 16) stamp).toNat

/-- The CUE word that ends a transfer (R328). -/
def cueWord (stamp : BitVec 16) (xing words : Nat) (pcLo : BitVec 16) : BitVec 64 :=
  BitVec.ofNat 64 (stamp.toNat * 2 ^ 48 + xing % 1024 * 2 ^ 32 + words % 65536 * 2 ^ 16 + pcLo.toNat)

/-- Its fields (R328). -/
def cueStamp (w : BitVec 64) : BitVec 16 := BitVec.ofNat 16 (fieldOf w 48 16)
def cueXing (w : BitVec 64) : Nat := fieldOf w 32 10
def cueCount (w : BitVec 64) : Nat := fieldOf w 16 16
def cuePc (w : BitVec 64) : BitVec 16 := BitVec.ofNat 16 (fieldOf w 0 16)

/-- The CUE word of a transfer over crossing `i` that is handed over `lat` ticks from now (R328). -/
def State.cueNow (s : State) (i lat words : Nat) (pcLo : BitVec 16) : BitVec 64 :=
  cueWord ((s.replicaTime (codeIsland (s.xing i).src)).setWidth 16 + BitVec.ofNat 16 lat) i words pcLo

/-- The transfers over the crossings that a test picks end with their CUE words (R328). DEDUCED: log entry 114. -/
def State.sendCues (s : State) (f : Xing → Bool) (lat : Nat) (pcLo : BitVec 16) : State :=
  (indexed 0 s.sec.xings).foldl (fun t (q : Nat × Xing) =>
    if f q.2 then
      { t with sch := { t.sch with cueOut := Sparse.put (fun _ => 0) t.sch.cueOut q.1 (t.cueNow q.1 lat q.2.words pcLo) } }
    else t) s

/-- Does a block of slots (`n` rows of 16 from `base`, `lanes` wide) hold slot `i`? (R326) -/
def rowsHit (base n lanes i : Nat) : Bool := decide (base ≤ i) && decide ((i - base) / 16 < n) && decide ((i - base) % 16 < lanes)

/-- The receiver records a crossing time and holds it against the bound (R346 to R348, SCH_XING_MAX). -/
def State.noteCrossing (s : State) (i t : Nat) : State :=
  let x := s.xing i
  let most := Sparse.get (fun _ => 0) s.sch.xingMax i
  let s1 := if most < t then { s with sch := { s.sch with xingMax := Sparse.put (fun _ => 0) s.sch.xingMax i (min t 255) } }
    else s
  let s2 := if s.field Reg.SCH_XING_MAX 0 8 < t then s1.wr Reg.SCH_XING_MAX (BitVec.ofNat 32 (i * 65536 + min t 255)) else s1
  if x.bound < t then ((s2.bump Reg.SCH_XING_OVER).setBit Reg.SCH_EVT 3).raiseOnce (if x.mem then 53 else 52) else s2

/-- Is a transfer stale? (R350) -/
def State.staleXfer (s : State) (pcLo : BitVec 16) : Bool := decide (timeDiff pcLo (s.tb.pc.setWidth 16) < 0)

/-- A stale transfer is discarded (R350). -/
def State.noteStale (s : State) : State := ((s.bump Reg.SCH_STALE).setBit Reg.SCH_EVT 5).raiseOnce 55

/-- What SCH_CNT_CLR clears (R367). DEDUCED: log entry 37. -/
def State.schCntClr (s : State) : State :=
  let s1 := (s.clearAll ([Reg.SCH_MISS_PER, Reg.SCH_SLACK_AT, Reg.SCH_XING_MAX, Reg.SCH_XING_OVER, Reg.SCH_STALE] ++
    (List.range 4).map Reg.SCH_LE_MISS ++ (List.range 12).map Reg.SCH_ARM_MISS)).wr Reg.SCH_SLACK 0x7FFF7FFF
  { s1 with sch := { s1.sch with xingMax := [] } }

end Sys2Proof.Machine
end

