-- ==== Sys2Proof/Machine/Arms.lean ====
section
/-! DEFINITION. An arm engine's cell table from intake to boundary, its stages, and its registers that act
(R194 to R248). -/

namespace Sys2Proof.Machine

/-- The cells of the arm in the schedule in effect (R322). -/
def State.nCell (s : State) (n : Nat) : Nat := (s.sec.port n).ncell

/-- Is the arm engine at work: powered, its arm in use, periods running? -/
def State.aeOn (s : State) (n : Nat) : Bool := s.tb.run && s.inUse n && s.open (.ae n)

/-- The valid report of a cell, unless it is missing, absent or fails its pair check (R35, R143, R147, R50). -/
def Report.valid (r : Report) : Bool := pairOk r.volt r.voltC

/-- The absent pattern (R143). -/
def Report.absentPattern (r : Report) : Bool :=
  r.volt == 0xFFFF && r.voltC == 0xFFFF && r.status == 0 && r.echo == 0

/-- The intake of one cell record (R198). -/
def Cell.intake (c : Cell) (r : Option Report) : Cell :=
  match r with
  | some x => { c with v := x.volt, vC := x.voltC, age := 0, hot := x.status.getLsbD 6, status := x.status }
  | none => { c with age := satInc c.age 255 }

/-- The arm engine takes the reports of the intake (R198, R506, AE_CNT_MISS). -/
def State.aeIntake (s : State) (n : Nat) : State :=
  if s.aeOn n then
    let a := s.ae n
    let reps := (s.port n).reports
    let warm := s.twn.lease == .warm
    let taken := { a with cells := (indexed 0 a.cells).map fun (e : Nat × Cell) => e.2.intake (reps.getD e.1 none) }
    let b := if warm then taken.follow fun i => (s.port n).reported.getD i none else taken
    let missing := ((List.range a.cells.length).filter fun i => (reps.getD i none).isNone).length
    let framed := (reps.filter fun r => match r with | some x => x.status.getLsbD 4 | none => false).length
    (s.setAe n b).wr (Reg.AE_CNT_MISS n) (BitVec.ofNat 32 (missing * 65536 + framed))
  else s

/-- The lowest reason of the engine's own for a cell to be OUT, 0 for none (R199, R200, R202). -/
def Cell.reason (c : Cell) (staleLim : Nat) : Nat :=
  if c.age = 0 ∧ c.status.getLsbD 7 then 2
  else if c.age = 0 ∧ c.status.getLsbD 5 then 3
  else if staleLim < c.age then 4 else 0

/-- A reason latches a cell OUT, or lowers the recorded code (R199, R202, R248). -/
def Cell.latch (c : Cell) (reason : Nat) : Cell :=
  if reason = 0 then c else if c.out = 0 ∨ reason < c.out then { c with out := reason } else c

/-- A cell table with, so far in this compute phase, whether a cell, and whether a full-bridge cell, was newly latched. -/
structure Latching where
  cells : List Cell
  newAll : Bool := false
  newFb : Bool := false
  deriving DecidableEq, Repr

/-- One latch, with its news (R199, R202, R203, R248). -/
def Latching.latch (m : Latching) (i reason : Nat) : Latching :=
  let c := cellAt m.cells i
  let fresh := c.out == 0 && reason != 0
  { cells := m.cells.set i (c.latch reason), newAll := m.newAll || fresh, newFb := m.newFb || (fresh && c.fb) }

/-- One of firmware's latches and releases whose compute phase has come (R246 to R248). -/
def Latching.cmd (m : Latching) (c : Bool × Nat) : Latching :=
  if c.1 then m.latch c.2 5 else { m with cells := m.cells.set c.2 { cellAt m.cells c.2 with out := 0 } }

/-- Every latch of a compute phase: firmware's commands, then the engine's own reasons (R199, R246). -/
def latchAll (cells : List Cell) (cmds : List (Bool × Nat)) (staleLim : Nat) : Latching :=
  let m := cmds.foldl Latching.cmd { cells := cells }
  (List.range cells.length).foldl (fun m i => m.latch i ((cellAt m.cells i).reason staleLim)) m

/-- The OUT latches of the compute phase, with their events (R199 to R204, R246). DEDUCED: log entry 36. -/
def State.takeLatches (s : State) (n : Nat) : State :=
  let a := s.ae n
  let m := latchAll a.cells a.cellNow a.par.staleLim
  let past := (m.newAll && decide (a.par.redAll < outAll m.cells)) || (m.newFb && decide (a.par.redFb < outFb m.cells))
  let s1 := s.setAe n { a with cells := m.cells, cellNow := [] }
  let s2 := if m.newAll then (s1.setBit (Reg.AE_EVT n) 1).raiseOnce 156 else s1
  if past then (s2.setBit (Reg.AE_EVT n) 2).raiseOnce 154 else s2

/-- The sums of the RANK stage over the cells that are not OUT and whose voltage passes its pair check (R50, R267). -/
def armSums (cells : List Cell) : ArmSums :=
  (cells.filter fun c => c.out == 0 && c.vOk).foldl (fun m c =>
    let v := c.v.toNat
    if c.fb then { m with nFb := m.nFb + 1, vFb := m.vFb + v, qFb := m.qFb + v * v }
    else { m with nHb := m.nHb + 1, vHb := m.vHb + v, qHb := m.qHb + v * v }) {}

/-- Latencies of RANK, SELECT and PLACE for `n` cells (R237). -/
def rankLat (n : Nat) : Nat := 12 + (n + 15) / 16
def selectLat : Nat := 24
def placeLat (n : Nat) : Nat := 8 + (n + 15) / 16

/-- Is stage unit `u` still occupied? (R338, R353 KIND 001) -/
def State.aeBusy (s : State) (n u : Nat) : Bool :=
  let t := Sparse.get (fun _ => 0) (s.ae n).busyTo u
  t != 0 && !reached s.now t

def State.aeOccupy (s : State) (n u len : Nat) : State :=
  let a := s.ae n
  s.setAe n { a with busyTo := Sparse.put (fun _ => 0) a.busyTo u (s.now + BitVec.ofNat 64 len) }

/-- The engine hands over, which ends its work for the period where it stops (R196, R228, R356). DEDUCED: log entry
40. -/
def State.handOver (s : State) (n : Nat) (h : Handover) (missed stop : Bool) (lat : Nat) : State :=
  let a := s.ae n
  let s1 := s.setAe n { a with out := h, outMissed := a.outMissed || missed, stop := a.stop || stop }
  s1.sendCues (fun x => x.kind == 6 && x.src == aeCode n) lat (s.tb.pc.setWidth 16)

/-- The engine counts a period without a valid level order (R196). -/
def State.noteNoOrder (s : State) (n : Nat) : State :=
  (s.bump (Reg.AE_CNT_NOORD n)).setBit (Reg.AE_EVT n) 7

/-- The engine builds no command set in the period (AE_STAT.RUN). -/
def State.aeIdle (s : State) (n : Nat) : State := s.setAe n { s.ae n with ran := false }

/-- A RANK or PLACE miss: no later stage runs, and NO_ORDER flagged MISSED goes to the port (R356). -/
def State.aeMiss (s : State) (n kind stage : Nat) : State :=
  ((s.declareMiss (aeCode n) kind stage [aeOrigin n]).handOver n .noOrder true true 0).aeIdle n

/-- A residue fault discards a stage's result, which is then missing data (R50, R52, R243). -/
def State.aeResidue (s : State) (n : Nat) : State :=
  ((s.integrity (6 + n)).handOver n .noOrder false true 0).aeIdle n

/-- The RANK stage (R49, R211, R246, R267). -/
def State.rankStage (s : State) (n : Nat) (residue : Bool) : State :=
  let s1 := (s.takeLatches n).aeOccupy n 0 (rankLat (s.nCell n))
  if residue then s1.aeResidue n
  else
    let a := s1.ae n
    let s2 := if a.cells.any fun c => c.out == 0 && !c.vOk then s1.integrity (6 + n) else s1
    (s2.setAe n { s2.ae n with rank := some (rankCells a.cells), sums := some (armSums a.cells) }).sendCues
      (fun x => x.kind == 3 && x.src == aeCode n) (rankLat (s.nCell n)) (s.tb.pc.setWidth 16)

/-- RANK_START: at RANK_AT (R211, R353). `residue`: a residue check fails in the stage (R52). -/
def execRankStart (n : Fin 12) (residue : Bool) (s : State) : Res :=
  if s.aeOn n = false ∨ s.computes = false ∨ (s.ae n).rank.isSome ∨ (s.ae n).stop then .next s
  else
    let s1 := s.advanceTo (s.tickAt (s.sec.ae n).rankAt)
    if s1.aeBusy n 0 then .next (s1.aeMiss n 1 0)
    else if s1.tb.intakeDone = false then .next (s1.aeMiss n 3 0)
    else .next (s1.rankStage n residue)

/-- Length of the period for which the engine builds a set, and the cells with the compensation in force in it
(R30, R232). -/
def State.setPeriod (s : State) : Nat := s.nextPer
def State.setCells (s : State) (n : Nat) : List Cell :=
  match s.nextCdly n with
  | some l => (indexed 0 (s.ae n).cells).map fun (e : Nat × Cell) => { e.2 with cdly := l.getD e.1 0 }
  | none => (s.ae n).cells

/-- The direction the selection uses (R197, R209, R210). -/
def Ae.direction (a : Ae) (neg : Bool) : Bool :=
  match a.current with
  | some i => if pairOk i.1 i.2 then armDir a.par.iDead i.1 neg a.charging else a.charging
  | none => a.charging

/-- Is the arm current missing or broken? (R197) -/
def Ae.currentBad (a : Ae) : Bool :=
  match a.current with
  | some i => !pairOk i.1 i.2
  | none => true

/-- The events and counters of a selection (R215, R218, R219, R222, R224). -/
def State.noteSelection (s : State) (n : Nat) (r : SelInfo) (high : Bool) : State :=
  let evt := Reg.AE_EVT n
  let s1 := s.wr (Reg.AE_CNT_DWELL n) (BitVec.ofNat 32 (satAdd (s.rdNat (Reg.AE_CNT_DWELL n)) r.dwellChanges 0xFFFFFFFF))
  let s2 := if high then (s1.setBit evt 3).raiseOnce 157 else s1
  let s3 := if r.levelShort then (s2.setBit evt 6).raiseOnce 155 else s2
  let s4 := if r.clamp then (s3.addField (Reg.AE_CNT_FRAC n) 0 16 1).setBit evt 4 else s3
  let s5 := if r.zeroWidth then s4.addField (Reg.AE_CNT_FRAC n) 16 16 1 else s4
  if r.noCell then ((s5.addField (Reg.AE_CNT_FRAC n) 16 16 1).setBit evt 5).raiseOnce 158 else s5

/-- The selection with a valid level order (R209 to R224). -/
def State.selectWith (s : State) (n : Nat) (lam : BitVec 32) (rank : List Nat) : State :=
  let a := s.ae n
  let neg := decide (lam.toInt < 0)
  let s1 := if a.currentBad then s.bump (Reg.AE_CNT_DIR n) else s
  let dir := a.direction neg
  let cells := s.setCells n
  let r := selectSet a.par cells rank lam.toInt dir a.band (dMinOf cells) (dMaxOf cells) s.setPeriod
  let high := decide (a.par.spreadLim < r.spread)
  let s2 := s1.setAe n { a with
    charging := dir, sel := some (some r.sel), spread := r.spread, pool := r.pool, spreadHigh := high
    spreadHit := a.spreadHit || high, bEff := if high then a.par.bMin else a.band
    neg := neg, pulsing := r.sel.pulse.map (·.1), ran := true, lamLast := lam, nLast := lam.toInt.natAbs / 65536 }
  s2.noteSelection n r high

/-- The engine builds no set: λ is missing or broken (R196, R356). -/
def State.selectNone (s : State) (n : Nat) (missed : Bool) : State :=
  let s1 := (s.noteNoOrder n).handOver n .noOrder missed false 0
  s1.setAe n { s1.ae n with sel := some none, ran := false }

/-- The command set of a selection goes to the port (R213, step 6, R228 to R230). -/
def State.placeOut (s : State) (n : Nat) (missed stop : Bool) (lat : Nat) : State :=
  match (s.ae n).sel with
  | some (some sel) =>
    let cells := s.setCells n
    s.handOver n (.cmds (placeSet sel cells (dMaxOf cells) s.setPeriod)) missed stop lat
  | _ => s

/-- The SELECT stage. After a miss its output goes to the port at once, flagged MISSED (R194 to R224, R356). DEDUCED: log
entry 38. -/
def State.selectStage (s : State) (n : Nat) (residue : Bool) : State :=
  let s0 := s.takeLatches n
  let s1 := (s0.setAe n { s0.ae n with selStarted := true }).aeOccupy n 1 selectLat
  let a := s1.ae n
  let miss := s1.declareMiss (aeCode n) 3 1 [aeOrigin n]
  let late := a.order.isNone || a.current.isNone || a.rank.isNone
  let s2 := if late then miss.setAe n { miss.ae n with outMissed := true } else s1
  if residue then s2.aeResidue n
  else match a.order, a.rank with
    | some l, some rank =>
      if pairOk l.1 l.2 then
        let s3 := s2.selectWith n l.1 rank
        if late then s3.placeOut n true false 0 else s3
      else s2.selectNone n false
    | _, _ => s2.selectNone n false

/-- SELECT_START: at SELECT_AT (R213, R353, R356). -/
def execSelectStart (n : Fin 12) (residue : Bool) (s : State) : Res :=
  if s.aeOn n = false ∨ s.computes = false ∨ (s.ae n).stop ∨ (s.ae n).selStarted then .next s
  else
    let s1 := s.advanceTo (s.tickAt (s.sec.ae n).selectAt)
    if s1.aeBusy n 1 then
      let s2 := s1.declareMiss (aeCode n) 1 1 [aeOrigin n]
      .next ((s2.setAe n { s2.ae n with selStarted := true }).selectNone n true)
    else .next (s1.selectStage n residue)

/-- The PLACE stage (R228 to R230). -/
def State.placeStage (s : State) (n : Nat) (residue : Bool) : State :=
  let s1 := s.aeOccupy n 2 (placeLat (s.nCell n))
  if residue then s1.aeResidue n else s1.placeOut n false true (placeLat (s.nCell n))

/-- PLACE_START: at PLACE_AT (R228, R353, R356). -/
def execPlaceStart (n : Fin 12) (residue : Bool) (s : State) : Res :=
  if s.aeOn n = false ∨ s.computes = false ∨ (s.ae n).stop then .next s
  else
    let s1 := s.advanceTo (s.tickAt (s.sec.ae n).placeAt)
    if s1.aeBusy n 2 then .next (s1.aeMiss n 1 2)
    else if (s1.ae n).sel.isNone then .next (s1.aeMiss n 3 2)
    else .next (s1.placeStage n residue)

/-- A pair that arrived is good, as is one that did not. -/
def pairFine (x : Option (BitVec 32 × BitVec 32)) : Bool :=
  match x with
  | some p => pairOk p.1 p.2
  | none => true

/-- The level order and arm current, as far as they came, reach the arm engine (R194, R197, R329, R351, R357). -/
def State.orderToAe (s : State) (n : Nat) (lam i : Option (BitVec 32 × BitVec 32)) : State :=
  let start := (s.sec.ae n).selectAt
  let s1 := if lam.isSome || i.isSome then s.noteSlack (aeCode n) 1 ((start : Int) - timeDiff s.now s.tb.bound) else s
  if (s.ae n).selStarted ∨ s.pastTick start then s1
  else
    let s2 := if pairFine lam ∧ pairFine i then s1 else s1.integrity (6 + n)
    s2.setAe n { s2.ae n with order := lam <|> (s2.ae n).order, current := i <|> (s2.ae n).current }

/-- The level order reaches the port for its audit (R194, R329, R351, R357). -/
def State.orderToPort (s : State) (n : Nat) (lam : BitVec 32 × BitVec 32) : State :=
  let s1 := s.noteSlack (portCode n) 3 ((s.dueAt : Int) - timeDiff s.now s.tb.bound)
  if (s.port n).dueDone ∨ s.pastTick s.dueAt then s1
  else
    let s2 := if pairOk lam.1 lam.2 then s1 else s1.integrity (22 + n)
    s2.setPort n { s2.port n with order := some lam }

/-- LEVEL_ORDER_RECEIVE: the words of a kind 1 transfer to an arm engine that came, the halves of λ and of i_a, or those of
a kind 2 transfer to a port, which carries λ alone, with PC_LO of its CUE word. A value of which a half is missing has not
arrived. A stale transfer is discarded; its CUE word, which TRANSFER_RECEIVE brings, counts it (R194, R197, R350, R357).
DEDUCED: log entry 114. -/
def execLevelOrderReceive (dst : LevelDst) (pcLo : BitVec 16) (lam lamC cur curC : Option Word) (s : State) : Res :=
  if s.staleXfer pcLo then .next s
  else match dst, wholePair lam lamC with
    | .ae n, l => .next (if s.aeOn n then s.orderToAe n l (wholePair cur curC) else s)
    | .port n, some l => .next (if s.tb.run && s.inUse n && s.open (.port n) then s.orderToPort n l else s)
    | .port _, none => .next s

/-- The band at the end of a window (R233 to R236); the pool is that of the last selection that ran. DEDUCED: log entry
111. -/
def Ae.bandAfter (a : Ae) (p : Nat) : Nat :=
  let t := a.par.swTgt * a.pool * a.par.wSw * p
  if a.par.adaptEn = false then a.par.bInit
  else if a.spreadHit then max a.par.bMin (a.band - 4 * a.par.bStep)
  else if t * (16 + a.par.hyst) < a.changes * 3200000000 then min a.par.bMax (a.band + a.par.bStep)
  else if a.changes * 3200000000 < t * (16 - a.par.hyst) then max a.par.bMin (a.band - a.par.bStep)
  else a.band

/-- The window's counts are shown and a new window starts (R233, AE_SW_RATE, AE_CELL_SW). -/
def Ae.newWindow (a : Ae) : Ae :=
  { a with winCount := 0, changes := 0, spreadHit := false
           cells := a.cells.map fun c => { c with chgLast := c.chg, chg := 0 } }

/-- SW_WINDOW_END: the W_SW-th period of the window has ended; the new B holds from the boundary that ends it (R233).
Where a residue check fails in the adaptation its result is discarded: B stays (R52). -/
def execSwWindowEnd (w : ArmWindow) (s : State) : Res :=
  let n := w.arm
  let a := s.ae n
  if s.aeOn n ∧ a.par.wSw ≤ a.winCount then
    let b := if w.residue then a.band else a.bandAfter s.per
    let a1 := a.newWindow
    let s1 := if w.residue then s.integrity (6 + n) else s
    .next ((s1.setAe n (if s.inPer = 0 then { a1 with band := b } else { a1 with bandNext := some b })).wr
      (Reg.AE_SW_RATE n) (BitVec.ofNat 32 (min a.changes 0xFFFFFFFF)))
  else .next s

/-- May a cell be released? (R247) -/
def State.releaseOk (s : State) (n : Nat) (c : Cell) : Bool :=
  s.armBlocked n && c.out != 0 && c.out != 1 && !c.status.getLsbD 7 && !c.status.getLsbD 5

/-- An accepted pair of AE_CELL_CMD (R246 to R248). -/
def State.aeCellCmd (s : State) (n : Nat) (v : Word) : State :=
  let a := s.ae n
  let act := fieldOf v 30 2
  let i := fieldOf v 0 10
  if act = 0 then s
  else if act = 3 ∨ a.cells.length ≤ i ∨ (act = 2 ∧ s.releaseOk n (cellAt a.cells i) = false) then
    s.setBit (Reg.AE_EVT n) 8
  else s.setAe n { a with cellCmd := a.cellCmd ++ [(act == 1, i)] }

/-- CELL_LATCH_OUT: an accepted paired write to AE_CELL_CMD with ACTION 01 (R246, R248). -/
def execCellLatchOut (n : Fin 12) (i : Fin 1024) (s : State) : Res :=
  let v := putField 1 30 ||| BitVec.ofNat 32 i
  s.via (.ae n) fun t => (t.wrPair (Reg.AE_CELL_CMD n) v).aeCellCmd n v

/-- CELL_RELEASE: an accepted paired write to AE_CELL_CMD with ACTION 10 (R246, R247). -/
def execCellRelease (n : Fin 12) (i : Fin 1024) (s : State) : Res :=
  let v := putField 2 30 ||| BitVec.ofNat 32 i
  s.via (.ae n) fun t => (t.wrPair (Reg.AE_CELL_CMD n) v).aeCellCmd n v

/-- The counters that AE_CNT_CLR clears (R245). -/
def State.aeCntClr (s : State) (n : Nat) : State :=
  s.clearAll [Reg.AE_CNT_FRAC n, Reg.AE_CNT_DWELL n, Reg.AE_CNT_DIR n, Reg.AE_CNT_NOORD n]

/-- AE_CNT_CLR: a write of 1 to bit 0 (R245). -/
def execAeCntClr (n : Fin 12) (s : State) : Res := s.via (.ae n) fun t => t.aeCntClr n

end Sys2Proof.Machine
end

