-- ==== Sys2Proof/Machine/Tree.lean ====
section
/-! DEFINITION. The hub tree below an arm port: control messages, census, delay calibration and recalibration
(R156 to R177, R186). -/

namespace Sys2Proof.Machine

/-- The address that names every device of a tree (R156). -/
def allDevices : BitVec 24 := 0xFFFFFF

/-- A control message waits to be sent (R162). -/
def State.queueCtrl (s : State) (n : Nat) (c : Ctrl) : State :=
  let x := s.port n
  s.setPort n { x with ctrl := x.ctrl ++ [c] }

/-- A message of the ZK12's own without XA (R163, R191). -/
def ownCtrl (op : BitVec 8) (target : BitVec 24) (arg : BitVec 64) : Ctrl :=
  { op := op, target := target, xa := 0, xaUsed := false, arg := arg, fw := false }

/-- Devices of a port in census order (R157). -/
def State.devs (s : State) (n : Nat) : List Dev := (s.topo n).devs

/-- Positions of the hubs in the device list. -/
def hubsOf (l : List Dev) : List Nat := (indexed 0 l).filterMap fun (e : Nat × Dev) => if e.2.kind = 3 then some e.1 else none

/-- LEN and positions of an address (R156). -/
def addrLen (a : BitVec 24) : Nat := fieldOf a 16 2
def addrPos (a : BitVec 24) (i : Nat) : Nat := fieldOf a (10 - 5 * i) 5

/-- Does address `a` lie at or below hub `h`? (R156) -/
def atOrBelow (h a : BitVec 24) : Bool :=
  decide (addrLen h ≤ addrLen a) && (List.range (addrLen h)).all fun i => addrPos h i == addrPos a i

/-- The address of a device's parent hub (R156). -/
def parentAddr (a : BitVec 24) : BitVec 24 :=
  let k := addrLen a - 1
  BitVec.ofNat 24 (k * 65536 + (List.range k).foldl (fun m i => m + addrPos a i * 2 ^ (10 - 5 * i)) 0)

/-- The position of an address in a device list. -/
def posOf (l : List Dev) (a : BitVec 24) : Option Nat := (indexed 0 l).findSome? fun (e : Nat × Dev) => if e.2.addr = a then some e.1 else none

/-- A port's measured DELAY by device position. -/
def Port.delay (x : Port) (i : Nat) : Option Nat := Sparse.get (fun _ => none) x.delays i
def Port.setDelay (x : Port) (i d : Nat) : Port := { x with delays := Sparse.put (fun _ => none) x.delays i (some d) }

/-- The calibration fault of an arm, with its result code (R161, R173, R174). -/
def State.calFail (s : State) (n code idx : Nat) : State :=
  let s1 := s.setPort n { s.port n with cal := .failed, echo := none, calDone := false }
  (s1.wr (Reg.PRT_CENSUS_RES n) (BitVec.ofNat 32 (idx * 65536 + code))).raise (140 + n)

/-- The steps of R173 begin with the census; a module that has not learned the epoch sends no message (R493). DEDUCED:
log entry 120. -/
def State.calStart (s : State) (n : Nat) : State :=
  let x := s.port n
  if s.twn.epochKnown then
    (s.setPort n { x with cal := .census, calAt := s.now, censusOk := false, calDone := false, echo := none }).queueCtrl n
      (ownCtrl 0x04 allDevices 0)
  else s.setPort n { x with cal := .idle, censusOk := false, calDone := false }

/-- Positions echoed in step 3: the devices that answered the census (R173). -/
def Port.echoList (x : Port) (l : List Dev) : List Nat := (List.range l.length).filter fun i => !decide (i ∈ x.absent)

/-- Blocks of the report stream (R141). -/
def bUp (nnode ncell : Nat) : Nat := (64 * nnode + 48 * ncell + 459) / 460

/-- t_down in use: the schedule's until a calibration has completed (R175). -/
def State.tDown (s : State) (n : Nat) : Nat :=
  let x := s.port n
  if x.calOnce then x.tDown else (s.sec.port n).tDecl

/-- Does an up block that begins at tick `t` lie clear of the report streams? A stream begins on the first up block boundary
at or after b(k) - U + t_up, up to 4 ticks late (R145, R167). -/
def State.clearOfRpt (s : State) (n : Nat) (t : BitVec 64) : Bool :=
  let c := s.sec.port n
  let ph := ((t - s.tb.bound).toNat + c.u + s.per * 64 - s.tDown n) % s.per
  decide (4 * bUp c.nnode c.ncell + 4 ≤ ph) && decide (ph + 4 ≤ s.per)

/-- REPLY_OFS of an ECHO to device `d` that departs about `t`: the part's choice, held where the response begins in an up slot
that the report stream does not use, as far as its delay is known (R164, R170). DESIGN CHOICE: log entry 19. -/
def State.replyOfs (s : State) (n : Nat) (d : Option Nat) (t : BitVec 64) : Nat :=
  let way := match d with | some u => (2 * u + 31) / 32 | none => 2 * s.tDown n
  let base := Config.replyOfs t.toNat % 3937
  let at_ := fun (i : Nat) => 64 + (base + i) % 3937
  if s.tb.run then
    match (List.range 3937).find? fun i => s.clearOfRpt n (t + BitVec.ofNat 64 (way + at_ i)) with
    | some i => at_ i
    | none => at_ 0
  else at_ 0

/-- The ECHO message of the calibration or of a round to the device at position `i` (R164, R170, R173, R176). -/
def State.echoMsg (s : State) (n i : Nat) : Ctrl :=
  ownCtrl 0x01 ((s.devs n).getD i { addr := 0, kind := 0 }).addr (BitVec.ofNat 64 (s.replyOfs n ((s.port n).delay i) s.now))

/-- The next ECHO of a calibration or of a recalibration round goes out: at most one per period (R173, R176). -/
def State.calEcho (s : State) (n : Nat) : State :=
  let x := s.port n
  let idle := x.echo.isNone && !(x.ctrl.any fun c => c.op == 0x01 && !c.fw)
  let send := fun i => s.queueCtrl n (s.echoMsg n i)
  match x.cal with
  | .echo i => if idle then (match (x.echoList (s.devs n))[i]? with | some d => send d | none => s) else s
  | .recal h => if idle then (match (hubsOf (s.devs n))[h]? with | some d => send d | none => s) else s
  | _ => s

/-- ALIGN to every device that echoed, with its DELAY, then TIME (R173, steps 4 and 5). -/
def State.calAlign (s : State) (n : Nat) : State :=
  let x := s.port n
  let al := (indexed 0 (s.devs n)).filterMap fun e =>
    (x.delay e.1).map fun d => ownCtrl 0x02 e.2.addr (BitVec.ofNat 64 (d % 2 ^ 24))
  s.setPort n { x with cal := .finish, ctrl := x.ctrl ++ al ++ [ownCtrl 0x03 allDevices 0] }

/-- t_port: the root's DELAY in UI; t_down: the largest DELAY of the cells and nodes in whole ticks (R175). -/
def Port.tPortOf (x : Port) : Nat := (x.delay 0).getD 0
def Port.tDownOf (x : Port) (l : List Dev) : Nat :=
  (((indexed 0 l).foldl (fun m (e : Nat × Dev) => if e.2.kind = 3 then m else max m ((x.delay e.1).getD 0)) 0) + 31) / 32

/-- The first device whose DELAY breaks R174: the root beyond 5,120 UI, or a hub 768 UI beyond its parent. -/
def delayLimit (x : Port) (l : List Dev) : Option Nat :=
  (indexed 0 l).findSome? fun (e : Nat × Dev) =>
    if e.2.kind ≠ 3 then none
    else match x.delay e.1 with
      | none => none
      | some d =>
        if addrLen e.2.addr = 0 then (if 5120 < d then some e.1 else none)
        else match (posOf l (parentAddr e.2.addr)).bind x.delay with
          | some q => if q + 768 < d then some e.1 else none
          | none => none

/-- Does the stream of a period with boundary `b` end in time? All in UI (R145, R186 item 2). -/
def streamFits (b : Nat) (u iEnd tUp phase blocks : Nat) : Bool :=
  let x := 32 * (b + 8192 + tUp - u)
  let start := x + (phase + 128 - x % 128) % 128
  decide (start + 128 * blocks + 64 ≤ 32 * (b + 8192 + iEnd))

/-- R33 and R186 with measured delays (R173 step 6, R176, R177). -/
def State.timingOk (s : State) (n tDown : Nat) : Bool :=
  let c := s.sec
  let p := c.port n
  let blocks := bUp p.nnode p.ncell
  decide (tDown + 20 ≤ p.m) && decide (blocks + 2 ≤ c.p / 4) &&
  (List.range 4).all fun j => streamFits (s.tb.bound.toNat % 4 + j * c.p) p.u c.iEnd tDown (s.port n).upPhase blocks

/-- Step 6: the limit check, and with it the end of the calibration (R173 to R175). -/
def State.calFinish (s : State) (n : Nat) : State :=
  let x := s.port n
  let l := s.devs n
  match delayLimit x l with
  | some i => s.calFail n 0x21 i
  | none =>
    if s.timingOk n (x.tDownOf l) then
      s.setPort n { x with cal := .done, calDone := true, calOnce := true, tPort := x.tPortOf, tDown := x.tDownOf l }
    else s.calFail n 0x22 0

/-- A recalibration round moves on to the next hub, or ends with the times formed anew (R176, R177). DEDUCED: log
entry 27. -/
def State.recalNext (s : State) (n h : Nat) : State :=
  let x := s.port n
  let l := s.devs n
  if h + 1 < (hubsOf l).length then s.setPort n { x with cal := .recal (h + 1), echo := none }
  else
    let s1 := s.setPort n { x with cal := .done, echo := none, tPort := x.tPortOf, tDown := x.tDownOf l }
    s1.raiseIf (!s1.timingOk n (x.tDownOf l)) (140 + n)

/-- A hub has echoed in a recalibration round: a change of at most 8 UI is applied to every device at or below it
(R176, R177). -/
def State.recalEcho (s : State) (n h d : Nat) : State :=
  let x := s.port n
  let l := s.devs n
  match (hubsOf l)[h]? with
  | none => s.recalNext n h
  | some i =>
    let change : Int := (d : Int) - ((x.delay i).getD d : Nat)
    if 8 < change.natAbs then ((s.setBit (Reg.PRT_FRM_EVT n) 7).raise (140 + n)).recalNext n h
    else if change = 0 then s.recalNext n h
    else
      let top := (l.getD i { addr := 0, kind := 0 }).addr
      let x1 := (indexed 0 l).foldl (fun y e =>
        if atOrBelow top e.2.addr then
          (match y.delay e.1 with
           | some q => y.setDelay e.1 (((q : Int) + change).toNat)
           | none => y)
        else y) x
      let msg := ownCtrl 0x02 top (((1 : BitVec 64) <<< 63) ||| (BitVec.ofInt 24 change).setWidth 64)
      ((s.setPort n x1).queueCtrl n msg).recalNext n h

/-- An echo of the calibration or of a round has been measured, or has not come (R169, R170, R173, R177): an ECHO_TIMEOUT in
step 3 ends the calibration with 0x20, and neither ALIGN nor TIME follows. DEDUCED: log entry 135. -/
def State.calEchoDone (s : State) (n : Nat) (d : Option Nat) : State :=
  let x := { s.port n with echo := none }
  let s1 := s.setPort n x
  match x.cal, d with
  | .echo i, some d =>
    match (x.echoList (s.devs n))[i]? with
    | none => s1
    | some p =>
      let s2 := s1.setPort n { x.setDelay p d with cal := .echo (i + 1) }
      if i + 1 < (x.echoList (s.devs n)).length then s2 else s2.calAlign n
  | .echo i, none => s1.calFail n 0x20 ((x.echoList (s.devs n)).getD i 0)
  | .recal h, some d => s1.recalEcho n h d
  | .recal h, none => s1.recalNext n h
  | _, _ => s1

/-- What a census finds: a result code with its index, or the positions of the absent cells (R159). -/
def censusVerdict (l : List Dev) (recs : List CensusRec) (redAll redFb : Nat) : (Nat × Nat) ⊕ List Nat :=
  let rec_ := fun (a : BitVec 24) => recs.find? fun r => r.addr == a
  let dev := indexed 0 l
  match dev.find? (fun e => !e.2.isCell && (rec_ e.2.addr).isNone) with
  | some e => .inl (0x10, e.1)
  | none =>
    match dev.find? (fun e => match rec_ e.2.addr with | some r => r.kind != e.2.kind | none => false) with
    | some e => .inl (0x11, e.1)
    | none =>
      match (indexed 0 recs).find? (fun e => (posOf l e.2.addr).isNone) with
      | some e => .inl (0x12, e.1)
      | none =>
        let absent := dev.filter fun e => (rec_ e.2.addr).isNone
        let fb := absent.filter fun e => e.2.kind == 2
        match absent[redAll]?, fb[redFb]? with
        | some a, some b => .inl (0x13, min a.1 b.1)
        | some a, none => .inl (0x13, a.1)
        | none, some b => .inl (0x13, b.1)
        | none, none => .inr (absent.map (·.1))

/-- The counts a census shows in PRT_CENSUS (R190). -/
def censusCount (recs : List CensusRec) : Word :=
  let cnt := fun (f : CensusRec → Bool) => (recs.filter f).length
  BitVec.ofNat 32 (cnt (fun r => r.kind == 1 || r.kind == 2) % 2048 * 65536 + cnt (fun r => r.kind == 3) % 64 * 256 +
    cnt (fun r => r.kind == 4) % 8)

/-- Cells found absent are latched OUT, which the arm engine reports (R161, R199, R243, AE_EVT.CELL_OUT). -/
def State.noteAbsent (s : State) (n : Nat) (absent : List Nat) : State :=
  if s.open (.ae n) && !absent.isEmpty then (s.setBit (Reg.AE_EVT n) 1).raiseOnce 156 else s

/-- A census response is compared with the topology (R159 to R161, R173, R202); HOLD then carries the topology's value in
ARG [5:0], where 64 is 0 (R164). DEDUCED: log entry 48. -/
def State.censusTaken (s : State) (n : Nat) (recs : List CensusRec) : State :=
  let par := (s.aeTable n).1
  let s1 := (s.setPort n { s.port n with census := recs }).wr (Reg.PRT_CENSUS n) (censusCount recs)
  match censusVerdict (s.devs n) recs par.redAll par.redFb with
  | .inl r => (s1.setPort n { s1.port n with censusOk := false }).calFail n r.1 r.2
  | .inr absent =>
    let s2 := s1.setPort n { s1.port n with censusOk := true, absent := absent, cal := .echo 0, delays := [] }
    let s3 := s2.wr (Reg.PRT_CENSUS_RES n) (if absent.isEmpty then 1 else 2)
    ((s3.aeCensus n).noteAbsent n absent).queueCtrl n (ownCtrl 0x05 allDevices (BitVec.ofNat 64 ((s.topo n).hold % 64)))

end Sys2Proof.Machine
end

