-- ==== Sys2Proof/Machine/LaneOps.lean ====
section
/-! DEFINITION. The lanes of an arm port or of X13: training, loss of signal and lock, port faults (R88 to R110). Lane
timers run on the module's own VT. -/

namespace Sys2Proof.Machine

/-- The fault sources of a port: 0 loss of signal, 1 loss of lock, 2 training failure (R101, R102). -/
def laneSrc (p i : Nat) : Nat := if p < 12 then 64 + 5 * p + i else 192 + i

/-- The window of a port's lane registers. -/
def laneBlk (p : Nat) : Blk := if p < 12 then .port p else .twn

/-- Does the port lead the training? On X13 the primary does; a port that trains against itself leads (R90, R110). -/
def State.leads (s : State) (p : Nat) : Bool := decide (p < 12) || !s.twn.secondary || (s.lane p).loopEff != 0

/-- Is training in progress? (R92, R93) -/
def Lane.training (x : Lane) : Bool :=
  match x.st with
  | .clock | .phase | .level | .align | .check => true
  | .data => !x.up
  | _ => false

/-- The stage after a stage (R91). -/
def LaneSt.succ (l : LaneSt) : LaneSt :=
  match l with
  | .clock => .phase | .phase => .level | .level => .align | .align => .check | .check => .data | x => x

/-- The bound of a stage in ticks (R91). DEDUCED: log entry 30. -/
def LaneSt.bound (l : LaneSt) : Nat :=
  match l with
  | .clock => us 200 | .phase => us 60 | .level => us 20 | .align => us 10 | .check => us 15 | .data => us 1 | _ => 0

/-- The failure code of a stage that runs past its bound (R91). -/
def Lane.boundCode (x : Lane) : BitVec 8 :=
  match x.st with
  | .clock => if x.darkC then 1 else 2
  | .phase => 3 | .level => 4 | .align => 5 | .check => 6 | _ => 7

/-- All three receive fibres are LIT (R98). -/
def Lane.allLit (x : Lane) : Bool := !x.dark0 && !x.dark1 && !x.darkC

/-- Time moves on to a tick of the module's own VT. -/
def State.advanceVt (s : State) (t : BitVec 64) : State := s.elapse (ahead s.tb.vt t)

/-- LOOP with its reserved code taken as 00 (R112). -/
def loopOf (v : Word) : BitVec 2 := if fieldOf v 6 2 = 3 then 0 else BitVec.ofNat 2 (fieldOf v 6 2)

/-- The test fields take effect on entry to OFF, FAULT or IDLE, and stay in effect in the states that follow; a check of
PRBS31 begins anew when PRBS_RX comes into effect (R110). DESIGN CHOICE: log entry 101. -/
def Lane.takeTest (x : Lane) (ctl : Word) : Lane :=
  let y := if x.prbsRx then x else { x with prbs0 := {}, prbs1 := {} }
  { y with loopEff := loopOf ctl, prbsTx := ctl.getLsbD 5, prbsRx := ctl.getLsbD 4 }

/-- A port, as `x` says, enters a port state; its training frames begin anew (R89, R90). -/
def State.enterLane (s : State) (p : Nat) (x : Lane) (st : LaneSt) : Lane :=
  { x with st := st, up := false, rxDone := false, ready := 0, stageAt := s.tb.vt, seq7 := s.seq7Next p }

/-- A port enters OFF, FAULT or IDLE. -/
def State.laneRest (s : State) (p : Nat) (x : Lane) (st : LaneSt) : State :=
  s.setLane p ((s.enterLane p x st).takeTest (s.rd (Reg.PRT_LANE_CTL p)))

/-- Training starts (R106, R107, R109, R112). -/
def State.laneTrain (s : State) (p : Nat) : State :=
  let x := { s.enterLane p (s.lane p) .clock with
    freqOnce := false, trainFailed := false, portFault := false, darkFrom := none }
  ((s.setLane p x).clrBit (Reg.PRT_LANE_CTL p) 0).addField (Reg.PRT_TRAIN_CNT p) 0 16 1

/-- Training fails with a code (R93, R94). -/
def State.laneFail (s : State) (p : Nat) (code : BitVec 8) : State :=
  let x := { s.lane p with failCode := code, failAt := s.tb.vt, portFault := true, trainFailed := true, failByLol := false }
  (((s.laneRest p x .fault).addField (Reg.PRT_TRAIN_CNT p) 16 16 1).setBit (Reg.PRT_LANE_EVT p) 3).raise (laneSrc p 2)

/-- The blocks of the period in progress that count: after a fault, those accepted before it (R103). -/
def Port.stream (x : Port) : Sparse (Option (BitVec 460)) := if x.rptLost then x.rptKept else x.rpt

/-- What an arm port loses when it leaves DATA: reports and samples not yet through their checks count as missing, no
further block of the period is sent, echo accounting and calibration end (R103, R104, R105, R152). -/
def Port.dropped (x : Port) (now : BitVec 64) : Port :=
  { x.cutFrame now with
    framesOn := false, cmdsOn := false, rptKept := x.stream, rptLost := true, echoFrom := none, echoRun := false
    plan := .none, cal := .idle, calDone := false, echo := none, echoFw := none, barrier := none, ctrl := [], busy := false }

/-- The duty surrenders when an arm port in use leaves DATA and the partner is ready (R498, condition 1). -/
def State.portSurrender (s : State) (p : Nat) : State :=
  if decide (p < 12) && s.inUse p && s.twinEn && s.duty && s.partnerReady then s.surrender 1 p else s

/-- A port leaves DATA; what it has sent by then stands (R103, R104, R113, R498). -/
def State.leaveData (s : State) (p : Nat) : State :=
  if p < 12 then
    (((s.setPort p ((s.port p).dropped s.now)).clrBit (Reg.PRT_CTL_REQ p) 0).portSurrender p).ill
  else s.ill

/-- A port fault: the port enters FAULT, raises the source and leaves DATA (R99, R103). -/
def State.portFault (s : State) (p i : Nat) : State :=
  let x := s.lane p
  let x1 := { x with portFault := true, faultAt := s.tb.vt, trainFailed := false
                     losRaised := x.losRaised || i == 0, lolRaised := x.lolRaised || i == 1 }
  ((s.laneRest p x1 .fault).raise (laneSrc p i)).leaveData p

/-- A fibre's bit (R98). -/
def Lane.dark (x : Lane) (f : Fibre) : Bool := match f with | .d0 => x.dark0 | .d1 => x.dark1 | .ck => x.darkC
def Lane.setDark (x : Lane) (f : Fibre) (b : Bool) : Lane :=
  match f with | .d0 => { x with dark0 := b } | .d1 => { x with dark1 := b } | .ck => { x with darkC := b }

/-- The fibres that are DARK, D0 in bit 0. -/
def Lane.darks (x : Lane) : BitVec 3 := BitVec.ofNat 3 (flag x.dark0 + 2 * flag x.dark1 + 4 * flag x.darkC)

/-- A fibre turns DARK or LIT; PRT_RX_POWER goes by how the microsecond began (R98, R111). -/
def State.darkNow (s : State) (p : Nat) (x : Lane) (f : Fibre) (b : Bool) : Lane :=
  let us := s.laneUs p
  let y := if x.darkUs = us ∧ us ≠ 0 then x else { x with darkWas := x.darks, darkUs := us }
  y.setDark f b

/-- Did the port fall out of DATA in this very tick by the other assertion? (R100) -/
def Lane.sameTickFault (x : Lane) (vt : BitVec 64) : Bool :=
  x.st == .fault && x.portFault && !x.trainFailed && x.faultAt == vt

/-- Did training end in this very tick by loss of lock? (R93) -/
def Lane.sameTickLol (x : Lane) (vt : BitVec 64) : Bool :=
  x.st == .fault && x.trainFailed && x.failAt == vt && x.failByLol

/-- A receive phase error is noted: the largest since the last PRT_CNT_CLR, in 1/64 UI (R80, R111). DEDUCED: log entry 102.
-/
def State.notePhase (s : State) (p err : Nat) : State :=
  s.setField (Reg.PRT_PHERR_MAX p) 0 6 (max (s.field (Reg.PRT_PHERR_MAX p) 0 6) (min (64 * err / 1000) 63))

/-- The status bit of a cause clears, and the lock machine is in UNLOCKED (R98). -/
def Lane.unlock (x : Lane) (c : LolCause) : Lane :=
  match c with
  | .phaseErr _ => { x with rxLock := false, locked := false }
  | .freq => { x with freqOk := false, locked := false }
  | .txClk => { x with txLock := false, locked := false }

/-- Has the port's receiver had lock on CK? In DATA, and in training once CLOCK is past (R79, R91, R98). -/
def State.lockHad (s : State) (p : Nat) : Bool :=
  (s.lane p).locked || ((s.lane p).training && ((s.lane p).st != .clock || (s.lane p).rxDone))

/-- X13 that had lock on CK received and has lost it is dark on all its transmit fibres within 1 µs, until it trains again (R79).
DESIGN CHOICE: log entry 100. -/
def State.partnerDark (s : State) (p : Nat) (c : LolCause) (x : Lane) : Lane :=
  if p = 12 ∧ c ≠ .txClk ∧ x.darkFrom.isNone ∧ s.lit p ∧ s.lockHad p
  then { x with darkFrom := some (s.tb.vt + BitVec.ofNat 64 (Config.darkDelay s.tb.vt.toNat % 201)) } else x

/-- The port loses lock for a cause (R79, R97 to R100). -/
def State.loseLock (s : State) (p : Nat) (c : LolCause) : State :=
  let x := s.lane p
  let x1 := s.partnerDark p c (x.unlock c)
  let s1 := (s.setLane p x1).setBitIf x.locked (Reg.PRT_LANE_EVT p) 2
  if x.inData then (s1.addField (Reg.PRT_LOL_CNT p) 0 16 1).portFault p 1
  else if x.sameTickFault s.tb.vt ∧ x.lolRaised = false then
    ((s1.addField (Reg.PRT_LOL_CNT p) 0 16 1).setLane p { x1 with lolRaised := true }).raise (laneSrc p 1)
  else if x.training ∧ x.st ≠ .clock then
    let s2 := s1.laneFail p 2
    s2.setLane p { s2.lane p with failByLol := true }
  else s1

/-- Where the first data symbol lies once training frames with STAGE = 6 go out from `t` on: 64 symbols after the last of a
number of them that the part chooses (R92, R122). DESIGN CHOICE: log entry 98. -/
def State.dataFrom (s : State) (p : Nat) (t : BitVec 64) : BitVec 64 :=
  let f0 := if p < 12 then nextTrain t else t
  f0 + BitVec.ofNat 64 (4 * (1 + Config.dataFrames p t.toNat % 48) + 2)

/-- The leader's or follower's next stage; on the way to DATA it is settled where blocks begin (R90, R92, R120). -/
def State.laneNext (s : State) (p : Nat) : State :=
  let x := s.lane p
  let y := s.enterLane p x x.st.succ
  let d := s.dataFrom p s.now
  s.setLane p (if y.st = .data then { y with dataAt := d } else y)

/-- The leader moves on once its receiver is done and 8 ready frames have come (R90). -/
def State.laneTry (s : State) (p : Nat) : State :=
  let x := s.lane p
  if s.leads p ∧ x.rxDone ∧ 8 ≤ x.ready ∧ x.training ∧ x.st ≠ .data then s.laneNext p else s

/-- May X13 be switched on at all? With TWIN_EN = 0 it stays in OFF (R470). -/
def State.mayRun (s : State) (p : Nat) : Bool := decide (p < 12) || s.twinEn

/-- TX_EN has been set: from OFF to IDLE, and on to training with AUTO_RETRAIN or a request waiting (R109). -/
def State.txOn (s : State) (p : Nat) : State :=
  let x := s.lane p
  if x.st = .off ∧ s.mayRun p then
    let s1 := s.laneRest p x .idle
    if s1.bitOf (Reg.PRT_LANE_CTL p) 3 ∨ s1.bitOf (Reg.PRT_LANE_CTL p) 0 then s1.laneTrain p else s1
  else s

/-- TX_EN has been cleared: the transmit fibres go dark and DATA ends without an event (R113). -/
def State.txOff (s : State) (p : Nat) : State :=
  let x := s.lane p
  if x.st = .off then s
  else
    let s1 := s.laneRest p { x with portFault := false } .off
    if x.inData then s1.leaveData p else s1

/-- A training request (R106, R107, R112). DEDUCED: log entry 33. -/
def State.trainReq (s : State) (p : Nat) : State :=
  let x := s.lane p
  let reg := Reg.PRT_LANE_CTL p
  if x.inData then
    if s.armBlocked p then (s.leaveData p).laneTrain p
    else (s.clrBit reg 0).setBit (Reg.PRT_LANE_EVT p) 6
  else if x.training then s.clrBit reg 0
  else if x.st = .off then s.setBit reg 0
  else s.laneTrain p

/-- A write to PRT_LANE_CTL as a whole (R109, R110, R112, R113). -/
def State.laneCtl (s : State) (p : Nat) (v : Word) : State :=
  let reg := Reg.PRT_LANE_CTL p
  let old := s.rd reg
  let x := s.lane p
  let s1 := s.wr reg ((v &&& 0xFC) ||| (old &&& 1))
  let s2 := if x.st = .off ∨ x.st = .fault ∨ x.st = .idle then s1.setLane p (x.takeTest v) else s1
  let s3 := if old.getLsbD 2 ∧ v.getLsbD 2 = false then s2.txOff p
    else if old.getLsbD 2 = false ∧ v.getLsbD 2 then s2.txOn p else s2
  let s4 := if v.getLsbD 3 ∧ (s3.lane p).st = .idle then s3.laneTrain p else s3
  if v.getLsbD 0 then s4.trainReq p else s4

/-- A stage of start-up begins; its result code returns to 0 (R543, R547). -/
def State.setStage (s : State) (k : Nat) : State :=
  { s with sys := { s.sys with stage := k, stageUp := s.sys.up, result := 0 } }

/-- Stage 4 ends when every port in PORT_MASK is in DATA and b(0) has passed (R543). -/
def State.stageFourDone (s : State) : State :=
  if s.sys.stage = 4 ∧ s.tb.run ∧ s.portsUsed.all (fun n => (s.lane n).inData) then s.setStage 5 else s

/-- The counters that PRT_CNT_CLR clears (R111). -/
def State.laneCntClr (s : State) (p : Nat) : State :=
  s.clearAll [Reg.PRT_PHERR_MAX p, Reg.PRT_LOS_CNT p, Reg.PRT_LOL_CNT p, Reg.PRT_TRAIN_CNT p, Reg.PRT_PRBS_ERR p]

end Sys2Proof.Machine
end

