-- ==== Sys2Proof/Machine/CtrlOps.lean ====
section
/-! DEFINITION. Sending control messages and taking their answers (R162 to R177, R187 to R192). -/

namespace Sys2Proof.Machine

/-- The tick on which a frame of the period with boundary `b` begins (R127). -/
def State.frameStart (s : State) (b : BitVec 64) : BitVec 64 := nextBlock (b + BitVec.ofNat 64 s.sec.eStart)

/-- May a CTRL block of port `n` begin at tick `t`? Outside the emit phase, and not so late that it would end after the
start of the next frame (R162). -/
def State.ctrlFits (s : State) (n : Nat) (t : BitVec 64) : Bool :=
  if s.tb.run then
    let fits := fun (b : BitVec 64) =>
      -- after this emit phase, or ended before its frame begins
      reached t (b + BitVec.ofNat 64 (s.sec.port n).eEnd) || !reached t (s.frameStart b - 3)
    fits s.tb.bound && !reached t (s.frameStart s.tb.nextB - 3)
  else true

/-- The tick on which the next CTRL block could begin (R92, R117, R122). -/
def State.ctrlTick (s : State) (n : Nat) : BitVec 64 :=
  let u := (s.lane n).dataAt
  let t := if reached s.now u then nextBlock s.now else u
  match (s.port n).lastCtrl with
  | some m => if reached t (m.2.2 + 4) then t else m.2.2 + 4
  | none => t

/-- Does XA lie at least t_down + 24 ticks after the start of its block? (R187) -/
def State.xaInTime (s : State) (n : Nat) (xa : BitVec 16) (t : BitVec 64) : Bool :=
  decide ((s.tDown n + 24 : Nat) ≤ timeDiff xa (t.setWidth 16))

/-- A firmware request has ended (R190, R191). -/
def State.ctlEnd (s : State) (n : Nat) (bit : Nat) : State :=
  ((s.setPort n { s.port n with busy := false }).clrBit (Reg.PRT_CTL_REQ n) 0).setBit (Reg.PRT_FRM_EVT n) bit

/-- Deadline of a barrier sent at `t` (R189). -/
def State.barrierEnds (s : State) (n : Nat) (t : BitVec 64) : BitVec 64 :=
  t + BitVec.ofNat 64 (2 * s.tDown n + 4 * bUp (s.topo n).nnode (s.topo n).ncell + 400)

/-- The message as it goes out at `t`: with its EPOCH, and TIME with the departure of its first symbol (R163, R164). -/
def Ctrl.sentAt (c : Ctrl) (epoch : BitVec 16) (t : BitVec 64) : Ctrl :=
  { c with arg := if c.op = 0x03 then BitVec.ofNat 64 (t.toNat % 2 ^ 32) else c.arg, epoch := some (c.epoch.getD epoch) }

/-- The message with what its departure decides: an ECHO of the calibration or of a round has its REPLY_OFS chosen for the block
that carries it (R170). -/
def State.departing (s : State) (n : Nat) (c : Ctrl) : Ctrl :=
  if c.op = 0x01 ∧ c.fw = false then
    { c with arg := BitVec.ofNat 64 (s.replyOfs n ((posOf (s.devs n) c.target).bind (s.port n).delay) s.now) }
  else c

/-- The head of the queue goes out in the block that starts now (R163, R164, R169, R173, R189). DEDUCED: log entry 26. HOLD 64
is held as 0 (R183). DEDUCED: log entry 48. -/
def State.ctrlOut (s : State) (n : Nat) (w : Ctrl) (rest : List Ctrl) : State :=
  let c := s.departing n w
  let t := s.now
  let s0 := s.lineNote n
  let x := s0.port n
  let x1 := { x with ctrl := rest, lastCtrl := some (c.sentAt s.epoch t, x.ctrlSeq, t), ctrlSeq := x.ctrlSeq + 1 }
  let s1 := if c.fw then (s0.setPort n x1).clrBit (Reg.PRT_CTL_REQ n) 0 else s0.setPort n x1
  let out : EchoOut := { target := c.target, seq := x.ctrlSeq, ts := 32 * t.toNat, ofs := fieldOf c.arg 0 16 }
  match c.op with
  | 0x01 => s1.setPort n (if c.fw then { x1 with echoFw := some out } else { x1 with echo := some out })
  | 0x03 => if x.cal = .finish then s1.calFinish n else s1
  | 0x04 => s1.setPort n { x1 with censusAt := t }
  | 0x05 => s1.setPort n { x1 with hold := fieldOf c.arg 0 6 }
  | 0x06 => (s1.setPort n { x1 with snap := [], snapXa := some c.xa }).ctlEnd n 8
  | 0x07 => s1.setPort n { x1 with barrier := some (BitVec.ofNat 8 (fieldOf c.arg 0 8), s.barrierEnds n t) }
  | 0x08 => s1.ctlEnd n 8
  | _ => s1

/-- CTRL_BLOCK_SEND: the oldest message waiting goes out, unless it must wait or its XA has come too near (R162, R187). A RESET
is refused on BLOCK_ARM at GO only: a frame sent while it waits does not refuse it (R188). DEDUCED: log entry 136. -/
def execCtrlBlockSend (p : Fin 12) (s : State) : Res :=
  let x := s.port p
  let t := s.ctrlTick p
  match x.ctrl with
  | [] => .next s
  | c :: rest =>
    if (s.lane p).inData = false ∨ s.ctrlFits p t = false then .next s
    else if c.fw ∧ c.xaUsed ∧ s.xaInTime p c.xa t = false then
      .next ((s.setPort p { x with ctrl := rest }).ctlEnd p 5)
    else .next ((s.advanceTo t).ctrlOut p c rest)

/-- The argument a firmware request sends: what R164 gives its operation, from the ARG registers. A REPLY_OFS outside 64 to
4,000 goes out as the nearer of the two. DESIGN CHOICE: log entry 104. -/
def ctlArg (op : Nat) (v : BitVec 64) : BitVec 64 :=
  if op = 1 then BitVec.ofNat 64 (min (max (fieldOf v 0 16) 64) 4000) else if op = 7 then BitVec.ofNat 64 (fieldOf v 0 8) else 0

/-- The message a firmware request asks for (R163, R164, R190), to the TARGET as it stands. DESIGN CHOICE: log entry 137. -/
def State.ctlMsg (s : State) (n op : Nat) : Ctrl :=
  { op := BitVec.ofNat 8 op, target := (s.rd (Reg.PRT_CTL_TGT n)).setWidth 24, xa := (s.rd (Reg.PRT_CTL_XA n)).setWidth 16
    xaUsed := op == 6 || op == 8
    arg := ctlArg op (BitVec.ofNat 64 (s.rdNat (Reg.PRT_CTL_ARG_HI n) * 2 ^ 32 + s.rdNat (Reg.PRT_CTL_ARG_LO n))), fw := true }

/-- A write to PRT_CTL_REQ (R187, R188, R190 to R192). An ECHO that is accepted makes the result of the one before invalid.
DESIGN CHOICE: log entry 105. -/
def State.ctlReq (s : State) (n : Nat) (v : Word) : State :=
  let op := fieldOf v 8 8
  let s1 := s.wr (Reg.PRT_CTL_REQ n) ((v &&& 0xFF00) ||| (s.rd (Reg.PRT_CTL_REQ n) &&& 1))
  if v.getLsbD 0 = false then s1
  else if (op ≠ 1 ∧ op ≠ 6 ∧ op ≠ 7 ∧ op ≠ 8) ∨ (s.port n).busy ∨ (s.lane n).inData = false ∨ s.holds = false then
    s1.setBit (Reg.PRT_FRM_EVT n) 9
  else if op = 8 ∧ (s.port n).blockArm = false then s1.setBit (Reg.PRT_FRM_EVT n) 6
  else
    let c := s1.ctlMsg n op
    if c.xaUsed ∧ s1.xaInTime n c.xa (s1.ctrlTick n) = false then s1.setBit (Reg.PRT_FRM_EVT n) 5
    else
      let s2 := if op = 1 then s1.clrBit (Reg.PRT_ECHO_RES n) 31 else s1
      ((s2.setBit (Reg.PRT_CTL_REQ n) 0).setPort n { s1.port n with busy := true }).queueCtrl n c

/-- A request word of PRT_CTL_REQ. -/
def goWord (op : Nat) : Word := putField op 8 ||| 1

/-- ECHO_REQUEST: GO with OP ECHO (R191, R192). -/
def execEchoRequest (p : Fin 12) (s : State) : Res :=
  s.via (.port p) fun t => t.ctlReq p (goWord 1)

/-- SNAP_REQUEST: GO with OP SNAP (R187, R191). -/
def execSnapRequest (p : Fin 12) (s : State) : Res := s.via (.port p) fun t => t.ctlReq p (goWord 6)

/-- BARRIER_REQUEST: GO with OP BARRIER (R189, R191). DEDUCED: log entry 28. -/
def execBarrierRequest (p : Fin 12) (s : State) : Res := s.via (.port p) fun t => t.ctlReq p (goWord 7)

/-- RESET_REQUEST: GO with OP RESET (R187, R188, R191). -/
def execResetRequest (p : Fin 12) (s : State) : Res := s.via (.port p) fun t => t.ctlReq p (goWord 8)

/-- A device's DELAY in UI from departure, arrival and REPLY_OFS (R169). -/
def delayOf (tr ts ofs : Nat) : Nat := (((tr : Int) - ts - 32 * ofs + 1) / 2).toNat

/-- Does a response answer an ECHO? (R167) -/
def EchoOut.answers (e : Option EchoOut) (target : BitVec 24) (seq : BitVec 8) : Option EchoOut :=
  e.filter fun e => e.target == target && e.seq == seq

/-- ECHO_RESPONSE: an echo arrives `ui` unit intervals into the present tick (R169, R173, R176, R192). -/
def execEchoResponse (p : Fin 12) (target : BitVec 24) (seq : BitVec 8) (ui : Fin 32) (s : State) : Res :=
  let x := s.port p
  let d := fun (e : EchoOut) => delayOf (32 * s.now.toNat + ui) e.ts e.ofs
  match EchoOut.answers x.echo target seq, EchoOut.answers x.echoFw target seq with
  | some e, _ => .next (s.calEchoDone p (some (d e)))
  | none, some e =>
    .next (((s.setPort p { x with echoFw := none }).wr (Reg.PRT_ECHO_RES p)
      (bitIf true 31 ||| BitVec.ofNat 32 (d e % 2 ^ 24))).ctlEnd p 8)
  | none, none => .next s

/-- The tick by which an ECHO must have been answered (R170). -/
def EchoOut.deadline (e : EchoOut) : BitVec 64 := BitVec.ofNat 64 (e.ts / 32 + e.ofs + 600)

/-- Does the firmware's ECHO run out before the calibration's? -/
def Port.fwFirst (x : Port) : Bool :=
  match x.echo, x.echoFw with
  | some a, some b => !reached b.deadline a.deadline
  | none, some _ => true
  | _, none => false

/-- ECHO_TIMEOUT: no echo within REPLY_OFS + 600 ticks; of two outstanding the one due first (R170, R173, R177). DEDUCED: log
entry 138. -/
def execEchoTimeout (p : Fin 12) (s : State) : Res :=
  let x := s.port p
  let late := fun (e : EchoOut) => (s.advanceTo e.deadline).setBit (Reg.PRT_FRM_EVT p) 3
  match (if x.fwFirst then x.echoFw else x.echo) with
  | none => .next s
  | some e =>
    if x.fwFirst then
      let s1 := (late e).clrBit (Reg.PRT_ECHO_RES p) 31
      .next (s1.setPort p { s1.port p with echoFw := none, busy := false })
    else .next ((late e).calEchoDone p none)

/-- CENSUS_RESPONSE: the records of the devices that answered (R158 to R161, R173). -/
def execCensusResponse (p : Fin 12) (recs : List CensusRec) (s : State) : Res :=
  if (s.port p).cal = .census ∧ recs ≠ [] then .next (s.censusTaken p recs) else .next s

/-- CENSUS_TIMEOUT: no census record within 2 ms of the CENSUS message (R159). -/
def execCensusTimeout (p : Fin 12) (s : State) : Res :=
  let x := s.port p
  if x.cal = .census then
    let s1 := (s.advanceTo (x.censusAt + BitVec.ofNat 64 (us 2000))).wr (Reg.PRT_CENSUS p) 0
    .next ((s1.setPort p { s1.port p with censusOk := false, census := [] }).calFail p 0x14 0)
  else .next s

/-- CENSUS_RETRY: a port whose census or calibration failed begins the steps again, every 100 ms (R546). DEDUCED: log
entry 29. -/
def execCensusRetry (p : Fin 12) (s : State) : Res :=
  let x := s.port p
  if x.cal = .failed ∧ (s.lane p).inData then
    .next ((s.advanceTo (x.calAt + BitVec.ofNat 64 (us 100000))).calStart p)
  else .next s

/-- BARRIER_RESPONSE: the root's answer completes the barrier (R189). -/
def execBarrierResponse (p : Fin 12) (id nack : BitVec 8) (s : State) : Res :=
  match (s.port p).barrier with
  | none => .next s
  | some b =>
    if b.1 = id then
      .next (((s.setPort p { s.port p with barrier := none }).wr (Reg.PRT_BAR_RES p)
        (putField id.toNat 8 ||| nack.setWidth 32)).ctlEnd p 8)
    else .next s

/-- BARRIER_TIMEOUT: no answer within the bound (R189). -/
def execBarrierTimeout (p : Fin 12) (s : State) : Res :=
  match (s.port p).barrier with
  | none => .next s
  | some b =>
    let s1 := (s.advanceTo b.2).setBit (Reg.PRT_FRM_EVT p) 4
    .next (s1.setPort p { s1.port p with barrier := none, busy := false })

/-- SNAPSHOT_RESPONSE: one block of the snapshot taken at XA (R164, R167). -/
def execSnapshotResponse (p : Fin 12) (index : BitVec 8) (body : BitVec 460) (s : State) : Res :=
  let x := s.port p
  if x.snapXa.isSome then
    .next (s.setPort p { x with snap := Sparse.put (fun _ => none) x.snap index.toNat (some body) })
  else .next s

/-- RECAL_ROUND: at a boundary with PC mod 1,024 = 0 a round begins on a calibrated port (R176). -/
def execRecalRound (p : Fin 12) (s : State) : Res :=
  let x := s.port p
  if s.tb.pc.toNat % 1024 = 0 ∧ (s.lane p).inData ∧ x.calDone ∧ x.cal = .done then
    .next ((s.setPort p { x with cal := .recal 0 }).calEcho p)
  else .next s

/-- The counters that PRT_FRM_CNT_CLR clears (R190). -/
def State.frmCntClr (s : State) (n : Nat) : State :=
  s.clearAll [Reg.PRT_BLK_DISC n, Reg.PRT_BLK_STALE n, Reg.PRT_ECHO_TOT n]

/-- PRT_FRM_CNT_CLR: a write of 1 to bit 0 (R190). -/
def execPrtFrmCntClr (p : Fin 12) (s : State) : Res := s.via (.port p) fun t => t.frmCntClr p

end Sys2Proof.Machine
end

