-- ==== Sys2Proof/Machine/GustOps.lean ====
section
/-! DEFINITION. The capture of the Gust recorder: capacities, the records of a period, triggers and stops
(R420 to R429, R441 to R450, R460 to R463). -/

namespace Sys2Proof.Machine

/-- Does period `a` come no later than period `b`? (R6) -/
def pcLe (a b : BitVec 32) : Bool := decide (0 ≤ timeDiff b a)

/-- The last period of the record, once it is known (R446 to R450, R459, R463). -/
def Gst.lastPc (g : Gst) : Option (BitVec 32) :=
  match g.stopAt, g.postEnd with
  | some a, some b => some (if pcLe a b then a else b)
  | some a, none => some a
  | none, b => b

/-- Fields of the configuration (R421, R460, R467). -/
def State.gstPlaneEn (s : State) : Bool := s.bitOf Reg.GST_CFG 31
def State.gstShareTx (s : State) : Bool := s.bitOf Reg.GST_CFG 30
def State.gstShareRx (s : State) : Bool := s.bitOf Reg.GST_CFG 29
def State.gstTraceSize (s : State) : Nat := s.field Reg.GST_CFG 0 8
def State.gstPost (s : State) : Nat := s.field Reg.GST_POST 0 24

/-- A TRACE_SIZE that describes a trace area (R421). -/
def traceSizeOk (t : Nat) : Bool := decide (1 ≤ t ∧ t ≤ 128)

/-- Sizes of the areas and of the records (R421, R428, R436). -/
def areaUnit : Nat := 0x4000000
def segSize (ncell : Nat) : Nat := 64 * ((2 * ncell + 63) / 64)
def planeSize (ncells : List Nat) : Nat := 64 + (ncells.map segSize).foldl (· + ·) 0
def traceCap (t : Nat) : Nat := if traceSizeOk t then t * areaUnit / 384 else 0
def planeCap (t size : Nat) : Nat := if traceSizeOk t then (128 - t) * areaUnit / size else 0

/-- Cell counts of the twelve ports as a plane record shows them (R427). -/
def State.gstNcells (s : State) : List Nat := (List.range 12).map fun n => if s.inUse n then (s.sec.port n).ncell else 0

/-- Plane record size that the configuration gives (R428). -/
def State.gstPlSize (s : State) : Nat := planeSize s.gstNcells

/-- May an ARM be accepted? (R443) -/
def State.gstArmOk (s : State) : Bool :=
  let t := s.gstTraceSize
  let tr := traceCap t
  let pl := planeCap t s.gstPlSize
  !s.gst.captures && traceSizeOk t && !(s.gstPlaneEn && t == 128) && s.tb.run &&
  decide (s.gstPost < if s.gstPlaneEn then min tr pl else tr)

/-- The REACT byte of the moment (R427). -/
def State.gstReact (s : State) : Nat := s.reaction + (if s.flt.latch then 4 else 0) + (if s.holds then 8 else 0)

/-- The sources with an event in the tick of the boundary, before its row opens (R435). -/
def State.gstFirstFaults (s : State) : BitVec 256 :=
  s.flt.srcs.foldl (fun m (e : Nat × Src) => if e.2.seen s.tb.bound then m ||| ((1 : BitVec 256) <<< e.1) else m) 0

/-- What the COMMIT of this boundary, if there was one, switched: the schedule, and P (R427, R450). -/
def State.gstSwitched (s : State) : Bool × Bool :=
  match s.gst.switched with
  | some m => if m.1 = s.tb.pc then m.2 else (false, false)
  | none => (false, false)

/-- The record that opens at a boundary (R427, R435, R450). -/
def State.gstOpen (s : State) (first : Bool) : GstPer :=
  { pc := s.tb.pc, idx := if first then 0 else s.gst.taken, p := s.per, vtB := s.tb.bound, ntB := s.net.count, ntValid := s.net.locked
    react := s.gstReact, epoch := s.epoch, mask := s.sec.mask, ncells := s.gstNcells, first := first
    schedSwitched := s.gstSwitched.1, pChanged := s.gstSwitched.2, faults := s.gstFirstFaults }

/-- The record of a new period is opened while capture goes on (R441, R442, R447). -/
def State.gstBegin (s : State) : State :=
  let go := match s.gst.lastPc with | some l => pcLe s.tb.pc l | none => true
  if s.gst.captures && go && s.powered 7 then
    { s with gst := { s.gst with live := s.gstOpen false :: s.gst.live, taken := s.gst.taken + 1 } }
  else s

/-- A cell's value as the plane stores it (R424, R425). -/
def planeValue (r : Option Report) : BitVec 16 :=
  match r with
  | some x => if x.volt = 0xFFFF then 0xFFFE else x.volt
  | none => 0xFFFF

/-- The plane of the period takes the values at b(k) + I_END. `bad` names the values, by port and cell, whose complement
check fails as they enter memory island A (R424 to R426). -/
def State.gstPlane (s : State) (bad : List (Nat × Nat)) : State :=
  match s.gst.live with
  | [] => s
  | r :: rest =>
    if r.pc = s.tb.pc ∧ s.gst.planeOn ∧ s.powered 7 then
      let ports := s.portsUsed
      let reps := fun (p : Nat) =>
        (List.range (s.sec.port p).ncell).map fun i => (i, ((s.port p).reports[i]?).getD none)
      let hits := bad.filter fun b => s.inUse b.1 && decide (b.2 < (s.sec.port b.1).ncell)
      let body := ports.map fun p => (reps p).map fun e => if (p, e.1) ∈ hits then 0xFFFF else planeValue e.2
      let miss := (ports.map fun p => ((reps p).filter fun e => e.2.isNone && !decide ((p, e.1) ∈ hits)).length).foldl (· + ·) 0
      let s1 := { s with gst := { s.gst with
        live := { r with plane := body, plMissing := miss, plPair := hits.length } :: rest } }
      let s2 := s1.wr Reg.GST_CNT_PAIR (BitVec.ofNat 32 (satAdd (s1.rdNat Reg.GST_CNT_PAIR) hits.length 0xFFFFFFFF))
      if hits.isEmpty then s2 else s2.integrity 2
    else s

/-- The captured period with a PC, open or in capture memory. -/
def Gst.find (g : Gst) (pc : BitVec 32) : Option GstPer := (g.live ++ g.hist).find? fun r => r.pc == pc

/-- GST_TRIG_PC, GST_TRIG_VT and GST_TRIG_SRC take T, with the tick of b(T) (R445, R467). -/
def State.gstShowTrig (s : State) (t : BitVec 32) (vt : BitVec 64) (src : Nat) : State :=
  (((s.wr Reg.GST_TRIG_PC t).wr Reg.GST_TRIG_VT_LO (vt.setWidth 32)).wr Reg.GST_TRIG_VT_HI
    (BitVec.ofNat 32 (vt.toNat / 2 ^ 32))).wr Reg.GST_TRIG_SRC (bitIf true 31 ||| BitVec.ofNat 32 src)

/-- Period `t`, which began at `vt`, becomes T and capture goes on to `last` (R445, R446, R462, R463). -/
def State.gstTrigger (s : State) (t : BitVec 32) (vt : BitVec 64) (src : Nat) (last : BitVec 32) (remote : Bool) : State :=
  let entered := s.gst.st == .armed
  let s1 := { s with gst := { s.gst with st := .triggered, trig := some t, postEnd := some last, remote := remote } }
  (s1.setBitIf entered Reg.GST_EVT 1).gstShowTrig t vt src

/-- A fire of this module in ARMED, in the period of record `r`: ignored before PRE_MIN, else it makes T and tells the partner
(R444 to R446, R460). -/
def State.gstFire (s : State) (r : GstPer) (src : Nat) : State :=
  if s.gst.st ≠ .armed then s
  else if s.gstHoldoff then s.setBit Reg.GST_EVT 6
  else
    let s1 := s.gstTrigger r.pc r.vtB src (r.pc + BitVec.ofNat 32 s.gstPost) false
    if s1.gstShareTx then s1.sendGust 2 r.vtB else s1

/-- Capture ends with period `l` where it does not end sooner (R447, R450, R458, R459). -/
def Gst.stopWith (g : Gst) (l : BitVec 32) : Gst :=
  { g with stopAt := some (match g.stopAt with | some a => if pcLe a l then a else l | none => l) }

/-- The recorder enters STOPPED once the last period has been written (R441, R446). -/
def State.gstEnd (s : State) : State :=
  ({ s with gst := { s.gst with st := .stopped, live := [] } }).setBit Reg.GST_EVT 2

/-- A COMMIT that changes the arms of PORT_MASK or their cell counts stops the recorder before its boundary; called after that
boundary has turned (R450). -/
def State.gstCfgStop (s : State) : State :=
  if s.gst.captures then
    let g := s.gst.stopWith (s.tb.pc - 1)
    let s1 := { s with gst := { g with
      live := g.live.filter fun r => r.pc != s.tb.pc, taken := s.gstCaptured } }.setBit Reg.GST_EVT 10
    -- nothing captured yet, or the last row has closed already
    if s1.gst.live.isEmpty then s1.gstEnd else s1
  else s

/-- The headers of the period that begins record a new section and a new P, and what else the COMMIT changed at b(k) (R427,
R450, SCHED_SWITCHED, P_CHANGED). -/
def State.gstMark (s : State) (sched p : Bool) : State :=
  let live := match s.gst.live with
    | [] => []
    | r :: rest =>
      if r.pc = s.tb.pc then { r with
        schedSwitched := sched, pChanged := p, p := s.per, react := s.gstReact, mask := s.sec.mask, ncells := s.gstNcells } :: rest
      else r :: rest
  { s with gst := { s.gst with switched := some (s.tb.pc, sched, p), live := live } }

end Sys2Proof.Machine
end

