-- ==== Sys2Proof/Machine/Streams.lean ====
section
/-! DEFINITION. Up blocks, the report stream and fast protection on it (R118 to R152, R263, R288 to R292). -/

namespace Sys2Proof.Machine

/-- The bodies of a report stream, by block index (R141). -/
abbrev Stream := Sparse (Option (BitVec 460))

/-- A field of the report stream, none where a block that holds one of its bits is missing (R141, R147). -/
def streamField (r : Stream) (pos n : Nat) : Option Nat :=
  let get := fun i => Sparse.get (fun _ => none) r i
  let i := pos / 460
  let o := pos % 460
  if o + n ≤ 460 then (get i).map fun b => lineField b o n
  else match get i, get (i + 1) with
    | some a, some b => some (lineField a o (460 - o) * 2 ^ (o + n - 460) + lineField b 0 (o + n - 460))
    | _, _ => none

/-- A node entry: four channel values (R144). -/
def nodeOf (r : Stream) (i : Nat) : Option (BitVec 16 × BitVec 16 × BitVec 16 × BitVec 16) :=
  (streamField r (64 * i) 64).map fun v =>
    (BitVec.ofNat 16 (v / 2 ^ 48), BitVec.ofNat 16 (v / 2 ^ 32), BitVec.ofNat 16 (v / 2 ^ 16), BitVec.ofNat 16 v)

/-- A cell report (R142). -/
def reportOf (r : Stream) (nnode i : Nat) : Option Report :=
  (streamField r (64 * nnode + 48 * i) 48).map fun v =>
    { volt := BitVec.ofNat 16 (v / 2 ^ 32), voltC := BitVec.ofNat 16 (v / 2 ^ 16), status := BitVec.ofNat 8 (v / 2 ^ 8)
      echo := BitVec.ofNat 8 v }

/-- The blocks held for the period with PC `pc` (R141, R146). -/
def streamFor (l : Stream) (pc : BitVec 32) : Stream :=
  (l.filter fun e => e.1 / 1024 == pc.toNat % 4).map fun e => (e.1 % 1024, e.2)

/-- The intake phase of the period in progress is over (R35, R36). -/
def State.intakeOver (s : State) : Bool := s.tb.intakeDone || reached s.now (s.tickAt s.sec.iEnd)

/-- b(k) of the period `i` periods ahead of the one in progress, as far as it is known. -/
def State.boundAhead (s : State) (i : Nat) : BitVec 64 :=
  if i = 0 then s.tb.bound else s.tb.nextB + BitVec.ofNat 64 ((i - 1) * s.per)

/-- Could the report stream of the period `i` ahead have begun by the time a block that ends its checks now began?
(R124, R145) -/
def State.streamBegun (s : State) (p i : Nat) : Bool :=
  reached (s.now - 5) (s.boundAhead i - BitVec.ofNat 64 (s.sec.port p).u + BitVec.ofNat 64 (s.tDown p))

/-- The period whose reports a port is receiving: the first whose intake phase is not over, or a later one whose stream has
begun (R33, R35, R145, R146). DEDUCED: log entry 35. -/
def State.rptPc (s : State) (p : Nat) : BitVec 32 :=
  if s.tb.run then
    let i := if s.intakeOver then 1 else 0
    let j := if s.streamBegun p 2 then 2 else if s.streamBegun p 1 then 1 else 0
    s.tb.pc + BitVec.ofNat 32 (max i j)
  else s.tb.pc

/-- The correction factor of a channel as it is stored (R48, R266). -/
def State.corrPair (s : State) (c : Nat) : BitVec 32 × BitVec 32 := Sparse.get (fun _ => (fpOne, ~~~ fpOne)) s.isl.corr c

/-- The corrected value of a channel (R263). -/
def State.corrected (s : State) (c : Nat) (raw : BitVec 16) : BitVec 32 :=
  fpMul (fpMul (fpOfInt raw.toInt) (Sparse.get (fun _ => 0) s.isl.scale c)) (s.corrPair c).1

/-- What a sample of a channel gives: nothing for the code of a missing sample or while the stored factor fails its pair check
(R49, R50, R263, R264). -/
def State.sampleOf (s : State) (c : Nat) (raw : Option (BitVec 16)) : Option (BitVec 32) :=
  match raw with
  | some r => if r = 0x8000 ∨ pairOk (s.corrPair c).1 (s.corrPair c).2 = false then none else some (s.corrected c r)
  | none => none

/-- FP_MISS_LIM and N_FP in effect (R289, LE_FP_CFG). Code 000 of the three-bit field stands for the limit 8, the one
value of 1 to 8 that has no code of its own (DEDUCED, log entry 48). -/
def State.fpMissLim (s : State) : Nat := if s.field Reg.LE_FP_CFG 4 3 = 0 then 8 else s.field Reg.LE_FP_CFG 4 3
def State.nFp (s : State) : Nat := s.field Reg.LE_FP_CFG 0 2 + 1

/-- A comparator: overcurrent 0 to 11, undervoltage 12 to 15. Enabled, and the channel it watches (LE_FP_CFG). -/
def State.cmpOn (s : State) (i : Nat) : Bool := s.bitOf Reg.LE_FP_CFG (if i < 12 then 16 + i else 8 + (i - 12))
def State.cmpChan (s : State) (i : Nat) : Nat :=
  if i < 12 then s.field (Reg.LE_FP_OCCH i) 0 8 else s.field (Reg.LE_FP_UVCH (i - 12)) 0 8

/-- The counts of a comparator. -/
def State.cmpr (s : State) (i : Nat) : Cmpr := Sparse.get (fun _ => {}) s.isl.oc i
def State.setCmpr (s : State) (i : Nat) (x : Cmpr) : State :=
  { s with isl := { s.isl with oc := Sparse.put (fun _ => {}) s.isl.oc i x } }

/-- Undervoltage comparators are armed (R290). -/
def State.uvOn (s : State) : Bool := s.isl.uvArmed && !s.flt.latch

/-- Is a sample beyond the threshold of a comparator? (R288, R289) -/
def State.cmpBeyond (s : State) (i : Nat) (x : BitVec 32) : Bool :=
  if i < 12 then fpLt (s.rd (Reg.LE_FP_IOC i)) (fpAbs x) else fpLt x (s.rd (Reg.LE_FP_VUV (i - 12)))

/-- A comparator fires: the fast Block and its source (R291, R292). -/
def State.cmpFire (s : State) (i : Nat) : State :=
  let s1 := ((s.setBit Reg.LE_FP_EVT (if i < 12 then 16 + i else 8 + (i - 12))).setBit Reg.LE_FP_EVT 0).blockFrom (s.now + 8)
  if i < 12 then s1.raise (176 + i) else s1.raiseOnce 188

/-- A comparator takes a sample of its channel, none where it is missing; `uv`: undervoltage comparators are armed (R288 to
R290). -/
def State.cmpSample (s : State) (uv : Bool) (i : Nat) (x : Option (BitVec 32)) : State :=
  let c := s.cmpr i
  let armed := decide (i < 12) || uv
  match x with
  | none =>
    let s1 := s.setCmpr i { run := if armed then c.run else 0, miss := satInc c.miss 255 }
    if s.fpMissLim < c.miss + 1 then (s1.setBit Reg.LE_FP_EVT 4).raiseOnce 189 else s1
  | some v =>
    if armed = false then s.setCmpr i { run := 0, miss := 0 }
    else
      let run := if s.cmpBeyond i v then satInc c.run s.nFp else 0
      let s1 := s.setCmpr i { run := run, miss := 0 }
      if s.nFp ≤ run then s1.cmpFire i else s1

/-- Every comparator that watches a channel takes its sample. -/
def State.chanSample (s : State) (uv : Bool) (c : Nat) (raw : Option (BitVec 16)) : State :=
  (List.range 16).foldl (fun t i =>
    if t.cmpOn i && t.cmpChan i == c then
      t.cmpSample uv i (t.sampleOf c raw)
    else t) s

/-- The four channels of a node entry go to fast protection (R288). -/
def State.nodeSample (s : State) (uv : Bool) (p i : Nat) (e : Option (BitVec 16 × BitVec 16 × BitVec 16 × BitVec 16)) : State :=
  let c := 16 * p + 4 * i
  match e with
  | some (a, b, d, f) => (((s.chanSample uv c (some a)).chanSample uv (c + 1) (some b)).chanSample uv (c + 2) (some d)).chanSample uv
      (c + 3) (some f)
  | none => (((s.chanSample uv c none).chanSample uv (c + 1) none).chanSample uv (c + 2) none).chanSample uv (c + 3) none

/-- Fast protection runs while the loop island has power and periods run (R290). -/
def State.fpOn (s : State) : Bool := s.open (.le 0) && s.tb.run

/-- How many node entries of period `pc` a port has taken. -/
def State.nodesHad (s : State) (p : Nat) (pc : BitVec 32) : Nat :=
  ((s.port p).nodesSeen.filter fun k => k / 1024 == pc.toNat % 4).length

/-- A port's node entries go to the loop engines (R324, R328). -/
def State.sendNodes (s : State) (p : Nat) (pc : BitVec 32) : State :=
  s.sendCues (fun x => x.kind == 4 && x.src == portCode p) 0 (pc.setWidth 16)

/-- Node entries of period `pc` whose bits have all come go to fast protection once, and with the last one all go to the loop
engines (R291, R328). DEDUCED: log entry 54. -/
def State.nodesIn (s : State) (p : Nat) (pc : BitVec 32) : State :=
  let uv := s.uvOn
  let u := (List.range (s.sec.port p).nnode).foldl (fun t i =>
    let x := t.port p
    let key := 1024 * (pc.toNat % 4) + i
    match nodeOf (streamFor x.rpt pc) i with
    | some e =>
      if key ∈ x.nodesSeen then t
      else
        let t1 := t.setPort p { x with nodesSeen := x.nodesSeen ++ [key] }
        if t1.fpOn then t1.nodeSample uv p i (some e) else t1
    | none => t) s
  if s.nodesHad p pc < (s.sec.port p).nnode ∧ u.nodesHad p pc = (s.sec.port p).nnode then u.sendNodes p pc else u

/-- An RPT block is taken into the stream of period `pc` (R141, R146, R103). -/
def State.rptTake (s : State) (p i : Nat) (pc : BitVec 32) (body : BitVec 460) : State :=
  let x := s.port p
  let s1 := s.setPort p { x with rpt := Sparse.put (fun _ => none) x.rpt (1024 * (pc.toNat % 4) + i) (some body) }
  if x.rptLost then s1 else s1.nodesIn p pc

/-- RPT_BLOCK_RECEIVE: accepted for the period whose reports are being received, or stale (R35, R146). -/
def execRptBlockReceive (p : Fin 12) (tag : BitVec 12) (body : BitVec 460) (s : State) : Res :=
  let pc := s.rptPc p
  if (s.lane p).inData = false then .next s
  else if fieldOf tag 10 2 = pc.toNat % 4 then .next (s.rptTake p (fieldOf tag 0 10) pc body)
  else .next ((s.bump (Reg.PRT_BLK_STALE p)).setBit (Reg.PRT_FRM_EVT p) 2)

/-- Types of up block that a port accepts (R126, R478). -/
def upTypeOk (p type : Nat) : Bool :=
  if p < 12 then type == 0 || type == 2 || type == 4 || type == 5 else type == 0 || (decide (8 ≤ type) && decide (type ≤ 11))

/-- Is a received block valid? (R121) -/
def blockValid (p slot : Nat) (b : BitVec 512) : Bool :=
  decide (lineField b 480 32 = (crc32c (lineBytes b 0 60)).toNat) && decide (lineField b 16 4 = slot % 16) &&
  upTypeOk p (lineField b 0 4)

/-- An arm port counts a block it discards (R121, R151). -/
def State.blockDisc (s : State) (p : Nat) : State :=
  ((s.setPort p { s.port p with discs := (s.port p).discs + 1 }).bump (Reg.PRT_BLK_DISC p)).setBit (Reg.PRT_FRM_EVT p) 0

/-- Does the port send these symbols in the present slot? (R110, R117) -/
def State.sendsBlock (s : State) (p : Nat) (d : UpSymbols) : Bool :=
  match s.lineOut p with
  | .block _ d0 d1 => symbolWord d0 == d.d0 && symbolWord d1 == d.d1
  | _ => false

/-- UP_BLOCK_RECEIVE: a block completes its checks and counts as one slot. `d0` and `d1` are the symbol indices that its two
data lanes have carried; what a valid block holds comes as its own command (R82 to R85, R120, R121, R126, R478). DEDUCED: log
entry 31. In loop-back only the block that the port itself sends in the present slot can come. DESIGN CHOICE: log entry 134. -/
def execUpBlockReceive (p : Fin 13) (d : UpSymbols) (s : State) : Res :=
  let v := s.lane p
  if v.inData = false ∨ (v.loopEff ≠ 0 ∧ s.sendsBlock p d = false) then .next s
  else
    let x := s.port p
    let block := undealt (decodeLane v.rx0 (symbolsOf d.d0)) (decodeLane v.rx1 (symbolsOf d.d1))
    let s1 := (s.setLane p { v with rx0 := d.d0.setWidth 2, rx1 := d.d1.setWidth 2 }).setPort p { x with slot := x.slot + 1 }
    .next (if blockValid p x.slot block ∨ 12 ≤ (p : Nat) then s1 else s1.blockDisc p)

/-- PC of the period that contains the sampling tick b(k) − U (R148). Before b(0) periods count as long as the first. -/
def State.samplePc (s : State) (p : Nat) : BitVec 32 :=
  let u := (s.sec.port p).u
  let t := s.tb.bound - BitVec.ofNat 64 u
  let later := s.tb.marks.filter fun b => 0 < timeDiff b t
  let n := if later.length < s.tb.marks.length then later.length
    else later.length + (ahead t (later.getLastD s.tb.bound) - 1) / s.per
  s.tb.pc - BitVec.ofNat 32 n

/-- Has echo accounting started by this intake? (R149, R152) -/
def State.echoStarts (s : State) (p : Nat) : Bool :=
  (s.port p).echoRun ||
  match (s.port p).echoFrom with
  | some f => decide (0 ≤ timeDiff (s.samplePc p) f)
  | none => false

/-- Does this intake count missing echoes? (R149) -/
def State.echoOn (s : State) (p : Nat) : Bool := (s.lane p).inData && s.holds && s.echoStarts p

/-- A report that counts: there, not absent and with a good pair (R35, R143, R147, R50). -/
def Report.counts (r : Report) : Bool := !r.absentPattern && r.valid

/-- The state a report shows, whether or not the port counts it (R142, R205). -/
def reportedState (r : Option Report) : Option (BitVec 2) :=
  match r with
  | some x => if x.counts then some (BitVec.ofNat 2 (fieldOf x.status 1 2)) else none
  | none => none

/-- The port ends its intake: what has come counts, the rest is missing; reports and node entries are handed on (R35, R103,
R141 to R149, R324). -/
def State.portIntake (s : State) (p : Nat) : State :=
  if s.inUse p && s.open (.port p) then
    let x := s.port p
    let c := s.sec.port p
    let pc := s.tb.pc
    let whole := streamFor x.rpt pc
    let kept := streamFor x.stream pc
    let all := (List.range c.ncell).map fun i => reportOf whole c.nnode i
    let got := (List.range c.ncell).map fun i => reportOf kept c.nnode i
    let reps := got.map fun r => match r with | some y => if y.counts then some y else none | none => none
    let broken := got.any fun r => match r with | some y => !y.absentPattern && !y.valid | none => false
    let want := BitVec.ofNat 8 (s.samplePc p).toNat
    let miss := if s.echoOn p then (reps.filter fun r => match r with | some y => y.echo != want | none => false).length else 0
    let nodes := (List.range c.nnode).map fun i => nodeOf kept i
    let late := (List.range c.nnode).filter fun i => !decide (1024 * (pc.toNat % 4) + i ∈ x.nodesSeen)
    let absent := (got.filter fun r => match r with | some y => y.absentPattern | none => false).length
    let mine := fun (k : Nat) => k / 1024 == pc.toNat % 4
    let s1 := s.setPort p { x with
      rpt := x.rpt.filter fun e => !mine e.1
      rptKept := x.rptKept.filter fun e => !mine e.1
      nodesSeen := x.nodesSeen.filter fun k => !mine k
      reports := reps, reported := all.map reportedState, nodes := nodes
      echoMiss := miss, absentNow := absent, echoRun := s.echoStarts p && (s.lane p).inData }
    let s1a := s1.sendCues (fun x => x.kind == 7 && x.src == portCode p) 0 (pc.setWidth 16)
    let s1b := if late.isEmpty then s1a else s1a.sendNodes p pc
    let s2 := if broken then s1b.integrity (22 + p) else s1b
    if s2.fpOn then late.foldl (fun t i => t.nodeSample s2.uvOn p i none) s2 else s2
  else s

/-- A residue check is to fail in the energy sums of an arm at the end of this period (R52). -/
def State.sumsBreak (s : State) (n : Nat) : State :=
  let x := Sparse.get (fun _ => {}) s.tb.energy n
  { s with tb := { s.tb with energy := Sparse.put (fun _ => {}) s.tb.energy n { x with residue := true } } }

/-- INTAKE_END: at b(k) + I_END (R35, R36, R52, R198, R424, R426). -/
def execIntakeEnd (bad : IntakeDamage) (s : State) : Res :=
  if s.tb.run = false ∨ s.tb.intakeDone then .next s
  else
    let s1 := s.advanceTo (s.tickAt s.sec.iEnd)
    let s2 := (List.range 12).foldl State.portIntake { s1 with tb := { s1.tb with intakeDone := true } }
    .next (bad.sums.foldl (fun (t : State) (n : Fin 12) => t.sumsBreak n) (((List.range 12).foldl State.aeIntake s2).gstPlane bad.plane))

end Sys2Proof.Machine
end

