-- ==== Sys2Proof/Machine/Emits.lean ====
section
/-! DEFINITION. What an arm port decides and sends: due tick, audit, repeat, Block, command frames, and the resume of
commands (R54 to R57, R105, R127 to R138, R238 to R242, R358 to R360, R681). -/

namespace Sys2Proof.Machine

/-- The census of the arm has failed, so that it stays blocked (R161). DEDUCED: log entry 39. -/
def Port.censusFailed (x : Port) : Bool := x.cal == .failed && !x.censusOk

/-- A safety block line holds an emit that begins at `t` (R681). -/
def Port.lineHolds (x : Port) (t : BitVec 64) : Bool :=
  (x.lineA || x.lineB) && (match x.lineAt with | some u => reached t (u + 8) | none => true)

/-- The tick on which the emit phase of the period in progress begins (R33). -/
def State.emitAt (s : State) : BitVec 64 := s.tickAt s.sec.eStart

/-- Does a Block apply to an emit of port `p` that begins at `t`? (R161, R360, R396, R681) -/
def State.blockAt (s : State) (p : Nat) (t : BitVec 64) : Bool :=
  s.flt.blockedAt t || (s.port p).lineHolds t || (s.port p).censusFailed

/-- Frames go out: DATA, the lease, and commands that have resumed (R105, R127). -/
def State.framesDue (s : State) (p : Nat) : Bool := (s.lane p).inData && s.acts && (s.port p).cmdsOn

/-- The frame of state 00 for every cell (R57, R137). -/
def State.blockFrame (s : State) (p : Nat) : CmdSet := blockSet (s.nCell p)

/-- What deblock does to an arm engine (R206, R210, R235). -/
def Ae.deblocked (a : Ae) : Ae :=
  let b := a.restart
  { b with charging := true, cells := b.cells.map fun c => { c with dwell := 255 } }

/-- The first emit after an accepted deblock (R57, R206, R210, R235, R401). DEDUCED: log entry 23. -/
def State.portDeblock (s : State) (p : Nat) : State :=
  let x := s.port p
  if x.deblock then
    let s1 := (s.setPort p { x with deblock := false, passed := none }).wr (Reg.PRT_AUD_RUN p) 0
    if s1.open (.ae p) then s1.setAe p (s1.ae p).deblocked else s1
  else s

/-- The commands of the period are withheld (R55 to R57, PRT_AUD_RUN). -/
def State.withhold (s : State) (p : Nat) : State :=
  let s1 := s.addField (Reg.PRT_AUD_RUN p) 0 16 1
  let x := s1.port p
  match x.passed with
  | some cs => (s1.setPort p { x with plan := .send .repeated (repeatSet s.nextPer cs) }).setBit (Reg.PRT_AUD_EVT p) 0
  | none => (s1.setPort p { x with plan := .send .block00 (s.blockFrame p) }).setBit (Reg.PRT_AUD_EVT p) 6

/-- What the audit finds for a handover; a marker in place of commands has no tally (R238 to R240). -/
def auditOf (h : Handover) (order : Option (BitVec 32 × BitVec 32)) : AuditRes :=
  match h with
  | .cmds cs => auditSet cs order
  | _ =>
    match order with
    | some l =>
      if pairOk l.1 l.2 then { tally := 0, l := lamInt l.1, noOrder := true }
      else { tally := 0, l := lamInt l.1, pair := true }
    | none => { tally := 0, l := 0, noOrder := true }

/-- The flags of an audit (R239, PRT_AUD_EVT). -/
def AuditRes.flags (r : AuditRes) : Word :=
  bitIf r.mismatch 1 ||| bitIf r.pair 2 ||| bitIf r.signMix 3 ||| bitIf r.pulseShape 4 ||| bitIf r.noOrder 5

/-- The audit at the due tick (R54, R55, R238 to R242). `residue`: the tally fails its residue check (R52). DEDUCED:
log entry 121. -/
def State.portAudit (s : State) (p : Nat) (residue : Bool) : State :=
  let x := s.port p
  let r0 := auditOf x.hand x.order
  let r : AuditRes := if residue then { tally := r0.tally, l := r0.l, pair := true } else r0
  let s0 := if residue then s.integrity (22 + p) else s
  let s1 := s0.wr (Reg.PRT_AUD_STAT p) (BitVec.ofNat 32
    ((BitVec.ofInt 16 r.tally).toNat * 65536 + (BitVec.ofInt 16 r.l).toNat))
  match r.ok, x.hand with
  | true, .cmds cs =>
    (((s1.setPort p { s1.port p with plan := .send .fresh cs }).wr (Reg.PRT_AUD_RUN p) 0).wr (Reg.PRT_AUD_PASS_PC p)
      (s.tb.pc + 1))
  | _, _ =>
    let s2 := (s1.setBits (Reg.PRT_AUD_EVT p) r.flags).bump (Reg.PRT_AUD_FAIL p)
    (s2.raise (128 + p)).withhold p

/-- The misses the port finds at the due tick (R353 KIND 100 and 101, R358, R359). -/
def State.portMisses (s : State) (p : Nat) : Bool × State :=
  let x := s.port p
  let noCmds := x.hand == .none
  let noLam := x.order.isNone
  let s1 := if noCmds then s.declareMiss (portCode p) 4 3 [] else s
  let s2 := if noLam then s1.declareMiss (portCode p) 5 3 [] else s1
  let missed := noCmds || noLam || x.notice || x.handMissed
  if missed then
    let s3 := (s2.addField (Reg.SCH_ARM_MISS p) 0 16 1).raiseOnce (33 + p)
    (true, { s3 with sch := { s3.sch with missArms := s3.sch.missArms ||| ((1 : BitVec 12) <<< p) } })
  else (false, s2)

/-- The decision at the due tick for a port that is to send a frame (R358 to R360). -/
def State.portDecide (s : State) (p : Nat) (residue : Bool) : State :=
  let m := s.portMisses p
  let s1 := m.2
  if s1.blockAt p s1.emitAt then
    s1.setPort p { s1.port p with plan := .send .blockArm (s1.blockFrame p) }
  else
    let s2 := s1.portDeblock p
    if m.1 then s2.withhold p else s2.portAudit p residue

/-- PORT_DUE_TICK: at b(k) + E_START − 8 (R54, R334, R358 to R360, R867). An emit phase sends frames where commands have resumed
by its due tick (R105). DEDUCED: log entry 139. -/
def execPortDueTick (p : Fin 12) (residue : Bool) (s : State) : Res :=
  if s.tb.run = false ∨ s.inUse p = false ∨ s.open (.port p) = false ∨ (s.port p).dueDone then .next s
  else
    let s1 := s.advanceTo (s.tickAt s.dueAt)
    let s2 := s1.setPort p { s1.port p with dueDone := true, plan := .none }
    .next (if s2.framesDue p then s2.portDecide p residue else s2)

/-- The frame of a command set for period k + 1, on the first block boundary of the emit phase (R127, R129, R137, R513). -/
def State.frameOf (s : State) (kind : SendKind) (cs : CmdSet) : Frame :=
  { epoch := s.epoch, pc := s.tb.pc + 1, xaBase := s.tb.nextB.setWidth 16, period := s.nextPer, src := s.twn.secondary
    blockArm := kind == .blockArm, cs := cs, kind := kind
    at_ := s.frameStart s.tb.bound }

/-- The frame goes out (R56, R127, R149, R152, R190). -/
def State.sendFrame (s : State) (p : Nat) (kind : SendKind) (cs : CmdSet) : State :=
  let s0 := s.lineNote p
  let x := s0.port p
  let f := s.frameOf kind cs
  s0.setPort p { x with
    sent := (f :: x.sent).take 4, framesOn := true, blockArm := f.blockArm, plan := .none
    passed := if kind = .fresh then some cs else x.passed
    echoFrom := match x.echoFrom with | some e => some e | none => some f.pc }

/-- MARGIN_START: at b(k) + E_END of the port its emit phase is over (R33, R70). -/
def execMarginStart (p : Fin 12) (s : State) : Res :=
  if s.tb.run = false ∨ s.inUse p = false ∨ s.open (.port p) = false then .next s
  else
    let s1 := s.advanceTo (s.tickAt (s.sec.port p).eEnd)
    .next (s1.setPort p { s1.port p with plan := .none })

/-- Are the port's five fault sources quiet? (R105) -/
def State.portQuiet (s : State) (p : Nat) : Bool := (List.range 5).all fun i => !(s.src (64 + 5 * p + i)).inFault

/-- COMMANDS_RESUME: once the port is in DATA, its sources are quiet and its tree is calibrated anew (R105, R205, R210). -/
def execCommandsResume (p : Fin 12) (s : State) : Res :=
  let x := s.port p
  if x.cmdsOn = false ∧ (s.lane p).inData ∧ x.calDone ∧ s.portQuiet p then
    let s1 := s.setPort p { x with cmdsOn := true, rptLost := false }
    .next (if s1.open (.ae p) then s1.setAe p ((s1.ae p).resumed x.reported) else s1)
  else .next s

/-- PRT_AUD_CLR: a write of 1 to bit 0 (R249). -/
def execPrtAudClr (p : Fin 12) (s : State) : Res := s.via (.port p) fun t => t.wr (Reg.PRT_AUD_FAIL p) 0

end Sys2Proof.Machine
end

