-- ==== Sys2Proof/Machine/Trig.lean ====
section
/-! DEFINITION. Sine, cosine, angle and exponential to well below the errors the spec states, and the delivered values:
free within those errors (R275, R861). -/

namespace Sys2Proof.Machine

/-- 2π and π in units of 2^-200 and 2^-64. -/
def twoPi200 : Nat := 0x6487ed5110b4611a62633145c06e0e68948127044533e63a010
def pi64 : Nat := 0x3243f6a8885a308d3
def twoPi64 : Nat := 0x6487ed5110b4611a6

/-- The binary32 value nearest 2π in units of 2^-149: what angles are reduced and wrapped by (R282, R861). DEDUCED: log
entry 47. -/
def twoPiFp : Int := fpInt 0x40C90FDB

/-- A finite fp32 angle reduced modulo 2π, in units of 2^-64 (R282). -/
def angle64 (x : BitVec 32) : Nat := (fpInt (fpFlush x) % twoPiFp).toNat / 2 ^ 85

/-- `k` Taylor terms of sine (`n` odd) or cosine (`n` even) in units of 1/`u`. -/
def taylor (u : Int) (k : Nat) (x2 term acc : Int) (n : Nat) : Int :=
  match k with
  | 0 => acc
  | k + 1 =>
    let t := - (term * x2 / u) / ((n + 1 : Int) * (n + 2))
    taylor u k x2 t (acc + t) (n + 2)

/-- sin of an angle `a` in [0, 2π), by `k` terms of its series; `a`, `pi` and the result are in units of 1/`u`. -/
def sinUnits (u : Int) (k pi a : Nat) : Int :=
  let x : Int := if a ≤ pi / 2 then (a : Int) else if a ≤ pi + pi / 2 then (pi : Int) - a else (a : Int) - (2 * pi : Nat)
  taylor u k (x * x / u) x x 1

/-- sin of an angle in [0, 2π) of units 2^-64, in the same units. -/
def sin64 (a : Nat) : Int := sinUnits (2 ^ 64) 12 pi64 a

/-- cos of an angle in [0, 2π) of units 2^-64. -/
def cos64 (a : Nat) : Int := sin64 ((a + pi64 / 2) % twoPi64)

/-- A value in units of 2^-64 as fp32. -/
def fpOf64 (v : Int) : BitVec 32 := fpRound (v * (2 ^ 85 : Nat)) 1

/-- Does an fp32 value lie within `e` of a value, both in units of 2^-64? -/
def within64 (c : BitVec 32) (v : Int) (e : Nat) : Bool :=
  !fpSpecial c && decide ((fpInt c - v * (2 ^ 85 : Nat)).natAbs ≤ e * 2 ^ 85)

/-- 10^-6 in units of 2^-64, less the error of the series. -/
def sinBound : Nat := 18446744073708

/-- The sine SINCOS delivers: any value within 10^-6 of the exact one (R275). DESIGN CHOICE: log entry 50. -/
def fpSin (x : BitVec 32) : BitVec 32 :=
  let v := sin64 (angle64 x)
  if fpSpecial x then fpNan
  else if within64 (fpFlush (Config.sinOf x)) v sinBound then fpFlush (Config.sinOf x) else fpOf64 v

/-- The cosine SINCOS delivers (R275). -/
def fpCos (x : BitVec 32) : BitVec 32 :=
  let v := cos64 (angle64 x)
  if fpSpecial x then fpNan
  else if within64 (fpFlush (Config.cosOf x)) v sinBound then fpFlush (Config.cosOf x) else fpOf64 v

/-- Bisection for the angle of a vector in the upper half plane, in units of 2^-64. -/
def atanSearch (k : Nat) (y x : Int) (lo step : Nat) : Nat :=
  match k with
  | 0 => lo
  | k + 1 =>
    let mid := lo + step
    -- the vector lies at or beyond the ray of angle mid
    if 0 ≤ y * cos64 (mid % twoPi64) - x * sin64 (mid % twoPi64) then atanSearch k y x mid (step / 2)
    else atanSearch k y x lo (step / 2)

/-- The angle of (x, y) in [0, 2π), units of 2^-64. -/
def atan64 (y x : Int) : Nat :=
  if 0 ≤ y then atanSearch 44 y x 0 (pi64 / 2)
  else (pi64 + atanSearch 44 (-y) (-x) 0 (pi64 / 2)) % twoPi64

/-- The angle ATAN2 delivers: any within 2 × 10^-6 rad of the exact one, in [0, 2π) (R275, R282). -/
def fpAtan (y x : BitVec 32) : BitVec 32 :=
  let yi := fpInt (fpFlush y)
  let xi := fpInt (fpFlush x)
  if fpSpecial y || fpSpecial x then fpNan
  else if yi = 0 ∧ xi = 0 then 0
  else
    let a := atan64 yi xi
    let w := fpFlush (Config.atanOf y x)
    if within64 w a (2 * sinBound) && decide (0 ≤ fpInt w) && decide (fpInt w * (2 ^ 51 : Nat) < twoPi200) then w
    else if (twoPi200 : Int) ≤ fpInt (fpOf64 a) * (2 ^ 51 : Nat) then 0 else fpOf64 a

/-- Does a word lie within 2 × 10^-6 of the length of a vector whose squared length is `q`, in units of 2^-149? -/
def nearLength (w : BitVec 32) (q : Nat) : Bool :=
  !fpSpecial w && decide (q * 999998 ^ 2 ≤ (fpMag w * 1000000) ^ 2) && decide ((fpMag w * 1000000) ^ 2 ≤ q * 1000002 ^ 2)

/-- The magnitude ATAN2 delivers: the length of the vector. No error is stated for it (R275, R861): it is free within two parts
in a million, the angle's bound. DESIGN CHOICE: log entry 50. -/
def fpMagnitude (y x : BitVec 32) : BitVec 32 :=
  let q := fpMag (fpFlush y) ^ 2 + fpMag (fpFlush x) ^ 2
  let w := fpFlush (fpAbs (Config.magOf y x))
  if fpSpecial y || fpSpecial x then fpNan
  else if q = 0 then 0
  else if nearLength w q then w else fpPack false (isqrt (q * 2 ^ 160)) (2 ^ 80)

/-- `k` further terms of the series of e^x, in units of 1/`u`. -/
def expSeries (u : Int) (k : Nat) (x term acc : Int) (n : Nat) : Int :=
  match k with
  | 0 => acc
  | k + 1 =>
    let t := term * x / u / (n : Int)
    expSeries u k x t (acc + t) (n + 1)

def squares (u : Int) (k : Nat) (v : Int) : Int :=
  match k with
  | 0 => v
  | k + 1 => squares u k (v * v / u)

/-- 2π and π in units of 2^-640 and 2^-512, in which coefficients are worked out: fine enough for one last place of the
smallest binary32 number. -/
def twoPi640 : Nat := 0x6487ed5110b4611a62633145c06e0e68948127044533e63a0105df531d89cd9128a5043cc71a026ef7ca8cd9e69d218d98158536f92f8a1ba7f09ab6b6a8e122f242dabb312f3f637a262174d31bf6b58
def pi512 : Nat := twoPi640 / 2 ^ 129

/-- The angle w × dt reduced modulo 2π, in units of 2^-512; both are finite. -/
def angle512 (w dt : BitVec 32) : Nat :=
  (fpInt (fpFlush w) * fpInt dt * (2 ^ 342 : Nat) % (twoPi640 : Int)).toNat / 2 ^ 128

/-- sin and cos of an angle in [0, 2π) of units 2^-512, in the same units. -/
def sin512 (a : Nat) : Int := sinUnits (2 ^ 512) 60 pi512 a
def cos512 (a : Nat) : Int := sin512 ((a + pi512 / 2) % (2 * pi512))

/-- e^(-x), units of 2^-512. -/
def expNeg512 (x : Nat) : Int :=
  if 64 * 2 ^ 512 ≤ x then 0
  else squares (2 ^ 512) 7 (expSeries (2 ^ 512) 100 (-((x / 128 : Nat) : Int)) (2 ^ 512) (2 ^ 512) 1)

/-- ln 2 in units of 2^-192. -/
def ln2At192 : Nat := 0xb17217f7d1cf79abc9e3b39803f2f6af40f343267298b62d

/-- Terms of z^n / n for odd n, z in units of 2^-192. -/
def atanhSeries (k : Nat) (z2 term acc : Int) (n : Nat) : Int :=
  match k with
  | 0 => acc
  | k + 1 =>
    let t := term * z2 / (2 ^ 192 : Int)
    atanhSeries k z2 t (acc + t / ((n + 2 : Nat) : Int)) (n + 2)

/-- ln (a / b) of two positive numbers, in units of 2^-192: b is held against a by a power of 2, the rest by the series
of atanh. -/
def lnRatio (a b : Nat) : Int :=
  let e : Int := (bitLen a : Int) - bitLen b
  let num := if e < 0 then a * 2 ^ e.natAbs else a
  let den := if e < 0 then b else b * 2 ^ e.natAbs
  let z : Int := ((num : Int) - den) * (2 ^ 192 : Nat) / ((num + den : Nat) : Int)
  e * ln2At192 + 2 * atanhSeries 90 (z * z / (2 ^ 192 : Int)) z z 1

/-- e^x in units of 2^-192. -/
def exp192 (x : Int) : Int :=
  let n := x / ln2At192
  let f := expSeries (2 ^ 192) 45 (x % ln2At192) (2 ^ 192) (2 ^ 192) 1
  if 0 ≤ n then f * (2 ^ n.natAbs : Nat) else f / (2 ^ n.natAbs : Nat)

/-- Is a word within one unit in the last place of the exact fraction `n / d` (units of 2^-149)? -/
def withinUlp (c : BitVec 32) (n : Int) (d : Nat) : Bool :=
  let r := fpRound n d
  !fpSpecial c && decide ((fpInt c * d - n).natAbs ≤ d * 2 ^ (max (fpExp r) 1 - 1))

/-- A coefficient: any value within one last place of the exact one `n / d`, in units of 2^-149 (R861); free where the
exact one does not exist. `key` holds what it depends on. DESIGN CHOICE: log entry 50. -/
def fpCoef (tag : Nat) (key : List (BitVec 32)) (n d : Int) : BitVec 32 :=
  let v := Config.coefOf tag key
  let m := if d < 0 then -n else n
  if d = 0 ∨ withinUlp v m d.natAbs then v else fpRound m d.natAbs

/-- An angle wrapped into [0, 2π) as a word (R282). -/
def fpWrap (x : BitVec 32) : BitVec 32 :=
  let v := fpInt (fpFlush x)
  if 0 ≤ v ∧ v < twoPiFp then fpFlush x
  else
    let r := fpRound (v % twoPiFp) 1
    if twoPiFp ≤ fpInt r then 0 else r

/-- A wide angle wrapped into [0, 2π) (R282). -/
def fpWrapWide (x : BitVec 32 × BitVec 32) : BitVec 32 × BitVec 32 :=
  let v := fpWide x
  if 0 ≤ v ∧ v < twoPiFp then x
  else
    let q := fpSplit (v % twoPiFp) 1
    if twoPiFp ≤ fpWide q then (0, 0) else q

end Sys2Proof.Machine
end

