-- ==== Sys2Proof/Machine/LeBlocks.lean ====
section
/-! DEFINITION. The control block library: for each block code its shape and latency (R275, R862), and what one lane
computes from its operands, parameters and states (R276 to R282, R302, R861). -/

namespace Sys2Proof.Machine

/-- The shape of a block: inputs, outputs, parameter words, state words, latency, and whether it uses the I/O port. -/
structure BlkShape where
  nIn : Nat
  nOut : Nat
  nPar : Nat
  nSt : Nat
  lat : Nat
  io : Bool := false
  deriving DecidableEq, Repr

/-- The library table (R275); states held with 48 bits count two words (R862). DEDUCED: log entry 51. -/
def blkShape (code : Nat) : Option BlkShape :=
  match code with
  | 0x01 => some ⟨2, 1, 0, 0, 2, false⟩
  | 0x02 => some ⟨2, 1, 0, 0, 2, false⟩
  | 0x03 => some ⟨2, 1, 0, 0, 2, false⟩
  | 0x04 => some ⟨3, 1, 0, 0, 3, false⟩
  | 0x05 => some ⟨1, 1, 1, 0, 2, false⟩
  | 0x06 => some ⟨4, 1, 4, 0, 3, false⟩
  | 0x07 => some ⟨2, 1, 0, 0, 6, false⟩
  | 0x08 => some ⟨1, 1, 0, 0, 6, false⟩
  | 0x09 => some ⟨1, 1, 0, 0, 1, false⟩
  | 0x0A => some ⟨2, 2, 0, 0, 1, false⟩
  | 0x0B => some ⟨1, 2, 2, 0, 1, false⟩
  | 0x0C => some ⟨3, 1, 0, 0, 1, false⟩
  | 0x0D => some ⟨1, 1, 2, 1, 2, false⟩
  | 0x0E => some ⟨1, 2, 0, 0, 5, false⟩
  | 0x0F => some ⟨2, 2, 0, 0, 6, false⟩
  | 0x10 => some ⟨3, 3, 0, 0, 3, false⟩
  | 0x11 => some ⟨3, 3, 0, 0, 3, false⟩
  | 0x12 => some ⟨4, 2, 0, 0, 3, false⟩
  | 0x13 => some ⟨4, 2, 0, 0, 3, false⟩
  | 0x14 => some ⟨2, 2, 1, 2, 4, false⟩
  | 0x15 => some ⟨4, 4, 0, 0, 3, false⟩
  | 0x16 => some ⟨2, 3, 8, 6, 12, false⟩
  | 0x17 => some ⟨1, 1, 1, 2, 3, false⟩
  | 0x18 => some ⟨1, 2, 4, 2, 4, false⟩
  | 0x19 => some ⟨2, 2, 16, 18, 6, false⟩
  | 0x1A => some ⟨2, 1, 3, 2, 4, false⟩
  | 0x1B => some ⟨1, 1, 1, 1, 3, false⟩
  | 0x1C => some ⟨1, 1, 5, 2, 4, false⟩
  | 0x1D => some ⟨1, 1, 3, 1, 3, false⟩
  | 0x1E => some ⟨2, 1, 4, 2, 3, false⟩
  | 0x1F => some ⟨1, 1, 1, 16, 1, false⟩
  | 0x20 => some ⟨1, 2, 2, 1, 3, false⟩
  | 0x21 => some ⟨2, 3, 2, 0, 7, false⟩
  | 0x22 => some ⟨2, 1, 5, 0, 3, false⟩
  | 0x23 => some ⟨2, 2, 5, 4, 5, false⟩
  | 0x24 => some ⟨0, 1, 1, 2, 2, true⟩
  | 0x25 => some ⟨0, 3, 1, 0, 2, true⟩
  | 0x26 => some ⟨0, 1, 1, 0, 2, true⟩
  | 0x27 => some ⟨6, 6, 6, 0, 6, false⟩
  | 0x28 => some ⟨3, 0, 2, 1, 5, false⟩
  | 0x29 => some ⟨4, 1, 1, 0, 10, false⟩
  | 0x2A => some ⟨4, 3, 1, 6, 8, false⟩
  | 0x2B => some ⟨1, 1, 2, 0, 2, false⟩
  | 0x2C => some ⟨1, 0, 1, 0, 1, true⟩
  | 0x2D => some ⟨1, 0, 1, 0, 1, true⟩
  | 0x2E => some ⟨1, 0, 0, 1, 1, true⟩
  | _ => none

/-- A lane's result: its outputs and the states it leaves. -/
structure LaneRes where
  outs : List (BitVec 32)
  sts : List (BitVec 32)
  deriving DecidableEq, Repr

def third : BitVec 32 := fpOfInt 3
/-- The binary32 values nearest √3 and √3/2 (R861). -/
def sqrt3 : BitVec 32 := 0x3FDDB3D7
def sqrt3half : BitVec 32 := 0x3F5DB3D7
def fpTwo : BitVec 32 := 0x40000000
def fpHalf : BitVec 32 := 0x3F000000

/-- CLARKE of three values (R275). -/
def clarke (a b c : BitVec 32) : List (BitVec 32) :=
  [fpDiv (fpSub (fpSub (fpMul fpTwo a) b) c) third, fpDiv (fpSub b c) sqrt3, fpDiv (fpAdd (fpAdd a b) c) third]

/-- The anti-windup condition of R276 for an unclamped value and its error. -/
def mayAdvance (u lo hi e : BitVec 32) : Bool :=
  (fpLe lo u && fpLe u hi) || (fpLt hi u && fpLt e 0) || (fpLt u lo && fpLt 0 e)

/-- A wide state read as an operand of an addition: the exact sum is rounded once (R255, R861). -/
def fpAddWide (a : BitVec 32) (x : BitVec 32 × BitVec 32) : BitVec 32 :=
  if fpSpecial a then a else if fpSpecial x.1 then x.1
  else if fpInt (fpFlush a) + fpWide x = 0 then 0 else fpRound (fpInt (fpFlush a) + fpWide x) 1

/-- PLL (R278). Its sine and cosine are those of SINCOS, within SINCOS's error. DESIGN CHOICE: log entry 130. -/
def blkPll (al be : BitVec 32) (p s : List (BitVec 32)) (dt : BitVec 32) : LaneRes :=
  let g := fun i => p.getD i 0
  let th := (s.getD 0 0, s.getD 1 0)
  let xi := (s.getD 2 0, s.getD 3 0)
  let cnt := s.getD 4 0
  let wOld := s.getD 5 0
  let mag := fpSqrt (fpAdd (fpMul al al) (fpMul be be))
  if fpLt mag (g 5) then
    let th' := fpWrapWide (fpWideAdd th (fpMul wOld dt))
    { outs := [fpWrap (fpNarrow th'), wOld, fpFlag false], sts := [th'.1, th'.2, xi.1, xi.2, 0, wOld] }
  else
    let a := fpNarrow th
    let qn := fpDiv (fpAdd (fpMul (fpMinus al) (fpSin a)) (fpMul be (fpCos a))) mag
    let raw := fpAddWide (fpAdd (g 2) (fpMul (g 0) qn)) xi
    let w := fpClamp raw (g 3) (g 4)
    let xi' := fpWideClamp (if mayAdvance raw (g 3) (g 4) qn then fpWideAdd xi (fpMul (fpMul (g 1) dt) qn) else xi)
      (fpSub (g 3) (g 2)) (fpSub (g 4) (g 2))
    let th' := fpWrapWide (fpWideAdd th (fpMul w dt))
    let cnt' := if fpLe (fpAbs qn) (g 6) then fpMin (fpAdd cnt fpOne) (g 7) else 0
    { outs := [fpWrap (fpNarrow th'), w, if fpSpecial qn then fpNan else fpFlag (cnt' == g 7)]
      sts := [th'.1, th'.2, xi'.1, xi'.2, cnt', w] }

/-- PI on a sum with extra terms already formed (R276). An overflow before the final clamp is a numeric exception (R261).
DESIGN CHOICE: log entry 129. -/
def blkPi (e extra : BitVec 32) (kp ki lo hi : BitVec 32) (xi : BitVec 32 × BitVec 32) (dt : BitVec 32) : LaneRes :=
  let raw := fpAdd (fpAddWide (fpMul kp e) xi) extra
  let u := fpClamp raw lo hi
  let xi' := fpWideClamp (if mayAdvance raw lo hi e then fpWideAdd xi (fpMul (fpMul ki dt) e) else xi) lo hi
  { outs := [if fpSpecial raw then raw else u, fpFlag (fpLt raw lo || fpLt hi raw)], sts := [xi'.1, xi'.2] }

/-- Coefficients of a resonator whose resonance lies at `wh` = h × ω and whose damping is K, under the trapezoidal rule
prewarped there (R275): with g = tan(h ω dt / 2) and D = 1 + g K + g², index 0 is 1/D, 1 is g/D, 2 is b g/D, 3 is
(1 + g K)/D and 4 is b g²/D. Numerator and denominator, both times D cos² and a power of 2; `k` and `b` in units of
2^-149. DESIGN CHOICE: log entry 49. -/
def resFrac (i : Nat) (a : Nat) (k b : Int) : Int × Int :=
  let u : Int := (fpUnit : Nat)
  let s := sin512 a
  let c := cos512 a
  let one : Int := (2 ^ 512 : Nat)
  (match i with
    | 0 => (one + c) * u
    | 1 => s * u
    | 2 => s * b
    | 3 => (one + c) * u + s * k
    | _ => (one - c) * b,
   2 * u * one + s * k)

/-- The five coefficients of a resonator, each within one last place (R861). `h` is a whole number. -/
def resCoefs (code : Nat) (h : Nat) (w k dt : BitVec 32) : List (BitVec 32) :=
  if fpSpecial w then List.replicate 5 fpNan
  else
    let a := angle512 w dt * h % (2 * pi512)
    let kk : Int := if code = 0x14 then fpInt (fpFlush k) else 2 * fpInt (fpFlush k)
    let b : Int := if code = 0x14 then fpInt (fpFlush k) else fpUnit
    (List.range 5).map fun i =>
      let f := resFrac i a kk b
      fpCoef (code * 8 + i) [BitVec.ofNat 32 h, w, k, dt] (f.1 * fpUnit) f.2

/-- In-phase and quadrature value of a resonator from its input and its two states (R275). -/
def resValues (c : List (BitVec 32)) (u s1 s2 : BitVec 32) : BitVec 32 × BitVec 32 :=
  let g := fun i => c.getD i 0
  (fpAdd (fpSub (fpMul (g 0) s1) (fpMul (g 1) s2)) (fpMul (g 2) u),
   fpAdd (fpAdd (fpMul (g 1) s1) (fpMul (g 3) s2)) (fpMul (g 4) u))

/-- A resonator's next state: twice the value less the state. -/
def resNext (v s : BitVec 32) : BitVec 32 := fpSub (fpMul fpTwo v) s

/-- The same of a state of 48 significant bits: the step 2 (v − s) is added to it (R255, R861). -/
def resNextWide (v : BitVec 32) (s : BitVec 32 × BitVec 32) : BitVec 32 × BitVec 32 :=
  fpWideAdd s (fpMul fpTwo (fpMinus (fpAddWide (fpMinus v) s)))

/-- The harmonics of PIR in order: an unused one (h = 0) adds nothing and keeps its states (R862). Each used harmonic is
a resonator at h × ω on KR × e whose states are held with 48 bits and always advance (R255, R275). -/
def pirHarm (k : Nat) (i : Nat) (e w dt : BitVec 32) (p s : List (BitVec 32)) (sum : BitVec 32)
    (acc : List (BitVec 32)) : BitVec 32 × List (BitVec 32) :=
  match k with
  | 0 => (sum, acc)
  | k + 1 =>
    let h := p.getD (4 + 3 * i) 0
    let st := (s.drop (2 + 4 * i)).take 4
    if fpLe h 0 && fpLe 0 h then pirHarm k (i + 1) e w dt p s sum (acc ++ st)
    else
      let z := p.getD (6 + 3 * i) 0
      let s1 := (st.getD 0 0, st.getD 1 0)
      let s2 := (st.getD 2 0, st.getD 3 0)
      let v := resValues (resCoefs 0x19 (fpNat h) w z dt) (fpMul (p.getD (5 + 3 * i) 0) e) (fpNarrow s1) (fpNarrow s2)
      let n1 := resNextWide v.1 s1
      let n2 := resNextWide v.2 s2
      pirHarm k (i + 1) e w dt p s (fpAdd sum (fpMul (Config.resGain h w z) v.1)) (acc ++ [n1.1, n1.2, n2.1, n2.2])

/-- PROF with its channel's limits (R302, R305). `hold` is already combined with LE_PROF_HOLD. -/
def blkProf (target track : BitVec 32) (hold gate : Bool) (vMax aMax jMax eps : BitVec 32)
    (s : List (BitVec 32)) (dt : BitVec 32) : LaneRes :=
  let x := (s.getD 0 0, s.getD 1 0)
  let v := (s.getD 2 0, s.getD 3 0)
  let a := (s.getD 4 0, s.getD 5 0)
  if !gate then { outs := [fpFlush track, 0, fpFlag false], sts := [fpFlush track, 0, 0, 0, 0, 0] }
  else
    let d := fpMinus (fpAddWide (fpMinus target) x)
    if fpLe (fpAbs d) eps && fpLe (fpAbs (fpNarrow v)) (fpMul aMax dt) && fpLe (fpAbs (fpNarrow a)) (fpMul jMax dt) then
      { outs := [fpFlush target, 0, fpFlag true], sts := [fpFlush target, 0, 0, 0, 0, 0] }
    else
      let m := fpMin vMax (fpSqrt (fpMul (fpMul fpTwo aMax) (fpAbs d)))
      let sgn : BitVec 32 := if fpLt d 0 then 0xBF800000 else if fpLt 0 d then fpOne else 0
      let vs := if hold then 0 else fpMul sgn m
      let as := fpClamp (fpDiv (fpMul (fpMinus (fpAddWide (fpMinus vs) v)) jMax) aMax) (fpMinus aMax) aMax
      let step := fpMul jMax dt
      let a' := fpWideAdd a (fpClamp (fpMinus (fpAddWide (fpMinus as) a)) (fpMinus step) step)
      let v' := fpWideClamp (fpWideAdd v (fpMul (fpNarrow a') dt)) (fpMinus vMax) vMax
      let x' := fpWideAdd x (fpMul (fpNarrow v') dt)
      { outs := [fpNarrow x', fpNarrow v', fpFlag false], sts := [x'.1, x'.2, v'.1, v'.2, a'.1, a'.2] }

/-- VLIM (R279). -/
def blkVlim (d q iMax prio : BitVec 32) : LaneRes :=
  let mag := fpSqrt (fpAdd (fpMul d d) (fpMul q q))
  if fpLe mag iMax then { outs := [d, q, fpFlag false], sts := [] }
  else
    let rest := fun c => fpSqrt (fpSub (fpMul iMax iMax) (fpMul c c))
    let r := if fpNat prio = 0 then
        let d' := fpClamp d (fpMinus iMax) iMax
        (d', fpClamp q (fpMinus (rest d')) (rest d'))
      else if fpNat prio = 1 then
        let q' := fpClamp q (fpMinus iMax) iMax
        (fpClamp d (fpMinus (rest q')) (rest q'), q')
      else (fpMul d (fpDiv iMax mag), fpMul q (fpDiv iMax mag))
    { outs := [if fpSpecial mag then mag else r.1, r.2, fpFlag (r.1 != d || r.2 != q)], sts := [] }

/-- LPF1's coefficient 1 − e^(−2π f_c dt), within one last place (R275, R861). -/
def lpfCoef (fc dt : BitVec 32) : BitVec 32 :=
  let x := (fpInt (fpFlush fc) * fpInt dt * twoPi640 / ((2 ^ 426 : Nat) : Int)).toNat
  fpCoef (0x1B * 8) [fc, dt] ((((2 ^ 512 : Nat) : Int) - expNeg512 x) * fpUnit) (2 ^ 512 : Nat)

/-- LEADLAG's coefficients b0, b1, a1 under Tustin, within one last place (R275, R861). -/
def leadCoef (i : Nat) (k t1 t2 dt : BitVec 32) : BitVec 32 :=
  let kk := fpInt (fpFlush k)
  let a := fpInt (fpFlush t1)
  let b := fpInt (fpFlush t2)
  let den : Int := fpInt dt + 2 * b
  let num : Int := if i = 0 then kk * (fpInt dt + 2 * a) else if i = 1 then kk * (fpInt dt - 2 * a) else (fpInt dt - 2 * b) * fpUnit
  fpCoef (0x1D * 8 + i) [k, t1, t2, dt] num den

/-- One lane of a block that works on its operands, parameters and states alone (R275). -/
def runLane (code : Nat) (x p s : List (BitVec 32)) (dt : BitVec 32) : LaneRes :=
  let i := fun k => x.getD k 0
  let g := fun k => p.getD k 0
  let t := fun k => s.getD k 0
  let out := fun (l : List (BitVec 32)) => ({ outs := l, sts := s } : LaneRes)
  match code with
  | 0x01 => out [fpAdd (i 0) (i 1)]
  | 0x02 => out [fpSub (i 0) (i 1)]
  | 0x03 => out [fpMul (i 0) (i 1)]
  | 0x04 => out [fpMac (i 0) (i 1) (i 2)]
  | 0x05 => out [fpMul (g 0) (i 0)]
  | 0x06 => out [fpAdd (fpAdd (fpAdd (fpMul (g 0) (i 0)) (fpMul (g 1) (i 1))) (fpMul (g 2) (i 2))) (fpMul (g 3) (i 3))]
  | 0x07 => out [fpDiv (i 0) (i 1)]
  | 0x08 => out [fpSqrt (i 0)]
  | 0x09 => out [fpAbs (fpFlush (i 0))]
  | 0x0A => out [fpMin (fpFlush (i 0)) (fpFlush (i 1)), fpMax (fpFlush (i 0)) (fpFlush (i 1))]
  | 0x0B => out [fpClamp (fpFlush (i 0)) (g 0) (g 1), fpFlag (fpLt (i 0) (g 0) || fpLt (g 1) (i 0))]
  | 0x0C => out [fpFlush (if fpTrue (i 2) then i 0 else i 1)]
  | 0x0D =>
    let f := if fpLt (g 0) (i 0) then fpFlag true else if fpLt (i 0) (g 1) then fpFlag false else fpFlag (fpTrue (t 0))
    { outs := [f], sts := [f] }
  | 0x0E => out [fpSin (i 0), fpCos (i 0)]
  | 0x0F => out [fpAtan (i 0) (i 1), fpMagnitude (i 0) (i 1)]
  | 0x10 => out (clarke (i 0) (i 1) (i 2))
  | 0x11 =>
    let h := fpDiv (fpMinus (i 0)) fpTwo
    let r := fpMul sqrt3half (i 1)
    out [fpAdd (i 0) (i 2), fpAdd (fpAdd h r) (i 2), fpAdd (fpSub h r) (i 2)]
  | 0x12 => out [fpAdd (fpMul (i 0) (i 3)) (fpMul (i 1) (i 2)), fpAdd (fpMul (fpMinus (i 0)) (i 2)) (fpMul (i 1) (i 3))]
  | 0x13 => out [fpSub (fpMul (i 0) (i 3)) (fpMul (i 1) (i 2)), fpAdd (fpMul (i 0) (i 2)) (fpMul (i 1) (i 3))]
  | 0x14 =>
    let v := resValues (resCoefs 0x14 1 (i 1) (g 0) dt) (i 0) (t 0) (t 1)
    { outs := [v.1, v.2], sts := [resNext v.1 (t 0), resNext v.2 (t 1)] }
  | 0x15 =>
    out [fpDiv (fpSub (i 0) (i 3)) fpTwo, fpDiv (fpAdd (i 1) (i 2)) fpTwo, fpDiv (fpAdd (i 0) (i 3)) fpTwo,
      fpDiv (fpSub (i 2) (i 1)) fpTwo]
  | 0x16 => blkPll (i 0) (i 1) p s dt
  | 0x17 =>
    let th := fpWrapWide (fpWideAdd (t 0, t 1) (fpMul (i 0) dt))
    { outs := [fpWrap (fpAddWide (g 0) th)], sts := [th.1, th.2] }
  | 0x18 => blkPi (i 0) 0 (g 0) (g 1) (g 2) (g 3) (t 0, t 1) dt
  | 0x19 =>
    let h := pirHarm 4 0 (i 0) (i 1) dt p s 0 []
    let r := blkPi (i 0) h.1 (g 0) (g 1) (g 2) (g 3) (t 0, t 1) dt
    { outs := r.outs, sts := r.sts ++ h.2 }
  | 0x1A =>
    let v := resValues (resCoefs 0x1A (fpNat (g 0)) (i 1) (g 2) dt) (fpMul (g 1) (i 0)) (t 0) (t 1)
    { outs := [fpMul (Config.resGain (g 0) (i 1) (g 2)) v.1], sts := [resNext v.1 (t 0), resNext v.2 (t 1)] }
  | 0x1B =>
    let y := fpAdd (t 0) (fpMul (lpfCoef (g 0) dt) (fpSub (i 0) (t 0)))
    { outs := [y], sts := [y] }
  | 0x1C =>
    let y := fpAdd (fpMul (g 0) (i 0)) (t 0)
    { outs := [y]
      sts := [fpAdd (fpSub (fpMul (g 1) (i 0)) (fpMul (g 3) y)) (t 1), fpSub (fpMul (g 2) (i 0)) (fpMul (g 4) y)] }
  | 0x1D =>
    let y := fpAdd (fpMul (leadCoef 0 (g 0) (g 1) (g 2) dt) (i 0)) (t 0)
    { outs := [y]
      sts := [fpSub (fpMul (leadCoef 1 (g 0) (g 1) (g 2) dt) (i 0)) (fpMul (leadCoef 2 (g 0) (g 1) (g 2) dt) y)] }
  | 0x1E =>
    let y := if fpTrue (i 1) then (fpFlush (g 3), (0 : BitVec 32))
      else fpWideClamp (fpWideAdd (t 0, t 1) (fpMul (fpMul (g 0) dt) (i 0))) (g 1) (g 2)
    { outs := [fpNarrow y], sts := [y.1, y.2] }
  | 0x1F => { outs := [t (fpNat (g 0) - 1)], sts := (fpFlush (i 0) :: s).take s.length }
  | 0x20 =>
    let up := fpMul (g 0) dt
    let dn := fpMul (g 1) dt
    let want := fpSub (i 0) (t 0)
    if fpSpecial want then { outs := [want, 0], sts := s }
    else if fpLe (fpMinus dn) want && fpLe want up then
      { outs := [fpFlush (i 0), fpFlag false], sts := [fpFlush (i 0)] }
    else
      let y := fpAdd (t 0) (if fpLt 0 want then up else fpMinus dn)
      { outs := [y, fpFlag true], sts := [y] }
  | 0x21 => blkVlim (fpFlush (i 0)) (fpFlush (i 1)) (g 0) (g 1)
  | 0x22 =>
    let e := fpSub (i 1) (g 0)
    let dz := if fpLe (fpAbs e) (g 2) then 0 else if fpLt e 0 then fpAdd e (g 2) else fpSub e (g 2)
    let u := fpAdd (i 0) (fpMul (g 1) dz)
    out [if fpSpecial u then u else fpClamp u (g 3) (g 4)]
  | 0x23 =>
    let w0 := fpNarrow (t 0, t 1)
    let acc := fpDiv (fpMul (fpMul dt (fpSub (fpSub (i 0) (i 1)) (fpMul (g 1) (fpSub (fpDiv w0 (g 2)) fpOne)))) (g 2))
      (fpMul fpTwo (g 0))
    let w := fpWideClamp (fpWideAdd (t 0, t 1) acc) (g 3) (g 4)
    let th := fpWrapWide (fpWideAdd (t 2, t 3) (fpMul (fpNarrow w) dt))
    { outs := [fpNarrow w, fpWrap (fpNarrow th)], sts := [w.1, w.2, th.1, th.2] }
  | 0x27 =>
    let at_ := fun k => ((List.range 6).find? fun j => fpNat (g j) == k).elim 0 i
    let s0 := fpAdd (at_ 0) (at_ 3)
    let s1 := fpAdd (at_ 1) (at_ 4)
    let s2 := fpAdd (at_ 2) (at_ 5)
    let h := clarke s0 s1 s2
    out ([fpAdd (fpAdd s0 s1) s2, h.getD 0 0, h.getD 1 0] ++
      clarke (fpSub (at_ 0) (at_ 3)) (fpSub (at_ 1) (at_ 4)) (fpSub (at_ 2) (at_ 5)))
  | _ => out []

/-- A parameter word that is a whole number within bounds (R863). -/
def wholeIn (x : BitVec 32) (lo hi : Int) : Bool :=
  !fpSpecial x && decide (fpInt x % fpUnit = 0) && decide (lo ≤ fpInt x / fpUnit) && decide (fpInt x / fpUnit ≤ hi)

def nonNeg (x : BitVec 32) : Bool := fpLe 0 x

/-- The load checks on the parameters of one lane (R258, R863). -/
def parOk (code : Nat) (p : List (BitVec 32)) : Bool :=
  let g := fun k => p.getD k 0
  p.all (fun w => !fpSpecial w) &&
  match code with
  | 0x06 => (List.range 4).all fun k => wholeIn (g k) (-1) 1
  | 0x0B => fpLe (g 0) (g 1)
  | 0x0D => fpLe (g 1) (g 0)
  | 0x14 => fpLe 0x3DCCCCCD (g 0) && fpLe (g 0) 0x40000000
  | 0x16 => fpLe (g 3) (g 2) && fpLe (g 2) (g 4) && nonNeg (g 5) && nonNeg (g 6) && wholeIn (g 7) 1 (2 ^ 128)
  | 0x18 => fpLe (g 2) (g 3)
  | 0x19 => fpLe (g 2) (g 3) && (List.range 4).all fun k => wholeIn (g (4 + 3 * k)) 0 50 && nonNeg (g (6 + 3 * k))
  | 0x1A => wholeIn (g 0) 1 50 && nonNeg (g 2)
  | 0x1B => nonNeg (g 0)
  | 0x1D => fpLt 0 (g 1) && fpLt 0 (g 2)
  | 0x1E => fpLe (g 1) (g 2)
  | 0x1F => wholeIn (g 0) 1 16
  | 0x20 => nonNeg (g 0) && nonNeg (g 1)
  | 0x21 => nonNeg (g 0) && wholeIn (g 1) 0 2
  | 0x22 => nonNeg (g 2) && fpLe (g 3) (g 4)
  | 0x23 => fpLt 0 (g 0) && fpLe (g 3) (g 2) && fpLe (g 2) (g 4)
  | 0x24 => wholeIn (g 0) 0 191
  | 0x25 => wholeIn (g 0) 0 11
  | 0x26 => wholeIn (g 0) 0 31
  | 0x27 => (List.range 6).all fun k => (List.range 6).any fun j => wholeIn (g j) k k
  | 0x28 => wholeIn (g 0) 0 11 && wholeIn (g 1) 1 64
  | 0x29 => wholeIn (g 0) 0 15
  | 0x2A => wholeIn (g 0) 0 15
  | 0x2B => wholeIn (g 0) 0 31
  | 0x2C => wholeIn (g 0) 0 63
  | 0x2D => wholeIn (g 0) 0 31
  | _ => true

end Sys2Proof.Machine
end

