-- ==== Sys2Proof/Machine/Loop.lean ====
section
/-! DEFINITION. The loop engines: slots, inputs and outputs of the composition, and the start of a cue
(R251 to R305, R329 to R355). -/

namespace Sys2Proof.Machine

/-- A slot of a state memory (R251, R262). -/
def Le.slot (x : Le) (i : Nat) : Slot := Sparse.get (fun _ => {}) x.slots i
def Le.setSlot (x : Le) (i : Nat) (v : Slot) : Le := { x with slots := Sparse.put (fun _ => {}) x.slots i v }

/-- A slot takes the value of a period; what it held before stays for inputs with PREV = 1 (R329, R333). -/
def Slot.take (x : Slot) (v c : BitVec 32) (held : Bool) (pc : BitVec 32) (at_ : BitVec 64) : Slot :=
  { v := v, c := c, held := held, pc := some pc, at_ := at_
    was := if x.pc = some pc then x.was else some { v := x.v, c := x.c, held := x.held, pc := x.pc, at_ := x.at_ } }

/-- A parameter word with its complement (R251). -/
def Le.param (x : Le) (i : Nat) : BitVec 32 × BitVec 32 := Sparse.get (fun _ => (0, 0xFFFFFFFF)) x.params i

/-- Results whose completion tick has come are in their slots (R253, R329). -/
def Le.settle (x : Le) (now : BitVec 64) : Le :=
  let due := x.pend.filter fun w => reached now w.at_
  let y := { x with pend := x.pend.filter fun w => !reached now w.at_ }
  due.foldl (fun z w => z.setSlot w.slot ((z.slot w.slot).take w.v w.c w.held w.pc w.at_)) y

/-- A slot as an input with PREV = 1 reads it in period `pc`: without a value that has come in that period already (R333). -/
def Slot.before (x : Slot) (pc : BitVec 32) : Slot :=
  match x.was with
  | some w => if x.pc = some pc then { v := w.v, c := w.c, held := w.held, pc := w.pc, at_ := w.at_ } else x
  | none => x

def State.leSettle (s : State) (e : Nat) : State := s.setLe e ((s.le e).settle s.now)

/-- A cue's input of a lane in period `pc` (R326, R333). -/
def cueIn (x : Le) (c : Cue) (pc : BitVec 32) (j l : Nat) : Slot :=
  match c.ins.getD j none with
  | some i => if i.1 then (x.slot (i.2 + l)).before pc else x.slot (i.2 + l)
  | none => {}

/-- Words of states of a block; DELAY has n (R862). -/
def stWords (code : Nat) (sh : BlkShape) (par : List (BitVec 32)) : Nat :=
  if code = 0x1F then min 16 (max 1 (fpNat (par.getD 0 0))) else sh.nSt

/-- A lane of a cue as it reads: operands, parameter words and state words with their pairs (R252, R862). -/
structure LaneIn where
  ins : List Slot
  par : List (BitVec 32 × BitVec 32)
  sts : List Slot
  deriving DecidableEq, Repr

def laneIn (x : Le) (c : Cue) (sh : BlkShape) (pc : BitVec 32) (l : Nat) : LaneIn :=
  let par := (List.range sh.nPar).map fun j => x.param (c.param + 16 * j + l)
  { ins := (List.range sh.nIn).map fun j => cueIn x c pc j l, par := par
    sts := (List.range (stWords c.block sh (par.map (·.1)))).map fun j => x.slot (c.state + 16 * j + l) }

/-- Every pair the lane reads is good (R260). -/
def LaneIn.ok (a : LaneIn) : Bool :=
  a.ins.all (fun x => pairOk x.v x.c) && a.par.all (fun x => pairOk x.1 x.2) && a.sts.all (fun x => pairOk x.v x.c)

/-- Some operand is HELD (R259). -/
def LaneIn.held (a : LaneIn) : Bool := a.ins.any (·.held)

/-- What a lane delivers: its outputs, none where it keeps the previous ones marked HELD, its states, and its quality. -/
structure LaneOut where
  outs : Option (List (BitVec 32))
  sts : List (BitVec 32)
  held : Bool
  /-- the block computed (ALL_DONE) -/
  done : Bool := true
  deriving DecidableEq, Repr

/-- A pair break or residue fault in engine `e` (R51, R52, R260, R312). -/
def State.leIntegrity (s : State) (e : Nat) : State :=
  (((s.bump (Reg.LE_CNT_PAIR e)).setBit (Reg.LE_EVT e) 0).setBit (Reg.LE_EVT e) 1).raise (172 + e)

/-- A numeric exception (R261). -/
def State.leNumeric (s : State) (e : Nat) : State :=
  ((s.bump (Reg.LE_CNT_NUM e)).setBit (Reg.LE_EVT e) 2).raiseOnce 190

/-- MISS_HOLD in effect: 16 is held as 0 (R265). DEDUCED: log entry 48. -/
def State.missHold (s : State) : Nat := if s.field Reg.LE_MEAS_CFG 0 4 = 0 then 16 else s.field Reg.LE_MEAS_CFG 0 4

/-- A channel's missing period, its `run`-th in a row (R265, R313, LE_MEAS_LOST). -/
def State.measMiss (s : State) (ch run : Nat) : State :=
  if run ≤ s.missHold then s
  else
    let s1 := if run = s.missHold + 1 then
        ({ s with isl := { s.isl with lost := ch :: s.isl.lost.filter (· != ch) } }.setField Reg.LE_MEAS_LOST 0 8 ch).setBit
          Reg.LE_ISL_EVT 0
      else s
    s1.raiseOnce 189

/-- The sample an engine holds of a channel for the period in progress (R264). -/
def State.rawOf (s : State) (e ch : Nat) : Option (Option (BitVec 16)) :=
  match Sparse.get (fun _ => none) s.isl.raw (192 * e + ch) with
  | some (pc, _, x) => if pc = s.tb.pc then some x else none
  | none => none

/-- MEASIN (R263 to R265). -/
def State.measIn (s : State) (e : Nat) (par st : List (BitVec 32)) : LaneOut × State :=
  let ch := fpNat (par.getD 0 0)
  match s.rawOf e ch with
  | some raw =>
    match s.sampleOf ch raw with
    | some v =>
      ({ outs := some [v], sts := [v, 0], held := false },
       { s with isl := { s.isl with lost := s.isl.lost.filter (· != ch) } })
    | none =>
      let run := fpNat (st.getD 1 0) + 1
      let s1 := if pairOk (s.corrPair ch).1 (s.corrPair ch).2 then s else s.leIntegrity e
      ({ outs := some [st.getD 0 0], sts := [st.getD 0 0, fpOfInt run], held := true }, s1.measMiss ch run)
  | none =>
    let run := fpNat (st.getD 1 0) + 1
    ({ outs := some [st.getD 0 0], sts := [st.getD 0 0, fpOfInt run], held := true }, s.measMiss ch run)

/-- ARMIN: the sums that the arm has sent to this engine (R267 to R269, R324). -/
def State.armIn (s : State) (e : Nat) (par : List (BitVec 32)) : LaneOut :=
  let n := fpNat (par.getD 0 0)
  match Sparse.get (fun _ => none) s.isl.sums (16 * e + n) with
  | none => { outs := none, sts := [], held := true }
  | some q =>
    let t := s.topo n
    let k := fun (x : Nat) => fpOfInt x
    let num := fpAdd (k q.nHb) (k q.nFb)
    let vMean := fpDiv (fpMul t.scale (fpAdd (k q.vHb) (k q.vFb))) num
    let en := fpMul (fpMul fpHalf (fpMul t.scale t.scale)) (fpAdd (fpMul t.cHb (k q.qHb)) (fpMul t.cFb (k q.qFb)))
    { outs := some [vMean, en, num], sts := [], held := false }

/-- λ of R283 before its clamp: rounded once, halves away from zero. -/
def lamOf (u vMean : BitVec 32) : Int :=
  let n := fpInt (fpFlush u) * 65536
  let d := fpInt (fpFlush vMean)
  let m : Nat := (2 * n.natAbs + d.natAbs) / (2 * d.natAbs)
  if (n < 0) = (d < 0) then (m : Int) else -(m : Int)

/-- The range of λ (R283). -/
def State.lamRange (s : State) (n : Nat) : Int × Int :=
  let t := s.topo n
  let p := if s.open (.ae n) then (s.ae n).par else (s.aeTable n).1
  (-(((t.nfb : Int) - p.redFb) * 65536), ((t.ncell : Int) - p.redAll) * 65536)

/-- LVLOUT (R283 to R287). -/
def State.lvlOut (s : State) (e : Nat) (a : LaneIn) : LaneOut × State :=
  let n := fpNat ((a.par.getD 0 (0, 0)).1)
  let lim := fpNat ((a.par.getD 1 (0, 0)).1)
  let u := a.ins.getD 0 {}
  let v := a.ins.getD 1 {}
  let i := a.ins.getD 2 {}
  let cnt := if u.held || v.held then min (fpNat ((a.sts.getD 0 {}).v) + 1) (lim + 1) else 0
  if lim < cnt then ({ outs := some [], sts := [fpOfInt cnt], held := a.held }, s)
  else if fpSpecial u.v ∨ fpSpecial v.v ∨ fpMag (fpFlush v.v) = 0 then
    ({ outs := none, sts := [], held := true, done := false }, s.leNumeric e)
  else
    let q := lamOf u.v v.v
    let r := s.lamRange n
    let lam := min (max q r.1) r.2
    let s1 := if lam ≠ q then s.bump (Reg.LE_CNT_LVCLAMP e) else s
    ({ outs := some [], sts := [fpOfInt cnt], held := a.held },
     { s1 with isl := { s1.isl with
       lvl := Sparse.put (fun _ => none) s1.isl.lvl n 
         (some ((BitVec.ofInt 32 lam, ~~~ BitVec.ofInt 32 lam), (i.v, i.c), s.tb.pc)) } })

/-- An entry of the Eddy memory as it is read: a broken pair reads as 0 and is counted (R298). -/
def State.eddyRead (s : State) (e a : Nat) : BitVec 32 × State :=
  let x := Sparse.get (fun _ => (0, 0xFFFFFFFF)) s.isl.eddy a
  if pairOk x.1 x.2 then (x.1, s) else (0, (s.bump Reg.LE_EDDY_PAIR).raise (172 + e))

def State.eddyWrite (s : State) (a : Nat) (v : BitVec 32) : State :=
  { s with isl := { s.isl with eddy := Sparse.put (fun _ => (0, 0xFFFFFFFF)) s.isl.eddy a (v, ~~~ v) } }

/-- 2π as a binary32 constant (R861). -/
def fpTwoPi : BitVec 32 := 0x40C90FDB

/-- Does an Eddy channel learn? (R297) -/
def State.eddyLearns (s : State) (ch : Nat) (c : EddyCh) (er th w : Slot) : Bool :=
  !er.held && !th.held && !s.bitOf Reg.LE_EDDY_FREEZE ch &&
  fpLe (fpAbs (fpSub (fpDiv w.v fpTwoPi) c.fNom)) (fpMul c.fTol c.fNom)

/-- The learning step on one entry (R297). -/
def State.eddyLearnAt (s : State) (e a : Nat) (c : EddyCh) (wgt er : BitVec 32) : State :=
  let r := s.eddyRead e a
  r.2.eddyWrite a (fpClamp (fpAdd (fpMul c.rho r.1) (fpMul (fpMul wgt c.g) er)) (fpMinus c.yLim) c.yLim)

/-- EDDY (R295 to R298). -/
def State.eddyRun (s : State) (e : Nat) (a : LaneIn) : LaneOut × State :=
  let ch := fpNat ((a.par.getD 0 (0, 0)).1)
  let c := s.isl.eddyCh.getD ch {}
  let er := a.ins.getD 0 {}
  let th := a.ins.getD 1 {}
  let w := a.ins.getD 2 {}
  let gate := fpTrue (a.ins.getD 3 {}).v
  if gate = false ∨ c.nb = 0 then ({ outs := some [0], sts := [], held := false }, s)
  else
    let nb := fpOfInt c.nb
    let x := fpMul (fpDiv (fpWrap th.v) fpTwoPi) nb
    let r0 := fpAdd x (fpOfInt c.lead)
    let r := if fpLe nb r0 then fpSub r0 nb else r0
    let i := fpNat r % c.nb
    let f := fpSub r (fpOfInt (fpNat r))
    let b0 := s.eddyRead e (c.base + i)
    let b1 := b0.2.eddyRead e (c.base + (i + 1) % c.nb)
    let y0 := fpAdd (fpMul (fpSub fpOne f) b0.1) (fpMul f b1.1)
    let s1 := b1.2
    if fpSpecial y0 ∨ fpSpecial x then ({ outs := none, sts := [], held := true, done := false }, s1.leNumeric e)
    else
      let past := fpLt c.yLim (fpAbs y0)
      let y := if past then (if fpNeg y0 then fpMinus c.yLim else c.yLim) else y0
      let s2 := if past then s1.bump Reg.LE_EDDY_CLAMP else s1
      let s3 := if s2.eddyLearns ch c er th w then
          let k := fpNat x % c.nb
          let g := fpSub x (fpOfInt (fpNat x))
          let t1 := s2.eddyLearnAt e (c.base + k) c (fpSub fpOne g) er.v
          let t2 := t1.eddyLearnAt e (c.base + (k + 1) % c.nb) c g er.v
          { t2 with isl := { t2.isl with eddyLearn := t2.isl.eddyLearn ||| ((1 : BitVec 16) <<< ch) } }
        else s2
      ({ outs := some [y], sts := [], held := a.held }, s3)

/-- PROF (R301 to R305). -/
def State.profRun (s : State) (a : LaneIn) (dt : BitVec 32) : LaneOut × State :=
  let ch := fpNat ((a.par.getD 0 (0, 0)).1)
  let c := s.isl.profCh.getD ch {}
  let i := fun k => (a.ins.getD k {}).v
  let hold := fpTrue (i 1) || s.bitOf Reg.LE_PROF_HOLD ch
  let r := blkProf (i 0) (i 3) hold (fpTrue (i 2)) c.vMax c.aMax c.jMax c.eps (a.sts.map (·.v)) dt
  let one : BitVec 16 := (1 : BitVec 16) <<< ch
  let arrived := fpTrue (r.outs.getD 2 0)
  let moving := fpTrue (i 2) && !arrived
  ({ outs := some r.outs, sts := r.sts, held := a.held },
   if r.outs.any fpSpecial || r.sts.any fpSpecial then s
   else { s with isl := { s.isl with
     profMoving := if moving then s.isl.profMoving ||| one else s.isl.profMoving &&& ~~~ one
     profArrived := if arrived then s.isl.profArrived ||| one else s.isl.profArrived &&& ~~~ one
     profX := Sparse.put (fun _ => 0) s.isl.profX ch (r.outs.getD 0 0) } })

/-- INJ adds s at the point of a run (R307, R308). -/
def State.injRun (s : State) (a : LaneIn) : LaneOut :=
  let pt := fpNat ((a.par.getD 0 (0, 0)).1)
  let x := (a.ins.getD 0 {}).v
  { outs := some [fpAdd x (if s.field Reg.LE_INJ_CTL 8 5 = pt then s.isl.inj.s else 0)], sts := [], held := a.held }

/-- STATOUT: the value shows from the next boundary (R273). -/
def State.statOut (s : State) (i : Nat) (v : BitVec 32) (held : Bool) : State :=
  { s with isl := { s.isl with stat := Sparse.put (fun _ => none) s.isl.stat i (some (v, held)) } }

/-- TRACE sends a sample to a trace channel (R274). -/
def State.traceOut (s : State) (ch : Nat) (v : BitVec 32) (held : Bool) : State :=
  { s with isl := { s.isl with trace := Sparse.put (fun _ => none) s.isl.trace ch (some (v, held)) } }

/-- What a lane computes from good pairs (R275). -/
def State.laneRun (s : State) (e code : Nat) (a : LaneIn) : LaneOut × State :=
  let par := a.par.map (·.1)
  let st := a.sts.map (·.v)
  let x := (a.ins.getD 0 {}).v
  let n := fpNat (par.getD 0 0)
  match code with
  | 0x24 => s.measIn e par st
  | 0x25 => (s.armIn e par, s)
  | 0x26 =>
    let o := Sparse.get (fun _ => (0, 0xFFFFFFFF)) s.isl.ord n
    if pairOk o.1 o.2 then ({ outs := some [o.1], sts := [], held := false }, s)
    else ({ outs := none, sts := [], held := true, done := false }, s.leIntegrity e)
  | 0x28 => s.lvlOut e a
  | 0x29 => s.eddyRun e a
  | 0x2A => s.profRun a (dtOf s.per)
  | 0x2B => (s.injRun a, s)
  | 0x2C => ({ outs := some [], sts := [], held := a.held }, s.traceOut n x a.held)
  | 0x2D => ({ outs := some [], sts := [], held := a.held }, s.statOut n x a.held)
  | 0x2E =>
    let f := fpTrue x
    ({ outs := some [], sts := [fpFlag f], held := a.held },
     if f && !fpTrue (st.getD 0 0) then s.raiseOnce 191 else s)
  | _ =>
    let r := runLane code (a.ins.map (·.v)) par st (dtOf s.per)
    ({ outs := some r.outs, sts := r.sts, held := a.held }, s)

/-- A result that would be NaN or infinite is not delivered (R261). -/
def State.laneNumeric (s : State) (e : Nat) (r : LaneOut) : LaneOut × State :=
  if (match r.outs with | some l => l.any fpSpecial | none => false) || r.sts.any fpSpecial then
    ({ outs := none, sts := [], held := true, done := false }, s.leNumeric e)
  else (r, s)

/-- The status entry of a STATOUT that does not compute keeps its value, marked HELD (R260). -/
def State.statKeep (s : State) (code n : Nat) : State :=
  if code = 0x2D then
    match Sparse.get (fun _ => none) s.isl.stat n with
    | some x => s.statOut n x.1 true
    | none => s.statOut n (s.rd (Reg.LE_STATV n)) true
  else s

/-- A MEASIN that misses, whatever the KIND, counts the period for its channel (R264, R265). DEDUCED: log entry 131. -/
def State.measLate (s : State) (e code : Nat) (c : Cue) (l : Nat) (a : LaneIn) : State :=
  if code = 0x24 then
    let run := fpNat ((a.sts.getD 1 {}).v) + 1
    let v := fpOfInt run
    let x := s.le e
    let s1 := s.setLe e (x.setSlot (c.state + 16 + l) { x.slot (c.state + 16 + l) with v := v, c := ~~~ v })
    s1.measMiss (fpNat ((a.par.getD 0 (0, 0)).1)) run
  else s

/-- The outputs and states of a lane go to their slots, present at the completion tick (R253, R326, R354, R862). -/
def State.laneStore (s : State) (e : Nat) (c : Cue) (sh : BlkShape) (l : Nat) (r : LaneOut) : State :=
  let x := s.le e
  let done := s.now + BitVec.ofNat 64 sh.lat
  let w := (List.range sh.nOut).map fun o =>
    let i := c.dest + 16 * o + l
    match r.outs with
    | some q => ({ at_ := done, slot := i, v := q.getD o 0, c := ~~~ q.getD o 0, held := r.held, pc := s.tb.pc } : LePend)
    | none => { at_ := done, slot := i, v := (x.slot i).v, c := (x.slot i).c, held := true, pc := s.tb.pc }
  let y := (indexed 0 r.sts).foldl (fun z (q : Nat × BitVec 32) =>
    z.setSlot (c.state + 16 * q.1 + l) { v := q.2, c := ~~~ q.2 }) x
  s.setLe e { y with pend := y.pend ++ w, heldOut := y.heldOut + if r.held then sh.nOut else 0 }

/-- One lane of a cue; `run` is false for a cue that misses, `residue` discards the result (R52, R252, R260, R354).
The flag says whether the lane computed. -/
def State.cueLane (s : State) (e : Nat) (c : Cue) (sh : BlkShape) (run residue : Bool) (l : Nat) : Bool × State :=
  let a := laneIn (s.le e) c sh s.tb.pc l
  let kept : LaneOut := { outs := none, sts := [], held := true, done := false }
  let n := fpNat ((a.par.getD 0 (0, 0)).1)
  if run = false then
    (false, ((s.measLate e c.block c l a).statKeep c.block n).laneStore e c sh l kept)
  else if a.ok = false ∨ residue then
    (false, ((s.leIntegrity e).statKeep c.block n).laneStore e c sh l kept)
  else
    let r := s.laneRun e c.block a
    let q := r.2.laneNumeric e r.1
    (q.1.done, (if q.1.done then q.2 else q.2.statKeep c.block n).laneStore e c sh l q.1)

/-- Every lane in turn. DEDUCED: log entry 45. -/
def State.cueLanes (s : State) (e : Nat) (c : Cue) (sh : BlkShape) (run residue : Bool) (k : Nat) (all : Bool) :
    Bool × State :=
  match k with
  | 0 => (all, s)
  | k + 1 =>
    let r := s.cueLane e c sh run residue (c.lanes - (k + 1))
    r.2.cueLanes e c sh run residue k (all && r.1)

/-- A cue's resource is still occupied (R338, R353 KIND 001). -/
def State.cueBusy (s : State) (e : Nat) (c : Cue) (sh : BlkShape) : Bool :=
  let x := s.le e
  if sh.io then x.ioAt == s.now && decide (2 ≤ x.ioCnt)
  else (x.busyTo != 0 && !reached s.now x.busyTo) ||
    (c.block == 0x29 && s.isl.eddyBusyTo != 0 && !reached s.now s.isl.eddyBusyTo)

/-- The cue takes its resource (R338). -/
def State.cueOccupy (s : State) (e : Nat) (c : Cue) (sh : BlkShape) : State :=
  let x := s.le e
  let t := s.now + BitVec.ofNat 64 sh.lat
  if sh.io then s.setLe e (if x.ioAt = s.now then { x with ioCnt := x.ioCnt + 1 } else { x with ioAt := s.now, ioCnt := 1 })
  else
    let s1 := s.setLe e { x with busyTo := t }
    if c.block = 0x29 then { s1 with isl := { s1.isl with eddyBusyTo := t } } else s1

/-- Is an input of the cue without its value of this period? (R329, R330, R332, R353 KIND 011) -/
def cueStarved (x : Le) (c : Cue) (sh : BlkShape) (pc : BitVec 32) : Bool :=
  (List.range sh.nIn).any fun j =>
    match c.ins.getD j none with
    | some (false, b) => (List.range c.lanes).any fun l => (x.slot (b + l)).pc != some pc
    | _ => false

/-- Has the node entry that holds a channel passed its checks at its port, for the period in progress? (R147, R264).
DEDUCED: log entry 55. -/
def State.nodeAtPort (s : State) (ch : Nat) : Bool :=
  let q := s.port (ch / 16)
  let i := ch % 16 / 4
  if s.tb.intakeDone then (q.nodes.getD i none).isSome else (nodeOf (streamFor q.stream s.tb.pc) i).isSome

/-- Is a node entry that a MEASIN cue reads at its port, but not yet delivered? (R264) -/
def State.nodeLate (s : State) (e : Nat) (c : Cue) : Bool :=
  c.block == 0x24 && (List.range c.lanes).any fun l =>
    let ch := fpNat ((s.le e).param (c.param + l)).1
    (s.rawOf e ch).isNone && s.nodeAtPort ch

/-- The slots that a transfer over crossing `k` writes hold slot `i` of engine `e` (R324, R326). -/
def SchSection.carries (c : SchSection) (k : Nat) (x : Xing) (e i : Nat) : Bool :=
  x.kind == 0 && x.dst == leCode e &&
  c.cues.any fun l => l.any fun q => q.xing == some k &&
    match blkShape q.block with
    | some sh => rowsHit x.dstBase sh.nOut q.lanes i
    | none => false

/-- The slot's value comes by a transfer into engine `e` (R324, R351). -/
def State.byTransfer (s : State) (e i : Nat) : Bool :=
  (indexed 0 s.sec.xings).any fun (k : Nat × Xing) => s.sec.carries k.1 k.2 e i

/-- A value that is present, the period it is consumed in and the flag PREV: is it the one that the input consumes?
(R332, R333) -/
def consumed (pc : BitVec 32) (prev : Bool) (x : Slot) : Bool := if prev then (x.before pc).pc.isSome else x.pc == some pc

/-- The slack of every input of a cue that depends on a transfer and is present, whether the cue runs or misses (R351). -/
def State.cueSlack (s : State) (e i : Nat) (c : Cue) (sh : BlkShape) : State :=
  let x := s.le e
  let note := fun (t : State) (at_ : BitVec 64) => t.noteSlack (leCode e) i (timeDiff s.now at_)
  let s1 := (List.range sh.nIn).foldl (fun t j =>
    match c.ins.getD j none with
    | some (prev, b) => (List.range c.lanes).foldl (fun u l =>
        if consumed s.tb.pc prev (x.slot (b + l)) && s.byTransfer e (b + l) then
          note u (if prev then ((x.slot (b + l)).before s.tb.pc).at_ else (x.slot (b + l)).at_) else u) t
    | none => t) s
  let first := fun (l : Nat) => fpNat (x.param (c.param + l)).1
  if c.block = 0x24 then
    (List.range c.lanes).foldl (fun t l =>
      match Sparse.get (fun _ => none) s.isl.raw (192 * e + first l) with
      | some (pc, at_, _) => if pc = s.tb.pc then note t at_ else t
      | none => t) s1
  else if c.block = 0x25 then
    (List.range c.lanes).foldl (fun t l =>
      let k := 16 * e + first l
      if (Sparse.get (fun _ => none) s.isl.sums k).isSome then note t (Sparse.get (fun _ => 0) s.isl.sumsAt k) else t) s1
  else s1

/-- The words of a KIND 0 transfer: the outputs in the layout at DEST, both halves (R48, R324, R326). -/
def cueWords (x : Le) (c : Cue) (sh : BlkShape) : List (BitVec 32 × BitVec 32) :=
  ((List.range sh.nOut).map fun o => (List.range c.lanes).map fun l =>
    let i := c.dest + 16 * o + l
    ((x.pend.reverse.find? fun w => w.slot == i).map fun w => (w.v, w.c)).getD ((x.slot i).v, (x.slot i).c)).flatten

/-- The arms that the lanes of a cue serve (R862, R864). -/
def cueArms (x : Le) (c : Cue) : List Nat := (List.range c.lanes).map fun l => fpNat (x.param (c.param + l)).1

/-- The crossings on which a cue's outputs go onward: its own, or those of the arms that an LVLOUT cue serves (R325, R864). -/
def State.cueTo (s : State) (e : Nat) (c : Cue) (i : Nat) (x : Xing) : Bool :=
  if c.block = 0x28 then
    x.src == leCode e && (cueArms (s.le e) c).any fun n => (x.kind == 1 && x.dst == aeCode n) || (x.kind == 2 && x.dst == portCode n)
  else c.xing == some i

/-- A cue sends to a domain that is off (R67). DEDUCED: log entry 109. -/
def State.cueDark (s : State) (e : Nat) (c : Cue) : Bool :=
  (indexed 0 s.sec.xings).any fun (q : Nat × Xing) => s.cueTo e c q.1 q.2 && !s.powered (islandDomain (codeIsland q.2.dst))

/-- Has the LVLOUT lane of arm `n` sent λ and i_a in the period in progress? One that does not compute or that withholds its order
sends neither (R285, R286). -/
def State.lvlSent (s : State) (n : Nat) : Bool :=
  match Sparse.get (fun _ => none) s.isl.lvl n with
  | some q => q.2.2 == s.tb.pc
  | none => false

/-- The cue's outputs go onward over its crossing; the transfer ends with its CUE word (R253, R285, R286, R324, R328). -/
def State.cueSend (s : State) (e : Nat) (c : Cue) (sh : BlkShape) : State :=
  let pcLo : BitVec 16 := s.tb.pc.setWidth 16
  match c.xing with
  | some k =>
    let data := if (s.xing k).kind = 0 then cueWords (s.le e) c sh else []
    let w := s.cueNow k sh.lat (if (s.xing k).kind = 0 then 2 * data.length else (s.xing k).words) pcLo
    let had := Sparse.get (fun _ => []) s.isl.tx k
    { s with isl := { s.isl with tx := if (s.xing k).kind = 0
                                        then Sparse.put (fun _ => []) s.isl.tx k (({ cue := w, lanes := c.lanes, words := data } :: had).take 4)
                                        else s.isl.tx }
             sch := { s.sch with cueOut := Sparse.put (fun _ => 0) s.sch.cueOut k w } }
  | none =>
    if c.block = 0x28 then
      ((cueArms (s.le e) c).filter s.lvlSent).foldl (fun t n => t.sendCues (fun x =>
        x.src == leCode e && ((x.kind == 1 && x.dst == aeCode n) || (x.kind == 2 && x.dst == portCode n))) sh.lat pcLo) s
    else s

/-- A loop cue's miss: its sources, its counters, its notices, and outputs kept and marked HELD (R353 to R355, R367). Its HELD outputs
go onward as those of a cue that computes do, unless their crossing leads to a domain that is off (R67, R253, R354).
DEDUCED: log entry 52. -/
def State.cueMiss (s : State) (e i kind : Nat) (c : Cue) (sh : BlkShape) : State :=
  let s1 := s.declareMiss (leCode e) kind i (if kind = 2 then [46 + e, 57] else [46 + e])
  let s2 := if kind = 3 then s1.addField (Reg.SCH_LE_MISS e) 16 16 1 else s1.addField (Reg.SCH_LE_MISS e) 0 16 1
  let s3 := ((s2.setBitIf (kind == 2) Reg.SCH_EVT 7).missNotices c.affect).setBit (Reg.LE_EVT e) 1
  let r := s3.cueLanes e c sh false false c.lanes true
  let x := r.2.le e
  let t := r.2.setLe e { x with failed := x.failed + 1, ran := if kind = 1 then x.ran else x.ran + 1 }
  if sh.nOut = 0 ∨ t.cueDark e c then t else t.cueSend e c sh

/-- A stored word of a cue entry loses its complement (R327). -/
def State.cueBreak (s : State) (e i : Nat) : State :=
  let x := s.le e
  let w := Sparse.get (fun _ => (0, 0xFFFFFFFF)) x.cueMem (8 * i)
  s.setLe e { x with cueMem := Sparse.put (fun _ => (0, 0xFFFFFFFF)) x.cueMem (8 * i) (w.1, w.1) }

/-- Every word of a stored cue entry passes its pair check as it is fetched (R327). -/
def Le.entryOk (x : Le) (i : Nat) : Bool :=
  (List.range 8).all fun j =>
    let w := Sparse.get (fun _ => (0, 0xFFFFFFFF)) x.cueMem (8 * i + j)
    pairOk w.1 w.2

/-- A cue that starts (R252 to R263). -/
def State.cueRun (s : State) (e : Nat) (c : Cue) (sh : BlkShape) (residue : Bool) : State :=
  let s1 := s.cueOccupy e c sh
  let r := s1.cueLanes e c sh true residue c.lanes true
  let x := r.2.le e
  let s2 := r.2.setLe e { x with ran := x.ran + 1, failed := if r.1 then x.failed else x.failed + 1 }
  s2.cueSend e c sh

/-- CUE_START: cue `i` of loop engine `e` at its start tick. A cue that sends to a domain that is off finds its crossing
occupied (R67, R253, R353, R354). DEDUCED: log entry 109. -/
def execCueStart (e : Fin 4) (i : Fin 2048) (dmg : CueDamage) (s : State) : Res :=
  match (s.sec.cueList e)[(i : Nat)]? with
  | none => .next s
  | some c =>
    match blkShape c.block with
    | none => .next s
    | some sh =>
      if s.tb.run = false ∨ s.open (.le e) = false ∨ s.computes = false then .next s
      else
        let s0 := ((s.advanceTo (s.tickAt c.start)).leSettle e).cueSlack e i c sh
        let s1 := if dmg = .entry then s0.cueBreak e i else s0
        if s1.cueBusy e c sh ∨ s1.cueDark e c then .next (s1.cueMiss e i 1 c sh)
        else if (s1.le e).entryOk i = false then .next (s1.cueMiss e i 2 c sh)
        else if cueStarved (s1.le e) c sh s.tb.pc ∨ s1.nodeLate e c then .next (s1.cueMiss e i 3 c sh)
        else .next (s1.cueRun e c sh (dmg == .residue))

end Sys2Proof.Machine
end

