-- ==== Sys2Proof/Machine/Setup.lean ====
section
/-! DEFINITION. Putting the sections of a configuration into effect, at start-up, when engines are switched on, and at a
COMMIT boundary (R257, R299, R304, R342 to R344, R392, R530 to R536, R557). -/

namespace Sys2Proof.Machine

/-- B_L: blocks of a LIVE transfer (R509). -/
def liveBlocks (liveWords : Nat) (ncells : List Nat) : Nat :=
  (64 + 8 * liveWords + (ncells.map fun n => (n + 3) / 4).foldl (· + ·) 0 + 51) / 52

/-- Cell counts of the ports in a topology. -/
def Topo.ncells (t : Topo) : List Nat := (List.range 12).map fun n => if t.mask.getLsbD n then (t.port n).ncell else 0

/-- The device parameters take effect (R530, TWN_CFG, TWN_RECLAIM, TWN_LIVE, SYS_HOLD_CFG, SYS_PD_USE). -/
def State.applyDev (s : State) (d : DevPar) : State :=
  let s1 := { s with sys := { s.sys with cfg := { s.sys.cfg with dev := d } } }
  let s2 := (s1.wr Reg.SYS_PD_USE (d.pdUse.setWidth 32)).wr Reg.SYS_HOLD_CFG (BitVec.ofNat 32 (d.eMargin * 65536 + d.tRide))
  ((s2.wr Reg.TWN_CFG (BitVec.ofNat 32 (d.l * 65536 + (if d.autoReclaim then 4 else 0) + (if d.twinEn then 1 else 0)))).wr
    Reg.TWN_RECLAIM (BitVec.ofNat 32 d.tReclaim)).wr Reg.TWN_LIVE
      (BitVec.ofNat 32 (liveBlocks d.liveWords s.sys.cfg.topo.ncells * 65536 + d.liveWords))

/-- The channel scales of a topology, by channel number (R263, R531). -/
def Topo.scales (t : Topo) : Sparse (BitVec 32) :=
  (List.range 12).foldl (fun m p =>
    (List.range 16).foldl (fun m i => Sparse.put (fun _ => 0) m (16 * p + i) ((t.port p).chScale.getD i 0)) m) []

/-- The topology takes effect (R263, R531, PRT_HOLD). -/
def State.applyTopo (s : State) (t : Topo) : State :=
  let s1 := { s with sys := { s.sys with cfg := { s.sys.cfg with topo := t } } }
  if s1.open (.le 0) then { s1 with isl := { s1.isl with scale := t.scales } } else s1

/-- Parameters of the fast protection, in register order (R534, target 0x021). -/
def fpRegs : List Nat :=
  [Reg.LE_FP_CFG] ++ (List.range 12).map Reg.LE_FP_IOC ++ (List.range 4).map Reg.LE_FP_VUV ++
  (List.range 4).map Reg.LE_FP_UVCH ++ (List.range 12).map Reg.LE_FP_OCCH

/-- A word of the fast protection's parameters as its register holds it: unused bits of LE_FP_CFG and of the channel registers
read 0 (R16, R315). -/
def fpWord (a : Nat) (v : Word) : Word :=
  if a = Reg.LE_FP_CFG then v &&& 0x0FFF0F73 else if Reg.LE_FP_UVCH 0 ≤ a then v &&& 0xFF else v

/-- N_B of an Eddy channel (R296). -/
def eddyLen (fNom : BitVec 32) (p : Nat) : Nat :=
  let d := (fpInt fNom).toNat * p
  if d = 0 then 0 else (2 * fpUnit * 200000000 + d) / (2 * d)

/-- The Eddy channels with their buffers laid one after another (R295, R296). -/
def eddyPlaced (l : List EddyCh) (p : Nat) : List EddyCh :=
  (l.foldl (fun (m : List EddyCh × Nat) c =>
    let nb := eddyLen c.fNom p
    (m.1 ++ [{ c with nb := nb, base := m.2 }], m.2 + nb)) ([], 0)).1

/-- A channel whose F_NOM or the period has changed starts with a cleared buffer; one that only moves takes its entries
along (R299, R344). -/
def eddyMoved (old new : List EddyCh) (samePer : Bool) (mem : Sparse (BitVec 32 × BitVec 32)) : Sparse (BitVec 32 × BitVec 32) :=
  (List.range new.length).foldl (fun m i =>
    let c := new.getD i {}
    let o := old.getD i {}
    if samePer && o.fNom == c.fNom then
      (List.range c.nb).foldl (fun m k =>
        Sparse.put (fun _ => (0, 0xFFFFFFFF)) m (c.base + k) (Sparse.get (fun _ => (0, 0xFFFFFFFF)) mem (o.base + k))) m
    else m) []

/-- The loop engines take their parameter memories (R534). -/
def State.applyLe (s : State) (t : ParTables) : State :=
  (List.range 4).foldl (fun u e =>
    let mem := (indexed 0 (t.le.getD e [])).foldl (fun (m : Sparse (BitVec 32 × BitVec 32)) (q : Nat × BitVec 32 × BitVec 32) =>
      Sparse.put (fun _ => (0, 0xFFFFFFFF)) m q.1 q.2) []
    u.setLe e { u.le e with params := mem }) s

/-- A profile channel's acceleration held within a lowered A_MAX (R304). -/
def State.profLimit (s : State) (e : Nat) (c : Cue) (l : Nat) : State :=
  let x := s.le e
  let ch := fpNat (x.param (c.param + l)).1
  let lim := (s.isl.profCh.getD ch {}).aMax
  let i := c.state + 64 + l
  let hi := (x.slot i).v
  let lo := (x.slot (i + 16)).v
  if fpLt lim (fpAbs (fpNarrow (hi, lo))) then
    let v := if fpNeg hi then fpMinus lim else lim
    (s.setLe e ((x.setSlot i { x.slot i with v := v, c := ~~~ v }).setSlot (i + 16) { x.slot (i + 16) with v := 0, c := 0xFFFFFFFF })).bump
      Reg.LE_PROF_JUMP
  else s

/-- Every profile lane of the section in effect (R304). -/
def State.profLimits (s : State) : State :=
  (List.range 4).foldl (fun t e =>
    (s.sec.cueList e).foldl (fun u c =>
      if c.block = 0x2A then (List.range c.lanes).foldl (fun w l => w.profLimit e c l) u else u) t) s

/-- The loop island takes its parameters (R59, R265, R266, R288, R295, R301, R306, R534). `p` is the period from now on;
`commit` keeps what a COMMIT keeps. -/
def State.applyIsland (s : State) (t : ParTables) (p : Nat) (commit par : Bool) (samePer : Bool) : State :=
  let eddy := eddyPlaced t.eddy p
  let mem := if commit then eddyMoved s.isl.eddyCh eddy samePer s.isl.eddy else []
  let s1 := { s with isl := { s.isl with
    eddyCh := eddy, eddy := mem, profCh := t.prof, injAllow := t.injAllow != 0, injAmp := t.ampMax } }
  let s2 := (indexed 0 fpRegs).foldl (fun (u : State) (q : Nat × Nat) =>
    u.wr q.2 (fpWord q.2 (t.fp.getD q.1 (Reg.resetAt q.2)))) s1
  let s3 := s2.setField Reg.LE_MEAS_CFG 0 4 t.missHold
  let s4 := (if par then indexed 0 t.mcorr else []).foldl (fun (u : State) (q : Nat × BitVec 32) =>
    { u.wrPair (Reg.LE_MCORR q.1) q.2 with
      isl := { u.isl with corr := Sparse.put (fun _ => (fpOne, ~~~ fpOne)) u.isl.corr q.1 (q.2, ~~~ q.2) } }) s3
  if commit then s4.profLimits else s4

/-- An arm engine takes its parameters and its cell table. A parameter that changes, CDLY among them, restarts the band
(R220, R227, R235). -/
def State.applyAe (s : State) (n : Nat) (t : ParTables) : State :=
  if s.open (.ae n) then
    let q := (t.ae.getD n none).getD ({}, [])
    let a := s.ae n
    let cells := refitCells a.cells (s.topo n).devs (s.port n).absent q.2
    let a1 := { a with par := q.1, cells := cells, dMin := dMinOf cells, dMax := dMaxOf cells }
    let same := decide (a.par = q.1) && (indexed 0 a.cells).all fun (e : Nat × Cell) => (cellAt cells e.1).cdly == e.2.cdly
    s.setAe n (if same then a1 else a1.restart)
  else s

/-- The eight words of a cue entry (R325). -/
def Cue.words (c : Cue) : List (BitVec 32) :=
  let inp := fun (j : Nat) => match c.ins.getD j none with | some (p, i) => (if p then 0x8000 else 0) + i | none => 0xFFFF
  [c.start + 65536 * c.block + 16777216 * c.lanes, c.param + 65536 * c.state, inp 0 + 65536 * inp 1, inp 2 + 65536 * inp 3,
   inp 4 + 65536 * inp 5, c.dest + 65536 * c.xing.getD 0xFFFF, c.affect.toNat, 0].map (BitVec.ofNat 32)

/-- The cue memory that holds a list: every word with its complement (R327). -/
def cueMemOf (l : List Cue) : Sparse (BitVec 32 × BitVec 32) :=
  ((indexed 0 (l.map Cue.words).flatten).map fun (q : Nat × BitVec 32) => (q.1, q.2, ~~~ q.2)).filter fun q => q.2.1 != 0

/-- Each engine's cue memory takes the list in effect (R327, R342, R343). -/
def State.loadCues (s : State) : State :=
  if s.open (.le 0) then (List.range 4).foldl (fun t e => t.setLe e { t.le e with cueMem := cueMemOf (t.sec.cueList e) }) s
  else s

/-- The arm engines of a domain are loaded afresh (R342, R504, R543, R554). -/
def State.loadArms (s : State) (d : Nat) : State :=
  let t := s.sys.cfg.par
  (List.range 12).foldl (fun u n =>
    if (Blk.ae n).domain = d then
      ((u.setAe n { u.ae n with band := ((t.ae.getD n none).getD ({}, [])).1.bInit }).applyAe n t).aeCensus n
    else u) s

/-- The loop engines and the loop island are loaded afresh (R342, R504, R543, R554). -/
def State.loadLoops (s : State) : State :=
  let t := s.sys.cfg.par
  let s2 := (s.loadCues.applyLe t).applyIsland t (if s.tb.run then s.per else s.sec.p) false true false
  { s2 with isl := { s2.isl with scale := s2.sys.cfg.topo.scales } }

/-- The engines of a domain that has been switched on take the configuration in effect, once (R202, R342, R504, R543, R554).
DEDUCED: log entry 112. -/
def State.loadDomain (s : State) (d : Nat) : State :=
  if s.powered d && !s.sys.loaded.getLsbD d then
    let s1 := if d = 2 then s.loadLoops else s.loadArms d
    { s1 with sys := { s1.sys with loaded := s1.sys.loaded ||| ((1 : BitVec 14) <<< d) } }
  else s

/-- Every engine of a domain that has been switched on since it was last loaded takes the configuration in effect.
DEDUCED: log entry 112. -/
def State.loadEngines (s : State) : State := [2, 3, 4].foldl State.loadDomain s

/-- The fault table takes effect; sources keep their state, and the reaction follows their new classes (R378, R392, R394,
R533). `first`: at start-up, FLT_IRQ_EN takes its
initial bits too. -/
def State.applyFlt (s : State) (t : FltTable) (first : Bool) : State :=
  let s1 := (List.range 256).foldl (fun u n => u.reclass n (t.entries.getD n {})) s
  let word := fun (l : List Bool) (m : Nat) =>
    (List.range 32).foldl (fun w i => if l.getD (32 * m + i) false then w ||| bitIf true i else w) 0
  let s2 := (List.range 8).foldl (fun u m => u.wr (Reg.TWN_SURR_MASK m) (word t.surr m)) s1
  let s3 := if first then (List.range 8).foldl (fun u m => u.wr (Reg.FLT_IRQ_EN m) (word t.irqEn m)) s2 else s2
  let s4 := { s3 with flt := { s3.flt with table := true }, sys := { s3.sys with cfg := { s3.sys.cfg with flt := t } } }
  State.settle s s4 s.now

/-- An entry of the recorder setup is applied as a write to its register, reserved bits as zeros (R16, R17, R536). -/
def State.recWrite (s : State) (e : Nat × Word) : State :=
  match Blk.gst.row e.1 with
  | some r => if r.acc = .rw then s.wr (0x20050000 + e.1) (e.2 &&& r.wmask) else s
  | none => s

/-- The recorder setup is applied in list order (R536). -/
def State.applyRecs (s : State) (l : List (Nat × Word)) : State := l.foldl State.recWrite s

/-- A schedule section takes effect (R343, SCH_ID, SCH_SLACK_WARN). -/
def State.applySch (s : State) (c : SchSection) : State :=
  State.loadCues (({ s with sch := { s.sch with cur := some c, bank := if s.sch.cur.isSome then !s.sch.bank else s.sch.bank } }.wr
    Reg.SCH_ID c.id).wr Reg.SCH_SLACK_WARN (BitVec.ofNat 32 c.slackWarn))

/-- The network setup takes effect: LATE_WIN shows, and the status schedule starts from STAT_T0 (R621, R623, R624). -/
def State.applyNet (s : State) (n : NetSetup) : State :=
  let s1 := { s with sys := { s.sys with cfg := { s.sys.cfg with net := n } } }
  if s1.open .net then
    let s2 := (s1.wr (Reg.NET_LATE_WIN 0) (BitVec.ofNat 32 (bytesAt n.bytes 0x54 2))).wr (Reg.NET_LATE_WIN 1)
      (BitVec.ofNat 32 (bytesAt n.bytes 0x56 2))
    { s2 with net := { s2.net with statNext := BitVec.ofNat 32 (bytesAt n.bytes 0x40 4) } }
  else s1

/-- The safety parameter block is at hand for the transfers to both channels (R715). -/
def State.applySafety (s : State) (b : List Byte) : State := { s with sys := { s.sys with cfg := { s.sys.cfg with safety := b } } }

/-- The boot ROM copies the firmware and starts SC0 (R537, R634). -/
def State.bootFirmware (s : State) (f : Nat × Nat × List Byte) : State :=
  let s1 := s.ramWrite f.1 f.2.2
  { s1 with dsp := { s1.dsp with
    started := s1.dsp.started ||| 1, startPc := Sparse.put (fun _ => 0) s1.dsp.startPc 0 (BitVec.ofNat 64 f.2.1) } }

/-- The engines' domains that the image uses are switched on and loaded (R502, R506, R554, R578). -/
def State.enginesOn (s : State) : State :=
  ([2, 3, 4].foldl (fun t d =>
    if t.sys.cfg.dev.pdUse.getLsbD d then
      let u := t.domainOn d
      { u with sys := { u.sys with rail := u.sys.rail ||| ((1 : BitVec 14) <<< d) } }
    else t) s).loadEngines

end Sys2Proof.Machine
end

