-- ==== Sys2Proof/Machine/Ckpt.lean ====
section
/-! DEFINITION. Checkpoints and LIVE transfers: their bytes, their checks, and what a restore writes
(R483 to R487, R504, R506, R508, R510). The layout inside an arm's 48 bytes and a cell's 8 bytes is the model's. -/

namespace Sys2Proof.Machine

/-- The 64 bytes of a header, and what follows it (R485). -/
def ckptBytes (pcC : BitVec 32) (epoch : BitVec 16) (vtC : BitVec 64) (p part flags fastLen : Nat) (schId : BitVec 32)
    (rest : List Byte) : List Byte :=
  let h := natBytes 4 pcC.toNat ++ natBytes 2 epoch.toNat ++ natBytes 2 (~~~ epoch).toNat ++ natBytes 8 vtC.toNat ++
    natBytes 2 p ++ natBytes 1 part ++ natBytes 1 flags ++ natBytes 4 fastLen ++ natBytes 4 schId.toNat ++ natBytes 32 0
  h ++ wordBytes (crc32c (h ++ rest)) ++ rest

/-- A paired word in bytes. -/
def pairBytes (v c : BitVec 32) : List Byte := wordBytes v ++ wordBytes c

/-- The state slots of engine `e` that the section declares, in slot order (R485). -/
def State.stateSlots (s : State) (e : Nat) : List Nat :=
  let x := s.le e
  let t : Sparse Unit := (s.sec.cueList e).foldl (fun m c =>
    match blkShape c.block with
    | some sh => (List.range c.lanes).foldl (fun m l =>
        let par := (List.range sh.nPar).map fun j => (x.param (c.param + 16 * j + l)).1
        (List.range (stWords c.block sh par)).foldl (fun m j =>
          Sparse.place (Sparse.drop m (c.state + 16 * j + l)) (c.state + 16 * j + l) ()) m) m
    | none => m) []
  t.map (·.1)

/-- Every declared state slot, engine by engine. -/
def State.allSlots (s : State) : List (Nat × Nat) :=
  ((List.range 4).map fun e => (s.stateSlots e).map fun i => (e, i)).flatten

/-- The 48 bytes of an arm and the 8 bytes of a cell (R485). -/
def Ae.ckpt (a : Ae) : List Byte :=
  natBytes 4 a.band ++ natBytes 4 a.changes ++ natBytes 4 a.winCount ++ natBytes 4 (if a.charging then 1 else 0) ++
  natBytes 32 0 ++ (a.cells.map fun c =>
    natBytes 2 c.v.toNat ++ natBytes 1 c.age ++ natBytes 1 c.out ++ natBytes 1 c.prev.toNat ++
    natBytes 1 (if c.hot then 1 else 0) ++ natBytes 1 c.dwell ++ natBytes 1 0).flatten

/-- The bytes from the end of the header to the start of the Eddy part (R485). DEDUCED: log entry 65. -/
def State.fastBytes (s : State) : List Byte :=
  let ords := ((List.range 32).map fun i =>
    let v := Sparse.get (fun _ => ((0 : BitVec 32), (0xFFFFFFFF : BitVec 32))) s.isl.ord i
    pairBytes v.1 v.2).flatten
  let sts := (s.allSlots.map fun q => let x := (s.le q.1).slot q.2; pairBytes x.v x.c).flatten
  ords ++ sts ++ (s.portsUsed.map fun n => (s.ae n).ckpt).flatten

/-- An Eddy part (R485). -/
def State.eddyBytes (s : State) (part : Nat) : List Byte :=
  ((List.range 32768).map fun i =>
    let v := Sparse.get (fun _ => ((0 : BitVec 32), (0xFFFFFFFF : BitVec 32))) s.isl.eddy (32768 * part + i)
    pairBytes v.1 v.2).flatten

/-- FLAGS of a header (R485). -/
def State.ckptFlags (s : State) : Nat := (if s.flt.latch then 1 else 0) + 2 * s.reaction

/-- Does a transfer pass its CRC and its EPOCH pair? (R485, R487) -/
def ckptValid (b : List Byte) : Bool :=
  decide (64 ≤ b.length) && decide (bytesAt b 0x3C 4 = (crc32c (b.take 0x3C ++ b.drop 64)).toNat) &&
  pairOk (BitVec.ofNat 16 (bytesAt b 4 2)) (BitVec.ofNat 16 (bytesAt b 6 2))

/-- FAST_LEN and PART of a header. -/
def ckptFastLen (b : List Byte) : Nat := bytesAt b 0x14 4
def ckptPart (b : List Byte) : Nat := bytesAt b 0x12 1

/-- A paired word from bytes. -/
def pairAt (b : List Byte) (off : Nat) : BitVec 32 × BitVec 32 :=
  (BitVec.ofNat 32 (bytesAt b off 4), BitVec.ofNat 32 (bytesAt b (off + 4) 4))

/-- Words written to state slots from a byte string. -/
def State.writeSlots (s : State) (l : List (Nat × Nat)) (b : List Byte) (off : Nat) : State :=
  (indexed 0 l).foldl (fun t (q : Nat × Nat × Nat) =>
    let v := pairAt b (off + 8 * q.1)
    let x := t.le q.2.1
    t.setLe q.2.1 (x.setSlot q.2.2 { x.slot q.2.2 with v := v.1, c := v.2 })) s

/-- A cell from a checkpoint. `tracked`: V, AGE, HOT, PREV and DWELL are the engine's own (R506). -/
def Cell.fromCkpt (c : Cell) (b : List Byte) (off : Nat) (tracked : Bool) : Cell :=
  let c1 := { c with out := bytesAt b (off + 3) 1 }
  if tracked then c1
  else { c1 with v := BitVec.ofNat 16 (bytesAt b off 2), vC := ~~~ BitVec.ofNat 16 (bytesAt b off 2)
                 age := bytesAt b (off + 2) 1
                 prev := BitVec.ofNat 2 (bytesAt b (off + 4) 1), hot := bytesAt b (off + 5) 1 != 0
                 dwell := bytesAt b (off + 6) 1 }

/-- An arm engine from a checkpoint. -/
def Ae.fromCkpt (a : Ae) (b : List Byte) (off : Nat) (tracked : Bool) : Ae :=
  { a with
    band := bytesAt b off 4, changes := bytesAt b (off + 4) 4, winCount := bytesAt b (off + 8) 4
    charging := bytesAt b (off + 12) 4 != 0
    cells := (indexed 0 a.cells).map fun (q : Nat × Cell) => q.2.fromCkpt b (off + 48 + 8 * q.1) tracked }

/-- The arm engines of the ports in use from a checkpoint. -/
def State.armsFromCkpt (s : State) (b : List Byte) (off : Nat) (tracked : Bool) : State :=
  (s.portsUsed.foldl (fun (m : State × Nat) n =>
    let a := m.1.ae n
    (m.1.setAe n (a.fromCkpt b m.2 tracked), m.2 + 48 + 8 * a.cells.length)) (s, off)).1

/-- The Eddy memory from the parts received (R487, R504). -/
def eddyFrom (parts : Sparse (List Byte)) : Sparse (BitVec 32 × BitVec 32) :=
  parts.foldl (fun m e =>
    (List.range 32768).foldl (fun m i =>
      Sparse.put (fun _ => (0, 0xFFFFFFFF)) m (32768 * e.1 + i) (pairAt e.2 (8 * i))) m) []

/-- The held checkpoint is written over the engines' fast state (R504, R506). -/
def State.restoreFrom (s : State) (b : List Byte) (tracked : Bool) : State :=
  let ord := (List.range 32).foldl (fun m i => Sparse.put (fun _ => (0, 0xFFFFFFFF)) m i (pairAt b (64 + 8 * i))) []
  let s1 := { s with isl := { s.isl with ord := ord, eddy := eddyFrom s.twn.parts } }
  let sl := s1.allSlots
  (s1.writeSlots sl b 320).armsFromCkpt b (320 + 8 * sl.length) tracked

/-- The held checkpoint, when it can be restored under the section in effect (R560). -/
def State.restorable (s : State) : Option (List Byte) :=
  match s.twn.held with
  | some b => if bytesAt b 0x18 4 = s.sec.id.toNat then some b else none
  | none => none

/-- The frame for a period as it has been sent or will be (R508). -/
def State.endsFor (s : State) (n : Nat) (pc : BitVec 32) : List (BitVec 2) :=
  let x := s.port n
  match x.sent.find? fun f => f.pc == pc && !f.cut with
  | some f => f.ends
  | none => match x.plan with
    | .send _ cs => endStates cs
    | .none => (s.ae n).cells.map (·.prev)

/-- STATE values four to a byte, most significant first (R508). -/
def packStates (l : List (BitVec 2)) : List Byte :=
  (List.range ((l.length + 3) / 4)).map fun i =>
    BitVec.ofNat 8 ((l.getD (4 * i) 0).toNat * 64 + (l.getD (4 * i + 1) 0).toNat * 16 + (l.getD (4 * i + 2) 0).toNat * 4 +
      (l.getD (4 * i + 3) 0).toNat)

/-- The LIVE transfer captured at b(h − 1) + E_START (R508). -/
def State.liveBytes (s : State) (h : BitVec 32) : List Byte :=
  let words := (s.sys.cfg.par.live.map fun q => let x := (s.le q.1).slot q.2; pairBytes x.v x.c).flatten
  let states := (s.portsUsed.map fun n => packStates (s.endsFor n h)).flatten
  let rest := words ++ states
  ckptBytes (h - 1) s.epoch s.tb.bound s.per 0xFF s.ckptFlags rest.length s.sec.id rest

/-- PREV of an arm's cells from packed STATE values (R234, R510). -/
def Ae.livePrev (a : Ae) (b : List Byte) (off : Nat) : Ae :=
  a.follow fun i => some (BitVec.ofNat 2 (bytesAt b (off + i / 4) 1 / 4 ^ (3 - i % 4)))

/-- The live words and the STATE values are written (R510). -/
def State.writeLive (s : State) (b : List Byte) : State :=
  let live := s.sys.cfg.par.live
  let s1 := s.writeSlots live b 64
  (s1.portsUsed.foldl (fun (m : State × Nat) n =>
    let a := m.1.ae n
    (m.1.setAe n (a.livePrev b m.2), m.2 + (a.cells.length + 3) / 4)) (s1, 64 + 8 * live.length)).1

end Sys2Proof.Machine
end

