-- ==== Sys2Proof/Machine/SchCheck.lean ====
section
/-! DEFINITION. The schedule section of an image: its bytes, and the checks it passes before it runs
(R318 to R341, R862 to R864). -/

namespace Sys2Proof.Machine

/-- A refusal of R339: its code, the table and the entry in it (SCH_LOAD_RES). -/
structure SchErr where
  code : Nat
  tab : Nat := 0
  idx : Nat := 0
  deriving DecidableEq, Repr

/-- What a schedule is checked against: the other sections of the image or of the merged set. -/
structure SchEnv where
  dev : DevPar
  topo : Topo
  par : ParTables
  flt : FltTable
  deriving DecidableEq, Repr

/-- The first entry of a list that fails. -/
def firstBad {α : Type} (l : List α) (ok : Nat → α → Bool) : Option Nat :=
  ((indexed 0 l).find? fun (e : Nat × α) => !ok e.1 e.2).map (·.1)

/-- A check over a table. -/
def overTable {α : Type} (code tab : Nat) (l : List α) (ok : Nat → α → Bool) : Option SchErr :=
  (firstBad l ok).map fun i => { code := code, tab := tab, idx := i }

/-- A check that has one verdict. -/
def needs (ok : Bool) (code tab idx : Nat) : Option SchErr :=
  if ok then none else some { code := code, tab := tab, idx := idx }

/-- The first check that fails. -/
def firstErr (l : List (Option SchErr)) : Option SchErr := l.findSome? id

/-- Every byte of a field is 0. -/
def zeroAt (b : List Byte) (off n : Nat) : Bool := ((b.drop off).take n).all (· == 0)

/-- The bytes of entry `i` of a table. -/
def entryAt (b : List Byte) (ofs size i : Nat) : List Byte := (b.drop (ofs + size * i)).take size

/-- The entries of a table. -/
def entriesOf (b : List Byte) (ofs size n : Nat) : List (List Byte) := (List.range n).map (entryAt b ofs size)

/-- The counts and offsets of a schedule header (R321). -/
def schXings (b : List Byte) : Nat := bytesAt b 0x14 2
def schCues (b : List Byte) (e : Nat) : Nat := bytesAt b (0x18 + 2 * e) 2
def schMask (b : List Byte) : Nat := bytesAt b 0x0E 2
def schPortTab (b : List Byte) : List (List Byte) := entriesOf b (bytesAt b 0x20 4) 16 12
def schAeTab (b : List Byte) : List (List Byte) := entriesOf b (bytesAt b 0x24 4) 8 12
def schXingTab (b : List Byte) : List (List Byte) := entriesOf b (bytesAt b 0x28 4) 12 (schXings b)
def schCueTab (b : List Byte) (e : Nat) : List (List Byte) := entriesOf b (bytesAt b (0x2C + 4 * e) 4) 32 (schCues b e)

/-- A table lies inside the section. -/
def fits (b : List Byte) (ofs size n : Nat) : Bool := decide (ofs + size * n ≤ b.length)

/-- A 2-byte field with its upper bits reserved; 0xFFFF stands for "none" where it may. -/
def slotField (b : List Byte) (off bits : Nat) (none : Bool) : Bool :=
  decide (bytesAt b off 2 < 2 ^ bits) || (none && bytesAt b off 2 == 0xFFFF)

/-- Reserved fields of a cue entry (R325). -/
def cueReserved (c : List Byte) : Bool :=
  decide (bytesAt c 3 1 < 32) && slotField c 4 13 false && slotField c 6 13 false &&
  ((List.range 6).all fun j => bytesAt c (8 + 2 * j) 2 == 0xFFFF || fieldOf (BitVec.ofNat 16 (bytesAt c (8 + 2 * j) 2)) 13 2 == 0) &&
  slotField c 0x14 13 false && slotField c 0x16 10 true && slotField c 0x18 12 false && zeroAt c 0x1A 6

/-- Check 1: magic, version, tables inside the section, counts, reserved fields (R321 to R325). -/
def schForm (b : List Byte) : Option SchErr :=
  let mask := BitVec.ofNat 12 (schMask b)
  let head := decide (64 ≤ b.length) && b.take 4 == [0x53, 0x43, 0x48, 0x44] && bytesAt b 4 2 == 1 && zeroAt b 6 2 &&
    decide (schMask b < 4096) && decide (1 ≤ schXings b ∧ schXings b ≤ 1024) && zeroAt b 0x17 1 && zeroAt b 0x3C 4 &&
    ((List.range 4).all fun e => decide (schCues b e ≤ 2048)) &&
    fits b (bytesAt b 0x20 4) 16 12 && fits b (bytesAt b 0x24 4) 8 12 && fits b (bytesAt b 0x28 4) 12 (schXings b) &&
    ((List.range 4).all fun e => fits b (bytesAt b (0x2C + 4 * e) 4) 32 (schCues b e))
  firstErr ([needs head 1 0 0,
    overTable 1 1 (schPortTab b) (fun n x => zeroAt x 9 1 && zeroAt x 12 4 && (mask.getLsbD n || zeroAt x 0 16)),
    overTable 1 2 (schAeTab b) (fun n x => zeroAt x 6 2 && (mask.getLsbD n || zeroAt x 0 8)),
    overTable 1 3 (schXingTab b) (fun _ x => zeroAt x 10 2 && slotField x 4 13 false)] ++
    (List.range 4).map fun e => overTable 1 (4 + e) (schCueTab b e) fun _ x => cueReserved x)

/-- A port table entry (R322). -/
def portOf (x : List Byte) : SchPort :=
  { u := bytesAt x 0 2, eEnd := bytesAt x 2 2, m := bytesAt x 4 2, ncell := bytesAt x 6 2, nnode := bytesAt x 8 1
    tDecl := bytesAt x 10 2 }

/-- An arm-engine table entry (R323). -/
def stagesOf (x : List Byte) : SchAe := { rankAt := bytesAt x 0 2, selectAt := bytesAt x 2 2, placeAt := bytesAt x 4 2 }

/-- A crossing entry (R324). -/
def xingOf (x : List Byte) : Xing :=
  { src := bytesAt x 0 1, dst := bytesAt x 1 1, ep := bytesAt x 2 1, decl := bytesAt x 3 1, dstBase := bytesAt x 4 2
    words := bytesAt x 6 2, kind := bytesAt x 8 2 }

/-- A cue entry (R325). -/
def readCue (x : List Byte) : Cue :=
  { start := bytesAt x 0 2, block := bytesAt x 2 1, lanes := bytesAt x 3 1, param := bytesAt x 4 2, state := bytesAt x 6 2
    ins := (List.range 6).map fun j =>
      let v := bytesAt x (8 + 2 * j) 2
      if v = 0xFFFF then none else some (decide (0x8000 ≤ v), v % 0x2000)
    dest := bytesAt x 0x14 2
    xing := if bytesAt x 0x16 2 = 0xFFFF then none else some (bytesAt x 0x16 2)
    affect := BitVec.ofNat 12 (bytesAt x 0x18 2) }

/-- The section that the bytes spell (R321 to R325). -/
def schOf (b : List Byte) : SchSection :=
  { p := bytesAt b 8 2, iEnd := bytesAt b 0x0A 2, eStart := bytesAt b 0x0C 2, mask := BitVec.ofNat 12 (schMask b)
    id := BitVec.ofNat 32 (bytesAt b 0x10 4), slackWarn := bytesAt b 0x16 1
    ports := (schPortTab b).map portOf, aes := (schAeTab b).map stagesOf, xings := (schXingTab b).map xingOf
    cues := (List.range 4).map fun e => (schCueTab b e).map readCue }

/-- The ports of a section. -/
def SchSection.used (c : SchSection) : List Nat := (List.range 12).filter fun n => c.mask.getLsbD n

/-- A check over the ports in use, in a table indexed by port. -/
def overPorts (code tab : Nat) (c : SchSection) (ok : Nat → Bool) : Option SchErr :=
  (c.used.find? fun n => !ok n).map fun n => { code := code, tab := tab, idx := n }

/-- Check 2: P and the floor of R185 (R5, R185). -/
def schPeriod (c : SchSection) : Option SchErr :=
  let big := c.used.any fun n => decide (800 < (c.port n).ncell)
  needs (decide (400 ≤ c.p ∧ c.p ≤ 4000) && (!big || decide (500 ≤ c.p))) 2 0 0

/-- Check 3: the ports agree with the topology. -/
def schTopo (c : SchSection) (t : Topo) : Option SchErr :=
  firstErr [needs (c.mask == t.mask) 3 0 0,
    overPorts 3 1 c fun n => (c.port n).ncell == (t.port n).ncell && (c.port n).nnode == (t.port n).nnode]

/-- Check 4: the phase parameters (R33). -/
def schPhases (c : SchSection) : Option SchErr :=
  firstErr [needs (decide (4 ≤ c.iEnd ∧ c.iEnd + 100 ≤ c.p ∧ c.iEnd ≤ c.eStart)) 4 0 0,
    overPorts 4 1 c fun n =>
      let x := c.port n
      decide (c.eStart ≤ x.eEnd ∧ x.eEnd + x.m ≤ c.p ∧ 20 ≤ x.m ∧ x.tDecl + 20 ≤ x.m ∧ x.m + c.eStart ≤ c.p ∧ x.u < 2 * c.p)]

/-- The position of b(k) on the block grid: b(0) + E_START falls on a block boundary (R128). -/
def gridAt (c : SchSection) (k : Nat) : Nat := (4 - c.eStart % 4) % 4 + k * c.p

/-- Blocks of a frame with an extended entry (R138). -/
def bDown (ncell : Nat) : Nat := (128 + 32 * ncell + 64 + 459) / 460

/-- Check 5: the link carries the reports and the frames (R186). -/
def schLink (c : SchSection) : Option SchErr :=
  overPorts 5 1 c fun n =>
    let x := c.port n
    let up := bUp x.nnode x.ncell
    decide (up + 2 ≤ c.p / 4) && decide (4 * bDown x.ncell + (if c.p % 4 = 0 then 0 else 3) ≤ x.eEnd - c.eStart) &&
    (List.range 4).all fun k => streamFits (gridAt c k) x.u c.iEnd x.tDecl 0 up

/-- Island kinds by code: loop engine, arm engine, port (R319). -/
def isLe (c : Nat) : Bool := decide (0x20 ≤ c ∧ c ≤ 0x23)
def isAe (c : Nat) : Bool := decide (0x10 ≤ c ∧ c ≤ 0x1B)
def isPort (c : Nat) : Bool := decide (0x30 ≤ c ∧ c ≤ 0x3B)

/-- SRC and DST match KIND (R324). -/
def Xing.kindOk (x : Xing) : Bool :=
  match x.kind with
  | 0 => isLe x.src && isLe x.dst
  | 1 => isLe x.src && isAe x.dst
  | 2 => isLe x.src && isPort x.dst
  | 3 => isAe x.src && isLe x.dst
  | 4 => isPort x.src && isLe x.dst
  | 5 => isLe x.src && x.dst == 0x02
  | 6 => isAe x.src && isPort x.dst
  | 7 => isPort x.src && isAe x.dst
  | _ => false

/-- A parameter word as an image carries it. -/
def ParTables.word (t : ParTables) (e i : Nat) : BitVec 32 × BitVec 32 := (t.le.getD e []).getD i (0, 0xFFFFFFFF)

/-- The LVLOUT lanes: engine, cue, lane and arm (R862). -/
def lvlLanes (c : SchSection) (t : ParTables) : List (Nat × Nat × Nat × Nat) :=
  ((List.range 4).map fun e => ((indexed 0 (c.cueList e)).map fun (q : Nat × Cue) =>
    if q.2.block = 0x28 then
      (List.range q.2.lanes).map fun l => (e, q.1, l, fpNat (t.word e (q.2.param + l)).1)
    else []).flatten).flatten

/-- Indices of the crossings of a kind into an island. -/
def xingsInto (c : SchSection) (kind dst : Nat) : List Nat :=
  (indexed 0 c.xings).filterMap fun (q : Nat × Xing) => if q.2.kind = kind ∧ q.2.dst = dst then some q.1 else none

/-- R864 for an arm: one crossing of each kind, from the engine of its LVLOUT lane. -/
def lvlXings (c : SchSection) (t : ParTables) (n : Nat) : Bool :=
  match xingsInto c 1 (aeCode n), xingsInto c 2 (portCode n) with
  | [i], [j] =>
    let lanes := (lvlLanes c t).filter fun q => q.2.2.2 == n
    lanes.all fun q => (c.xings.getD i {}).src == leCode q.1 && (c.xings.getD j {}).src == leCode q.1
  | _, _ => false

/-- Check 6: the crossing entries (R67, R319, R320, R324, R864). -/
def schCrossings (c : SchSection) (v : SchEnv) : Option SchErr :=
  let dup := fun (i : Nat) (x : Xing) => x.ep != 30 && ((c.xings.take i).any fun y => y.dst == x.dst && y.ep == x.ep)
  firstErr [overTable 6 3 c.xings fun i x =>
      x.kindOk && (if x.kind = 5 then x.ep == 30 else decide (x.ep ≤ 27)) && !dup i x &&
      decide (x.bound ≤ x.decl ∧ x.decl ≤ 64) && decide (1 ≤ x.words ∧ x.words ≤ 4096) && (x.kind == 0 || x.dstBase == 0) &&
      v.dev.pdUse.getLsbD (islandDomain (codeIsland x.dst)),
    (c.used.find? fun n => !lvlXings c v.par n).map fun n =>
      { code := 6, tab := 3, idx := ((xingsInto c 1 (aeCode n) ++ xingsInto c 2 (portCode n)).headD 0) }]

/-- Words of a lane's states (R862). -/
def laneStates (t : ParTables) (e : Nat) (c : Cue) (sh : BlkShape) (l : Nat) : Nat :=
  stWords c.block sh ((List.range sh.nPar).map fun j => (t.word e (c.param + 16 * j + l)).1)

/-- Everything a cue reaches lies below 8,192 (R326, R862), in the engine that a KIND 0 crossing of it ends in as well
(R324). -/
def cueReach (s : SchSection) (t : ParTables) (e : Nat) (c : Cue) (sh : BlkShape) : Bool :=
  let top := fun (base n : Nat) => n == 0 || decide (base + 16 * (n - 1) + c.lanes ≤ 8192)
  (c.ins.all fun i => match i with | some q => decide (q.2 + c.lanes ≤ 8192) | none => true) &&
  (match c.xing with
    | some k => (s.xings.getD k {}).kind != 0 || top (s.xings.getD k {}).dstBase sh.nOut
    | none => true) && top c.dest sh.nOut && top c.param sh.nPar && (List.range c.lanes).all fun l => top c.state (laneStates t e c sh l)

/-- A cue entry is well formed (R325, R864). -/
def cueOk (s : SchSection) (t : ParTables) (e : Nat) (c : Cue) : Bool :=
  match blkShape c.block with
  | none => false
  | some sh =>
    decide (1 ≤ c.lanes ∧ c.lanes ≤ 16) && decide (c.start < s.p) && cueReach s t e c sh && (sh.nSt != 0 || c.state == 0) &&
    ((c.ins.take sh.nIn).all (·.isSome)) && ((c.ins.drop sh.nIn).all (·.isNone)) &&
    match c.xing with
    | none => true
    | some k => c.block != 0x28 && decide (k < s.xings.length) && (s.xings.getD k {}).src == leCode e

/-- Check 7: the cue lists. -/
def schCueForm (c : SchSection) (t : ParTables) : Option SchErr :=
  firstErr ((List.range 4).map fun e => overTable 7 (4 + e) (c.cueList e) fun i q =>
    cueOk c t e q && (i == 0 || decide (((c.cueList e).getD (i - 1) {}).start ≤ q.start)))

/-- A value within a closed range of real numbers. -/
def fpIn (x lo hi : BitVec 32) : Bool := !fpSpecial x && fpLe lo x && fpLe x hi

/-- An Eddy channel in use keeps its ranges (R295, R296). -/
def eddyOk (c : EddyCh) (p : Nat) : Bool :=
  let nb := eddyLen c.fNom p
  fpIn c.fNom 0x3F800000 0x43C80000 && fpIn c.g 0 0x3F800000 && fpIn c.rho 0x3F666666 0x3F800000 && decide (c.lead ≤ 1024) &&
  !fpSpecial c.yLim && fpLt 0 c.yLim && fpIn c.fTol 0x3BA3D70A 0x3DCCCCCD && decide (64 ≤ nb ∧ nb ≤ 32768)

/-- The Eddy channels keep R295 and R296. -/
def eddiesOk (l : List EddyCh) (p : Nat) : Bool :=
  let used := l.filter fun c => c.fNom != 0
  used.all (fun c => eddyOk c p) && decide ((used.map fun c => eddyLen c.fNom p).foldl (· + ·) 0 ≤ 262144)

/-- A profile channel keeps R301. -/
def profOk (c : ProfCh) : Bool :=
  [c.vMax, c.aMax, c.jMax].all (fun x => !fpSpecial x && fpLt 0 x) && !fpSpecial c.eps && fpLe 0 c.eps

/-- The parameter tables of the loop island keep their ranges (R258, R266, R301). -/
def islandOk (t : ParTables) : Bool :=
  (t.mcorr.all fun x => fpIn x 0x3F7AE148 0x3F828F5C) && t.prof.all profOk &&
  (t.ampMax.all fun x => !fpSpecial x) && (((t.fp.drop 1).take 16).all fun x => !fpSpecial x) && (t.fp.drop 17).all fun x => decide (x.toNat < 192)

/-- Some comparator of the fast protection is enabled (LE_FP_CFG). -/
def fpEnabled (t : ParTables) : Bool := decide (0 < fieldOf (t.fp.getD 0 0x20) 8 4) || decide (0 < fieldOf (t.fp.getD 0 0x20) 16 12)

/-- A source's base class is block or trip. -/
def FltTable.high (t : FltTable) (n : Nat) : Bool := decide (2 ≤ (t.entries.getD n {}).base.toNat)

/-- A cue's parameters keep the ranges of R275 and R863 in every lane. -/
def cueParOk (t : ParTables) (e : Nat) (c : Cue) : Bool :=
  match blkShape c.block with
  | none => false
  | some sh => (List.range c.lanes).all fun l =>
    parOk c.block ((List.range sh.nPar).map fun j => (t.word e (c.param + 16 * j + l)).1)

/-- Check 8: block parameters, Eddy channels, fast-protection sources and FS45 (R258, R293, R296). -/
def schParams (c : SchSection) (v : SchEnv) : Option SchErr :=
  firstErr ((List.range 4).map (fun e => overTable 8 (4 + e) (c.cueList e) fun _ q => cueParOk v.par e q) ++
    [needs (eddiesOk v.par.eddy c.p && islandOk v.par) 8 0 0,
     needs (!fpEnabled v.par || (((List.range 14).all fun i => v.flt.high (176 + i)) && decide (c.iEnd + 9 ≤ c.eStart))) 8 0 0,
     needs (v.flt.high 45) 8 0 0])

/-- Latency of a cue's block. -/
def Cue.lat (c : Cue) : Nat := match blkShape c.block with | some sh => sh.lat | none => 0
def Cue.io (c : Cue) : Bool := match blkShape c.block with | some sh => sh.io | none => false
def Cue.outs (c : Cue) : Nat := match blkShape c.block with | some sh => sh.nOut | none => 0
def Cue.nIn (c : Cue) : Nat := match blkShape c.block with | some sh => sh.nIn | none => 0

/-- Two cues do not overlap in time. -/
def apart (a b : Cue) : Bool := decide (a.start + a.lat ≤ b.start) || decide (b.start + b.lat ≤ a.start)

/-- Check 9 for one cue against those before it: datapath, I/O port and Eddy memory (R338). -/
def cueFree (c : SchSection) (e i : Nat) (q : Cue) : Bool :=
  let before := (c.cueList e).take i
  let eddies := q.block != 0x29 || ((List.range e).all fun f => (c.cueList f).all fun x => x.block != 0x29 || apart x q)
  eddies &&
  if q.io then decide ((before.filter fun x => x.io && x.start == q.start).length < 2)
  else before.all fun x => x.io || apart x q

/-- Check 9: resources (R338). The order of the stages is check 11's. -/
def schResources (c : SchSection) : Option SchErr :=
  firstErr ((List.range 4).map (fun e => overTable 9 (4 + e) (c.cueList e) fun i q => cueFree c e i q) ++
    [overPorts 9 2 c fun n => decide ((c.ae n).rankAt ≤ (c.ae n).selectAt ∧ (c.ae n).selectAt ≤ (c.ae n).placeAt)])

/-- The declared presences of what writes slot `i` of engine `e` in a period: local cues and KIND 0 transfers
(R329, R331). -/
def writers (c : SchSection) (e i : Nat) : List Nat :=
  ((List.range 4).map fun f => (c.cueList f).filterMap fun q =>
    if f = e ∧ rowsHit q.dest q.outs q.lanes i then some (q.start + q.lat)
    else match q.xing with
      | some k =>
        let x := c.xings.getD k {}
        if x.kind = 0 ∧ x.dst = leCode e ∧ rowsHit x.dstBase q.outs q.lanes i then some (q.start + q.lat + x.decl) else none
      | none => none).flatten

/-- R332 and R333 for the input slot `i` of a cue that starts at `start`. -/
def inputOk (c : SchSection) (e start : Nat) (prev : Bool) (i : Nat) : Bool :=
  let w := writers c e i
  if prev then w.all fun t => decide (start < t) else !w.isEmpty && w.all fun t => decide (t ≤ start)

/-- The declared presence of a port's node entries in an engine, in ticks from b(k) (R336): the latest over the
positions of the block grid. None where the port has no such node or no crossing. -/
def nodesAt (c : SchSection) (a node e : Nat) : Option Int :=
  let x := c.port a
  match (c.xings.find? fun y => y.kind == 4 && y.src == portCode a && y.dst == leCode e) with
  | some y =>
    if c.mask.getLsbD a ∧ node < x.nnode then
      let rel : Int := (x.tDecl : Int) - x.u
      let ends := (List.range 4).map fun k =>
        let g : Int := gridAt c k
        rel + (-(g + rel)) % 4
      let first := ends.foldl max rel
      some (first + 4 * (((64 * x.nnode + 459) / 460 : Nat) : Int) + 1 + y.decl)
    else none
  | none => none

/-- R336 for a MEASIN cue. -/
def measOk (c : SchSection) (t : ParTables) (e : Nat) (q : Cue) : Bool :=
  q.block != 0x24 || (List.range q.lanes).all fun l =>
    let ch := fpNat (t.word e (q.param + l)).1
    match nodesAt c (ch / 16) (ch % 16 / 4) e with
    | some v => decide (v ≤ q.start)
    | none => false

/-- Check 10: presence of every input (R332, R333, R336). -/
def schPresence (c : SchSection) (t : ParTables) : Option SchErr :=
  firstErr ((List.range 4).map fun e => overTable 10 (4 + e) (c.cueList e) fun _ q =>
    measOk c t e q && (q.ins.take q.nIn).all fun i =>
      match i with
      | some (prev, b) => (List.range q.lanes).all fun l => inputOk c e q.start prev (b + l)
      | none => false)

/-- Presence of λ at the end of a crossing of an arm: its LVLOUT lane's start, the latency and the crossing's DECL. -/
def lamAt (c : SchSection) (t : ParTables) (kind dst n : Nat) : Option Nat :=
  match (lvlLanes c t).find? fun q => q.2.2.2 == n with
  | some q =>
    match xingsInto c kind dst with
    | k :: _ => some (((c.cueList q.1).getD q.2.1 {}).start + 5 + (c.xings.getD k {}).decl)
    | [] => none
  | none => none

/-- R334 and R335 for an arm; one without an LVLOUT lane is check 12's. -/
def armOk (c : SchSection) (t : ParTables) (n : Nat) : Bool :=
  let a := c.ae n
  let k := ((c.port n).ncell + 15) / 16
  decide (c.iEnd ≤ a.rankAt ∧ a.rankAt + 12 + k ≤ a.selectAt ∧ a.selectAt + 24 ≤ a.placeAt) &&
  (match (xingsInto c 6 (portCode n)).filter fun i => (c.xings.getD i {}).src == aeCode n with
    | i :: _ => decide (a.placeAt + 8 + k + (c.xings.getD i {}).decl + 8 ≤ c.eStart)
    | [] => false) &&
  (match lamAt c t 1 (aeCode n) n with | some v => decide (v ≤ a.selectAt) | none => true) &&
  (match lamAt c t 2 (portCode n) n with | some v => decide (v + 8 ≤ c.eStart) | none => true)

/-- Check 11: the arms (R334, R335). -/
def schArms (c : SchSection) (t : ParTables) : Option SchErr := overPorts 11 2 c (armOk c t)

/-- The longest crossing that a cue sends over (R331, R337, R864). -/
def cueDecl (c : SchSection) (t : ParTables) (e i : Nat) (q : Cue) : Nat :=
  let own := match q.xing with | some k => (c.xings.getD k {}).decl | none => 0
  ((lvlLanes c t).filter fun l => l.1 == e && l.2.1 == i).foldl (fun m l =>
    (xingsInto c 1 (aeCode l.2.2.2) ++ xingsInto c 2 (portCode l.2.2.2)).foldl (fun m k => max m (c.xings.getD k {}).decl) m) own

/-- A slot with the arms whose LVLOUT lane depends on it: engine, slot. -/
abbrev SlotRef := Nat × Nat

/-- The input slots of a lane, of this period or the one before (R332, R333). -/
def laneReads (e : Nat) (q : Cue) (l : Nat) : List SlotRef :=
  (q.ins.take q.nIn).filterMap fun i => match i with | some (_, b) => some (e, b + l) | none => none

/-- Does lane `l` of cue `q` of engine `e` write one of these slots, here or over its crossing? -/
def laneWrites (c : SchSection) (e : Nat) (q : Cue) (l : Nat) (l1 : List SlotRef) : Bool :=
  (List.range q.outs).any fun o =>
    decide ((e, q.dest + 16 * o + l) ∈ l1) ||
    match q.xing with
    | some k =>
      let x := c.xings.getD k {}
      x.kind == 0 && decide ((x.dst - 0x20, x.dstBase + 16 * o + l) ∈ l1)
    | none => false

/-- The slots an arm's LVLOUT lanes depend on, `n` steps back. -/
def dependsOn (c : SchSection) (n : Nat) (l1 : List SlotRef) : List SlotRef :=
  match n with
  | 0 => l1
  | n + 1 =>
    let more := ((List.range 4).map fun e => ((c.cueList e).map fun q => ((List.range q.lanes).map fun l =>
      if laneWrites c e q l l1 then laneReads e q l else []).flatten).flatten).flatten
    dependsOn c n (more.foldl (fun l r => if r ∈ l then l else r :: l) l1)

/-- The slots on which the LVLOUT lane of arm `n` depends. A chain has at most as many links as there are cues. -/
def armSlots (c : SchSection) (t : ParTables) (n : Nat) : List SlotRef :=
  let total := ((List.range 4).map fun e => (c.cueList e).length).foldl (· + ·) 0
  dependsOn c total (((lvlLanes c t).filter fun q => q.2.2.2 == n).map fun q =>
    laneReads q.1 ((c.cueList q.1).getD q.2.1 {}) q.2.2.1).flatten

/-- AFFECT of a cue includes every arm that depends on its outputs. -/
def affectOk (c : SchSection) (slots : List (Nat × List SlotRef)) (e : Nat) (q : Cue) : Bool :=
  slots.all fun a => q.affect.getLsbD a.1 || !((List.range q.lanes).any fun l => laneWrites c e q l a.2)

/-- Check 12: completion, one LVLOUT lane for each arm in PORT_MASK, AFFECT (R337, R339). -/
def schComplete (c : SchSection) (t : ParTables) : Option SchErr :=
  let lanes := lvlLanes c t
  let slots := c.used.map fun n => (n, armSlots c t n)
  firstErr ((List.range 4).map (fun e => overTable 12 (4 + e) (c.cueList e) fun i q =>
      decide (q.start + q.lat + cueDecl c t e i q ≤ c.p)) ++
    [overPorts 12 2 c fun n => (lanes.filter fun l => l.2.2.2 == n).length == 1] ++
    (List.range 4).map fun e => overTable 12 (4 + e) (c.cueList e) fun _ q => affectOk c slots e q)

/-- Checks 2 to 12 of R339 in their order, for a section that is well formed; none when it passes. DEDUCED: log entry
69. -/
def schVerdict (c : SchSection) (v : SchEnv) : Option SchErr :=
  firstErr [schPeriod c, schTopo c v.topo, schPhases c, schLink c, schCrossings c v, schCueForm c v.par, schParams c v,
    schResources c, schPresence c v.par, schArms c v.par, schComplete c v.par]

/-- SCH_LOAD_RES of a verdict (R367). -/
def loadRes (e : Option SchErr) : Word :=
  match e with
  | none => 0
  | some x => BitVec.ofNat 32 (x.idx % 65536 * 65536 + x.tab * 4096 + x.code)

end Sys2Proof.Machine
end

