-- ==== Sys2Proof/Machine/Image.lean ====
section
/-! DEFINITION. The image on the config key: header, section table, sections and trailer, what each section holds, and
the checks before it is accepted (R525 to R540, R486, R509, R712, R713). -/

namespace Sys2Proof.Machine

/-- Reserved bits of a byte field are clear. -/
def byteBelow (b : List Byte) (off n : Nat) : Bool := decide (bytesAt b off 1 < n)

/-- A field lies within bounds. -/
def within (b : List Byte) (off n lo hi : Nat) : Bool := decide (lo ≤ bytesAt b off n ∧ bytesAt b off n ≤ hi)

/-- A word of a byte string. -/
def wordAt (b : List Byte) (off : Nat) : Word := BitVec.ofNat 32 (bytesAt b off 4)

/-- The device parameters (R530). -/
def devOf (b : List Byte) : DevPar :=
  { pdUse := BitVec.ofNat 14 (bytesAt b 0 2), twinEn := bytesAt b 2 1 == 1, autoReclaim := bytesAt b 3 1 == 1
    l := bytesAt b 4 2, liveWords := bytesAt b 6 2, tReclaim := bytesAt b 8 4, tRide := bytesAt b 12 1
    eMargin := bytesAt b 14 2 }

/-- The ranges of R530; the domains that the ports in use need. -/
def devOk (b : List Byte) (mask : BitVec 12) : Bool :=
  let d := devOf b
  b.length == 32 && decide (bytesAt b 0 2 < 0x4000) && byteBelow b 2 2 && byteBelow b 3 2 && within b 4 2 50 1000 &&
  within b 6 2 0 1024 && within b 8 4 1 3600000 && within b 12 1 0 200 && zeroAt b 13 1 && within b 14 2 0 1000 && zeroAt b 16 16 &&
  d.pdUse &&& 0x3307 == 0x3307 && (mask &&& 0x03F == 0 || d.pdUse &&& 0x028 == 0x028) &&
  (mask &&& 0xFC0 == 0 || d.pdUse &&& 0x050 == 0x050)

/-- A device list (R532). -/
def devListOf (b : List Byte) (ofs n : Nat) : List Dev :=
  (entriesOf b ofs 4 n).map fun x => { addr := BitVec.ofNat 24 (bytesAt x 0 3), kind := BitVec.ofNat 4 (bytesAt x 3 1) }

/-- A port entry of the topology (R531). -/
def topoPortOf (b : List Byte) (n : Nat) : TopoPort :=
  let x := entryAt b 16 96 n
  { ncell := bytesAt x 0 2, nfb := bytesAt x 2 2, nhub := bytesAt x 4 1, nnode := bytesAt x 5 1, hold := bytesAt x 6 1
    scale := wordAt x 8, cHb := wordAt x 12, cFb := wordAt x 16
    chScale := (List.range 16).map fun i => wordAt x (0x20 + 4 * i), devs := devListOf b (bytesAt x 0x14 4) (bytesAt x 0x18 2) }

/-- A topology section (R531). -/
def topoOf (b : List Byte) : Topo :=
  let mask := BitVec.ofNat 12 (bytesAt b 0 2)
  { mask := mask, ports := (List.range 12).map fun n => if mask.getLsbD n then topoPortOf b n else {} }

/-- The place of an address in census order: depth first, positions ascending, a hub before its children (R157). -/
def censusKey (a : BitVec 24) : Nat :=
  let k := fun i => if i < addrLen a then addrPos a i + 1 else 0
  (k 0 * 33 + k 1) * 33 + k 2

/-- An address of R156: reserved bits and unused positions are 0. -/
def addrOk (a : BitVec 24) : Bool :=
  decide (fieldOf a 18 6 = 0) && !a.getLsbD 15 && (List.range 3).all fun i => decide (i < addrLen a) || addrPos a i == 0

/-- The keys rise strictly. -/
def risesStrictly (l : List Nat) : Bool :=
  match l with
  | a :: b :: r => decide (a < b) && risesStrictly (b :: r)
  | _ => true

/-- A device list is valid (R153, R532). -/
def devsOk (t : TopoPort) : Bool :=
  let l := t.devs
  let cnt := fun (f : Dev → Bool) => (l.filter f).length
  let hubs := cnt fun d => d.kind == 3
  l.all (fun d => addrOk d.addr && decide (1 ≤ d.kind.toNat ∧ d.kind.toNat ≤ 4)) && risesStrictly (l.map fun d => censusKey d.addr) &&
  l.all (fun d => if addrLen d.addr = 0 then d.kind == 3
    else l.any fun h => h.kind == 3 && h.addr == parentAddr d.addr) &&
  cnt (fun d => d.kind == 1 || d.kind == 2) == t.ncell && cnt (fun d => d.kind == 2) == t.nfb && hubs == t.nhub &&
  cnt (fun d => d.kind == 4) == t.nnode && decide (t.ncell ≤ 1024) && decide (1 ≤ hubs ∧ hubs ≤ 48) && decide (t.nnode ≤ 4)

/-- A scale or capacitance: a finite number greater than 0 (R532). -/
def positive (x : BitVec 32) : Bool := !fpSpecial x && fpLt 0 x

/-- A topology section is well formed (R531, R532). -/
def topoOk (b : List Byte) : Bool :=
  let t := topoOf b
  decide (1168 ≤ b.length ∧ b.length ≤ 0x10000) && decide (bytesAt b 0 2 < 4096) && zeroAt b 2 14 &&
  (List.range 12).all fun n =>
    let x := entryAt b 16 96 n
    let p := t.port n
    if t.mask.getLsbD n then
      within x 6 1 1 64 && zeroAt x 7 1 && zeroAt x 0x1A 6 && fits b (bytesAt x 0x14 4) 4 (bytesAt x 0x18 2) &&
      ((entriesOf b (bytesAt x 0x14 4) 4 (bytesAt x 0x18 2)).all fun e => decide (bytesAt e 3 1 < 16)) && devsOk p &&
      positive p.scale && positive p.cHb && positive p.cFb && (p.chScale.take (4 * p.nnode)).all positive
    else zeroAt x 0 96

/-- A fault table entry (R533). -/
def fltEntryOf (x : List Byte) : FltEntry :=
  { base := BitVec.ofNat 2 (bytesAt x 0 1), squall := BitVec.ofNat 2 (bytesAt x 0 1 / 4), n := bytesAt x 1 1
    recLim := bytesAt x 2 1, win := wordAt x 4, lull := wordAt x 8 }

/-- A fault table section (R533); the entries of reserved sources and of FS15 are ignored and stay at the reset entry
(R375, R393). -/
def fltOf (b : List Byte) : FltTable :=
  let l := entriesOf b 0 16 256
  let ignored := fun (n : Nat) => reservedSrc n || n == 15
  { entries := (indexed 0 l).map fun e => if ignored e.1 then {} else fltEntryOf e.2
    irqEn := (indexed 0 l).map fun e => !ignored e.1 && bytesAt e.2 3 1 % 2 == 1
    surr := (indexed 0 l).map fun e => !ignored e.1 && bytesAt e.2 3 1 / 2 % 2 == 1 }

/-- An entry within its ranges (R378, R533); the entries of reserved sources and of FS15 are ignored (R375). -/
def fltEntryOk (n : Nat) (x : List Byte) : Bool :=
  reservedSrc n || n == 15 ||
  (byteBelow x 0 16 && decide (bytesAt x 0 1 % 4 ≤ bytesAt x 0 1 / 4) && byteBelow x 1 17 && byteBelow x 3 4 &&
   decide (0 < bytesAt x 4 4) && decide (0 < bytesAt x 8 4) && zeroAt x 12 4)

/-- A fault table section is well formed. -/
def fltOk (b : List Byte) : Bool := b.length == 4096 && (firstBad (entriesOf b 0 16 256) fltEntryOk).isNone

/-- The class constraints of R375 that the fault table bears alone (R376); those on FS45 and on FS176 to FS189 name R339
and R293 and are the schedule's check 8. -/
def fltClassesOk (t : FltTable) : Bool :=
  t.high 6 && t.high 7 && t.high 195 &&
  (List.range 13).all fun i => let e := t.entries.getD (224 + i) {}; e.base == 0 && e.squall == 0

/-- The directory of the parameter tables: target, COUNT, OFFSET (R534). -/
def parDir (b : List Byte) : List (Nat × Nat × Nat) :=
  (entriesOf b 8 8 (bytesAt b 0 2)).map fun x => (bytesAt x 0 2, bytesAt x 2 2, bytesAt x 4 4)

/-- Bytes of a target's data, none where the target or its COUNT does not exist (R534, R535). -/
def targetSize (tgt cnt : Nat) : Option Nat :=
  if tgt < 4 then (if cnt ≤ 8192 then some (8 * cnt) else none)
  else if 0x10 ≤ tgt ∧ tgt < 0x1C then some (68 + cnt)
  else if tgt = 0x20 then (if cnt = 1 then some 12 else none)
  else if tgt = 0x21 then (if cnt = 1 then some 132 else none)
  else if tgt = 0x22 then (if cnt = 1 then some 772 else none)
  else if tgt = 0x23 then (if cnt ≤ 16 then some (24 * cnt) else none)
  else if tgt = 0x24 then (if cnt ≤ 16 then some (16 * cnt) else none)
  else if tgt = 0x25 then (if cnt = 1 then some 132 else none)
  else if tgt = 0x26 then some (2 * cnt)
  else none

/-- The data and COUNT of a target, none where the section leaves it out. -/
def targetData (b : List Byte) (tgt : Nat) : Option (Nat × List Byte) :=
  ((parDir b).find? fun e => e.1 == tgt).map fun e => (e.2.1, (b.drop e.2.2).take ((targetSize tgt e.2.1).getD 0))

/-- The words of a byte string. -/
def wordsOf (b : List Byte) (n : Nat) : List (BitVec 32) := (List.range n).map fun i => wordAt b (4 * i)

/-- The parameters of an arm engine in the order of R220. -/
def aeParOf (b : List Byte) : AeParams :=
  let n := fun i => bytesAt b (4 * i) 4
  { bInit := n 0, bMin := n 1, bMax := n 2, bStep := n 3, hyst := n 4, swTgt := n 5, wSw := n 6, spreadLim := n 7
    dwellMin := n 8, swapMax := n 9, staleLim := n 10, minPulse := n 11, iDead := wordAt b 48, hotRelease := n 13
    redAll := n 14, redFb := n 15, adaptEn := n 16 == 1 }

/-- An entry of the live list (R534). -/
def liveOf (b : List Byte) (i : Nat) : Nat × Nat := (bytesAt b (2 * i) 2 / 0x4000, bytesAt b (2 * i) 2 % 0x2000)

/-- Initial correction factors where target 0x022 is left out. -/
def unityCorr : List (BitVec 32) := List.replicate 192 fpOne

/-- The block parameter tables (R534, R535). -/
def parOf (b : List Byte) : ParTables :=
  let d := targetData b
  let bytes := fun tgt => ((d tgt).map (·.2)).getD []
  let cnt := fun tgt => ((d tgt).map (·.1)).getD 0
  { le := (List.range 4).map fun e => (List.range (cnt e)).map fun i => (wordAt (bytes e) (8 * i), wordAt (bytes e) (8 * i + 4))
    ae := (List.range 12).map fun n => (d (0x10 + n)).map fun q => (aeParOf q.2, ((q.2.drop 68).take q.1).map BitVec.toNat)
    energy := match d 0x20 with
      | some q => { wE := bytesAt q.2 0 4, eFix := wordAt q.2 4, eRel := wordAt q.2 8 }
      | none => {}
    fp := match d 0x21 with | some q => wordsOf q.2 33 | none => []
    missHold := match d 0x22 with | some q => bytesAt q.2 0 4 | none => 2
    mcorr := match d 0x22 with | some q => wordsOf (q.2.drop 4) 192 | none => unityCorr
    eddy := (List.range (cnt 0x23)).map fun i =>
      let x := entryAt (bytes 0x23) 0 24 i
      { fNom := wordAt x 0, g := wordAt x 4, rho := wordAt x 8, lead := bytesAt x 12 4, yLim := wordAt x 16, fTol := wordAt x 20 }
    prof := (List.range (cnt 0x24)).map fun i =>
      let x := entryAt (bytes 0x24) 0 16 i
      { vMax := wordAt x 0, aMax := wordAt x 4, jMax := wordAt x 8, eps := wordAt x 12 }
    injAllow := wordAt (bytes 0x25) 0, ampMax := wordsOf ((bytes 0x25).drop 4) 32
    live := (List.range (cnt 0x26)).map (liveOf (bytes 0x26)) }

/-- No target appears twice. -/
def distinct (l : List Nat) : Bool :=
  match l with
  | [] => true
  | a :: r => !decide (a ∈ r) && distinct r

/-- The parameter tables are well formed (R534, R535). -/
def parForm (b : List Byte) : Bool :=
  let d := parDir b
  decide (8 ≤ b.length ∧ b.length ≤ 0x100000) && zeroAt b 2 6 && fits b 8 8 (bytesAt b 0 2) && distinct (d.map (·.1)) &&
  (d.all fun e => match targetSize e.1 e.2.1 with | some n => decide (e.2.2 + n ≤ b.length) | none => false) &&
  (match targetData b 0x26 with
    | some q => (List.range q.1).all fun i => decide (bytesAt q.2 (2 * i) 2 / 0x2000 % 2 = 0)
    | none => true)

/-- The parameters of an arm engine keep R220; RED_ALL and RED_FB fit the arm's topology. -/
def aeParOk (q : AeParams × List Nat) (t : TopoPort) : Bool :=
  let p := q.1
  decide (p.bInit ≤ 65535 ∧ p.bMin ≤ p.bMax ∧ p.bMax ≤ 65535 ∧ 1 ≤ p.bStep ∧ p.bStep ≤ 1024 ∧ p.hyst ≤ 15) &&
  decide (p.swTgt ≤ 65535 ∧ 256 ≤ p.wSw ∧ p.wSw ≤ 65536 ∧ 1 ≤ p.spreadLim ∧ p.spreadLim ≤ 65535 ∧ p.dwellMin ≤ 255) &&
  decide (p.swapMax ≤ 32 ∧ 1 ≤ p.staleLim ∧ p.staleLim ≤ 255 ∧ 8 ≤ p.minPulse ∧ p.minPulse ≤ 1024 ∧ p.hotRelease ≤ 65535) &&
  decide (p.redAll ≤ t.ncell ∧ p.redFb ≤ t.nfb) && fpIn p.iDead 0 0x447A0000 && q.2.length == t.ncell

/-- ADAPT_EN is 0 or 1 as it stands in the section (R220). -/
def adaptOk (b : List Byte) : Bool :=
  (List.range 12).all fun n => match targetData b (0x10 + n) with | some q => decide (bytesAt q.2 64 4 ≤ 1) | none => true

/-- The parameter tables keep R59 and R220, with the topology beside them. -/
def armParOk (t : ParTables) (topo : Topo) : Bool :=
  decide (16 ≤ t.energy.wE ∧ t.energy.wE ≤ 65536) && fpIn t.energy.eFix 0 0x461C4000 && fpIn t.energy.eRel 0 0x3E800000 &&
  (List.range 12).all fun n => match t.ae.getD n none with
    | some q => aeParOk q (topo.port n)
    | none => true

/-- The parameter tables keep R59, R220, R258, R266, R296 and R301, with the topology beside them. -/
def parOkFor (t : ParTables) (topo : Topo) (p : Nat) : Bool := armParOk t topo && eddiesOk t.eddy p && islandOk t

/-- The live list has LIVE_WORDS entries (R534). -/
def liveOk (t : ParTables) (d : DevPar) : Bool := t.live.length == d.liveWords

/-- What R534 itself asks of the tables: each arm's COUNT is that of its cells, the live list has LIVE_WORDS entries, every
correction factor lies from 0.98 to 1.02, and MISS_HOLD from 1 to 16 (R265). -/
def parCounts (t : ParTables) (topo : Topo) (d : DevPar) : Bool :=
  ((List.range 12).all fun n => match t.ae.getD n none with
    | some q => q.2.length == (topo.port n).ncell
    | none => true) && liveOk t d && decide (1 ≤ t.missHold ∧ t.missHold ≤ 16) &&
  t.mcorr.all fun x => fpIn x 0x3F7AE148 0x3F828F5C

/-- An entry of the recorder setup that would set CFG_REFUSED (R454, R458). -/
def gstCodeBad (ofs : Nat) (v : Word) : Bool :=
  let a := 0x20050000 + ofs
  ((List.range 16).any fun u => a == Reg.GST_TU_CFG u && decide (5 ≤ fieldOf v 16 3)) ||
  ((List.range 4).any fun m => a == Reg.GST_MASK_CFG m && decide (fieldOf v 30 2 = 3))

/-- The recorder setup (R536). -/
def recsOf (b : List Byte) : List (Nat × Word) := (entriesOf b 0 8 (b.length / 8)).map fun x => (bytesAt x 0 4, wordAt x 4)

/-- The recorder setup is well formed (R536). -/
def recsOk (b : List Byte) : Bool :=
  b.length % 8 == 0 && decide (b.length ≤ 0x10000) && (recsOf b).all fun e =>
    decide ((0x010 ≤ e.1 ∧ e.1 ≤ 0x01C) ∨ (0x100 ≤ e.1 ∧ e.1 ≤ 0x40C) ∨ (0x8000 ≤ e.1 ∧ e.1 ≤ 0xFFFC)) && !gstCodeBad e.1 e.2

/-- Roles and functions of the safety parameter block (R712). -/
def safRole (b : List Byte) (i : Nat) : Nat := bytesAt b (8 + i) 1
def safFunc (b : List Byte) (i : Nat) : Nat := bytesAt b (0x20 + i) 1

/-- Outputs with a function, pairs with a role. -/
def safFuncs (b : List Byte) (f : Nat) : Nat := ((List.range 8).filter fun i => safFunc b i == f).length
def safRoles (b : List Byte) (r : Nat) : Nat := ((List.range 8).filter fun i => safRole b i == r).length

/-- The safety parameter block is valid (R712, R713). -/
def safOk (b : List Byte) : Bool :=
  b.length == 64 && b.take 4 == [0x53, 0x41, 0x46, 0x50] && bytesAt b 4 2 == 1 && zeroAt b 6 2 &&
  ((List.range 8).all fun i => decide (safRole b i ≤ 6) && decide (safFunc b i ≤ 4) &&
    (safRole b i == 0 || within b (0x10 + 2 * i) 2 10 1000)) &&
  within b 0x28 2 100 500 && within b 0x2A 2 100 10000 && within b 0x2C 1 16 31 && zeroAt b 0x2D 1 && within b 0x2E 2 5 300 &&
  within b 0x30 4 100 600000 && zeroAt b 0x34 12 &&
  safFuncs b 1 == 1 && decide (safFuncs b 2 ≤ 1) && decide (safFuncs b 3 ≤ 1) &&
  (safFuncs b 2 + safFuncs b 3 == 0 || (decide (1 ≤ safRoles b 3) && decide (1 ≤ safRoles b 4) && decide (1 ≤ safRoles b 5))) &&
  (safFuncs b 3 == 0 || (safFuncs b 2 == 1 && decide (1 ≤ safRoles b 6))) && decide (1 ≤ safRoles b 1)

/-- An order range of the network setup (R610, R623). -/
def rangeOk (x : List Byte) : Bool :=
  byteBelow x 0 6 && zeroAt x 1 3 && fpLe (wordAt x 4) (wordAt x 8)

/-- The network setup is well formed, with the keys it asks for (R586, R623, R625). -/
def netOk (b : List Byte) : Bool :=
  b.length == 608 && byteBelow b 0 2 && byteBelow b 1 4 && decide (bytesAt b 2 2 / 4096 % 2 = 0) &&
  ((List.range 4).any fun i => bytesAt b (0x28 + 4 * i) 4 != 0) && within b 0x38 2 1024 65535 && within b 0x3A 2 1024 65535 &&
  within b 0x3C 1 1 239 && within b 0x44 4 100 1000000 && within b 0x48 2 5 1000 && decide (bytesAt b 0x48 2 < bytesAt b 0x44 4) && within b 0x4A 1 0 32 &&
  decide (bytesAt b 0x4B 1 / 8 % 2 = 0 ∧ bytesAt b 0x4B 1 < 64) && byteBelow b 0x4C 2 && zeroAt b 0x4D 1 && within b 0x4E 2 0 10000 &&
  within b 0x50 2 1 10000 && within b 0x52 2 100 60000 && within b 0x58 4 1 1000000 && within b 0x5C 1 1 255 && zeroAt b 0x5D 3 &&
  ((List.range 32).all fun i => rangeOk (entryAt b 0x60 12 i)) &&
  (bytesAt b 0x4B 1 / 4 % 2 == 0 || !zeroAt b (0x1E0 + 32 * (bytesAt b 0x4B 1 / 16 % 4)) 32) &&
  (bytesAt b 0x4C 1 == 0 || !zeroAt b 0x1E0 128)

/-- A stretch of addresses lies in the SRAM or in DRAM channel B as a whole (R537, R857). -/
def inOneMemory (a n : Nat) : Bool :=
  (decide (0x10000000 ≤ a) && decide (a + n ≤ 0x10200000)) || (decide (0x200000000 ≤ a) && decide (a + n ≤ 0x400000000))

/-- The firmware section (R537): load address, entry and code. -/
def fwOf (b : List Byte) : Nat × Nat × List Byte := (bytesAt b 0 8, bytesAt b 8 8, b.drop 16)
def fwOk (b : List Byte) : Bool :=
  let f := fwOf b
  let n := b.length - 16
  decide (16 < b.length ∧ b.length ≤ 0x1400000) && inOneMemory f.1 n && decide (f.1 ≤ f.2.1 ∧ f.2.1 < f.1 + n)

/-- Bytes of the state slots that a schedule declares, engine by engine (R485). -/
def declaredStates (c : SchSection) (t : ParTables) : Nat :=
  ((List.range 4).map fun e =>
    ((c.cueList e).foldl (fun (m : Sparse Unit) q =>
      match blkShape q.block with
      | some sh => (List.range q.lanes).foldl (fun m l =>
          (List.range (laneStates t e q sh l)).foldl (fun m j =>
            let i := q.state + 16 * j + l
            Sparse.place (Sparse.drop m i) i ()) m) m
      | none => m) []).length).foldl (· + ·) 0

/-- FAST_LEN of a checkpoint under a configuration (R485). -/
def fastLen (c : SchSection) (t : ParTables) : Nat :=
  256 + 8 * declaredStates c t + (c.used.map fun n => 48 + 8 * (c.port n).ncell).foldl (· + ·) 0

/-- R486. -/
def fastOk (c : SchSection) (t : ParTables) : Bool := decide (fastLen c t ≤ 196608)

/-- R509. -/
def liveTimeOk (c : SchSection) (d : DevPar) (topo : Topo) : Bool :=
  decide (4 * liveBlocks d.liveWords topo.ncells + 181 + c.eStart ≤ 2 * c.p + c.iEnd)

/-- The nine sections of an image, in TYPE order. -/
def sectOfs (b : List Byte) (i : Nat) : Nat := bytesAt b (bytesAt b 0x38 4 + 8 * i + 4) 4
def sectLen (b : List Byte) (i : Nat) : Nat := bytesAt b (sectOfs b i + 4) 4
def sectBody (b : List Byte) (i : Nat) : List Byte := (b.drop (sectOfs b i + 16)).take (sectLen b i)
def sectCrc (b : List Byte) (i : Nat) : Word := wordAt b (sectOfs b i + 12)

/-- A section as it stands with its header passes R527. -/
def sectionOk (x : List Byte) (typ : Nat) : Bool :=
  bytesAt x 0 2 == typ && bytesAt x 2 2 == 1 && zeroAt x 8 4 && decide (16 + bytesAt x 4 4 ≤ x.length) &&
  wordAt x 12 == crc32c (x.take 12 ++ (x.drop 16).take (bytesAt x 4 4))

/-- A section header of an image under R526: its entry, its place, no overlap. -/
def sectPlaced (b : List Byte) (i : Nat) : Bool :=
  let e := entryAt b (bytesAt b 0x38 4) 8 i
  let o := sectOfs b i
  bytesAt e 0 2 == i + 1 && zeroAt e 2 2 && o % 64 == 0 && decide (o + 16 + sectLen b i + 4 ≤ bytesAt b 8 4) &&
  (List.range 9).all fun j => j == i ||
    decide (sectOfs b j + 16 + sectLen b j ≤ o) || decide (o + 16 + sectLen b i ≤ sectOfs b j)

/-- A refusal of an image: the code of R540, the section type, and the source it raises. -/
structure ImgErr where
  code : Nat
  typ : Nat := 0
  src : Option Nat := none
  deriving DecidableEq, Repr

/-- What the checks need of the module: a fused key, and the commissioning fuse (R538, R539). -/
structure Fuses where
  pubkey : Option (List Byte)
  commissioned : Bool
  deriving DecidableEq, Repr

/-- Flags of an image. -/
def imgSigned (b : List Byte) : Bool := bytesAt b 6 2 % 2 == 1
def imgFactory (b : List Byte) : Bool := bytesAt b 6 2 / 2 % 2 == 1
def imgLen (b : List Byte) : Nat := bytesAt b 8 4

/-- Check 1 (R525, R528). -/
def imgHead (b : List Byte) : Bool :=
  b.take 4 == [0x4C, 0x4E, 0x58, 0x49] && bytesAt b 4 2 == 1 && (b.drop 12).take 4 == [0x5A, 0x4B, 0x31, 0x32] &&
  wordAt b 0x3C == crc32c (b.take 0x3C) && decide (imgLen b + (if imgSigned b then 64 else 0) ≤ 0x1800000)

/-- Check 5: the signature (R538). -/
def imgSignature (b : List Byte) (f : Fuses) : Bool :=
  match f.pubkey with
  | none => true
  | some k => imgSigned b && edVerify (b.take (imgLen b)) ((b.drop (imgLen b)).take 64) k

/-- The sections that an image holds. -/
def sectionsOf (b : List Byte) : Sections :=
  { dev := some (devOf (sectBody b 0)), topo := some (topoOf (sectBody b 1)), sch := some (schOf (sectBody b 2))
    par := some (parOf (sectBody b 3)), flt := some (fltOf (sectBody b 4)), recs := some (recsOf (sectBody b 5))
    saf := some (sectBody b 6), net := some { bytes := sectBody b 7 }, fw := some (fwOf (sectBody b 8)) }

/-- What a schedule of the image is checked against. -/
def imgEnv (b : List Byte) : SchEnv :=
  { dev := devOf (sectBody b 0), topo := topoOf (sectBody b 1), par := parOf (sectBody b 3), flt := fltOf (sectBody b 4) }

/-- Check 7 for the sections other than the schedule: the first type that fails (R530 to R537). What check 8 of the schedule
judges is left to it (R258, R296, R339). -/
def imgContents (b : List Byte) : Option Nat :=
  let v := imgEnv b
  [(1, devOk (sectBody b 0) v.topo.mask), (2, topoOk (sectBody b 1)),
   (4, parForm (sectBody b 3) && adaptOk (sectBody b 3) && armParOk v.par v.topo && parCounts v.par v.topo v.dev),
   (5, fltOk (sectBody b 4) && fltClassesOk v.flt), (6, recsOk (sectBody b 5)), (7, safOk (sectBody b 6)),
   (8, netOk (sectBody b 7)), (9, fwOk (sectBody b 8))].findSome? fun (q : Nat × Bool) => if q.2 then none else some q.1

/-- The schedule of an image under R339. -/
def imgSchedule (b : List Byte) : Option SchErr :=
  match schForm (sectBody b 2) with
  | some e => some e
  | none => if 0x80000 < (sectBody b 2).length then some { code := 1 } else schVerdict (schOf (sectBody b 2)) (imgEnv b)

/-- The checks of R540 in order; the verdict on the schedule stands beside it for SCH_LOAD_RES. DEDUCED: log entry 70.
-/
def imgCheck (b : List Byte) (f : Fuses) : Option ImgErr :=
  if imgHead b = false then some { code := 1 }
  else if bytesAt b 0x38 4 ≠ 0x40 then some { code := 2 }
  else match firstBad (List.range 9) fun i _ => sectPlaced b i with
  | some i => some { code := 2, typ := i + 1 }
  | none => match firstBad (List.range 9) fun i _ => sectionOk (b.drop (sectOfs b i)) (i + 1) with
    | some i => some { code := 3, typ := i + 1, src := some 250 }
    | none =>
      if wordAt b (imgLen b - 4) ≠ crc32c (b.take (imgLen b - 4)) then some { code := 4, src := some 250 }
      else if imgSignature b f = false then some { code := 5, src := some 255 }
      else if imgFactory b && f.commissioned then some { code := 6 }
      else match imgContents b with
      | some t => some { code := 7, typ := t }
      | none =>
        if (imgSchedule b).isSome then some { code := 7, typ := 3, src := some 32 }
        else
          let v := imgEnv b
          let c := schOf (sectBody b 2)
          if v.dev.twinEn && !fastOk c v.par then some { code := 8, typ := 3 }
          else if v.dev.twinEn && !liveTimeOk c v.dev v.topo then some { code := 8, typ := 1 }
          else none

end Sys2Proof.Machine
end

