-- ==== Sys2Proof/Machine/TwnOps.lean ====
section
/-! DEFINITION. Health, claims, witnesses and the steps of a takeover or takeback (R471 to R475, R491 to R511). -/

namespace Sys2Proof.Machine

/-- The twin port can carry messages (R470, R482). -/
def State.twinUp (s : State) : Bool := s.twinEn && s.open .twn && (s.lane 12).inData

/-- T_RECLAIM in ticks. -/
def State.reclaimTicks (s : State) : Nat := 200000 * s.rdNat Reg.TWN_RECLAIM

/-- The count of T_RECLAIM follows the module's health (R496, R497). -/
def State.noteHealth (s : State) : State :=
  if s.healthy then
    match s.twn.healthyAt with
    | some t => if s.since t s.reclaimTicks then { s with twn := { s.twn with mustHeal := false } } else s
    | none => { s with twn := { s.twn with healthyAt := some s.now } }
  else s.ill

/-- The module enters FAILED with a result code (R471, R473, R493, R505). -/
def State.twnFail (s : State) (code : Nat) : State :=
  let s1 := ((s.dropHand.stopFrames.setLease .failed).twnResult code).setBit Reg.TWN_EVT 1
  ({ s1 with twn := { s1.twn with claim := none, hand := none, computeFrom := none } }).raise 200

/-- A LEASE message on every arm port in use (R489, R490, R493). -/
def State.sendLease (s : State) (kind : Nat) (epoch : Option (BitVec 16)) : State :=
  s.portsUsed.foldl (fun t n =>
    if (t.lane n).inData then
      t.queueCtrl n { ownCtrl 0x09 allDevices (BitVec.ofNat 64 (kind * 2 ^ 62)) with epoch := epoch }
    else t) s

/-- Hub records of the ports in use received within the last `n` ticks. -/
def State.recentRecs (s : State) (n : Nat) : List (BitVec 8) :=
  (s.portsUsed.map fun p =>
    match (s.port p).wit with
    | some w => if s.since w.at_ (n + 1) || !pairOk w.eMax w.eMaxC then [] else w.recs
    | none => []).flatten

/-- A hub record that shows frames on an uplink (R184). -/
def recSeen (r : BitVec 8) : Bool := r.getLsbD 7 || r.getLsbD 6

/-- Votes that the frames have stopped (R500). -/
def State.stoppedVotes (s : State) : Nat := ((s.recentRecs (4 * s.per)).filter fun r => !recSeen r).length

/-- The witness rule (R500). -/
def State.ruleMet (s : State) : Bool := decide (s.hubCount < 2 * s.stoppedVotes)

/-- The last round's votes show, with the hubs they are held against (TWN_WIT, MAJORITY_STOPPED). -/
def State.showVotes (s : State) : State := s.wr Reg.TWN_WIT (BitVec.ofNat 32 (s.hubCount * 65536 + s.stoppedVotes))

def State.setClaim (s : State) (c : Option Claim) : State := { s with twn := { s.twn with claim := c } }

/-- The engines' domains that the image uses are switched on (R502, R506, R578). -/
def State.enginesSwitch (s : State) : State :=
  [2, 3, 4].foldl (fun t d => if t.sys.cfg.dev.pdUse.getLsbD d then t.domainOn d else t) s

/-- The view is over: PD2 to PD4 are switched on for a claim, unless the module must first be healthy for T_RECLAIM
(R497, R500, R502). -/
def State.viewEnds (s : State) : State :=
  let s1 := { s with twn := { s.twn with viewTo := none } }
  let s2 := if s1.twn.lease = .warm then s1.standDown else s1
  if s2.twn.lease = .zephyr ∧ s2.twn.mustHeal = false ∧ s2.twn.claim.isNone then
    s2.enginesSwitch.setClaim (some { step := .power, stepAt := s2.now, began := s2.now })
  else s2

/-- The trees of the ports in DATA are taken into service (R173, R493, R495). -/
def State.startTrees (s : State) : State :=
  (List.range 12).foldl (fun t n =>
    if (t.lane n).inData && (t.port n).cal == .idle && t.inUse n then t.calStart n else t) s

/-- The epoch in effect is learned or rises (R491, R493). DEDUCED: log entry 63. -/
def State.learnEpoch (s : State) (e : BitVec 16) : State :=
  if s.twn.epochKnown then (if 0 < timeDiff e s.epoch then s.setEpochs e s.eMax else s)
  else { s.setEpochs e s.eMax with twn := { s.twn with epochKnown := true } }

/-- All ports in use are trained (R495). -/
def State.portsTrained (s : State) : Bool := s.portsUsed.all fun n => (s.lane n).inData

/-- A module in INIT begins a claim once its ports are trained, before the census; one that has surrendered must first be
healthy for T_RECLAIM (R493, R495, R497). -/
def State.initClaim (s : State) : State :=
  let may := !s.twinEn || (!s.partnerHolds && (!s.twn.secondary || s.since s.twn.initAt (us 100000)))
  if s.twn.lease = .init ∧ s.sys.stage ≥ 4 ∧ s.tb.run ∧ s.portsTrained ∧ may ∧ s.twn.mustHeal = false then
    let s1 := s.setLease .claiming
    { s1 with twn := { s1.twn with
      quietFrom := s1.now
      claim := some { fromInit := true, step := if s1.twn.epochKnown then .rule else .learn, stepAt := s1.now, began := s1.now } } }
  else s

/-- How long a CLAIM waits once the rule is met: a secondary whose partner was not DUTY waits L/2 (R501). -/
def State.claimDelay (s : State) : Nat :=
  if s.twinEn = false then 0
  else match s.twn.partner with
  | some p => if s.twn.secondary ∧ p.lease ≠ 3 then s.leaseTicks / 2 else 0
  | none => if s.twn.secondary then s.leaseTicks / 2 else 0

/-- The CLAIM goes out on every arm port in use with its new epoch (R490, R492, R502). -/
def State.sendClaim (s : State) (c : Claim) (epoch : BitVec 16) : State :=
  (s.sendLease 2 (some epoch)).setClaim
    (some { c with step := .sent, stepAt := s.now, epoch := epoch, epochC := ~~~ epoch, confirmed := 0 })

/-- The highest epoch the claimer knows (R492). -/
def State.highEpoch (s : State) : BitVec 16 := if 0 < timeDiff s.eMax s.epoch then s.eMax else s.epoch

/-- The claim's CLAIM, or FAILED when a port in use is not ready for it (TWN_RES 0x13). -/
def State.claimNow (s : State) (c : Claim) : State :=
  let bad := s.portsUsed.any fun n => !(s.lane n).inData || (!c.fromInit && !(s.port n).censusOk)
  if bad then s.twnFail 0x13 else s.sendClaim c (s.highEpoch + 1)

/-- First period whose emit phase begins at least 8 ticks from now (R502). -/
def State.firstEmitPc (s : State) : BitVec 32 :=
  if reached (s.tickAt s.sec.eStart) (s.now + 8) then s.tb.pc else s.tb.pc + 1

/-- First period that begins at least `n` ticks from now (R511). -/
def State.periodAfter (s : State) (n : Nat) : BitVec 32 :=
  if reached s.tb.nextB (s.now + BitVec.ofNat 64 n) then s.tb.pc + 1 else s.tb.pc + 2

/-- The module becomes DUTY (R495). -/
def State.becomeDuty (s : State) (epoch : BitVec 16) : State :=
  let s1 := (s.setEpochs epoch s.eMax).setLease .duty
  { s1 with twn := { s1.twn with
    claim := none, hand := none, viewTo := none, dutyAt := some s1.now, renewAt := some s1.now, epochKnown := true } }

/-- Was the held checkpoint captured deblocked, and no more than 10 ms before the tick at which the CLAIM went out? (R504)
DEDUCED: log entry 125. -/
def State.heldDeblocked (s : State) (c : Claim) : Bool :=
  match s.twn.held with
  | some b => decide (bytesAt b 0x13 1 % 2 = 0) &&
      !reached c.stepAt (BitVec.ofNat 64 (bytesAt b 8 8) + BitVec.ofNat 64 (us 10000 + 1))
  | none => false

/-- Microseconds from `t` to now, for TWN_RES. -/
def State.usSince (s : State) (t : BitVec 64) : Nat := min ((s.now - t).toNat / 200) 0xFFFFF

/-- A takeover or handover is complete: result, duration, first period (TWN_RES, TWN_TKO_PC, R504, R510). -/
def State.tookOver (s : State) (code bit : Nat) (began : BitVec 64) (first : BitVec 32) : State :=
  let s1 := ((s.wr Reg.TWN_RES (BitVec.ofNat 32 (code * 2 ^ 24 + s.usSince began))).wr Reg.TWN_TKO_PC first).setBit Reg.TWN_EVT bit
  ({ s1 with twn := { s1.twn with computeFrom := some first } }).raise 197

/-- The takeover of a claim from ZEPHYR is complete: the converter goes on deblocked where the held checkpoint says so; the
record of its first emit falls due at that emit (R504, R569). -/
def State.takeover (s : State) (c : Claim) : State :=
  let s1 := (s.tookOver 1 5 c.began s.firstEmitPc).lifeUp 3
  let s2 := { s1 with twn := { s1.twn with firstEmit := true } }
  if s.heldDeblocked c then s2.deblockNow else s2.blockFrom (s2.now + 16)

/-- Every root has confirmed the claim (R495, R502, R504). -/
def State.claimDone (s : State) (c : Claim) : State :=
  if c.fromInit then (s.becomeDuty c.epoch).startTrees else (s.becomeDuty c.epoch).takeover c

/-- A claim not yet sent is given up (R495, R513). -/
def State.dropClaim (s : State) : State :=
  match s.twn.claim with
  | some c => if c.step = .sent then s else s.standDown
  | none => s

/-- A witness that confirms a claim (R49, R502). -/
def State.confirm (s : State) (c : Claim) (p : Nat) (eMax : BitVec 16) : State :=
  if eMax = c.epoch ∧ pairOk c.epoch c.epochC then
    let c1 := { c with confirmed := c.confirmed ||| ((1 : BitVec 12) <<< p) }
    if s.portsUsed.all fun n => c1.confirmed.getLsbD n then s.claimDone c1 else s.setClaim (some c1)
  else s

/-- The witness rule is looked at after a witness (R495, R500, R501). -/
def State.takeRule (s : State) (c : Claim) : State :=
  let s1 := s.showVotes
  if s1.ruleMet then
    let s2 := if s1.twn.lease = .zephyr then s1.setLease .claiming else s1
    s2.setClaim (some { c with metAt := some (c.metAt.getD s2.now) })
  else s1

/-- A WITNESS counts for the lease (R493 to R495, R498, R500, R502). -/
def State.witness (s : State) (p : Nat) (eMax : BitVec 16) : State :=
  let higher := s.twn.epochKnown && decide (0 < timeDiff eMax s.epoch)
  let s1 := s.setBitIf higher Reg.TWN_EVT 2
  let top := s1.portsUsed.foldl (fun (m : BitVec 16) n =>
    match (s1.port n).wit with | some w => if 0 < timeDiff w.eMax m ∧ pairOk w.eMax w.eMaxC then w.eMax else m | none => m) eMax
  let s2 := s1.wrPair Reg.TWN_EPOCH (BitVec.ofNat 32 (top.toNat * 65536 + s1.epoch.toNat))
  if s2.duty then (if higher && s2.twinEn then s2.surrender 3 p else s2)
  else match s2.twn.claim with
    | some c =>
      if c.step = .sent then s2.confirm c p eMax
      else if c.step = .learn then (s2.learnEpoch eMax).takeRule c
      else if higher ∧ s2.twinEn then s2.dropClaim
      else if higher then (s2.learnEpoch eMax).takeRule c
      else s2.takeRule c
    | none => if s2.twn.lease = .zephyr ∧ s2.viewValid = false then s2.showVotes else s2

/-- A message is taken: in DATA, with a good EPOCH pair; a module that is not the owner measures its phase on it and steers
its timebase. The trim is the part's own, within ±12 ppm (R475, R482). -/
def State.msgTake (s : State) (m : TwMsgIn) : State :=
  if s.timeOwner ∨ s.twn.ofsSet = false then s
  else
    let f : Int := (s.fresh.setWidth 16 : BitVec 16).toInt
    let trim : BitVec 16 := if -12000 ≤ f ∧ f ≤ 12000 then BitVec.ofInt 16 f else 0
    let s1 := s.tick1.wr Reg.TWN_PHASE (BitVec.ofNat 32 (trim.toNat * 65536 + m.phase.toNat))
    { s1 with twn := { s1.twn with phaseOk := decide (m.phase.toInt.natAbs ≤ 100) } }

/-- A message of the partner does its work; one whose EPOCH pair is broken is discarded, and the twin port island raises its
integrity fault (R49, R51, R482, R514). -/
def State.onMsg (s : State) (m : TwMsgIn) (f : State → State) : Res :=
  .next (if s.twinUp = false then s else if pairOk m.epoch m.epochC then f (s.msgTake m) else s.integrity 5)

/-- A time that has not been reached when VT_OFS is set steps with every VT_P value (R472). -/
def shiftOpt (o : Option (BitVec 64)) (d : BitVec 64) : Option (BitVec 64) := o.map (· + d)

/-- How far the block train of port `p` moves when VT_OFS is set: it steps with VT_P, and on an arm port on to the next tick
with VT_P mod 4 = 0 (R122, R472). DESIGN CHOICE: log entry 123. -/
def State.trainStep (s : State) (p : Nat) (d : BitVec 64) : BitVec 64 :=
  if p < 12 then d + BitVec.ofNat 64 ((4 - ((s.lane p).dataAt + d).toNat % 4) % 4) else d

/-- VT_OFS is set: every VT_P value steps once by it (R472). DEDUCED: log entry 66. -/
def State.setOfs (s : State) (d : BitVec 64) : State :=
  let u0 : State := (List.range 13).foldl State.lineNote s
  let shift := fun (p : Nat) (l : LineAt) => { l with since := l.since + u0.trainStep p d, at_ := l.at_ + u0.trainStep p d }
  let t : Twn := u0.twn
  let tw := { t with
    vtOfs := d, ofsSet := true, initAt := t.initAt + d, viewTo := shiftOpt t.viewTo d, quietFrom := t.quietFrom + d
    renewAt := shiftOpt t.renewAt d, statusAt := shiftOpt t.statusAt d, queryAt := shiftOpt t.queryAt d
    healthyAt := shiftOpt t.healthyAt d, ckptAt := shiftOpt t.ckptAt d, ckptFrom := t.ckptFrom + d
    sent := t.sent.map fun m => { m with vt := m.vt + d }, gust := t.gust.map fun g => { g with at_ := g.at_ + d }
    line := shift 12 t.line
    partner := t.partner.map fun p => { p with at_ := p.at_ + d } }
  let conv := fun (c : AdcConv) => { c with at_ := c.at_ + d }
  let mods := u0.adc.mods.map fun (e : Nat × AdcMod) => (e.1, { e.2 with cur := e.2.cur.map conv, inj := e.2.inj.map conv, late := e.2.late.map conv })
  let slot := (u0.now + d).toNat / 10000
  let iso := { u0.iso with outWas := u0.iso.outWas.map fun e => (e.1 + d, e.2)
                           slotOk := u0.iso.slotOk.map fun k => if k = u0.now.toNat / 10000 then slot else k }
  let s0 : State := { u0 with twn := tw, adc := { u0.adc with mods := mods }, iso := iso, flt := { u0.flt with latchLog := u0.flt.latchLog.map fun e => (e.1 + d, e.2) } }
  let s3 := s0.lanes.foldl (fun (u : State) (e : Nat × Lane) => u.setLane e.1 { e.2 with dataAt := e.2.dataAt + u0.trainStep e.1 d }) s0
  let s2 := s3.flt.srcs.foldl (fun (u : State) (e : Nat × Src) =>
    u.setSrc e.1 { e.2 with last := shiftOpt e.2.last d, ticks := e.2.ticks.map (· + d), heard := e.2.heard.map (· + d),
                             was := (e.2.was.map fun w => (w.1 + d, w.2)),
                             prior := e.2.prior.map fun p => { p with tick := p.tick + d, ticks := p.ticks.map (· + d) } }) s3
  let s1 := s2.ports.foldl (fun (u : State) (e : Nat × Port) => u.setPort e.1 { e.2 with
    calAt := e.2.calAt + d, censusAt := e.2.censusAt + d, lineAt := shiftOpt e.2.lineAt d, line := shift e.1 e.2.line
    upPhase := (e.2.upPhase + 32 * (d.toNat % 4)) % 128
    barrier := e.2.barrier.map fun b => (b.1, b.2 + d)
    wit := e.2.wit.map fun w => { w with at_ := w.at_ + d }
    eMaxs := e.2.eMaxs.map fun w => (w.1, w.2.1, w.2.2 + d)
    lastCtrl := e.2.lastCtrl.map fun c => (c.1, c.2.1, c.2.2 + d) }) s2
  (s1.wr Reg.TWN_VT_OFS_LO (d.setWidth 32)).wr Reg.TWN_VT_OFS_HI (BitVec.ofNat 32 (d.toNat / 2 ^ 32))

end Sys2Proof.Machine
end

