-- ==== Sys2Proof/Machine/KeyOps.lean ====
section
/-! DEFINITION. The config key: its header, its counter area, its post-mortem slots and its images, as they are read at
start-up (R518 to R524, R540 to R542, R574). -/

namespace Sys2Proof.Machine

/-- Where the parts of the key lie (R518). -/
def keyCopyAt (copy : Nat) : Nat := 0x10000 + 0x10000 * copy
def keyImageAt (b : Bool) : Nat := if b then 0x2800000 else 0x1000000
def keySlotAt (slot : Nat) : Nat := 0x4000000 + 0x200000 * slot
def keySize : Nat := keyBytes

/-- The key header is valid (R519, R524). -/
def keyHeaderOk (m : Memory) : Bool :=
  let h := m.bytes 0 64
  h.take 4 == [0x4C, 0x4E, 0x58, 0x4B] && bytesAt h 4 2 == 1 && wordAt h 0x3C == crc32c (h.take 0x3C)

/-- KEY_ID (R519). -/
def keyIdOf (m : Memory) : BitVec 64 := BitVec.ofNat 64 (bytesAt (m.bytes 8 8) 0 8)

/-- A copy of the counter area is valid (R521). -/
def areaOk (b : List Byte) : Bool :=
  b.take 4 == [0x4C, 0x4E, 0x58, 0x43] && wordAt b 0x1FC == crc32c (b.take 0x1FC) &&
  pairOk (BitVec.ofNat 16 (bytesAt b 8 2)) (BitVec.ofNat 16 (bytesAt b 10 2))

/-- The copy of the counter area in effect, none when neither is valid (R521, R522). -/
def areaInEffect (m : Memory) : Option (Nat × List Byte) :=
  let a := m.bytes (keyCopyAt 0) 512
  let b := m.bytes (keyCopyAt 1) 512
  if areaOk a ∧ areaOk b then (if 0 < timeDiff (wordAt b 4) (wordAt a 4) then some (1, b) else some (0, a))
  else if areaOk a then some (0, a)
  else if areaOk b then some (1, b)
  else none

/-- The counters as a copy holds them, in the order of R520. -/
def areaLife (b : List Byte) : List (BitVec 32) := (List.range 9).map fun i => wordAt b (0x110 + 4 * i)

/-- The recovery counts are restored (R389, R522). -/
def State.restoreRecs (s : State) (b : List Byte) : State :=
  (List.range 256).foldl (fun t n => t.setSrc n { t.src n with recCnt := bytesAt b (0x10 + n) 1 }) s

/-- Full minutes since PD0 powered up. -/
def State.upMin (s : State) : Nat := s.sys.up / 12000000000

/-- The minutes of this power-up that the key read has in its counter area already. DEDUCED: log entry 146. -/
def Key.had (k : Key) : Nat :=
  match k.wrote with
  | some (i, n) => if k.id = some i then n else 0
  | none => 0

/-- The counter area is read; with no valid copy every count starts at 0 (R520 to R522). -/
def State.loadCounters (s : State) : State :=
  match areaInEffect s.mram with
  | some (c, b) =>
    let k := { s.key with runFrom := s.key.had, seq := wordAt b 4, copy := c, epoch := BitVec.ofNat 16 (bytesAt b 8 2), life := areaLife b }
    ({ s with key := k }).restoreRecs b
  | none =>
    let k := { s.key with runFrom := 0, seq := 0, copy := 1, epoch := 0, life := List.replicate 9 0, due := some s.sys.up }
    (({ s with key := k }).restoreRecs []).setBit Reg.SYS_EVT 7

/-- RUN_MIN: minutes with PD0 powered, those of this power-up that the area held when it was read not counted again (R520). -/
def State.runMin (s : State) : Nat := min ((s.key.life.getD 1 0).toNat + (s.upMin - s.key.runFrom)) 0xFFFFFFFF

/-- The counters as they are now: RUN_MIN runs, LAST_MODULE is this module once it writes. -/
def State.lifeNow (s : State) : List (BitVec 32) := s.key.life.set 1 (BitVec.ofNat 32 s.runMin)

/-- The bytes of a counter area (R520). -/
def State.areaBytes (s : State) (seq : BitVec 32) : List Byte :=
  let e := s.key.epoch
  let b := [0x4C, 0x4E, 0x58, 0x43] ++ wordBytes seq ++ natBytes 2 e.toNat ++ natBytes 2 (~~~ e).toNat ++ natBytes 4 0 ++
    ((List.range 256).map fun n => BitVec.ofNat 8 (s.src n).recCnt) ++
    ((s.lifeNow.set 7 Config.serial).map wordBytes).flatten ++ natBytes 200 0
  b ++ wordBytes (crc32c b)

/-- Bytes that a failed write leaves on the key: no rule states them. -/
def freeBytes (i n : Nat) : List Byte :=
  match n with
  | 0 => []
  | n + 1 => (Config.freeWord i).setWidth 8 :: freeBytes (i + 1) n

/-- A write of the module to the key fails: what it wrote over is open. -/
def State.keyTorn (s : State) (a n : Nat) : State := { s.keyPut a (freeBytes s.free n) with free := s.free + n }

/-- A post-mortem slot holds a valid record (R572, R574). -/
def pmSlotOk (m : Memory) (slot : Nat) : Bool :=
  let h := m.bytes (keySlotAt slot) 512
  let n := bytesAt h 12 4
  h.take 4 == [0x4C, 0x4E, 0x58, 0x50] && decide (512 ≤ n ∧ n ≤ 0x200000) &&
  wordAt h 0x1FC == crc32c (h.take 0x1FC ++ m.bytes (keySlotAt slot + 512) (n - 512))

/-- SEQ of a slot. -/
def pmSeq (m : Memory) (slot : Nat) : BitVec 32 := wordAt (m.bytes (keySlotAt slot + 4) 4) 0

/-- The newest record and the number of valid ones (R574). -/
def State.pmScan (s : State) : State :=
  let ok := (List.range 16).filter fun i => pmSlotOk s.mram i
  let best := ok.foldl (fun (m : Option (BitVec 32 × Nat)) i =>
    match m with
    | some q => if 0 < timeDiff (pmSeq s.mram i) q.1 then some (pmSeq s.mram i, i) else some q
    | none => some (pmSeq s.mram i, i)) none
  { s with key := { s.key with pmNew := best, pmCount := ok.length } }

/-- The fuses (R538, R539). -/
def State.fuses (s : State) : Fuses :=
  { pubkey := if s.bitOf Reg.KEY_FUSE 0 then some (((List.range 8).map fun i => wordBytes (s.rd (Reg.KEY_PUBKEY i))).flatten) else none
    commissioned := s.bitOf Reg.KEY_FUSE 1 }

/-- The image area as far as its image reaches: IMG_LEN bytes and a signature, at most 24 MiB (R518, R525, R528). -/
def State.imageBytes (s : State) (b : Bool) : List Byte :=
  let a := keyImageAt b
  s.mram.bytes a (min 0x1800000 (bytesAt (s.mram.bytes a 64) 8 4 + 64))

/-- Code and section type of an image's check in SYS_IMG_RES. -/
def State.putImgRes (s : State) (b : Bool) (e : Option ImgErr) : State :=
  let v := match e with | some x => x.code * 256 + x.typ | none => 0
  s.setField Reg.SYS_IMG_RES (if b then 0 else 16) 16 v

/-- SCH_LOAD_RES follows the last section checked (R339, R367). -/
def State.noteSchedule (s : State) (img : List Byte) (e : Option ImgErr) : State :=
  match e with
  | none => s.wr Reg.SCH_LOAD_RES 0
  | some x =>
    if x.code = 7 ∧ x.typ = 3 then (s.wr Reg.SCH_LOAD_RES (loadRes (imgSchedule img))).setBit Reg.SCH_EVT 8
    else if x.code = 8 then s.wr Reg.SCH_LOAD_RES 0 else s

/-- An image is refused at start-up (R540, R541). -/
def State.imageRefused (s : State) (b : Bool) (e : ImgErr) : State :=
  let s1 := match e.src with | some n => (s.putImgRes b (some e)).raise n | none => s.putImgRes b (some e)
  if b then s1 else (s1.raise 251).lifeUp 5

/-- The CRC-32C of the CRC fields of nine sections in TYPE order (R555). -/
def setId (crcs : List (BitVec 32)) : Word := crc32c ((crcs.map wordBytes).flatten)

end Sys2Proof.Machine
end

