-- ==== Sys2Proof/Machine/NetOps.lean ====
section
/-! DEFINITION. The network island: setup fields, network time, frame rings, recognised frames, the order mailbox
(R583 to R625). -/

namespace Sys2Proof.Machine

/-- Fields of the setup in effect (R623). -/
def State.netByte (s : State) (off : Nat) : Nat := bytesAt s.sys.cfg.net.bytes off 1
def State.netField (s : State) (off n : Nat) : Nat := bytesAt s.sys.cfg.net.bytes off n
def State.prpMode (s : State) : Bool := s.netByte 0 == 1
/-- An IP address of the setup, in the order of the line. -/
def State.netIp (s : State) (off : Nat) : Nat := beAt s.sys.cfg.net.bytes off 4
/-- The module's own address on a port; in MODE 1 both ports have IP_A (R586). -/
def State.ownIp (s : State) (p : Nat) : Nat := s.netIp (if s.prpMode ∨ p = 0 then 0x10 else 0x14)
def State.statPer (s : State) : Nat := s.netField 0x44 4

/-- Reference ticks of milliseconds. -/
def ms (n : Nat) : Nat := 200000 * n

/-- NT's low 32 bits (R598). -/
def State.ntLow (s : State) : BitVec 32 := s.net.count.setWidth 32

/-- Ticks until NT reaches a count (R593): whole cycles of eight eighths. -/
def Net.ticksTo (x : Net) (adj : Word) (t : Nat) : Nat :=
  let need := t * 2 ^ 32 - x.nt.toNat
  let rate := ((2 ^ 32 : Nat) + adj.toInt).toNat
  let cycles := (need + rate - 1) / rate
  (8 * cycles - x.ph + 4) / 5

/-- Time moves on until NT's low bits reach `t`, where `t` lies in the future by R6 with n = 32. -/
def State.toNt (s : State) (t : BitVec 32) : State :=
  let d := timeDiff t s.ntLow
  if 0 < d then s.elapse (s.net.ticksTo (s.rd Reg.NET_NT_ADJ) (s.net.count.toNat + d.toNat)) else s

/-- NT_LOCKED clears, and FS211 is raised (R597). -/
def State.ntUnlock (s : State) : State :=
  if s.net.locked then
    ({ s with net := { s.net with locked := false, inBand := 0 } }.setBit Reg.NET_EVT 1).raise 211
  else { s with net := { s.net with inBand := 0 } }

/-- The island's latch of NT at a boundary, and what the next status message reports (R596, R621). -/
def State.netBoundary (s : State) : State :=
  if s.open .net then
    let n := s.net.count
    let first := s.rd Reg.FLT_FIRST
    let snap : StatSnap := {
      lease := BitVec.ofNat 8 ((if s.twn.secondary then 128 else 0) + s.twn.lease.code)
      react := BitVec.ofNat 8 (s.reaction + (if s.flt.latch then 4 else 0) + (if s.net.locked then 8 else 0) +
        (if s.net.expired then 16 else 0))
      epoch := s.epoch, pc := s.tb.pc, ordSeq := s.net.lastSeq.getD 0, setId := s.rd Reg.DRF_SET_ID_EFF
      firstFs := if first.getLsbD 31 then first.setWidth 8 else 0xFF
      activeN := s.flt.faults, vtB := s.tb.bound
      entries := (List.range 32).map fun i => (s.rd (Reg.LE_STATV i), s.bitOf (Reg.LE_STATV_Q i) 0) }
    { (s.wr Reg.NET_NT_B_LO (n.setWidth 32)).wr Reg.NET_NT_B_HI (BitVec.ofNat 32 (n.toNat / 2 ^ 32)) with
      net := { s.net with snap := snap } }
  else s

/-- A ring: its size, its head and its tail (NET_RING_SIZE, NET_RING_PTR). -/
def State.ringSize (s : State) (p r : Nat) : Nat := s.field (Reg.NET_RING_SIZE p r) 0 10
def State.ringHead (s : State) (p r : Nat) : Nat := s.field (Reg.NET_RING_PTR p r) 16 10
def State.ringTail (s : State) (p r : Nat) : Nat := s.field (Reg.NET_RING_PTR p r) 0 10

/-- The ring is in service: it has a size, and on NET A and NET B the port's rings are enabled. -/
def State.ringOn (s : State) (p r : Nat) : Bool :=
  decide (0 < s.ringSize p r) && (p == 2 || s.bitOf (Reg.NET_PORT_CTL p) 0)

/-- The address of a descriptor. -/
def State.descAt (s : State) (p r i : Nat) : Nat :=
  s.rdNat (Reg.NET_RING_BASE_LO p r) + 0x100000000 * s.field (Reg.NET_RING_BASE_HI p r) 0 2 + 16 * i

/-- A descriptor (R603). -/
structure Desc where
  addr : Nat
  len : Nat
  flags : Nat
  time : BitVec 32
  deriving DecidableEq, Repr

def State.desc (s : State) (p r i : Nat) : Desc :=
  let b := s.busBytes (s.descAt p r i) 16
  { addr := bytesAt b 0 8, len := bytesAt b 8 2, flags := bytesAt b 10 2, time := wordAt b 12 }

def Desc.bit (d : Desc) (i : Nat) : Bool := d.flags / 2 ^ i % 2 == 1

/-- A buffer in DRAM channel B (R603, R604). -/
def inDram (a n : Nat) : Bool := decide (0x200000000 ≤ a) && decide (a + n ≤ 0x400000000)

/-- Flags of a descriptor that completes: OWN clears, and DONE sets unless the frame was dropped (R603, R604). -/
def doneFlags (d : Desc) (dropped err ptp onB : Bool) : Nat :=
  (d.flags / 2 % 4) * 2 + (if dropped then 16 else 8) + (if err then 32 else 0) + (if ptp then 64 else 0) + (if onB then 128 else 0)

/-- A descriptor completes: LEN, TIME and status first, OWN last; the head moves on (R604). -/
def State.descDone (s : State) (p r i len flags : Nat) (time : BitVec 32) : State :=
  let s1 := s.ramWrite (s.descAt p r i + 8) (natBytes 2 len ++ natBytes 2 flags ++ wordBytes time)
  s1.setField (Reg.NET_RING_PTR p r) 16 10 ((i + 1) % max 1 (s.ringSize p r))

/-- In MODE 1 only the rings of NET A carry traffic, but for what NET B delivers to its own receive ring (R591 and the
section on frame rings). -/
def State.ringCarries (s : State) (p r : Nat) : Bool := !(s.prpMode && p == 1 && r != 0)

/-- The descriptor at the head of a ring that the port may use: firmware has handed it over and OWN is 1 (R604). -/
def State.headDesc (s : State) (p r : Nat) : Option (Nat × Desc) :=
  let i := s.ringHead p r
  let d := s.desc p r i
  if s.ringOn p r ∧ s.ringCarries p r ∧ i ≠ s.ringTail p r ∧ d.bit 0 then some (i, d) else none

/-- Octets of a frame before its payload, and its EtherType: one IEEE 802.1Q tag is skipped (R583, R599). -/
def ethHead (f : List Byte) : Nat := if beAt f 12 2 = 0x8100 then 18 else 14
def ethType (f : List Byte) : Nat := beAt f (ethHead f - 2) 2

/-- UDP over IPv4: destination address, destination port, source address and payload. -/
def udpOf (f : List Byte) : Option (Nat × Nat × Nat × List Byte) :=
  let p := f.drop (ethHead f)
  let ihl := 4 * (bytesAt p 0 1 % 16)
  let u := p.drop ihl
  if ethType f = 0x0800 ∧ bytesAt p 0 1 / 16 = 4 ∧ 20 ≤ ihl ∧ bytesAt p 9 1 = 17 ∧ 8 ≤ u.length then
    some (beAt p 16 4, beAt u 2 2, beAt p 12 4, (u.drop 8).take (beAt u 4 2 - 8))
  else none

/-- A PTP message in a frame, with its place: EtherType 0x88F7, or UDP ports 319 and 320 (R599). -/
def ptpAt (f : List Byte) : Option Nat :=
  let h := ethHead f
  let o := if ethType f = 0x88F7 then some h else
    match udpOf f with
    | some u => if u.2.1 = 319 ∨ u.2.1 = 320 then some (h + 4 * (bytesAt f h 1 % 16) + 8) else none
    | none => none
  match o with
  | some k => if decide (k + 34 ≤ f.length) && bytesAt f (k + 1) 1 % 16 == 2 && decide (bytesAt f (k + 1) 1 / 16 ≤ 1) then some k else none
  | none => none

/-- messageType and sequenceId of a recognised PTP message, zeros for any other frame (R601). -/
def ptpIds (f : List Byte) : BitVec 4 × BitVec 16 :=
  match ptpAt f with
  | some k => (BitVec.ofNat 4 (bytesAt f k 1), BitVec.ofNat 16 (beAt f (k + 30) 2))
  | none => (0, 0)

/-- The Redundancy Control Trailer of a frame: sequence number and LanId (R588). -/
def prpTrailer (f : List Byte) : Option (BitVec 16 × Nat) :=
  let t := f.drop (f.length - 6)
  if 20 ≤ f.length ∧ beAt t 4 2 = 0x88FB then some (BitVec.ofNat 16 (beAt t 0 2), bytesAt t 2 1 / 16) else none

/-- A frame with its trailer for a port (R588). -/
def withTrailer (f : List Byte) (seq : BitVec 16) (p : Nat) : List Byte :=
  f ++ beBytes 2 seq.toNat ++ beBytes 2 ((0xA + p) * 4096 + (f.length - ethHead f + 6) % 4096) ++ beBytes 2 0x88FB

/-- A timestamp: NT at the message timestamp point, moved by a latency in ns and rounded to whole counts. At
completion the point lies one cycle back for each octet of the frame and its check sequence (R600). DEDUCED: log entry
81. -/
def State.stampOf (s : State) (len : Nat) (lat : Int) : BitVec 64 :=
  BitVec.ofInt 64 ((((s.net.ntBack (s.rd Reg.NET_NT_ADJ) (len + 4)).toNat / 2 ^ 32 : Nat) : Int) + (2 * lat + 8) / 16)

/-- The longest frame without its check sequence (R583), and the octets that a frame of a port has on the line before it: with
PRP, NET A's frames have a trailer (R588). -/
def maxFrame : Nat := 1518
def State.wireLen (s : State) (p len : Nat) : Nat := if s.prpMode ∧ p = 0 then len + 6 else len

def State.ingress (s : State) (p len : Nat) : BitVec 64 := s.stampOf len (-((s.field (Reg.NET_LAT_RX p) 0 16 : Nat) : Int))
def State.egress (s : State) (p : Nat) (point : BitVec 64) : BitVec 64 :=
  point + BitVec.ofInt 64 ((2 * ((s.field (Reg.NET_LAT_TX p) 0 16 : Nat) : Int) + 8) / 16)

/-- A frame goes to a receive ring (R603, R604). -/
def State.ringDeliver (s : State) (q : Nat) (f : List Byte) (ts : BitVec 32) (onB : Bool) : State :=
  match s.headDesc q 0 with
  | none => s
  | some (i, d) =>
    let ptp := (ptpAt f).isSome && q != 2
    if inDram d.addr d.len = false ∨ d.len < f.length then
      s.descDone q 0 i d.len (doneFlags d false true ptp onB) ts
    else (s.ramWrite d.addr f).descDone q 0 i f.length (doneFlags d false false ptp onB) ts

/-- Is the frame an order datagram of this module? (R612) -/
def State.isOrder (s : State) (p : Nat) (f : List Byte) : Bool :=
  match udpOf f with
  | some u => p != 2 && u.1 == s.ownIp p && u.2.1 == s.netField 0x38 2
  | none => false

/-- Entries of the duplicate table not yet forgotten (R589). DEDUCED: log entry 82. -/
def State.prpLive (s : State) : List PrpSeen := s.net.prpSeen.filter fun e => decide (s.sys.up < e.tick + ms 400)

/-- A frame with a trailer has come on a path (R592). -/
def State.pathSeen (s : State) (p : Nat) : State :=
  { s with net := { s.net with
    path := s.net.path ||| ((1 : BitVec 2) <<< p), trailerAt := Sparse.put (fun _ => none) s.net.trailerAt p (some s.sys.up) } }

/-- A path is lost; FS210 when the other is lost already (R592). -/
def State.pathLost (s : State) (p : Nat) : State :=
  if s.net.path.getLsbD p then
    let s1 := { s with net := { s.net with path := s.net.path &&& ~~~ ((1 : BitVec 2) <<< p) } }
    s1.raiseIf (s1.net.path == 0) 210
  else s

/-- Duplicate discard of a frame with a trailer: the first copy, if this is the second (R589). `slot`: the descriptor that the
frame would go to. -/
def State.prpTake (s : State) (p : Nat) (mac : BitVec 48) (seq : BitVec 16) (slot : Option Nat) : Option PrpSeen × State :=
  let live := s.prpLive
  match live.find? fun e => e.mac == mac && e.seq == seq with
  | some e => (some e, { s with net := { s.net with prpSeen := live } }.bump Reg.NET_PRP_DUP)
  | none => (none, { s with net := { s.net with prpSeen := ({ mac, seq, tick := s.sys.up, port := p, slot } :: live).take 512 } })

/-- NET A's copy of a frame of which NET B's has been delivered in this very tick takes its place (R590). -/
def State.prpInstead (s : State) (e : PrpSeen) (f : List Byte) (ts : BitVec 32) : State :=
  match e.slot with
  | none => s.ringDeliver 0 f ts false
  | some i =>
    let d := s.desc 0 0 i
    let t := if inDram d.addr f.length ∧ d.bit 5 = false then s.ramWrite d.addr f else s
    t.ramWrite (s.descAt 0 0 i + 8) (natBytes 2 d.len ++ natBytes 2 (d.flags % 128) ++ wordBytes ts)

/-- A message enters the mailbox (R616). -/
def State.ordEnter (s : State) (m : OrdMsg) : State :=
  if s.net.front.isNone then { s with net := { s.net with front := some m } }
  else { s with net := { s.net with back := some m } }.setBitIf s.net.back.isSome Reg.NET_EVT 7

/-- A refusal of an order datagram (R612). -/
def State.ordRefuse (s : State) (code : Nat) : State :=
  let s1 := ((s.setField Reg.NET_ORD_REF 0 8 code).addField Reg.NET_ORD_REF 16 16 1).setBit Reg.NET_EVT 5
  if code = 5 then (s1.setBit Reg.NET_EVT 6).raise 213 else s1

/-- Length of an order message (R611). -/
def ordLen (d : List Byte) : Nat := 32 + 8 * bytesAt d 0x17 1 + (if beAt d 6 2 % 2 = 1 then 8 else 0)

/-- Check 2 of R612. DEDUCED: log entry 83. -/
def ordForm (d : List Byte) : Bool :=
  decide (32 ≤ d.length) && d.take 4 == [0x56, 0x4F, 0x53, 0x50] && bytesAt d 4 1 == 1 && bytesAt d 5 1 == 1 &&
  decide (beAt d 6 2 < 4) && zeroAt d 0x1D 3 && decide (bytesAt d 0x17 1 ≤ 32) && d.length == ordLen d &&
  (List.range (bytesAt d 0x17 1)).all fun i => zeroAt d (0x22 + 8 * i) 2

/-- Check 5: the key is set and the tag matches (R611, R612). -/
def State.ordTag (s : State) (d : List Byte) : Bool :=
  let k := bytesAt d 0x1C 1
  let key := (s.sys.cfg.net.bytes.drop (0x1E0 + 32 * k)).take 32
  let n := 32 + 8 * bytesAt d 0x17 1
  decide (k < 4) && !key.all (· == 0) && (hmacSha256 key (d.take n)).take 8 == (d.drop n).take 8

/-- Check 9 for an entry (R610, R612). -/
def State.ordEntryOk (s : State) (e : List Byte) : Bool :=
  let i := bytesAt e 1 1
  let r := entryAt s.sys.cfg.net.bytes 0x60 12 i
  let v := BitVec.ofNat 32 (beAt e 4 4)
  decide (i < 32) && bytesAt r 0 1 != 0 && bytesAt r 0 1 == bytesAt e 0 1 && fpIn v (wordAt r 4) (wordAt r 8)

/-- Counts of a number of milliseconds of NT. -/
def ntMs (n : Nat) : Nat := 125000 * n

/-- The first check of R612 that fails, 0 when all pass; a repeat fails check 6. -/
def State.ordCheck (s : State) (ip : BitVec 32) (d : List Byte) : Nat :=
  let auth := beAt d 6 2 % 2 == 1
  let seq := BitVec.ofNat 32 (beAt d 0x0C 4)
  let age := (timeDiff s.ntLow (BitVec.ofNat 32 (beAt d 0x10 4))).natAbs
  if (List.range 4).all (fun i => s.netIp (0x28 + 4 * i) == 0 || s.netIp (0x28 + 4 * i) != ip.toNat) then 1
  else if ordForm d = false then 2
  else if beAt d 8 4 ≠ s.netField 0x24 4 then 3
  else if s.netByte 0x4C = 1 ∧ auth = false then 4
  else if auth ∧ s.ordTag d = false then 5
  else if (match s.net.lastSeq with | some l => decide (timeDiff seq l ≤ 0) | none => false) then 6
  else if s.net.locked ∧ s.netField 0x4E 2 ≠ 0 ∧ ntMs (s.netField 0x4E 2) < age then 7
  else if beAt d 6 2 / 2 % 2 = 1 ∧ ((ntMs (s.netField 0x50 2) : Nat) : Int) < timeDiff (BitVec.ofNat 32 (beAt d 0x18 4)) s.ntLow then 8
  else if (List.range (bytesAt d 0x17 1)).all (fun i => s.ordEntryOk (entryAt d 32 8 i)) then 0 else 9

/-- The message that a datagram holds (R609, R610). -/
def ordOf (d : List Byte) : OrdMsg :=
  { seq := BitVec.ofNat 32 (beAt d 0x0C 4), command := BitVec.ofNat 8 (bytesAt d 0x16 1)
    entries := (List.range (bytesAt d 0x17 1)).map fun i =>
      let e := entryAt d 32 8 i
      (BitVec.ofNat 8 (bytesAt e 0 1), BitVec.ofNat 8 (bytesAt e 1 1), BitVec.ofNat 32 (beAt e 4 4)) }

/-- A message is accepted (R614, R616, R617). -/
def State.ordAccept (s : State) (d : List Byte) : State :=
  let m := ordOf d
  let s1 := { s with net := { s.net with
    lastSeq := some m.seq, lifeTo := some (s.sys.up + ms (beAt d 0x14 2)), expired := false } }
  let s2 := (s1.bump Reg.NET_ORD_CNT).wr Reg.NET_ORD_LAST m.seq
  if beAt d 6 2 / 2 % 2 = 1 then
    let at_ := BitVec.ofNat 32 (beAt d 0x18 4)
    if 0 < timeDiff at_ s2.ntLow then
      { s2 with net := { s2.net with held := some (m, at_) } }.setBitIf s2.net.held.isSome Reg.NET_EVT 7
    else s2.ordEnter { m with late := true }
  else s2.ordEnter m

/-- The payload of a status message (R609, R611, R620). -/
def State.statusBytes (s : State) (launch : BitVec 32) : List Byte :=
  let x := s.net.snap
  let n := s.netByte 0x4A
  let fl := s.netByte 0x4B
  let auth := fl / 4 % 2
  let keyId := if auth = 1 then fl / 16 % 4 else 0
  let life := (3 * s.statPer + 999) / 1000
  let head := [0x56, 0x4F, 0x53, 0x50, 1, 2] ++ beBytes 2 auth ++ beBytes 4 (s.netField 0x24 4) ++ beBytes 4 s.net.statSeq.toNat ++
    beBytes 4 launch.toNat ++ beBytes 2 life ++ [0, BitVec.ofNat 8 n] ++ beBytes 4 0 ++ [BitVec.ofNat 8 keyId, 0, 0, 0]
  let block := beBytes 4 Config.serial.toNat ++ [x.lease, x.react] ++ beBytes 2 x.epoch.toNat ++ beBytes 4 x.pc.toNat ++
    beBytes 4 x.ordSeq.toNat ++ beBytes 4 x.setId.toNat ++ [x.firstFs, 0] ++ beBytes 2 x.activeN ++ beBytes 8 x.vtB.toNat
  let ents := ((List.range n).map fun i =>
    let e := x.entries.getD i (0, false)
    [0x10, BitVec.ofNat 8 i, if e.2 then 1 else 0, 0] ++ beBytes 4 e.1.toNat).flatten
  let m := head ++ block ++ ents
  if auth = 1 then m ++ (hmacSha256 ((s.sys.cfg.net.bytes.drop (0x1E0 + 32 * keyId)).take 32) m).take 8 else m

/-- The one's complement sum of 16-bit big-endian words. -/
def onesSum (b : List Byte) (a : Nat) : Nat :=
  match b with
  | [] => a
  | [x] => a + 256 * x.toNat
  | x :: y :: r => onesSum r (a + 256 * x.toNat + y.toNat)

def fold16 (n : Nat) : Nat := let a := n % 65536 + n / 65536; a % 65536 + a / 65536

/-- The bytes of a frame with a stretch replaced. -/
def patch (f : List Byte) (o : Nat) (b : List Byte) : List Byte := f.take o ++ b ++ f.drop (o + b.length)

/-- The UDP checksum of an IPv4 frame formed anew (R602). -/
def udpFix (f : List Byte) : List Byte :=
  let h := ethHead f
  let o := h + 4 * (bytesAt f h 1 % 16)
  let n := beAt f (o + 4) 2
  let g := patch f (o + 6) [0, 0]
  let c := 65535 - fold16 (onesSum ((g.drop o).take n) (onesSum ((g.drop (h + 12)).take 8) (17 + n)))
  patch f (o + 6) (beBytes 2 (if c = 0 then 0xFFFF else c))

/-- The module's own hardware address on a port (R586, R623). -/
def State.ownMac (s : State) (p : Nat) : List Byte := (s.sys.cfg.net.bytes.drop (if s.prpMode ∨ p = 0 then 4 else 10)).take 6

/-- Where a frame to an IPv4 address goes: a group's own address, else that of the host or, outside the port's network, of the
gateway (R621, R623). -/
def State.macFor (s : State) (p ip : Nat) : List Byte :=
  if 0xE0000000 ≤ ip then [0x01, 0x00, 0x5E] ++ beBytes 3 (ip % 0x800000)
  else
    let m := s.netIp (if s.prpMode ∨ p = 0 then 0x18 else 0x1C)
    let near := ip &&& m == s.ownIp p &&& m
    let hop := if near ∨ s.netIp 0x20 = 0 then ip else s.netIp 0x20
    beBytes 6 (Config.arpMac p hop).toNat

/-- The Ethernet header of a frame that the module forms, with the tag of the setup (R623, VLAN). -/
def State.ethOf (s : State) (p : Nat) (dst : List Byte) (type : Nat) : List Byte :=
  let v := s.netField 2 2
  dst ++ s.ownMac p ++ (if v % 4096 = 0 then [] else beBytes 2 0x8100 ++ beBytes 2 v) ++ beBytes 2 type

/-- A UDP datagram of the module in its frame (R621, R623). The values of the IPv4 header that no rule states, type of service,
identification, the bit not to fragment and time to live, are free. DESIGN CHOICE: log entry 84. -/
def State.udpFrame (s : State) (p dst sport dport : Nat) (b : List Byte) (num : Nat) : List Byte :=
  let x := Config.ipFields num
  let head := [0x45, x.setWidth 8] ++ beBytes 2 (28 + b.length) ++ beBytes 2 (fieldOf x 8 16) ++
    beBytes 2 (fieldOf x 24 1 * 0x4000) ++ [BitVec.ofNat 8 (fieldOf x 32 8), 17, 0, 0] ++ beBytes 4 (s.ownIp p) ++ beBytes 4 dst
  let ip := patch head 10 (beBytes 2 (65535 - fold16 (onesSum head 0)))
  udpFix (s.ethOf p (s.macFor p dst) 0x0800 ++ ip ++ beBytes 2 sport ++ beBytes 2 dport ++ beBytes 2 (8 + b.length) ++ [0, 0] ++ b)

/-- The frame of a status message on a port: from ORD_PORT to STAT_DST:STAT_PORT (R621). -/
def State.statusFrame (s : State) (p : Nat) (launch : BitVec 32) : List Byte :=
  s.udpFrame p (s.netIp 0x3C) (s.netField 0x38 2) (s.netField 0x3A 2) (s.statusBytes launch) s.net.statSeq.toNat

/-- A PRP supervision frame, padded to the shortest frame, without its trailer (R592). PRESUMED: log entry 82. -/
def State.supFrame (s : State) : List Byte :=
  let f := s.ethOf 0 [0x01, 0x15, 0x4E, 0x00, 0x01, 0x00] 0x88FB ++ beBytes 2 1 ++ beBytes 2 s.net.supSent.toNat ++ [20, 6] ++
    s.ownMac 0 ++ [0, 0]
  f ++ List.replicate (54 - f.length) 0

/-- One-step: originTimestamp of a Sync message from its egress timestamp (R602). -/
def oneStep (f : List Byte) (ts : BitVec 64) : List Byte :=
  match ptpAt f with
  | some k =>
    if bytesAt f k 1 % 16 = 0 then
      let ns := 8 * ts.toNat
      let g := patch f (k + 34) (beBytes 6 (ns / 1000000000) ++ beBytes 4 (ns % 1000000000))
      if ethType f = 0x88F7 then g else udpFix g
    else f
  | none => f

/-- The frame in transmission on a port: a launch frame or a frame of ring 1. -/
def State.sendingOn (s : State) (p : Nat) : Option (LaunchItem × BitVec 64) := Sparse.get (fun _ => none) s.net.sending p
def State.ring1On (s : State) (p : Nat) : Option (Nat × BitVec 64) := Sparse.get (fun _ => none) s.net.ring1 p
def State.setRing1 (s : State) (p : Nat) (x : Option (Nat × BitVec 64)) : State :=
  { s with net := { s.net with ring1 := Sparse.put (fun _ => none) s.net.ring1 p x } }

/-- The launch ring of a port. -/
def State.launchQ (s : State) (p : Nat) : List LaunchItem := Sparse.get (fun _ => []) s.net.launch p
def State.setLaunch (s : State) (p : Nat) (l : List LaunchItem) : State :=
  { s with net := { s.net with launch := Sparse.put (fun _ => []) s.net.launch p l } }

/-- The indices from one ring position up to another. -/
def ringSpan (k a b n : Nat) : List Nat :=
  match k with
  | 0 => []
  | k + 1 => if a = b then [] else a :: ringSpan k ((a + 1) % max 1 n) b n

/-- NET B's launch ring carries traffic again after MODE 1: the descriptors handed over meanwhile are queued (R624). -/
def State.launchAgain (s : State) (was : Bool) : State :=
  if was && !s.prpMode then
    let q := s.launchQ 1
    let busy := match s.sendingOn 1 with | some (x, _) => [x] | none => []
    let l := (ringSpan 1024 (s.ringHead 1 2) (s.ringTail 1 2) (s.ringSize 1 2)).map LaunchItem.desc
    s.setLaunch 1 (q ++ l.filter fun x => !(q ++ busy).contains x)
  else s

/-- LAUNCH of an item (R603, R609). -/
def State.launchOf (s : State) (p : Nat) (x : LaunchItem) : BitVec 32 :=
  match x with
  | .desc i => (s.desc p 2 i).time
  | .status l _ => l

/-- A status message has been sent: it counts once, however many ports carry it (NET_STAT_CNT). -/
def State.statusSent (s : State) (launch : BitVec 32) : State :=
  if s.net.statSent.contains launch then s
  else { s with net := { s.net with statSent := (launch :: s.net.statSent).take 16 } }.addField Reg.NET_STAT_CNT 16 16 1

/-- A frame has left on a port; with PRP both ports carry it with their trailers (R588). -/
def State.sentFrame (s : State) (p : Nat) (f : List Byte) : State :=
  let put := fun (t : State) (q : Nat) (b : List Byte) =>
    { t with net := { t.net with lastTx := Sparse.put (fun _ => []) t.net.lastTx q b } }
  if s.prpMode ∧ p = 0 then
    let seq := s.net.prpSeq + 1
    put (put { s with net := { s.net with prpSeq := seq } } 0 (withTrailer f seq 0)) 1 (withTrailer f seq 1)
  else put s p f

/-- A transmit timestamp is queued; the oldest of sixteen is lost (R601). -/
def State.txtsPush (s : State) (p : Nat) (f : List Byte) (ts : BitVec 64) : State :=
  let l := Sparse.get (fun _ => []) s.net.txts p
  let e := ((ptpIds f).1, (ptpIds f).2, ts.setWidth 32)
  let l1 := if 16 ≤ l.length then l.drop 1 ++ [e] else l ++ [e]
  { s with net := { s.net with txts := Sparse.put (fun _ => []) s.net.txts p l1 } }.setBitIf (decide (16 ≤ l.length)) Reg.NET_EVT 8

/-- A transmit descriptor completes: the frame, its egress timestamp, its flags; one that names no buffer in channel B, or a frame
longer than the longest, completes with ERROR and sends nothing (R583, R600 to R604). DESIGN CHOICE: log entry 144. -/
def State.txDone (s : State) (p r i : Nat) (point : BitVec 64) : State :=
  let d := s.desc p r i
  if inDram d.addr d.len = false ∨ maxFrame < s.wireLen p d.len then s.descDone p r i d.len (doneFlags d false true false false) d.time
  else
    let f := s.busBytes d.addr d.len
    let ts := if p = 2 then 0 else s.egress p point
    let g := if d.bit 2 && p != 2 then oneStep f ts else f
    let s1 := (s.sentFrame p g).descDone p r i d.len (doneFlags d false false ((ptpAt f).isSome && p != 2) false) (ts.setWidth 32)
    if d.bit 1 && p != 2 then s1.txtsPush p f ts else s1

/-- May a frame of ring 1 of `len` octets be started at `nt`? With GUARD = 1 it must end, with its inter-frame gap, before
LAUNCH of the launch ring's head: 8 octets before it, 4 of its check sequence and 12 of the gap, one count each (R607).
DEDUCED: log entry 118. -/
def State.guardOk (s : State) (p len : Nat) (nt : BitVec 64) : Bool :=
  !(decide (p < 2) && s.bitOf (Reg.NET_PORT_CTL p) 1) ||
  match s.launchQ p with
  | [] => true
  | x :: _ => decide (0 < timeDiff (s.launchOf p x) ((nt + BitVec.ofNat 64 (s.wireLen p len + 24)).setWidth 32))

/-- An idle port starts the frame at the head of ring 1 (R604, R607). -/
def State.txStart (s : State) (p : Nat) : State :=
  match s.sendingOn p, s.ring1On p, s.headDesc p 1 with
  | none, none, some (i, d) => if s.guardOk p d.len s.net.count then s.setRing1 p (some (i, s.net.count + 8)) else s
  | _, _, _ => s

/-- Octets of a launch item's frame on the line. -/
def State.itemLen (s : State) (p : Nat) (x : LaunchItem) : Nat :=
  s.wireLen p (match x with | .desc i => (s.desc p 2 i).len | .status _ b => b.length)

/-- NT at the end of the frame in transmission on a port, its check sequence included; none on an idle port. -/
def State.txEnds (s : State) (p : Nat) : Option (BitVec 64) :=
  match s.sendingOn p, s.ring1On p with
  | some (x, t), _ => some (t + BitVec.ofNat 64 (s.itemLen p x + 4))
  | none, some (i, t) => some (t + BitVec.ofNat 64 (s.wireLen p (s.desc p 1 i).len + 4))
  | none, none => none

/-- The frame in transmission on a port has ended (R600 to R604). -/
def State.frameEnd (s : State) (p : Nat) : State :=
  match s.sendingOn p with
  | some (x, point) =>
    let s1 := { s with net := { s.net with sending := Sparse.put (fun _ => none) s.net.sending p none } }
    match x with
    | .desc i => s1.txDone p 2 i point
    | .status l b => (s1.sentFrame p b).statusSent l
  | none =>
    match s.ring1On p with
    | some (i, point) => (s.setRing1 p none).txDone p 1 i point
    | none => s

end Sys2Proof.Machine
end

