-- ==== Sys2Proof/Machine/ShfOps.lean ====
section
/-! DEFINITION. The shaft channels (R765 to R778), shared by their commands. -/

namespace Sys2Proof.Machine

/-- Fields of a channel's configuration. -/
def State.shfMode (s : State) (ch : Nat) : Nat := s.field (Reg.SHF_CFG ch) 0 3
def State.shfCorr (s : State) (ch : Nat) : Bool := s.bitOf (Reg.SHF_CFG ch) 12

/-- One count up or down, with its wrap and its direction change (R770, R771). -/
def State.shfCount (s : State) (ch : Nat) (up : Bool) : State :=
  let v := s.rd (Reg.SHF_CNT ch)
  let x := s.shf ch
  let turned := match x.dir with | some d => d != up | none => false
  let s1 := (s.wr (Reg.SHF_CNT ch) (if up then v + 1 else v - 1)).setShf ch { x with dir := some up }
  let s2 := if up ∧ v = 0xFFFFFFFF then s1.setBit (Reg.SHF_EVT ch) 1
    else if up = false ∧ v = 0 then s1.setBit (Reg.SHF_EVT ch) 2 else s1
  if turned then (s2.addField (Reg.SHF_ERR ch) 16 16 1).setBit (Reg.SHF_EVT ch) 0 else s2

/-- What one accepted sample of A and B counts (R766, R768, R769). -/
def State.shfAB (s : State) (ch : Nat) (a b : Bool) : State :=
  let x := s.shf ch
  let riseA := a && !x.a
  let riseB := b && !x.b
  match s.shfMode ch with
  | 1 =>
    if x.a ≠ a ∧ x.b ≠ b then (s.addField (Reg.SHF_ERR ch) 0 8 1).setBit (Reg.SHF_EVT ch) 3
    else if x.a = a ∧ x.b = b then s
    else s.shfCount ch (quadUp x.a x.b a b)
  | 2 => if riseA then s.shfCount ch x.b else s
  | 3 => if riseA && riseB then s else if riseA then s.shfCount ch true else if riseB then s.shfCount ch false else s
  | _ => s

/-- The expected count nearest to a latched one, the first in the order of R775 among equals (R776). -/
def nearestIdx (v : Word) (l : List Word) : Word :=
  match l with
  | [] => v
  | [e] => e
  | e :: r =>
    let k := nearestIdx v r
    if (timeDiff e v).natAbs ≤ (timeDiff k v).natAbs then e else k

/-- A rising edge of Z latches the count (R774 to R776). DEDUCED: log entry 91. -/
def State.shfIndex (s : State) (ch : Nat) : State :=
  let x := s.shf ch
  let v := s.rd (Reg.SHF_CNT ch)
  let cpr := s.rd (Reg.SHF_CPR ch)
  let idx := s.rd (Reg.SHF_IDX ch)
  if s.shfMode ch = 0 ∨ 3 < s.shfMode ch then s
  else if cpr = 0 then s.wr (Reg.SHF_IDX ch) v
  else if x.next then (s.wr (Reg.SHF_IDX ch) v).setShf ch { x with ref := true, next := false }
  else
    let want := [idx, idx + cpr, idx - cpr]
    if v ∈ want then s.wr (Reg.SHF_IDX ch) v
    else
      let s1 := (s.wr (Reg.SHF_IDX_BAD ch) v).setBit (Reg.SHF_EVT ch) 4
      let e := nearestIdx v want
      if s.shfCorr ch then (s1.wr (Reg.SHF_CNT ch) (v + (e - v))).wr (Reg.SHF_IDX ch) e else s1

/-- Levels accepted in one sample (R765 to R774). -/
def State.shfSample (s : State) (ch : Nat) (a b z : Bool) : State :=
  let rise := z && !(s.shf ch).z
  let s1 := s.shfAB ch a b
  let s2 := s1.setShf ch { s1.shf ch with a := a, b := b, z := z }
  if rise then s2.shfIndex ch else s2

/-- A write to SHF_CNT: the next index becomes the reference (R773). -/
def State.shfCntWrite (s : State) (ch : Nat) (v : Word) : State :=
  (s.wr (Reg.SHF_CNT ch) v).setShf ch { s.shf ch with ref := false, next := true }

/-- A write to SHF_CFG; a reserved MODE is refused (R766, R767, R774). -/
def State.shfCfgWrite (s : State) (ch : Nat) (v : Word) : State :=
  if 3 < fieldOf v 0 3 then s.setBit (Reg.SHF_EVT ch) 9
  else
    let leaves := s.shfMode ch == 0 && fieldOf v 0 3 != 0
    let s1 := s.wr (Reg.SHF_CFG ch) (v &&& 0x00071007)
    if leaves then s1.setShf ch { s1.shf ch with ref := false, next := true } else s1

/-- ABS_EN (SHF_ABS_CFG). -/
def State.absEn (s : State) (ch : Nat) : Bool := s.bitOf (Reg.SHF_ABS_CFG ch) 31

/-- REQ: a read starts, or is refused (R778). -/
def State.ssiReq (s : State) (ch : Nat) : State :=
  if (s.shf ch).ssi ≠ .idle ∨ s.absEn ch = false then s.setBit (Reg.SHF_EVT ch) 9
  else s.setShf ch { s.shf ch with ssi := .reading }

/-- A boundary request: a read starts, or is skipped and counted (R778). -/
def State.ssiBoundary (s : State) (ch : Nat) : State :=
  let div := s.field (Reg.SHF_ABS_TIME ch) 0 12
  if s.absEn ch = false ∨ s.bitOf (Reg.SHF_ABS_CFG ch) 28 = false ∨ div = 0 ∨ s.tb.pc.toNat % div ≠ 0 then s
  else if (s.shf ch).ssi ≠ .idle then (s.addField (Reg.SHF_ERR ch) 8 8 1).setBit (Reg.SHF_EVT ch) 8
  else s.setShf ch { s.shf ch with ssi := .reading }

/-- At a boundary each channel latches its count and PC, and a boundary request may start (R772, R778). -/
def State.shfBoundary (s : State) : State :=
  if s.powered 10 then
    [0, 1].foldl (fun (t : State) ch =>
      ((t.wr (Reg.SHF_CNT_B ch) (t.rd (Reg.SHF_CNT ch))).wr (Reg.SHF_CNT_B_PC ch) t.tb.pc).ssiBoundary ch) s
  else s

/-- A Gray-coded word as binary (R777). -/
def grayToBin (x : Word) : Word :=
  let x1 := x ^^^ (x >>> 1)
  let x2 := x1 ^^^ (x1 >>> 2)
  let x3 := x2 ^^^ (x2 >>> 4)
  let x4 := x3 ^^^ (x3 >>> 8)
  x4 ^^^ (x4 >>> 16)

/-- A read ends with a word: frame check, Gray code, result (R777). -/
def State.ssiWord (s : State) (ch : Nat) (vt bits : Word) (high : Bool) : State :=
  let n := s.field (Reg.SHF_ABS_CFG ch) 20 6
  let w := bits &&& BitVec.ofNat 32 (2 ^ n - 1)
  let s1 := s.wr (Reg.SHF_ABS_VT ch) vt
  if s1.bitOf (Reg.SHF_ABS_CFG ch) 29 ∧ high then s1.setBit (Reg.SHF_EVT ch) 7
  else (s1.wr (Reg.SHF_ABS_POS ch) (if s1.bitOf (Reg.SHF_ABS_CFG ch) 30 then grayToBin w else w)).setBit (Reg.SHF_EVT ch) 5

/-- A write to SHF_ABS_CFG or SHF_ABS_TIME (R782). -/
def State.absCfgWrite (s : State) (ch : Nat) (time : Bool) (v : Word) : State :=
  let bad := if time then decide (fieldOf v 16 8 = 0) || decide (fieldOf v 0 12 = 0)
    else !decide (8 ≤ fieldOf v 20 6 ∧ fieldOf v 20 6 ≤ 32) || !decide (50 ≤ fieldOf v 10 10 ∧ fieldOf v 10 10 ≤ 1000)
  if bad ∨ (s.shf ch).ssi ≠ .idle then s.setBit (Reg.SHF_EVT ch) 9
  else if time then s.wr (Reg.SHF_ABS_TIME ch) (v &&& 0x00FF0FFF)
  else s.wr (Reg.SHF_ABS_CFG ch) (v &&& 0xF3FFFC7F)

/-- SHF_CNT_CLR (R781). -/
def State.shfCntClr (s : State) (ch : Nat) : State := s.wr (Reg.SHF_ERR ch) 0

end Sys2Proof.Machine
end

