-- ==== Sys2Proof/Machine/Startup.lean ====
section
/-! DEFINITION. Start-up from PD0 power-up to "ready, blocked", its results, and the switching of power domains
(R543 to R549, R578, R64 to R67, R858, R859). -/

namespace Sys2Proof.Machine

/-- The domains beside PD0 and PD1. -/
def otherDomains : List Nat := (List.range 12).map (· + 2)

/-- Start-up ends in FAILED: PD0 and PD1 stay on and every arm port is in OFF (R542, R547). -/
def State.startFail (s : State) (code : Nat) : State :=
  let s1 := otherDomains.foldl State.domainOff s
  { s1 with sys := { s1.sys with stage := 7, stageUp := s1.sys.up, result := code, ready := false } }

/-- The domains of PD_USE (R530). -/
def State.usesDomain (s : State) (d : Nat) : Bool := s.bitOf Reg.SYS_PD_USE d

/-- Stage 1 ends once the bank is charged and measured and the timebase has locked (R543). -/
def State.stageOneDone (s : State) : State :=
  if s.sys.stage = 1 ∧ s.sys.bankOk ∧ s.tb.lock then s.setStage 2 else s

/-- PD0 powers up with a strap (R23, R64, R469, R523, R543, R634). -/
def State.pd0Up (s : State) (secondary : Bool) : State :=
  let s1 := { s with
    tb := { s.tb with lock := true, vt := 0 }
    dsp := { s.dsp with started := 1 }
    twn := { s.twn with secondary := secondary }
    sys := { s.sys with going := true, up := 0, rail := 3, pmLost := false } }
  (s1.setStage 1).setBitIf s.sys.pmLost Reg.SYS_EVT 6

/-- PD0 has lost power, and with it every domain; the key, its slot and the fuses keep what they hold. A record that this
cuts off has overwritten its slot in part (R63, R517, R538, R574). -/
def State.pd0Down (s : State) : State :=
  let fuse := fun (t : State) (a : Nat) => t.wr a (s.rd a)
  let s1 := (Reg.KEY_FUSE :: (List.range 8).map Reg.KEY_PUBKEY).foldl fuse State.reset
  let s2 := { s1 with mram := s.mram, key := { s1.key with present := s.key.present }, free := s.free, pending := s.pending
                      sys := { s1.sys with pmLost := s.sys.pmLost } }
  match s.sys.pm with
  | some r => if s.key.present then s2.keyTorn (keySlotAt r.slot) (512 + r.body.length) else s2
  | none => s2

/-- PD0_POWER_UP: PD0 has power, the timebase locks, VT starts from zero, the slot strap is read and PD1 is on
(R23, R64, R469, R523, R543). SC0 starts in the boot ROM, at address 0 (R634). -/
def execPd0PowerUp (secondary : Bool) (s : State) : Res :=
  .next (if s.sys.going then s else s.pd0Up secondary)

/-- TIMEBASE_LOCK_LOST: TB_LOCK falls and FS7 is raised (R375). -/
def execTimebaseLockLost (s : State) : Res :=
  if s.tb.lock then .next (State.raise { s with tb := { s.tb with lock := false } } 7) else .next s

/-- BANK_CHARGED: the bank is at V_FULL and its capacitance, in µF, has been measured (R564). -/
def execBankCharged (c : BitVec 16) (s : State) : Res :=
  if s.sys.going = false then .next s
  else
    let s1 := ({ s with sys := { s.sys with bankOk := true } }.wr Reg.SYS_HOLD_C (c.setWidth 32)).raiseIf (decide (c.toNat < 1200)) 3
    .next s1.stageOneDone

/-- The key is read at start-up: identity, counters, newest record (R389, R521, R522, R524, R574). -/
def State.readKey (s : State) : State :=
  let id := keyIdOf s.mram
  let s1 := { s with key := { s.key with id := some id, foreign := false } }
  let s2 := (s1.wr Reg.KEY_ID_LO (id.setWidth 32)).wr Reg.KEY_ID_HI (BitVec.ofNat 32 (id.toNat / 2 ^ 32))
  let s3 := s2.loadCounters.pmScan
  if s3.key.life.getD 7 0 = Config.serial then s3 else s3.lifeUp 8

/-- An image is accepted: stage 3 begins, and the domains of PD_USE are switched on (R539, R541, R543, R578). -/
def State.acceptImage (s : State) (b : Bool) (img : List Byte) : State :=
  let c := sectionsOf img
  let use := (c.dev.getD {}).pdUse
  let s1 := (s.noteSchedule img none).setBitIf b Reg.SYS_EVT 1
  let s2 := { s1 with
    sys := { s1.sys with img := some c, imgCrcs := (List.range 9).map (sectCrc img), imgSeq := wordAt img 0x10, imageB := b
                         sigChecked := s1.bitOf Reg.KEY_FUSE 0 }
    flt := { s1.flt with factory := imgFactory img } }
  let s3 := (s2.lifeUp 0).wr Reg.SYS_PD_USE (use.setWidth 32)
  otherDomains.foldl (fun t d => if use.getLsbD d then t.domainOn d else t) (s3.setStage 3)

/-- IMAGE_CHECK: the key is read and its images are checked, A first (R540 to R542). -/
def execImageCheck (s : State) : Res :=
  if s.sys.going = false ∨ s.sys.stage ≠ 2 then .next s
  else if s.key.present = false then .next (s.startFail 0x11)
  else if keyHeaderOk s.mram = false then .next (s.startFail 0x12)
  else
    let s1 := s.readKey.wr Reg.SYS_IMG_RES 0
    let a := s1.imageBytes false
    match imgCheck a s1.fuses with
    | none => .next (s1.acceptImage false a)
    | some e =>
      let s2 := (s1.noteSchedule a (some e)).imageRefused false e
      let b := s2.imageBytes true
      match imgCheck b s2.fuses with
      | none => .next (s2.acceptImage true b)
      | some f => .next (((s2.noteSchedule b (some f)).imageRefused true f).startFail 0x13)

/-- A source whose restored count is not less than its limit starts in LOCKED (R389). -/
def State.lockRestored (s : State) (n : Nat) : State :=
  let x := s.src n
  if 0 < x.entry.recLim ∧ x.entry.recLim ≤ x.recCnt ∧ reservedSrc n = false ∧ n ≠ 15 then
    State.settle s ((s.setSrc n { x with st := .locked }).lockedNow) s.now
  else s

/-- The sections of the accepted image take effect (R343, R378, R515, R531 to R537, R543, R555, R715). -/
def State.putInEffect (s : State) (c : Sections) : State :=
  let s1 := (s.applyTopo (c.topo.getD {})).applyDev (c.dev.getD {})
  let s2 := s1.applyFlt (c.flt.getD {}) true
  let s3 := (List.range 256).foldl State.lockRestored s2
  let s4 := (s3.applyRecs (c.recs.getD [])).applySch (c.sch.getD {})
  let s5 := ({ s4 with sys := { s4.sys with loaded := 0, cfg := { s4.sys.cfg with par := c.par.getD {} } } }).loadEngines
  let s6 := (s5.applyNet (c.net.getD {})).applySafety (c.saf.getD [])
  let s7 := s6.bootFirmware (c.fw.getD (0, 0, []))
  { s7 with drf := { s7.drf with crcs := s7.sys.imgCrcs } }.wr Reg.DRF_SET_ID_EFF (setId s7.sys.imgCrcs)

/-- Stage 4 begins: TX_EN is set on every port in PORT_MASK and, with TWIN_EN = 1, on X13; the lease state is INIT
(R543). -/
def State.beginPorts (s : State) : State :=
  let s1 := s.setStage 4
  let s2 := { s1 with twn := { s1.twn with lease := .init, initAt := s1.now } }
  let l := s2.portsUsed ++ (if s2.twinEn then [12] else [])
  l.foldl (fun t p => t.laneCtl p (t.rd (Reg.PRT_LANE_CTL p) ||| 4)) s2

/-- DOMAIN_SELF_TEST_DONE: the domains of PD_USE have been tested; on a pass the configuration takes effect and firmware
runs, otherwise start-up ends with result 0x14 (R543, R546). -/
def execDomainSelfTestDone (pass : Bool) (s : State) : Res :=
  if s.sys.stage ≠ 3 then .next s
  else if pass = false then .next (s.startFail 0x14)
  else match s.sys.img with
    | some c => .next (s.putInEffect c).beginPorts
    | none => .next s

/-- The first tick at least 1,000 ticks on at which b(0) + E_START falls on a block boundary (R128, R544). -/
def State.firstBoundary (s : State) : BitVec 64 :=
  let t := s.now.toNat + 1000
  BitVec.ofNat 64 (t + (4 - (t + s.sec.eStart) % 4) % 4)

/-- The module's own grid: PC takes 0 at b(0) (R544). -/
def State.placeOwn (s : State) : State :=
  { s with tb := { s.tb with placed := true, pc := 0, period := s.sec.p, nextB := s.firstBoundary } }

/-- The grid of the partner from a checkpoint header: the next boundary after this tick (R472, R544). -/
def State.placeFrom (s : State) (b : List Byte) : State :=
  let p := max 1 (bytesAt b 0x10 2)
  let vt := BitVec.ofNat 64 (bytesAt b 8 8)
  let k := (timeDiff s.now vt).toNat / p + 1
  { s with tb := { s.tb with placed := true, pc := BitVec.ofNat 32 (bytesAt b 0 4 + k), period := p
                             nextB := vt + BitVec.ofNat 64 (k * p) } }

/-- FIRST_BOUNDARY_PLACE: the time owner places b(0), be it alone, the primary of a pair of which neither holds the lease, or
one that has heard no partner; an aligned module takes the grid of its partner (R473, R544). DEDUCED: log entry 127. -/
def execFirstBoundaryPlace (s : State) : Res :=
  if s.sys.stage ≠ 4 ∨ s.tb.placed ∨ s.sch.cur.isNone then .next s
  else if s.twinEn = false ∨ (s.twn.ofsSet = false ∧ s.twn.partner.isSome ∧ s.timeOwner) then
    .next ({ s with twn := { s.twn with ofsSet := true, owner := true } }.placeOwn)
  else if s.twn.ofsSet = false then .next s
  else if s.twn.owner then .next s.placeOwn
  else match s.twn.held with
    | some b => .next (s.placeFrom b)
    | none => .next s

/-- The conditions of R545, but for the lease. -/
def State.portsReady (s : State) : Bool :=
  s.tb.run && s.portsUsed.all fun n => (s.lane n).inData && (s.port n).censusOk && (s.port n).calDone

/-- The lease state lets start-up end: DUTY, ZEPHYR, or INIT with the partner as the holder (R495, R545). -/
def State.leaseReady (s : State) : Bool :=
  s.duty || s.twn.lease == .zephyr || (s.twn.lease == .init && s.twinEn && s.partnerHolds)

/-- A module in INIT whose partner is DUTY enters ZEPHYR (R495). -/
def State.initZephyr (s : State) : State := if s.twn.lease = .init then (s.setLease .zephyr).enginesOff else s

/-- READY_BLOCKED: stage 6 is reached once R545 holds; a module whose partner is DUTY is now in ZEPHYR, as is one that comes
back to INIT in stage 6 (R495, R545). -/
def execReadyBlocked (s : State) : Res :=
  if s.portsReady = false ∨ s.leaseReady = false then .next s
  else if s.sys.stage = 6 then .next s.initZephyr
  else if s.sys.stage ≠ 5 then .next s
  else
    let s1 := s.initZephyr
    let s2 := s1.setStage 6
    let s3 := { s2 with sys := { s2.sys with result := 1, ready := true } }
    .next ((s3.wr Reg.SYS_START_T (BitVec.ofNat 32 (s3.sys.up / 200))).setBit Reg.SYS_EVT 0)

/-- The bound of a stage, in ticks (R543). -/
def stageBound (k : Nat) : Nat :=
  match k with
  | 1 => us 2000000 | 2 => us 200000 | 3 => us 60000 | 4 => us 101000 | _ => us 31000

/-- The result of a stage that has run past its bound (R547, R548). -/
def State.boundResult (s : State) : State :=
  match s.sys.stage with
  | 1 => s.startFail 0x10
  | 2 => s.startFail (if s.key.present then 0x12 else 0x11)
  | 3 => s.startFail (if otherDomains.all fun d => !s.usesDomain d || s.sys.rail.getLsbD d then 0x14 else 0x15)
  | 4 => { s with sys := { s.sys with result := 0x20 } }
  | 5 => { s with sys := { s.sys with result := 0x21 } }
  | _ => s

/-- START_STAGE_BOUND: a stage has lasted as long as its bound (R543, R547, R548). DEDUCED: log entry 75. -/
def execStartStageBound (s : State) : Res :=
  if s.sys.going = false ∨ s.sys.stage = 0 ∨ 5 < s.sys.stage then .next s
  else .next (s.elapse (s.sys.stageUp + stageBound s.sys.stage - s.sys.up)).boundResult

/-- May firmware switch this domain now? (R578) -/
def State.maySwitch (s : State) (d : Nat) : Bool :=
  s.usesDomain d && (if d = 10 then decide (4 ≤ s.sys.stage ∧ s.sys.stage ≤ 6)
    else decide (5 ≤ d ∧ d ≤ 8) && s.flt.latch && !s.holds)

/-- One bit of a write to SYS_PD_CTL (R63, R578). -/
def State.switchBit (s : State) (v : Word) (d : Nat) : State :=
  if v.getLsbD d = s.powered d then s
  else if s.maySwitch d = false then s.setBit Reg.SYS_EVT 2
  else if v.getLsbD d then s.domainOn d else s.domainOff d

/-- A write to SYS_PD_CTL: each bit by itself (R578). DEDUCED: log entry 76. -/
def State.pdCtl (s : State) (v : Word) : State := otherDomains.foldl (fun t d => t.switchBit v d) s

/-- DOMAIN_SWITCH: a write to SYS_PD_CTL (R578). -/
def execDomainSwitch (v : Word) (s : State) : Res := s.via .sys fun t => t.pdCtl v

/-- DOMAIN_POWER_ON: the rail of a domain that has been switched on is good; engines take the configuration in effect
(R578, R859). -/
def execDomainPowerOn (d : Fin 14) (s : State) : Res :=
  if s.powered d = false ∨ s.sys.rail.getLsbD d then .next s
  else
    let s1 := { s with sys := { s.sys with rail := s.sys.rail ||| ((1 : BitVec 14) <<< (d : Nat)) } }
    .next (if (d : Nat) = 2 ∨ (d : Nat) = 3 ∨ (d : Nat) = 4 then s1.loadEngines else s1)

/-- Is this a time at which a domain beside PD0 and PD1 may go off by itself? Firmware may switch it, or a module in ZEPHYR
that makes no claim runs without the engines; a shed and a cut-off switch their domains off themselves (R66, R67, R498,
R502, R567, R578, R850). DEDUCED: log entry 113. -/
def State.mayGoOff (s : State) (d : Nat) : Bool :=
  decide (2 ≤ d) && (s.maySwitch d || (decide (d ≤ 4) && s.twn.lease == .zephyr && s.twn.claim.isNone))

/-- DOMAIN_POWER_OFF: a domain goes off at a time at which it may; its queued words are lost without an event (R66). -/
def execDomainPowerOff (d : Fin 14) (s : State) : Res := .next (if s.mayGoOff d then s.domainOff d else s)

/-- RAIL_OUT_OF_RANGE: the rail of a switched domain is out of its range (R375, R547, R578). -/
def execRailOutOfRange (d : Fin 14) (s : State) : Res :=
  if (d : Nat) < 2 ∨ s.powered d = false then .next s
  else if s.sys.stage = 3 ∧ s.usesDomain d ∧ s.sys.rail.getLsbD d = false then .next (s.startFail 0x15)
  else .next (State.raise { s with sys := { s.sys with rail := s.sys.rail &&& ~~~ ((1 : BitVec 14) <<< (d : Nat)) } } 4)

/-- A 24 V feed supplies the running module: its feeds are not lost, or one has come back in a shed (R63, R566, R568). DEDUCED:
log entry 113. -/
def State.fed (s : State) : Bool := s.sys.going && (s.sys.riding.isNone || s.sys.feedBack)

/-- A feed or the hold-up bank supplies PD0: the bank does as long as its measured voltage is not below V_MIN (R63, R562,
R567). DEDUCED: log entry 113. -/
def State.supplied (s : State) : Bool := s.fed || (s.sys.going && decide (4000 ≤ s.rdNat Reg.SYS_HOLD_V))

/-- PD0_POWER_DOWN: the bank falls below V_MIN. Unless feed or bank supplies the module, PD0 loses power, and with it every
domain; the key, its slot and the fuses keep what they hold (R63, R517, R538, R567, R850). -/
def execPd0PowerDown (s : State) : Res := .next (if s.supplied then s else s.pd0Down)

end Sys2Proof.Machine
end

