-- ==== Sys2Proof/Machine/Boundary.lean ====
section
/-! DEFINITION. What start-up, the twin and the peripherals do at a period boundary. -/

namespace Sys2Proof.Machine

/-- A stored critical register whose pair is broken raises the supervisor island's integrity fault at every boundary
(R49, R51, FS14). DESIGN CHOICE: log entry 124. -/
def State.pairAudit (s : State) : State :=
  s.raiseIf ((s.paired Reg.TWN_EPOCH).isNone || (s.paired Reg.PWM_ARM_CMD).isNone) 14

/-- Start-up's fourth stage may end, a claim from INIT may begin, health is looked at, NT is latched, and the
shaft counts are (R493, R496, R543, R596, R772, R778). -/
def State.otherBoundary (s : State) : State := s.pairAudit.stageFourDone.initClaim.noteHealth.netBoundary.shfBoundary

end Sys2Proof.Machine
end

