-- ==== Sys2Proof/Machine/Inject.lean ====
section
/-! DEFINITION. Test-signal injection and frequency response (R306 to R311, R315, R317). -/

namespace Sys2Proof.Machine

def State.setInj (s : State) (x : Injector) : State := { s with isl := { s.isl with inj := x } }

/-- The mode of LE_INJ_CTL: 1 PRBS, 2 chirp, 3 stepped sine. -/
def State.injMode (s : State) : Nat := s.field Reg.LE_INJ_CTL 16 2

/-- Number of table entries and an entry's frequency. -/
def State.injNf (s : State) : Nat := s.field Reg.LE_INJ_NF 0 7
def Injector.freq (x : Injector) (i : Nat) : BitVec 32 := Sparse.get (fun _ => 0) x.freqs i
def Injector.ent (x : Injector) (i : Nat) : InjEnt := Sparse.get (fun _ => {}) x.ents i
def Injector.setEnt (x : Injector) (i : Nat) (e : InjEnt) : Injector :=
  { x with ents := Sparse.put (fun _ => {}) x.ents i e }

/-- A frequency lies strictly between 0 and half the control rate (R306). -/
def freqOk (f : BitVec 32) (p : Nat) : Bool :=
  !fpSpecial f && decide (0 < fpInt f) && decide (fpInt f * ((2 * p * 5 : Nat) : Int) < (2 ^ 149 * 1000000000 : Nat))

/-- Does some INJ block of the composition serve a point? (R306) -/
def State.injPoint (s : State) (pt : Nat) : Bool :=
  (List.range 4).any fun e => (s.sec.cueList e).any fun c =>
    c.block == 0x2B && (List.range c.lanes).any fun l => fpNat ((s.le e).param (c.param + l)).1 == pt

/-- May a run start? (R306, R317) -/
def State.injMay (s : State) : Bool :=
  let pt := s.field Reg.LE_INJ_CTL 8 5
  s.isl.injAllow && !s.isl.inj.active && s.injPoint pt && fpLe (s.rd Reg.LE_INJ_AMP) (s.isl.injAmp.getD pt 0) &&
  decide (0 < s.injNf) && decide (s.injNf ≤ 64) && decide (s.injMode ≠ 0) &&
  (List.range s.injNf).all fun i => freqOk (s.isl.inj.freq i) s.per

/-- Periods of `n` cycles of a frequency, rounded (R308). -/
def cyclesOf (n : Nat) (f : BitVec 32) (p : Nat) : Nat :=
  let d := (fpInt f).toNat * p * 5
  if d = 0 then 0 else (2 * n * (2 ^ 149 * 1000000000) + d) / (2 * d)

/-- Periods of one sequence of PRBS (R308). -/
def State.prbsLen (s : State) : Nat :=
  (2 ^ s.field Reg.LE_INJ_PRBS 16 4 - 1) * (s.field Reg.LE_INJ_PRBS 8 6 + 1)

/-- Periods of settling and of the record, for the entry in progress (R308). -/
def State.injSettle (s : State) (i : Nat) : Nat :=
  match s.injMode with
  | 1 => s.prbsLen
  | 3 => cyclesOf (s.field Reg.LE_INJ_STEP 8 8) (s.isl.inj.freq i) s.per
  | _ => 0
def State.injRecord (s : State) (i : Nat) : Nat :=
  match s.injMode with
  | 1 => s.prbsLen * (s.field Reg.LE_INJ_PRBS 0 4 + 1)
  | 2 => s.field Reg.LE_INJ_LEN 0 24
  | _ => cyclesOf (s.field Reg.LE_INJ_STEP 0 8) (s.isl.inj.freq i) s.per

/-- The second tap of the sequence's polynomial (R308). -/
def prbsTap (nb : Nat) : Nat := match nb with | 7 => 6 | 9 => 5 | 11 => 9 | _ => 14

/-- One step of the sequence register. -/
def prbsStep (nb x : Nat) : Nat :=
  let bit := (x / 2 ^ (nb - 1) + x / 2 ^ (prbsTap nb - 1)) % 2
  (2 * x + bit) % 2 ^ nb

/-- A phase in turns of 2^-64 times 2π, in units of 2^-64. -/
def turnAngle (t : Nat) : Nat := t * twoPi64 / 2 ^ 64

/-- The phase of frequency `f` after `k` periods, in turns of 2^-64. -/
def phaseTurn (f : BitVec 32) (k p : Nat) : Nat :=
  ((fpInt f).toNat * (k * p * 5) * 2 ^ 64 / (2 ^ 149 * 1000000000)) % 2 ^ 64

/-- The phase of the chirp after `k` of `len` periods, in turns of 2^-64 (R308): the integral of a frequency that moves
from F0 to F1 linearly, or logarithmically, in proportion to (F1 / F0)^(k / len). DESIGN CHOICE: log entry 41. -/
def chirpPhase (f0 f1 : BitVec 32) (len k p : Nat) (log : Bool) : Option Nat :=
  let a := fpInt (fpFlush f0)
  let b := fpInt (fpFlush f1)
  let unit : Int := (2 ^ 149 * 1000000000 : Nat)
  let tick : Int := (5 * p * 2 ^ 64 : Nat)
  if fpSpecial f0 || fpSpecial f1 || (log && (decide (a ≤ 0) || decide (b ≤ 0))) then none
  else if log = false ∨ a = b then
    some ((a * (2 * len * k : Nat) + (b - a) * (k * k : Nat)) * tick / (unit * (2 * len : Nat)) % (2 ^ 64 : Nat)).toNat
  else
    let l := lnRatio b.toNat a.toNat
    some (a * (len : Nat) * (exp192 (l * (k : Nat) / (len : Nat)) - (2 ^ 192 : Nat)) * tick / (unit * l) % (2 ^ 64 : Nat)).toNat

/-- s of the period in progress (R308). -/
def State.injSignal (s : State) (x : Injector) : BitVec 32 :=
  let amp := s.rd Reg.LE_INJ_AMP
  match s.injMode with
  | 1 => if (decide (x.lfsr / 2 ^ (s.field Reg.LE_INJ_PRBS 16 4 - 1) % 2 = 1)) = Config.prbsHigh then amp else fpMinus amp
  | 2 =>
    let t := if x.t = 0 then 0
      else
        let f0 := s.rd Reg.LE_INJ_F0
        let f1 := s.rd Reg.LE_INJ_F1
        (chirpPhase f0 f1 (s.field Reg.LE_INJ_LEN 0 24) x.t s.per (s.bitOf Reg.LE_INJ_LEN 24)).getD
          (Config.chirpTurn f0 f1 (s.rd Reg.LE_INJ_LEN) x.t).toNat
    fpMul amp (fpOf64 (sin64 (turnAngle t)))
  | _ => fpMul amp (fpOf64 (sin64 (turnAngle (phaseTurn (x.freq x.idx) x.t s.per))))

/-- A settling span, or where it has no length the record, begins for entry `i` (R308). -/
def State.injBegin (s : State) (x : Injector) (i : Nat) : Injector :=
  let y := { x with idx := i, k := 0, t := 0, read := false, bitAge := 0, refusedRun := false,
                    lfsr := 2 ^ s.field Reg.LE_INJ_PRBS 16 4 - 1 }
  if s.injSettle i = 0 then { y with st := .measuring, len := s.injRecord i }
  else { y with st := .settling, len := s.injSettle i }

/-- A write of START (R306, R315). -/
def State.injStart (s : State) : State :=
  if s.injMay then
    let x := s.injBegin { s.isl.inj with ents := [], going := false, s := 0 } 0
    (s.setInj x).clrBit Reg.LE_INJ_CTL 1
  else
    let s1 := (s.setBit Reg.LE_ISL_EVT 4).clrBit Reg.LE_INJ_CTL 1
    if s.isl.inj.active then s1.setInj { s.isl.inj with refusedRun := true }
    else s1.setInj { s.isl.inj with st := .refused, refusedRun := false }

/-- A write of STOP (R310). -/
def State.injStop (s : State) : State := if s.isl.inj.active then s.injAbort else s.clrBit Reg.LE_INJ_CTL 2

/-- INJ_START: START is written with the control word's mode and point (R306). -/
def execInjStart (mode : BitVec 2) (pt : BitVec 5) (s : State) : Res :=
  s.via (.le 0) fun t =>
    (if t.isl.inj.active then t
     else t.wr Reg.LE_INJ_CTL (putField mode.toNat 16 ||| putField pt.toNat 8)).injStart

/-- INJ_STOP: STOP is written (R310). -/
def execInjStop (s : State) : Res := s.via (.le 0) State.injStop

/-- One product into a correlation sum. -/
def corrAdd (c : BitVec 32 × BitVec 32) (a w : BitVec 32) : BitVec 32 × BitVec 32 := fpWideAdd c (fpMul a w)

/-- The samples of a period go into an entry's sums (R309, R311). -/
def InjEnt.take (e : InjEnt) (f : BitVec 32) (k p : Nat) (a b : Slot) : InjEnt :=
  let t := turnAngle (phaseTurn f k p)
  let re := fpOf64 (cos64 t)
  let im := fpMinus (fpOf64 (sin64 t))
  { e with
    caRe := corrAdd e.caRe a.v re, caIm := corrAdd e.caIm a.v im
    cbRe := corrAdd e.cbRe b.v re, cbIm := corrAdd e.cbIm b.v im
    heldSeen := e.heldSeen || a.held || b.held }

/-- The entries that share the record in progress. -/
def State.injEntries (s : State) : List Nat := if s.injMode = 3 then [s.isl.inj.idx] else List.range s.injNf

/-- The slots A and B of LE_INJ_MEAS. -/
def State.injSlots (s : State) : Slot × Slot :=
  let m := s.rd Reg.LE_INJ_MEAS
  let get := fun (e i : Nat) => (((s.le e).settle s.now).slot i)
  (get (fieldOf m 14 2) (fieldOf m 0 13), get (fieldOf m 30 2) (fieldOf m 16 13))

/-- The injector reads A and B at the end of the compute phase, once a period (R307, R309, R311). -/
def State.injRead (s : State) : State :=
  let x := s.isl.inj
  if x.st = .measuring ∧ x.going ∧ x.read = false ∧ x.k < x.len then
    let ab := s.injSlots
    let y := s.injEntries.foldl (fun z i => z.setEnt i ((z.ent i).take (z.freq i) x.k s.per ab.1 ab.2)) x
    s.setInj { y with read := true }
  else s

/-- The signal advances by one period (R308). -/
def State.injStep (s : State) (x : Injector) : Injector :=
  let h := s.field Reg.LE_INJ_PRBS 8 6 + 1
  let y := { x with t := x.t + 1, read := false }
  if x.bitAge + 1 < h then { y with bitAge := x.bitAge + 1 }
  else { y with bitAge := 0, lfsr := prbsStep (s.field Reg.LE_INJ_PRBS 16 4) x.lfsr }

/-- The injector at a boundary (R307, R308, R310). -/
def State.injBoundary (s : State) : State :=
  let x := s.isl.inj
  if x.active = false then (if x.s = 0 then s else s.setInj { x with s := 0 })
  else if x.going = false then s.setInj { x with going := true, s := s.injSignal x }
  else
    let y := s.injStep { x with k := x.k + 1 }
    let z := if x.st = .settling ∧ x.len ≤ x.k + 1 then { y with st := .measuring, k := 0, len := s.injRecord x.idx, refusedRun := false } else y
    s.setInj { z with s := s.injSignal z }

/-- Gain, phase, |ca| / N and VALID of an entry (R309, R311). -/
def InjEnt.finish (e : InjEnt) (n : Nat) (aMin : BitVec 32) : InjEnt :=
  let ar := fpNarrow e.caRe
  let ai := fpNarrow e.caIm
  let br := fpNarrow e.cbRe
  let bi := fpNarrow e.cbIm
  let abs2 := fun x y => fpSqrt (fpAdd (fpMul x x) (fpMul y y))
  let den := fpAdd (fpMul ar ar) (fpMul ai ai)
  let re := fpDiv (fpAdd (fpMul br ar) (fpMul bi ai)) den
  let im := fpDiv (fpSub (fpMul bi ar) (fpMul br ai)) den
  let ang : Nat := if fpSpecial re ∨ fpSpecial im then 0 else atan64 (fpInt im) (fpInt re)
  let deg : Int := if (pi64 : Int) < ang then (ang : Int) - twoPi64 else ang
  let amag := fpDiv (abs2 ar ai) (fpOfInt n)
  { e with complete := true, gain := abs2 re im, phase := fpRound (deg * 180 * (2 ^ 149 : Nat)) pi64, amag := amag
           valid := fpLe aMin amag && !e.heldSeen }

/-- INJ_RECORD_END: at the end of a record its entries get their results; the next entry begins, or the run ends with
DONE (R309 to R311). -/
def execInjRecordEnd (s : State) : Res :=
  let x := s.isl.inj
  if x.st = .measuring ∧ x.len ≤ x.k then
    let y := s.injEntries.foldl (fun z i => z.setEnt i ((z.ent i).finish x.len (s.rd Reg.LE_INJ_AMIN))) x
    if s.injMode = 3 ∧ x.idx + 1 < s.injNf then
      let z := s.injBegin y (x.idx + 1)
      .next (s.setInj { z with s := s.injSignal z })
    else .next ((s.setInj { y with st := .done, s := 0, refusedRun := false }).clrBit Reg.LE_INJ_CTL 1)
  else .next s

/-- The first emit of a takeover is a cause for a post-mortem record (R502, R569). -/
def State.takeoverEmit (s : State) : State :=
  if s.twn.firstEmit then { s with twn := { s.twn with firstEmit := false } }.pmCause 2 else s

/-- EMIT_START: at b(k) + E_START it is settled whether a frame goes out and whether it blocks the arm; the frame for period
k + 1 starts on the first block boundary from then on (R127, R128, R241, R291, R307, R360, R363, R396). The first
emit of a takeover is a cause for a record (R569). -/
def execEmitStart (p : Fin 12) (s : State) : Res :=
  if s.tb.run = false ∨ s.inUse p = false ∨ s.open (.port p) = false then .next s
  else
    let s1 := (s.advanceTo s.emitAt).injRead
    let x := s1.port p
    match x.plan with
    | .none => .next (if (x.sent.head?.map (·.pc)) = some (s.tb.pc + 1) then s1 else s1.setPort p { x with framesOn := false })
    | .send kind cs =>
      if s1.framesDue p = false then .next (s1.setPort p { x with framesOn := false, plan := .none })
      else
        let s2 := s1.takeoverEmit
        .next (if s2.blockAt p s2.emitAt then s2.sendFrame p .blockArm (s2.blockFrame p) else s2.sendFrame p kind cs)

/-- What LE_CNT_CLR clears (R314). -/
def State.leCntClr (s : State) (e : Nat) : State :=
  s.clearAll [Reg.LE_CNT_NUM e, Reg.LE_CNT_PAIR e, Reg.LE_CNT_LVCLAMP e]

/-- LE_CNT_CLR: a write of 1 to bit 0 (R314). -/
def execLeCntClr (e : Fin 4) (s : State) : Res := s.via (.le e) fun t => t.leCntClr e

/-- Bits set in LE_EDDY_CLEAR (R299, R300). -/
def State.eddyClear (s : State) (v : BitVec 16) : State :=
  let s1 := s.wr Reg.LE_EDDY_CLEAR (s.rd Reg.LE_EDDY_CLEAR ||| v.setWidth 32)
  let new := (List.range 16).filter fun c => v.getLsbD c && !s.bitOf Reg.LE_EDDY_CLEAR c
  { s1 with isl := { s1.isl with eddyClr := s1.isl.eddyClr ++ new.map fun c => (c, s.now) } }

/-- EDDY_CLEAR: bits are written to LE_EDDY_CLEAR (R299, R300). -/
def execEddyClear (bits : BitVec 16) (s : State) : Res := s.via (.le 0) fun t => t.eddyClear bits

end Sys2Proof.Machine
end

