-- ==== Sys2Proof/Machine/Channels.lean ====
section
/-! DEFINITION. Handshake channels, tags, period markers, transfers and the credit audit
(R27, R38 to R53, R65 to R67, R326 to R330, R346 to R357). -/

namespace Sys2Proof.Machine

/-- The key of a channel and its depth D (R38). -/
def chanKey (src dst : Nat) : Nat := 64 * src + dst
def chanD (k : Nat) : Nat := 8 + Config.chanDepth k % 57

/-- Both ends of a channel are powered (R44, R47). -/
def State.chanOn (s : State) (k : Nat) : Bool := s.powered (islandDomain (k / 64)) && s.powered (islandDomain (k % 64))

/-- WORD_SEND: with a credit the word leaves; without one the sender holds it; towards an unpowered end nothing changes
(R38, R65, R349). -/
def execWordSend (src dst : Fin 34) (w : HWord) (s : State) : Res :=
  let k := chanKey src dst
  let c := s.chan k
  if s.chanOn k = false then .next s
  else if c.used < chanD k then
    .next (s.setChan k { c with used := c.used + 1, words := c.words ++ [w], waitSince := none })
  else .next (s.setChan k { c with waitSince := some (c.waitSince.getD s.now) })

/-- CREDIT_WAIT_TIMEOUT: a word held for more than 4 ticks without a credit (R349, R366). -/
def execCreditWaitTimeout (src dst : Fin 34) (s : State) : Res :=
  match (s.chan (chanKey src dst)).waitSince with
  | some t => .next (((s.advanceTo (t + 5)).setBit Reg.SCH_EVT 4).raiseOnce 54)
  | none => .next s

/-- CREDIT_RETURN: the sender's count rises, or the credit is discarded as in excess of D (R39, R46, R65). -/
def execCreditReturn (src dst : Fin 34) (s : State) : Res :=
  let k := chanKey src dst
  let c := s.chan k
  if s.chanOn k = false then .next s
  else if c.used = 0 then .next (s.raise 10)
  else .next (s.setChan k { c with used := c.used - 1, returning := c.returning - 1 })

/-- The credit audit of a boundary (R44 to R47). -/
def State.creditAudit (s : State) : State :=
  s.tb.chans.foldl (fun t e =>
    if t.chanOn e.1 && decide (e.2.words.length + e.2.returning ≠ e.2.used) then t.raise 10 else t) s

/-- The island code of an island number (R37, R319). -/
def islandCode (i : Nat) : Nat :=
  if i < 6 then i else if i < 18 then 0x10 + (i - 6) else if i < 22 then 0x20 + (i - 18) else 0x30 + (i - 22)

/-- Does an island implement an endpoint? (R41, R42). DEDUCED: log entry 21. -/
def State.endpointOk (s : State) (dst ep : Nat) : Bool :=
  if ep = 30 then decide (dst = 2)
  else if 28 ≤ ep then true
  else s.sec.xings.any fun x => x.dst == islandCode dst && x.ep == ep

/-- The bound of a period marker's channel (R27, R40). -/
def markerBound (i : Nat) : Nat := if i = 2 ∨ i = 3 then 6 else 4

/-- An island takes a period marker (R27, R68). -/
def State.marker (s : State) (i : Nat) (vt : BitVec 16) : State :=
  let d := timeDiff ((s.replicaTime i).setWidth 16) vt
  if i = 0 ∨ d.natAbs ≤ markerBound i then s
  else
    let off := BitVec.ofInt 64 (timeDiff vt (s.now.setWidth 16))
    let s1 := { s with tb := { s.tb with replica := Sparse.put (fun _ => 0) s.tb.replica i off } }
    (if i < 32 then s1.setBit Reg.TB_REPLICA_ERR i else s1.setBit Reg.TB_REPLICA_ERR_HI (i - 32)).raise 8

/-- PERIOD_MARKER: an island receives a period marker with its VT field (R27, R41). -/
def execPeriodMarker (i : Fin 34) (vt : BitVec 16) (s : State) : Res :=
  .next (if s.powered (islandDomain i) then s.marker i vt else s)

/-- What a channel's pair rule finds for a word: whether a pair breaks, and what waits afterwards (R8, R43). A value half that
was discarded for its tag does not wait. DEDUCED: log entry 108. -/
def pairStep (pend : Option (BitVec 5 × BitVec 64)) (w : HWord) : Bool × Option (BitVec 5 × BitVec 64) :=
  match pend with
  | some (ep, v) =>
    if w.kind = 2 ∧ w.ep = ep then (!pairOk v w.data, none) else (true, if w.kind = 1 then some (w.ep, w.data) else none)
  | none => if w.kind = 1 then (false, some (w.ep, w.data)) else (w.kind == 2, none)

/-- Words of a transfer still to come after a word: a header gives their number, and every later one counts, the CUE word as
the last (R41, R328). -/
def leftAfter (left : Nat) (w : HWord) : Nat :=
  if w.kind = 3 then min (fieldOf w.data 0 16) 4096 else if w.kind = 5 then 0 else if w.kind ≤ 2 then left - 1 else left

/-- A MARK word: the island notes its PC and phase, and holds the VT field of the marker that announces a boundary against
its replica (R27, R41). DEDUCED: log entry 107. -/
def State.markWork (s : State) (dst : Nat) (w : HWord) : State :=
  let phase : BitVec 2 := BitVec.ofNat 2 (fieldOf w.data 0 2)
  let s1 := { s with tb := { s.tb with
    marked := Sparse.put (fun _ => none) s.tb.marked dst (some (BitVec.ofNat 32 (fieldOf w.data 32 32), phase)) } }
  if phase = 0 then s1.marker dst (BitVec.ofNat 16 (fieldOf w.data 16 16)) else s1

/-- A word does its work at the receiver: markers and fault events; what other words carry comes as its own command
(R27, R41, R370). DEDUCED: log entry 22. -/
def State.wordWork (s : State) (dst : Nat) (w : HWord) : State :=
  if w.kind = 4 then s.markWork dst w
  else if w.kind = 6 ∧ dst = 1 ∧ w.ep = 28 then
    let src := fieldOf w.data 40 8
    State.maskSurrender s (s.collect src (nearest16 s.now (BitVec.ofNat 16 (fieldOf w.data 48 16))) false) (srcOf src)
  else s

/-- Is a word discarded for its tag? (R42) -/
def State.tagBad (s : State) (dst : Nat) (w : HWord) : Bool := w.kind == 7 || !s.endpointOk dst w.ep.toNat

/-- What a channel holds after a word has been taken from it: a word discarded for its tag leaves no half waiting and counts
for no transfer (R38, R42, R43). DEDUCED: log entry 108. -/
def Chan.taken (c : Chan) (w : HWord) (rest : List HWord) (bad : Bool) : Chan :=
  { c with words := rest, returning := c.returning + 1, pend := if bad then none else (pairStep c.pend w).2
           left := if bad then c.left else leftAfter c.left w }

/-- WORD_RECEIVE: the word at the head of the queue is taken and its credit returned (R38, R42, R43, R49 to R51).
DEDUCED: log entry 108. -/
def execWordReceive (src dst : Fin 34) (s : State) : Res :=
  let k := chanKey src dst
  let c := s.chan k
  match c.words with
  | [] => .next s
  | w :: rest =>
    if s.powered (islandDomain dst) = false then .next s
    else
      let bad := s.tagBad dst w
      let s1 := s.setChan k (c.taken w rest bad)
      let s2 := if (pairStep c.pend w).1 then s1.integrity dst else s1
      .next (if bad then s2.raise 11 else s2.wordWork dst w)

/-- The cue of engine `e` that sends over a crossing. -/
def State.cueOf (s : State) (e i : Nat) : Option Cue := (s.sec.cueList e).find? fun c => c.xing == some i

/-- The lanes of the cue that sent a transfer: of the transfer with this CUE word, or of the last one sent, or of the first
cue that names the crossing (R324). -/
def State.lanesSent (s : State) (i : Nat) (x : Xing) (w : BitVec 64) : Nat :=
  let l := Sparse.get (fun _ => []) s.isl.tx i
  match (l.find? fun r => r.cue == w) <|> l.head? with
  | some r => max r.lanes 1
  | none => match s.cueOf (x.src - 0x20) i with | some c => max c.lanes 1 | none => 16

/-- A value reaches engine `e` after the start of cue `i` that consumes it: its slack is negative (R351). -/
def State.noteLate (s : State) (e i : Nat) (c : Cue) : State :=
  if s.pastTick c.start then s.noteSlack (leCode e) i ((c.start : Int) - timeDiff s.now s.tb.bound) else s

/-- A KIND 0 transfer is written to the receiving engine's slots (R324, R326, R329, R49 to R51). -/
def State.slotsIn (s : State) (i : Nat) (x : Xing) (w : BitVec 64) (data : List (Word × Word × Bool)) : State :=
  let e := x.dst - 0x20
  let lanes := s.lanesSent i x w
  let y := (indexed 0 data).foldl (fun z (q : Nat × Word × Word × Bool) =>
    let k := x.dstBase + 16 * (q.1 / lanes) + q.1 % lanes
    z.setSlot k ((z.slot k).take q.2.1 q.2.2.1 q.2.2.2 s.tb.pc s.now)) ((s.le e).settle s.now)
  let s1 := s.setLe e y
  let s2 := if data.any fun q => !pairOk q.1 q.2.1 then s1.leIntegrity e else s1
  (indexed 0 (s.sec.cueList e)).foldl (fun t (q : Nat × Cue) =>
    let reads := q.2.ins.any fun o => match o with
      | some (false, b) => (List.range q.2.lanes).any fun l => s.sec.carries i x e (b + l)
      | _ => false
    if reads then t.noteLate e q.1 q.2 else t) s2

/-- The arm sums of an engine reach the loop engine that the transfer names (R267, R324, R49 to R51). -/
def State.sumsIn (s : State) (x : Xing) (broken : Bool) : State :=
  let n := x.src - 0x10
  let k := 16 * (x.dst - 0x20) + n
  if broken then s.leIntegrity (x.dst - 0x20)
  else { s with isl := { s.isl with sumsNew := Sparse.put (fun _ => none) s.isl.sumsNew k (s.ae n).sums
                                    sumsNewAt := Sparse.put (fun _ => 0) s.isl.sumsNewAt k s.now } }

/-- One channel sample is delivered. -/
def State.rawIn (s : State) (key : Nat) (pc : BitVec 32) (r : Option (BitVec 16)) : State :=
  let v := match r with | some q => if q = 0x8000 then none else some q | none => none
  { s with isl := { s.isl with raw := Sparse.put (fun _ => none) s.isl.raw key (some (pc, s.now, v)) } }

/-- A port's node entries reach a loop engine (R141, R144, R264). An entry too late for one MEASIN cue serves one that starts
later in the period. DEDUCED: log entry 132. -/
def State.nodesTo (s : State) (x : Xing) (pcLo : BitVec 16) (damage : List Nat) : State :=
  let p := x.src - 0x30
  let e := x.dst - 0x20
  let pc := s.tb.pc + BitVec.ofInt 32 (timeDiff pcLo (s.tb.pc.setWidth 16))
  let q := s.port p
  let ents := if pc = s.tb.pc ∧ s.tb.intakeDone then q.nodes
    else (List.range (s.sec.port p).nnode).map fun i => nodeOf (streamFor q.stream pc) i
  let s1 := if damage.isEmpty then s else s.leIntegrity e
  let s2 := (indexed 0 (s.sec.cueList e)).foldl (fun t (c : Nat × Cue) =>
    let reads := c.2.block == 0x24 && (List.range c.2.lanes).any fun l => fpNat ((s.le e).param (c.2.param + l)).1 / 16 == p
    if reads && pc == s.tb.pc then t.noteLate e c.1 c.2 else t) s1
  (indexed 0 ents).foldl (fun t (n : Nat × Option (BitVec 16 × BitVec 16 × BitVec 16 × BitVec 16)) =>
    let k := 192 * e + 16 * p + 4 * n.1
    let v := if n.1 ∈ damage then none else n.2
    let get := fun (f : BitVec 16 × BitVec 16 × BitVec 16 × BitVec 16 → BitVec 16) => v.map f
    (((t.rawIn k pc (get (·.1))).rawIn (k + 1) pc (get (·.2.1))).rawIn (k + 2) pc (get (·.2.2.1))).rawIn (k + 3) pc
      (get (·.2.2.2))) s2

/-- A word arrives with its complement broken at the given entries (R49). -/
def CmdSet.damage (c : CmdSet) (l : List Nat) : CmdSet :=
  { cells := (indexed 0 c.cells).map fun (e : Nat × BitVec 16 × BitVec 16) =>
      if e.1 ∈ l then (e.2.1, e.2.2 ^^^ 1) else e.2
    ext := c.ext.map fun x => if l.any fun i => decide (c.cells.length ≤ i) then { x with cmdC := x.cmdC ^^^ 1 } else x }

/-- A command set or marker reaches its port (R228, R330, R351, R356 to R358). -/
def State.handIn (s : State) (x : Xing) (damage : List Nat) : State :=
  let a := s.ae (x.src - 0x10)
  let p := x.dst - 0x30
  let s1 := s.noteSlack (portCode p) 3 ((s.dueAt : Int) - timeDiff s.now s.tb.bound)
  if a.out = .none ∨ (s.port p).dueDone ∨ s.pastTick s.dueAt then s1
  else
    let h := match a.out with | .cmds c => Handover.cmds (c.damage damage) | o => o
    let s2 := if damage.isEmpty then s1 else s1.integrity (22 + p)
    s2.setPort p { s2.port p with hand := h, handMissed := a.outMissed }

/-- What a transfer delivers, by its KIND (R324); λ and i_a come as LEVEL_ORDER_RECEIVE, trace words as TRACE_WORD, cell
reports at the intake's end. -/
def State.deliver (s : State) (w : BitVec 64) (data : List (Word × Word × Bool)) (damage : List Nat) : State :=
  let i := cueXing w
  let x := s.xing i
  match x.kind with
  | 0 => s.slotsIn i x w data
  | 3 => s.sumsIn x (!damage.isEmpty)
  | 4 => s.nodesTo x (cuePc w) damage
  | 6 => s.handIn x damage
  | _ => s

/-- TRANSFER_RECEIVE: the CUE word `w` arrives and ends a transfer over the crossing it names. `vals`, `comps` and `held` are
the words of a KIND 0 transfer, values, complements and quality; `damage` names the words of another kind whose pair is
broken (R326 to R329, R346 to R351, R357). -/
def execTransferReceive (w : BitVec 64) (vals comps : List Word) (held : List Bool) (damage : List Nat) (s : State) : Res :=
  match s.sec.xings[cueXing w]? with
  | none => .next s
  | some x =>
    if s.tb.run = false ∨ s.powered (islandDomain (codeIsland x.dst)) = false then .next s
    else
      let s1 := s.noteCrossing (cueXing w) (s.crossingTime x (cueStamp w))
      .next (if s.staleXfer (cuePc w) then s1.noteStale else s1.deliver w (slotWords vals comps held) damage)

/-- SCH_CNT_CLR: a write of 1 to bit 0 (R367). -/
def execSchCntClr (s : State) : Res := s.via .sch State.schCntClr

end Sys2Proof.Machine
end

