-- ==== Sys2Proof/Machine/Gust.lean ====
section
/-! DEFINITION. Trace channels, trigger units, masks and the commands of the Gust recorder (R430 to R468). -/

namespace Sys2Proof.Machine

/-- Source code and selection of a trace channel (R430). -/
def State.gstSrc (s : State) (n : Nat) : Nat := s.field (Reg.GST_CH_SRC n) 8 2
def State.gstSel (s : State) (n : Nat) : Nat := s.field (Reg.GST_CH_SRC n) 0 8

/-- The sample of a measurement channel for the period in progress (R263, R264, R430). -/
def State.measSample (s : State) (c : Nat) : Option (BitVec 32) :=
  let p := c / 16
  if s.tb.intakeDone = false ∨ 12 ≤ p ∨ s.inUse p = false ∨ s.open (.le 0) = false then none
  else match ((s.port p).nodes.getD (c % 16 / 4) none) with
    | none => none
    | some v =>
      let r := if c % 4 = 0 then v.1 else if c % 4 = 1 then v.2.1 else if c % 4 = 2 then v.2.2.1 else v.2.2.2
      s.sampleOf c (some r)

/-- The sample of an arm tap for the period in progress (R430). -/
def State.armTap (s : State) (n q : Nat) : Option (BitVec 32) :=
  if 12 ≤ n ∨ s.inUse n = false then none
  else
    let a := s.ae n
    let k := fun (x : Nat) => some (fpOfInt (x : Int))
    match q with
    | 0 => (match a.order with | some l => if pairOk l.1 l.2 then some (fpOfFrac l.1.toInt 65536) else none | none => none)
    | 1 => if s.open (.port n) then some (fpOfInt (BitVec.ofNat 16 (s.field (Reg.PRT_AUD_STAT n) 16 16)).toInt) else none
    | 5 => if s.open (.port n) then k (s.port n).echoMiss else none
    | 2 => if s.aeOn n then k a.bEff else none
    | 3 => if s.aeOn n then k a.spread else none
    | 4 => if s.aeOn n then k a.pool else none
    | 6 => if s.aeOn n then k (s.field (Reg.AE_CNT_MISS n) 16 16) else none
    | _ => if s.aeOn n then k (outAll a.cells) else none

/-- The row of the period that ends takes the samples of the measurement channels and arm taps (R430, R432). -/
def State.gstSample (s : State) : State :=
  match s.gst.live with
  | [] => s
  | r :: rest =>
    if r.pc = s.tb.pc then
      let row := (List.range 64).foldl (fun t n =>
        let v := if s.gstSrc n = 2 then s.measSample (s.gstSel n)
          else if s.gstSrc n = 3 then s.armTap (s.gstSel n % 16) (s.gstSel n / 16 % 8) else none
        match v with
        | some x => Sparse.put (fun _ => none) t n (some (x, false))
        | none => t) r.row
      { s with gst := { s.gst with live := { r with row := row } :: rest } }
    else s

/-- A word that came after the close of its row (R432). -/
def State.gstLate (s : State) (pc : BitVec 32) : State :=
  let s1 := s.bump Reg.GST_CNT_LATE
  let held := s1.gst.hist.take s1.gst.trCap
  let note := fun (r : GstPer) => if r.pc = pc then { r with late := r.late + 1 } else r
  if held.any fun r => r.pc == pc then { s1 with gst := { s1.gst with hist := s1.gst.hist.map note } }
  else { s1 with gst := { s1.gst with live := s1.gst.live.map note } }

/-- A sample enters the open row of its period; a second one replaces the first (R432, R434). -/
def State.gstStore (s : State) (pc : BitVec 32) (ch : Nat) (v : BitVec 32) (held : Bool) : State :=
  let again := s.gst.live.any fun r => r.pc == pc && (Sparse.get (fun _ => none) r.row ch).isSome
  let put := fun (r : GstPer) =>
    { r with row := Sparse.put (fun _ => none) r.row ch (some (v, held)), dup := if again then r.dup + 1 else r.dup }
  let s1 := { s with gst := { s.gst with live := s.gst.live.map fun r => if r.pc = pc then put r else r } }
  if again then s1.bump Reg.GST_CNT_DUP else s1

/-- Does a row still collect? It closes at b(k + 1) + 16 (R432). -/
def State.rowOpen (s : State) (r : GstPer) : Bool := !reached s.now (r.vtB + BitVec.ofNat 64 (r.p + 16))

/-- TRACE_WORD: a word arrives on endpoint 30 (R431 to R434, R438). -/
def execTraceWord (word : BitVec 64) (s : State) : Res :=
  let ch := fieldOf word 16 6
  let pc := s.tb.pc + BitVec.ofInt 32 (timeDiff (BitVec.ofNat 16 (fieldOf word 0 16)) (s.tb.pc.setWidth 16))
  if s.powered 7 = false then .next s
  else if s.gstSrc ch ≠ 1 then .next (s.bump Reg.GST_CNT_LATE)
  else if s.gst.captures then
    .next (if s.gst.live.any fun r => r.pc == pc && s.rowOpen r then
        s.gstStore pc ch (BitVec.ofNat 32 (fieldOf word 32 32)) (word.getLsbD 31)
      else if pcLe pc s.tb.pc then s.gstLate pc else s)
  else .next (if s.gst.hist.any fun r => r.pc == pc then s.gstLate pc else s)

/-- The input of a trigger unit for a row; none where the period is skipped (R452). -/
def GstPer.input (r : GstPer) (cfg : Word) : Option (BitVec 32) :=
  let n := fieldOf cfg 0 8
  if cfg.getLsbD 8 then some (fpFlag (r.faults.getLsbD n))
  else (Sparse.get (fun _ => none) r.row n).map (·.1)

/-- Active and rest regions (R453). -/
def unitActive (cfg lo hi x : BitVec 32) : Bool := if cfg.getLsbD 15 then fpLt x lo else fpLt hi x
def unitRest (cfg lo hi x : BitVec 32) : Bool := if cfg.getLsbD 15 then fpLt hi x else fpLt x lo

/-- A width or duration against T1 and T2 by COND, for what is decided after its end (R454). -/
def condHits (cond d t1 t2 : Nat) : Bool :=
  if cond = 0 then decide (d < t1)
  else if cond = 1 then decide (t1 < d)
  else if cond = 2 then decide (t1 ≤ d ∧ d ≤ t2)
  else decide (d < t1 ∨ t2 < d)

/-- One valid period of a trigger unit: whether it fires, and its next state (R453, R454). -/
def GstUnit.step (y : GstUnit) (cfg : Word) (t1 t2 : Nat) (pc : BitVec 32) (active rest : Bool) : Bool × GstUnit :=
  let kind := fieldOf cfg 16 3
  let cond := fieldOf cfg 12 2
  let width := if active then y.width + 1 else 0
  let quiet := if active then 0 else y.quiet + 1
  let next : GstUnit :=
    { width := width, quiet := quiet
      rest := if active then none else if rest then some pc else y.rest
      mid := if active || rest then false else y.rest.isSome }
  let fires := match kind with
    | 1 => if cond = 1 then active && width == t1 + 1 else !active && decide (0 < y.width) && condHits cond y.width t1 t2
    | 2 => rest && y.mid
    | 3 => !active && quiet == t1
    | 4 => active && (match y.rest with | some q => condHits cond (pc - q).toNat t1 t2 | none => false)
    | _ => false
  (fires, next)

/-- A unit evaluates a row (R452 to R455). -/
def State.unitRow (s : State) (r : GstPer) (u : Nat) : Bool × GstUnit :=
  let cfg := s.rd (Reg.GST_TU_CFG u)
  let y := Sparse.get (fun _ => ({} : GstUnit)) s.gst.units u
  match s.bitOf Reg.GST_TRIG_EN u, r.input cfg with
  | true, some x =>
    let lo := s.rd (Reg.GST_TU_LO u)
    let hi := s.rd (Reg.GST_TU_HI u)
    y.step cfg (s.field (Reg.GST_TU_T1 u) 0 24) (s.field (Reg.GST_TU_T2 u) 0 24) r.pc (unitActive cfg lo hi x)
      (unitRest cfg lo hi x)
  | _, _ => (false, y)

/-- The part of a turn that an angle spans modulo 2π, in units of 1/`n` of a turn, rounded down (R456). -/
def turnPart (x : BitVec 32) (n : Nat) : Nat :=
  (fpInt x * ((2 ^ 491 : Nat) : Int) % ((twoPi640 : Nat) : Int)).toNat * n / twoPi640

/-- The point index of a mask for a row (R456). -/
def State.maskPoint (s : State) (r : GstPer) (m : Nat) : Option Nat :=
  let cfg := s.rd (Reg.GST_MASK_CFG m)
  let n := fieldOf cfg 0 11
  if n = 0 then none
  else if cfg.getLsbD 29 then
    match Sparse.get (fun _ => none) r.row (fieldOf cfg 22 6) with
    | some v => if fpSpecial v.1 then none else some (turnPart v.1 n)
    | none => none
  else some ((r.pc - s.gst.pcA).toNat % n)

/-- Is a mask violated in a row? A limit that the envelope memory does not hold is a free value (R457). -/
def State.maskHit (s : State) (r : GstPer) (m : Nat) : Bool :=
  let cfg := s.rd (Reg.GST_MASK_CFG m)
  match s.bitOf Reg.GST_TRIG_EN (16 + m), Sparse.get (fun _ => none) r.row (fieldOf cfg 16 6), s.maskPoint r m with
  | true, some v, some i =>
    let up := if i < 1024 then s.rd (Reg.GST_ENV_UP m i) else s.fresh
    let lo := if i < 1024 then s.rd (Reg.GST_ENV_LO m i) else s.fresh
    fpLt up v.1 || fpLt v.1 lo
  | _, _, _ => false

/-- ACTION of a mask (R458). -/
def State.maskAction (s : State) (m : Nat) : Nat := s.field (Reg.GST_MASK_CFG m) 30 2

/-- The oldest row that is to close: the last open one but that of the period in progress. -/
def State.gstClosing (s : State) : Option GstPer := (s.gst.live.filter fun r => r.pc != s.tb.pc).getLast?

/-- Sources of the fires in a row, the lowest code first (R445, R458). -/
def fireCodes (fired : List Nat) (masks : List Nat) : List Nat := fired ++ masks.map (16 + ·)

/-- The state after the fires and mask stops of row `r` (R444, R445, R458, R459). -/
def State.gstDecide (s : State) (r : GstPer) (codes : List Nat) (stops : Bool) : State :=
  match codes with
  | [] => s
  | c :: _ =>
    let halt := fun (t : State) => if stops then { t with gst := { t.gst.stopWith r.pc with maskStop := true } } else t
    if s.gst.st = .armed then (if s.gstHoldoff then s.setBit Reg.GST_EVT 6 else halt (s.gstFire r c))
    else
      let s1 := if s.gst.trig = some r.pc ∧ c < s.field Reg.GST_TRIG_SRC 0 8 then s.gstShowTrig r.pc r.vtB c else s
      halt s1

/-- A row closes: units and masks evaluate it, it goes to capture memory, and the record ends with it where it is the
last (R432, R446, R452 to R459). DEDUCED: log entry 68. -/
def State.gstClose (s : State) (r : GstPer) : State :=
  let us := (List.range 16).map fun u => (u, s.unitRow r u)
  let fired := (us.filter fun e => e.2.1).map (·.1)
  let hit := (List.range 4).filter fun m => s.maskHit r m
  let bits := fun (l : List Nat) => l.foldl (fun (a : Nat) i => a + 2 ^ i) 0
  let r1 := { r with fired := BitVec.ofNat 16 (bits fired), viol := BitVec.ofNat 4 (bits hit) }
  let units := us.foldl (fun t e => Sparse.put (fun _ => ({} : GstUnit)) t e.1 e.2.2) s.gst.units
  let keep := max s.gst.trCap s.gst.plCap
  let s1 := { s.tick1 with gst := { s.gst with
    units := units, live := s.gst.live.filter fun q => q.pc != r.pc, hist := (r1 :: s.gst.hist).take keep } }
  let s2 := s1.wr Reg.GST_MASK_VIOL (BitVec.ofNat 32 (satAdd (s1.rdNat Reg.GST_MASK_VIOL) hit.length 0xFFFFFFFF))
  let s3 := s2.setBitIf (!hit.isEmpty) Reg.GST_EVT 7
  let stops := hit.filter fun m => s.maskAction m == 2
  let s4 := s3.gstDecide r1 (fireCodes fired (hit.filter fun m => s.maskAction m == 1 || s.maskAction m == 2)) (!stops.isEmpty)
  match s4.gst.lastPc with
  | some l => if pcLe l r.pc then s4.gstEnd else s4
  | none => s4

/-- TRACE_ROW_CLOSE: at b(k + 1) + 16 (R432, R435, R445, R446, R452 to R459). -/
def execTraceRowClose (s : State) : Res :=
  match s.gstClosing with
  | none => .next s
  | some r => .next ((s.advanceTo (s.tickAt 16)).gstClose r)

/-- An ARM, from firmware or from the partner; R443 refuses either with CMD_REFUSED, and the partner's with REMOTE_IGNORED too
(R442, R443, R460, R461, R558). -/
def State.gstArm (s : State) (remote : Bool) : State :=
  if s.gstArmOk then
    let s1 := { s with gst := { s.gst with armAt := some s.tb.pc } }.draftCancel 0x36
    if remote = false ∧ s1.gstShareTx then s1.sendGust 1 0 else s1
  else (s.setBit Reg.GST_EVT 3).setBitIf remote Reg.GST_EVT 8

/-- A STOP (R447, R448). -/
def State.gstStop (s : State) : State :=
  if s.gst.captures then { s with gst := s.gst.stopWith s.tb.pc } else s.setBit Reg.GST_EVT 3

/-- The record of the period in progress, while it is captured. -/
def State.gstCurrent (s : State) : Option GstPer := s.gst.live.find? fun r => r.pc == s.tb.pc

/-- A FORCE (R448). In ARMED after the last period of a STOP, with a row still to close, the period is captured no more and the
FORCE is refused as in STOPPED. DEDUCED: log entry 142. -/
def State.gstForce (s : State) : State :=
  match s.gst.st, s.gstCurrent with
  | .armed, some r => s.gstFire r 0x20
  | .triggered, _ => s
  | _, _ => s.setBit Reg.GST_EVT 3

/-- The action of an accepted pair of GST_CMD (R467). -/
def State.gstCmd (s : State) (v : Word) : State :=
  match fieldOf v 30 2 with
  | 1 => s.gstArm false
  | 2 => s.gstStop
  | 3 => s.gstForce
  | _ => s

/-- ARM: an accepted paired write to GST_CMD with ACTION 01 (R442, R443, R460, R558). -/
def execArm (s : State) : Res :=
  s.via .gst fun t => (t.wrPair Reg.GST_CMD (actionWord 1 0)).gstCmd (actionWord 1 0)

/-- STOP: an accepted paired write to GST_CMD with ACTION 10 (R447 to R449). -/
def execStop (s : State) : Res :=
  s.via .gst fun t => (t.wrPair Reg.GST_CMD (actionWord 2 0)).gstCmd (actionWord 2 0)

/-- FORCE: an accepted paired write to GST_CMD with ACTION 11 (R444, R445, R448). -/
def execForce (s : State) : Res :=
  s.via .gst fun t => (t.wrPair Reg.GST_CMD (actionWord 3 0)).gstCmd (actionWord 3 0)

/-- The record that an ARM begins (R421, R442, R452). -/
def State.gstFresh (s : State) : Gst :=
  let t := s.gstTraceSize
  { st := .armed, pcA := s.tb.pc, taken := 1, live := [s.gstOpen true], switched := s.gst.switched, traceUnits := t, planeOn := s.gstPlaneEn
    plSize := s.gstPlSize, plCap := if s.gstPlaneEn then planeCap t s.gstPlSize else 0, trCap := traceCap t }

/-- GUST_ARM_EFFECT: an accepted ARM takes effect at the boundary, in the tick in which the period begins (R441, R442,
R558). -/
def execGustArmEffect (s : State) : Res :=
  match s.gst.armAt with
  | none => .next s
  | some pc =>
    if s.tb.run = false ∨ pc = s.tb.pc ∨ s.inPer ≠ 0 then .next s
    else
      let s1 := ({ s with gst := s.gstFresh }.setBit Reg.GST_EVT 0).clearAll
        [Reg.GST_TRIG_PC, Reg.GST_TRIG_VT_LO, Reg.GST_TRIG_VT_HI, Reg.GST_TRIG_SRC]
      .next (s1.draftCancel 0x36)

/-- RECORD_DEADLINE: a plane record or a trace row is not complete at its deadline, b(k + 1) or b(k + 2) (R429, R437,
R438). -/
def execRecordDeadline (trace : Bool) (s : State) : Res :=
  let pc := if trace then s.tb.pc - 2 else s.tb.pc - 1
  let mark := fun (r : GstPer) =>
    if r.pc = pc then (if trace then { r with trFault := true } else { r with plFault := true }) else r
  match s.gst.find pc with
  | none => .next s
  | some _ =>
    if trace = false ∧ s.gst.planeOn = false then .next s
    else
      let s1 := { s with gst := { s.gst with live := s.gst.live.map mark, hist := s.gst.hist.map mark } }
      .next ((s1.setBit Reg.GST_EVT 9).raise 240)

/-- GUST_ARM_RECEIVE: an ARM of the partner (R460, R461). -/
def execGustArmReceive (s : State) : Res :=
  .next (if s.open .gst && s.gstShareRx && s.twinEn then s.gstArm true else s)

/-- The captured period that contains a tick, still held (R462). -/
def State.gstNamed (s : State) (vt : BitVec 64) : Option (BitVec 32 × BitVec 64) :=
  ((s.gst.live ++ s.gst.hist).find? fun r => reached vt r.vtB && !reached vt (r.vtB + BitVec.ofNat 64 r.p)).map
    fun r => (r.pc, r.vtB)

/-- The period, older than every period held, that contains a tick, with its boundary: periods before the oldest held are
counted as long as it (R462). DESIGN CHOICE: log entry 143. -/
def State.gstOlder (s : State) (vt : BitVec 64) : Option (BitVec 32 × BitVec 64) :=
  match (s.gst.live ++ s.gst.hist).getLast? with
  | some r =>
    if reached vt r.vtB then none
    else
      let n := (ahead vt r.vtB + r.p - 1) / r.p
      some (r.pc - BitVec.ofNat 32 n, r.vtB - BitVec.ofNat 64 (n * r.p))
  | none => none

/-- The newest period captured or in capture (R463). -/
def State.gstNewest (s : State) : BitVec 32 :=
  match (s.gst.live ++ s.gst.hist).head? with
  | some r => r.pc
  | none => s.tb.pc

/-- A FIRE that names period `t`, which began at `vt` (R444, R462, R463). Capture goes on at least to the end of the period in
progress, and where that is captured no more, to the last period captured. DEDUCED: log entry 142. -/
def State.gstRemoteFire (s : State) (t : BitVec 32) (vt : BitVec 64) : State :=
  let e := t + BitVec.ofNat 32 s.gstPost
  let last := if pcLe e s.gstNewest then s.gstNewest else e
  match s.gst.st, s.gst.trig with
  | .armed, _ => if s.gstHoldoff then s.setBit Reg.GST_EVT 6 else s.gstTrigger t vt 0x21 last true
  | .triggered, some old => if t ≠ old ∧ pcLe t old then s.gstTrigger t vt 0x21 last true else s.setBit Reg.GST_EVT 8
  | _, _ => s.setBit Reg.GST_EVT 8

/-- GUST_FIRE_RECEIVE: a FIRE of the partner with VT_B of its trigger period (R460, R462, R463). -/
def execGustFireReceive (vt : BitVec 64) (s : State) : Res :=
  if (s.open .gst && s.gstShareRx && s.twinEn) = false then .next s
  else match s.gstNamed vt, s.gstOlder vt with
    | some t, _ => .next (if s.gst.captures then s.gstRemoteFire t.1 t.2 else s.setBit Reg.GST_EVT 8)
    | none, some t => .next (if s.gst.st = .triggered then s.gstRemoteFire t.1 t.2 else s.setBit Reg.GST_EVT 8)
    | none, none => .next (s.setBit Reg.GST_EVT 8)

/-- What GST_CNT_CLR clears (R467). -/
def State.gstCntClr (s : State) : State :=
  s.clearAll [Reg.GST_CNT_LATE, Reg.GST_CNT_DUP, Reg.GST_CNT_PAIR, Reg.GST_MASK_VIOL]

/-- GST_CNT_CLR: a write of 1 to bit 0 (R467). -/
def execGstCntClr (s : State) : Res := s.via .gst State.gstCntClr

end Sys2Proof.Machine
end

