-- ==== Sys2Proof/Machine/Period.lean ====
section
/-! DEFINITION. The arm energy audit and the work of a period boundary (R28, R44, R58 to R62, R149 to R152, R206, R233,
R270, R299, R351, R362, R868). -/

namespace Sys2Proof.Machine

/-- The audit of an arm. -/
def State.energy (s : State) (n : Nat) : Energy := Sparse.get (fun _ => {}) s.tb.energy n
def State.setEnergy (s : State) (n : Nat) (x : Energy) : State :=
  { s with tb := { s.tb with energy := Sparse.put (fun _ => {}) s.tb.energy n x } }

/-- The cells that take part, with their index: all but those absent at the census, and those whose stored voltage fails its
pair check, which is not used (R50, R868). -/
def State.auditCells (s : State) (n : Nat) : List (Nat × Cell) :=
  let ab := absentCells (s.topo n).devs (s.port n).absent
  (indexed 0 (s.ae n).cells).filter fun e => !decide (e.1 ∈ ab) && e.2.vOk

/-- E_a: ½ C v² over the cells, in units of 2^-448 J / (8 × 10^8) (R58). -/
def State.storedEnergy (s : State) (n : Nat) : Int :=
  let t := s.topo n
  let sc := fpInt t.scale
  (s.auditCells n).foldl (fun (a : Int) e =>
    let v : Int := e.2.v.toNat
    a + fpInt (if e.2.fb then t.cFb else t.cHb) * sc * sc * v * v * 800000000) 0

/-- The quarter ticks a cell spends in each state during the period, as (state, length) pairs, from its state before the
first edge and its entry (R132, R868). -/
def stateSpans (before : BitVec 2) (ent : Option (BitVec 16)) (ext : Option (BitVec 16)) (total : Nat) :
    List (BitVec 2 × Nat) :=
  match ent, ext with
  | none, _ => [(before, total)]
  | some w, none =>
    let o := min (cmdOffset w) total
    [(before, o), (cmdState w, total - o)]
  | some w, some x =>
    let o := min (cmdOffset w) total
    let q := max o (min (cmdOffset x) total)
    [(before, o), (cmdState w, q - o), (cmdState x, total - q)]

/-- What a cell in a state counts in u_a: its sign (R62, R868). -/
def spanSign (st : BitVec 2) (fb : Bool) (i : Int) : Int :=
  if st = 2 then 1 else if st = 3 then -1 else if st = 1 then 0
  else if 0 < i then 1 else if i < 0 ∧ fb then -1 else 0

/-- u_a weighted over the period, in counts times quarter ticks (R868). -/
def State.armVoltage (s : State) (n : Nat) (i : Int) : Int :=
  let f := (s.port n).sent.find? fun f => f.pc == s.tb.pc && !f.cut
  (s.auditCells n).foldl (fun (a : Int) e =>
    let ent := match f with
      | some g => if g.blockArm then some 0 else (g.cs.cells[e.1]?).map (·.1)
      | none => none
    let ext := match f with
      | some g => if g.blockArm then none
        else (match g.cs.ext with | some x => if x.idx.toNat = e.1 then some x.cmd else none | none => none)
      | none => none
    (stateSpans e.2.before ent ext (4 * s.per)).foldl (fun (b : Int) q =>
      b + spanSign q.1 e.2.fb i * (e.2.v.toNat : Int) * (q.2 : Int)) a) 0

/-- A residue check has failed in the sums of the period: they are discarded, and the window gives no verdict (R50, R52, R60).
DEDUCED: log entry 110. -/
def State.energyResidue (s : State) (n : Nat) : State :=
  let x := s.energy n
  (s.setEnergy n { x with residue := false, broken := true, count := x.count + (if x.eStart.isSome then 1 else 0) }).integrity (6 + n)

/-- One period of the audit of an arm (R52, R58, R60, R868). DEDUCED: log entry 56. -/
def State.energyStep (s : State) (n : Nat) : State :=
  if s.aeOn n = false then s
  else if (s.energy n).residue then s.energyResidue n
  else
    let x := s.energy n
    let a := s.ae n
    let good := !a.currentBad
    let lastI := if good then (a.current.getD (0, 0)).1 else x.lastI
    let i := fpInt (fpFlush lastI)
    let e := s.storedEnergy n
    match x.eStart with
    | none => s.setEnergy n { x with eStart := some e, eNow := e, lastI := lastI }
    | some _ =>
      let j := s.armVoltage n i * fpInt (s.topo n).scale * i * (2 ^ 150 : Nat)
      let miss := (s.auditCells n).foldl (fun m (c : Nat × Cell) =>
        if c.2.age = 0 then m else Sparse.put (fun _ => 0) m c.1 (Sparse.get (fun _ => 0) m c.1 + 1)) x.miss
      s.setEnergy n { x with
        eNow := e, j := x.j + j, a := x.a + j.natAbs, count := x.count + 1, miss := miss
        missI := if good then x.missI else x.missI + 1, lastI := lastI }

/-- The window gives no verdict (R52, R60). -/
def Energy.void (x : Energy) : Bool := x.broken || decide (8 < x.missI) || x.miss.any fun e => decide (8 < e.2)

/-- |ΔE − J| exceeds E_FIX + E_REL A, both sides times 2^149 (R58). -/
def Energy.fails (x : Energy) (p : EnergyPar) : Bool :=
  let d : Int := (x.eNow - x.eStart.getD 0) - x.j
  decide (fpInt p.eFix * ((2 ^ 448 : Nat) : Int) * 800000000 + fpInt p.eRel * x.a < (d.natAbs : Int) * ((2 ^ 149 : Nat) : Int))

/-- The next window of an arm (R58). DEDUCED: log entry 57. -/
def Energy.next (x : Energy) : Energy := { eStart := some x.eNow, eNow := x.eNow, lastI := x.lastI }

/-- ENERGY_WINDOW_END: the verdict over W_E periods (R58 to R60, R312). Where a residue check fails in it the verdict is
discarded (R52). DEDUCED: log entry 110. -/
def execEnergyWindowEnd (w : ArmWindow) (s : State) : Res :=
  let n := w.arm
  let x := s.energy n
  if x.count < s.sys.cfg.par.energy.wE then .next s
  else
    let s1 := s.setEnergy n x.next
    .next (if w.residue then s1.integrity (6 + n) else if x.void then s1.bump (Reg.TB_ENERGY_VOID n) else s1.raiseIf (x.fails s.sys.cfg.par.energy) (160 + n))

/-- The schedule's records of the period that ends (R351, R352, R362, SCH_MISS_LAST). DEDUCED: log entry 44. -/
def State.schPeriodEnd (s : State) : State :=
  let low := match s.sch.slackNow with | some v => (BitVec.ofInt 16 v).toNat | none => 0x7FFF
  let s1 := (s.setField Reg.SCH_SLACK 0 16 low).wr Reg.SCH_MISS_LAST (s.sch.missArms.setWidth 32)
  let warn := match s.sch.slackNow with
    | some v => decide (0 ≤ v) && decide (v < s.sec.slackWarn)
    | none => false
  let s2 := if warn then (s1.setBit Reg.SCH_EVT 6).raiseOnce 56 else s1
  { s2 with sch := { s2.sch with
      missRun := if s.sch.missed then s2.sch.missRun else 0, missed := false, missArms := 0, once := [], slackNow := none } }

/-- A cell at a boundary: PREV from the frame, and DWELL (R205, R206). The flag says whether the change counts (R234).
DEDUCED: log entry 42. -/
def Cell.boundary (c : Cell) (st : Option (BitVec 2)) (fresh : Bool) : Cell × Bool :=
  match st with
  | none => ({ c with before := c.prev, dwell := satInc c.dwell 255 }, false)
  | some v =>
    if v = c.prev then ({ c with before := c.prev, dwell := satInc c.dwell 255 }, false)
    else if fresh ∧ c.prev = 0 ∧ v = 1 ∧ c.out = 0 then ({ c with before := c.prev, prev := v }, false)
    else ({ c with before := c.prev, prev := v, dwell := 0, chg := if fresh then satInc c.chg 0xFFFF else c.chg }, fresh)

/-- The frame sent in full for the period that begins (R205). -/
def State.frameNow (s : State) (n : Nat) : Option Frame := (s.port n).sent.find? fun f => f.pc == s.tb.pc && !f.cut

/-- Did the engine build a command set in the period that ends? (AE_STAT.RUN) -/
def Ae.built (a : Ae) : Bool := a.ran && match a.sel with | some (some _) => true | _ => false

/-- An arm engine at a boundary (R205, R206, R233, R234, R245, R246). -/
def Ae.boundary (a : Ae) (f : Option Frame) (first : Bool) : Ae :=
  let ends := f.map Frame.ends
  let fresh := match f with | some g => g.kind == .fresh | none => false
  let r := (indexed 0 a.cells).map fun (e : Nat × Cell) =>
    e.2.boundary (match ends with | some l => l[e.1]? | none => none) fresh
  { a with
    cells := r.map (·.1), changes := a.changes + (r.filter (·.2)).length
    winCount := if first then a.winCount else a.winCount + 1
    band := a.bandNext.getD a.band, bandNext := none, cellNow := a.cellNow ++ a.cellCmd, cellCmd := []
    order := none, current := none, rank := none, sel := none, stop := false, selStarted := false
    out := .none, outMissed := false, sums := none, ran := a.built }

def State.aeBoundary (s : State) (n : Nat) (first : Bool) : State :=
  let a := s.ae n
  if s.aeOn n then s.setAe n (a.boundary (s.frameNow n) first)
  else if s.open (.ae n) then s.setAe n { a with ran := a.built, sel := none } else s

/-- A port at a boundary. -/
def State.portBoundary (s : State) (p : Nat) : State :=
  if s.open (.port p) then
    let x := s.port p
    (s.setPort p { x with plan := .none, hand := .none, order := none, handMissed := false, notice := false
                          dueDone := false, echoMiss := 0, absentNow := 0, discs := 0 }).calEcho p
  else s

/-- A loop engine at a boundary: its counts of the period show, and its memory as it stands (R314). -/
def State.leBoundary (s : State) (e : Nat) : State :=
  let x := (s.le e).settle s.now
  let stat := bitIf (decide (0 < x.ran)) 0 ||| bitIf (decide (0 < x.ran) && x.failed == 0) 2
  let s1 := s.setLe e { x with shown := x.slots, ran := 0, failed := 0, heldOut := 0 }
  ((s1.wr (Reg.LE_STAT e) stat).wr (Reg.LE_CNT_HELD e)
    (BitVec.ofNat 32 (min x.heldOut 0xFFFF * 65536 + min x.failed 0xFFFF))).wr (Reg.LE_CUE_CNT e)
    (BitVec.ofNat 32 (min x.ran 0xFFFF * 65536))

/-- The pairs of LE_ORD and LE_MCORR written before the boundary's tick are taken (R266, R270, R271). -/
def State.takeOrders (s : State) : State :=
  let due := s.isl.ordNew.filter fun w => w.2.2 != s.now
  due.foldl (fun t w =>
    let i := (w.1 - Reg.LE_ORD 0) / 8
    if Reg.LE_ORD 0 ≤ w.1 then
      { t with isl := { t.isl with ord := Sparse.put (fun _ => (0, 0xFFFFFFFF)) t.isl.ord i w.2.1 } }
    else
      { t with isl := { t.isl with
        corr := Sparse.put (fun _ => (fpOne, ~~~ fpOne)) t.isl.corr ((w.1 - Reg.LE_MCORR 0) / 8) w.2.1 } })
    { s with isl := { s.isl with ordNew := s.isl.ordNew.filter fun w => w.2.2 == s.now } }

/-- Status entries written since the last boundary show (R273). -/
def State.showStatus (s : State) : State :=
  s.isl.stat.foldl (fun t e =>
    match e.2 with
    | some (v, h) => (t.wrPair (Reg.LE_STATV e.1) v).wr (Reg.LE_STATV_Q e.1) (bitIf h 0)
    | none => t) { s with isl := { s.isl with stat := [] } }

/-- A channel's buffer is cleared (R299). -/
def State.eddyZero (s : State) (c : Nat) : State :=
  let x := s.isl.eddyCh.getD c {}
  { s with isl := { s.isl with eddy := Sparse.clearRange s.isl.eddy x.base (x.base + x.nb) } }

/-- Bits of LE_EDDY_CLEAR set before the boundary's tick (R299, R300). -/
def State.takeClears (s : State) : State :=
  let due := s.isl.eddyClr.filter fun w => w.2 != s.now
  due.foldl (fun t w => (t.eddyZero w.1).clrBit Reg.LE_EDDY_CLEAR w.1)
    { s with isl := { s.isl with eddyClr := s.isl.eddyClr.filter fun w => w.2 == s.now } }

/-- Was the emit of the period that ends unblocked? (R290, R401) -/
def State.emitOpen (s : State) : Bool := !s.flt.latch && !s.flt.blockedAt (s.now - BitVec.ofNat 64 s.per + BitVec.ofNat 64 s.sec.eStart)

/-- The loop island at a boundary (R266 to R273, R290, R299, R315). -/
def State.islBoundary (s : State) : State :=
  if s.open (.le 0) then
    let s1 := (List.range 4).foldl State.leBoundary s
    let s2 := ((s1.takeOrders).showStatus).takeClears
    let s3 := (s2.wr Reg.LE_EDDY_LEARN (s2.isl.eddyLearn.setWidth 32))
    let s4 := { s3 with isl := { s3.isl with
      eddyLearn := 0, sums := s3.isl.sumsNew, sumsNew := [], sumsAt := s3.isl.sumsNewAt, sumsNewAt := [], uvArmed := s.emitOpen } }
    s4.injBoundary
  else s

/-- The period that begins: PC, boundary and phase (R28, R30, R68). -/
def State.turn (s : State) : State :=
  if s.tb.run then
    let s1 := s.advanceTo s.tb.nextB
    { s1 with tb := { s1.tb with pc := s1.tb.pc + 1, bound := s1.tb.nextB, intakeDone := false
                                 marks := (s1.tb.nextB :: s1.tb.marks).take 24
                                 nextB := s1.tb.nextB + BitVec.ofNat 64 s1.tb.period } }
  else
    let s1 := s.advanceTo s.tb.nextB
    { s1 with tb := { s1.tb with run := true, bound := s1.tb.nextB, intakeDone := false, marks := [s1.tb.nextB]
                                 nextB := s1.tb.nextB + BitVec.ofNat 64 s1.tb.period } }

/-- Echo accounting of the period that ends (R149, R150, PRT_ECHO_MISS, PRT_ECHO_TOT). -/
def State.noteEcho (s : State) (p : Nat) : State :=
  let miss := (s.port p).echoMiss
  let s1 := s.wr (Reg.PRT_ECHO_MISS p) (BitVec.ofNat 32 (min (s.port p).absentNow 0xFFFF * 65536 + min miss 0xFFFF))
  let s2 := s1.wr (Reg.PRT_ECHO_TOT p) (BitVec.ofNat 32 (satAdd (s1.rdNat (Reg.PRT_ECHO_TOT p)) miss 0xFFFFFFFF))
  let s3 := s2.setBitIf (decide (0 < miss)) (Reg.PRT_FRM_EVT p) 1
  s3.raiseIf (decide (s.field (Reg.PRT_FRM_CTL p) 8 8 < miss)) (68 + 5 * p)

/-- A port's own block sources at the end of a period: missing echoes, and the blocks discarded since the last boundary
(R150, R151). DEDUCED: log entry 53. -/
def State.portPeriodEnd (s : State) (p : Nat) : State :=
  if s.inUse p && s.open (.port p) then
    let s1 := s.noteEcho p
    s1.raiseIf (decide (s.field (Reg.PRT_FRM_CTL p) 0 8 < (s.port p).discs)) (67 + 5 * p)
  else s

/-- The audits and records of the period that ends, before PC advances. -/
def State.periodEnd (s : State) : State :=
  if s.tb.run then
    let s1 := (List.range 12).foldl State.energyStep s.injRead.gstSample
    ((List.range 12).foldl State.portPeriodEnd s1).schPeriodEnd
  else s

/-- PERIOD_BOUNDARY: b(k) (R28, R44, R149 to R151, R205, R206, R270, R299). -/
def execPeriodBoundary (s : State) : Res :=
  if s.tb.placed = false then .next s
  else
    let s1 := (s.advanceTo s.tb.nextB).periodEnd.turn
    let s2 := s1.creditAudit
    let s3 := (List.range 12).foldl (fun t n => t.aeBoundary n (!s.tb.run)) s2
    let s4 := (List.range 12).foldl State.portBoundary s3
    .next (s4.islBoundary.gstBegin.otherBoundary)

end Sys2Proof.Machine
end

