-- ==== Sys2Proof/Machine/Draft.lean ====
section
/-! DEFINITION. The Draft: staging, CHECK, COMMIT and the boundary at which a set takes effect (R550 to R561). -/

namespace Sys2Proof.Machine

/-- The Draft is available from stage 3 onward (R550). -/
def State.draftOpenNow (s : State) : Bool := decide (3 ≤ s.sys.stage ∧ s.sys.stage ≤ 6)

/-- A DRF command is refused (DRF_EVT.CMD_REFUSED). -/
def State.draftRefuse (s : State) : State := s.setBit Reg.DRF_EVT 6

/-- A code goes to DRF_RES with its section type (R553, R556, R559). -/
def State.draftRes (s : State) (code typ : Nat) : State := s.wr Reg.DRF_RES (BitVec.ofNat 32 (typ * 256 + code))

/-- The Draft is emptied (R551, R559). -/
def State.draftEmpty (s : State) : State :=
  { s with drf := { s.drf with st := .empty, staged := [], set := {}, pendAt := none } }

/-- OPEN (R551, R561). -/
def State.drfOpen (s : State) : State :=
  if s.drf.st = .pending ∨ s.drf.st = .checking then s.draftRefuse else s.draftEmpty

/-- The section types that a Draft set may hold (R529). -/
def draftType (t : Nat) : Bool := decide (1 ≤ t ∧ t ≤ 6) || t == 8

/-- The section that stands in DRAM channel B at DRF_SRC: header and body (R552). -/
def State.draftSource (s : State) : List Byte :=
  let a := s.rdNat Reg.DRF_SRC_LO + 0x100000000 * (s.field Reg.DRF_SRC_HI 0 2)
  if 0x200000000 ≤ a then
    let h := s.ram.bytes a 16
    s.ram.bytes a (16 + min (bytesAt h 4 4) 0x400000)
  else []

/-- Bytes that the Draft bank would hold beside a section of type `t` (R550). -/
def Drf.bytesBut (d : Drf) (t : Nat) : Nat :=
  d.staged.foldl (fun n e => if e.1 = t then n else n + 16 + (e.2.getD []).length) 0

/-- LOAD; data marked in error fails the section's CRC (R552, R561, R673). -/
def State.drfLoad (s : State) : State :=
  if s.drf.st = .pending ∨ s.drf.st = .checking then s.draftRefuse
  else if s.drf.marked then { s with drf := { s.drf with marked := false } }.setBit Reg.DRF_EVT 1
  else
    let x := s.draftSource
    let t := bytesAt x 0 2
    if !x.isEmpty && draftType t && sectionOk x t && decide (x.length + s.drf.bytesBut t ≤ 0x400000) then
      ({ s with drf := { s.drf with
        st := .staging, staged := Sparse.put (fun _ => none) s.drf.staged t (some (x.drop 16)) } }).setBit Reg.DRF_EVT 0
    else s.setBit Reg.DRF_EVT 1

/-- CHECK (R551). -/
def State.drfCheck (s : State) : State :=
  if s.drf.st = .staging then { s with drf := { s.drf with st := .checking } } else s.draftRefuse

/-- The staged body of a type. -/
def Drf.body (d : Drf) (t : Nat) : Option (List Byte) := Sparse.get (fun _ => none) d.staged t

/-- The sections that are staged (R553). -/
def Drf.sections (d : Drf) : Sections :=
  { dev := (d.body 1).map devOf, topo := (d.body 2).map topoOf, sch := (d.body 3).map schOf, par := (d.body 4).map parOf
    flt := (d.body 5).map fltOf, recs := (d.body 6).map recsOf, net := (d.body 8).map fun b => { bytes := b } }

/-- The merged set: each staged section replaces the one in effect (R553). -/
structure Merged where
  dev : DevPar
  topo : Topo
  sch : SchSection
  par : ParTables
  flt : FltTable
  deriving DecidableEq, Repr

def State.merged (s : State) (d : Sections) : Merged :=
  { dev := d.dev.getD s.sys.cfg.dev, topo := d.topo.getD s.sys.cfg.topo, sch := d.sch.getD s.sec
    par := d.par.getD s.sys.cfg.par, flt := d.flt.getD s.sys.cfg.flt }

/-- A staged section that is present passes a test. -/
def stagedOk (b : Option (List Byte)) (f : List Byte → Bool) : Bool := match b with | some x => f x | none => true

/-- The domains that the ports of a topology need lie in PD_USE (R530). -/
def portsPowered (d : DevPar) (mask : BitVec 12) : Bool :=
  (mask &&& 0x03F == 0 || d.pdUse &&& 0x028 == 0x028) && (mask &&& 0xFC0 == 0 || d.pdUse &&& 0x050 == 0x050)

/-- A verdict of CHECK: the code, the section type, and the offending entry of the schedule. -/
structure DrfErr where
  code : Nat
  typ : Nat := 0
  tab : Nat := 0
  idx : Nat := 0
  deriving DecidableEq, Repr

def drfNeeds (ok : Bool) (code typ : Nat) : Option DrfErr := if ok then none else some { code := code, typ := typ }

/-- Rule 2 of R553: the staged sections are well formed, in TYPE order. The form of a schedule is rule 5's. -/
def draftForm (d : Drf) (m : Merged) : Option DrfErr :=
  [drfNeeds (stagedOk (d.body 1) fun b => devOk b m.topo.mask) 0x22 1,
   drfNeeds (stagedOk (d.body 2) fun b => topoOk b && portsPowered m.dev m.topo.mask) 0x22 2,
   drfNeeds (stagedOk (d.body 4) fun b => parForm b && adaptOk b && parCounts m.par m.topo m.dev) 0x22 4, drfNeeds (stagedOk (d.body 5) fltOk) 0x22 5,
   drfNeeds (stagedOk (d.body 6) recsOk) 0x22 6, drfNeeds (stagedOk (d.body 8) netOk) 0x22 8].findSome? id

/-- Rule 5: the schedule of the merged set (R339). -/
def draftSchedule (d : Drf) (m : Merged) : Option SchErr :=
  let v : SchEnv := { dev := m.dev, topo := m.topo, par := m.par, flt := m.flt }
  match d.body 3 with
  | some b => match schForm b with
    | some e => some e
    | none => if 0x80000 < b.length then some { code := 1 } else schVerdict m.sch v
  | none => schVerdict m.sch v

/-- The rules of R553 in their order; none when the set passes. -/
def State.draftVerdict (s : State) : Option DrfErr :=
  let d := s.drf
  let c := d.sections
  let m := s.merged c
  let dev0 := s.sys.cfg.dev
  [drfNeeds (match c.dev with | some x => x.pdUse == dev0.pdUse && x.twinEn == dev0.twinEn | none => true) 0x21 1,
   draftForm d m, drfNeeds (c.topo.isNone || s.flt.latch) 0x23 2, drfNeeds (c.recs.isNone || !s.gst.captures) 0x24 6,
   (draftSchedule d m).map fun e => { code := e.code, typ := 3, tab := e.tab, idx := e.idx },
   drfNeeds (parOkFor m.par m.topo m.sch.p && liveOk m.par m.dev) 0x25 4, drfNeeds (fltClassesOk m.flt) 0x26 5,
   drfNeeds (!m.dev.twinEn || fastOk m.sch m.par) 0x27 0, drfNeeds (!m.dev.twinEn || liveTimeOk m.sch m.dev m.topo) 0x28 0].findSome? id

/-- The CRC fields of the merged set (R527, R555). -/
def State.mergedCrcs (s : State) : List (BitVec 32) :=
  (List.range 9).map fun i =>
    match s.drf.body (i + 1) with
    | some b => crc32c (natBytes 2 (i + 1) ++ natBytes 2 1 ++ natBytes 4 b.length ++ natBytes 4 0 ++ b)
    | none => s.drf.crcs.getD i 0

/-- SCH_LOAD_RES follows a schedule that CHECK has checked (R339, R367). -/
def State.draftLoadRes (s : State) (e : Option DrfErr) : State :=
  if (s.drf.body 3).isNone then s
  else match e with
    | none => s.wr Reg.SCH_LOAD_RES 0
    | some x => if x.code ≤ 12 then (s.wr Reg.SCH_LOAD_RES (loadRes (some { code := x.code, tab := x.tab, idx := x.idx }))).setBit Reg.SCH_EVT 8
      else if 0x25 ≤ x.code then s.wr Reg.SCH_LOAD_RES 0 else s

/-- CHECK_DONE: CHECK completes (R551, R553, R555). -/
def execCheckDone (s : State) : Res :=
  if s.drf.st ≠ .checking then .next s
  else
    let v := s.draftVerdict
    let s1 := s.draftLoadRes v
    match v with
    | none =>
      let crcs := s1.mergedCrcs
      let s2 := { s1 with drf := { s1.drf with st := .checked, set := s1.drf.sections, nextCrcs := crcs } }
      .next (((s2.wr Reg.DRF_SET_ID (setId crcs)).wr Reg.DRF_RES 0).setBit Reg.DRF_EVT 2)
    | some e =>
      let s2 := { s1 with drf := { s1.drf with st := .staging } }
      .next (((s2.wr Reg.DRF_RES (BitVec.ofNat 32 (e.idx % 65536 * 65536 + e.tab * 4096 + e.typ * 256 + e.code))).addField
        Reg.DRF_CNT 0 16 1).setBit Reg.DRF_EVT 3)

/-- The boundary named lies in the span of a handover (R507, R556). -/
def State.inHandover (s : State) (pc : BitVec 32) : Bool :=
  match s.twn.hand with
  | some h => decide (-1 ≤ timeDiff pc h.h) && decide (timeDiff pc h.h ≤ 2)
  | none => false

/-- COMMIT (R556, R561). -/
def State.drfCommit (s : State) : State :=
  let pc := s.rd Reg.DRF_COMMIT_PC
  let d := timeDiff pc s.tb.pc
  let bad := fun (c : Nat) => (s.draftRes c 0).draftRefuse
  if s.drf.st ≠ .checked then bad 0x33
  else if d < 16 then bad 0x30
  else if 2 ^ 24 < d then bad 0x31
  else if s.inHandover pc then bad 0x32
  else { s with drf := { s.drf with st := .pending, pendAt := some pc } }

/-- ABORT (R551, R558, R559). -/
def State.drfAbort (s : State) : State :=
  match s.drf.st with
  | .pending => match s.drf.pendAt with
    | some p => if 2 ≤ timeDiff p s.tb.pc then { s with drf := { s.drf with st := .checked, pendAt := none } }
      else (s.draftRes 0x34 0).draftRefuse
    | none => s
  | .checking => s.draftRefuse
  | _ => s.draftEmpty

/-- The action of an accepted pair of DRF_CMD (R550, R581). DEDUCED: log entry 77. -/
def State.drfCmd (s : State) (v : Word) : State :=
  if s.draftOpenNow = false then s.draftRefuse
  else match fieldOf v 28 4 with
    | 1 => s.drfOpen
    | 2 => s.drfLoad
    | 3 => s.drfCheck
    | 4 => s.drfCommit
    | 5 => s.drfAbort
    | _ => s.draftRefuse

/-- An accepted paired write to DRF_CMD. -/
def State.drfPair (s : State) (a : Nat) : State := (s.wrPair Reg.DRF_CMD (putField a 28)).drfCmd (putField a 28)

/-- OPEN: ACTION 0001 (R551). -/
def execDraftOpen (s : State) : Res := s.via .drf fun t => t.drfPair 1

/-- LOAD: ACTION 0010 (R552). -/
def execLoad (s : State) : Res := s.via .drf fun t => t.drfPair 2

/-- CHECK: ACTION 0011 (R553). -/
def execCheck (s : State) : Res := s.via .drf fun t => t.drfPair 3

/-- COMMIT: ACTION 0100 (R556). -/
def execCommit (s : State) : Res := s.via .drf fun t => t.drfPair 4

/-- ABORT: ACTION 0101 (R559). -/
def execAbort (s : State) : Res := s.via .drf fun t => t.drfPair 5

/-- A topology takes effect: ports whose entry changed go back to stage 5 and run R173 again (R557). -/
def State.commitTopo (s : State) (t : Topo) : State :=
  let old := s.sys.cfg.topo
  let s1 := s.applyTopo t
  let ports := (List.range 12).filter fun n => t.port n ≠ old.port n && t.mask.getLsbD n
  let s2 := if ports.isEmpty then s1
    else { s1 with sys := { s1.sys with stage := 5, stageUp := s1.sys.up, result := 0, ready := false } }
  ports.foldl State.calStart s2

/-- A window of the energy audit restarts where its parameters, its scale or its capacitances change (R61). -/
def State.commitEnergy (s : State) (old : Cfg) : State :=
  (List.range 12).foldl (fun t n =>
    let a := old.topo.port n
    let b := t.topo n
    if old.par.energy ≠ t.sys.cfg.par.energy ∨ a.scale ≠ b.scale ∨ a.cHb ≠ b.cHb ∨ a.cFb ≠ b.cFb then
      let e := t.storedEnergy n
      t.setEnergy n { eStart := some e, eNow := e, lastI := (t.energy n).lastI }
    else t) s

/-- A schedule section takes effect with its P (R30, R343). -/
def State.commitSch (s : State) (c : SchSection) : State :=
  let s1 := (s.applySch c).setBit Reg.SCH_EVT 0
  { s1 with tb := { s1.tb with period := c.p, nextB := s1.tb.bound + BitVec.ofNat 64 c.p } }

/-- The engines take parameters and buffers of the new set (R235, R257, R299, R304). -/
def State.commitEngines (s : State) (par topo : Bool) (samePer : Bool) : State :=
  let t := s.sys.cfg.par
  let s1 := if s.open (.le 0) then (if par then s.applyLe t else s).applyIsland t s.per true par samePer else s
  if par || topo then (List.range 12).foldl (fun u n => u.applyAe n t) s1 else s1

/-- Every section of the set takes effect together (R343, R344, R392, R557). -/
def State.commitSet (s : State) (c : Sections) : State :=
  let old := s.sys.cfg
  let p0 := s.per
  let arms0 := (s.sec.mask, s.gstNcells)
  let s1 := match c.topo with | some t => s.commitTopo t | none => s
  let s2 := match c.sch with | some x => s1.commitSch x | none => s1
  let s3 := match c.par with | some t => { s2 with sys := { s2.sys with cfg := { s2.sys.cfg with par := t } } } | none => s2
  let same := s3.per == p0
  let s4 := if c.par.isSome ∨ c.topo.isSome ∨ same = false then s3.commitEngines c.par.isSome c.topo.isSome same else s3
  let s5 := match c.flt with | some t => s4.applyFlt t false | none => s4
  let s6 := match c.recs with | some l => s5.applyRecs l | none => s5
  let s7 := match c.dev with | some d => s6.applyDev d | none => s6
  let s8 := match c.net with | some n => (s7.applyNet n).launchAgain s7.prpMode | none => s7
  let s9 := (s8.commitEnergy old).gstMark c.sch.isSome (!same)
  if (s9.sec.mask, s9.gstNcells) ≠ arms0 then s9.gstCfgStop else s9

/-- DRAFT_COMMIT_BOUNDARY: the boundary named by the COMMIT has come (R551, R555, R557). -/
def execDraftCommitBoundary (s : State) : Res :=
  if s.drf.st ≠ .pending ∨ s.drf.pendAt ≠ some s.tb.pc ∨ s.now ≠ s.tb.bound then .next s
  else
    let crcs := s.drf.nextCrcs
    let s1 := (s.commitSet s.drf.set).draftEmpty
    let s2 := { s1 with drf := { s1.drf with crcs := crcs } }
    .next (((s2.wr Reg.DRF_SET_ID_EFF (setId crcs)).addField Reg.DRF_CNT 16 16 1).setBit Reg.DRF_EVT 4)

end Sys2Proof.Machine
end

