-- ==== Sys2Proof/Machine/KeyCmds.lean ====
section
/-! DEFINITION. Commands of the config key: insertion and removal, the counter area, KEY_CMD (R521 to R524, R579, R580). -/

namespace Sys2Proof.Machine

/-- A KEY_CMD is refused (KEY_EVT.CMD_REFUSED). -/
def State.keyRefuse (s : State) : State := s.setBit Reg.KEY_EVT 4

/-- The result codes that the insertion of a key leaves (R542, R547). -/
def keyResult (r : Nat) : Bool := r == 0x11 || r == 0x12 || r == 0x13

/-- A key has been inserted while the module has power: it is foreign unless its header is valid and, once a key has been read
at start-up, names that key (R523, R524, R542, R547). -/
def State.keySeen (s : State) : State :=
  let own := keyHeaderOk s.mram && (s.key.id.isNone || s.key.id == some (keyIdOf s.mram))
  let s1 : State := { s.setBit Reg.KEY_EVT 1 with key := { s.key with foreign := !own } }
  if s1.sys.stage = 7 ∧ keyResult s1.sys.result then s1.setStage 2
  else if own && s1.key.id.isSome then
    { s1 with key := { s1.key with due := some (s1.key.due.getD s1.sys.up) } }.pmScan
  else s1

/-- KEY_INSERT: a key with this content is inserted into the empty slot (R523, R524). DEDUCED: log entry 73. -/
def execKeyInsert (content : Memory) (s : State) : Res :=
  if s.key.present then .next s
  else if keyContentOk content = false then .fault .illFormed
  else
    let s1 := { s with mram := content, key := { s.key with present := true } }
    .next (if s.sys.going then s1.keySeen else s1)

/-- KEY_REMOVE: the key leaves the slot; FS252 where the module runs on what it read (R523). -/
def execKeyRemove (s : State) : Res :=
  if s.key.present = false then .next s
  else
    let s1 := { s with mram := [], key := { s.key with present := false, pmNew := none, pmCount := 0 } }
    .next (if s.sys.going then (s1.setBit Reg.KEY_EVT 0).raiseIf s1.key.id.isSome 252 else s1)

/-- The address that KEY_BUF names. -/
def State.keyBuf (s : State) : Nat := s.rdNat Reg.KEY_BUF_LO + 0x100000000 * s.field Reg.KEY_BUF_HI 0 2

/-- The ranges of a read or write: KEY_LEN, the key's end, DRAM channel B (R579, R580). -/
def KeyCmd.inRange (c : KeyCmd) : Bool :=
  decide (1 ≤ c.len ∧ c.len ≤ 25165824) && decide (c.addr + c.len ≤ keySize) && decide (0x200000000 ≤ c.buf ∧ c.buf + c.len ≤ 0x400000000)

/-- A write lies wholly within image A or wholly within image B (R580). -/
def KeyCmd.inImage (c : KeyCmd) : Bool :=
  (List.range 2).any fun i => let a := keyImageAt (i == 1); decide (a ≤ c.addr ∧ c.addr + c.len ≤ a + 0x1800000)

/-- May the command be taken? (R580). DEDUCED: log entry 74. -/
def State.keyMay (s : State) (c : KeyCmd) : Bool :=
  s.key.cmd.isNone && s.key.present && !s.key.foreign && decide (1 ≤ c.action ∧ c.action ≤ 4) &&
  (decide (2 < c.action) || c.inRange) && (c.action != 2 || (c.inImage && s.sys.pm.isNone)) &&
  (c.action != 4 || decide (c.slot < 2))

/-- The action of an accepted pair of KEY_CMD (R579, R580). -/
def State.keyCmd (s : State) (v : Word) : State :=
  let c : KeyCmd := { action := fieldOf v 28 4, slot := fieldOf v 0 4, addr := s.field Reg.KEY_ADDR 0 27
                      len := s.field Reg.KEY_LEN 0 25, buf := s.keyBuf }
  if c.action = 0 then s
  else if s.keyMay c then { s with key := { s.key with cmd := some c } } else s.keyRefuse

/-- An accepted paired write to KEY_CMD. -/
def State.keyPair (s : State) (action slot : Nat) : State :=
  let v : Word := putField action 28 ||| BitVec.ofNat 32 slot
  (s.wrPair Reg.KEY_CMD v).keyCmd v

/-- KEY_READ: ACTION 0001 (R580). -/
def execKeyRead (s : State) : Res := s.via .key fun t => t.keyPair 1 0

/-- KEY_WRITE: ACTION 0010 (R580). -/
def execKeyWrite (s : State) : Res := s.via .key fun t => t.keyPair 2 0

/-- KEY_INVALIDATE_PM: ACTION 0011 on a post-mortem slot (R580). -/
def execKeyInvalidatePm (slot : Fin 16) (s : State) : Res := s.via .key fun t => t.keyPair 3 slot

/-- KEY_VERIFY: ACTION 0100 on image A or B (R580). -/
def execKeyVerify (b : Bool) (s : State) : Res := s.via .key fun t => t.keyPair 4 (if b then 1 else 0)

/-- What a completed command does (R574, R579, R580). -/
def State.keyEffect (s : State) (c : KeyCmd) : State :=
  match c.action with
  | 1 => s.ramWrite c.buf (s.mram.bytes c.addr c.len)
  | 2 => (s.keyPut c.addr (s.ram.bytes c.buf c.len)).lifeUp 6
  | 3 => (s.keyPut (keySlotAt c.slot) (natBytes 512 0)).pmScan
  | _ =>
    let b := c.slot == 1
    s.putImgRes b (imgCheck (s.imageBytes b) s.fuses)

/-- KEY_COMMAND_DONE: the command in progress ends; a write whose read-back fails, or whose data came marked in error, sets
WRITE_FAIL and raises FS254 (R580, R673). -/
def execKeyCommandDone (ok : Bool) (s : State) : Res :=
  match s.key.cmd with
  | none => .next s
  | some c =>
    let s1 := { s with key := { s.key with cmd := none } }
    if c.action = 1 ∨ c.action = 4 then .next ((if s.key.present then s1.keyEffect c else s1).setBit Reg.KEY_EVT 2)
    else if ok ∧ c.marked = false ∧ s.key.present then .next ((s1.keyEffect c).setBit Reg.KEY_EVT 2)
    else
      let torn := if s.key.present then (if c.action = 2 then s1.keyTorn c.addr c.len else s1.keyTorn (keySlotAt c.slot) 512) else s1
      .next ((torn.setBit Reg.KEY_EVT 3).raise 254)

/-- The hour count of RUN_MIN, which is written every 60 minutes (R520). -/
def State.runHours (s : State) : Nat := s.sys.up / 720000000000

/-- COUNTER_AREA_WRITE: changes that have fallen due are written to the copy not in effect, once the area has been read; a
failed write raises FS254 (R389, R492, R520, R521, R523, R524). -/
def execCounterAreaWrite (ok : Bool) (s : State) : Res :=
  if s.key.present = false ∨ s.key.foreign ∨ s.key.id.isNone ∨ (s.key.due.isNone ∧ s.runHours ≤ s.key.hours) then .next s
  else
    let copy := 1 - s.key.copy
    if ok then
      let seq := s.key.seq + 1
      let s1 := s.keyPut (keyCopyAt copy) (s.areaBytes seq)
      .next { s1 with key := { s1.key with
        seq := seq, copy := copy, due := none, hours := s.runHours, wrote := s.key.id.map fun i => (i, s.upMin)
        life := s.key.life.set 7 Config.serial } }
    else .next ((s.keyTorn (keyCopyAt copy) 512).raise 254)

end Sys2Proof.Machine
end

