-- ==== Sys2Proof/Machine/Network.lean ====
section
/-! DEFINITION. Commands of the station network: links, frames, PRP, orders, status, launch rings and network time
(R583 to R628). Nothing happens on the network while PD9 is off. -/

namespace Sys2Proof.Machine

/-- LINK_DOWN: a link has been without synchronisation, or without negotiation (R585, R592). -/
def execLinkDown (p : Fin 3) (s : State) : Res :=
  if s.open .net = false ∨ s.net.link.getLsbD p = false then .next s
  else
    let s1 := { s with net := { s.net with link := s.net.link &&& ~~~ ((1 : BitVec 3) <<< (p : Nat)) } }.setBit Reg.NET_EVT 0
    let s2 := s1.raiseIf (decide ((p : Nat) < 2)) (208 + p)
    .next (if s2.prpMode ∧ (p : Nat) < 2 then s2.pathLost p else s2)

/-- LINK_UP: a link has been synchronised, and negotiated, for 10 ms (R585). A PRP path is present again where a frame with
a trailer has come within PATH_TMO (R592). -/
def execLinkUp (p : Fin 3) (s : State) : Res :=
  if s.open .net = false ∨ s.net.link.getLsbD p then .next s
  else
    let s1 := { s with net := { s.net with link := s.net.link ||| ((1 : BitVec 3) <<< (p : Nat)) } }.setBit Reg.NET_EVT 0
    let recent : Bool := match Sparse.get (fun _ => none) s1.net.trailerAt (p : Nat) with
      | some t => decide (s1.sys.up < t + ms (s1.netField 0x52 2))
      | none => false
    .next (if s1.prpMode && decide ((p : Nat) < 2) && recent then
      { s1 with net := { s1.net with path := s1.net.path ||| ((1 : BitVec 2) <<< (p : Nat)) } } else s1)

/-- An order datagram's checks (R612 to R617). -/
def State.orderIn (s : State) (ip : BitVec 32) (d : List Byte) : State :=
  let c := s.ordCheck ip d
  if c = 0 then s.ordAccept d
  else if c = 6 ∧ s.net.lastSeq = some (BitVec.ofNat 32 (beAt d 0x0C 4)) then s.bump Reg.NET_ORD_DUP
  else s.ordRefuse c

/-- The order datagram that a frame holds is checked. -/
def State.orderFrame (s : State) (f : List Byte) : State :=
  match udpOf f with
  | some u => s.orderIn (BitVec.ofNat 32 u.2.2.1) u.2.2.2
  | none => s

/-- A frame on NET A or NET B: PRP, then the ring; order datagrams go to the order filter (R588 to R591, R600, R612). -/
def State.netFrame (s : State) (p : Nat) (f : List Byte) : State :=
  let ts := (s.ingress p f.length).setWidth 32
  let onB := p == 1
  let take := fun (t : State) (q : Nat) => if t.isOrder p f then t.orderFrame f else t.ringDeliver q f ts onB
  if s.prpMode then
    match prpTrailer f with
    | none => take s (if (ptpAt f).isSome then p else 0)
    | some (seq, lan) =>
      let s1 := s.pathSeen p
      let s2 := if lan ≠ 0xA + p then s1.bump Reg.NET_PRP_WRONG else s1
      if (ptpAt f).isSome then s2.ringDeliver p f ts onB
      else if lan ≠ 0xA + p then take s2 0
      else
        let r := s2.prpTake p (BitVec.ofNat 48 (beAt f 6 6)) seq ((s2.headDesc 0 0).map (·.1))
        match r.1 with
        | none => take r.2 0
        | some e =>
          if p = 0 ∧ e.port = 1 ∧ e.tick = s.sys.up ∧ r.2.isOrder p f = false then r.2.prpInstead e f ts else r.2
  else take s p

/-- FRAME_RECEIVE: a frame without its check sequence has been received on a port (R583, R587 to R591, R600, R604). -/
def execFrameReceive (p : Fin 3) (f : List (BitVec 8)) (s : State) : Res :=
  if s.open .net = false ∨ s.net.link.getLsbD p = false ∨ f.length < 14 ∨ 1518 < f.length then .next s
  else if (p : Nat) = 2 then .next (s.ringDeliver 2 f 0 false)
  else .next (s.netFrame p f)

/-- PRP_SUPERVISION_SEND: 2,000 ms after the last, a supervision frame goes out on both ports in MODE 1 (R588, R592). -/
def execPrpSupervisionSend (s : State) : Res :=
  if s.open .net ∧ s.prpMode then
    let s1 := match s.net.supAt with | some t => s.elapse (t + ms 2000 - s.sys.up) | none => s
    let s2 := s1.sentFrame 0 s1.supFrame
    .next { s2 with net := { s2.net with supSent := s2.net.supSent + 1, supAt := some s2.sys.up } }
  else .next s

/-- PRP_PATH_TIMEOUT: no frame with a trailer has come on a path for PATH_TMO (R592). -/
def execPrpPathTimeout (p : Fin 2) (s : State) : Res :=
  match Sparse.get (fun _ => none) s.net.trailerAt (p : Nat) with
  | some t =>
    if s.open .net ∧ s.prpMode then
      .next ((s.elapse (t + ms (s.netField 0x52 2) - s.sys.up)).pathLost p)
    else .next s
  | none => .next s

/-- ORDER_MESSAGE: a UDP datagram from `ip` addressed to the module's order port is checked, in MODE 1 after duplicate discard
(R586, R589, R612 to R617). -/
def execOrderMessage (c : OrdCopy) (ip : BitVec 32) (d : List (BitVec 8)) (s : State) : Res :=
  if s.open .net = false ∨ s.net.link.getLsbD c.port = false then .next s
  else match s.prpMode, c.tag with
    | true, some (mac, seq, lan) =>
      let s1 := s.pathSeen c.port
      if lan.toNat ≠ 0xA + c.port then .next ((s1.bump Reg.NET_PRP_WRONG).orderIn ip d)
      else
        let r := s1.prpTake c.port mac seq none
        .next (if r.1.isSome then r.2 else r.2.orderIn ip d)
    | _, _ => .next (s.orderIn ip d)

/-- ORDER_APPLY: NT reaches NT_APPLY of the held message (R617). -/
def execOrderApply (s : State) : Res :=
  match s.net.held with
  | some (m, t) =>
    let s1 := s.toNt t
    .next (State.ordEnter { s1 with net := { s1.net with held := none } } m)
  | none => .next s

/-- ORDER_LIFETIME_EXPIRY: the lifetime of the last accepted message has run out. It is decided once the tick in which it runs out
is over, since a message of that tick prevents it (R614, R615). -/
def execOrderLifetimeExpiry (s : State) : Res :=
  match s.net.lifeTo with
  | some t =>
    let s1 := s.elapse (t + 1 - s.sys.up)
    .next (State.raise { s1 with net := { s1.net with lifeTo := none, expired := true } } 212)
  | none => .next s

/-- The front buffer is freed, and a waiting message moves forward (R618). -/
def State.ordRel (s : State) : State := { s with net := { s.net with front := s.net.back, back := none } }

/-- NET_ORD_REL: a write of 1 (R618). -/
def execNetOrdRel (s : State) : Res := s.via .net State.ordRel

/-- Launch times that lie in the past are skipped (R622): how many. -/
def State.statSkips (s : State) : Nat :=
  let d := timeDiff s.ntLow s.net.statNext
  let step := 125 * s.statPer
  if d ≤ 0 ∨ step = 0 then 0 else d.toNat / step + 1

/-- STATUS_BUILD: STAT_LEAD before its launch the next status message is built and queued on the launch rings; launch times that
have passed are skipped, and the message for the first that has not is built at its own time (R621, R622). In MODE 1 only NET A's
ring carries traffic. -/
def execStatusBuild (s : State) : Res :=
  if s.open .net = false ∨ s.statPer = 0 then .next s
  else
    let lead := BitVec.ofNat 32 (125 * s.netField 0x48 2)
    let s1 := s.toNt (s.net.statNext - lead)
    let k := s1.statSkips
    let launch := s1.net.statNext + BitVec.ofNat 32 (k * 125 * s1.statPer)
    let s2 := if 0 < k then ((s1.addField Reg.NET_STAT_CNT 0 16 k).setBit Reg.NET_EVT 4).raise 214 else s1
    if 0 < k ∧ 0 < timeDiff (launch - lead) s2.ntLow then .next { s2 with net := { s2.net with statNext := launch } }
    else
      let s3 := (List.range 2).foldl (fun t p =>
        if (s2.netByte 0x4B).testBit p && s2.ringCarries p 2 then
          t.setLaunch p (t.launchQ p ++ [LaunchItem.status launch (s2.statusFrame p launch)])
        else t) s2
      .next { s3 with net := { s3.net with
        statSeq := s3.net.statSeq + 1, statNext := launch + BitVec.ofNat 32 (125 * s3.statPer) } }

/-- The head of a launch ring comes up for sending: when NT reaches its LAUNCH or, on a busy port, once the frame in
transmission has completed and its inter-frame gap and 8 octets have gone by (R605, R607). -/
def State.launchTurn (s : State) (p : Nat) (x : LaunchItem) : State :=
  let s1 := s.toNt (s.launchOf p x)
  match s1.txEnds p with
  | none => s1
  | some e => (s1.frameEnd p).toNt ((e + 20).setWidth 32)

/-- The head of a launch ring is sent, or dropped late (R605 to R607). -/
def State.launchHead (s : State) (p : Nat) (x : LaunchItem) (rest : List LaunchItem) : State :=
  let s1 := s.launchTurn p x
  let late := timeDiff s1.ntLow (s1.launchOf p x)
  let s2 := s1.setLaunch p rest
  if (s1.field (Reg.NET_LATE_WIN p) 0 16 : Int) < late then
    let s3 := ((s2.bump Reg.NET_LATE_CNT).setBit Reg.NET_EVT 4).raise 214
    match x with
    | .desc i => let d := s3.desc p 2 i; (s3.descDone p 2 i d.len (doneFlags d true false false false) d.time).txStart p
    | .status _ _ => s3.txStart p
  else { s2 with net := { s2.net with sending := Sparse.put (fun _ => none) s2.net.sending p (some (x, s1.net.count)) } }

/-- May the head of a launch ring be used? The port's rings must be enabled, and a descriptor needs OWN and a ring with a size
(R603, R604, NET_PORT_CTL, NET_RING_SIZE). What is queued already goes out whatever the mode has become (R624). DEDUCED: log
entry 145. -/
def State.launchMay (s : State) (p : Nat) (x : LaunchItem) : Bool :=
  s.bitOf (Reg.NET_PORT_CTL p) 0 &&
  match x with
  | .desc i => s.ringOn p 2 && (s.desc p 2 i).bit 0
  | .status _ _ => true

/-- LAUNCH_FRAME_SEND: NT reaches LAUNCH of the head of a launch ring, and the frame is sent or dropped (R604 to R608). -/
def execLaunchFrameSend (p : Fin 2) (s : State) : Res :=
  if s.open .net = false then .next s
  else match s.launchQ p with
    | x :: rest => .next (if s.launchMay p x then s.launchHead p x rest else s)
    | [] => .next s

/-- A write of a ring's tail (R604, R605, R607): on a launch ring that carries traffic the new descriptors are queued; an idle port
takes the head of ring 1. -/
def State.ringTailWrite (s : State) (p r : Nat) (tail : Nat) : State :=
  let old := s.ringTail p r
  let s1 := s.setField (Reg.NET_RING_PTR p r) 0 10 tail
  if r = 2 ∧ p < 2 ∧ s1.ringCarries p 2 then s1.setLaunch p (s1.launchQ p ++ (ringSpan 1024 old tail (s1.ringSize p r)).map .desc)
  else if r = 1 then s1.txStart p else s1

/-- RING_TAIL_WRITE: firmware advances a tail (R604). -/
def execRingTailWrite (p : Fin 3) (r : Fin 3) (tail : BitVec 10) (s : State) : Res :=
  s.via .net fun t => t.ringTailWrite p r tail.toNat

/-- FRAME_TRANSMIT_DONE: the frame in transmission on a port has ended: the launch frame, or the head of ring 1, which an
idle port starts again where GUARD lets it (R600 to R604, R607). A head of ring 1 that became ready without a write of
the tail was started in time to end now, where GUARD let it. -/
def execFrameTransmitDone (p : Fin 3) (s : State) : Res :=
  if s.open .net = false then .next s
  else if (s.txEnds p).isSome then .next ((s.frameEnd p).txStart p)
  else
    match s.headDesc p 1 with
    | some (i, d) =>
      if s.guardOk p d.len (s.net.count - BitVec.ofNat 64 (s.wireLen p d.len + 12)) then
        .next ((s.txDone p 1 i (s.stampOf (s.wireLen p d.len) 0)).txStart p)
      else .next s
    | none => .next s

/-- A write of ADJ (R593). -/
def State.ntAdj (s : State) (v : Word) : State :=
  let x := v.toInt
  let y := max (-4294967) (min 4294967 x)
  let s := { s with net := s.net.marked (s.rd Reg.NET_NT_ADJ) }
  (s.wr Reg.NET_NT_ADJ (BitVec.ofInt 32 y)).setBitIf (decide (x ≠ y)) Reg.NET_EVT 2

/-- NET_NT_ADJ: a write (R593). -/
def execNetNtAdj (v : Word) (s : State) : Res := s.via .net fun t => t.ntAdj v

/-- A write of NET_NT_STEP_HI: NT steps by the signed 64-bit value, its fraction unchanged (R594, R597). -/
def State.ntStepBy (s : State) (hi : Word) : State :=
  let step : BitVec 64 := hi ++ s.rd Reg.NET_NT_STEP_LO
  let s1 := (s.wr Reg.NET_NT_STEP_HI hi).setBit Reg.NET_EVT 3
  let x := s1.net.marked (s.rd Reg.NET_NT_ADJ)
  { s1 with net := { x with nt := x.nt + (step.setWidth 96 <<< 32) } }.ntUnlock

/-- NT_STEP: a write to NET_NT_STEP_HI (R594). -/
def execNtStep (hi : Word) (s : State) : Res := s.via .net fun t => t.ntStepBy hi

/-- A servo update (R597, R598). -/
def State.ntOffset (s : State) (v : Word) : State :=
  let s1 := { s.wr Reg.NET_NT_OFFSET v with net := { s.net with servoAt := some s.sys.up } }
  if v.toInt.natAbs ≤ s.netField 0x58 4 then
    let n := satInc s1.net.inBand 255
    { s1 with net := { s1.net with inBand := n, locked := s1.net.locked || decide (s.netByte 0x5C ≤ n) } }
  else s1.ntUnlock

/-- NET_NT_OFFSET: a write (R597). -/
def execNetNtOffset (v : Word) (s : State) : Res := s.via .net fun t => t.ntOffset v

/-- SERVO_UPDATE_TIMEOUT: no update has come for 2 s (R597). -/
def execServoUpdateTimeout (s : State) : Res :=
  match s.net.servoAt with
  | some t =>
    if s.open .net then
      let s1 := s.elapse (t + ms 2000 - s.sys.up)
      .next (State.ntUnlock { s1 with net := { s1.net with servoAt := none } })
    else .next s
  | none => .next s

/-- NT and VT_P are captured in the same tick (R596). -/
def State.netLatchNow (s : State) : State :=
  let n := s.net.count
  let v := s.now
  (((s.wr Reg.NET_LATCH_NT_LO (n.setWidth 32)).wr Reg.NET_LATCH_NT_HI (BitVec.ofNat 32 (n.toNat / 2 ^ 32))).wr
    Reg.NET_LATCH_VT_LO (v.setWidth 32)).wr Reg.NET_LATCH_VT_HI (BitVec.ofNat 32 (v.toNat / 2 ^ 32))

/-- NET_LATCH: a write of 1 (R596). -/
def execNetLatch (s : State) : Res := s.via .net State.netLatchNow

/-- NET_NT_LO_READ: a read latches the upper bits of the same value (R595). -/
def execNetNtLoRead (s : State) : Res :=
  if s.open .net then
    let n := s.net.count
    .next { s.wr Reg.NET_NT_HI (BitVec.ofNat 32 (n.toNat / 2 ^ 32)) with bus := { data := n.setWidth 32, err := false } }
  else .next { s with bus := { data := 0, err := false } }

/-- TXTS_POP: a read of NET_TXTS_HDR pops the head of the queue (R601, R626). -/
def execTxtsPop (p : Fin 2) (s : State) : Res :=
  if s.open .net then
    match Sparse.get (fun _ => []) s.net.txts (p : Nat) with
    | e :: r =>
      let s1 := { s with net := { s.net with txts := Sparse.put (fun _ => []) s.net.txts (p : Nat) r } }
      let v : Word := bitIf true 31 ||| putField e.1.toNat 16 ||| BitVec.ofNat 32 e.2.1.toNat
      .next { s1.wr (Reg.NET_TXTS_NT p) e.2.2 with bus := { data := v, err := false } }
    | [] => .next { s with bus := { data := 0, err := false } }
  else .next { s with bus := { data := 0, err := false } }

/-- SFP_DIAG_READ: the diagnostics of a module: received and transmit power in 0.1 µW (R584). -/
def execSfpDiagRead (p : Fin 2) (rx tx : BitVec 16) (s : State) : Res :=
  s.via .net fun t => t.wr (Reg.NET_SFP p) (BitVec.ofNat 32 (rx.toNat * 65536 + tx.toNat))

/-- The counters that NET_CNT_CLR clears (R626). -/
def State.netCntClr (s : State) : State :=
  (s.setField Reg.NET_ORD_REF 16 16 0).clearAll
    [Reg.NET_ORD_CNT, Reg.NET_ORD_DUP, Reg.NET_STAT_CNT, Reg.NET_LATE_CNT, Reg.NET_PRP_DUP, Reg.NET_PRP_WRONG]

/-- NET_CNT_CLR: a write of 1 (R626). -/
def execNetCntClr (s : State) : Res := s.via .net State.netCntClr

end Sys2Proof.Machine
end

