-- ==== Sys2Proof/Machine/Twin.lean ====
section
/-! DEFINITION. The commands of the twin: messages of X13, checkpoints, claims, takeback and firmware's commands
(R469 to R516), and the WITNESS blocks of the trees (R184). -/

namespace Sys2Proof.Machine

/-- Ticks from the boundary of the period in progress to that of the period with PC `pc`. -/
def State.toPc (s : State) (pc : BitVec 32) : BitVec 64 :=
  s.tb.bound + BitVec.ofInt 64 (timeDiff pc s.tb.pc * (s.per : Int))

/-- WITNESS_RECEIVE: a WITNESS block with the root's E_MAX and hub records (R184, R493 to R502); one whose E_MAX pair is
broken is not used, and the port's island raises its integrity fault (R49 to R51). -/
def execWitnessReceive (p : Fin 12) (eMax eMaxC : BitVec 16) (recs : List (BitVec 8)) (s : State) : Res :=
  if (s.lane p).inData = false then .next s
  else if pairOk eMax eMaxC = false then .next (s.integrity (22 + p))
  else
    let x := s.port p
    let s1 := s.setPort p { x with wit := some { eMax := eMax, eMaxC := eMaxC, recs := recs, at_ := s.now }
                                   eMaxs := (eMax, eMaxC, s.now) :: x.eMaxs.filter fun w => !s.since w.2.2 (s.leaseTicks + 1) }
    let s2 := s1.wr (Reg.PRT_WIT_LAST p) (BitVec.ofNat 32 (eMax.toNat * 65536 + recs.length % 256))
    .next (if s.inUse p then (s2.raiseIf (s2.duty && recs.any fun r => r.getLsbD 2) 202).witness p eMax else s2)

/-- Has a WITNESS received on a port in use within the last L, since the module became DUTY, shown another epoch? (R494)
DEDUCED: log entry 61. -/
def State.wrongWitness (s : State) : Bool :=
  match s.twn.dutyAt with
  | none => false
  | some f => s.portsUsed.any fun n => (s.port n).eMaxs.any fun w =>
      !s.since w.2.2 (s.leaseTicks + 1) && reached w.2.2 f && pairOk w.1 w.2.1 && w.1 != s.epoch

/-- Does a STATUS of the partner received within the last 8 periods show DUTY or CLAIMING? (R494) -/
def State.rival (s : State) : Bool :=
  match s.twn.partner with
  | some p => (p.lease == 3 || p.lease == 2) && !s.since p.at_ (8 * s.per + 1)
  | none => false

/-- The audit of the lease at a renewal (R494). DEDUCED: log entry 61. -/
def State.leaseAudit (s : State) : State :=
  let seen := ((s.recentRecs s.leaseTicks).filter recSeen).length
  (s.raiseIf (s.wrongWitness || s.rival) 195).raiseIf (decide (2 * seen ≤ s.hubCount)) 201

/-- Time moves on to the tick at which what is sent every `n` ticks is due again (R480, R489, R493, R500).
DEDUCED: log entry 126. -/
def State.dueAgain (s : State) (last : Option (BitVec 64)) (n : Nat) : State :=
  match last with
  | some t => s.advanceTo (t + BitVec.ofNat 64 n)
  | none => s

/-- The time at which what is sent every `n` ticks was last due: a sending that comes late does not put off those after it.
DEDUCED: log entry 126. -/
def State.dueMark (s : State) (last : Option (BitVec 64)) (n : Nat) : BitVec 64 :=
  match last with
  | some t => t + BitVec.ofNat 64 ((s.now - t).toNat / n * n)
  | none => s.now

/-- RENEW_SEND: every L/4 the duty renews the lease and audits it (R489, R494). -/
def execRenewSend (s : State) : Res :=
  if s.duty = false then .next s
  else
    let s0 := s.dueAgain s.twn.renewAt (s.leaseTicks / 4)
    let s1 := s0.leaseAudit
    if s1.duty = false then .next s1
    else
      let arg := (if s1.flt.latch then 65536 else 0) + s1.field Reg.TWN_CFG 16 16
      let s2 := if s1.twinUp then s1.sendMsg 0x01 (BitVec.ofNat 64 arg) else s1
      let s3 := s2.sendLease 0 none
      .next { s3 with twn := { s3.twn with renewAt := some (s0.dueMark s.twn.renewAt (s.leaseTicks / 4)) } }

/-- RENEW: a RENEW of the partner (R491, R493, R495, R513). -/
def execRenew (m : TwMsgIn) (s : State) : Res :=
  s.onMsg m fun t =>
    let t1 := t.learnEpoch m.epoch
    if t1.holds then t1
    else
      let sent := match t1.twn.claim with | some c => c.step == ClaimStep.sent | none => false
      if sent then t1
      else
        let t2 := t1.dropClaim
        let t3 := { t2 with twn := { t2.twn with viewTo := some (t2.now + BitVec.ofNat 64 (us (fieldOf m.arg 0 16))) } }
        t3.startTrees

/-- What a STATUS says (R480). -/
def partnerOf (arg : BitVec 64) (now : BitVec 64) : Partner :=
  { lease := fieldOf arg 0 4, healthy := arg.getLsbD 4, aligned := arg.getLsbD 5, owner := arg.getLsbD 6
    result := fieldOf arg 8 8, at_ := now }

/-- The clashes a STATUS reveals (R471, R473). -/
def State.statusClash (s : State) (c : TwClash) : State :=
  match c with
  | .none => s
  | .slot => if s.twn.lease = .init then s.twnFail 0x15 else s
  | .time => if s.holds ∨ s.twn.lease = .failed then s else s.twnFail 0x16

/-- STATUS: a STATUS of the partner (R471, R473, R480, R493, R495, R505). DEDUCED: log entry 62. -/
def execStatus (m : TwMsgIn) (clash : TwClash) (s : State) : Res :=
  s.onMsg m fun t =>
    let was := match t.twn.partner with | some p => p.lease | none => 0
    let p := partnerOf m.arg t.now
    let t1 := { t with twn := { t.twn with partner := some p } }
    let t2 := if p.lease = 6 ∧ was ≠ 6 then t1.raise 200 else t1
    let t3 := if t2.twn.epochKnown then t2 else t2.learnEpoch m.epoch
    let t4 := if t3.twn.lease = .warm ∧ p.lease ≠ 3 ∧ p.lease ≠ 5 then t3.standDown else t3
    let t5 := if t4.twn.lease = .init ∧ p.lease = 3 then t4.startTrees else t4
    t5.statusClash clash

/-- STATUS_SEND: every 8 periods (R480). -/
def execStatusSend (s : State) : Res :=
  if s.twinUp = false then .next s
  else
    let t0 := s.dueAgain s.twn.statusAt (8 * s.sec.p)
    let t := { t0 with twn := { t0.twn with statusAt := some (t0.dueMark s.twn.statusAt (8 * s.sec.p)) } }.noteHealth
    let arg := t.field Reg.TWN_RES 24 8 * 256 + (if t.timeOwner then 64 else 0) + (if t.aligned then 32 else 0) +
      (if t.healthy then 16 else 0) + t.twn.lease.code
    .next (t.sendMsg 0x02 (BitVec.ofNat 64 arg))

/-- SURRENDER: a valid SURRENDER ends the view at once (R491). -/
def execSurrender (m : TwMsgIn) (s : State) : Res :=
  s.onMsg m fun t => if t.holds then t else t.viewEnds

/-- The first period of PC at least 8 above the duty's own with no committed boundary from b(h − 1) to b(h + 2) (R507). -/
def State.handPeriod (s : State) : BitVec 32 :=
  let h := s.tb.pc + 8
  match s.drf.pendAt with
  | some q => if 0 ≤ timeDiff q (h - 1) ∧ 0 ≤ timeDiff (h + 2) q then q + 2 else h
  | none => h

/-- RECLAIM: a duty secondary answers with HANDOVER (R495, R507). -/
def execReclaim (m : TwMsgIn) (s : State) : Res :=
  s.onMsg m fun t =>
    if t.duty && t.twn.secondary && t.tb.run then
      let h := t.handPeriod
      let t1 := (t.sendMsg 0x05 (BitVec.ofNat 64 h.toNat)).setLease .handing
      { t1 with twn := { t1.twn with hand := some { h := h, began := t1.now } } }
    else t

/-- HANDOVER: the primary in WARM learns the period h (R507, R510). -/
def execHandover (m : TwMsgIn) (s : State) : Res :=
  s.onMsg m fun t =>
    if t.twn.lease = .warm then
      { t with twn := { t.twn with hand := some { h := BitVec.ofNat 32 (fieldOf m.arg 0 32), began := t.now } } }
    else t

/-- ACK: the secondary in HANDING enters ZEPHYR (R495, R510, TWN_SURR). -/
def execAck (m : TwMsgIn) (s : State) : Res :=
  s.onMsg m fun t =>
    match t.twn.lease, t.twn.hand with
    | .handing, some h =>
      let first := BitVec.ofNat 32 (fieldOf m.arg 0 32)
      let t1 := (t.wr Reg.TWN_SURR 5).setBit Reg.TWN_EVT 6
      let t2 := t1.wr Reg.TWN_RES (BitVec.ofNat 32 ((if first = h.h then 0x02 else 0x03) * 2 ^ 24 + t1.usSince h.began))
      (t2.wr Reg.TWN_TKO_PC first).standDown
    | _, _ => t

/-- The surrender condition of the arm ports is tested again after a handover (R498, R513). -/
def State.retestPorts (s : State) : State :=
  match s.portsUsed.find? fun n => !(s.lane n).inData with
  | some n => if s.twinEn && s.duty && s.partnerReady then s.surrender 1 n else s
  | none => s

/-- A handover has failed (R511). -/
def State.handFail (s : State) (code : Nat) : State := ((s.twnResult code).setBit Reg.TWN_EVT 7).raise 203

/-- NAK: the secondary in HANDING resumes as duty (R511, R513). -/
def execNak (m : TwMsgIn) (s : State) : Res :=
  s.onMsg m fun t =>
    match t.twn.lease, t.twn.hand with
    | .handing, some h =>
      let q := t.periodAfter 16
      let t1 := t.setLease .duty
      let from_ := if timeDiff t.tb.pc h.h < 0 ∧ q = t.tb.pc + 1 then none else some q
      let t2 := { t1 with twn := { t1.twn with hand := none, computeFrom := from_ } }
      (t2.handFail 0x20).retestPorts
    | _, _ => t

/-- ECHO: the ECHO_RESP goes out exactly 256 ticks after the ECHO's first symbol has arrived (R474). -/
def execEcho (m : TwMsgIn) (s : State) : Res :=
  s.onMsg m fun t =>
    t.putMsg (t.mkMsg 0x09 t.now (t.now + 256))

/-- ECHO_RESP: the delay of the link, and VT_OFS where it is still unset; the response arrives `ui` unit intervals into the
present tick (R472, R474, TWN_DELAY). -/
def execEchoResp (m : TwMsgIn) (ui : Fin 32) (s : State) : Res :=
  s.onMsg m fun t =>
    match t.twn.echoAt with
    | none => t
    | some t1 =>
      let t4 : Int := 32 * (t.tb.vt.toNat : Int) + (ui : Nat)
      let twice : Int := (t4 - t1) - 32 * timeDiff m.vt m.arg
      let u := { t with twn := { t.twn with echoAt := none } }.wr Reg.TWN_DELAY
        (BitVec.ofNat 32 (min (twice / 2).toNat 0xFFFFFF))
      if u.twn.ofsSet ∨ u.tb.run then u
      else u.setOfs (BitVec.ofInt 64 ((64 * (m.arg.toNat : Int) - 2 * t1 - twice) / 64))

/-- TWIN_ECHO_SEND: a module that is not the owner sends ECHO to align, and again every 1,024 periods (R473 to R475). -/
def execTwinEchoSend (s : State) : Res :=
  if s.twinUp && !s.timeOwner && (!s.twn.ofsSet || decide (s.tb.pc.toNat % 1024 = 0)) then
    .next s.sendEcho
  else .next s

/-- PARTNER_TIMEOUT: no STATUS within 100 ms of entering INIT (R473). -/
def execPartnerTimeout (s : State) : Res :=
  if s.twn.lease = .init ∧ s.sys.stage ≥ 4 ∧ s.twn.ofsSet = false ∧ s.twn.partner.isNone then
    let t := s.advanceTo (s.twn.initAt + BitVec.ofNat 64 (us 100000))
    .next { t with twn := { t.twn with ofsSet := true, owner := true } }
  else .next s

/-- A checkpoint's counters (TWN_CKPT_PC, TWN_CKPT_CNT, TWN_CKPT_LEN). -/
def State.ckptCount (s : State) (pc : BitVec 32) (len : Nat) : State :=
  ((s.wr Reg.TWN_CKPT_PC pc).addField Reg.TWN_CKPT_CNT 0 16 1).wr Reg.TWN_CKPT_LEN (BitVec.ofNat 32 (len % 2 ^ 18))

/-- CHECKPOINT_CAPTURE: at the first boundary at or after the last capture plus 50,000 ticks (R483 to R485). -/
def execCheckpointCapture (s : State) : Res :=
  let due := match s.twn.ckptAt with | some t => s.since t 50000 | none => true
  if s.duty && s.twinEn && s.tb.run && decide (s.inPer = 0) && due then
    let fast := s.fastBytes
    let part := s.twn.ckptPart % 8
    let b := ckptBytes s.tb.pc s.epoch s.tb.bound s.per part s.ckptFlags fast.length s.sec.id (fast ++ s.eddyBytes part)
    let s1 := { s with twn := { s.twn with
      ckptAt := some s.now, ckptNo := s.twn.ckptNo + 1, ckptPart := part + 1, ckptOut := b } }.startXfer
        (some { live := false, no := s.twn.ckptNo + 1, bytes := b })
    .next (if s.twinUp then s1.ckptCount s.tb.pc fast.length else s1)
  else .next s

/-- A checkpoint that fails is discarded and the one before is kept (R487). -/
def State.ckptBad (s : State) : State := ((s.addField Reg.TWN_CKPT_CNT 16 16 1).setBit Reg.TWN_EVT 3).raise 199

/-- A valid checkpoint is held; in WARM it is restored as it completes (R487, R506). -/
def State.ckptHold (s : State) (b : List Byte) : State :=
  let n := 64 + ckptFastLen b
  let s1 := { s with twn := { s.twn with
    held := some (b.take n), parts := Sparse.put (fun _ => []) s.twn.parts (ckptPart b % 8) (b.drop n), ckptFrom := s.now } }
  let s2 := s1.ckptCount (BitVec.ofNat 32 (bytesAt b 0 4)) (ckptFastLen b)
  if s2.twn.lease = .warm then (match s2.restorable with | some c => s2.restoreFrom c true | none => s2) else s2

/-- CHECKPOINT_RECEIVE: a transfer is complete; `bytes` are its header and everything after it (R487). -/
def execCheckpointReceive (bytes : List (BitVec 8)) (s : State) : Res :=
  if s.twinUp = false ∨ s.holds then .next s
  else if ckptValid bytes && decide (bytes.length = 64 + ckptFastLen bytes + 262144) then .next (s.ckptHold bytes)
  else .next s.ckptBad

/-- CHECKPOINT_TIMEOUT: 600 µs in which no checkpoint completed (R488). -/
def execCheckpointTimeout (s : State) : Res :=
  let shown := match s.twn.partner with | some p => p.lease == 3 | none => false
  if s.twinUp && !s.holds && shown then
    let t := s.advanceTo (s.twn.ckptFrom + BitVec.ofNat 64 (us 600))
    .next ({ t with twn := { t.twn with ckptFrom := t.now } }.raise 198)
  else .next s

/-- LEASE_VIEW_EXPIRY: L after the last RENEW (R491, R500, R502). -/
def execLeaseViewExpiry (s : State) : Res :=
  match s.twn.viewTo with
  | none => .next s
  | some t => .next (if s.holds then s else (s.advanceTo t).viewEnds)

/-- Does the module send QUERY? In ZEPHYR with an expired view, and in CLAIMING from INIT (R493, R500). -/
def State.asks (s : State) : Bool :=
  match s.twn.lease with
  | .zephyr => !s.viewValid && s.twinEn
  | .claiming => (match s.twn.claim with | some c => c.fromInit | none => false)
  | _ => false

/-- LEASE_QUERY_SEND: a QUERY on every arm port in use, once every 2 periods (R490, R493, R495, R500). -/
def execLeaseQuerySend (s : State) : Res :=
  let t0 := s.initClaim.noteHealth
  if t0.asks then
    let t1 := (t0.dueAgain t0.twn.queryAt (2 * t0.sec.p)).noteHealth
    let t := { t1 with twn := { t1.twn with queryAt := some (t1.dueMark t0.twn.queryAt (2 * t0.sec.p)) } }
    let u := if t.twn.lease = LeaseSt.zephyr ∧ t.twn.claim.isNone then t.viewEnds else t
    let v := match u.twn.claim with
      | some c => if c.step = ClaimStep.learn ∧ u.twn.epochKnown then u.setClaim (some { c with step := .rule }) else u
      | none => u
    .next (v.sendLease 1 (if v.twn.epochKnown then none else some v.key.epoch))
  else .next t0

/-- CLAIM_DELAY_EXPIRY: L/2 after the rule was first met a secondary sends its CLAIM (R501). -/
def execClaimDelayExpiry (s : State) : Res :=
  match s.twn.lease, s.twn.claim with
  | .claiming, some c =>
    match c.metAt with
    | some m => if c.step = .rule ∧ 0 < s.claimDelay then .next ((s.advanceTo (m + BitVec.ofNat 64 s.claimDelay)).claimNow c)
      else .next s
    | none => .next s
  | _, _ => .next s

/-- May the CLAIM go out? The witness rule is met and a delay it asks for is over; a module that works alone waits for
neither (R470, R500, R501). DEDUCED: log entry 60. -/
def State.claimMay (s : State) (c : Claim) : Bool :=
  match s.twinEn, c.metAt with
  | false, _ => true
  | true, some m => s.since m s.claimDelay
  | true, none => false

/-- CLAIM_SEND: the restore is complete and the witness rule is met (R470, R492, R501, R502). -/
def execClaimSend (s : State) : Res :=
  match s.twn.lease, s.twn.claim with
  | .claiming, some c => if c.step = .rule ∧ s.claimMay c then .next (s.claimNow c) else .next s
  | _, _ => .next s

/-- ENGINE_POWER_UP_DONE: PD2 to PD4 are on; `testOk`: they pass their tests (R502, R505, R512). -/
def execEnginePowerUpDone (testOk : Bool) (s : State) : Res :=
  match s.twn.claim with
  | some c =>
    if c.step = .power then
      .next (if testOk then s.enginesOn.setClaim (some { c with step := .restore, stepAt := s.now }) else s.twnFail 0x14)
    else .next s
  | none => .next s

/-- PREV as after a resume, on every arm in use (R205, R504). -/
def State.resumePrev (s : State) : State :=
  s.portsUsed.foldl (fun t n => if t.open (.ae n) then t.setAe n ((t.ae n).resumed (t.port n).reported) else t) s

/-- RESTORE_DONE: checkpoint, Eddy parts and schedule are loaded (R502, R504, R560). -/
def execRestoreDone (s : State) : Res :=
  match s.twn.claim with
  | some c =>
    if c.step = .restore then
      match s.restorable with
      | some b => .next ((s.restoreFrom b false).resumePrev.setClaim (some { c with step := .rule, stepAt := s.now }))
      | none => .next (s.twnFail 0x11)
    else .next s
  | none => .next s

/-- CLAIM_STEP_TIMEOUT: a step of R502 exceeds its bound (R502, R505). -/
def execClaimStepTimeout (s : State) : Res :=
  match s.twn.claim with
  | some c =>
    let go := fun (n code : Nat) => (s.advanceTo (c.stepAt + BitVec.ofNat 64 (us n))).twnFail code
    if c.fromInit then .next s
    else match c.step with
      | .power => .next (go 80 0x10)
      | .restore => .next (go 120 0x11)
      | .sent => .next (go 40 0x12)
      | _ => .next s
  | none => .next s

/-- EPOCH_LEARN_TIMEOUT: no WITNESS on any port in use for 2 ms (R493). -/
def execEpochLearnTimeout (s : State) : Res :=
  match s.twn.lease, s.twn.claim with
  | .claiming, some c =>
    if c.step = .learn ∧ s.twn.epochKnown = false then
      let t := s.advanceTo (s.twn.quietFrom + BitVec.ofNat 64 (us 2000))
      .next ((t.learnEpoch t.key.epoch).sendClaim c (t.key.epoch + 1))
    else .next s
  | _, _ => .next s

/-- CLAIM_CONFIRM_TIMEOUT: no witness confirms a claim made from INIT within 4 periods (R493). -/
def execClaimConfirmTimeout (s : State) : Res :=
  match s.twn.claim with
  | some c =>
    if c.fromInit ∧ c.step = .sent then
      let t := s.advanceTo (c.stepAt + BitVec.ofNat 64 (4 * s.per))
      .next (if c.tries < 256 then t.sendClaim { c with tries := c.tries + 1 } (c.epoch + 0x0100) else t.twnFail 0x17)
    else .next s
  | none => .next s

/-- A primary enters WARM (R506). -/
def State.enterWarm (s : State) : State :=
  let t := (s.setLease .warm).enginesOn
  let u := match t.restorable with | some b => (t.restoreFrom b false).resumePrev | none => t
  u.sendMsg 0x04 0

/-- RECLAIM_HEALTH_TIMER: the module has been healthy for T_RECLAIM; `testOk`: PD2 to PD4 pass their start checks
(R495 to R497, R506, R512). -/
def execReclaimHealthTimer (testOk : Bool) (s : State) : Res :=
  match s.healthy, s.twn.healthyAt with
  | true, some h =>
    let t := (s.advanceTo (h + BitVec.ofNat 64 s.reclaimTicks)).noteHealth
    if t.twn.lease = .zephyr ∧ t.twinEn ∧ t.twn.secondary = false ∧ (t.twn.partner.map (·.lease)) = some 3 ∧
        t.bitOf Reg.TWN_CFG 2 then
      .next (if testOk then t.enterWarm else t.twnFail 0x14)
    else .next t
  | _, _ => .next s

/-- LIVE_CAPTURE: at b(h − 1) + E_START the secondary captures the LIVE transfer (R508). -/
def execLiveCapture (s : State) : Res :=
  match s.twn.lease, s.twn.hand with
  | .handing, some h =>
    if h.captured = false ∧ s.tb.pc = h.h - 1 then
      let t := s.advanceTo (s.tickAt s.sec.eStart)
      let b := t.liveBytes h.h
      let u := { t with twn := { t.twn with handNo := t.twn.handNo + 1, hand := some { h with live := b, captured := true } } }
      .next (u.startXfer (some { live := true, no := t.twn.handNo + 1, bytes := b }))
    else .next s
  | _, _ => .next s

/-- The deadline of a LIVE write for period `pc` (R510). -/
def State.liveBy (s : State) (pc : BitVec 32) : BitVec 64 := s.toPc pc + BitVec.ofNat 64 (s.sec.iEnd - 8)

/-- The primary sends NAK and returns to ZEPHYR (R510, R511). -/
def State.liveFail (s : State) : State :=
  let t := (s.sendMsg 0x07 0x22).handFail 0x22
  { t with twn := { t.twn with hand := none } }.standDown

/-- The primary takes the duty at period `first` (R510). -/
def State.handTake (s : State) (h : Hand) (first : BitVec 32) (code : Nat) : State :=
  let t := s.becomeDuty (s.epoch + 1)
  (t.tookOver code 6 h.began first).sendMsg 0x06 (BitVec.ofNat 64 first.toNat)

/-- LIVE_RECEIVE: the LIVE transfer is complete and is written (R508, R510). -/
def execLiveReceive (bytes : List (BitVec 8)) (s : State) : Res :=
  match s.twn.lease, s.twn.hand with
  | .warm, some h =>
    let ok := ckptValid bytes && decide (bytesAt bytes 0 4 = (h.h - 1).toNat) && decide (ckptPart bytes = 0xFF) &&
      decide (bytes.length = 64 + ckptFastLen bytes)
    if s.twinUp = false then .next s
    else if ok = false then .next s.liveFail
    else
      let t := (s.learnEpoch (BitVec.ofNat 16 (bytesAt bytes 4 2))).writeLive bytes
      if reached (s.liveBy h.h) s.now then .next (t.handTake h h.h 0x02)
      else if reached (s.liveBy (h.h + 1)) s.now then .next (t.handTake h (h.h + 1) 0x03)
      else .next s.liveFail
  | _, _ => .next s

/-- LIVE_DEADLINE: no LIVE transfer written by b(h + 1) + I_END − 8 (R510). -/
def execLiveDeadline (s : State) : Res :=
  match s.twn.lease, s.twn.hand with
  | .warm, some h => .next ((s.advanceTo (s.liveBy (h.h + 1))).liveFail)
  | _, _ => .next s

/-- HANDING_TIMEOUT: neither ACK nor NAK by b(h + 1) + I_END + 200 ticks (R495, R511). -/
def execHandingTimeout (s : State) : Res :=
  match s.twn.lease, s.twn.hand with
  | .handing, some h =>
    .next (((s.advanceTo (s.toPc (h.h + 1) + BitVec.ofNat 64 (s.sec.iEnd + 200))).handFail 0x21).standDown)
  | _, _ => .next s

/-- The action of an accepted pair of TWN_CMD (R495, R498, CMD_REFUSED). -/
def State.twnCmd (s : State) (v : Word) : State :=
  match fieldOf v 30 2 with
  | 1 => if s.duty && s.twinEn && s.partnerReady then s.surrender 4 0 else s.setBit Reg.TWN_EVT 8
  | 2 =>
    if s.twn.lease = .failed then
      let t := s.setLease .init
      { t with twn := { t.twn with initAt := t.now, claim := none } }
    else s.setBit Reg.TWN_EVT 8
  | 3 => if s.twn.lease = .warm then s.standDown else s.setBit Reg.TWN_EVT 8
  | _ => s

/-- TWN_SURRENDER_CMD: an accepted paired write to TWN_CMD with ACTION 01 (R498, R499). -/
def execTwnSurrenderCmd (s : State) : Res :=
  s.via .twn fun t => (t.wrPair Reg.TWN_CMD (actionWord 1 0)).twnCmd (actionWord 1 0)

/-- TWN_RETRY: an accepted paired write to TWN_CMD with ACTION 10 (R495). -/
def execTwnRetry (s : State) : Res :=
  s.via .twn fun t => (t.wrPair Reg.TWN_CMD (actionWord 2 0)).twnCmd (actionWord 2 0)

/-- TWN_ABORT_WARM: an accepted paired write to TWN_CMD with ACTION 11 (R495). -/
def execTwnAbortWarm (s : State) : Res :=
  s.via .twn fun t => (t.wrPair Reg.TWN_CMD (actionWord 3 0)).twnCmd (actionWord 3 0)

/-- TWN_CNT_CLR: a write of 1 to bit 0 (R515). -/
def execTwnCntClr (s : State) : Res := s.via .twn fun t => t.wr Reg.TWN_CKPT_CNT 0

end Sys2Proof.Machine
end

