-- ==== Sys2Proof/Machine/CanOps.lean ====
section
/-! DEFINITION. The CAN FD ports (R802 to R820), shared by their commands. -/

namespace Sys2Proof.Machine

/-- INIT, and the pending and aborting bits of a buffer. -/
def State.canInit (s : State) (p : Nat) : Bool := s.bitOf (Reg.CAN_CTL p) 0
def canHalf (lo hi b : Nat) : Nat := if b < 32 then lo else hi
def State.canPend (s : State) (p b : Nat) : Bool := s.bitOf (canHalf (Reg.CAN_TX_REQ_LO p) (Reg.CAN_TX_REQ_HI p) b) (b % 32)
def State.canAborting (s : State) (p b : Nat) : Bool :=
  s.bitOf (canHalf (Reg.CAN_TX_ABORT_LO p) (Reg.CAN_TX_ABORT_HI p) b) (b % 32)
def State.canNew (s : State) (p b : Nat) : Bool := s.bitOf (canHalf (Reg.CAN_NEW_LO p) (Reg.CAN_NEW_HI p) b) (b % 32)

/-- CMD_REFUSED. -/
def State.canRefuse (s : State) (p : Nat) : State := s.setBit (Reg.CAN_EVT p) 9

/-- The timestamp counter (R819). -/
def State.canTs (s : State) : Word := BitVec.ofNat 32 (s.now.toNat / 8)

/-- The number of PEND bits (R818). -/
def State.canPending (s : State) (p : Nat) : Nat := ((List.range 64).filter fun b => s.canPend p b).length

/-- The accounting check at every send and discard (R818). -/
def State.canAudit (s : State) (p : Nat) : State :=
  if s.rd (Reg.CAN_QUEUED p) - s.rd (Reg.CAN_SENT p) - s.rd (Reg.CAN_DISCARDED p) = BitVec.ofNat 32 (s.canPending p) then s
  else (s.setBit (Reg.CAN_EVT p) 10).raise 218

/-- A buffer leaves the queue: its PEND bit and an abort of it clear. -/
def State.canUnpend (s : State) (p b : Nat) : State :=
  (s.clrBit (canHalf (Reg.CAN_TX_REQ_LO p) (Reg.CAN_TX_REQ_HI p) b) (b % 32)).clrBit
    (canHalf (Reg.CAN_TX_ABORT_LO p) (Reg.CAN_TX_ABORT_HI p) b) (b % 32)

/-- A frame is discarded for a reason (R817, R818). -/
def State.canDiscard (s : State) (p b reason : Nat) : State :=
  let s1 := (s.canUnpend p b).wr (Reg.CAN_DISCARDED p) (s.rd (Reg.CAN_DISCARDED p) + 1)
  ((s1.wr (Reg.CAN_TX_DISC p) (BitVec.ofNat 32 (256 * b + reason))).setBit (Reg.CAN_EVT p) 6).canAudit p

/-- A request for one buffer (R809). -/
def State.canReq (s : State) (p b : Nat) : State :=
  let cfg := s.rd (Reg.CAN_BUF_CFG p b)
  if cfg.getLsbD 31 = false ∨ cfg.getLsbD 30 = false ∨ s.canPend p b ∨ s.canInit p then s.canRefuse p
  else
    let s1 := (s.setBit (canHalf (Reg.CAN_TX_REQ_LO p) (Reg.CAN_TX_REQ_HI p) b) (b % 32)).wr (Reg.CAN_QUEUED p)
      (s.rd (Reg.CAN_QUEUED p) + 1)
    s1.wr (Reg.CAN_BUF_QTS p b) s.canTs

/-- The buffers named by a mask of 64 bits. -/
def maskBuffers (m : BitVec 64) : List Nat := (List.range 64).filter fun b => m.getLsbD b

/-- A write of requests (R809). -/
def State.canReqs (s : State) (p : Nat) (m : BitVec 64) : State :=
  (maskBuffers m).foldl (fun (t : State) b => t.canReq p b) s

/-- A write of aborts; the frame of buffer `cur` is in transmission (R812, R813). -/
def State.canAborts (s : State) (p : Nat) (m : BitVec 64) (cur : Option (Fin 64)) : State :=
  (maskBuffers m).foldl (fun (t : State) b =>
    if t.canPend p b = false then t
    else if cur.map Fin.val = some b then t.setBit (canHalf (Reg.CAN_TX_ABORT_LO p) (Reg.CAN_TX_ABORT_HI p) b) (b % 32)
    else t.canDiscard p b 1) s

/-- The arbitration field of a buffer's frame as a number: the lower one wins (R810). -/
def arbField (id : Word) : Nat :=
  let top := fieldOf id 18 11
  let rtr := if id.getLsbD 30 then 1 else 0
  if id.getLsbD 31 then top * 2 ^ 21 + 3 * 2 ^ 19 + fieldOf id 0 18 * 2 + rtr else top * 2 ^ 21 + rtr * 2 ^ 20

/-- Among the frames that waited when a frame began, none goes before it (R810). -/
def State.canWins (s : State) (p b : Nat) (start : Word) : Bool :=
  let key := fun (k : Nat) => arbField (s.rd (Reg.CAN_BUF_ID p k))
  (List.range 64).all fun k =>
    k == b || !s.canPend p k || decide (0 ≤ timeDiff (s.rd (Reg.CAN_BUF_QTS p k)) start) ||
    decide (key b < key k ∨ (key b = key k ∧ b < k))

/-- Data bytes of a frame by its DLC (R802). -/
def dlcLen (d : Nat) (fdf : Bool) : Nat :=
  if d ≤ 8 then d else if fdf = false then 8 else (#[12, 16, 20, 24, 32, 48, 64][d - 9]?).getD 64

/-- The ID word of a frame, and the CTL word that a receive buffer takes (CAN_BUF_ID, CAN_BUF_CTL). -/
def CanFrame.idWord (f : CanFrame) : Word := bitIf f.xtd 31 ||| bitIf f.rtr 30 ||| f.id.setWidth 32
def CanFrame.ctlWord (f : CanFrame) (old : Word) : Word :=
  bitIf f.fdf 31 ||| bitIf f.brs 30 ||| bitIf f.esi 29 ||| f.dlc.setWidth 32 ||| (old &&& 0x00FFFF00)

/-- The data words of a frame; the bytes after its last one are free (R807). -/
def CanFrame.words (f : CanFrame) (free : Word) : List Word :=
  let n := if f.rtr then 0 else min f.data.length (dlcLen f.dlc.toNat f.fdf)
  (List.range ((n + 3) / 4)).map fun w =>
    BitVec.ofNat 32 (leNat ((List.range 4).map fun i =>
      if 4 * w + i < n then (f.data[4 * w + i]?).getD 0 else (free >>> (8 * i)).setWidth 8))

/-- A frame is stored in a receive buffer (R806, R807). -/
def State.canStore (s : State) (p b : Nat) (f : CanFrame) (ts : Word) : State :=
  let s1 := s.setBit (canHalf (Reg.CAN_NEW_LO p) (Reg.CAN_NEW_HI p) b) (b % 32)
  let s2 := ((s1.wr (Reg.CAN_BUF_ID p b) f.idWord).wr (Reg.CAN_BUF_CTL p b) (f.ctlWord (s.rd (Reg.CAN_BUF_CTL p b)))).wr
    (Reg.CAN_BUF_TS p b) ts
  let s3 := ((f.words s.fresh).zipIdx.foldl (fun (t : State) e => t.wr (Reg.CAN_BUF_DATA p b e.2) e.1) s2).tick1
  s3.setBit (Reg.CAN_EVT p) 0

/-- A receive buffer fits a frame (R806). -/
def State.canFits (s : State) (p : Nat) (f : CanFrame) (b : Nat) : Bool :=
  let cfg := s.rd (Reg.CAN_BUF_CFG p b)
  let id := s.rd (Reg.CAN_BUF_ID p b)
  !cfg.getLsbD 31 && cfg.getLsbD 30 && id.getLsbD 31 == f.xtd && (id ^^^ f.idWord) &&& s.rd (Reg.CAN_BUF_MASK p b) == 0

/-- The filter of received frames (R806). -/
def State.canFilter (s : State) (p : Nat) (f : CanFrame) (ts : Word) : State :=
  let l := (List.range 64).filter (s.canFits p f)
  match l.find? fun b => !s.canNew p b with
  | some b => s.canStore p b f ts
  | none =>
    match l.find? fun b => s.bitOf (Reg.CAN_BUF_CFG p b) 29 with
    | some b => (s.canStore p b f ts).setBit (Reg.CAN_EVT p) 8
    | none =>
      if l.isEmpty then s.bump (Reg.CAN_RX_NOMATCH p)
      else (s.bump (Reg.CAN_RX_LOST p)).setBit (Reg.CAN_EVT p) 7

/-- The frame that a transmit buffer holds. -/
def State.canFrameOf (s : State) (p b : Nat) : CanFrame :=
  let id := s.rd (Reg.CAN_BUF_ID p b)
  let ctl := s.rd (Reg.CAN_BUF_CTL p b)
  let fdf := ctl.getLsbD 31
  { xtd := id.getLsbD 31, rtr := id.getLsbD 30, id := id.setWidth 29, fdf := fdf, brs := ctl.getLsbD 30, esi := false
    dlc := ctl.setWidth 4
    data := ((List.range 16).map fun w => wordBytes (s.rd (Reg.CAN_BUF_DATA p b w))).flatten.take (dlcLen (fieldOf ctl 0 4) fdf) }

/-- LOOP (R820). -/
def State.canLoop (s : State) (p : Nat) : Nat := s.field (Reg.CAN_CTL p) 4 2

/-- A frame has been sent (R811, R818, R820). -/
def State.canSent (s : State) (p b : Nat) (start : Word) : State :=
  let own := s.canFrameOf p b
  let s1 := ((s.canUnpend p b).wr (Reg.CAN_SENT p) (s.rd (Reg.CAN_SENT p) + 1)).wr (Reg.CAN_BUF_TS p b) start
  let s2 := (s1.setBit (Reg.CAN_EVT p) 1).canAudit p
  if s.canLoop p = 1 ∨ s.canLoop p = 2 then s2.canFilter p own start else s2

/-- Is a pending frame stale? (R814) -/
def State.canStale (s : State) (p b : Nat) : Bool :=
  let life := s.field (Reg.CAN_BUF_CTL p b) 8 16
  s.canPend p b && decide (0 < life) && decide ((life * 25000 : Nat) < timeDiff s.canTs (s.rd (Reg.CAN_BUF_QTS p b)))

/-- Entry to a protocol state (R805, R815). -/
def State.canEnter (s : State) (p : Nat) (st : CanSt) : State :=
  let x := s.can p
  match st with
  | .active => s.setCan p { x with st := .active, fresh := true }
  | .passive =>
    let s1 := (s.setCan p { x with st := .passive, fresh := false }).setBit (Reg.CAN_EVT p) 2
    if x.fresh then s1.raise 220 else s1
  | .busOff =>
    let s1 := ((s.setCan p { x with st := .busOff }).setBit (Reg.CAN_EVT p) 3).raise (216 + p)
    if s1.bitOf (Reg.CAN_CTL p) 6 then s1.setCan p { s1.can p with st := .recovering } else s1
  | .recovering => s.setCan p { x with st := .recovering }
  | .config => s.setCan p { x with st := .config }

/-- INIT is set: every pending frame is discarded and any recovery ends (R816). -/
def State.canInitSet (s : State) (p : Nat) : State :=
  let s1 := (s.setBit (Reg.CAN_CTL p) 0).canEnter p .config
  ((List.range 64).filter fun b => s.canPend p b).foldl (fun (t : State) b => t.canDiscard p b 4) s1

/-- REC: recovery begins (R815). -/
def State.canRec (s : State) (p : Nat) : State := if (s.can p).st = .busOff then s.canEnter p .recovering else s

/-- A write to CAN_CTL (R805, R815, R816, R820): LOOP changes only while INIT is 1. -/
def State.canCtl (s : State) (p : Nat) (v : Word) : State :=
  let was := s.canInit p
  let loop := if was then v &&& 0x30 else s.rd (Reg.CAN_CTL p) &&& 0x30
  let s1 := s.wr (Reg.CAN_CTL p) ((v &&& 0x42) ||| loop ||| (s.rd (Reg.CAN_CTL p) &&& 1))
  let s2 := if v.getLsbD 0 ∧ was = false then s1.canInitSet p
    else if v.getLsbD 0 = false ∧ was then (s1.clrBit (Reg.CAN_CTL p) 0).setCan p { st := .active } else s1
  if v.getLsbD 7 then s2.canRec p else s2

/-- A bit timing lies within R803 and its rate within R804. -/
def nbtOk (v : Word) : Bool :=
  let brp := fieldOf v 24 8 + 1
  let t1 := fieldOf v 16 8 + 1
  let t2 := fieldOf v 8 7 + 1
  decide (2 ≤ t1) && decide (2 ≤ t2) && decide (fieldOf v 0 7 + 1 ≤ t2) && decide (40 ≤ brp * (1 + t1 + t2))
def dbtOk (v : Word) : Bool :=
  let t2 := fieldOf v 8 4 + 1
  decide (fieldOf v 0 4 + 1 ≤ t2) && decide (8 ≤ (fieldOf v 24 5 + 1) * (2 + fieldOf v 16 5 + t2))

/-- A write to a bit-timing register (R804). DEDUCED: log entry 93. -/
def State.canTiming (s : State) (p : Nat) (k : CanTiming) (v : Word) : State :=
  if s.canInit p = false then s.canRefuse p
  else match k with
    | .nominal => if nbtOk v then s.wr (Reg.CAN_NBT p) (v &&& 0xFFFF7F7F) else s.canRefuse p
    | .data => if dbtOk v then s.wr (Reg.CAN_DBT p) (v &&& 0x1F1F0F0F) else s.canRefuse p
    | .delay => s.wr (Reg.CAN_TDC p) (v &&& 0x17F)

/-- A write to a word of a buffer that PEND protects (R809). -/
def State.canBufWrite (s : State) (p b a : Nat) (v : Word) : State := if s.canPend p b then s.canRefuse p else s.wr a v

/-- CAN_CNT_CLR (R821). -/
def State.canCntClr (s : State) (p : Nat) : State := s.clearAll [Reg.CAN_RX_NOMATCH p, Reg.CAN_RX_LOST p]

end Sys2Proof.Machine
end

