-- ==== Sys2Proof/Machine/SafOps.lean ====
section
/-! DEFINITION. The safety channels (R680 to R720): trip latch, roles, reset, outputs and their tests, shared by their
commands. Times are ticks of the reference. -/

namespace Sys2Proof.Machine

/-- Ticks of a millisecond. -/
def msTicks (n : Nat) : Nat := 200000 * n

/-- An event of FS(224 + n) on the field side goes into the set in transmission, or into the next one (R738). -/
def State.fieldEvent (s : State) (n : Nat) : State :=
  let f := s.fio
  let b := (1 : BitVec 16) <<< n
  if s.powered 11 = false then s
  else if f.evtSet = 0 then { s with fio := { f with evtNo := f.evtNo + 1, evtSet := b } }
  else { s with fio := { f with evtNext := f.evtNext ||| b } }

/-- A bit of SAF_EVT that the next up frame accepted brings (R743). -/
def State.safNote (s : State) (b : Nat) : State :=
  { s with saf := { s.saf with note := s.saf.note ||| ((1 : BitVec 12) <<< b) } }

/-- Causes of either channel (SAF_CAUSE). -/
def State.safCauses (s : State) : BitVec 10 := (s.safCh 0).causes ||| (s.safCh 1).causes

/-- A trip that comes while a channel's edge waits for the other channel: the edge is ignored, not held for later (R695). -/
def State.safLost (s : State) (x : SafCh) : State := if x.edgeAt.isSome then s.safNote 2 else s

/-- A channel sets its trip latch with a cause: FS235 once for each cause, and its line makes a block request (R682, R696,
R697). -/
def State.safTrip (s : State) (c : Nat) (k : SafCause) : State :=
  let x := s.safCh c
  if x.on = false ∨ (x.latch ∧ x.causes.getLsbD k.bit) then s
  else
    let known := s.safCauses.getLsbD k.bit
    let first := !(s.safCh 0).latch && !(s.safCh 1).latch
    let x1 := { x with
      latch := true, causes := x.causes ||| ((1 : BitVec 10) <<< k.bit), edgeAt := none
      latchAt := if x.latch then x.latchAt else s.sys.up, dischOk := x.latch && x.dischOk }
    let s1 := (s.setSafCh c x1).safLost x
    let s2 := if first then { s1 with saf := { s1.saf with trips := s1.saf.trips + 1 } } else s1
    let s3 := if known then s2 else (s2.fieldEvent 11).safNote 0
    if x.latch then s3 else s3.blockNow

/-- The pairs with a role all read a value (R689). -/
def SafCh.all (x : SafCh) (b : List Byte) (role : Nat) (v : Bool) : Bool :=
  (List.range 8).all fun i => safRole b i != role || x.pairs.getLsbD i == v

/-- The output with a function is on, with the switches as they are given (R701, R728). -/
def State.safOutOn (s : State) (so : Nat) : Bool :=
  (s.safCh 0).on && (s.safCh 1).on && (s.safCh 0).sw.getLsbD so && (s.safCh 1).sw.getLsbD so && !s.fio.low

/-- The function's condition holds in a channel (R701). -/
def SafCh.funOn (x : SafCh) (b : List Byte) (f : Nat) (earthOn : Bool) : Bool :=
  match f with
  | 1 => !x.latch && !x.req
  | 2 => x.latch && x.dischOk && x.all b 3 false && x.all b 4 true && x.all b 5 true && x.disc == 0
  | 3 => earthOn && x.all b 6 true
  | 4 => !x.latch
  | _ => false

/-- May a channel hold a switch at all? (R706, R709, R717, R720) -/
def State.safMay (s : State) (c so : Nat) : Bool :=
  (s.safCh c).on && s.powered (13 - c) && !(s.safCh c).bankBad && !s.saf.fail.getLsbD so

/-- A channel commands one of its switches. -/
def SafCh.setSw (x : SafCh) (so : Nat) (v : Bool) : SafCh :=
  { x with sw := if v then x.sw ||| ((1 : BitVec 8) <<< so) else x.sw &&& ~~~ ((1 : BitVec 8) <<< so) }

/-- A switch follows its function; an off-pulse test of an output that goes off ends without a verdict (R701, R710). -/
def State.safSwitch (s : State) (c so : Nat) (v : Bool) : State :=
  let s1 := s.setSafCh c ((s.safCh c).setSw so v)
  if v then s1
  else [0, 1].foldl (fun (t : State) k =>
    let x := t.safCh k
    if x.test.map Fin.val = some so then t.setSafCh k { x with test := none } else t) s1

/-- EARTH on and off: FS232, EARTH_ON and EARTH_OFF (R702). -/
def State.safLook (s : State) : State :=
  let out := BitVec.ofNat 8 (((List.range 8).map fun so => if s.safOutOn so then 2 ^ so else 0).foldl (· + ·) 0)
  let earth := match (s.safCh 0).blk with
    | some (b, _) => (List.range 8).find? fun so => safFunc b so == 2
    | none => none
  let s1 := { s with saf := { s.saf with out := out } }
  match earth with
  | some e =>
    if s.saf.out.getLsbD e ∧ out.getLsbD e = false then (s1.fieldEvent 8).safNote 8
    else if s.saf.out.getLsbD e = false ∧ out.getLsbD e then s1.safNote 7
    else s1
  | none => s1

/-- A channel sets its switches: EARTH before DOOR, which follows it (R701). -/
def State.safEval (s : State) (c : Nat) : State :=
  match (s.safCh c).blk with
  | none => ((List.range 8).foldl (fun (t : State) so => t.safSwitch c so false) s).safLook
  | some (b, _) =>
    let put := fun (t : State) (so : Nat) =>
      let earthOn := (List.range 8).any fun e => safFunc b e == 2 && t.safOutOn e
      t.safSwitch c so (t.safMay c so && (t.safCh c).funOn b (safFunc b so) earthOn)
    let order := ((List.range 8).filter fun so => safFunc b so != 3) ++ (List.range 8).filter fun so => safFunc b so == 3
    (order.foldl put s).safLook

/-- Both channels. -/
def State.safBoth (s : State) : State := (s.safEval 0).safEval 1

/-- The switch bank matches the block accepted (R719). -/
def SafCh.bankOk (x : SafCh) : Bool := match x.blk with | some (_, crc) => x.bank == crc.setWidth 16 | none => false

/-- A mismatch keeps every output off and trips (R720). -/
def State.safBank (s : State) (c : Nat) : State :=
  let x := s.safCh c
  if x.blk.isNone ∨ x.bankOk then s
  else (((s.setSafCh c { x with bankBad := true }).fieldEvent 10).safNote 5).safTrip c .bank

/-- Both channels have accepted the same block (PB_OK, R699). -/
def State.safPbOk (s : State) : Bool :=
  match (s.safCh 0).blk, (s.safCh 1).blk with
  | some a, some b => a == b
  | _, _ => false

/-- One pair in one sample: its value, its count of differing samples and its discrepancy latch (R687, R690, R692). The
second component: a discrepancy fault is declared. -/
def SafCh.samplePair (x : SafCh) (b : List Byte) (i : Nat) (p q : Bool) : SafCh × Bool :=
  if safRole b i = 0 then (x, false)
  else
    let m := (1 : BitVec 8) <<< i
    let n := if p = q then 0 else Sparse.get (fun _ => 0) x.differ i + 1
    let was := x.disc.getLsbD i
    let latched := was && (p || q)
    let bad := !latched && n == bytesAt b (0x10 + 2 * i) 2
    let v := p && q && !latched && !bad
    ({ x with
        differ := Sparse.put (fun _ => 0) x.differ i n
        disc := if latched || bad then x.disc ||| m else x.disc &&& ~~~ m
        pairs := if v then x.pairs ||| m else x.pairs &&& ~~~ m }, bad)

/-- A pair in the state: discrepancy faults trip, and an ESTOP or ACCESS pair that falls raises FS230 or FS231 (R689,
R692). -/
def State.safPair (s : State) (c : Nat) (b : List Byte) (ins : BitVec 32) (i : Nat) : State :=
  let x := s.safCh c
  let r := x.samplePair b i (ins.getLsbD (2 * i)) (ins.getLsbD (2 * i + 1))
  let s1 := s.setSafCh c r.1
  let fell := x.pairs.getLsbD i && !r.1.pairs.getLsbD i
  let s2 := if fell ∧ safRole b i = 1 then s1.fieldEvent 6 else if fell ∧ safRole b i = 2 then s1.fieldEvent 7 else s1
  if r.2 then ((s2.fieldEvent 4).safNote 3).safTrip c .disc else s2

/-- The DOOR output is on (R688). -/
def State.doorOn (s : State) (b : List Byte) : Bool := (List.range 8).any fun so => safFunc b so == 3 && s.safOutOn so

/-- The causes that a channel's pairs give (R696). -/
def State.safRoleTrips (s : State) (c : Nat) (b : List Byte) : State :=
  let x := s.safCh c
  let s1 := if x.all b 1 true then s else s.safTrip c .estop
  let s2 := if x.all b 2 true || s1.doorOn b then s1 else s1.safTrip c .access
  if x.all b 3 true then s2 else s2.safTrip c .earthReq

/-- What R699 asks of one channel in the sample of its edge, but for the other's confirmation. -/
def State.safResetOk (s : State) (c : Nat) (b : List Byte) : Bool :=
  let x := s.safCh c
  x.all b 1 true && x.all b 3 true && (x.all b 2 true || s.doorOn b) && x.disc == 0 && x.bankOk && s.safPbOk &&
  s.saf.linkOk && !(s.safCh 0).req && !(s.safCh 1).req

/-- The reset input has been held beyond RESET_MAX (R694). -/
def State.safHeld (s : State) (c : Nat) : State :=
  ((s.setSafCh c { s.safCh c with held := true }).fieldEvent 12).safNote 9

/-- The reset input in a sample (R693 to R695, R700). `caused`: the same sample brought a new cause. -/
def State.safResetIn (s : State) (c : Nat) (b : List Byte) (r caused : Bool) : State :=
  let x := s.safCh c
  let edge := r && decide (200 ≤ x.zeros)
  let zeros := if r then 0 else x.zeros + 1
  let ones := if r then x.ones + 1 else 0
  let s1 := s.setSafCh c { x with zeros := zeros, ones := ones, held := x.held && decide (zeros < 200) }
  let s2 := if decide (bytesAt b 0x2E 2 * 200 < ones) && !x.held then s1.safHeld c else s1
  if edge = false then s2
  else if caused = false ∧ s2.safResetOk c b then s2.setSafCh c { s2.safCh c with edgeAt := some s2.sys.up }
  else s2.safNote 2

/-- A sample of a channel (R686 to R700). -/
def State.safSample (s : State) (c : Nat) (ins : BitVec 32) : State :=
  match (s.safCh c).blk with
  | none => s
  | some (b, _) =>
    let before := (s.safCh c).causes
    let s1 := ((List.range 8).foldl (fun (t : State) i => t.safPair c b ins i) s).safRoleTrips c b
    let s2 := s1.safResetIn c b (ins.getLsbD (bytesAt b 0x2C 1)) ((s1.safCh c).causes != before)
    s2.safEval c

/-- A channel adopts a trip of the other (R697). -/
def State.safAdopt (s : State) (c : Nat) : State :=
  let x := s.safCh c
  let y := s.safCh (1 - c)
  if x.on = false ∨ y.latch = false ∨ y.causes &&& ~~~ x.causes = 0 then s
  else
    let s1 := (s.setSafCh c { x with
      latch := true, causes := x.causes ||| y.causes, edgeAt := none
      latchAt := if x.latch then x.latchAt else s.sys.up, dischOk := x.latch && x.dischOk }).safLost x
    if x.latch then s1 else s1.blockNow

/-- The same edge has been accepted in both channels within 10 ms (R699). -/
def State.safConfirmed (s : State) : Bool :=
  match (s.safCh 0).edgeAt, (s.safCh 1).edgeAt with
  | some a, some b => decide (a ≤ b + msTicks 10 ∧ b ≤ a + msTicks 10)
  | _, _ => false

/-- A channel clears its latch (R699, R720). -/
def SafCh.cleared (x : SafCh) : SafCh :=
  { x with latch := false, causes := 0, dischOk := false, edgeAt := none, bankBad := false }

/-- A reset edge that both channels have accepted clears the latches and the off-pulse failures; one that has waited more
than 10 ms is ignored (R695, R699). -/
def State.safConfirm (s : State) : State :=
  if s.safConfirmed then
    let s1 := (s.setSafCh 0 (s.safCh 0).cleared).setSafCh 1 (s.safCh 1).cleared
    { s1 with saf := { s1.saf with fail := 0, resets := s1.saf.resets + 1, brkOff := s1.saf.req } }.safNote 1
  else
    [0, 1].foldl (fun (t : State) c =>
      match (t.safCh c).edgeAt with
      | some a => if a + msTicks 10 < t.sys.up then (t.setSafCh c { t.safCh c with edgeAt := none }).safNote 2 else t
      | none => t) s

/-- An off-pulse test fails, or an output stays above 5 V: it is latched off, and BRK trips (R709). -/
def State.safOutFail (s : State) (so : Nat) : State :=
  let s1 := ({ s with saf := { s.saf with fail := s.saf.fail ||| ((1 : BitVec 8) <<< so) } }.fieldEvent 5).safNote 4
  let brk := match (s1.safCh 0).blk with | some (b, _) => safFunc b so == 1 | none => false
  (if brk then (s1.safTrip 0 .test).safTrip 1 .test else s1).safBoth

/-- SAF_STAT as the safety section reports it (R743). -/
def State.safStat (s : State) : Nat :=
  let a := s.safCh 0
  let b := s.safCh 1
  flagNat [a.latch || b.latch, false, false, false, false, false, (a.latch && !a.dischOk) || (b.latch && !b.dischOk),
    a.req || b.req, s.safLine 0, s.safLine 1, a.held || b.held, s.saf.linkOk, a.bankOk && b.bankOk, s.safPbOk, a.on, b.on]

/-- The safety section of the image as it is sent: header and body (R527, R715). -/
def State.safSection (s : State) : List Byte :=
  if s.sys.cfg.safety.isEmpty then []
  else natBytes 2 7 ++ natBytes 2 1 ++ natBytes 4 64 ++ natBytes 4 0 ++ wordBytes ((s.sys.imgCrcs[6]?).getD 0) ++ s.sys.cfg.safety

/-- A section that a channel has received is valid (R527, R713, R716). -/
def safSectionOk (l : List Byte) : Bool :=
  bytesAt l 0 2 == 7 && bytesAt l 2 2 == 1 && bytesAt l 4 4 == 64 && bytesAt l 8 4 == 0 &&
  wordAt l 12 == crc32c (l.take 12 ++ l.drop 16) && safOk (l.drop 16)

/-- A chunk reaches a channel (R715 to R717). -/
def State.safChunk (s : State) (c idx : Nat) (data : List Byte) : State :=
  let x := s.safCh c
  if x.on = false ∨ x.blk.isSome then s
  else
    let l := if idx = 0 then data else if x.rx.length = 16 * idx then x.rx ++ data else x.rx
    if l.length < 80 then s.setSafCh c { x with rx := l }
    else if safSectionOk l then
      let s1 := s.setSafCh c { x with rx := [], blk := some (l.drop 16, wordAt l 12) }
      let s2 := if s1.safPbOk then s1.safNote 10 else s1
      (s2.safBank c).safEval c
    else (s.setSafCh c { x with rx := [] }).safNote 11

end Sys2Proof.Machine
end

