-- ==== Sys2Proof/Machine/FioOps.lean ====
section
/-! DEFINITION. The field-I/O island and the isolation link (R721 to R740), shared by their commands. -/

namespace Sys2Proof.Machine

/-- A frame of the link: 240 bits and their CRC-16 (R21, R731, R732). -/
def isoFrame (l : List (Nat × Nat)) : BitVec 256 :=
  let v := BitVec.ofNat 256 (packFields l * 65536)
  v ||| (crc16 (lineBytes v 0 30)).setWidth 256

/-- A frame's CRC passes. -/
def isoCrcOk (f : BitVec 256) : Bool := lineField f 240 16 == (crc16 (lineBytes f 0 30)).toNat

/-- The lowest output of the gang that an output belongs to (R725). -/
def Fio.lead (f : Fio) (n : Nat) : Nat :=
  if f.gang.getLsbD (8 + n / 4) then n / 4 * 4 else if f.gang.getLsbD (n / 2) then n / 2 * 2 else n

/-- Is a field output on? (R725, R727, R728, R736) -/
def Fio.outOn (f : Fio) (n : Nat) : Bool := f.out.getLsbD (f.lead n) && !f.ovl.getLsbD n && !f.low && !f.heldOff

/-- The field outputs that are on. -/
def Fio.outs (f : Fio) : Nat := flagNat ((List.range 16).map f.outOn)

/-- A bit of FIO_EVT that the next up frame accepted brings (R742). -/
def State.fioNote (s : State) (b : Nat) : State :=
  { s with fio := { s.fio with note := s.fio.note ||| ((1 : BitVec 7) <<< b) } }

/-- The supervisor has had a report that both channels accepted the block (PB_OK, R715). -/
def State.pbReported (s : State) : Bool := s.bitOf Reg.SAF_STAT 13

/-- The chunk that the next down frame carries; once both channels have reported acceptance its number is a free value
(R715). -/
def State.isoChunk (s : State) : Nat := if s.pbReported then s.fresh.toNat % 256 else s.iso.chunk

/-- 16 bytes of the safety section, zero beyond its end (R731). -/
def State.chunkBytes (s : State) (i : Nat) : List Byte :=
  (List.range 16).map fun j => (s.safSection[16 * i + j]?).getD 0

/-- A write to FIO_OUT (R740, R742). -/
def State.fioOut (s : State) (v : Word) : State :=
  let old := match s.iso.outWas with
    | some (t, o) => if t = s.now then o else BitVec.ofNat 16 (s.field Reg.FIO_OUT 0 16)
    | none => BitVec.ofNat 16 (s.field Reg.FIO_OUT 0 16)
  { s.wr Reg.FIO_OUT (v &&& 0xFFFF) with iso := { s.iso with outWas := some (s.now, old) } }

/-- The outputs that a down frame formed in this tick carries: a write of the same tick goes out in the next slot
(R740). -/
def State.outsNow (s : State) : Nat :=
  match s.iso.outWas with
  | some (t, o) => if t = s.now then o.toNat else s.field Reg.FIO_OUT 0 16
  | none => s.field Reg.FIO_OUT 0 16

/-- The down frame of a slot (R731). -/
def State.downFrame (s : State) (slot : Nat) : BitVec 256 :=
  let out := s.outsNow
  isoFrame [(0xA55A, 16), (slot, 8), (out, 16), (65535 - out, 16), (if s.iso.resume then 128 else 0, 8), (s.iso.ack.toNat, 8),
    (s.field Reg.FIO_CFG 8 4, 4), (s.field Reg.FIO_CFG 0 4, 4), (0, 8), (s.isoChunk, 8),
    (packFields ((s.chunkBytes s.isoChunk).map fun b => (b.toNat, 8)), 128), (s.field Reg.FIO_GANG 0 12, 12), (0, 4)]

/-- The number of chunks in the safety section. -/
def State.chunks (s : State) : Nat := (s.safSection.length + 15) / 16

/-- A down frame goes out (R715, R730, R736). -/
def State.downSend (s : State) : State :=
  let f := s.downFrame (s.now.toNat / 10000)
  let next := if s.chunks ≤ s.iso.chunk + 1 then 0 else s.iso.chunk + 1
  { s.tick1 with
    fio := if s.powered 11 then { s.fio with down := f } else s.fio
    iso := { s.iso with resume := false, chunk := next } }

/-- The up frame (R732). -/
def State.upFrame (s : State) : BitVec 256 :=
  let a := s.safCh 0
  let b := s.safCh 1
  let f := s.fio
  isoFrame [(0x5AA5, 16), (f.slot.toNat, 8), (f.evtNo.toNat, 8), (f.ins.toNat, 32), (a.pairs.toNat, 8), (b.pairs.toNat, 8),
    ((a.disc ||| b.disc).toNat, 8), (s.saf.out.toNat, 8), (s.saf.fail.toNat, 8), (s.safStat, 16), (f.outs, 16),
    (f.ovl.toNat, 16), (f.evtSet.toNat, 16), (f.vsup.toNat, 16), (a.bank.toNat, 16), (s.safCauses.toNat, 16),
    (f.crc.toNat, 4), (f.lost.toNat, 4), (0, 16)]

/-- The field end holds its outputs off after three down frames lost in a row (R734, R736). -/
def State.downLost (s : State) : State :=
  let f := s.fio
  let s1 := { s with fio := { f with lost := f.lost + 1, lostRow := f.lostRow + 1 } }
  if f.lostRow + 1 = 3 then ({ s1 with fio := { s1.fio with heldOff := true } }.fieldEvent 0).fioNote 4 else s1

/-- A set that has been acknowledged makes room for the next one (R738). -/
def Fio.acked (f : Fio) (n : BitVec 8) : Fio :=
  if n ≠ f.evtNo ∨ f.evtSet = 0 then f
  else if f.evtNext = 0 then { f with evtSet := 0 }
  else { f with evtNo := f.evtNo + 1, evtSet := f.evtNext, evtNext := 0 }

/-- A valid down frame takes effect (R725, R731, R736, R738). -/
def State.downTake (s : State) (d : BitVec 256) : State :=
  let f := s.fio
  let go := f.heldOff && lineField d 56 1 == 1
  let f1 := { f with
    lostRow := 0, slot := BitVec.ofNat 8 (lineField d 16 8), out := BitVec.ofNat 16 (lineField d 24 16)
    heldOff := f.heldOff && !go, filt := BitVec.ofNat 4 (lineField d 72 4), mode := BitVec.ofNat 4 (lineField d 76 4)
    gang := BitVec.ofNat 12 (lineField d 224 12) }
  let s1 := { s with fio := f1.acked (BitVec.ofNat 8 (lineField d 64 8)) }
  if go then s1.fioNote 5 else s1

/-- The field end receives a down frame (R733, R734). -/
def State.downReceive (s : State) (d : BitVec 256) : State :=
  if isoCrcOk d = false then { s with fio := { s.fio with crc := s.fio.crc + 1 } }.fieldEvent 1
  else if lineField d 0 16 ≠ 0xA55A then s
  else if lineField d 24 16 + lineField d 40 16 ≠ 65535 then s.downLost.fieldEvent 1
  else s.downTake d

/-- The registers that show the block accepted by both channels (R743). -/
def State.safShowBlock (s : State) (ok : Bool) : State :=
  let b := if ok then match (s.safCh 0).blk with | some (b, _) => b | none => [] else []
  let crc := if ok then match (s.safCh 0).blk with | some (_, c) => c | none => 0 else 0
  let nibbles := fun (f : Nat → Nat) => (List.range 8).foldl (fun (a : Nat) i => a + f i % 16 * 16 ^ i) 0
  let s1 := ((s.wr Reg.SAF_PB_CRC crc).wr Reg.SAF_ROLES (BitVec.ofNat 32 (nibbles (safRole b)))).wr
    Reg.SAF_FUNCS (BitVec.ofNat 32 (nibbles (safFunc b)))
  let s2 := (s1.wr Reg.SAF_PULSE (BitVec.ofNat 32 (bytesAt b 0x2A 2 * 65536 + bytesAt b 0x28 2))).wr Reg.SAF_RESET_CFG
    (BitVec.ofNat 32 (bytesAt b 0x2E 2 * 256 + bytesAt b 0x2C 1))
  let s3 := s2.wr Reg.SAF_T_DISCH (BitVec.ofNat 32 (bytesAt b 0x30 4))
  (List.range 8).foldl (fun (t : State) i => t.wr (Reg.SAF_T_DISC i) (BitVec.ofNat 32 (bytesAt b (0x10 + 2 * i) 2))) s3

/-- The SAF registers follow a valid up frame; events and counts of the safety section come with it (R738, R743). -/
def State.safShow (s : State) (u : BitVec 256) : State :=
  let n := s.saf
  let ok := (lineField u 104 16 / 8192) % 2 == 1
  let crc := if ok then match (s.safCh 0).blk with | some (_, c) => c.toNat % 65536 | none => 0 else 0
  let s1 := (s.wr Reg.SAF_STAT (BitVec.ofNat 32 (lineField u 104 16))).setBits Reg.SAF_EVT (n.note.setWidth 32)
  let s2 := s1.wr Reg.SAF_PAIR (BitVec.ofNat 32 (lineField u 80 8 * 65536 + lineField u 72 8 * 256 + lineField u 64 8))
  let s3 := s2.wr Reg.SAF_SO (BitVec.ofNat 32 (lineField u 96 8 * 65536 + lineField u 88 8))
  let s4 := (s3.wr Reg.SAF_CAUSE (BitVec.ofNat 32 (lineField u 200 16))).wr Reg.SAF_BANK
    (BitVec.ofNat 32 (crc * 65536 + lineField u 184 16))
  let s5 := (s4.addField Reg.SAF_CNT 16 16 n.trips).addField Reg.SAF_CNT 0 16 n.resets
  let s6 := (s5.addField Reg.SAF_TEST_CNT 16 16 n.fails).addField Reg.SAF_TEST_CNT 0 16 n.tests
  { s6.safShowBlock ok with saf := { n with note := 0, trips := 0, resets := 0, fails := 0, tests := 0 } }

/-- The FIO registers follow a valid up frame (R724, R735, R742). -/
def State.fioShow (s : State) (u : BitVec 256) : State :=
  let ins := BitVec.ofNat 32 (lineField u 32 32)
  let changed := (ins ^^^ s.rd Reg.FIO_IN) &&& s.rd Reg.FIO_IN_IRQ
  let s1 := ((s.wr Reg.FIO_IN ins).wr Reg.FIO_IN_VT (s.now.setWidth 32)).setBitIf (changed != 0) Reg.FIO_EVT 6
  let s2 := s1.wr Reg.FIO_OUT_STAT (BitVec.ofNat 32 (lineField u 136 16 * 65536 + lineField u 120 16))
  let s3 := s2.wr Reg.FIO_SUPPLY (BitVec.ofNat 32 (lineField u 168 16))
  let was := s.iso.linkf.toNat
  let now := lineField u 216 8
  let s4 := (s3.addField Reg.FIO_LINK_FLD 16 16 ((now / 16 + 16 - was / 16) % 16)).addField Reg.FIO_LINK_FLD 0 16
    ((now + 16 - was % 16) % 16)
  let s5 := s4.wr Reg.FIO_EVT (s4.rd Reg.FIO_EVT ||| s.fio.note.setWidth 32)
  { s5 with
    fio := { s5.fio with note := 0 }
    iso := { s5.iso with
      linkf := BitVec.ofNat 8 now, lostRow := 0, stale := false, up := true, slotOk := some (s.now.toNat / 10000)
      low := s.fio.low, heldOff := s.fio.heldOff } }

/-- The sources of a new event set, and the flags of FIO_EVT that follow them (R738, R742). DEDUCED: log entry 88. -/
def State.isoEvents (s : State) (u : BitVec 256) : State :=
  let no := BitVec.ofNat 8 (lineField u 24 8)
  if no = s.iso.ack then s
  else
    let set := BitVec.ofNat 16 (lineField u 152 16)
    let s1 := { s with iso := { s.iso with ack := no } }
    let s2 := (((s1.setBitIf (set.getLsbD 0) Reg.FIO_EVT 0).setBitIf (set.getLsbD 1) Reg.FIO_EVT 1).setBitIf
      (set.getLsbD 2) Reg.FIO_EVT 2).setBitIf (set.getLsbD 3) Reg.FIO_EVT 3
    (List.range 13).foldl (fun (t : State) n => if set.getLsbD n then t.raise (224 + n) else t) s2

/-- The supervisor end receives an up frame (R733 to R735, R738). -/
def State.upReceive (s : State) (u : BitVec 256) : State :=
  if isoCrcOk u = false then ((s.addField Reg.FIO_LINK_CNT 16 16 1).setBit Reg.FIO_EVT 1).raise 225
  else if lineField u 0 16 ≠ 0x5AA5 then s
  else ((s.fioShow u).safShow u).isoEvents u

/-- No valid up frame has come by 42 µs into the slot (R734, R735, R739). -/
def State.upLost (s : State) : State :=
  let n := s.iso.lostRow + 1
  let s1 := { s.addField Reg.FIO_LINK_CNT 0 16 1 with iso := { s.iso with lostRow := n, up := false } }
  if n = 3 then ({ s1 with iso := { s1.iso with stale := true } }.setBit Reg.FIO_EVT 0).raise 224 else s1

/-- Mode in effect of a group of inputs: a group with an input of a pair with a role is pulsed (R722). -/
def State.fioMode (s : State) (g : Nat) : Bool :=
  s.fio.mode.getLsbD g &&
  !((List.range 8).any fun i => 2 * i / 8 == g && safRole s.sys.cfg.safety i != 0)

/-- A field output overload latches every member of its gang off (R727). -/
def Fio.overload (f : Fio) (n : Nat) : Fio :=
  { f with ovl := f.ovl ||| BitVec.ofNat 16 (flagNat ((List.range 16).map fun m => f.lead m == f.lead n)) }

/-- FIO_OVL_CLR, FIO_CNT_CLR and SAF_CNT_CLR (R727, R742, R743). -/
def State.fioOvlClr (s : State) (v : BitVec 16) : State := { s with fio := { s.fio with ovl := s.fio.ovl &&& ~~~ v } }
def State.fioCntClr (s : State) : State := s.clearAll [Reg.FIO_LINK_CNT, Reg.FIO_LINK_FLD]
def State.safCntClr (s : State) : State := s.clearAll [Reg.SAF_CNT, Reg.SAF_TEST_CNT]

/-- FIO_RESUME (R736). -/
def State.fioResume (s : State) : State := { s with iso := { s.iso with resume := true } }

end Sys2Proof.Machine
end

