-- ==== Sys2Proof/Machine/Irq.lean ====
section
/-! DEFINITION. The interrupt controller: its sources, what is pending, claims and completions (R639 to R643). -/

namespace Sys2Proof.Machine

/-- Any bit of a register is set. -/
def State.anyOf (s : State) (a : Nat) : Bool := s.rd a != 0

/-- Any bit of a register is set that a mask enables. -/
def State.anyMasked (s : State) (a : Nat) (m : Word) : Bool := s.rd a &&& m != 0

/-- A port, an engine or a lane raises its common source (R643, IDs 32 and 33). -/
def State.portIrq (s : State) : Bool :=
  (List.range 12).any fun p => s.anyOf (Reg.PRT_LANE_EVT p) || s.anyOf (Reg.PRT_FRM_EVT p) || s.anyOf (Reg.PRT_AUD_EVT p)
def State.engineIrq (s : State) : Bool :=
  ((List.range 12).any fun n => s.anyOf (Reg.AE_EVT n)) || ((List.range 4).any fun n => s.anyOf (Reg.LE_EVT n)) ||
  s.anyOf Reg.LE_FP_EVT || s.anyOf Reg.LE_ISL_EVT

/-- A transmit timestamp queue is not empty (ID 11). -/
def State.txtsIrq (s : State) : Bool := s.net.txts.any fun e => !e.2.isEmpty

/-- Is a source asserted? (R414, R643 and the interrupt lines of the chapters) -/
def State.irqLine (s : State) (i : Nat) : Bool :=
  if i = 1 then s.bitOf Reg.FLT_EVT 1
  else if i = 2 then s.bitOf Reg.FLT_EVT 0
  else if i = 3 then s.bitOf Reg.FLT_EVT 3
  else if i = 4 then s.bitOf Reg.FLT_EVT 8
  else if i = 5 then s.bitOf Reg.GST_EVT 1
  else if i = 6 then s.bitOf Reg.GST_EVT 2
  else if i = 7 then s.bitOf Reg.TWN_EVT 0
  else if i = 8 then s.anyMasked Reg.SYS_EVT 0x18
  else if i = 9 then s.anyMasked Reg.DRF_EVT 0x3C
  else if i = 10 then s.net.front.isSome
  else if i = 11 then s.txtsIrq
  else if i = 12 then s.bitOf Reg.NET_EVT 0
  else if i = 13 then s.anyOf Reg.DSP_EVT
  else if 14 ≤ i ∧ i < 30 then s.anyMasked (Reg.DMA_CH_EVT (i - 14)) 0x1E
  else if i = 30 then s.anyOf Reg.MEM_EVT
  else if i = 31 then s.anyOf Reg.SCH_EVT
  else if i = 32 then s.portIrq
  else if i = 33 then s.engineIrq
  else if i = 34 then s.anyOf Reg.KEY_EVT
  else if i = 35 then s.anyMasked (Reg.CAN_EVT 0) (s.rd (Reg.CAN_IRQ_EN 0))
  else if i = 36 then s.anyMasked (Reg.CAN_EVT 1) (s.rd (Reg.CAN_IRQ_EN 1))
  else if i = 37 then s.anyOf Reg.PWM_EVT
  else if i = 38 then s.anyMasked (Reg.SHF_EVT 0) (s.rd Reg.SHF_IRQ_EN &&& 0x3FF) ||
    s.anyMasked (Reg.SHF_EVT 1) ((s.rd Reg.SHF_IRQ_EN >>> 16) &&& 0x3FF)
  else if i = 39 then s.anyMasked Reg.ADC_EVT (s.rd Reg.ADC_IRQ_EN)
  else if i = 40 then s.anyOf Reg.FIO_EVT
  else if i = 41 then s.anyOf Reg.SAF_EVT
  else false

/-- Is a source pending? It is asserted and not claimed (R640). -/
def State.irqPending (s : State) (i : Nat) : Bool := s.irqLine i && !s.dsp.claimed.getLsbD i

/-- Is a source enabled in a context? -/
def State.irqEnabled (s : State) (c i : Nat) : Bool :=
  if i < 32 then s.bitOf (Reg.PLIC_EN_LO c) i else s.bitOf (Reg.PLIC_EN_HI c) (i - 32)

/-- The priority of a source. -/
def State.irqPrio (s : State) (i : Nat) : Nat := s.field (Reg.PLIC_PRIO i) 0 3

/-- Does a source qualify in a context? (R640) -/
def State.irqQualifies (s : State) (c i : Nat) : Bool :=
  s.irqPending i && s.irqEnabled c i && decide (s.field (Reg.PLIC_THRESH c) 0 3 < s.irqPrio i)

/-- The source that a claim of a context returns: the highest priority, and the lowest ID among equals; 0 for none
(R640). PRESUMED: log entry 14. -/
def State.irqBest (s : State) (c : Nat) : Nat :=
  ((List.range 64).filter fun i => decide (1 ≤ i) && s.irqQualifies c i).foldl
    (fun m i => if m = 0 ∨ s.irqPrio m < s.irqPrio i then i else m) 0

/-- PLIC_CLAIM: a read of PLIC_CLAIM[c] returns the source and claims it (R640, R641). -/
def execPlicClaim (c : Fin 8) (s : State) : Res :=
  if s.open .dsp then
    let i := s.irqBest c
    let d := if i = 0 then s.dsp else { s.dsp with claimed := s.dsp.claimed ||| ((1 : BitVec 64) <<< i) }
    .next { s with dsp := d, bus := { data := BitVec.ofNat 32 i, err := false } }
  else .next { s with bus := {} }

/-- A write of an ID to PLIC_CLAIM[c]: the source is completed where the context has it enabled (R640). -/
def State.plicComplete (s : State) (c : Nat) (id : Word) : State :=
  if id.toNat < 64 ∧ s.irqEnabled c id.toNat then
    { s with dsp := { s.dsp with claimed := s.dsp.claimed &&& ~~~ ((1 : BitVec 64) <<< id.toNat) } }
  else s

/-- PLIC_COMPLETE: the ID is written to PLIC_CLAIM[c] (R640). -/
def execPlicComplete (c : Fin 8) (id : Word) (s : State) : Res := s.via .dsp fun t => t.plicComplete c id

end Sys2Proof.Machine
end

