-- ==== Sys2Proof/Machine/Capture.lean ====
section
/-! DEFINITION. The bytes of the capture memory as they can be read (R420 to R422, R427, R428, R436, R465, R466). -/

namespace Sys2Proof.Machine

/-- FLAGS of a record (R427). -/
def Gst.flags (g : Gst) (r : GstPer) (trace : Bool) : Nat :=
  let t := g.trig == some r.pc
  let last := g.lastPc == some r.pc
  flagNat [trace, r.first, t, last, r.pChanged, r.schedSwitched, last && g.maskStop, t && g.remote, r.ntValid,
    if trace then r.trFault else r.plFault]

/-- Bytes 0x00 to 0x3B of a record's header (R427). -/
def Gst.header (g : Gst) (r : GstPer) (trace : Bool) : List Byte :=
  let cells := (List.range 12).map fun p => if trace || !r.mask.getLsbD p then 0 else (r.ncells[p]?).getD 0
  natBytes 4 r.pc.toNat ++ natBytes 2 (g.flags r trace) ++ natBytes 2 r.p ++ natBytes 8 r.vtB.toNat ++
  natBytes 8 r.ntB.toNat ++ natBytes 2 r.fired.toNat ++ natBytes 1 r.viol.toNat ++ natBytes 1 r.react ++
  natBytes 2 (min (if trace then r.late else r.plMissing) 0xFFFF) ++
  natBytes 2 (min (if trace then r.dup else r.plPair) 0xFFFF) ++ natBytes 2 r.epoch.toNat ++
  natBytes 2 (if trace then 0 else r.mask.toNat) ++ (cells.map (natBytes 2)).flatten

/-- A segment of a plane's body: the values, padded to 64 bytes (R428). -/
def planeSegment (l : List (BitVec 16)) : List Byte :=
  (l.map fun v => natBytes 2 v.toNat).flatten ++ natBytes (segSize l.length - 2 * l.length) 0

/-- The body of a trace row (R436). -/
def GstPer.rowBody (r : GstPer) : List Byte :=
  let s : List (Option (BitVec 32 × Bool)) := (List.range 64).map fun n => Sparse.get (fun _ => none) r.row n
  natBytes 8 (flagNat (s.map Option.isSome)) ++ natBytes 8 (flagNat (s.map fun x => (x.map Prod.snd).getD false)) ++
  natBytes 32 r.faults.toNat ++ (s.map fun x => natBytes 4 ((x.map Prod.fst).getD 0).toNat).flatten ++ natBytes 16 0

/-- A whole record: header, CRC and body (R427). -/
def Gst.record (g : Gst) (r : GstPer) (trace : Bool) : List Byte :=
  let h := g.header r trace
  let b := if trace then r.rowBody else (r.plane.map planeSegment).flatten
  h ++ wordBytes (crc32c (h ++ b)) ++ b

/-- The captured period whose record lies in a slot of an area (R422, R466). -/
def Gst.inSlot (g : Gst) (cap slot : Nat) : Option GstPer :=
  (g.hist.take cap).find? fun r => r.idx % cap == slot

/-- A byte of the capture memory where a record held has it; every other byte is left open (R422, R423). -/
def Gst.byteAt (g : Gst) (a : Nat) : Option Byte :=
  let o := a - 0x400000000
  let top := areaUnit * g.traceUnits
  let trace := decide (o < top)
  let size := if trace then 384 else g.plSize
  let cap := if trace then g.trCap else g.plCap
  let o1 := if trace then o else o - top
  if cap = 0 ∨ size = 0 ∨ cap * size ≤ o1 then none
  else match g.inSlot cap (o1 / size) with
    | some r => (g.record r trace)[o1 % size]?
    | none => none

/-- A byte of the capture memory; one that no record holds is a free value. DESIGN CHOICE: log entry 67. -/
def State.captureByte (s : State) (a : Nat) : Byte := (s.gst.byteAt a).getD (Config.captureLeft s.free a)

end Sys2Proof.Machine
end

