-- ==== Sys2Proof/Machine/DmaOps.lean ====
section
/-! DEFINITION. The DMA engine (R652 to R665), shared by its commands. -/

namespace Sys2Proof.Machine

/-- A channel. -/
def State.dmaCh (s : State) (n : Nat) : DmaCh := Sparse.get (fun _ => {}) s.dma.chs n
def State.setDmaCh (s : State) (n : Nat) (x : DmaCh) : State :=
  { s with dma := { s.dma with chs := Sparse.put (fun _ => {}) s.dma.chs n x } }

/-- May a descriptor lie at an address? (R653, R658, R663) -/
def dmaDescAt (a : Nat) : Bool := a % 32 == 0 && (spanIn inSram a 32 || spanIn inDramB a 32)

/-- DMA_CH_DESC. -/
def State.dmaDesc (s : State) (n : Nat) : Nat :=
  s.rdNat (Reg.DMA_CH_DESC_LO n) / 32 * 32 + 0x100000000 * s.field (Reg.DMA_CH_DESC_HI n) 0 2
def State.setDmaDesc (s : State) (n a : Nat) : State :=
  (s.wr (Reg.DMA_CH_DESC_LO n) (BitVec.ofNat 32 (a / 32 * 32))).wr (Reg.DMA_CH_DESC_HI n) (BitVec.ofNat 32 (a / 0x100000000 % 4))

/-- A descriptor as it stands in memory (R652). -/
def State.descOf (s : State) (a : Nat) : DmaDesc :=
  let b := s.busBytes a 32
  { at_ := a, src := bytesAt b 0 8, dst := bytesAt b 8 8, len := bytesAt b 16 4
    ctl := BitVec.ofNat 32 (bytesAt b 20 4), next := BitVec.ofNat 64 (bytesAt b 24 8) }

/-- HANDED and RETURNED (R665). -/
def State.dmaHanded (s : State) (n : Nat) : State :=
  s.setField (Reg.DMA_CH_AUDIT n) 16 16 (s.field (Reg.DMA_CH_AUDIT n) 16 16 + 1)
def State.dmaReturned (s : State) (n : Nat) : State :=
  (s.setField (Reg.DMA_CH_AUDIT n) 0 16 (s.field (Reg.DMA_CH_AUDIT n) 0 16 + 1)).addField (Reg.DMA_CH_STAT n) 0 16 1

/-- HANDED must equal RETURNED (R665). -/
def State.dmaAudit (s : State) (n : Nat) : State :=
  if s.field (Reg.DMA_CH_AUDIT n) 16 16 = s.field (Reg.DMA_CH_AUDIT n) 0 16 then s
  else (s.setBit Reg.DMA_EVT 0).raise 247

/-- The channel enters IDLE (R665, DMA_CH_EVT.IDLE). -/
def State.dmaIdle (s : State) (n : Nat) : State :=
  (((s.setDmaCh n {}).clrBit (Reg.DMA_CH_CTL n) 2).setBit (Reg.DMA_CH_EVT n) 0).dmaAudit n

/-- The engine fetches the descriptor at DMA_CH_DESC; of one that it takes no byte is written yet (R653, DMA_CH_DONE). -/
def State.dmaFetch (s : State) (n : Nat) : State :=
  let d := s.descOf (s.dmaDesc n)
  if d.ctl.getLsbD 31 then
    ((s.setDmaCh n { st := .active, cur := some d }).wr (Reg.DMA_CH_DONE n) 0).dmaHanded n
  else s.dmaIdle n

/-- START (R653, R663). `answered`: the fetch has been answered. -/
def State.dmaStart (s : State) (n : Nat) (answered : Bool) : State :=
  if (s.dmaCh n).st ≠ .idle ∨ s.field (Reg.DMA_CH_LIMIT n) 0 16 = 0 ∨ dmaDescAt (s.dmaDesc n) = false ∨ (n = 15 ∧ s.tracing)
  then s.setBit (Reg.DMA_CH_EVT n) 5
  else
    let s1 := s.setField (Reg.DMA_CH_STAT n) 0 16 0
    if answered then s1.dmaFetch n else s1.setDmaCh n { st := .active, cur := none }

/-- Reserved bits of CTL are set (R652, code 0x08). -/
def DmaDesc.badCtl (d : DmaDesc) : Bool := fieldOf d.ctl 24 7 != 0 || fieldOf d.ctl 2 14 != 0

/-- The capture memory (R420). -/
def inCapture (a : Nat) : Bool := decide (0x400000000 ≤ a ∧ a < 0x600000000)

/-- SRC and DST lie in the permitted areas (R654). -/
def DmaDesc.inAreas (d : DmaDesc) : Bool :=
  (spanIn inSram d.src d.len || spanIn inDramB d.src d.len || spanIn inCapture d.src d.len) &&
  (spanIn (fun a => inSram a && !inEventLog a) d.dst d.len || spanIn inDramB d.dst d.len)

/-- The source bytes as they stand (R656). -/
def State.dmaSource (s : State) (d : DmaDesc) : List Byte :=
  if inCapture d.src then (List.range d.len).map fun i => s.captureByte (d.src + i) else s.busBytes d.src d.len

/-- The first `moved` bytes of the move are written: from the highest address down where the areas overlap upwards, from
the lowest up otherwise (R655, R656). -/
def State.dmaMove (s : State) (d : DmaDesc) (moved : Nat) : State :=
  let src := s.dmaSource d
  let k := min moved d.len
  let s1 := s.tick1
  if d.src < d.dst ∧ d.dst < d.src + d.len then s1.busWrite (d.dst + (d.len - k)) (src.drop (d.len - k))
  else s1.busWrite d.dst (src.take k)

/-- STATUS is written back, and then, where the write completes, OWN = 0 (R657). -/
def State.dmaGiveBack (s : State) (d : DmaDesc) (status : Nat) (own : Bool) : State :=
  let c := natBytes 4 ((d.ctl &&& ~~~ putField 0xFF 16) ||| putField status 16).toNat
  let s1 := s.busWrite (d.at_ + 20) (c.take 3)
  if own then s1.busWrite (d.at_ + 23) [BitVec.ofNat 8 (fieldOf d.ctl 24 7)] else s1

/-- A descriptor is returned with a status (R657, R665); the status and the bytes written are shown. -/
def State.dmaReturn (s : State) (n : Nat) (d : DmaDesc) (status moved : Nat) : State :=
  let s1 := ((s.dmaGiveBack d status true).setField (Reg.DMA_CH_STAT n) 24 8 status).wr (Reg.DMA_CH_DONE n) (BitVec.ofNat 32 moved)
  ((s1.dmaReturned n).dmaAudit n).setBitIf (d.ctl.getLsbD 0) (Reg.DMA_CH_EVT n) 1

/-- May the data of a descriptor be moved at all? (R654, R658, R465) -/
def State.dmaMovable (s : State) (d : DmaDesc) : Bool := !d.badCtl && d.inAreas && (!inCapture d.src || s.gstReadable)

/-- A move that ends after `k` bytes: the data written, and their number (R654, R655). -/
def State.dmaPart (s : State) (d : DmaDesc) (k : Nat) : State × Nat :=
  let m := if s.dmaMovable d then min k d.len else 0
  (if m = 0 then s else s.dmaMove d m, m)

/-- The channel stops with an error (R664). -/
def State.dmaError (s : State) (n : Nat) : State := (s.dmaIdle n).setBit (Reg.DMA_CH_EVT n) 3

/-- The status of a descriptor whose data move ends so, and the bytes it writes (R654, R657, R658, R664). DEDUCED: log
entry 86. -/
def State.dmaOutcome (s : State) (d : DmaDesc) (e : DmaEnd) : Nat × Nat :=
  if d.badCtl then (8, 0)
  else if d.len = 0 then (if d.ctl.getLsbD 1 ∧ dmaDescAt d.next.toNat = false then 9 else 1, 0)
  else if d.inAreas = false then (3, 0)
  else if (inCapture d.src && !s.gstReadable) || ((inDramB d.src || inDramB d.dst) && !s.powered 8) then (4, 0)
  else match e with
    | .busError k | .cut k => (4, min k d.len)
    | .readBack => (7, d.len)
    | .whole => (if d.ctl.getLsbD 1 ∧ dmaDescAt d.next.toNat = false then 9 else 1, d.len)

/-- After the return of a descriptor: an error, the end of the chain, its limit, or the next fetch; a STOP of the same cycle sets
STOPPED whatever the status (R658, R659, R662). -/
def State.dmaAfter (s : State) (n : Nat) (d : DmaDesc) (status : Nat) (t : DmaThen) : State :=
  if 3 ≤ status then (s.dmaError n).setBitIf (t == .stopped) (Reg.DMA_CH_EVT n) 2
  else
    let chain := d.ctl.getLsbD 1
    let s1 := if chain then s.setDmaDesc n d.next.toNat else s
    if t = .stopped then (s1.dmaIdle n).setBit (Reg.DMA_CH_EVT n) 2
    else if chain = false then s1.dmaIdle n
    else if s1.field (Reg.DMA_CH_LIMIT n) 0 16 ≤ s1.field (Reg.DMA_CH_STAT n) 0 16 then
      ((s1.dmaIdle n).setBit (Reg.DMA_CH_EVT n) 4).raise 249
    else if t = .unanswered then s1.setDmaCh n { st := .active, cur := none }
    else s1.dmaFetch n

/-- A stopped channel has done with its descriptor: the data written stay, and it is returned with status 0x02, or with that of
the access that failed (R661, R664). -/
def State.dmaStopped (s : State) (n : Nat) (d : DmaDesc) (e : DmaEnd) : State :=
  let o := match e with
    | .cut k => (2, s.dmaPart d k)
    | .whole => (2, s.dmaPart d d.len)
    | .busError k => (4, s.dmaPart d k)
    | .readBack => (7, s.dmaPart d d.len)
  let s1 := o.2.1.dmaReturn n d o.1 o.2.2
  (if o.1 = 2 then s1.dmaIdle n else s1.dmaError n).setBit (Reg.DMA_CH_EVT n) 2

/-- STOP on a channel that is not IDLE: it ends the move at once, or the channel is STOPPING until the access in flight and the
read-back have been answered (R661). -/
def State.dmaStop (s : State) (n : Nat) (h : DmaHalt) : State :=
  let x := s.dmaCh n
  if x.st = .idle then s.clrBit (Reg.DMA_CH_CTL n) 2
  else match x.cur, h with
    | none, _ => (s.dmaIdle n).setBit (Reg.DMA_CH_EVT n) 2
    | some d, .ended k => s.dmaStopped n d (.cut k)
    | some _, .stopping => (s.setDmaCh n { x with st := .stopping }).setBit (Reg.DMA_CH_CTL n) 2

/-- An access is not answered in 10 µs (R660, R665). -/
def State.dmaTimeout (s : State) (n : Nat) (a : DmaAccess) : State :=
  let x := s.dmaCh n
  if x.st = .idle then s
  else match x.cur, a with
    | some d, .own =>
      -- every data write lies before it (R657)
      let m := s.dmaPart d d.len
      (((m.1.wr (Reg.DMA_CH_DONE n) (BitVec.ofNat 32 m.2)).dmaGiveBack d 5 false).dmaError n).raise 248
    | some d, .data k =>
      let m := s.dmaPart d k
      ((m.1.dmaReturn n d 5 m.2).dmaError n).raise 248
    | some d, .fetch => ((s.dmaReturn n d 5 0).dmaError n).raise 248
    | none, _ => (s.dmaError n).raise 248

/-- A write to DMA_CH_CTL[n]: STOP outranks a START beside it on a channel that runs (R653, R661). -/
def State.dmaCtl (s : State) (n : Nat) (v : Word) : State :=
  let s1 := if v.getLsbD 2 then s.dmaStop n .stopping else s
  if v.getLsbD 1 then s1.dmaStart n true else s1

end Sys2Proof.Machine
end

