-- ==== Sys2Proof/Machine/MemOps.lean ====
section
/-! DEFINITION. The arbiter of DRAM channel B and the memory errors (R666 to R674). -/

namespace Sys2Proof.Machine

/-- The weight of a requester: 0 acts as 1, and 17 to 31 act as 16 (MEM_WEIGHT). -/
def State.memWeight (s : State) (r : Nat) : Nat := min 16 (max 1 (s.field (Reg.MEM_WEIGHT r) 0 5))

/-- The requesters of a group (R667). -/
def memGroup (g : Nat) : List Nat :=
  if g = 0 then List.range 8 else if g = 1 then (List.range 16).map (· + 8) else (List.range 4).map (· + 24)

/-- The entries of a list after the one served last, in ring order. -/
def ringAfter (l : List Nat) (last : Nat) : List Nat :=
  (l.filter fun r => decide (last < r)) ++ l.filter fun r => decide (r ≤ last)

/-- A grant is counted (MEM_GRANTS). -/
def State.memGrant (s : State) (r : Nat) : State := s.bump (Reg.MEM_GRANTS r)

/-- Mode 0: the next group with a pending requester, and in it the next pending requester (R669). -/
def State.memTree (s : State) (want : Nat → Bool) : State :=
  let g := (ringAfter [0, 1, 2] s.mem.group).find? fun g => (memGroup g).any want
  match g with
  | none => s
  | some g =>
    match (ringAfter (memGroup g) (Sparse.get (fun _ => 0) s.mem.served g)).find? want with
    | none => s
    | some r => { s with mem := { s.mem with
        group := Fin.ofNat 3 g, served := Sparse.put (fun _ => 0) s.mem.served g r } }.memGrant r

/-- The deficit of a requester. -/
def Mem.left (x : Mem) (r : Nat) : Nat := Sparse.get (fun _ => 0) x.deficit r
def Mem.setLeft (x : Mem) (r v : Nat) : Mem := { x with deficit := Sparse.put (fun _ => 0) x.deficit r v }

/-- Mode 1: the requester served goes on while it is pending and has credit, else the next pending one after it (R670). -/
def State.memRing (s : State) (want : Nat → Bool) : State :=
  let c := s.mem.cur.val
  if want c ∧ 0 < s.mem.left c then { s with mem := s.mem.setLeft c (s.mem.left c - 1) }.memGrant c
  else
    let m := s.mem.setLeft c 0
    match (ringAfter (List.range 28) c).find? want with
    | none => { s with mem := m }
    | some r => { s with mem := { m.setLeft r (s.memWeight r - 1) with cur := Fin.ofNat 28 r } }.memGrant r

/-- One grant slot (R668 to R670). `want`: the requesters that are pending. -/
def State.memSlot (s : State) (want : BitVec 29) : State :=
  let others := want.setWidth 28 != 0
  let slice := want.getLsbD 28 && (s.mem.slot == 0 || !others)
  let m := { s.mem with slot := s.mem.slot + 1, recent := (s.mem.recent <<< 1) ||| (if slice then 1 else 0) }
  let s1 := { s with mem := m }
  if slice then s1.memGrant 28
  else if m.weighted then s1.memRing fun r => want.getLsbD r else s1.memTree fun r => want.getLsbD r

/-- A write of MODE takes effect at the next slot: every deficit is 0, and the round-robin pointers stay (R671). -/
def State.memMode (s : State) (v : Word) : State :=
  { s.wr Reg.MEM_ARB_CFG (v &&& 1) with mem := { s.mem with weighted := v.getLsbD 0, deficit := [] } }

/-- MEM_GRANT_CLR (R677). -/
def State.memGrantClr (s : State) : State := s.clearAll ((List.range 29).map Reg.MEM_GRANTS)

/-- What R629 gives core `c`. -/
def State.scCore (s : State) (c : Nat) : ScCore := Sparse.get (fun _ => {}) s.dsp.cores c
def State.setScCore (s : State) (c : Nat) (x : ScCore) : State :=
  { s with dsp := { s.dsp with cores := Sparse.put (fun _ => {}) s.dsp.cores c x } }

/-- The access fault exception that matches an access, which the core takes in M mode (R631, R633). PRESUMED: log entry 117. -/
def State.coreFault (s : State) (c : Nat) (k : AccKind) : State :=
  State.setScCore { s with dsp := { s.dsp with excs := Sparse.put (fun _ => none) s.dsp.excs c (some k.fault) } } c
    { s.scCore c with mode := .machine }

/-- The first byte and the end of the range that entry `i` of a core's protection covers, none where it is off or selects NA4
(R629). PRESUMED: log entry 117. -/
def ScCore.pmpRange (x : ScCore) (i : Nat) : Option (Nat × Nat) :=
  -- pmpaddr holds address bits 55 to 2; at a granularity of 8 bytes its bit 0 is no bound
  let at_ := fun (j : Nat) => (x.pmp.getD j (0, 0)).2.toNat % 2 ^ 54
  match fieldOf (x.pmp.getD i (0, 0)).1 3 2 with
  | 1 => some ((if i = 0 then 0 else at_ (i - 1) / 2 * 8), at_ i / 2 * 8)
  | 3 =>
    let ones := (List.range 54).takeWhile fun j => (at_ i).testBit j
    let size := 8 * 2 ^ ones.length
    some (at_ i * 4 / size * size, at_ i * 4 / size * size + size)
  | _ => none

/-- Does entry `i` allow the kind of access? -/
def ScCore.pmpAllows (x : ScCore) (i : Nat) (k : AccKind) : Bool :=
  let c := (x.pmp.getD i (0, 0)).1
  match k with
  | .load | .reserve => c.getLsbD 0
  | .store => c.getLsbD 1
  | .atomic => c.getLsbD 0 && c.getLsbD 1
  | .fetch => c.getLsbD 2

/-- Is an access denied in U mode? The lowest-numbered entry that covers a byte of it decides; none denies it (R629, R633).
PRESUMED: log entry 117. -/
def CoreAcc.denied (a : CoreAcc) : Bool :=
  let lo := a.addr.toNat
  let hi := lo + 2 ^ (a.size : Nat)
  let hit := (List.range 16).find? fun i => match a.core.pmpRange i with | some r => decide (r.1 < hi ∧ lo < r.2) | none => false
  a.core.mode == .user &&
  match hit with
  | some i => match a.core.pmpRange i with
    | some r => !(decide (r.1 ≤ lo ∧ hi ≤ r.2) && a.core.pmpAllows i a.kind)
    | none => true
  | none => true

/-- A single-bit error is corrected and counted (R672). -/
def State.eccCorrected (s : State) (chB : Bool) : State :=
  let s1 := (s.addField (if chB then Reg.MEM_ECC_B else Reg.MEM_ECC_A) 0 16 1).setBit Reg.MEM_EVT (if chB then 2 else 0)
  s1.raise (if chB then 244 else 242)

/-- An uncorrectable error is counted and its address latched (R673). -/
def State.eccLatch (s : State) (chB : Bool) (a : BitVec 35) : State :=
  let s1 := (s.addField (if chB then Reg.MEM_ECC_B else Reg.MEM_ECC_A) 16 16 1).setBit Reg.MEM_EVT (if chB then 3 else 1)
  let s2 := (s1.wr Reg.MEM_ECC_ADDR_LO (a.setWidth 32)).wr Reg.MEM_ECC_ADDR_HI
    (bitIf chB 31 ||| BitVec.ofNat 32 (a.toNat / 0x100000000))
  s2.raise (if chB then 243 else 241)

/-- What its reader sees of an uncorrectable error: a core a bus error, a DMA channel status 0x06, and every other one data marked
in error, on which the check of its own transfer fails (R633, R673). -/
def State.eccReader (s : State) (w : EccReader) : State :=
  match w with
  | .core c k => (s.coreFault c k).raise 16
  | .dma n k =>
    match (s.dmaCh n).cur with
    | none => if (s.dmaCh n).st = .idle then s else s.dmaError n
    | some d =>
      let m := s.dmaPart d k
      (m.1.dmaReturn n d 6 m.2).dmaError n
  | .draft => { s with drf := { s.drf with marked := true } }
  | .key => match s.key.cmd with
    | some c => { s with key := { s.key with cmd := some { c with marked := true } } }
    | none => s
  | .other => s

/-- Requesters that may have an access to channel B pending: the cores, the DMA channels in progress and channel 15 for the
dispatcher's trace, the network rings, the key engine for KEY commands, Draft LOAD and post-mortem records, and the twin port
(R651, R667). -/
def State.memMay (s : State) (r : Nat) : Bool :=
  if r < 8 then s.powered 8
  else if r < 24 then (s.dmaCh (r - 8)).st != .idle || (r == 23 && s.tracing)
  else if r < 27 then s.open .net
  else if r = 27 then s.key.cmd.isSome || s.sys.pm.isSome || decide (3 ≤ s.sys.stage ∧ s.sys.stage ≤ 6)
  else s.open .twn

/-- A grant slot of an idle tick. Which requesters have an access pending in it no rule states: a free value, held
within the requesters that may. DESIGN CHOICE: log entry 96. -/
def State.memIdleSlot (s : State) : State :=
  let want := (List.range 29).foldl (fun (w : BitVec 29) r =>
    if s.fresh.getLsbD r && s.memMay r then w ||| ((1 : BitVec 29) <<< r) else w) 0
  State.memSlot s.tick1 want

/-- The grant slots of one idle tick: one and two in turn, three in two ticks (R666). -/
def State.memTick (s : State) : State :=
  if s.powered 1 then
    let s1 := { s with mem := { s.mem with two := !s.mem.two } }
    if s.mem.two then s1.memIdleSlot.memIdleSlot else s1.memIdleSlot
  else s

/-- What an idle tick of 5 ns does: every time of the part moves on by one tick, and channel B grants (R23, R593,
R666). DESIGN CHOICE: log entry 2. -/
def State.idleTick (s : State) : State := (s.elapse 1).memTick

end Sys2Proof.Machine
end

