-- ==== Sys2Proof/Machine/Supervisor.lean ====
section
/-! DEFINITION. Commands of the supervisor island: watchdog, cores, thread dispatcher, DMA engine and DRAM channel B
(R629 to R678). -/

namespace Sys2Proof.Machine

/-- The watchdog's period in ticks (R636). DEDUCED: log entry 87. -/
def State.wdogTicks (s : State) : Nat := 20000 * s.field Reg.DSP_WDOG_CFG 0 16

/-- A write to DSP_WDOG_CFG: once EN is set, nothing changes it (R636). -/
def State.wdogCfg (s : State) (v : Word) : State :=
  if s.bitOf Reg.DSP_WDOG_CFG 16 then s
  else
    let s1 := s.wr Reg.DSP_WDOG_CFG (v &&& 0x1FFFF)
    if v.getLsbD 16 then { s1 with dsp := { s1.dsp with wdogDue := s1.sys.up + s1.wdogTicks } } else s1

/-- An accepted pair of DSP_WDOG_KICK restarts the count (R636). -/
def State.wdogKick (s : State) : State :=
  if s.bitOf Reg.DSP_WDOG_CFG 16 then { s with dsp := { s.dsp with wdogDue := s.sys.up + s.wdogTicks } } else s

/-- WATCHDOG_KICK: an accepted paired write to DSP_WDOG_KICK, of any value (R636, R637). -/
def execWatchdogKick (v : Word) (s : State) : Res :=
  s.via .dsp fun t => (t.wrPair Reg.DSP_WDOG_KICK v).wdogKick

/-- WATCHDOG_ENABLE: EN is set, with PERIOD (R636). -/
def execWatchdogEnable (period : BitVec 16) (s : State) : Res :=
  s.via .dsp fun t => t.wdogCfg (bitIf true 16 ||| period.setWidth 32)

/-- WATCHDOG_EXPIRY: the count has run out (R636). -/
def execWatchdogExpiry (s : State) : Res :=
  if s.open .dsp = false ∨ s.bitOf Reg.DSP_WDOG_CFG 16 = false then .next s
  else
    let s1 := s.elapse (s.dsp.wdogDue - s.sys.up)
    let s2 := ((s1.addField Reg.DSP_WDOG_CNT 16 16 1).setBit Reg.DSP_EVT 3).raise 9
    .next { s2 with dsp := { s2.dsp with wdogDue := s2.sys.up + s2.wdogTicks } }

/-- DEBUG_HALT: the debug module halts a core (R638, R792). -/
def execDebugHalt (c : Fin 8) (s : State) : Res :=
  if s.open .dsp = false ∨ s.haltedCore c then .next s
  else
    let was := s.pwmHalt
    let s1 := ({ s with dsp := { s.dsp with halted := s.dsp.halted ||| ((1 : BitVec 8) <<< (c : Nat)) } }).raise 18
    .next (if was then s1 else s1.pwmCalm)

/-- DEBUG_RESUME: the debug module lets a core run on; the dispatcher serves it again (R638, R792). -/
def execDebugResume (c : Fin 8) (s : State) : Res :=
  if s.open .dsp = false ∨ s.haltedCore c = false then .next s
  else
    let s1 := { s with dsp := { s.dsp with halted := s.dsp.halted &&& ~~~ ((1 : BitVec 8) <<< (c : Nat)) } }
    .next (if (s1.nextThr c).isNone then s1.freeCore c else s1)

/-- A write to DSP_MSIP[c]: the first setting starts a waiting core at DSP_BOOT_PC (R634, R635). -/
def State.msipWrite (s : State) (c : Nat) (v : Word) : State :=
  let s1 := s.wr (Reg.DSP_MSIP c) (v &&& 1)
  if v.getLsbD 0 ∧ s.dsp.started.getLsbD c = false ∧ c ≠ 0 then
    let pc := BitVec.ofNat 64 (s.rdNat Reg.DSP_BOOT_PC_LO + 0x100000000 * s.rdNat Reg.DSP_BOOT_PC_HI)
    State.setScCore { s1 with dsp := { s1.dsp with
      started := s1.dsp.started ||| ((1 : BitVec 8) <<< c), startPc := Sparse.put (fun _ => 0) s1.dsp.startPc c pc } } c
      { s1.scCore c with mode := .machine }
  else s1

/-- CORE_START: the DSP_MSIP bit of a core is set (R634). -/
def execCoreStart (c : Fin 8) (s : State) : Res := s.via .dsp fun t => t.msipWrite c 1

/-- DSP_MTIMECMP[c] (R635). -/
def State.mtimecmp (s : State) (c : Nat) : Nat :=
  s.rdNat (Reg.DSP_MTIMECMP_LO c) + 0x100000000 * s.rdNat (Reg.DSP_MTIMECMP_HI c)

/-- Core `c` has its machine timer interrupt pending (R635). -/
def State.timerPending (s : State) (c : Nat) : Bool := decide (s.mtimecmp c ≤ s.tb.vt.toNat)

/-- Local interrupt 16 of core `c`, DISPATCH: DSP_NEXT differs from DSP_CUR in VALID or in TID (R642). -/
def State.dispatchPending (s : State) (c : Nat) : Bool := s.nextThr c != s.curThr c

/-- mip of core `c`: software, timer and external interrupt, and DISPATCH at bit 16 (R635, R639, R642). -/
def State.mip (s : State) (c : Nat) : BitVec 64 :=
  (bitIf (s.bitOf (Reg.DSP_MSIP c) 0) 3 ||| bitIf (s.timerPending c) 7 ||| bitIf (s.irqBest c != 0) 11 |||
    bitIf (s.dispatchPending c) 16).setWidth 64

/-- Does core `c` have a DISPATCH interrupt that its mie enables? (R642) -/
def State.dispatchEnabled (s : State) (c : Nat) : Bool := s.dispatchPending c && (s.scCore c).mie.getLsbD 16

/-- MTIMECMP_MATCH: mtime reaches DSP_MTIMECMP[c], from which tick on the timer interrupt is pending (R635). -/
def execMtimecmpMatch (c : Fin 8) (s : State) : Res :=
  if s.open .dsp = false ∨ s.sys.going = false ∨ s.timerPending c then .next s
  else .next (s.elapse (s.mtimecmp c - s.tb.vt.toNat))

/-- CREATE (R644, R646). -/
def execCreate (c : Fin 8) (t : BitVec 7) (prio : BitVec 5) (aff : BitVec 8) (s : State) : Res :=
  s.via .dsp fun u => u.dspCmd c (dspWord 1 t prio aff false)

/-- READY (R644, R646, R647). -/
def execReady (c : Fin 8) (t : BitVec 7) (s : State) : Res := s.via .dsp fun u => u.dspCmd c (dspWord 2 t 0 0 false)

/-- BLOCK (R644, R646, R648). -/
def execBlock (c : Fin 8) (t : BitVec 7) (s : State) : Res := s.via .dsp fun u => u.dspCmd c (dspWord 3 t 0 0 false)

/-- YIELD: TID is ignored (R644, R646, R648). -/
def execYield (c : Fin 8) (t : BitVec 7) (s : State) : Res := s.via .dsp fun u => u.dspCmd c (dspWord 4 t 0 0 false)

/-- PRIO (R644, R646, R647). -/
def execPrio (c : Fin 8) (t : BitVec 7) (prio : BitVec 5) (s : State) : Res :=
  s.via .dsp fun u => u.dspCmd c (dspWord 5 t prio 0 false)

/-- AFFINITY (R644, R646). -/
def execAffinity (c : Fin 8) (t : BitVec 7) (aff : BitVec 8) (s : State) : Res :=
  s.via .dsp fun u => u.dspCmd c (dspWord 6 t 0 aff false)

/-- DELETE (R644, R646). -/
def execDelete (c : Fin 8) (t : BitVec 7) (s : State) : Res := s.via .dsp fun u => u.dspCmd c (dspWord 7 t 0 0 false)

/-- ACK: with IDLE, or naming a thread (R646, R649, R650). -/
def execDispatchAck (c : Fin 8) (t : BitVec 7) (idle : Bool) (s : State) : Res :=
  s.via .dsp fun u => u.dspCmd c (dspWord 8 t 0 0 idle)

/-- DMA_START: START is written; the fetch of the first descriptor is answered or not (R653, R660, R663). -/
def execDmaStart (n : Fin 16) (answered : Bool) (s : State) : Res := s.via .dma fun t => t.dmaStart n answered

/-- DMA_STOP: STOP is written, on a channel whose move has ended or whose access in flight is still to be answered (R661). -/
def execDmaStop (n : Fin 16) (h : DmaHalt) (s : State) : Res := s.via .dma fun t => t.dmaStop n h

/-- DESCRIPTOR_RETURN: the data of the descriptor in progress have been moved, the move has failed, or STOP has cut it, and it is
returned (R654 to R659, R661, R662, R664, R665). A move is cut on a STOPPING channel only. -/
def execDescriptorReturn (n : Fin 16) (e : DmaEnd) (then_ : DmaThen) (s : State) : Res :=
  match (s.dmaCh n).cur with
  | none => .next s
  | some d =>
    if (s.dmaCh n).st = .stopping then .next (s.dmaStopped n d e)
    else if e.isCut then .next s
    else
      let o := s.dmaOutcome d e
      let s1 := if o.2 = 0 then s else s.dmaMove d o.2
      .next ((s1.dmaReturn n d o.1 o.2).dmaAfter n d o.1 then_)

/-- DMA_ACCESS_TIMEOUT: an access has not been answered within 10 µs (R660, R665). -/
def execDmaAccessTimeout (n : Fin 16) (a : DmaAccess) (s : State) : Res := s.via .dma fun t => t.dmaTimeout n a

/-- ARB_MODE_WRITE (R671). -/
def execArbModeWrite (mode : BitVec 1) (s : State) : Res := s.via .mem fun t => t.memMode (mode.setWidth 32)

/-- MEM_GRANT_CLR: 1 is written to bit 0 (R677). -/
def execMemGrantClr (s : State) : Res := s.via .mem State.memGrantClr

/-- ECC_CORRECTED: a single-bit error has been corrected and written back (R672). -/
def execEccCorrected (chB : Bool) (s : State) : Res := s.via .mem fun t => t.eccCorrected chB

/-- ECC_UNCORRECTABLE: at an address, met by a reader (R673). -/
def execEccUncorrectable (chB : Bool) (a : BitVec 35) (w : EccReader) (s : State) : Res :=
  s.via .mem fun t => (t.eccLatch chB a).eccReader w

/-- Ticks of 24 h (R672). -/
def scrubPeriod : Nat := 17280000000000

/-- SCRUB_PASS: 24 h after the pass before, channel B has been read and corrected in the background, in slots that no requester
used (R672, MEM_SCRUB). -/
def execScrubPass (s : State) : Res :=
  s.via .mem fun t =>
    if t.powered 8 then
      let u := t.elapse (t.mem.scrubbed + scrubPeriod - t.sys.up)
      { u with mem := { u.mem with scrubbed := u.sys.up } }.bump Reg.MEM_SCRUB
    else t

/-- PMP_DENIAL: a core begins an access; denied in U mode, it ends in an access fault exception and FS17 (R629, R633). -/
def execPmpDenial (c : Fin 8) (k : CoreAcc) (s : State) : Res :=
  s.via .dsp fun t =>
    let u := t.setScCore c k.core
    if k.denied then (u.coreFault c k.kind).raise 17 else u

end Sys2Proof.Machine
end

