-- ==== Sys2Proof/Machine/View.lean ====
section
/-! DEFINITION. What a register reads as (R14 to R17, R858): most read as they are held; a register that shows the state
of its block is formed at the read. Each function below answers for one window, by offset. -/

namespace Sys2Proof.Machine

/-- The index of an offset in an array of a register, none where it does not hit. -/
def arrayAt (off base stride count : Nat) : Option Nat :=
  if base ≤ off ∧ (off - base) % stride = 0 ∧ (off - base) / stride < count then some ((off - base) / stride) else none

/-- Low and high word of a 64-bit value. -/
def loWord (t : BitVec 64) : Word := t.setWidth 32
def hiWord (t : BitVec 64) : Word := BitVec.ofNat 32 (t.toNat / 0x100000000)

/-- P, the next boundary and the phase offsets in effect (R68). -/
def State.viewTb (s : State) (off : Nat) : Option Word :=
  let next := if s.tb.placed then s.tb.nextB else 0
  match off with
  | 0x00 => some (loWord s.tb.vt)
  | 0x08 => some s.tb.pc
  | 0x0C => some s.tbStat
  | 0x10 => some (BitVec.ofNat 32 s.tbPeriod)
  | 0x14 => some (BitVec.ofNat 32 (if s.drf.pendAt.isSome then ((s.drf.set.sch.map SchSection.p).getD 0) else 0))
  | 0x18 => some (loWord next)
  | 0x1C => some (hiWord next)
  | 0x20 => some (BitVec.ofNat 32 s.sec.iEnd)
  | 0x24 => some (BitVec.ofNat 32 s.sec.eStart)
  | _ =>
    match arrayAt off 0x40 4 12, arrayAt off 0x80 4 12, arrayAt off 0xC0 4 12 with
    | some n, _, _ => some (BitVec.ofNat 32 (s.sec.port n).u)
    | _, some n, _ => some (BitVec.ofNat 32 (s.sec.port n).eEnd)
    | _, _, some n => some (BitVec.ofNat 32 (s.sec.port n).m)
    | _, _, _ => none

/-- A power code in quarter dB: a free value within bounds (R74, R111). -/
def powerCode (lo hi : Int) (v : Nat) : Nat := (BitVec.ofInt 8 (lo + ((v % ((hi - lo).toNat + 1) : Nat) : Int))).toNat

/-- The code of a received fibre's power: below the highest deassert level while it is DARK, from the lowest assert level up
while it is LIT; free within that (R74, R98, R111). DESIGN CHOICE: log entry 24. -/
def rxCode (dark : Bool) (v : Nat) : Nat :=
  if dark then (if v % 2 = 0 then 0x80 else powerCode (-127) (-64) (v / 2)) else powerCode (-96) 127 v

/-- PRT_RX_POWER: its reset value until its first update, then the three fibres as of the last microsecond (R111). -/
def State.rxPower (s : State) (p : Nat) : Word :=
  let x := s.lane p
  let n := s.laneUs p
  let v := fun (i : Nat) => (Config.optical (Reg.PRT_RX_POWER p) (4 * n + i)).toNat
  let d := if x.darkUs = n then x.darkWas else x.darks
  if n = 0 then 0x808080
  else statWord [(rxCode (d.getLsbD 2) (v 2), 16), (rxCode (d.getLsbD 1) (v 1), 8), (rxCode (d.getLsbD 0) (v 0), 0)]

/-- PRT_TX_POWER: 0x80 for a dark fibre; the launch power of a lit one is free within R74 (R78, R111). DESIGN CHOICE: log
entry 24. -/
def State.txPower (s : State) (p : Nat) : Word :=
  let n := s.laneUs p
  let v := fun (i : Nat) => if s.lit p then powerCode (-24) 8 (Config.optical (Reg.PRT_TX_POWER p) (4 * n + i)).toNat else 0x80
  if n = 0 then 0x808080 else statWord [(v 2, 16), (v 1, 8), (v 0, 0)]

/-- The lane registers of a port (R111, R114). -/
def State.viewLane (s : State) (p off : Nat) : Option Word :=
  match off with
  | 0x04 => some (s.lane p).stat
  | 0x14 => some (s.rxPower p)
  | 0x18 => some (s.txPower p)
  | _ => none

/-- The frame registers of a port (R190). -/
def State.viewFrame (s : State) (n off : Nat) : Option Word :=
  let x := s.port n
  match off with
  | 0x104 => some x.frmStat
  | 0x128 => some (BitVec.ofNat 32 (x.tPort % 0x10000))
  | 0x12C => some (BitVec.ofNat 32 (x.tDown % 0x10000))
  | 0x134 => some (match x.delay (s.field (Reg.PRT_DLY_IDX n) 0 11) with
      | some d => bitIf true 31 ||| BitVec.ofNat 32 (d % 0x1000000)
      | none => 0)
  | 0x138 => some (BitVec.ofNat 32 (x.hold % 64))
  | 0x140 => some (s.rd (Reg.PRT_CTL_REQ n) ||| bitIf x.busy 16)
  | _ => none

/-- AE_CELL_INFO (R245). -/
def Ae.cellInfo (a : Ae) (i : Nat) : Word :=
  if i < a.cells.length then
    let c := cellAt a.cells i
    statWord [(c.v.toNat, 16), (c.out % 8, 13), (c.prev.toNat, 11), (flag c.hot, 10), (flag c.fb, 9),
      (flag (a.pulsing == some i), 8), (min c.age 255, 0)]
  else 0

/-- AE_CELL_SW (R245). -/
def Ae.cellSw (a : Ae) (i : Nat) : Word :=
  if i < a.cells.length then
    let c := cellAt a.cells i
    statWord [(min c.dwell 255, 24), (c.cdly % 256, 16), (min c.chgLast 0xFFFF, 0)]
  else 0

/-- The registers of an arm engine (R245). -/
def State.viewAe (s : State) (n off : Nat) : Option Word :=
  let a := s.ae n
  let i := s.field (Reg.AE_CELL_IDX n) 0 10
  match off with
  | 0x00 => some (s.aeStat n)
  | 0x08 => some a.lamLast
  | 0x0C => some (statWord [(a.nLast % 2048, 16), (a.pool, 0)])
  | 0x10 => some (statWord [(outAll a.cells, 16), (outFb a.cells, 0)])
  | 0x14 => some (statWord [(a.par.redAll, 16), (a.par.redFb, 0)])
  | 0x18 => some (statWord [(a.bEff, 16), (a.band, 0)])
  | 0x1C => some (statWord [(a.par.bMax, 16), (a.par.bMin, 0)])
  | 0x20 => some (statWord [(a.par.bInit, 16), (a.par.bStep, 4), (a.par.hyst, 0)])
  | 0x24 => some (statWord [(a.par.swTgt, 16), (a.par.wSw - 1, 0)])
  | 0x2C => some (statWord [(a.par.spreadLim, 16), (min a.spread 0xFFFF, 0)])
  | 0x30 => some (statWord [(a.par.staleLim, 16), (a.par.swapMax, 8), (a.par.dwellMin, 0)])
  | 0x34 => some (statWord [(a.par.minPulse, 16), (if s.tb.run then wMaxOf a.par a.dMin a.dMax s.per else 0, 0)])
  | 0x38 => some (statWord [(a.dMax, 8), (a.dMin, 0)])
  | 0x3C => some (BitVec.ofNat 32 a.par.hotRelease)
  | 0x40 => some a.par.iDead
  | 0x64 => some (a.cellInfo i)
  | 0x68 => some (a.cellSw i)
  | _ => none

/-- LE_FP_STAT (R315). DEDUCED: log entry 122. -/
def State.fpStat (s : State) : Word :=
  let oc := (List.range 12).foldl (fun w i => w ||| bitIf ((s.src (176 + i)).inFault) (16 + i)) (0 : Word)
  let uv := (List.range 4).foldl (fun w i => w ||| bitIf ((s.src 188).inFault) (8 + i)) (0 : Word)
  let any := (List.range 13).any fun i => (s.src (176 + i)).inFault
  oc ||| uv ||| bitIf any 0

/-- The code of an injector state (R306, R315). -/
def InjSt.code (x : InjSt) : Nat :=
  match x with
  | .idle => 0 | .settling => 1 | .measuring => 2 | .done => 3 | .aborted => 4 | .refused => 5

/-- The slot LE_SLOT_IDX names, as at the last boundary (R314). DEDUCED: log entry 46. -/
def State.shownSlot (s : State) (e : Nat) : Slot :=
  Sparse.get (fun _ => {}) (s.le e).shown (s.field (Reg.LE_SLOT_IDX e) 0 13)

/-- The registers of a loop engine, and of the loop island in the window of LE0 (R314, R315). -/
def State.viewLe (s : State) (e off : Nat) : Option Word :=
  let inj := s.isl.inj
  let x := inj.ent (s.field Reg.LE_INJ_FIDX 0 6)
  let valid := fun (base : Nat) => (List.range 32).foldl (fun w i => w ||| bitIf (inj.ent (base + i)).valid i) (0 : Word)
  let n := (s.sec.cueList e).length
  if off = 0 then some ((s.rd (Reg.LE_STAT e) &&& ~~~ 2) ||| bitIf (decide (0 < n)) 1)
  else if off = 0x1C then some (putField (fieldOf (s.rd (Reg.LE_CUE_CNT e)) 16 16) 16 ||| BitVec.ofNat 32 n)
  else if off = 0x24 then some (s.shownSlot e).v
  else if off = 0x28 then
    let w := s.shownSlot e
    some (bitIf (!pairOk w.v w.c) 1 ||| bitIf w.held 0)
  else if e ≠ 0 then none
  else match off with
    | 0x104 => some s.fpStat
    | 0x208 => some ((s.rd Reg.LE_MEAS_LOST &&& 0xFF) ||| bitIf (!s.isl.lost.isEmpty) 31)
    | 0x384 => some (statWord [(s.isl.profMoving.toNat, 16), (s.isl.profArrived.toNat, 0)])
    | 0x404 => some (statWord [(((List.range 64).filter fun i => (inj.ent i).complete).length, 24), (if inj.refusedRun then 5 else inj.st.code, 0)])
    | 0x430 => some (Sparse.get (fun _ => 0) inj.freqs (s.field Reg.LE_INJ_FIDX 0 6))
    | 0x434 => some x.gain
    | 0x438 => some x.phase
    | 0x43C => some x.amag
    | 0x440 => some (valid 0)
    | 0x444 => some (valid 32)
    | _ =>
      match arrayAt off 0x340 4 16, arrayAt off 0x3C0 4 16 with
      | some c, _ => some (BitVec.ofNat 32 ((s.isl.eddyCh.getD c {}).nb))
      | _, some c => some (Sparse.get (fun _ => 0) s.isl.profX c)
      | _, _ => none

/-- The registers of the schedule contract (R367). -/
def State.viewSch (s : State) (off : Nat) : Option Word :=
  match off with
  | 0x00 => some s.schStat
  | 0x10 => some (if s.drf.pendAt.isSome then ((s.drf.set.sch.map SchSection.id).getD 0) else 0)
  | 0x94 =>
    let i := s.field Reg.SCH_XING_IDX 0 10
    let x := s.xing i
    some (if i < s.sec.xings.length then
      statWord [(x.src, 24), (x.dst, 16), (min (Sparse.get (fun _ => 0) s.sch.xingMax i) 255, 8), (x.decl, 0)] else 0)
  | _ => none

/-- FLT_SRC_CLASS[n] (R418). -/
def FltEntry.word (e : FltEntry) : Word :=
  statWord [(e.recLim, 24), (e.n, 16), (e.squall.toNat, 2), (e.base.toNat, 0)]

/-- The code of a source state (R418). -/
def SrcSt.code (x : SrcSt) : Nat :=
  match x with
  | .quiet => 0 | .active => 1 | .locked => 2

/-- FLT_SRC_STATE[n] (R418). -/
def Src.word (x : Src) (n : Nat) : Word :=
  statWord [(x.recCnt, 24), (x.winCnt, 16), (flag x.promoted, 4), (x.cls n, 2), (x.state.code, 0)]

/-- The registers of the fault collector (R418). -/
def State.viewFlt (s : State) (off : Nat) : Option Word :=
  if off = 0x00 then some s.fltStat
  else if off = 0x08 then some s.fltReact
  else match arrayAt off 0x120 4 8, arrayAt off 0x140 4 8, arrayAt off 0x160 4 8, arrayAt off 0x1A0 4 8 with
    | some m, _, _, _ => some (s.srcMask m Src.injected)
    | _, some m, _, _ => some (s.srcMask m Src.inFault)
    | _, _, some m, _ => some (s.srcMask m fun x => x.state == .locked)
    | _, _, _, some m => some (s.srcMask m Src.promoted)
    | _, _, _, _ =>
      match arrayAt off 0x400 4 256, arrayAt off 0x800 4 256, arrayAt off 0xC00 4 256, arrayAt off 0x1000 4 256 with
      | some n, _, _, _ => some (s.src n).entry.word
      | _, some n, _, _ => some (s.src n).entry.win
      | _, _, some n, _ => some (s.src n).entry.lull
      | _, _, _, some n => some ((s.src n).word n)
      | _, _, _, _ => none

/-- An area of the recorder: capacity, slot of the oldest record held, number held and PC of the oldest, as they are
shown in STOPPED (R466). -/
def State.gstArea (s : State) (cap : Nat) : Nat × Nat × BitVec 32 :=
  let n := min cap s.gst.hist.length
  match s.gst.hist[n - 1]? with
  | some r => if n = 0 then (0, 0, 0) else (r.idx % cap, n, r.pc)
  | none => (0, 0, 0)

/-- HEAD, CNT and FIRST_PC are stated for STOPPED alone; in ARMED and TRIGGERED they are left open. -/
def State.gstShown (s : State) (off : Nat) (v : Word) : Word :=
  match s.gst.st with
  | .idle => 0
  | .stopped => v
  | .armed | .triggered => Config.openReg (0x20050000 + off) s.free

/-- The registers of the recorder (R467). In IDLE no record is described. -/
def State.viewGst (s : State) (off : Nat) : Option Word :=
  let kept := s.gst.st != .idle
  let on := kept && traceSizeOk s.gstTraceSize
  let pl := s.gstArea s.gst.plCap
  let tr := s.gstArea s.gst.trCap
  match off with
  | 0x00 => some s.gstStat
  | 0x30 => some (BitVec.ofNat 32 (if on then s.gst.plCap else 0))
  | 0x34 => some (BitVec.ofNat 32 (if kept then s.gst.plSize else 0))
  | 0x38 => some (s.gstShown off (BitVec.ofNat 32 pl.1))
  | 0x3C => some (s.gstShown off (BitVec.ofNat 32 pl.2.1))
  | 0x40 => some (s.gstShown off pl.2.2)
  | 0x44 => some (BitVec.ofNat 32 (if on then s.gst.trCap else 0))
  | 0x48 => some (s.gstShown off (BitVec.ofNat 32 tr.1))
  | 0x4C => some (s.gstShown off (BitVec.ofNat 32 tr.2.1))
  | 0x50 => some (s.gstShown off tr.2.2)
  | _ => none

/-- The registers of the twin (R472, R515). -/
def State.viewTwn (s : State) (off : Nat) : Option Word :=
  match off with
  | 0x00 => some s.twnStat
  | 0x40 => some (statWord [(s.field Reg.TWN_WIT 0 10, 0), (min s.hubCount 1023, 16)])
  | 0x34 => some (match s.ckptAge with | some t => BitVec.ofNat 32 (min (t / 200) 0xFFFFFFFF) | none => 0xFFFFFFFF)
  | _ => if 0x800 ≤ off then s.viewLane 12 (off - 0x800) else none

/-- RESULT of SYS_BOOT: a module whose lease state is FAILED shows 0x22 (R547, R577). -/
def State.bootResult (s : State) : Nat := if s.twn.lease = .failed ∧ (s.sys.stage = 4 ∨ s.sys.stage = 5) then 0x22 else s.sys.result

/-- The registers of the system block (R577, R578). -/
def State.viewSys (s : State) (off : Nat) : Option Word :=
  match off with
  | 0x04 => some (statWord [(s.bootResult, 24), (s.sys.stage, 16), (flag s.sys.sigChecked, 9), (flag s.sys.imageB, 8)])
  | 0x10 => some (s.sys.pdOn.setWidth 32)
  | 0x14 => some s.pdStat
  | 0x1C => some s.pwrStat
  | _ => none

/-- The registers of the config key (R579). -/
def State.viewKey (s : State) (off : Nat) : Option Word :=
  let pm := s.key.pmNew.getD (0, 0)
  match off with
  | 0x00 => some (statWord [(flag s.key.cmd.isSome, 7), (flag s.key.foreign, 6), (flag s.key.present, 5), (flag s.flt.factory, 2)])
  | 0x28 => some (statWord [(pm.1.toNat % 0x10000, 16), (pm.2 % 16, 8), (s.key.pmCount, 0)])
  | 0x30 => some (s.lifeNow.getD (s.field Reg.KEY_LIFE_IDX 0 4) 0)
  | _ => none

/-- The registers of the Draft (R581). -/
def State.viewDrf (s : State) (off : Nat) : Option Word :=
  match off with
  | 0x00 => some (statWord [(flag (s.drf.st == .checking), 8), (s.drf.st.code, 0)])
  | 0x20 => some (BitVec.ofNat 32 (s.drf.staged.foldl (fun w e => if 1 ≤ e.1 ∧ e.1 ≤ 9 ∧ e.2.isSome then w + 2 ^ e.1 else w) 0))
  | 0x24 => some (s.drf.pendAt.getD 0)
  | _ => none

/-- NET_STAT (R626). -/
def State.netStat (s : State) : Word :=
  let x := s.net
  statWord [(flag x.expired, 7), (flag x.locked, 6), (x.path.toNat, 4), (flag s.prpMode, 3), (flag (x.link.getLsbD 2), 2),
    (flag (x.link.getLsbD 1), 1), (flag (x.link.getLsbD 0), 0)]

/-- NET_ORD_STAT (R616 to R618, R626). -/
def State.ordStat (s : State) : Word :=
  let x := s.net
  let f := fun (m : OrdMsg) => [(m.command.toNat, 24), (m.entries.length, 16), (flag m.late, 2)]
  statWord ([(flag x.held.isSome, 3), (flag x.back.isSome, 1), (flag x.front.isSome, 0)] ++ (x.front.map f).getD [])

/-- The head of a transmit timestamp queue (R601, R626). -/
def State.txtsHead (s : State) (p : Nat) : Word :=
  match Sparse.get (fun _ => []) s.net.txts p with
  | e :: _ => bitIf true 31 ||| statWord [(e.1.toNat, 16), (e.2.1.toNat, 0)]
  | [] => 0

/-- The registers of the station network (R626). -/
def State.viewNet (s : State) (off : Nat) : Option Word :=
  let ent := fun (i : Nat) => match s.net.front with | some m => m.entries[i]? | none => none
  match off with
  | 0x00 => some s.netStat
  | 0x08 => some (loWord s.net.count)
  | 0x4C => some (s.txtsHead 0)
  | 0x6C => some (s.txtsHead 1)
  | 0x200 => some s.ordStat
  | 0x204 => some ((s.net.front.map OrdMsg.seq).getD 0)
  | 0x300 => some s.net.statNext
  | _ =>
    match arrayAt off 0x240 8 32, arrayAt off 0x244 8 32 with
    | some i, _ => some (match ent i with | some e => statWord [(e.1.toNat, 8), (e.2.1.toNat % 32, 0)] | none => 0)
    | _, some i => some (match ent i with | some e => e.2.2 | none => 0)
    | _, _ => none

/-- DSP_CTX_INFO (R675). -/
def Thr.word (x : Thr) : Word :=
  let last := match x.last with | some c => [(1, 15), (c.val, 12)] | none => []
  statWord ([(x.st.code, 30), (x.prio.toNat, 24), (x.affinity.toNat, 16)] ++ last)

/-- DSP_STAT (R675). -/
def State.dspStat (s : State) : Word :=
  let ready := (s.dsp.thrs.filter fun e => e.2.st == .ready).length
  let next := flagNat ((List.range 8).map fun c => s.bitOf (Reg.DSP_NEXT c) 31)
  statWord [(ready, 24), (next, 16), (flag s.tracing, 1), (flag (s.bitOf Reg.DSP_WDOG_CFG 16), 0)]

/-- DSP_WDOG_CNT: the expiries, and what remains of the count in units of 100 µs (R636). -/
def State.wdogCnt (s : State) : Word :=
  let left := if s.bitOf Reg.DSP_WDOG_CFG 16 then min ((s.dsp.wdogDue - s.sys.up + 19999) / 20000) 0xFFFF else 0
  statWord [(s.field Reg.DSP_WDOG_CNT 16 16, 16), (left, 0)]

/-- Pending sources of one half of the controller. -/
def State.plicPend (s : State) (base : Nat) : Word :=
  (List.range 32).foldl (fun w i => w ||| bitIf (decide (1 ≤ base + i) && s.irqPending (base + i)) i) 0

/-- The registers of the dispatcher and the interrupt controller (R635, R675). PLIC_CLAIM is read by its own command. -/
def State.viewDsp (s : State) (off : Nat) : Option Word :=
  match off with
  | 0x00 => some s.dspStat
  | 0x30 => some s.wdogCnt
  | 0x64 => some (s.thr (BitVec.ofNat 7 (s.field Reg.DSP_CTX_IDX 0 7))).word
  | 0x360 => some (loWord s.tb.vt)
  | 0x8100 => some (s.plicPend 0)
  | 0x8104 => some (s.plicPend 32)
  | _ => (arrayAt off 0x8404 0x10 8).map fun c => BitVec.ofNat 32 (s.irqBest c)

/-- The registers of the DMA engine (R676). -/
def State.viewDma (s : State) (off : Nat) : Option Word :=
  if off = 0 then some (BitVec.ofNat 32 (flagNat ((List.range 16).map fun n => (s.dmaCh n).st != .idle)))
  else (arrayAt off 0x104 0x20 16).map fun n =>
    (s.rd (Reg.DMA_CH_STAT n) &&& ~~~ (0x30000 : Word)) ||| putField (s.dmaCh n).st.code 16

/-- The registers of the memory arbiters (R677). -/
def State.viewMem (s : State) (off : Nat) : Option Word :=
  if off = 0 then some (statWord [(flag (s.mem.recent != 0), 1), (flag s.mem.weighted, 0)]) else none

/-- The registers of the field-I/O block (R742). -/
def State.viewFio (s : State) (off : Nat) : Option Word :=
  if off = 0 then
    some (statWord [(flag s.iso.heldOff, 7), (flag s.iso.low, 6), (flag s.iso.stale, 5), (flag s.iso.up, 4),
      (flagNat ((List.range 4).map s.fioMode), 0)])
  else none

/-- The registers of the converter (R779). -/
def State.viewAdc (s : State) (off : Nat) : Option Word :=
  let left := (List.range (s.field Reg.ADC_CTL 16 4 + 1)).find? fun i => !s.adc.done.getLsbD i
  if off = 0 then
    some (statWord [(flag s.adc.calValid, 9), (flag s.adcFine, 8), (flag s.adc.jbusy, 7), (flag s.adc.cal, 6), (flag s.adc.run, 5),
      (if s.adc.run then left.getD 0 else 0, 0)])
  else none

/-- The registers of the shaft channels (R781). -/
def State.viewShf (s : State) (off : Nat) : Option Word :=
  let x := s.shf (off / 0x100)
  if off < 0x200 ∧ off % 0x100 = 0x04 then
    some (statWord [(flag (x.ssi != .idle), 7), (flag x.ref, 6), (flag x.z, 5), (flag x.b, 4), (flag x.a, 3),
      (flag (x.dir == some true), 2)])
  else none

/-- Ticks to the next reload of a channel that cycles (PWM_CH_STAT). -/
def State.pwmChStat (s : State) (n : Nat) : Word :=
  let c := s.pwmCh n
  statWord [(if c.run then ahead s.tb.vt c.next % 0x1000000 else 0, 8), (flag (c.run && c.armed), 2), (flag (s.pwmLit n), 1),
    (flag c.run, 0)]

/-- The registers of the chopper outputs (R801). -/
def State.viewPwm (s : State) (off : Nat) : Option Word :=
  match off with
  | 0x00 => some (statWord [(flagNat ((List.range 16).map fun n => (s.pwmCh n).pend.isSome), 16),
      (flagNat ((List.range 16).map s.pwmLit), 0)])
  | 0x20 => some (statWord [(flag s.pwm.trip, 1), (flag s.pwmFw, 0)])
  | _ => (arrayAt off 0x11C 0x20 16).map s.pwmChStat

/-- The registers of a CAN port (R821). -/
def State.viewCan (s : State) (p off : Nat) : Option Word :=
  let x := s.can p
  match off with
  | 0x04 => some (statWord [(x.recCnt.toNat, 24), (x.tecCnt.toNat, 16), (x.st.code, 0)])
  | 0x1C => some s.canTs
  | _ => none

/-- What a window shows at an offset, where that is formed at the read. DESIGN CHOICE: log entry 94. -/
def State.view (s : State) (b : Blk) (off : Nat) : Option Word :=
  match b with
  | .sys => s.viewSys off
  | .tb => s.viewTb off
  | .sch => s.viewSch off
  | .drf => s.viewDrf off
  | .flt => s.viewFlt off
  | .gst => s.viewGst off
  | .twn => s.viewTwn off
  | .dsp => s.viewDsp off
  | .dma => s.viewDma off
  | .mem => s.viewMem off
  | .net => s.viewNet off
  | .can p => s.viewCan p off
  | .pwm => s.viewPwm off
  | .shf => s.viewShf off
  | .adc => s.viewAdc off
  | .fio => s.viewFio off
  | .saf => none
  | .key => s.viewKey off
  | .port n => if off < 0x100 then s.viewLane n off else s.viewFrame n off
  | .ae n => s.viewAe n off
  | .le n => s.viewLe n off

/-- What a register reads as: zero in an unpowered window, in a hole and from a write-only register, else what its
block shows, else what it holds (R14 to R17, R858). DESIGN CHOICE: log entry 13. -/
def State.readReg (s : State) (a : Nat) : Word :=
  match windowOf a with
  | none => 0
  | some (b, off) =>
    if s.open b = false then 0
    else match b.row off with
      | none => 0
      | some r => if r.acc = .wo then 0 else (s.view b off).getD (s.rd a)

end Sys2Proof.Machine
end

