-- ==== Sys2Proof/Machine/Bus.lean ====
section
/-! DEFINITION. Register accesses: a write by its access code and what it sets going, paired writes, bus errors, and the
latching read of VT (R8 to R17, R24, R25, R630, R631, R633, R857 to R860). -/

namespace Sys2Proof.Machine

/-! ## Paired registers -/

/-- The address of the value half of a paired register. -/
def PairReg.addr (r : PairReg) : Nat :=
  match r with
  | .aeCellCmd n => Reg.AE_CELL_CMD n
  | .leMcorr c => Reg.LE_MCORR c
  | .leOrd i => Reg.LE_ORD i
  | .fltClear => Reg.FLT_CLEAR
  | .fltInj => Reg.FLT_INJ
  | .fltConv => Reg.FLT_CONV
  | .gstCmd => Reg.GST_CMD
  | .twnCmd => Reg.TWN_CMD
  | .keyCmd => Reg.KEY_CMD
  | .drfCmd => Reg.DRF_CMD
  | .wdogKick => Reg.DSP_WDOG_KICK
  | .pwmArmCmd => Reg.PWM_ARM_CMD

/-- The block of a paired register. -/
def PairReg.blk (r : PairReg) : Blk :=
  match r with
  | .aeCellCmd n => .ae n
  | .leMcorr _ | .leOrd _ => .le 0
  | .fltClear | .fltInj | .fltConv => .flt
  | .gstCmd => .gst
  | .twnCmd => .twn
  | .keyCmd => .key
  | .drfCmd => .drf
  | .wdogKick => .dsp
  | .pwmArmCmd => .pwm

/-- Every paired register. -/
def allPairs : List PairReg :=
  [.fltClear, .fltInj, .fltConv, .gstCmd, .twnCmd, .keyCmd, .drfCmd, .wdogKick, .pwmArmCmd] ++
  (List.finRange 12).map .aeCellCmd ++ (List.finRange 192).map .leMcorr ++ (List.finRange 32).map .leOrd

/-- The paired register whose value half lies at an address. -/
def pairRegAt (a : Nat) : Option PairReg := allPairs.find? fun r => r.addr == a

/-- An accepted order or correction factor is listed for the next boundary (R266, R270, R271). -/
def State.noteOrder (s : State) (a : Nat) (v : Word) : State :=
  { s.wrPair a v with isl := { s.isl with ordNew := s.isl.ordNew ++ [(a, (v, ~~~ v), s.now)] } }

/-- 0.98 and 1.02 as the nearest binary32 values (R266). -/
def corrLow : Word := 0x3F7AE148
def corrHigh : Word := 0x3F828F5C

/-- Both halves of a paired register take effect together, and what the new pair sets going happens (R11). -/
def State.pairTakes (s : State) (r : PairReg) (v : Word) : State :=
  match r with
  | .aeCellCmd n => (s.wrPair r.addr v).aeCellCmd n v
  | .leMcorr _ =>
    if fpIsNan v = false ∧ fpLe corrLow v ∧ fpLe v corrHigh then s.noteOrder r.addr v else s.setBit Reg.LE_ISL_EVT 2
  | .leOrd _ => if fpSpecial v = false then s.noteOrder r.addr v else s.setBit Reg.LE_ISL_EVT 3
  | .fltClear => (s.wrPair r.addr v).fltClear v
  | .fltInj => (s.wrPair r.addr v).fltInj v
  | .fltConv => (s.wrPair r.addr v).fltConv v
  | .gstCmd => (s.wrPair r.addr v).gstCmd v
  | .twnCmd => (s.wrPair r.addr v).twnCmd v
  | .keyCmd => (s.wrPair r.addr v).keyCmd v
  | .drfCmd => (s.wrPair r.addr v).drfCmd v
  | .wdogKick => (s.wrPair r.addr v).wdogKick
  | .pwmArmCmd => s.pwmArm v

/-- The value held for a paired register (R10). -/
def State.heldAt (s : State) (a : Nat) : Option Word := Sparse.get (fun _ => none) s.held a

/-- The value held for a paired register changes. -/
def State.setHeld (s : State) (a : Nat) (v : Option Word) : State :=
  { s with held := Sparse.put (fun _ => none) s.held a v }

/-- A paired write is refused (R11, R13). -/
def State.pairRefuse (s : State) (b : Blk) : State :=
  match b.pairRefused with
  | some (a, i) => s.setBit a i
  | none => s

/-- A write to the value half is held, in place of a value held before (R10, R12). -/
def State.pairValue (s : State) (r : PairReg) (v : Word) : State := s.setHeld r.addr (some v)

/-- A write to the complement half (R11, R13). Reserved bits of the value do not count. DEDUCED: log entry 20. -/
def State.pairComplement (s : State) (r : PairReg) (c : Word) : State :=
  match s.heldAt r.addr with
  | none => s.pairRefuse r.blk
  | some v =>
    let s1 := s.setHeld r.addr none
    if c = ~~~ v then s1.pairTakes r (v &&& ((rowAt r.addr).map RegRow.wmask).getD 0) else s1.pairRefuse r.blk

/-- PAIRED_VALUE_WRITE (R10, R12, R858). -/
def execPairedValueWrite (r : PairReg) (v : Word) (s : State) : Res := s.via r.blk fun t => t.pairValue r v

/-- PAIRED_COMPLEMENT_WRITE (R11, R13, R858). -/
def execPairedComplementWrite (r : PairReg) (c : Word) (s : State) : Res := s.via r.blk fun t => t.pairComplement r c

/-! ## Writes by window -/

/-- A write to LE_INJ_CTL: STOP, then the mode and the point where no run is active, then START (R306, R307, R310). -/
def State.injCtl (s : State) (v : Word) : State :=
  let s1 := if v.getLsbD 2 then s.injStop else s
  let s2 := if s1.isl.inj.active then s1 else s1.wr Reg.LE_INJ_CTL (v &&& 0x31F00)
  if v.getLsbD 1 then s2.injStart else s2

/-- A write to a register of the loop island's window (R258, R299, R307). -/
def State.leWrite (s : State) (e off a : Nat) (v : Word) : State :=
  if e = 0 ∧ off = 0x304 then s.eddyClear (v.setWidth 16)
  else if e = 0 ∧ off = 0x400 then s.injCtl v
  else if e = 0 ∧ 0x408 ≤ off ∧ off ≤ 0x428 then (if s.isl.inj.active then s else s.wr a v)
  else if e = 0 ∧ off = 0x430 then
    if s.isl.inj.active then s
    else
      let i := s.field Reg.LE_INJ_FIDX 0 6
      { s with isl := { s.isl with inj := { s.isl.inj with freqs := Sparse.put (fun _ => 0) s.isl.inj.freqs i v } } }
  else if off = 0x18 then (if v.getLsbD 0 then s.leCntClr e else s)
  else s.wr a v

/-- A write to the recorder's configuration: ignored while it captures, and a reserved code is refused (R451, R454, R458). -/
def State.gstWrite (s : State) (off a : Nat) (v : Word) : State :=
  if off = 0x64 then (if v.getLsbD 0 then s.gstCntClr else s)
  else if s.gst.captures ∨ gstCodeBad off v then s.setBit Reg.GST_EVT 4
  else s.wr a v

/-- A write to an arm port's window (R109, R111, R190, R191, R249). -/
def State.portWrite (s : State) (n off a : Nat) (v : Word) : State :=
  match off with
  | 0x000 => s.laneCtl n v
  | 0x030 => if v.getLsbD 0 then s.laneCntClr n else s
  | 0x11C => if v.getLsbD 0 then s.frmCntClr n else s
  | 0x140 => s.ctlReq n v
  | 0x214 => if v.getLsbD 0 then s.wr (Reg.PRT_AUD_FAIL n) 0 else s
  | _ => s.wr a v

/-- A write to the twin's window, with the lane registers of X13 (R111, R515). -/
def State.twnWrite (s : State) (off a : Nat) (v : Word) : State :=
  match off with
  | 0x054 => if v.getLsbD 0 then s.wr Reg.TWN_CKPT_CNT 0 else s
  | 0x800 => s.laneCtl 12 v
  | 0x830 => if v.getLsbD 0 then s.laneCntClr 12 else s
  | _ => s.wr a v

/-- A write to the system block (R577, R578). -/
def State.sysWrite (s : State) (off a : Nat) (v : Word) : State :=
  match off with
  | 0x10 => s.pdCtl v
  | 0x40 => s.wr a (BitVec.ofNat 32 (min v.toNat 1768960))
  | _ => s.wr a v

/-- A write to the network block (R593 to R598, R604, R618, R626). -/
def State.netWrite (s : State) (off a : Nat) (v : Word) : State :=
  match off with
  | 0x010 => s.ntAdj v
  | 0x018 => s.ntStepBy v
  | 0x01C => s.ntOffset v
  | 0x020 => if v.getLsbD 0 then s.netLatchNow else s
  | 0x208 => if v.getLsbD 0 then s.ordRel else s
  | 0x388 => if v.getLsbD 0 then s.netCntClr else s
  | _ =>
    match (List.range 9).find? fun i => off == 0x10C + 0x40 * (i / 3) + 0x10 * (i % 3) with
    | some i => s.ringTailWrite (i / 3) (i % 3) (v.toNat % 1024)
    | none => s.wr a v

/-- A write to the supervisor's window (R634 to R636, R640, R644, R651). -/
def State.dspWrite (s : State) (off a : Nat) (v : Word) : State :=
  if off = 0x20 then s.wdogCfg v
  else if off = 0x4C then s.setField Reg.DSP_TR_PTR 0 16 (v.toNat % 0x10000)
  else match arrayAt off 0x100 0x10 8, arrayAt off 0x340 4 8, arrayAt off 0x8404 0x10 8 with
    | some c, _, _ => s.dspCmd c v
    | _, some c, _ => s.msipWrite c v
    | _, _, some c => s.plicComplete c v
    | _, _, _ => s.wr a v

/-- A write to the DMA engine: a channel that STOP reaches is STOPPING until its move has ended, and a fetch is answered (R653,
R661). -/
def State.dmaWrite (s : State) (off a : Nat) (v : Word) : State :=
  match arrayAt off 0x100 0x20 16 with
  | some n => s.dmaCtl n v
  | none => s.wr a v

/-- A write to the memory arbiters (R671, R677). -/
def State.memWrite (s : State) (off a : Nat) (v : Word) : State :=
  match off with
  | 0x08 => s.memMode v
  | 0x0C => if v.getLsbD 0 then s.memGrantClr else s
  | _ => s.wr a v

/-- A write to the field-I/O block (R727, R736, R742). -/
def State.fioWrite (s : State) (off a : Nat) (v : Word) : State :=
  match off with
  | 0x10 => s.fioOut v
  | 0x20 => if v.getLsbD 0 then s.fioResume else s
  | 0x24 => s.fioOvlClr (v.setWidth 16)
  | 0x34 => if v.getLsbD 0 then s.fioCntClr else s
  | _ => s.wr a v

/-- A write to the converter (R753 to R757, R764, R780). -/
def State.adcWrite (s : State) (off a : Nat) (v : Word) : State :=
  if off = 0x08 then s.adcCtl v
  else if off = 0x0C then s.adcJctl v
  else match arrayAt off 0x40 4 16, arrayAt off 0x80 4 4, arrayAt off 0xA0 4 4, arrayAt off 0xB0 4 4 with
    | some _, _, _, _ => s.adcSeqWrite a v false
    | _, some _, _, _ => s.adcSeqWrite a v true
    | _, _, some m, _ => s.adcFactor m false v
    | _, _, _, some m => s.adcFactor m true v
    | _, _, _, _ => s.wr a v

/-- A write to a shaft channel (R766, R773, R778, R781, R782). -/
def State.shfWrite (s : State) (off a : Nat) (v : Word) : State :=
  let ch := off / 0x100
  if 0x200 ≤ off then s.wr a v
  else match off % 0x100 with
    | 0x00 => s.shfCfgWrite ch v
    | 0x0C => s.shfCntWrite ch v
    | 0x28 => s.absCfgWrite ch false v
    | 0x2C => s.absCfgWrite ch true v
    | 0x30 => if v.getLsbD 0 then s.ssiReq ch else s
    | 0x3C => if v.getLsbD 0 then s.shfCntClr ch else s
    | _ => s.wr a v

/-- A write to the chopper outputs (R786 to R788, R792, R800, R801). -/
def State.pwmWrite (s : State) (off a : Nat) (v : Word) : State :=
  if off = 0x08 then s.pwmCtl v
  else if off = 0x10 then s.pwmEnWrite (v.setWidth 16)
  else if off = 0x14 then s.pwmChopWrite (v.setWidth 16)
  else match arrayAt off 0x110 0x20 16, arrayAt off 0x114 0x20 16, arrayAt off 0x118 0x20 16 with
    | some n, _, _ => s.pwmMinOffWrite n (v.setWidth 16)
    | _, some n, _ => s.pwmArmPair n false v
    | _, _, some n => s.pwmArmPair n true v
    | _, _, _ => s.wr a v

/-- A write to a CAN port: no frame of an aborted buffer is on the bus (R804, R805, R809, R812). -/
def State.canWrite (s : State) (p off a : Nat) (v : Word) : State :=
  match off with
  | 0x00 => s.canCtl p v
  | 0x10 => s.canTiming p .nominal v
  | 0x14 => s.canTiming p .data v
  | 0x18 => s.canTiming p .delay v
  | 0x20 => s.canReqs p (v.setWidth 64)
  | 0x24 => s.canReqs p (v.setWidth 64 <<< 32)
  | 0x28 => s.canAborts p (v.setWidth 64) none
  | 0x2C => s.canAborts p (v.setWidth 64 <<< 32) none
  | 0x50 => if v.getLsbD 0 then s.canCntClr p else s
  | _ => if 0x1000 ≤ off ∧ (off - 0x1000) % 0x60 ≠ 8 then s.canBufWrite p ((off - 0x1000) / 0x60) a v else s.wr a v

/-- A write to a register that is not read-only, not paired and not cleared by ones, with its reserved bits masked. -/
def State.blkWrite (s : State) (b : Blk) (off a : Nat) (v : Word) : State :=
  match b with
  | .sys => s.sysWrite off a v
  | .sch => if off = 0x34 then (if v.getLsbD 0 then s.schCntClr else s) else s.wr a v
  | .flt => if off = 0x24 then (if v.getLsbD 0 then s.fltCntClr else s) else s.wr a v
  | .gst => s.gstWrite off a v
  | .twn => s.twnWrite off a v
  | .dsp => s.dspWrite off a v
  | .dma => s.dmaWrite off a v
  | .mem => s.memWrite off a v
  | .net => s.netWrite off a v
  | .can p => s.canWrite p off a v
  | .pwm => s.pwmWrite off a v
  | .shf => s.shfWrite off a v
  | .adc => s.adcWrite off a v
  | .fio => s.fioWrite off a v
  | .saf => if off = 0x24 then (if v.getLsbD 0 then s.safCntClr else s) else s.wr a v
  | .port n => s.portWrite n off a v
  | .ae n => if off = 0x58 then (if v.getLsbD 0 then s.aeCntClr n else s) else s.wr a v
  | .le e => s.leWrite e off a v
  | .tb | .drf | .key => s.wr a v

/-- What a write of ones leaves set beside the bits it does not name: in the windows with a same-tick rule, the bits that
hardware has set in this very tick (R116, R193, R250, R316, R368, R419, R468, R516, R582, R627, R678, R744, R783,
R822). -/
def State.staysSet (s : State) (b : Blk) (a : Nat) : Word := if b = .tb then 0 else s.setNow a

/-- A write to a register, by its access code (R15); a hole ignores it (R17). -/
def State.regWrite (s : State) (b : Blk) (off a : Nat) (v : Word) : State :=
  match b.row off with
  | none => s
  | some r =>
    match r.acc with
    | .ro => s
    | .w1c => s.wr a (s.rd a &&& ~~~ (v &&& r.wmask &&& ~~~ s.staysSet b a))
    | .prv => match pairRegAt a with | some p => s.pairValue p v | none => s
    | .prc => match pairRegAt (a - 4) with | some p => s.pairComplement p v | none => s
    | .rw | .wo | .w1s => s.blkWrite b off a (v &&& r.wmask)

/-! ## Bus errors -/

/-- Capture memory (R857). -/
def inCaptureMem (a : Nat) : Bool := decide (0x400000000 ≤ a ∧ a < 0x600000000)
/-- Boot ROM (R857). -/
def inRom (a : Nat) : Bool := decide (a < 0x40000)

/-- An access ends in a bus error to its initiator: a core takes the matching access fault exception, and FS16 is raised;
an LR, SC or AMO to a window or to capture memory takes the exception alone (R17, R631, R633). -/
def State.busFault (s : State) (w : Initiator) (k : AccKind) (a : Nat) : State :=
  match w with
  | .other => { s with bus := { s.bus with err := true } }
  | .core c =>
    let s1 := s.coreFault c k
    if k.isAtomic ∧ ((windowOf a).isSome ∨ inCaptureMem a) then s1
    else ({ s1 with bus := { s1.bus with err := true } }).raise 16

/-- May an access of this kind end in a bus error where it lies? In a window every one that is no aligned 32-bit load
or store; in the boot ROM an LR, SC or AMO; in DRAM channel B any while PD8 is off; in capture memory any but a load
while it is readable; outside the map any (R17, R465, R630, R631, R857). DEDUCED: log entry 128. -/
def State.accessFails (s : State) (k : AccKind) (a : Nat) : Bool :=
  if (windowOf a).isSome then true
  else if inRom a then k.isAtomic
  else if inSram a then false
  else if inDramB a then !s.powered 8
  else if inCaptureMem a then k != .load || !s.gstReadable
  else true

/-- BUS_ERROR: an access of an initiator ends in a bus error, where it lies so that it may (R17, R465, R630, R631, R633). -/
def execBusError (w : Initiator) (k : AccKind) (a : BitVec 64) (s : State) : Res :=
  s.via .dsp fun t => if t.accessFails k a.toNat then t.busFault w k a.toNat else t

/-- The bytes of a write. -/
def BusVal.bytes (v : BusVal) : List Byte :=
  match v with
  | .byte x => [x]
  | .half x => natBytes 2 x.toNat
  | .word x => wordBytes x
  | .dword x => natBytes 8 x.toNat

/-- REGISTER_WRITE: a write over the bus: of 32 bits to a register by its access code, of any width to a memory as its bytes; an
access to a window that is unaligned or of another width, capture memory and every address outside the map end in a bus error
(R15 to R18, R465, R630, R631, R857, R858, R860). DESIGN CHOICE: log entry 7. DEDUCED: log entry 12. -/
def execRegisterWrite (w : Initiator) (a : BitVec 64) (v : BusVal) (s : State) : Res :=
  let n := a.toNat
  let ok := { s with bus := { s.bus with err := false } }
  match windowOf n, v with
  | some (b, off), .word x =>
    if n % 4 ≠ 0 then .next (s.busFault w .store n)
    else .next (if s.open b then ok.regWrite b off n x else ok)
  | some _, _ => .next (s.busFault w .store n)
  | none, v =>
    if inSram n ∨ inDramB n then .next (ok.busWrite n v.bytes)
    else if inRom n then .next ok
    else .next (s.busFault w .store n)

/-! ## The latching read -/

/-- TB_VT_LO_READ: a read of TB_VT_LO, or of DSP_MTIME_LO, which latches the upper half of the same value (R24, R25,
R635, R675). -/
def execTbVtLoRead (mtime : Bool) (s : State) : Res :=
  if s.powered 1 then
    .next { s.wr (if mtime then Reg.DSP_MTIME_HI else Reg.TB_VT_HI) (hiWord s.tb.vt) with
      bus := { data := loWord s.tb.vt, err := false } }
  else .next { s with bus := {} }

end Sys2Proof.Machine
end

