-- ==== Sys2Proof/Machine/CanCmds.lean ====
section
/-! DEFINITION. Commands of the CAN FD ports (R802 to R822). -/

namespace Sys2Proof.Machine

/-- A port takes part in the bus (R805). -/
def Can.live (x : Can) : Bool := x.st == .active || x.st == .passive

/-- CAN_FRAME_RECEIVE: a frame has been received without error, stamped at its start (R806, R819, R820). With internal
loop-back nothing from the bus is received, and a port without FD_EN receives no FD frame. -/
def execCanFrameReceive (p : Fin 2) (f : CanFrame) (ts : BitVec 32) (s : State) : Res :=
  if s.open (.can p) = false ∨ (s.can p).live = false ∨ s.canLoop p = 1 ∨ (f.fdf ∧ s.bitOf (Reg.CAN_CTL p) 1 = false)
  then .next s
  else .next (s.canFilter p f ts)

/-- CAN_TX_REQ: requests for the buffers of a mask (R809). -/
def execCanTxReq (p : Fin 2) (m : BitVec 64) (s : State) : Res := s.via (.can p) fun t => t.canReqs p m

/-- CAN_TX_ABORT: aborts for the buffers of a mask, while the frame of `cur` is in transmission (R812, R813). -/
def execCanTxAbort (p : Fin 2) (m : BitVec 64) (cur : Option (Fin 64)) (s : State) : Res :=
  s.via (.can p) fun t => t.canAborts p m cur

/-- CAN_FRAME_SENT: the frame of a buffer has completed without error; its stamp is that of its start (R810, R811). -/
def execCanFrameSent (p : Fin 2) (b : Fin 64) (start : BitVec 32) (s : State) : Res :=
  if s.open (.can p) = false ∨ (s.can p).live = false ∨ s.canPend p b = false ∨ s.canWins p b start = false then .next s
  else .next (s.canSent p b start)

/-- CAN_FRAME_FAIL: the frame of a buffer has lost arbitration or met an error (R810, R812). -/
def execCanFrameFail (p : Fin 2) (b : Fin 64) (s : State) : Res :=
  if s.open (.can p) = false ∨ s.canPend p b = false then .next s
  else if s.canAborting p b then .next (s.canDiscard p b 1)
  else if s.bitOf (Reg.CAN_BUF_CFG p b) 28 then .next (s.canDiscard p b 3)
  else .next s

/-- CAN_STATE_CHANGE: the port's error counters reach new values and it enters the protocol state that ISO 11898-1 gives
for them: bus-off when the transmit counter has passed 255 (R805). -/
def execCanStateChange (p : Fin 2) (rec tec : BitVec 8) (busOff : Bool) (s : State) : Res :=
  let x := s.can p
  if s.open (.can p) = false ∨ x.live = false then .next s
  else
    let s1 := s.setCan p { x with recCnt := rec, tecCnt := tec }
    if busOff then .next (s1.canEnter p .busOff)
    else if 127 < rec.toNat ∨ 127 < tec.toNat then .next (if x.st = .passive then s1 else s1.canEnter p .passive)
    else .next (if x.st = .active then s1 else s1.canEnter p .active)

/-- CAN_REC: 1 is written to REC (R815). -/
def execCanRec (p : Fin 2) (s : State) : Res := s.via (.can p) fun t => t.canRec p

/-- CAN_RECOVERED: 128 occurrences of 11 recessive bits have been seen (R815). -/
def execCanRecovered (p : Fin 2) (s : State) : Res :=
  if s.open (.can p) = false ∨ (s.can p).st ≠ .recovering then .next s
  else .next ((s.setCan p { st := .active }).setBit (Reg.CAN_EVT p) 4)

/-- CAN_STALE_TEST: a buffer is tested for staleness (R814, R817). -/
def execCanStaleTest (p : Fin 2) (b : Fin 64) (s : State) : Res :=
  s.via (.can p) fun t => if t.canStale p b then ((t.canDiscard p b 2).setBit (Reg.CAN_EVT p) 5).raise 219 else t

/-- CAN_INIT: INIT is set (R816). -/
def execCanInit (p : Fin 2) (s : State) : Res := s.via (.can p) fun t => if t.canInit p then t else t.canInitSet p

/-- CAN_TIMING_WRITE: a write to a bit-timing register (R803, R804). -/
def execCanTimingWrite (p : Fin 2) (k : CanTiming) (v : BitVec 32) (s : State) : Res :=
  s.via (.can p) fun t => t.canTiming p k v

/-- CAN_CNT_CLR: 1 is written to bit 0 (R821). -/
def execCanCntClr (p : Fin 2) (s : State) : Res := s.via (.can p) fun t => t.canCntClr p

end Sys2Proof.Machine
end

