-- ==== Sys2Proof/Machine/Chopper.lean ====
section
/-! DEFINITION. Commands of the chopper PWM outputs (R784 to R801). -/

namespace Sys2Proof.Machine

/-- LOAD_ALL: 1 is written to LOAD_ALL (R788 to R790). -/
def execLoadAll (s : State) : Res := s.via .pwm State.pwmLoadAll

/-- PWM_RELOAD: a channel reaches its reload tick (R785, R789, R792, R796). -/
def execPwmReload (n : Fin 16) (s : State) : Res :=
  let x := s.pwmCh n
  if s.open .pwm = false ∨ x.run = false then .next s
  else .next ((s.elapse (ahead s.tb.vt x.next)).pwmCycle n x.next)

/-- PWM_OFF_EDGE: the on-time of a channel ends (R785). -/
def execPwmOffEdge (n : Fin 16) (s : State) : Res :=
  let x := s.pwmCh n
  if s.open .pwm = false ∨ x.run = false ∨ x.on = false then .next s
  else .next ((s.elapse (ahead s.tb.vt x.off)).setPwmCh n { x with on := false })

/-- PWM_EN_WRITE: a write to PWM_EN (R786, R791). -/
def execPwmEnWrite (v : BitVec 16) (s : State) : Res := s.via .pwm fun t => t.pwmEnWrite v

/-- PWM_MINOFF_WRITE (R787). -/
def execPwmMinoffWrite (n : Fin 16) (v : BitVec 16) (s : State) : Res := s.via .pwm fun t => t.pwmMinOffWrite n v

/-- CHOPPER_ARM: an accepted paired write of ACTION 01 to PWM_ARM_CMD (R795, R799). -/
def execChopperArm (s : State) : Res := s.via .pwm fun t => t.pwmArm (putField 1 30)

/-- CHOPPER_DISARM: an accepted paired write of ACTION 10 to PWM_ARM_CMD (R799). -/
def execChopperDisarm (s : State) : Res := s.via .pwm fun t => t.pwmArm (putField 2 30)

/-- ARM_PAIR_WRITE: a write to PWM_ARM_PER[n] or PWM_ARM_T[n] (R800). -/
def execArmPairWrite (n : Fin 16) (isT : Bool) (v : BitVec 32) (s : State) : Res := s.via .pwm fun t => t.pwmArmPair n isT v

/-- PWM_CHOP_WRITE (R801). -/
def execPwmChopWrite (v : BitVec 16) (s : State) : Res := s.via .pwm fun t => t.pwmChopWrite v

/-- CLOCK_STOP: no timebase edge has arrived at the PWM generator for 50 ns (R793). -/
def execClockStop (s : State) : Res :=
  s.via .pwm fun t => ({ t with pwm := { t.pwm with stopped := true } }).setBit Reg.PWM_EVT 5

end Sys2Proof.Machine
end

