-- ==== Sys2Proof/Machine/Front.lean ====
section
/-! DEFINITION. Commands of the precision ΣΔ converter and of the shaft interface (R745 to R783). -/

namespace Sys2Proof.Machine

/-- ADC_START (R753, R756, R762). -/
def execAdcStart (s : State) : Res := s.via .adc State.adcStart

/-- ADC_STOP (R756). -/
def execAdcStop (s : State) : Res := s.via .adc State.adcStop

/-- ADC_CAL (R761, R762). -/
def execAdcCal (s : State) : Res := s.via .adc State.adcCal

/-- The factors that a calibration gives a modulator: the mean on the short and GAIN from the mean on the reference; none
where they fail (R761, R763). -/
def calFactors (ofs ref : Word) : Option (Word × Word) :=
  let gain := fpDiv (fpOfInt 8000000) (fpSub ref ofs)
  if fpSpecial ofs ∨ fpSpecial gain ∨ fpInt gain * 10 < 9 * fpUnit ∨ 11 * fpUnit < fpInt gain * 10 ∨ 80000 * fpUnit < fpMag ofs then none
  else some (ofs, gain)

/-- CAL_DONE: the means of the 24 slots on the short and of the 24 on the reference, for each modulator (R761, R763,
R764). -/
def execCalDone (o0 o1 o2 o3 r0 r1 r2 r3 : BitVec 32) (s : State) : Res :=
  if s.open .adc = false ∨ s.adc.cal = false then .next s
  else
    let put := fun (t : State) (e : Nat × Word × Word) =>
      match calFactors e.2.1 e.2.2 with
      | some (o, g) => (t.wr (Reg.ADC_OFS e.1) o).wr (Reg.ADC_GAIN e.1) g
      | none => t.setBit Reg.ADC_EVT 6
    let s1 := [(0, o0, r0), (1, o1, r1), (2, o2, r2), (3, o3, r3)].foldl put s
    .next ({ s1 with adc := { s1.adc with cal := false, calValid := true } }.setBit Reg.ADC_EVT 5)

/-- JGO: 1 is written to JGO (R757). -/
def execJgo (s : State) : Res := s.via .adc State.adcJgo

/-- JAT_MATCH: the low 32 bits of VT reach ADC_JAT (R757). -/
def execJatMatch (s : State) : Res :=
  if s.open .adc = false ∨ s.sys.going = false then .next s
  else
    let s1 := s.elapse ((s.rd Reg.ADC_JAT - s.now.setWidth 32).toNat)
    .next (if s1.adcTrig = 2 then s1.adcTrigger s1.now else s1)

/-- ADC_SLOT_END: a modulator's slot has ended with a raw code, and its result is written 400 ticks later (R748 to R760). -/
def execAdcSlotEnd (m : Fin 4) (raw : BitVec 32) (s : State) : Res :=
  if s.open .adc = false then .next s
  else
    let x := s.adcMod m
    match x.late, x.inj, x.cur with
    | some c, _, _ =>
      let s1 := s.elapse (ahead s.now (c.at_ + BitVec.ofNat 64 (s.adcSlot + 400)))
      .next (s1.adcRegDone m c raw.toInt)
    | none, some c, _ =>
      let s1 := s.elapse (ahead s.now (c.at_ + BitVec.ofNat 64 (s.adcSlot + 400)))
      .next (s1.adcInjDone m c raw.toInt)
    | none, none, some c =>
      let s1 := s.elapse (ahead s.now (c.at_ + BitVec.ofNat 64 (s.adcSlot + 400)))
      .next (s1.adcRegDone m c raw.toInt)
    | none, none, none => .next s

/-- ADC_FACTOR_WRITE: a write to ADC_OFS or ADC_GAIN (R764). -/
def execAdcFactorWrite (m : Fin 4) (gain : Bool) (v : BitVec 32) (s : State) : Res :=
  s.via .adc fun t => t.adcFactor m gain v

/-- ADC_RES_READ: a read of ADC_RES[n], or of ADC_JRES[n mod 4], latches the stamp of its slot's start (R752). -/
def execAdcResRead (inj : Bool) (n : Fin 16) (s : State) : Res :=
  if s.open .adc = false then .next { s with bus := { data := 0, err := false } }
  else
    let j := (n : Nat) % 4
    let a := if inj then Reg.ADC_JRES j else Reg.ADC_RES n
    let at_ := Sparse.get (fun _ => 0) s.adc.starts (if inj then 16 + j else n)
    .next { s.wr Reg.ADC_RES_VT at_ with bus := { data := s.rd a, err := false } }

/-- SHAFT_EDGE: the levels of A, B and Z accepted in one sample (R765 to R776). -/
def execShaftEdge (ch : Fin 2) (a b z : Bool) (s : State) : Res := s.via .shf fun t => t.shfSample ch a b z

/-- INDEX_EDGE: Z rises while A and B stay (R774 to R776). -/
def execIndexEdge (ch : Fin 2) (s : State) : Res :=
  s.via .shf fun t => t.shfSample ch (t.shf ch).a (t.shf ch).b true

/-- SHF_CNT_WRITE (R773). -/
def execShfCntWrite (ch : Fin 2) (v : BitVec 32) (s : State) : Res := s.via .shf fun t => t.shfCntWrite ch v

/-- SHF_CFG_WRITE (R766, R767). -/
def execShfCfgWrite (ch : Fin 2) (v : BitVec 32) (s : State) : Res := s.via .shf fun t => t.shfCfgWrite ch v

/-- SSI_REQ: REQ is written (R778). -/
def execSsiReq (ch : Fin 2) (s : State) : Res := s.via .shf fun t => t.ssiReq ch

/-- SSI_READ_DONE: a read has ended: DATA was ready, VT of the first falling edge, the bits read, DATA one half-period after
the last bit (R777, R778). -/
def execSsiReadDone (ch : Fin 2) (ready : Bool) (vt bits : BitVec 32) (high : Bool) (s : State) : Res :=
  if s.open .shf = false ∨ (s.shf ch).ssi ≠ .reading then .next s
  else
    let s1 := s.setShf ch { s.shf ch with ssi := .pause }
    .next (if ready then s1.ssiWord ch vt bits high else s1.setBit (Reg.SHF_EVT ch) 6)

/-- SSI_TM_END: the idle time after a read ends (R778). -/
def execSsiTmEnd (ch : Fin 2) (s : State) : Res :=
  s.via .shf fun t => if (t.shf ch).ssi = .pause then t.setShf ch { t.shf ch with ssi := .idle } else t

/-- SHF_ABS_CFG_WRITE: a write to SHF_ABS_CFG, or to SHF_ABS_TIME (R782). -/
def execShfAbsCfgWrite (ch : Fin 2) (time : Bool) (v : BitVec 32) (s : State) : Res :=
  s.via .shf fun t => t.absCfgWrite ch time v

/-- SHF_CNT_CLR: 1 is written to bit 0 (R781). -/
def execShfCntClr (ch : Fin 2) (s : State) : Res := s.via .shf fun t => t.shfCntClr ch

end Sys2Proof.Machine
end

