-- ==== Sys2Proof/Machine/Holdup.lean ====
section
/-! DEFINITION. Feeds, hold-up bank, ride-through and shed, post-mortem records and module temperatures
(R562 to R576, R833, R834, R848 to R851). Voltages are in units of 10 mV, energies in mJ, temperatures in 0.1 °C. -/

namespace Sys2Proof.Machine

/-- The reading of a feed shows in SYS_FEED: feed A is 0, feed B is 1. -/
def State.feedRead (s : State) (f : Nat) (v : BitVec 16) : State := s.setField Reg.SYS_FEED (16 * f) 16 v.toNat

/-- FEED_OUT_OF_RANGE: a feed has lain outside 18 to 32 V for 20 µs (R833). -/
def execFeedOutOfRange (f : Fin 2) (v : BitVec 16) (s : State) : Res :=
  if s.sys.going = false then .next s
  else
    let s1 := s.feedRead f v
    let bit := (1 : BitVec 2) <<< (f : Nat)
    let cut := if 3300 < v.toNat then s1.sys.feedCut ||| bit else s1.sys.feedCut
    let s2 := { s1 with sys := { s1.sys with feedCut := cut } }
    if (v.toNat < 1800 ∨ 3200 < v.toNat) ∧ s.sys.feedBad.getLsbD f = false then
      .next (State.raise { s2 with sys := { s2.sys with feedBad := s2.sys.feedBad ||| bit } } f)
    else .next s2

/-- FEED_IN_RANGE: a feed has stayed for 10 ms around a voltage: from 18.5 to 31.5 V it is within range again, and below
32.0 V one that was disconnected is joined again (R833). -/
def execFeedInRange (f : Fin 2) (v : BitVec 16) (s : State) : Res :=
  if s.sys.going = false then .next s
  else
    let s1 := s.feedRead f v
    let keep := ~~~ ((1 : BitVec 2) <<< (f : Nat))
    let bad := if 1850 ≤ v.toNat ∧ v.toNat ≤ 3150 then s1.sys.feedBad &&& keep else s1.sys.feedBad
    let cut := if v.toNat < 3200 then s1.sys.feedCut &&& keep else s1.sys.feedCut
    .next { s1 with sys := { s1.sys with feedBad := bad, feedCut := cut } }

/-- T_RIDE in ticks (R530, SYS_HOLD_CFG). -/
def State.tRide (s : State) : Nat := us (100 * s.field Reg.SYS_HOLD_CFG 0 8)

/-- RIDE_END: a feed has stayed at or above 18 V for 1 ms (R566). -/
def execRideEnd (f : Fin 2) (v : BitVec 16) (s : State) : Res :=
  if s.sys.riding.isNone ∨ s.sys.shed ≠ .none ∨ v.toNat < 1800 then .next s
  else
    let s1 := s.feedRead f v
    .next { s1 with sys := { s1.sys with riding := none } }

/-- E_usable in mJ at a bank voltage: half of C_meas × (V² − V_MIN²), in whole mJ (R563). -/
def State.usableAt (s : State) (v : BitVec 16) : Nat :=
  s.rdNat Reg.SYS_HOLD_C * (v.toNat * v.toNat - 4000 * 4000) / 20000000

/-- The bank is measured: its voltage and energies show, and a fall of E_usable below E_REQ with a feed present raises
FS3 (R563, R565). -/
def State.holdMeasure (s : State) (v : BitVec 16) : State :=
  let e := s.usableAt v
  let low := decide (e < s.eReq)
  let s1 := (s.wr Reg.SYS_HOLD_V (v.setWidth 32)).wr Reg.SYS_HOLD_E (statWord [(min e 0xFFFF, 16), (s.eReq, 0)])
  let s2 := { s1 with sys := { s1.sys with holdLow := low } }
  s2.raiseIf (low && !s.sys.holdLow && s.sys.bankOk && (s.feedOk 0 || s.feedOk 1)) 3

/-- HOLD_VOLTAGE_MEASURE (R563, R565). -/
def execHoldVoltageMeasure (v : BitVec 16) (s : State) : Res :=
  .next (if s.sys.going then s.holdMeasure v else s)

/-- A standby is ready to take the converter over (R567). -/
def State.standbyReady (s : State) : Bool := s.duty && s.twinEn && s.partnerReady

/-- Every port in use has sent a frame with BLOCK_ARM = 1 (R567). -/
def State.armsBlocked (s : State) : Bool := s.portsUsed.all fun n => (s.port n).blockArm

/-- Step 2: every domain except PD0, PD1 and PD8 goes off in one tick, and the power loss is a cause for a record, as the
module stands at that tick (R567, R569). -/
def State.shedOff (s : State) : State :=
  let d := s.pmMoment 0
  let s1 := (otherDomains.filter (· != 8)).foldl State.domainOff s
  let s2 := { s1 with sys := { s1.sys with shed := .recording } }
  match s2.sys.pm with
  | some _ => s2.pmCause 0
  | none => { s2 with sys := { s2.sys with pmDue := s2.sys.pmDue ++ [d] } }

/-- Step 1: with no standby ready the block latch is set, and the ports are waited for (R567). -/
def State.shedBegin (s : State) : State :=
  let s1 := s.setBit Reg.SYS_EVT 4
  if s1.standbyReady then s1.shedOff
  else
    let s2 := s1.blockNow
    if s2.armsBlocked then s2.shedOff
    else { s2 with sys := { s2.sys with shed := .waiting, shedAt := s2.now } }

/-- FEEDS_LOST: both feeds lie below 18 V: FS2 is raised and the ride-through begins; with T_RIDE = 0 the shed
begins at once (R566, R834). -/
def execFeedsLost (a b : BitVec 16) (s : State) : Res :=
  if s.sys.going = false ∨ s.sys.riding.isSome ∨ s.sys.shed ≠ .none ∨ 1800 ≤ a.toNat ∨ 1800 ≤ b.toNat then .next s
  else
    let s1 := State.raise ((s.feedRead 0 a).feedRead 1 b) 2
    let s2 := { s1 with sys := { s1.sys with riding := some s1.now } }
    .next (if s2.tRide = 0 then s2.shedBegin else s2.setBit Reg.SYS_EVT 3)

/-- SHED: at T_RIDE after FS2, or as soon as E_usable has fallen to E_REQ, the shed begins; given again while the ports
are waited for, it ends the wait (R566, R567). -/
def execShed (s : State) : Res :=
  match s.sys.riding, s.sys.shed with
  | some t, .none =>
    .next (if s.eUsable ≤ s.eReq then s else s.advanceTo (t + BitVec.ofNat 64 s.tRide)).shedBegin
  | _, .waiting =>
    .next (if s.armsBlocked then s else s.advanceTo (s.sys.shedAt + BitVec.ofNat 64 (2 * s.per + 16))).shedOff
  | _, _ => .next s

/-- A power-on reset of every domain: start-up begins again at stage 1 with VT from zero (R568). -/
def State.powerReset (s : State) : State := s.pd0Down.pd0Up s.twn.secondary

/-- Step 4 of a shed, once its record is dealt with: PD1 and PD8 go off, or with a feed returned everything restarts
(R567, R568). -/
def State.shedEnds (s : State) : State :=
  if s.sys.shed = .recording ∧ s.sys.pm.isNone ∧ s.sys.pmDue.all (fun d => d.cause != 0) then
    if s.sys.feedBack then s.powerReset
    else
      let s1 := (s.domainOff 8).domainOff 1
      { s1 with sys := { s1.sys with shed := .off } }
  else s

/-- SHED_FEED_RETURN: a feed returns after step 2 (R568). -/
def execShedFeedReturn (s : State) : Res :=
  match s.sys.shed with
  | .none | .waiting => .next s
  | .recording => .next { s with sys := { s.sys with feedBack := true } }
  | .off => .next s.powerReset

/-- A full record of this cause began less than 1 s ago (R571). -/
def State.rateLimited (s : State) (cause : Nat) : Bool :=
  decide (cause ≠ 0) &&
  match Sparse.get (fun _ => none) s.sys.pmLast cause with
  | some t => decide (s.sys.up < t + us 1000000)
  | none => false

/-- The last checkpoint captured or held: header and fast part (R485, R573). -/
def State.lastCkpt (s : State) : Option (List Byte) :=
  if s.holds then (if s.twn.ckptOut.isEmpty then none else some (s.twn.ckptOut.take (64 + ckptFastLen s.twn.ckptOut)))
  else s.twn.held

/-- Length of the user region (SYS_PM_USER_LEN). -/
def State.userLen (s : State) : Nat := min (s.field Reg.SYS_PM_USER_LEN 0 21) 1768960

/-- The body of a full record (R573). -/
def State.pmBody (s : State) : List Byte :=
  let c := (s.lastCkpt.getD []).take 262144
  s.eventLog ++ c ++ natBytes (262144 - c.length) 0 ++
  s.ram.bytes (s.rdNat Reg.SYS_PM_USER_LO + 0x100000000 * s.field Reg.SYS_PM_USER_HI 0 2) s.userLen

/-- The slot and the number of the next record: one after the newest; with no valid record they are left open
(R572, R574). -/
def State.pmNext (s : State) : Nat × BitVec 32 :=
  match s.key.pmNew with
  | some (q, n) => ((n + 1) % 16, q + 1)
  | none => (s.fresh.toNat % 16, s.tick1.fresh)

/-- A record or a marker is begun for a cause (R570 to R574). -/
def State.pmBegin (s : State) (d : PmDue) : State :=
  let rate := s.rateLimited d.cause
  let low := decide (s.eUsable < s.eReq)
  let marker := rate || low
  let flags := flagNat [marker, rate, low, !marker && s.lastCkpt.isSome, !marker && decide (0 < s.userLen), s.feedOk 0 || s.feedOk 1]
  let nx := s.pmNext
  let r : PmRec := { first := d, cause := (1 : BitVec 3) <<< d.cause, flags := flags, slot := nx.1, seq := nx.2
                     eUsable := s.eUsable, eReq := s.eReq, body := if marker then [] else s.pmBody }
  let last := if marker then s.sys.pmLast else Sparse.put (fun _ => none) s.sys.pmLast d.cause (some s.sys.up)
  { s with sys := { s.sys with pm := some r, pmLast := last }, free := if s.key.pmNew.isSome then s.free else s.free + 2 }

/-- PM_RECORD_START: E_usable is measured, and a cause that is due gets a full record, a marker or nothing
(R523, R570, R571). -/
def execPmRecordStart (v : BitVec 16) (s : State) : Res :=
  match s.sys.pmDue, s.sys.pm with
  | d :: rest, none =>
    let s1 := { s with sys := { s.sys with pmDue := rest } }.holdMeasure v
    if s.key.present = false ∨ s.key.foreign then .next (s1.setBit Reg.SYS_EVT 6).shedEnds
    else if s1.eUsable < 10 then .next (State.shedEnds { s1 with sys := { s1.sys with pmLost := true } })
    else .next (s1.pmBegin d)
  | _, _ => .next s

/-- Bytes 0x000 to 0x1FB of a record's header (R572). -/
def PmRec.header (r : PmRec) (imageB : Bool) (imgSeq : BitVec 32) : List Byte :=
  let d := r.first
  [0x4C, 0x4E, 0x58, 0x50] ++ wordBytes r.seq ++ natBytes 2 r.cause.toNat ++ natBytes 2 r.flags ++
  natBytes 4 (512 + r.body.length) ++ natBytes 8 d.at_.toNat ++ natBytes 8 r.later.toNat ++ natBytes 8 d.nt.toNat ++
  natBytes 4 d.pc.toNat ++ natBytes 2 d.epoch.toNat ++ natBytes 1 d.lease ++ natBytes 1 (flag imageB) ++
  natBytes 2 (min r.eUsable 0xFFFF) ++ natBytes 2 (min r.eReq 0xFFFF) ++ wordBytes d.feeds ++ wordBytes Config.serial ++
  wordBytes imgSeq ++ (d.snap.map wordBytes).flatten ++ natBytes 116 0

/-- The record stands on the key: body first, header with its CRC last (R572 to R574). -/
def State.pmWritten (s : State) (r : PmRec) : State :=
  let h := r.header s.sys.imageB s.sys.imgSeq
  let at_ := keySlotAt r.slot
  let had := pmSlotOk s.mram r.slot
  let s1 := (s.keyPut (at_ + 512) r.body).keyPut at_ (h ++ wordBytes (crc32c (h ++ r.body)))
  let s2 := { s1 with key := { s1.key with pmNew := some (r.seq, r.slot), pmCount := if had then s1.key.pmCount else s1.key.pmCount + 1 } }
  ((s2.lifeUp 4).setBit Reg.SYS_EVT 5).raiseIf (r.flags / 4 % 2 == 1) 253

/-- PM_RECORD_DONE: the record in progress is complete, or its write has failed (R570, R574, R576). -/
def execPmRecordDone (ok : Bool) (s : State) : Res :=
  match s.sys.pm with
  | none => .next s
  | some r =>
    let s1 := { s with sys := { s.sys with pm := none } }
    if ok ∧ s.key.present then .next (s1.pmWritten r).shedEnds
    else
      let s2 := if s.key.present then s1.keyTorn (keySlotAt r.slot) (512 + r.body.length) else s1
      .next (s2.raise 254).shedEnds

/-- The warning, shutdown and cut-off levels of a sensor (R848). -/
def tempLevels (i : Nat) : Int × Int × Int :=
  match i with
  | 0 => (950, 1100, 1250)
  | 1 | 2 => (850, 950, 1050)
  | _ => (750, 850, 950)

/-- The domain of a sensor (R848). -/
def tempDomain (i : Nat) : Nat :=
  match i with
  | 0 => 0 | 1 => 7 | 2 => 8 | 3 => 5 | _ => 6

/-- The reading of a sensor, none while it is unpowered or not yet measured (R851). -/
def State.tempOf (s : State) (i : Nat) : Option Int :=
  let v : BitVec 16 := (s.rd (Reg.SYS_TEMP_S i)).setWidth 16
  if v = 0x8000 then none else some v.toInt

/-- One sensor is measured: what it shows, and whether it raises FS5 and FS6 (R848, R849). -/
def State.tempTake (s : State) (i : Nat) (v : BitVec 16) : State :=
  if s.powered (tempDomain i) then
    let l := tempLevels i
    let bit := (1 : BitVec 5) <<< i
    let up := fun (had : BitVec 5) (level : Int) =>
      if level < v.toInt then had ||| bit else if v.toInt ≤ level - 50 then had &&& ~~~ bit else had
    let s1 := s.wr (Reg.SYS_TEMP_S i) (v.setWidth 32)
    { s1 with sys := { s1.sys with tempWarn := up s1.sys.tempWarn l.1, tempShut := up s1.sys.tempShut l.2.1 } }
  else s.wr (Reg.SYS_TEMP_S i) 0x8000

/-- SYS_TEMP: the sensor nearest its warning level (R851). DEDUCED: log entry 80. -/
def State.tempNearest (s : State) : Option Nat :=
  (List.range 5).foldl (fun (m : Option Nat) i =>
    match s.tempOf i with
    | none => m
    | some x =>
      match m with
      | none => some i
      | some j =>
        let d := fun (k : Nat) (t : Int) => ((tempLevels k).1 - t).natAbs
        if d i x < d j ((s.tempOf j).getD 0) then some i else m) none

/-- SYS_TEMP and SYS_TEMP_MAX take their values (R851). -/
def State.tempShow (s : State) : State :=
  let word := fun (i : Nat) => statWord [(i, 24), (s.field (Reg.SYS_TEMP_S i) 0 16, 0)]
  let s1 := match s.tempNearest with | some i => s.wr Reg.SYS_TEMP (word i) | none => s.wr Reg.SYS_TEMP 0x8000
  (List.range 5).foldl (fun (t : State) i =>
    let top : BitVec 16 := (t.rd Reg.SYS_TEMP_MAX).setWidth 16
    match t.tempOf i with
    | some x => if top = 0x8000 ∨ top.toInt < x then t.wr Reg.SYS_TEMP_MAX (word i) else t
    | none => t) s1

/-- TEMP_MEASURE: the five sensors are measured (R848, R849, R851). -/
def execTempMeasure (t0 t1 t2 t3 t4 : BitVec 16) (s : State) : Res :=
  if s.sys.going = false then .next s
  else
    let s1 := ((((s.tempTake 0 t0).tempTake 1 t1).tempTake 2 t2).tempTake 3 t3).tempTake 4 t4
    let warn := s1.sys.tempWarn &&& ~~~ s.sys.tempWarn
    let shut := s1.sys.tempShut &&& ~~~ s.sys.tempShut
    .next ((s1.tempShow.raiseIf (warn != 0) 5).raiseIf (shut != 0) 6)

/-- TEMP_CUTOFF: a sensor has stayed above its cut-off level for 10 ms: every domain except PD0 goes off in one tick,
until PD0 next powers up (R850). -/
def execTempCutoff (i : Fin 5) (s : State) : Res :=
  match s.tempOf i with
  | none => .next s
  | some x =>
    if (tempLevels i).2.2 < x then
      let s1 := (otherDomains ++ [1]).foldl State.domainOff s
      .next { s1 with sys := { s1.sys with cutOff := true } }
    else .next s

end Sys2Proof.Machine
end

