-- ==== Sys2Proof/Machine/LaneCmds.lean ====
section
/-! DEFINITION. The commands of the lanes (02_uzofy_lanes.md). Port 12 is X13. -/

namespace Sys2Proof.Machine

/-- PRT_TX_ENABLE: TX_EN set in PRT_LANE_CTL (R78, R109). -/
def execPrtTxEnable (p : Fin 13) (s : State) : Res :=
  s.via (laneBlk p) fun t => t.laneCtl p ((t.rd (Reg.PRT_LANE_CTL p) &&& ~~~ 1#32) ||| 4)

/-- PRT_TX_DISABLE: TX_EN cleared (R113). -/
def execPrtTxDisable (p : Fin 13) (s : State) : Res :=
  s.via (laneBlk p) fun t => t.laneCtl p (t.rd (Reg.PRT_LANE_CTL p) &&& ~~~ 5#32)

/-- TRAIN_REQ: a write of 1 to TRAIN_REQ (R106, R107, R112). -/
def execTrainReq (p : Fin 13) (s : State) : Res :=
  s.via (laneBlk p) fun t => t.laneCtl p (t.rd (Reg.PRT_LANE_CTL p) ||| 1)

/-- AUTO_RETRAIN_SET: AUTO_RETRAIN set (R109). -/
def execAutoRetrainSet (p : Fin 13) (s : State) : Res :=
  s.via (laneBlk p) fun t => t.laneCtl p ((t.rd (Reg.PRT_LANE_CTL p) &&& ~~~ 1#32) ||| 8)

/-- TEST_MODE_WRITE: LOOP, PRBS_TX and PRBS_RX are written (R110). -/
def execTestModeWrite (p : Fin 13) (loop : BitVec 2) (prbsTx prbsRx : Bool) (s : State) : Res :=
  s.via (laneBlk p) fun t => t.laneCtl p
    ((t.rd (Reg.PRT_LANE_CTL p) &&& 0x0C) ||| putField loop.toNat 6 ||| bitIf prbsTx 5 ||| bitIf prbsRx 4)

/-- PRT_CNT_CLR: a write of 1 to bit 0 (R111). -/
def execPrtCntClr (p : Fin 13) (s : State) : Res := s.via (laneBlk p) fun t => t.laneCntClr p

/-- TRAINING_FRAME: marker and TRAIN word of a received frame, with the word's complement (R87, R88, R90, R93). A port in
loop-back receives only what it sends itself (R110). -/
def execTrainingFrame (p : Fin 13) (marker : BitVec 32) (train comp : BitVec 16) (s : State) : Res :=
  let x := s.lane p
  let stage := fieldOf train 12 4
  let status := fieldOf train 10 2
  if marker ≠ trainMarker ∨ pairOk train comp = false ∨ x.training = false ∨ 
      (x.loopEff ≠ 0 ∧ (x.prbsTx ∨ train ≠ s.trainSent p))
  then .next s
  else if status = 2 then .next (s.laneFail p 9)
  else if s.leads p then
    .next ((s.setLane p { x with ready := if stage = x.st.code ∧ status = 1 then satInc x.ready 8 else 0 }).laneTry p)
  else if stage = x.st.code + 1 ∧ x.st ≠ .data then .next (s.laneNext p)
  else .next s

/-- The run of good sampling steps, where they form one: its first step and its length (R91). DESIGN CHOICE: log entry 103.
-/
def goodRun (g : BitVec 32) : Option (Nat × Nat) :=
  let on := (List.range 32).filter fun i => g.getLsbD i
  match on.head? with
  | some a => if on.length = on.getLastD 0 - a + 1 then some (a, on.length) else none
  | none => none

/-- A lane's eye: width and sampling offset, the run's centre rounded down; none where the run is too short (R91,
PRT_RX_EYE). -/
def eyeOf (g : BitVec 32) : Option Nat :=
  match goodRun g with
  | some (a, n) => if 13 ≤ n then some (min n 31 * 256 + (2 * a + n - 1) / 2) else none
  | none => none

/-- Is each of the three gaps between adjacent mean levels within 25 % of their mean? (R91) -/
def levelsOk (m : Int × Int × Int × Int) : Bool :=
  let span := m.2.2.2 - m.1
  decide (0 < span) && [m.2.1 - m.1, m.2.2.1 - m.2.1, m.2.2.2 - m.2.2.1].all fun g => decide (4 * (3 * g - span).natAbs ≤ span.natAbs)

/-- A lane lies within four UI of its clock (R91). -/
def skewOk (d : Int) : Bool := decide (-4 ≤ d) && decide (d ≤ 4)

/-- Is a phase error within 0.3 UI? (R91, R97) -/
def phaseIn (err : Nat) : Bool := decide (err ≤ 300)

/-- The three slicer thresholds of a lane, midway between adjacent mean levels, in half units (R91). -/
def slicersOf (m : Int × Int × Int × Int) : Int × Int × Int := (m.1 + m.2.1, m.2.1 + m.2.2.1, m.2.2.1 + m.2.2.2)

/-- What the completion condition of the present stage makes of a measurement: the port with the stage's registers set, none
where the condition does not hold (R80, R91). The deskew set for a lane is its arrival as measured. DESIGN CHOICE: log entry
133. -/
def State.stageMet (s : State) (p : Nat) (m : StageMeas) : Option State :=
  let x := s.lane p
  match x.st, m with
  | .clock, .clock e => if phaseIn e && x.freqOnce then some (s.notePhase p e) else none
  | .phase, .phase g0 g1 =>
    match eyeOf g0, eyeOf g1 with
    | some a, some b => some (s.wr (Reg.PRT_RX_EYE p) (BitVec.ofNat 32 (b * 65536 + a)))
    | _, _ => none
  | .level, .level a b =>
    if levelsOk a && levelsOk b then some (s.setLane p { x with slicer0 := some (slicersOf a), slicer1 := some (slicersOf b) })
    else none
  | .align, .align a b =>
    if skewOk a && skewOk b then
      some (s.wr (Reg.PRT_RX_DESKEW p) (BitVec.ofNat 32 ((BitVec.ofInt 4 b).toNat * 16 + (BitVec.ofInt 4 a).toNat)))
    else none
  | .check, .check a b => if a = 0 ∧ b = 0 then some s else none
  | _, _ => none

/-- TRAINING_STAGE_DONE: the port's receiver reports stage `st` as finished, with what it measured; a report for a stage
that is not in progress, and a measurement that misses the stage's condition, leave the port as it is (R80, R90, R91). -/
def execTrainingStageDone (p : Fin 13) (st : LaneSt) (m : StageMeas) (s : State) : Res :=
  match if (s.lane p).st = st then s.stageMet p m else none with
  | some t => .next ((t.setLane p { t.lane p with rxDone := true }).laneTry p)
  | none => .next s

/-- TRAINING_STAGE_TIMEOUT: the present stage runs past its bound (R91, R93, R94). -/
def execTrainingStageTimeout (p : Fin 13) (s : State) : Res :=
  let x := s.lane p
  if x.training then
    let s1 := s.advanceVt (x.stageAt + BitVec.ofNat 64 (x.st.bound + 1))
    .next (s1.laneFail p x.boundCode)
  else .next s

/-- The port reaches DATA: the lock machine is in LOCKED, block counting starts, the receivers decode from state 0, and
UP_PHASE is recorded (R84, R92, R98, R123). -/
def State.reachData (s : State) (p ui : Nat) : State :=
  let x := { s.lane p with up := true, locked := true, rxLock := true, freqOk := true, txLock := true, losRaised := false,
                            lolRaised := false, portFault := false, rx0 := 0, rx1 := 0 }
  let s1 := (s.setLane p x).setBit (Reg.PRT_LANE_EVT p) 0
  s1.setPort p { s1.port p with slot := 0, upPhase := s.now.toNat % 4 * 32 + ui }

/-- A module that aligns sends ECHO on X13: not the owner, VT_OFS unset (R473, R474). -/
def State.twinAlign (s : State) : State :=
  if s.timeOwner = false ∧ s.twn.ofsSet = false then
    s.sendEcho
  else s

/-- UP_DATA_START: the port sees the start of up data, `ui` unit intervals into the present tick (R84, R92, R120, R122,
R123, R173, R473, R543). -/
def execUpDataStart (p : Fin 13) (ui : Fin 32) (s : State) : Res :=
  let x := s.lane p
  if x.st = .data ∧ x.up = false ∧ decide (200 < (s.tb.vt - x.stageAt).toNat) = false then
    let s1 := s.reachData p ui
    .next (if (p : Nat) < 12 then (s1.calStart p).stageFourDone else s1.twinAlign)
  else .next s

/-- A received group is checked: the first 31 bits seed the register, and after them each group is held against the one
the sequence has there (R89, R110). DESIGN CHOICE: log entry 101. -/
def PrbsChk.take (c : PrbsChk) (g : BitVec 2) : PrbsChk × Bool :=
  if c.got < 16 then ({ c with got := c.got + 1, reg := (c.reg <<< 2) ||| g.setWidth 31 }, true)
  else
    let e := prbs31Groups c.reg 1
    ({ c with reg := e.2 }, e.1 == [g])

/-- Can a group come to the check of a data lane? In loop-back only what the port sends itself comes: its PRBS31 in the order it
is sent, or a group of what it sends in the present tick (R110). DESIGN CHOICE: log entry 134. -/
def State.prbsCame (s : State) (p l : Nat) (c : PrbsChk) (group : BitVec 2) : Option PrbsChk :=
  let x := s.lane p
  if x.loopEff = 0 then some c
  else if x.prbsTx then
    let e := prbs31Groups (c.own.getD (seedOf (Config.prbsSeed p x.stageAt.toNat 1))) 1
    if e.1 = [group] then some { c with own := some e.2 } else none
  else if group ∈ (s.lineOut p).groups l then some c else none

/-- PRBS_CHECK: a group received on a data lane is checked while PRBS_RX is in effect (R110). DESIGN CHOICE: log entry
134. -/
def execPrbsCheck (l : DataLane) (group : BitVec 2) (s : State) : Res :=
  let p := l.port
  let x := s.lane p
  let c := if l.lane = 0 then x.prbs0 else x.prbs1
  match if x.prbsRx then s.prbsCame p l.lane c group else none with
  | some c1 =>
    let e := c1.take group
    let s1 := s.setLane p (if l.lane = 0 then { x with prbs0 := e.1 } else { x with prbs1 := e.1 })
    .next (if e.2 then s1 else (s1.bump (Reg.PRT_PRBS_ERR p)).setBit (Reg.PRT_LANE_EVT p) 5)
  | none => .next s

/-- LOS_ASSERT: a receive fibre enters DARK (R96, R98 to R100, R93). -/
def execLosAssert (p : Fin 13) (f : Fibre) (s : State) : Res :=
  let x := s.lane p
  if s.open (laneBlk p) = false ∨ x.dark f then .next s
  else
    let s1 := (s.setLane p (s.darkNow p x f true)).setBit (Reg.PRT_LANE_EVT p) 1
    if x.inData then .next ((s1.addField (Reg.PRT_LOS_CNT p) 0 16 1).portFault p 0)
    else if x.sameTickFault s.tb.vt then
      let s2 := s1.addField (Reg.PRT_LOS_CNT p) 0 16 1
      .next (if x.losRaised then s2
        else (s2.setLane p { s2.lane p with losRaised := true }).raise (laneSrc p 0))
    else if x.training then .next (s1.laneFail p 8)
    else if x.sameTickLol s.tb.vt then .next (s1.setLane p { s1.lane p with failCode := 8 })
    else .next s1

/-- LOS_DEASSERT: a receive fibre returns to LIT (R96, R98, R106). -/
def execLosDeassert (p : Fin 13) (f : Fibre) (s : State) : Res :=
  let x := s.lane p
  if s.open (laneBlk p) = false ∨ x.dark f = false then .next s
  else
    let y := s.darkNow p x f false
    .next (s.setLane p (if y.allLit then { y with litAt := s.tb.vt } else y))

/-- LOL_ASSERT: a condition of R97 holds: a phase error beyond 0.3 UI for 256 UI, a failed frequency check, or the loss of
the port's own transmit clock (R97 to R100, R93, R115). -/
def execLolAssert (p : Fin 13) (cause : LolCause) (s : State) : Res :=
  if s.open (laneBlk p) = false then .next s
  else match cause with
    | .phaseErr e => .next (if phaseIn e then s else (s.notePhase p e).loseLock p cause)
    | .freq => .next ((s.setBit (Reg.PRT_LANE_EVT p) 4).loseLock p cause)
    | .txClk => .next (s.loseLock p cause)

/-- FREQ_CHECK: the deviation of the received CK over a window of 2,048 ticks, in parts per billion, and the largest phase
error of the window in thousandths of a UI (R80, R81, R91, R97, R111). -/
def execFreqCheck (p : Fin 13) (m : FreqMeas) (s : State) : Res :=
  if s.open (laneBlk p) = false then .next s
  else
    let s1 := s.notePhase p m.err
    let x := s1.lane p
    if m.dev.natAbs ≤ 50000 then .next (s1.setLane p { x with freqOk := true, freqOnce := x.freqOnce || x.training })
    else .next ((s1.setBit (Reg.PRT_LANE_EVT p) 4).loseLock p .freq)

/-- AUTO_RETRAIN_TIMER: a port in FAULT restarts training once its fibres have been LIT for 1 ms and, after a failed
training, 1 ms more has passed (R106). DEDUCED: log entry 119. -/
def execAutoRetrainTimer (p : Fin 13) (s : State) : Res :=
  let x := s.lane p
  if x.st = .fault ∧ x.allLit ∧ s.bitOf (Reg.PRT_LANE_CTL p) 3 then
    let s1 := s.advanceVt (x.litAt + BitVec.ofNat 64 (us 1000))
    .next ((if x.trainFailed then s1.advanceVt (x.failAt + BitVec.ofNat 64 (us 1000)) else s1).laneTrain p)
  else .next s

end Sys2Proof.Machine
end

