-- ==== Sys2Proof/Machine/SafetyIo.lean ====
section
/-! DEFINITION. Commands of the safety section, the field I/O and the isolation link (R679 to R744). -/

namespace Sys2Proof.Machine

/-- SAFETY_CHANNEL_POWER_UP: a channel begins to run, with its latch set for START and PB, and reads the switch bank (R696,
R717, R718). -/
def execSafetyChannelPowerUp (c : Fin 2) (bank : BitVec 16) (s : State) : Res :=
  if s.powered (12 + c) = false ∨ (s.safCh c).on then .next s
  else .next ((((s.setSafCh c { on := true, bank := bank }).safTrip c .start).safTrip c .pb).safBoth)

/-- SAFETY_SAMPLE: a channel samples its input pairs and the reset input (R686 to R700). -/
def execSafetySample (c : Fin 2) (ins : BitVec 32) (s : State) : Res :=
  if (s.safCh c).on then .next (s.safSample c ins) else .next s

/-- RESET_HELD: the reset input has read 1 for longer than RESET_MAX: every sample of that time has read 1 (R694). -/
def execResetHeld (c : Fin 2) (s : State) : Res :=
  let x := s.safCh c
  let max := match x.blk with | some (b, _) => bytesAt b 0x2E 2 * 200 | none => 1
  .next (if x.on ∧ 0 < x.ones ∧ max ≤ x.ones ∧ x.held = false then s.safHeld c else s)

/-- TRIP_REQUEST_LINE: the level of a channel's trip request line reaches it (R398, R399, R696, R698). -/
def execTripRequestLine (c : Fin 2) (s : State) : Res :=
  let x := s.safCh c
  if x.on = false then .next s
  else
    let s1 := s.setSafCh c { x with req := s.saf.req }
    .next ((if s.saf.req then s1.safTrip c .collector else s1).safEval c)

/-- CROSS_LINK_EXCHANGE: the channels exchange their state, adopt each other's trips and confirm reset edges (R697, R699,
R704). -/
def execCrossLinkExchange (s : State) : Res :=
  if (s.safCh 0).on ∧ (s.safCh 1).on then
    let s1 := { s with saf := { s.saf with linkOk := true } }
    .next (((s1.safAdopt 0).safAdopt 1).safConfirm).safBoth
  else .next s

/-- CROSS_CHECK_FAIL: the states have differed, or no exchange has arrived, for 2 ms (R705). -/
def execCrossCheckFail (lost : Bool) (s : State) : Res :=
  if (s.safCh 0).on = false ∧ (s.safCh 1).on = false then .next s
  else
    let s1 := { s with saf := { s.saf with linkOk := s.saf.linkOk && !lost } }
    .next (((((s1.fieldEvent 9).safNote 6).safTrip 0 .cross).safTrip 1 .cross).safBoth)

/-- OFF_PULSE_TEST: a channel opens its switch of an output that is on, while the other switch stays on (R707). -/
def execOffPulseTest (c : Fin 2) (so : Fin 8) (s : State) : Res :=
  let x := s.safCh c
  let other := s.safCh (1 - c)
  if s.safOutOn so ∧ x.test = none ∧ other.test ≠ some so then
    let s1 := s.setSafCh c { x with test := some so }
    .next { s1 with saf := { s1.saf with tests := s1.saf.tests + 1 } }
  else .next s

/-- OFF_PULSE_VERDICT: the check window of a channel's test has ended (R708, R709). -/
def execOffPulseVerdict (c : Fin 2) (pass : Bool) (s : State) : Res :=
  let x := s.safCh c
  match x.test with
  | none => .next s
  | some so =>
    let s1 := s.setSafCh c { x with test := none }
    if pass then .next s1
    else .next (({ s1 with saf := { s1.saf with fails := s1.saf.fails + 1 } }).safOutFail so)

/-- OUTPUT_ABOVE_5V_WHILE_OFF: an output has read above 5 V for 2 ms while either switch is commanded off (R709). -/
def execOutputAbove5vWhileOff (so : Fin 8) (s : State) : Res :=
  let a := s.safCh 0
  let b := s.safCh 1
  if (a.on || b.on) && (!a.sw.getLsbD so || !b.sw.getLsbD so || a.test == some so || b.test == some so) && !s.saf.fail.getLsbD so
  then .next (s.safOutFail so) else .next s

/-- SWITCH_BANK_READ: a channel reads the switch bank (R718 to R720). DEDUCED: log entry 89. -/
def execSwitchBankRead (c : Fin 2) (v : BitVec 16) (s : State) : Res :=
  if (s.safCh c).on then .next (((s.setSafCh c { s.safCh c with bank := v }).safBank c).safEval c) else .next s

/-- DISCHARGE_TIMER: the trip latch has been set for T_DISCH without a break (R701). -/
def execDischargeTimer (c : Fin 2) (s : State) : Res :=
  let x := s.safCh c
  match x.blk with
  | none => .next s
  | some (b, _) =>
    if x.latch = false ∨ x.dischOk then .next s
    else
      let s1 := s.elapse (x.latchAt + msTicks (bytesAt b 0x30 4) - s.sys.up)
      .next ((s1.setSafCh c { s1.safCh c with dischOk := true }).safEval c)

/-- SAFETY_BLOCK_LINE: the level of a safety block line reaches an arm port; an asserted line is a block request too
(R680 to R682). -/
def execSafetyBlockLine (p : Fin 12) (c : Fin 2) (s : State) : Res :=
  if s.open (.port p) = false then .next s
  else
    let x := s.port p
    let v := s.safLine c
    let first := v && !x.lineA && !x.lineB
    let x1 := if (c : Nat) = 0 then { x with lineA := v } else { x with lineB := v }
    let s1 := s.setPort p { x1 with lineAt := if first then some s.now else x.lineAt }
    .next (if v then s1.blockNow else s1)

/-- SAFETY_PB_CHUNK: a channel receives a chunk of the safety section (R715 to R717). -/
def execSafetyPbChunk (c : Fin 2) (idx : BitVec 8) (data : BitVec 128) (s : State) : Res :=
  .next (s.safChunk c idx.toNat (lineBytes data 0 16))

/-- FIELD_INPUT_CHANGE: `run` samples of an input in a row have agreed on a level (R723). -/
def execFieldInputChange (n : Fin 32) (level : Bool) (run : Nat) (s : State) : Res :=
  if s.powered 11 ∧ s.fio.filt.toNat < run then
    let b := (1 : BitVec 32) <<< (n : Nat)
    .next { s with fio := { s.fio with ins := if level then s.fio.ins ||| b else s.fio.ins &&& ~~~ b } }
  else .next s

/-- OUTPUT_OVERLOAD: an output or a gang has been in current limit for 10 ms (R727). -/
def execOutputOverload (n : Fin 16) (s : State) : Res :=
  if s.powered 11 ∧ s.fio.outOn n then .next ({ s with fio := s.fio.overload n }.fieldEvent 2)
  else .next s

/-- FIELD_SUPPLY_LOW: the field supply has been below 18.0 V for 1 ms (R728). -/
def execFieldSupplyLow (v : BitVec 16) (s : State) : Res :=
  if s.powered 11 = false ∨ s.fio.low ∨ 1800 ≤ v.toNat then .next s
  else .next ({ s with fio := { s.fio with low := true, vsup := v } }.fieldEvent 3).safLook

/-- FIELD_SUPPLY_RECOVER: the field supply has been at or above 19.0 V for 10 ms (R728). -/
def execFieldSupplyRecover (v : BitVec 16) (s : State) : Res :=
  if s.powered 11 = false ∨ s.fio.low = false ∨ v.toNat < 1900 then .next s
  else .next { s with fio := { s.fio with low := false, vsup := v } }.safBoth

/-- DOWN_FRAME_SEND: at the first tick of a 50 µs slot (R715, R730, R731, R740). -/
def execDownFrameSend (s : State) : Res :=
  if s.powered 1 = false ∨ s.sys.going = false then .next s
  else .next (s.elapse ((10000 - s.now.toNat % 10000) % 10000)).downSend

/-- UP_FRAME_RECEIVE: the supervisor end receives an up frame (R373, R733 to R735, R738). -/
def execUpFrameReceive (f : BitVec 256) (s : State) : Res := s.via .fio fun t => t.upReceive f

/-- UP_FRAME_LOST: no valid up frame has completed by 42 µs into the slot (R734, R735, R739). -/
def execUpFrameLost (s : State) : Res :=
  if s.open .fio = false ∨ s.iso.slotOk = some (s.now.toNat / 10000) then .next s
  else .next (s.elapse (8400 - s.now.toNat % 10000)).upLost

/-- FIELD_DOWN_FRAME_RECEIVE: the field end receives a down frame (R733, R734, R736, R738). -/
def execFieldDownFrameReceive (f : BitVec 256) (s : State) : Res :=
  if s.powered 11 then .next (s.downReceive f) else .next s

/-- FIELD_DOWN_FRAME_LOST: no valid down frame has started in time (R734, R736). -/
def execFieldDownFrameLost (s : State) : Res := if s.powered 11 then .next s.downLost else .next s

/-- FIELD_UP_FRAME_SEND: the field end sends its up frame (R730, R732). -/
def execFieldUpFrameSend (s : State) : Res :=
  if s.powered 11 then .next { s with fio := { s.fio with up := s.upFrame } } else .next s

/-- FIO_RESUME: 1 is written to bit 0 (R736). -/
def execFioResume (s : State) : Res := s.via .fio State.fioResume

/-- FIO_OVL_CLR (R727). -/
def execFioOvlClr (v : BitVec 16) (s : State) : Res := s.via .fio fun t => t.fioOvlClr v

/-- FIO_CNT_CLR (R742) and SAF_CNT_CLR (R743): 1 is written to bit 0. -/
def execFioCntClr (s : State) : Res := s.via .fio State.fioCntClr
def execSafCntClr (s : State) : Res := s.via .saf State.safCntClr

end Sys2Proof.Machine
end

