-- ==== Sys2Proof/Machine/Dispatch.lean ====
section
/-! DEFINITION. The dispatch: one arm per command, each a direct call of that command's meaning. -/

namespace Sys2Proof.Machine

def exec (i : Instr) (s : State) : Host.Outcome State Fault Refusal :=
  match i with
  | .registerWrite w a v => Sys2Proof.Machine.execRegisterWrite w a v s
  | .busError w k a => Sys2Proof.Machine.execBusError w k a s
  | .pairedValueWrite r v => Sys2Proof.Machine.execPairedValueWrite r v s
  | .pairedComplementWrite r c => Sys2Proof.Machine.execPairedComplementWrite r c s
  | .tbVtLoRead mtime => Sys2Proof.Machine.execTbVtLoRead mtime s
  | .pd0PowerUp secondary => Sys2Proof.Machine.execPd0PowerUp secondary s
  | .timebaseLockLost => Sys2Proof.Machine.execTimebaseLockLost s
  | .periodBoundary => Sys2Proof.Machine.execPeriodBoundary s
  | .intakeEnd bad => Sys2Proof.Machine.execIntakeEnd bad s
  | .emitStart p => Sys2Proof.Machine.execEmitStart p s
  | .marginStart p => Sys2Proof.Machine.execMarginStart p s
  | .periodMarker isl vt => Sys2Proof.Machine.execPeriodMarker isl vt s
  | .wordSend src dst w => Sys2Proof.Machine.execWordSend src dst w s
  | .wordReceive src dst => Sys2Proof.Machine.execWordReceive src dst s
  | .creditReturn src dst => Sys2Proof.Machine.execCreditReturn src dst s
  | .energyWindowEnd w => Sys2Proof.Machine.execEnergyWindowEnd w s
  | .domainSwitch v => Sys2Proof.Machine.execDomainSwitch v s
  | .domainPowerOn d => Sys2Proof.Machine.execDomainPowerOn d s
  | .domainPowerOff d => Sys2Proof.Machine.execDomainPowerOff d s
  | .prtTxEnable p => Sys2Proof.Machine.execPrtTxEnable p s
  | .prtTxDisable p => Sys2Proof.Machine.execPrtTxDisable p s
  | .trainReq p => Sys2Proof.Machine.execTrainReq p s
  | .autoRetrainSet p => Sys2Proof.Machine.execAutoRetrainSet p s
  | .testModeWrite p loop prbsTx prbsRx => Sys2Proof.Machine.execTestModeWrite p loop prbsTx prbsRx s
  | .prtCntClr p => Sys2Proof.Machine.execPrtCntClr p s
  | .trainingFrame p marker train comp => Sys2Proof.Machine.execTrainingFrame p marker train comp s
  | .trainingStageDone p st m => Sys2Proof.Machine.execTrainingStageDone p st m s
  | .trainingStageTimeout p => Sys2Proof.Machine.execTrainingStageTimeout p s
  | .upDataStart p ui => Sys2Proof.Machine.execUpDataStart p ui s
  | .prbsCheck l group => Sys2Proof.Machine.execPrbsCheck l group s
  | .losAssert p f => Sys2Proof.Machine.execLosAssert p f s
  | .losDeassert p f => Sys2Proof.Machine.execLosDeassert p f s
  | .lolAssert p cause => Sys2Proof.Machine.execLolAssert p cause s
  | .freqCheck p m => Sys2Proof.Machine.execFreqCheck p m s
  | .autoRetrainTimer p => Sys2Proof.Machine.execAutoRetrainTimer p s
  | .commandsResume p => Sys2Proof.Machine.execCommandsResume p s
  | .upBlockReceive p d => Sys2Proof.Machine.execUpBlockReceive p d s
  | .rptBlockReceive p tag body => Sys2Proof.Machine.execRptBlockReceive p tag body s
  | .echoResponse p target seq ui => Sys2Proof.Machine.execEchoResponse p target seq ui s
  | .censusResponse p recs => Sys2Proof.Machine.execCensusResponse p recs s
  | .barrierResponse p id nack => Sys2Proof.Machine.execBarrierResponse p id nack s
  | .snapshotResponse p index body => Sys2Proof.Machine.execSnapshotResponse p index body s
  | .witnessReceive p eMax eMaxC recs => Sys2Proof.Machine.execWitnessReceive p eMax eMaxC recs s
  | .ctrlBlockSend p => Sys2Proof.Machine.execCtrlBlockSend p s
  | .echoRequest p => Sys2Proof.Machine.execEchoRequest p s
  | .snapRequest p => Sys2Proof.Machine.execSnapRequest p s
  | .barrierRequest p => Sys2Proof.Machine.execBarrierRequest p s
  | .resetRequest p => Sys2Proof.Machine.execResetRequest p s
  | .echoTimeout p => Sys2Proof.Machine.execEchoTimeout p s
  | .barrierTimeout p => Sys2Proof.Machine.execBarrierTimeout p s
  | .censusTimeout p => Sys2Proof.Machine.execCensusTimeout p s
  | .censusRetry p => Sys2Proof.Machine.execCensusRetry p s
  | .recalRound p => Sys2Proof.Machine.execRecalRound p s
  | .prtFrmCntClr p => Sys2Proof.Machine.execPrtFrmCntClr p s
  | .portDueTick p residue => Sys2Proof.Machine.execPortDueTick p residue s
  | .rankStart n residue => Sys2Proof.Machine.execRankStart n residue s
  | .selectStart n residue => Sys2Proof.Machine.execSelectStart n residue s
  | .placeStart n residue => Sys2Proof.Machine.execPlaceStart n residue s
  | .levelOrderReceive dst pcLo lam lamC cur curC => Sys2Proof.Machine.execLevelOrderReceive dst pcLo lam lamC cur curC s
  | .swWindowEnd w => Sys2Proof.Machine.execSwWindowEnd w s
  | .cellLatchOut n j => Sys2Proof.Machine.execCellLatchOut n j s
  | .cellRelease n j => Sys2Proof.Machine.execCellRelease n j s
  | .aeCntClr n => Sys2Proof.Machine.execAeCntClr n s
  | .prtAudClr p => Sys2Proof.Machine.execPrtAudClr p s
  | .cueStart e j dmg => Sys2Proof.Machine.execCueStart e j dmg s
  | .eddyClear bits => Sys2Proof.Machine.execEddyClear bits s
  | .injStart mode pt => Sys2Proof.Machine.execInjStart mode pt s
  | .injStop => Sys2Proof.Machine.execInjStop s
  | .injRecordEnd => Sys2Proof.Machine.execInjRecordEnd s
  | .leCntClr e => Sys2Proof.Machine.execLeCntClr e s
  | .transferReceive w vals comps held damage => Sys2Proof.Machine.execTransferReceive w vals comps held damage s
  | .creditWaitTimeout src dst => Sys2Proof.Machine.execCreditWaitTimeout src dst s
  | .schCntClr => Sys2Proof.Machine.execSchCntClr s
  | .faultEvent word damage => Sys2Proof.Machine.execFaultEvent word damage s
  | .lullExpiry n => Sys2Proof.Machine.execLullExpiry n s
  | .clearSource n => Sys2Proof.Machine.execClearSource n s
  | .clearAll => Sys2Proof.Machine.execClearAll s
  | .inject n => Sys2Proof.Machine.execInject n s
  | .injectionFire => Sys2Proof.Machine.execInjectionFire s
  | .deblock => Sys2Proof.Machine.execDeblock s
  | .blockRequest => Sys2Proof.Machine.execBlockRequest s
  | .fltCntClr => Sys2Proof.Machine.execFltCntClr s
  | .counterAreaWrite ok => Sys2Proof.Machine.execCounterAreaWrite ok s
  | .arm => Sys2Proof.Machine.execArm s
  | .gustArmEffect => Sys2Proof.Machine.execGustArmEffect s
  | .stop => Sys2Proof.Machine.execStop s
  | .force => Sys2Proof.Machine.execForce s
  | .traceWord word => Sys2Proof.Machine.execTraceWord word s
  | .traceRowClose => Sys2Proof.Machine.execTraceRowClose s
  | .recordDeadline trace => Sys2Proof.Machine.execRecordDeadline trace s
  | .gustArmReceive => Sys2Proof.Machine.execGustArmReceive s
  | .gustFireReceive vt => Sys2Proof.Machine.execGustFireReceive vt s
  | .gstCntClr => Sys2Proof.Machine.execGstCntClr s
  | .renewSend => Sys2Proof.Machine.execRenewSend s
  | .renew m => Sys2Proof.Machine.execRenew m s
  | .status m clash => Sys2Proof.Machine.execStatus m clash s
  | .statusSend => Sys2Proof.Machine.execStatusSend s
  | .surrender m => Sys2Proof.Machine.execSurrender m s
  | .reclaim m => Sys2Proof.Machine.execReclaim m s
  | .handover m => Sys2Proof.Machine.execHandover m s
  | .ack m => Sys2Proof.Machine.execAck m s
  | .nak m => Sys2Proof.Machine.execNak m s
  | .echo m => Sys2Proof.Machine.execEcho m s
  | .echoResp m ui => Sys2Proof.Machine.execEchoResp m ui s
  | .twinEchoSend => Sys2Proof.Machine.execTwinEchoSend s
  | .partnerTimeout => Sys2Proof.Machine.execPartnerTimeout s
  | .checkpointCapture => Sys2Proof.Machine.execCheckpointCapture s
  | .checkpointReceive bytes => Sys2Proof.Machine.execCheckpointReceive bytes s
  | .checkpointTimeout => Sys2Proof.Machine.execCheckpointTimeout s
  | .leaseViewExpiry => Sys2Proof.Machine.execLeaseViewExpiry s
  | .leaseQuerySend => Sys2Proof.Machine.execLeaseQuerySend s
  | .claimDelayExpiry => Sys2Proof.Machine.execClaimDelayExpiry s
  | .claimSend => Sys2Proof.Machine.execClaimSend s
  | .enginePowerUpDone testOk => Sys2Proof.Machine.execEnginePowerUpDone testOk s
  | .restoreDone => Sys2Proof.Machine.execRestoreDone s
  | .claimStepTimeout => Sys2Proof.Machine.execClaimStepTimeout s
  | .epochLearnTimeout => Sys2Proof.Machine.execEpochLearnTimeout s
  | .claimConfirmTimeout => Sys2Proof.Machine.execClaimConfirmTimeout s
  | .reclaimHealthTimer testOk => Sys2Proof.Machine.execReclaimHealthTimer testOk s
  | .liveCapture => Sys2Proof.Machine.execLiveCapture s
  | .liveReceive bytes => Sys2Proof.Machine.execLiveReceive bytes s
  | .liveDeadline => Sys2Proof.Machine.execLiveDeadline s
  | .handingTimeout => Sys2Proof.Machine.execHandingTimeout s
  | .twnSurrenderCmd => Sys2Proof.Machine.execTwnSurrenderCmd s
  | .twnRetry => Sys2Proof.Machine.execTwnRetry s
  | .twnAbortWarm => Sys2Proof.Machine.execTwnAbortWarm s
  | .twnCntClr => Sys2Proof.Machine.execTwnCntClr s
  | .startStageBound => Sys2Proof.Machine.execStartStageBound s
  | .bankCharged c => Sys2Proof.Machine.execBankCharged c s
  | .imageCheck => Sys2Proof.Machine.execImageCheck s
  | .domainSelfTestDone pass => Sys2Proof.Machine.execDomainSelfTestDone pass s
  | .firstBoundaryPlace => Sys2Proof.Machine.execFirstBoundaryPlace s
  | .readyBlocked => Sys2Proof.Machine.execReadyBlocked s
  | .keyInsert content => Sys2Proof.Machine.execKeyInsert content s
  | .keyRemove => Sys2Proof.Machine.execKeyRemove s
  | .keyRead => Sys2Proof.Machine.execKeyRead s
  | .keyWrite => Sys2Proof.Machine.execKeyWrite s
  | .keyInvalidatePm slot => Sys2Proof.Machine.execKeyInvalidatePm slot s
  | .keyVerify b => Sys2Proof.Machine.execKeyVerify b s
  | .keyCommandDone ok => Sys2Proof.Machine.execKeyCommandDone ok s
  | .draftOpen => Sys2Proof.Machine.execDraftOpen s
  | .load => Sys2Proof.Machine.execLoad s
  | .check => Sys2Proof.Machine.execCheck s
  | .checkDone => Sys2Proof.Machine.execCheckDone s
  | .commit => Sys2Proof.Machine.execCommit s
  | .abort => Sys2Proof.Machine.execAbort s
  | .draftCommitBoundary => Sys2Proof.Machine.execDraftCommitBoundary s
  | .feedOutOfRange f v => Sys2Proof.Machine.execFeedOutOfRange f v s
  | .feedInRange f v => Sys2Proof.Machine.execFeedInRange f v s
  | .feedsLost a b => Sys2Proof.Machine.execFeedsLost a b s
  | .rideEnd f v => Sys2Proof.Machine.execRideEnd f v s
  | .holdVoltageMeasure v => Sys2Proof.Machine.execHoldVoltageMeasure v s
  | .shed => Sys2Proof.Machine.execShed s
  | .shedFeedReturn => Sys2Proof.Machine.execShedFeedReturn s
  | .pmRecordStart v => Sys2Proof.Machine.execPmRecordStart v s
  | .pmRecordDone ok => Sys2Proof.Machine.execPmRecordDone ok s
  | .tempMeasure t0 t1 t2 t3 t4 => Sys2Proof.Machine.execTempMeasure t0 t1 t2 t3 t4 s
  | .tempCutoff j => Sys2Proof.Machine.execTempCutoff j s
  | .linkDown p => Sys2Proof.Machine.execLinkDown p s
  | .linkUp p => Sys2Proof.Machine.execLinkUp p s
  | .frameReceive p f => Sys2Proof.Machine.execFrameReceive p f s
  | .prpSupervisionSend => Sys2Proof.Machine.execPrpSupervisionSend s
  | .prpPathTimeout p => Sys2Proof.Machine.execPrpPathTimeout p s
  | .orderMessage c ip d => Sys2Proof.Machine.execOrderMessage c ip d s
  | .orderApply => Sys2Proof.Machine.execOrderApply s
  | .orderLifetimeExpiry => Sys2Proof.Machine.execOrderLifetimeExpiry s
  | .netOrdRel => Sys2Proof.Machine.execNetOrdRel s
  | .statusBuild => Sys2Proof.Machine.execStatusBuild s
  | .launchFrameSend p => Sys2Proof.Machine.execLaunchFrameSend p s
  | .ringTailWrite p r tail => Sys2Proof.Machine.execRingTailWrite p r tail s
  | .frameTransmitDone p => Sys2Proof.Machine.execFrameTransmitDone p s
  | .netNtAdj v => Sys2Proof.Machine.execNetNtAdj v s
  | .ntStep hi => Sys2Proof.Machine.execNtStep hi s
  | .netNtOffset v => Sys2Proof.Machine.execNetNtOffset v s
  | .servoUpdateTimeout => Sys2Proof.Machine.execServoUpdateTimeout s
  | .netLatch => Sys2Proof.Machine.execNetLatch s
  | .netNtLoRead => Sys2Proof.Machine.execNetNtLoRead s
  | .txtsPop p => Sys2Proof.Machine.execTxtsPop p s
  | .sfpDiagRead p rx tx => Sys2Proof.Machine.execSfpDiagRead p rx tx s
  | .netCntClr => Sys2Proof.Machine.execNetCntClr s
  | .watchdogKick v => Sys2Proof.Machine.execWatchdogKick v s
  | .watchdogEnable period => Sys2Proof.Machine.execWatchdogEnable period s
  | .watchdogExpiry => Sys2Proof.Machine.execWatchdogExpiry s
  | .debugHalt c => Sys2Proof.Machine.execDebugHalt c s
  | .coreStart c => Sys2Proof.Machine.execCoreStart c s
  | .mtimecmpMatch c => Sys2Proof.Machine.execMtimecmpMatch c s
  | .plicClaim c => Sys2Proof.Machine.execPlicClaim c s
  | .plicComplete c id => Sys2Proof.Machine.execPlicComplete c id s
  | .create c t prio aff => Sys2Proof.Machine.execCreate c t prio aff s
  | .ready c t => Sys2Proof.Machine.execReady c t s
  | .block c t => Sys2Proof.Machine.execBlock c t s
  | .yield c t => Sys2Proof.Machine.execYield c t s
  | .prio c t prio => Sys2Proof.Machine.execPrio c t prio s
  | .affinity c t aff => Sys2Proof.Machine.execAffinity c t aff s
  | .delete c t => Sys2Proof.Machine.execDelete c t s
  | .dispatchAck c t idle => Sys2Proof.Machine.execDispatchAck c t idle s
  | .dmaStart n answered => Sys2Proof.Machine.execDmaStart n answered s
  | .dmaStop n h => Sys2Proof.Machine.execDmaStop n h s
  | .descriptorReturn n e after => Sys2Proof.Machine.execDescriptorReturn n e after s
  | .dmaAccessTimeout n a => Sys2Proof.Machine.execDmaAccessTimeout n a s
  | .arbModeWrite mode => Sys2Proof.Machine.execArbModeWrite mode s
  | .memGrantClr => Sys2Proof.Machine.execMemGrantClr s
  | .eccCorrected chB => Sys2Proof.Machine.execEccCorrected chB s
  | .eccUncorrectable chB a w => Sys2Proof.Machine.execEccUncorrectable chB a w s
  | .scrubPass => Sys2Proof.Machine.execScrubPass s
  | .safetySample c ins => Sys2Proof.Machine.execSafetySample c ins s
  | .resetHeld c => Sys2Proof.Machine.execResetHeld c s
  | .tripRequestLine c => Sys2Proof.Machine.execTripRequestLine c s
  | .crossLinkExchange => Sys2Proof.Machine.execCrossLinkExchange s
  | .crossCheckFail lost => Sys2Proof.Machine.execCrossCheckFail lost s
  | .offPulseTest c so => Sys2Proof.Machine.execOffPulseTest c so s
  | .offPulseVerdict c pass => Sys2Proof.Machine.execOffPulseVerdict c pass s
  | .switchBankRead c v => Sys2Proof.Machine.execSwitchBankRead c v s
  | .dischargeTimer c => Sys2Proof.Machine.execDischargeTimer c s
  | .safetyBlockLine p c => Sys2Proof.Machine.execSafetyBlockLine p c s
  | .safetyPbChunk c idx data => Sys2Proof.Machine.execSafetyPbChunk c idx data s
  | .safetyChannelPowerUp c bank => Sys2Proof.Machine.execSafetyChannelPowerUp c bank s
  | .fieldInputChange n level run => Sys2Proof.Machine.execFieldInputChange n level run s
  | .outputOverload n => Sys2Proof.Machine.execOutputOverload n s
  | .fieldSupplyLow v => Sys2Proof.Machine.execFieldSupplyLow v s
  | .fieldSupplyRecover v => Sys2Proof.Machine.execFieldSupplyRecover v s
  | .downFrameSend => Sys2Proof.Machine.execDownFrameSend s
  | .upFrameReceive f => Sys2Proof.Machine.execUpFrameReceive f s
  | .upFrameLost => Sys2Proof.Machine.execUpFrameLost s
  | .fieldDownFrameReceive f => Sys2Proof.Machine.execFieldDownFrameReceive f s
  | .fieldDownFrameLost => Sys2Proof.Machine.execFieldDownFrameLost s
  | .fioResume => Sys2Proof.Machine.execFioResume s
  | .fioOvlClr v => Sys2Proof.Machine.execFioOvlClr v s
  | .fioCntClr => Sys2Proof.Machine.execFioCntClr s
  | .safCntClr => Sys2Proof.Machine.execSafCntClr s
  | .adcStart => Sys2Proof.Machine.execAdcStart s
  | .adcStop => Sys2Proof.Machine.execAdcStop s
  | .adcCal => Sys2Proof.Machine.execAdcCal s
  | .calDone o0 o1 o2 o3 r0 r1 r2 r3 => Sys2Proof.Machine.execCalDone o0 o1 o2 o3 r0 r1 r2 r3 s
  | .jgo => Sys2Proof.Machine.execJgo s
  | .jatMatch => Sys2Proof.Machine.execJatMatch s
  | .adcSlotEnd m raw => Sys2Proof.Machine.execAdcSlotEnd m raw s
  | .adcFactorWrite m gain v => Sys2Proof.Machine.execAdcFactorWrite m gain v s
  | .adcResRead inj n => Sys2Proof.Machine.execAdcResRead inj n s
  | .shaftEdge ch a b z => Sys2Proof.Machine.execShaftEdge ch a b z s
  | .indexEdge ch => Sys2Proof.Machine.execIndexEdge ch s
  | .shfCntWrite ch v => Sys2Proof.Machine.execShfCntWrite ch v s
  | .shfCfgWrite ch v => Sys2Proof.Machine.execShfCfgWrite ch v s
  | .ssiReq ch => Sys2Proof.Machine.execSsiReq ch s
  | .ssiReadDone ch ready vt bits high => Sys2Proof.Machine.execSsiReadDone ch ready vt bits high s
  | .ssiTmEnd ch => Sys2Proof.Machine.execSsiTmEnd ch s
  | .shfAbsCfgWrite ch time v => Sys2Proof.Machine.execShfAbsCfgWrite ch time v s
  | .shfCntClr ch => Sys2Proof.Machine.execShfCntClr ch s
  | .loadAll => Sys2Proof.Machine.execLoadAll s
  | .pwmReload n => Sys2Proof.Machine.execPwmReload n s
  | .pwmOffEdge n => Sys2Proof.Machine.execPwmOffEdge n s
  | .pwmEnWrite v => Sys2Proof.Machine.execPwmEnWrite v s
  | .pwmMinoffWrite n v => Sys2Proof.Machine.execPwmMinoffWrite n v s
  | .chopperArm => Sys2Proof.Machine.execChopperArm s
  | .chopperDisarm => Sys2Proof.Machine.execChopperDisarm s
  | .armPairWrite n isT v => Sys2Proof.Machine.execArmPairWrite n isT v s
  | .pwmChopWrite v => Sys2Proof.Machine.execPwmChopWrite v s
  | .clockStop => Sys2Proof.Machine.execClockStop s
  | .canFrameReceive p f ts => Sys2Proof.Machine.execCanFrameReceive p f ts s
  | .canTxReq p m => Sys2Proof.Machine.execCanTxReq p m s
  | .canTxAbort p m cur => Sys2Proof.Machine.execCanTxAbort p m cur s
  | .canFrameSent p b start => Sys2Proof.Machine.execCanFrameSent p b start s
  | .canFrameFail p b => Sys2Proof.Machine.execCanFrameFail p b s
  | .canStateChange p rxErr txErr busOff => Sys2Proof.Machine.execCanStateChange p rxErr txErr busOff s
  | .canRec p => Sys2Proof.Machine.execCanRec p s
  | .canRecovered p => Sys2Proof.Machine.execCanRecovered p s
  | .canStaleTest p b => Sys2Proof.Machine.execCanStaleTest p b s
  | .canInit p => Sys2Proof.Machine.execCanInit p s
  | .canTimingWrite p k v => Sys2Proof.Machine.execCanTimingWrite p k v s
  | .canCntClr p => Sys2Proof.Machine.execCanCntClr p s
  | .debugResume c => Sys2Proof.Machine.execDebugResume c s
  | .railOutOfRange d => Sys2Proof.Machine.execRailOutOfRange d s
  | .fieldUpFrameSend => Sys2Proof.Machine.execFieldUpFrameSend s
  | .pmpDenial c k => Sys2Proof.Machine.execPmpDenial c k s
  | .outputAbove5vWhileOff so => Sys2Proof.Machine.execOutputAbove5vWhileOff so s
  | .pd0PowerDown => Sys2Proof.Machine.execPd0PowerDown s

end Sys2Proof.Machine
end

