-- ==== Sys2Proof/WellFormed.lean ====
section
/-! DEFINITION. Which commands a sender can form. The types of the operands hold every other bound; only the content of
an inserted key has a shape of its own. -/

namespace Sys2Proof

open Sys2Proof.Machine

/-- The operands of a command lie within the shapes the spec gives them (R518 for the content of a key). -/
def Instr.wellFormed (i : Instr) : Bool :=
  match i with
  | .keyInsert content => keyContentOk content
  | .registerWrite .. | .busError .. | .pairedValueWrite .. | .pairedComplementWrite .. | .tbVtLoRead ..
  | .pd0PowerUp .. | .timebaseLockLost | .periodBoundary | .intakeEnd .. | .emitStart .. | .marginStart ..
  | .periodMarker .. | .wordSend .. | .wordReceive .. | .creditReturn .. | .energyWindowEnd .. | .domainSwitch ..
  | .domainPowerOn .. | .domainPowerOff .. | .prtTxEnable .. | .prtTxDisable .. | .trainReq .. | .autoRetrainSet ..
  | .testModeWrite .. | .prtCntClr .. | .trainingFrame .. | .trainingStageDone .. | .trainingStageTimeout ..
  | .upDataStart .. | .prbsCheck .. | .losAssert .. | .losDeassert .. | .lolAssert .. | .freqCheck ..
  | .autoRetrainTimer .. | .commandsResume .. | .upBlockReceive .. | .rptBlockReceive .. | .echoResponse ..
  | .censusResponse .. | .barrierResponse .. | .snapshotResponse .. | .witnessReceive .. | .ctrlBlockSend ..
  | .echoRequest .. | .snapRequest .. | .barrierRequest .. | .resetRequest .. | .echoTimeout .. | .barrierTimeout ..
  | .censusTimeout .. | .censusRetry .. | .recalRound .. | .prtFrmCntClr .. | .portDueTick .. | .rankStart ..
  | .selectStart .. | .placeStart .. | .levelOrderReceive .. | .swWindowEnd .. | .cellLatchOut .. | .cellRelease ..
  | .aeCntClr .. | .prtAudClr .. | .cueStart .. | .eddyClear .. | .injStart .. | .injStop | .injRecordEnd
  | .leCntClr .. | .transferReceive .. | .creditWaitTimeout .. | .schCntClr | .faultEvent .. | .lullExpiry ..
  | .clearSource .. | .clearAll | .inject .. | .injectionFire | .deblock | .blockRequest | .fltCntClr
  | .counterAreaWrite .. | .arm | .gustArmEffect | .stop | .force | .traceWord .. | .traceRowClose
  | .recordDeadline .. | .gustArmReceive | .gustFireReceive .. | .gstCntClr | .renewSend | .renew .. | .status ..
  | .statusSend | .surrender .. | .reclaim .. | .handover .. | .ack .. | .nak .. | .echo .. | .echoResp ..
  | .twinEchoSend | .partnerTimeout | .checkpointCapture | .checkpointReceive .. | .checkpointTimeout
  | .leaseViewExpiry | .leaseQuerySend | .claimDelayExpiry | .claimSend | .enginePowerUpDone .. | .restoreDone
  | .claimStepTimeout | .epochLearnTimeout | .claimConfirmTimeout | .reclaimHealthTimer .. | .liveCapture
  | .liveReceive .. | .liveDeadline | .handingTimeout | .twnSurrenderCmd | .twnRetry | .twnAbortWarm | .twnCntClr
  | .startStageBound | .bankCharged .. | .imageCheck | .domainSelfTestDone .. | .firstBoundaryPlace | .readyBlocked
  | .keyRemove | .keyRead | .keyWrite | .keyInvalidatePm .. | .keyVerify .. | .keyCommandDone .. | .draftOpen
  | .load | .check | .checkDone | .commit | .abort | .draftCommitBoundary | .feedOutOfRange .. | .feedInRange ..
  | .feedsLost .. | .rideEnd .. | .holdVoltageMeasure .. | .shed | .shedFeedReturn | .pmRecordStart ..
  | .pmRecordDone .. | .tempMeasure .. | .tempCutoff .. | .linkDown .. | .linkUp .. | .frameReceive ..
  | .prpSupervisionSend | .prpPathTimeout .. | .orderMessage .. | .orderApply | .orderLifetimeExpiry | .netOrdRel
  | .statusBuild | .launchFrameSend .. | .ringTailWrite .. | .frameTransmitDone .. | .netNtAdj .. | .ntStep ..
  | .netNtOffset .. | .servoUpdateTimeout | .netLatch | .netNtLoRead | .txtsPop .. | .sfpDiagRead .. | .netCntClr
  | .watchdogKick .. | .watchdogEnable .. | .watchdogExpiry | .debugHalt .. | .coreStart .. | .mtimecmpMatch ..
  | .plicClaim .. | .plicComplete .. | .create .. | .ready .. | .block .. | .yield .. | .prio .. | .affinity ..
  | .delete .. | .dispatchAck .. | .dmaStart .. | .dmaStop .. | .descriptorReturn .. | .dmaAccessTimeout ..
  | .arbModeWrite .. | .memGrantClr | .eccCorrected .. | .eccUncorrectable .. | .scrubPass | .safetySample ..
  | .resetHeld .. | .tripRequestLine .. | .crossLinkExchange | .crossCheckFail .. | .offPulseTest ..
  | .offPulseVerdict .. | .switchBankRead .. | .dischargeTimer .. | .safetyBlockLine .. | .safetyPbChunk ..
  | .safetyChannelPowerUp .. | .fieldInputChange .. | .outputOverload .. | .fieldSupplyLow ..
  | .fieldSupplyRecover .. | .downFrameSend | .upFrameReceive .. | .upFrameLost | .fieldDownFrameReceive ..
  | .fieldDownFrameLost | .fioResume | .fioOvlClr .. | .fioCntClr | .safCntClr | .adcStart | .adcStop | .adcCal
  | .calDone .. | .jgo | .jatMatch | .adcSlotEnd .. | .adcFactorWrite .. | .adcResRead .. | .shaftEdge ..
  | .indexEdge .. | .shfCntWrite .. | .shfCfgWrite .. | .ssiReq .. | .ssiReadDone .. | .ssiTmEnd ..
  | .shfAbsCfgWrite .. | .shfCntClr .. | .loadAll | .pwmReload .. | .pwmOffEdge .. | .pwmEnWrite ..
  | .pwmMinoffWrite .. | .chopperArm | .chopperDisarm | .armPairWrite .. | .pwmChopWrite .. | .clockStop
  | .canFrameReceive .. | .canTxReq .. | .canTxAbort .. | .canFrameSent .. | .canFrameFail .. | .canStateChange ..
  | .canRec .. | .canRecovered .. | .canStaleTest .. | .canInit .. | .canTimingWrite .. | .canCntClr ..
  | .debugResume .. | .railOutOfRange .. | .fieldUpFrameSend | .pmpDenial .. | .outputAbove5vWhileOff ..
  | .pd0PowerDown => true

end Sys2Proof
end

