-- ==== Sys2Proof/Safety.lean ====
section
/-! DEFINITION. What counts as a sound state and a sound run, in the terms the statements use. -/

namespace Sys2Proof.Safety

open Sys2Proof.Machine

/-- The register file and the two memories are in their canonical form: addresses strictly rising, and no entry equal to
what an unlisted address reads as. -/
def tablesOk (s : State) : Bool := Sparse.wf Reg.resetAt s.regs && Memory.wf s.ram && Memory.wf s.mram

/-- Every command that waits is well formed. -/
def queueOk (s : State) : Bool := s.pending.all Instr.wellFormed

/-- A sound state. -/
def sound (s : State) : Bool := tablesOk s && queueOk s

/-- No fault and no refusal: the step answered a next state. -/
def goesOn (o : Host.Outcome State Fault Refusal) : Prop := ∃ t, o = .next t

/-- A command answers a next state that meets a condition. -/
def answers (c : Instr) (s : State) (P : State → Prop) : Prop := ∃ t, exec c s = .next t ∧ P t

/-- Every register but those named reads as before. -/
def regsBut (s t : State) (l : List Nat) : Prop := ∀ a, a ∉ l → t.rd a = s.rd a

/-- Nothing has changed but the registers named, and which of their bits hardware has set in this tick. -/
def onlyRegs (s t : State) (l : List Nat) : Prop :=
  { t with regs := s.regs, setAt := s.setAt } = s ∧ regsBut s t l ∧ ∀ a, a ∉ l → t.setNow a = s.setNow a

/-- No source is marked in TWN_SURR_MASK, so that none makes the duty surrender (R498). -/
def noMarks (s : State) : Prop := ∀ k, k < 8 → s.rd (Reg.TWN_SURR_MASK k) = 0

/-- The window through which firmware gives a command, of those that R858 ignores in an unpowered domain. -/
def windowOf (c : Instr) : Option Blk :=
  match c with
  | .busError _ _ _ => some .dsp
  | .pairedValueWrite r _ => some (r.blk)
  | .pairedComplementWrite r _ => some (r.blk)
  | .domainSwitch _ => some .sys
  | .prtTxEnable p => some (laneBlk p)
  | .prtTxDisable p => some (laneBlk p)
  | .trainReq p => some (laneBlk p)
  | .autoRetrainSet p => some (laneBlk p)
  | .testModeWrite p _ _ _ => some (laneBlk p)
  | .prtCntClr p => some (laneBlk p)
  | .echoRequest p => some (.port p)
  | .snapRequest p => some (.port p)
  | .barrierRequest p => some (.port p)
  | .resetRequest p => some (.port p)
  | .prtFrmCntClr p => some (.port p)
  | .aeCntClr n => some (.ae n)
  | .prtAudClr p => some (.port p)
  | .eddyClear _ => some (.le 0)
  | .injStart _ _ => some (.le 0)
  | .injStop => some (.le 0)
  | .leCntClr e => some (.le e)
  | .schCntClr => some .sch
  | .clearSource _ => some .flt
  | .clearAll => some .flt
  | .inject _ => some .flt
  | .deblock => some .flt
  | .blockRequest => some .flt
  | .fltCntClr => some .flt
  | .arm => some .gst
  | .stop => some .gst
  | .force => some .gst
  | .gstCntClr => some .gst
  | .twnSurrenderCmd => some .twn
  | .twnRetry => some .twn
  | .twnAbortWarm => some .twn
  | .twnCntClr => some .twn
  | .keyRead => some .key
  | .keyWrite => some .key
  | .keyInvalidatePm _ => some .key
  | .keyVerify _ => some .key
  | .draftOpen => some .drf
  | .load => some .drf
  | .check => some .drf
  | .commit => some .drf
  | .abort => some .drf
  | .netOrdRel => some .net
  | .ringTailWrite _ _ _ => some .net
  | .netNtAdj _ => some .net
  | .ntStep _ => some .net
  | .netNtOffset _ => some .net
  | .netLatch => some .net
  | .sfpDiagRead _ _ _ => some .net
  | .netCntClr => some .net
  | .watchdogKick _ => some .dsp
  | .watchdogEnable _ => some .dsp
  | .coreStart _ => some .dsp
  | .plicComplete _ _ => some .dsp
  | .create _ _ _ _ => some .dsp
  | .ready _ _ => some .dsp
  | .block _ _ => some .dsp
  | .yield _ _ => some .dsp
  | .prio _ _ _ => some .dsp
  | .affinity _ _ _ => some .dsp
  | .delete _ _ => some .dsp
  | .dispatchAck _ _ _ => some .dsp
  | .dmaStart _ _ => some .dma
  | .dmaStop _ _ => some .dma
  | .dmaAccessTimeout _ _ => some .dma
  | .arbModeWrite _ => some .mem
  | .memGrantClr => some .mem
  | .eccCorrected _ => some .mem
  | .eccUncorrectable _ _ _ => some .mem
  | .scrubPass => some .mem
  | .upFrameReceive _ => some .fio
  | .fioResume => some .fio
  | .fioOvlClr _ => some .fio
  | .fioCntClr => some .fio
  | .safCntClr => some .saf
  | .adcStart => some .adc
  | .adcStop => some .adc
  | .adcCal => some .adc
  | .jgo => some .adc
  | .adcFactorWrite _ _ _ => some .adc
  | .shaftEdge _ _ _ _ => some .shf
  | .indexEdge _ => some .shf
  | .shfCntWrite _ _ => some .shf
  | .shfCfgWrite _ _ => some .shf
  | .ssiReq _ => some .shf
  | .ssiTmEnd _ => some .shf
  | .shfAbsCfgWrite _ _ _ => some .shf
  | .shfCntClr _ => some .shf
  | .loadAll => some .pwm
  | .pwmEnWrite _ => some .pwm
  | .pwmMinoffWrite _ _ => some .pwm
  | .chopperArm => some .pwm
  | .chopperDisarm => some .pwm
  | .armPairWrite _ _ _ => some .pwm
  | .pwmChopWrite _ => some .pwm
  | .clockStop => some .pwm
  | .canTxReq p _ => some (.can p)
  | .canTxAbort p _ _ => some (.can p)
  | .canRec p => some (.can p)
  | .canStaleTest p _ => some (.can p)
  | .canInit p => some (.can p)
  | .canTimingWrite p _ _ => some (.can p)
  | .canCntClr p => some (.can p)
  | .pmpDenial _ _ => some .dsp
  | .cellLatchOut n _ => some (.ae n)
  | .cellRelease n _ => some (.ae n)
  | _ => none

end Sys2Proof.Safety
end

