-- ==== Sys2Proof/Certificates/Slice0/Obligations.lean ====
section
/-! DEFINITION. The statements about the part, for the provers. -/

open Sys2Proof Sys2Proof.Machine Sys2Proof.Safety

/-- For every command c, every list of waiting commands and every state s, one step of s with c at the front of its
queue is exec c on s with the queue's rest. The queue is the model's own form for commands that wait (log entry 1). -/
def Obligations.StepRunsTheFrontCommand : Prop :=
  ∀ (c : Instr) (rest : List Instr) (s : State),
    step { s with pending := c :: rest } = exec c { s with pending := rest }

/-- With no command waiting, a step answers a next state in which the reference has counted one tick more, VT is one
more where it counts (from the timebase's first lock on) and unchanged before, and the queue is still empty; the
memories, the lanes, the fault collector and the schedule are unchanged. That an idle step is a tick is the model's
choice (log entry 2). -/
def Obligations.IdleStepIsOneTick : Prop :=
  ∀ s : State, s.pending = [] → ∃ t, step s = .next t ∧ t.pending = [] ∧ t.sys.up = s.sys.up + 1 ∧
    t.tb.vt = (if s.sys.going then s.tb.vt + 1 else s.tb.vt) ∧ t.ram = s.ram ∧ t.mram = s.mram ∧ t.lanes = s.lanes ∧
    t.flt = s.flt ∧ t.sch = s.sch

/-- For every state s, if a step of s answers a next state, then the commands that wait afterwards are those that waited
before without the front one: no command adds, drops or reorders another. The queue is the model's own (log entry
1). -/
def Obligations.StepTakesExactlyTheFrontCommand : Prop :=
  ∀ s t : State, step s = .next t → t.pending = s.pending.tail

/-- For every state s whose register file, RAM and key memory are in canonical form (addresses strictly rising, no entry
equal to what an unlisted address reads as), if a step of s answers a next state, then that state's register file,
RAM and key memory are in canonical form. The form is the model's own (log entry 3). -/
def Obligations.StepKeepsTheTablesCanonical : Prop :=
  ∀ s t : State, tablesOk s = true → step s = .next t → tablesOk t = true

/-- After reset the register file and both memories are in canonical form and no command waits; every register holds the
reset value of its table (zero where an address names no register); valve time is 0, the timebase is not locked, no
period runs, no memory byte is listed, no key is in its slot. What the spec gives no reset value for is in log entry
4. -/
def Obligations.ResetTablesAreCanonical : Prop :=
  sound State.reset = true ∧ State.reset.pending = [] ∧ (∀ a, State.reset.rd a = Reg.resetAt a) ∧
    State.reset.tb.vt = 0 ∧ State.reset.tb.lock = false ∧ State.reset.tb.run = false ∧ State.reset.ram = [] ∧
    State.reset.mram = [] ∧ State.reset.key.present = false

/-- For every command whose operands have the shapes the spec gives them and for every state, exec answers a next state:
no command is refused and ordinary data end no run. Only a KEY_INSERT whose content has no shape a key can have
stops, with the fault illFormed, and only into an empty slot. -/
def Obligations.EveryWellFormedCommandIsAnswered : Prop :=
  (∀ (c : Instr) (s : State), c.wellFormed = true → ∃ t, exec c s = .next t) ∧
  (∀ (content : List (Nat × BitVec 8)) (s : State), Instr.wellFormed (.keyInsert content) = false →
    exec (.keyInsert content) s = if s.key.present then .next s else .fault .illFormed)

/-- For every command that firmware gives through a register window (and the events that only a powered block sees), if
the domain of that window's block is unpowered, exec answers the state unchanged: no register, no flag, no
PAIR_REFUSED and no CMD_REFUSED is set. A register of such a window reads as zero. -/
def Obligations.UnpoweredWindowIgnoresCommands : Prop :=
  (∀ (c : Instr) (s : State) (b : Blk), windowOf c = some b → s.open b = false → exec c s = .next s) ∧
  (∀ (s : State) (a : Nat) (b : Blk) (off : Nat), Machine.windowOf a = some (b, off) → s.open b = false → s.readReg a = 0)

/-- For every state, address and value: after the register file takes the value the register reads as it, every other
register reads as before, every other part of the state is unchanged, and a register file in canonical form stays
so. -/
def Obligations.RegisterFileReadsWhatWasWritten : Prop :=
  ∀ (s : State) (a : Nat) (v : Word), (s.wr a v).rd a = v ∧ onlyRegs s (s.wr a v) [a] ∧
    (Sparse.wf Reg.resetAt s.regs = true → Sparse.wf Reg.resetAt (s.wr a v).regs = true)

/-- In a powered window a write to the value half of a paired register does not change any register: the value is held
for that register until its complement is written, in place of any value held before; values held for other
registers stay. -/
def Obligations.PairedValueIsHeld : Prop :=
  ∀ (r : PairReg) (v : Word) (s : State), s.open r.blk = true →
    answers (.pairedValueWrite r v) s fun t => t.heldAt r.addr = some v ∧
      (∀ a, a ≠ r.addr → t.heldAt a = s.heldAt a) ∧ { t with held := s.held } = s

/-- In a powered window a write to the complement half of a paired register for which no value is held is refused: the
state changes in nothing but the sticky PAIR_REFUSED flag of the register's block, which is set. -/
def Obligations.PairedComplementWithoutValueIsRefused : Prop :=
  ∀ (r : PairReg) (c : Word) (s : State) (a i : Nat), s.open r.blk = true → s.heldAt r.addr = none →
    r.blk.pairRefused = some (a, i) →
    answers (.pairedComplementWrite r c) s fun t => t.rd a = s.rd a ||| bitIf true i ∧ onlyRegs s t [a]

/-- In a powered window, with a value v held for a paired register: a write of the complement half with the exact
complement of v ends the hold and lets the pair take effect with what it sets going (reserved bits of the value do
not count, log entry 20); a write of any other value discards the held value, changes no register but the block's
PAIR_REFUSED flag, which is set, and so keeps the previous pair. -/
def Obligations.PairedComplementTakesOrRefuses : Prop :=
  ∀ (r : PairReg) (v c : Word) (s : State) (a i : Nat), s.open r.blk = true → s.heldAt r.addr = some v →
    r.blk.pairRefused = some (a, i) →
    (c = ~~~ v → exec (.pairedComplementWrite r c) s =
      .next ((s.setHeld r.addr none).pairTakes r (v &&& ((rowAt r.addr).map RegRow.wmask).getD 0))) ∧
    (c ≠ ~~~ v → answers (.pairedComplementWrite r c) s fun t => t.heldAt r.addr = none ∧
      t.rd a = s.rd a ||| bitIf true i ∧ (∀ b, b ≠ a → t.rd b = s.rd b) ∧
      { t with regs := s.regs, held := s.held, setAt := s.setAt } = s)

/-- REGISTER_WRITE to an aligned address of a powered window: a hole or a read-only register ignores it; in a
write-1-to-clear register exactly the bits written as 1 (reserved bits aside) are cleared, but those that hardware
has set in this very tick, which stay set outside the timebase's window; a register of the timebase, the Draft or
the key window that is written freely takes the value with its reserved bits zero. Nothing else changes but the
answer of the bus, which is no error. To SRAM or DRAM channel B a byte, a halfword, a word or a doubleword is stored
as its bytes, little-endian, at the address. -/
def Obligations.RegisterWriteFollowsItsAccessCode : Prop :=
  ∀ (w : Initiator) (a : BitVec 64) (v : Word) (s : State),
    (∀ (b : Blk) (off : Nat), Machine.windowOf a.toNat = some (b, off) → a.toNat % 4 = 0 → s.open b = true →
      (b.row off = none → exec (.registerWrite w a (.word v)) s = .next { s with bus := { s.bus with err := false } }) ∧
      (∀ r, b.row off = some r → r.acc = .ro →
        exec (.registerWrite w a (.word v)) s = .next { s with bus := { s.bus with err := false } }) ∧
      (∀ r, b.row off = some r → r.acc = .w1c → answers (.registerWrite w a (.word v)) s fun t =>
        t.rd a.toNat = s.rd a.toNat &&& ~~~ (v &&& r.wmask &&& ~~~ (if b = .tb then 0 else s.setNow a.toNat)) ∧ regsBut s t [a.toNat] ∧ t.bus.err = false ∧
        { t with regs := s.regs, bus := s.bus } = s) ∧
      (∀ r, b.row off = some r → r.acc = .rw → (b = .tb ∨ b = .drf ∨ b = .key) →
        answers (.registerWrite w a (.word v)) s fun t => t.rd a.toNat = v &&& r.wmask ∧ regsBut s t [a.toNat] ∧
          { t with regs := s.regs, bus := s.bus } = s)) ∧
    (∀ x : BusVal, Machine.windowOf a.toNat = none → (inSram a.toNat ∨ inDramB a.toNat) →
      exec (.registerWrite w a x) s = .next (State.busWrite { s with bus := { s.bus with err := false } } a.toNat x.bytes)) ∧
    (∀ u : Word, BusVal.bytes (.dword (v ++ u)) = wordBytes u ++ wordBytes v)

/-- With PD1 powered, BUS_ERROR of an access that the address map lets succeed where it lies changes nothing (log entry
128). Of one that may fail: to an initiator that is no core it sets the bus error and changes nothing else; to a
core it records the access fault exception that matches the access, and except for an LR, SC or AMO to a window or
to capture memory it sets the bus error and raises FS16. A REGISTER_WRITE to an address outside every window and
memory range, or into a window unaligned or of another width than 32 bits, is such an access. -/
def Obligations.BusErrorReachesTheInitiator : Prop :=
  (∀ (w : Initiator) (k : AccKind) (a : BitVec 64) (s : State), s.accessFails k a.toNat = false →
    exec (.busError w k a) s = .next s) ∧
  (∀ (k : AccKind) (a : BitVec 64) (s : State), s.powered 1 = true → s.accessFails k a.toNat = true →
    exec (.busError .other k a) s = .next { s with bus := { s.bus with err := true } }) ∧
  (∀ (c : Fin 8) (k : AccKind) (a : BitVec 64) (s : State), s.powered 1 = true → s.accessFails k a.toNat = true →
    Sparse.get (fun _ => none) (s.coreFault c k).dsp.excs c = some k.fault ∧ ((s.coreFault c k).scCore c).mode = .machine ∧
    (k.isAtomic = true ∧ ((Machine.windowOf a.toNat).isSome ∨ inCaptureMem a.toNat) →
      exec (.busError (.core c) k a) s = .next (s.coreFault c k)) ∧
    (k.isAtomic = false ∨ ((Machine.windowOf a.toNat).isNone ∧ inCaptureMem a.toNat = false) →
      exec (.busError (.core c) k a) s = .next (State.raise { s.coreFault c k with bus := { s.bus with err := true } } 16))) ∧
  (∀ (w : Initiator) (a : BitVec 64) (v : BusVal) (s : State),
    ((∃ b off, Machine.windowOf a.toNat = some (b, off) ∧ (a.toNat % 4 ≠ 0 ∨ ∀ x, v ≠ .word x)) ∨
      (Machine.windowOf a.toNat = none ∧ ¬ (inSram a.toNat ∨ inDramB a.toNat) ∧ ¬ inRom a.toNat)) →
    exec (.registerWrite w a v) s = .next (s.busFault w .store a.toNat))

/-- With PD1 powered, a read of TB_VT_LO returns the low 32 bits of VT, latches the upper 32 bits of the same VT value
into TB_VT_HI and changes nothing else. The same read through DSP_MTIME_LO latches DSP_MTIME_HI. -/
def Obligations.ReadOfVtLowLatchesVtHigh : Prop :=
  ∀ (mtime : Bool) (s : State), s.powered 1 = true →
    answers (.tbVtLoRead mtime) s fun t => t.bus.data = s.tb.vt.setWidth 32 ∧ t.bus.err = false ∧
      t.rd (if mtime then Reg.DSP_MTIME_HI else Reg.TB_VT_HI) = (s.tb.vt >>> 32).setWidth 32 ∧
      regsBut s t [if mtime then Reg.DSP_MTIME_HI else Reg.TB_VT_HI] ∧ { t with regs := s.regs, bus := s.bus } = s

/-- For every command that clears the counters of a block by a write of 1 to bit 0, in a powered window: each counter
that the rule names reads zero afterwards, every other register reads as before and nothing else changes, but that
the collector's counters, written anew, no longer fail their self-check (R412, log entry 116). -/
def Obligations.CountClearsZeroTheirCounters : Prop :=
  (∀ (p : Fin 13) (s : State), s.open (laneBlk p) = true → answers (.prtCntClr p) s fun t =>
    (∀ a ∈ ([Reg.PRT_PHERR_MAX p, Reg.PRT_LOS_CNT p, Reg.PRT_LOL_CNT p, Reg.PRT_TRAIN_CNT p, Reg.PRT_PRBS_ERR p] : List Nat), t.rd a = 0) ∧ onlyRegs s t [Reg.PRT_PHERR_MAX p, Reg.PRT_LOS_CNT p, Reg.PRT_LOL_CNT p, Reg.PRT_TRAIN_CNT p, Reg.PRT_PRBS_ERR p]) ∧
  (∀ (p : Fin 12) (s : State), s.open (.port p) = true → answers (.prtFrmCntClr p) s fun t =>
    (∀ a ∈ ([Reg.PRT_BLK_DISC p, Reg.PRT_BLK_STALE p, Reg.PRT_ECHO_TOT p] : List Nat), t.rd a = 0) ∧ onlyRegs s t [Reg.PRT_BLK_DISC p, Reg.PRT_BLK_STALE p, Reg.PRT_ECHO_TOT p]) ∧
  (∀ (p : Fin 12) (s : State), s.open (.port p) = true → answers (.prtAudClr p) s fun t =>
    (∀ a ∈ ([Reg.PRT_AUD_FAIL p] : List Nat), t.rd a = 0) ∧ onlyRegs s t [Reg.PRT_AUD_FAIL p]) ∧
  (∀ (n : Fin 12) (s : State), s.open (.ae n) = true → answers (.aeCntClr n) s fun t =>
    (∀ a ∈ ([Reg.AE_CNT_FRAC n, Reg.AE_CNT_DWELL n, Reg.AE_CNT_DIR n, Reg.AE_CNT_NOORD n] : List Nat), t.rd a = 0) ∧ onlyRegs s t [Reg.AE_CNT_FRAC n, Reg.AE_CNT_DWELL n, Reg.AE_CNT_DIR n, Reg.AE_CNT_NOORD n]) ∧
  (∀ (e : Fin 4) (s : State), s.open (.le e) = true → answers (.leCntClr e) s fun t =>
    (∀ a ∈ ([Reg.LE_CNT_NUM e, Reg.LE_CNT_PAIR e, Reg.LE_CNT_LVCLAMP e] : List Nat), t.rd a = 0) ∧ onlyRegs s t [Reg.LE_CNT_NUM e, Reg.LE_CNT_PAIR e, Reg.LE_CNT_LVCLAMP e]) ∧
  (∀ (s : State), s.open (.flt) = true → answers (.fltCntClr) s fun t =>
    (∀ a ∈ ([Reg.FLT_CNT_EVT, Reg.FLT_CNT_SQUALL, Reg.FLT_CNT_LOCK] : List Nat), t.rd a = 0) ∧
    t.flt = { s.flt with selfBad := false } ∧
    onlyRegs { s with flt := t.flt } t [Reg.FLT_CNT_EVT, Reg.FLT_CNT_SQUALL, Reg.FLT_CNT_LOCK]) ∧
  (∀ (s : State), s.open (.gst) = true → answers (.gstCntClr) s fun t =>
    (∀ a ∈ ([Reg.GST_CNT_LATE, Reg.GST_CNT_DUP, Reg.GST_CNT_PAIR, Reg.GST_MASK_VIOL] : List Nat), t.rd a = 0) ∧ onlyRegs s t [Reg.GST_CNT_LATE, Reg.GST_CNT_DUP, Reg.GST_CNT_PAIR, Reg.GST_MASK_VIOL]) ∧
  (∀ (s : State), s.open (.twn) = true → answers (.twnCntClr) s fun t =>
    (∀ a ∈ ([Reg.TWN_CKPT_CNT] : List Nat), t.rd a = 0) ∧ onlyRegs s t [Reg.TWN_CKPT_CNT]) ∧
  (∀ (s : State), s.open (.mem) = true → answers (.memGrantClr) s fun t =>
    (∀ a ∈ (((List.range 29).map Reg.MEM_GRANTS) : List Nat), t.rd a = 0) ∧ onlyRegs s t ((List.range 29).map Reg.MEM_GRANTS)) ∧
  (∀ (s : State), s.open (.fio) = true → answers (.fioCntClr) s fun t =>
    (∀ a ∈ ([Reg.FIO_LINK_CNT, Reg.FIO_LINK_FLD] : List Nat), t.rd a = 0) ∧ onlyRegs s t [Reg.FIO_LINK_CNT, Reg.FIO_LINK_FLD]) ∧
  (∀ (s : State), s.open (.saf) = true → answers (.safCntClr) s fun t =>
    (∀ a ∈ ([Reg.SAF_CNT, Reg.SAF_TEST_CNT] : List Nat), t.rd a = 0) ∧ onlyRegs s t [Reg.SAF_CNT, Reg.SAF_TEST_CNT]) ∧
  (∀ (p : Fin 2) (s : State), s.open (.can p) = true → answers (.canCntClr p) s fun t =>
    (∀ a ∈ ([Reg.CAN_RX_NOMATCH p, Reg.CAN_RX_LOST p] : List Nat), t.rd a = 0) ∧ onlyRegs s t [Reg.CAN_RX_NOMATCH p, Reg.CAN_RX_LOST p]) ∧
  (∀ (ch : Fin 2) (s : State), s.open (.shf) = true → answers (.shfCntClr ch) s fun t =>
    (∀ a ∈ ([Reg.SHF_ERR ch] : List Nat), t.rd a = 0) ∧ onlyRegs s t [Reg.SHF_ERR ch]) ∧
  (∀ s : State, s.open .sch = true → answers .schCntClr s fun t => t.rd Reg.SCH_SLACK = 0x7FFF7FFF ∧ t.sch.xingMax = [] ∧
    (∀ a ∈ [Reg.SCH_MISS_PER, Reg.SCH_SLACK_AT, Reg.SCH_XING_MAX, Reg.SCH_XING_OVER, Reg.SCH_STALE] ++
      (List.range 4).map Reg.SCH_LE_MISS ++ (List.range 12).map Reg.SCH_ARM_MISS, t.rd a = 0) ∧
    regsBut s t (Reg.SCH_SLACK :: [Reg.SCH_MISS_PER, Reg.SCH_SLACK_AT, Reg.SCH_XING_MAX, Reg.SCH_XING_OVER, Reg.SCH_STALE] ++
      (List.range 4).map Reg.SCH_LE_MISS ++ (List.range 12).map Reg.SCH_ARM_MISS) ∧
    { t with regs := s.regs, sch := s.sch } = s) ∧
  (∀ s : State, s.open .net = true → answers .netCntClr s fun t =>
    (∀ a ∈ [Reg.NET_ORD_CNT, Reg.NET_ORD_DUP, Reg.NET_STAT_CNT, Reg.NET_LATE_CNT, Reg.NET_PRP_DUP, Reg.NET_PRP_WRONG],
      t.rd a = 0) ∧ t.field Reg.NET_ORD_REF 16 16 = 0 ∧
    onlyRegs s t [Reg.NET_ORD_REF, Reg.NET_ORD_CNT, Reg.NET_ORD_DUP, Reg.NET_STAT_CNT, Reg.NET_LATE_CNT, Reg.NET_PRP_DUP,
      Reg.NET_PRP_WRONG])

/-- With b(0) placed and periods running, PERIOD_BOUNDARY answers a next state in which PC is one more (0xFFFF_FFFF
wraps to 0), the period in progress begins at the boundary that was next, its intake has not ended and the next
boundary lies one P later. At b(0) itself PC keeps the value it was placed with and RUN becomes 1. INTAKE_END, in a
period whose intake has not ended, ends it and leaves PC and the boundaries as they are. -/
def Obligations.PeriodBoundaryCountsThePeriods : Prop :=
  (∀ s : State, s.tb.placed = true → s.tb.run = true → answers .periodBoundary s fun t =>
    t.tb.pc = s.tb.pc + 1 ∧ t.tb.run = true ∧ t.tb.bound = s.tb.nextB ∧ t.tb.intakeDone = false ∧
    t.tb.nextB = s.tb.nextB + BitVec.ofNat 64 s.tb.period) ∧
  (∀ s : State, s.tb.placed = true → s.tb.run = false → answers .periodBoundary s fun t =>
    t.tb.pc = s.tb.pc ∧ t.tb.run = true ∧ t.tb.bound = s.tb.nextB ∧ t.tb.intakeDone = false) ∧
  (∀ (s : State) (bad : IntakeDamage), s.tb.run = true → s.tb.intakeDone = false → answers (.intakeEnd bad) s fun t =>
    t.tb.intakeDone = true ∧ t.tb.pc = s.tb.pc ∧ t.tb.bound = s.tb.bound ∧ t.tb.nextB = s.tb.nextB)

/-- While no period runs, with PD1 powered, TB_STAT reads RUN = 0 and PHASE = 11. -/
def Obligations.PhaseReadsAsItsOffsets : Prop :=
  ∀ s : State, s.powered 1 = true → s.tb.run = false →
    (s.readReg Reg.TB_STAT).getLsbD 1 = false ∧ fieldOf (s.readReg Reg.TB_STAT) 2 2 = 3

/-- For a port in use and powered while periods run, EMIT_START comes at b(k) + E_START and starts its frame on the
first block boundary from then on. Where the port planned a frame and frames are due: without a Block that frame is
sent, under a Block the BLOCK_ARM frame of state 00 for every cell is sent in its place. The frame sent carries PC +
1, the low half of the next boundary as its base, the epoch in effect, the commands planned and that block boundary;
it becomes the newest frame sent. The first emit of a takeover is a cause for a record. MARGIN_START ends the port's
emit phase at b(k) + E_END: nothing stays planned. -/
def Obligations.FrameGoesOutAtEmitStart : Prop :=
  (∀ (p : Fin 12) (kind : SendKind) (cs : CmdSet) (s u : State), s.tb.run = true → s.inUse p = true → s.open (.port p) = true →
    u = (s.advanceTo s.emitAt).injRead → (u.port p).plan = .send kind cs → u.framesDue p = true →
    exec (.emitStart p) s = .next
      (if u.takeoverEmit.blockAt p u.takeoverEmit.emitAt then u.takeoverEmit.sendFrame p .blockArm (u.takeoverEmit.blockFrame p)
       else u.takeoverEmit.sendFrame p kind cs)) ∧
  (∀ (p : Nat) (kind : SendKind) (cs : CmdSet) (s : State), ∃ f, ((s.sendFrame p kind cs).port p).sent.head? = some f ∧
    f.pc = s.tb.pc + 1 ∧ f.xaBase = s.tb.nextB.setWidth 16 ∧ f.epoch = s.epoch ∧ f.cs = cs ∧
    f.at_ = nextBlock (s.tickAt s.sec.eStart) ∧
    (f.blockArm = true ↔ kind = .blockArm)) ∧
  (∀ (p : Fin 12) (s : State), s.tb.run = true → s.inUse p = true → s.open (.port p) = true →
    answers (.marginStart p) s fun t => (t.port p).plan = .none ∧ (∀ q, q ≠ (p : Nat) → t.port q = s.port q) ∧
      t.regs = s.regs ∧ t.ram = s.ram ∧ t.flt = s.flt)

/-- A marker whose VT field lies within the bound of its channel (4 ticks, 6 into a memory island) of a powered island's
replica changes nothing; the timebase island never raises a replica fault. A marker further off reloads the replica
from the marker, sets the island's bit in TB_REPLICA_ERR (or TB_REPLICA_ERR_HI for islands 32 and 33) and raises the
replica fault FS8. -/
def Obligations.PeriodMarkerChecksTheReplica : Prop :=
  ∀ (i : Fin 34) (vt : BitVec 16) (s : State), s.powered (islandDomain i) = true →
    ((i.val = 0 ∨ (timeDiff ((s.replicaTime i).setWidth 16) vt).natAbs ≤ (if i.val = 2 ∨ i.val = 3 then 6 else 4)) →
      exec (.periodMarker i vt) s = .next s) ∧
    (i.val ≠ 0 → (if i.val = 2 ∨ i.val = 3 then 6 else 4) < (timeDiff ((s.replicaTime i).setWidth 16) vt).natAbs →
      ∃ u : State, Sparse.get (fun _ => 0) u.tb.replica i = BitVec.ofInt 64 (timeDiff vt (s.now.setWidth 16)) ∧
        u.rd (if i.val < 32 then Reg.TB_REPLICA_ERR else Reg.TB_REPLICA_ERR_HI) =
          s.rd (if i.val < 32 then Reg.TB_REPLICA_ERR else Reg.TB_REPLICA_ERR_HI) ||| bitIf true (i.val % 32) ∧
        { u with tb := s.tb, regs := s.regs, setAt := s.setAt } = s ∧ exec (.periodMarker i vt) s = .next (u.raise 8))

/-- Over a channel with both ends powered WORD_SEND takes a credit and puts the word at the end of the queue while the
credit count is above zero; at zero the sender keeps the word, and towards an unpowered end nothing changes.
WORD_RECEIVE of a word that is no marker and no event for the collector takes it from the head of the queue and
returns one credit; a broken pair is raised against the receiving island, and KIND 111 or an endpoint the island
does not implement discards the word and raises the tag fault FS11. CREDIT_RETURN over such a channel raises the
sender's count by one; one that would raise it above D is discarded and raises the credit fault FS10; with an end
unpowered no credit moves. A word held for more than 4 ticks raises FS54. -/
def Obligations.CreditsGovernTheChannel : Prop :=
  (∀ (src dst : Fin 34) (w : HWord) (s : State), s.chanOn (chanKey src dst) = true →
    ((s.chan (chanKey src dst)).used < chanD (chanKey src dst) → exec (.wordSend src dst w) s = .next (s.setChan (chanKey src dst)
      { s.chan (chanKey src dst) with
        used := (s.chan (chanKey src dst)).used + 1, words := (s.chan (chanKey src dst)).words ++ [w], waitSince := none })) ∧
    (¬ (s.chan (chanKey src dst)).used < chanD (chanKey src dst) → answers (.wordSend src dst w) s fun t =>
      (t.chan (chanKey src dst)).words = (s.chan (chanKey src dst)).words ∧
      (t.chan (chanKey src dst)).used = (s.chan (chanKey src dst)).used)) ∧
  (∀ (src dst : Fin 34) (w : HWord) (s : State), s.chanOn (chanKey src dst) = false → exec (.wordSend src dst w) s = .next s) ∧
  (∀ (src dst : Fin 34) (w : HWord) (rest : List HWord) (s : State), (s.chan (chanKey src dst)).words = w :: rest →
    s.powered (islandDomain dst) = true → w.kind ≠ 4 → w.kind ≠ 6 → w.kind ≠ 7 → s.endpointOk dst w.ep.toNat = true →
    ∃ u : State, u = s.setChan (chanKey src dst) { s.chan (chanKey src dst) with
        words := rest, returning := (s.chan (chanKey src dst)).returning + 1
        pend := (pairStep (s.chan (chanKey src dst)).pend w).2, left := leftAfter (s.chan (chanKey src dst)).left w } ∧
      exec (.wordReceive src dst) s = .next (if (pairStep (s.chan (chanKey src dst)).pend w).1 then u.integrity dst else u)) ∧
  (∀ (src dst : Fin 34) (w : HWord) (rest : List HWord) (s : State), (s.chan (chanKey src dst)).words = w :: rest →
    s.powered (islandDomain dst) = true → (w.kind = 7 ∨ s.endpointOk dst w.ep.toNat = false) →
    ∃ u : State, u = s.setChan (chanKey src dst) { s.chan (chanKey src dst) with
        words := rest, returning := (s.chan (chanKey src dst)).returning + 1, pend := none } ∧
      exec (.wordReceive src dst) s =
        .next (State.raise (if (pairStep (s.chan (chanKey src dst)).pend w).1 then u.integrity dst else u) 11)) ∧
  (∀ (src dst : Fin 34) (s : State), s.chanOn (chanKey src dst) = false → exec (.creditReturn src dst) s = .next s) ∧
  (∀ (src dst : Fin 34) (s : State), s.chanOn (chanKey src dst) = true →
    ((s.chan (chanKey src dst)).used = 0 → exec (.creditReturn src dst) s = .next (s.raise 10)) ∧
    ((s.chan (chanKey src dst)).used ≠ 0 → exec (.creditReturn src dst) s = .next (s.setChan (chanKey src dst)
      { s.chan (chanKey src dst) with
        used := (s.chan (chanKey src dst)).used - 1, returning := (s.chan (chanKey src dst)).returning - 1 }))) ∧
  (∀ (src dst : Fin 34) (t : BitVec 64) (s : State), (s.chan (chanKey src dst)).waitSince = some t →
    exec (.creditWaitTimeout src dst) s = .next (((s.advanceTo (t + 5)).setBit Reg.SCH_EVT 4).raiseOnce 54))

/-- On a channel: a PAIR_V followed by anything but a PAIR_C with its endpoint is a pair break; a PAIR_C without a
preceding PAIR_V is a pair break; a PAIR_V followed by a PAIR_C with its endpoint breaks exactly when the two are no
complements; a PAIR_V with nothing waiting waits; any other word with nothing waiting breaks nothing and leaves
nothing waiting. -/
def Obligations.PairRuleOfAChannel : Prop :=
  ∀ w : HWord,
    (∀ (ep : BitVec 5) (v : BitVec 64), (¬ (w.kind = 2 ∧ w.ep = ep)) → (pairStep (some (ep, v)) w).1 = true) ∧
    (w.kind = 2 → (pairStep none w).1 = true) ∧
    (∀ (v : BitVec 64), w.kind = 2 → ((pairStep (some (w.ep, v)) w).1 = true ↔ w.data ≠ ~~~ v)) ∧
    (w.kind = 1 → pairStep none w = (false, some (w.ep, w.data))) ∧
    (w.kind ≠ 1 → w.kind ≠ 2 → pairStep none w = (false, none))

/-- When W_E periods of an arm's window have been counted, ENERGY_WINDOW_END starts a new window from the stored energy
now; a window with more than 8 periods of missing data of one cell or of the arm current gives no verdict and
increments ENERGY_VOID; otherwise the arm's energy fault is raised exactly when the difference exceeds the band. A
residue fault in the verdict discards it and is raised against the arm's engine (the discarded verdict is the
model's reading, log entry 110). -/
def Obligations.EnergyWindowGivesItsVerdict : Prop :=
  ∀ (n : Fin 12) (s : State), s.sys.cfg.par.energy.wE ≤ (s.energy n).count →
    exec (.energyWindowEnd ⟨n, true⟩) s = .next (State.integrity (s.setEnergy n (s.energy n).next) (6 + n)) ∧
    ((s.energy n).void = true →
      exec (.energyWindowEnd ⟨n, false⟩) s = .next ((s.setEnergy n (s.energy n).next).bump (Reg.TB_ENERGY_VOID n))) ∧
    ((s.energy n).void = false → (s.energy n).fails s.sys.cfg.par.energy = true →
      exec (.energyWindowEnd ⟨n, false⟩) s = .next ((s.setEnergy n (s.energy n).next).raise (160 + n))) ∧
    ((s.energy n).void = false → (s.energy n).fails s.sys.cfg.par.energy = false →
      exec (.energyWindowEnd ⟨n, false⟩) s = .next (s.setEnergy n (s.energy n).next)) ∧
    (s.energy n).next.count = 0 ∧ (s.energy n).next.eStart = some (s.energy n).eNow

/-- PD0_POWER_UP of a module without power: the timebase locks, VT is 0 and counts, start-up begins at stage 1, the slot
strap is taken and SC0 has started. PD0_POWER_DOWN while a feed or the bank supplies the module changes nothing (log
entry 113); otherwise the key keeps its place in the slot and its bytes, but for the slot of a record in progress,
whose extent is then open (log entry 146), the fuses and the fused public key keep their values, the queue stays,
nothing counts any more, and every memory of the part is empty. TIMEBASE_LOCK_LOST while locked: TB_LOCK falls and
FS7 is raised. -/
def Obligations.PowerOfTheModule : Prop :=
  (∀ (b : Bool) (s : State), s.sys.going = false → answers (.pd0PowerUp b) s fun t =>
    t.tb.vt = 0 ∧ t.tb.lock = true ∧ t.sys.going = true ∧ t.sys.up = 0 ∧ t.sys.stage = 1 ∧ t.twn.secondary = b ∧
    t.dsp.started = 1 ∧ t.mram = s.mram ∧ t.ram = s.ram) ∧
  (∀ s : State, s.supplied = true → exec .pd0PowerDown s = .next s) ∧
  (∀ s : State, s.supplied = false → answers .pd0PowerDown s fun t =>
    (s.sys.pm = none ∨ s.key.present = false → t.mram = s.mram) ∧
    (∀ r, s.sys.pm = some r → s.key.present = true →
      t.mram = (s.keyTorn (keySlotAt r.slot) (512 + r.body.length)).mram) ∧ t.key.present = s.key.present ∧ t.pending = s.pending ∧
    t.rd Reg.KEY_FUSE = s.rd Reg.KEY_FUSE ∧ t.rd (Reg.KEY_PUBKEY 7) = s.rd (Reg.KEY_PUBKEY 7) ∧ t.sys.going = false ∧
    t.tb = {} ∧ t.ram = [] ∧ t.flt = {} ∧ t.twn = {} ∧ t.lanes = [] ∧ t.key.id = none) ∧
  (∀ s : State, s.tb.lock = true →
    exec .timebaseLockLost s = .next (State.raise { s with tb := { s.tb with lock := false } } 7))

/-- A write to SYS_PD_CTL takes each domain bit PD2 to PD13 by itself: an unchanged bit does nothing, a switch firmware
may not make now sets SYS_EVT bit 2, any other switches the domain. DOMAIN_POWER_OFF of a domain that may not go off
changes nothing (log entry 113); of a powered one that may it clears its power and rail, raises no event and leaves
every other domain's power as it was; DOMAIN_POWER_ON of a powered domain whose rail was not yet good marks it good,
and PD2 to PD4 take the configuration in effect. RAIL_OUT_OF_RANGE of a powered domain outside stage 3 clears its
rail and raises FS4; in stage 3, before the rail of a used domain was good, start-up ends with result 0x15. -/
def Obligations.PowerDomainsSwitch : Prop :=
  (∀ (v : Word) (s : State), s.powered 1 = true →
    exec (.domainSwitch v) s = .next (otherDomains.foldl (fun t d => t.switchBit v d) s)) ∧
  (∀ (v : Word) (d : Nat) (s : State),
    (v.getLsbD d = s.powered d → s.switchBit v d = s) ∧
    (v.getLsbD d ≠ s.powered d → s.maySwitch d = false → s.switchBit v d = s.setBit Reg.SYS_EVT 2) ∧
    (s.powered d = false → v.getLsbD d = true → s.maySwitch d = true → s.switchBit v d = s.domainOn d) ∧
    (s.powered d = true → v.getLsbD d = false → s.maySwitch d = true → s.switchBit v d = s.domainOff d)) ∧
  (∀ (d : Fin 14) (s : State), s.mayGoOff d = false → exec (.domainPowerOff d) s = .next s) ∧
  (∀ (d : Fin 14) (s : State), s.mayGoOff d = true → s.powered d = true → answers (.domainPowerOff d) s fun t =>
    t.powered d = false ∧ t.sys.rail.getLsbD d = false ∧ (∀ e, e ≠ d.val → t.powered e = s.powered e) ∧ t.tb.vt = s.tb.vt ∧
    t.mram = s.mram) ∧
  (∀ (d : Fin 14) (s : State), s.powered d = true → s.sys.rail.getLsbD d = false →
    exec (.domainPowerOn d) s = .next (if d.val = 2 ∨ d.val = 3 ∨ d.val = 4
      then State.loadEngines { s with sys := { s.sys with rail := s.sys.rail ||| ((1 : BitVec 14) <<< d.val) } }
      else { s with sys := { s.sys with rail := s.sys.rail ||| ((1 : BitVec 14) <<< d.val) } })) ∧
  (∀ (d : Fin 14) (s : State), 2 ≤ d.val → s.powered d = true → s.sys.stage ≠ 3 → exec (.railOutOfRange d) s =
    .next (State.raise { s with sys := { s.sys with rail := s.sys.rail &&& ~~~ ((1 : BitVec 14) <<< d.val) } } 4)) ∧
  (∀ (d : Fin 14) (s : State), 2 ≤ d.val → s.powered d = true → s.sys.stage = 3 → s.usesDomain d = true →
    s.sys.rail.getLsbD d = false → exec (.railOutOfRange d) s = .next (s.startFail 0x15))

/-- In a powered window: PRT_TX_ENABLE of a port in OFF that may run sets TX_EN and takes the port to IDLE, or on to
training with AUTO_RETRAIN or a request waiting. PRT_TX_DISABLE of a port not in OFF with TX_EN set clears it and
takes the port to OFF. TRAIN_REQ starts training from FAULT or IDLE and clears itself, waits in OFF, and is refused
with its event in DATA while the arm is not blocked. AUTO_RETRAIN_SET sets the bit and starts training from IDLE.
TEST_MODE_WRITE in OFF, FAULT or IDLE puts the test fields in effect, the reserved LOOP code as 00. -/
def Obligations.LaneControlSwitchesThePort : Prop :=
  (∀ (p : Fin 13) (s : State), s.open (laneBlk p) = true → (s.lane p).st = .off → s.mayRun p = true →
    s.bitOf (Reg.PRT_LANE_CTL p) 2 = false → answers (.prtTxEnable p) s fun t => t.bitOf (Reg.PRT_LANE_CTL p) 2 = true ∧
      (t.lane p).st = if s.bitOf (Reg.PRT_LANE_CTL p) 3 = true ∨ s.bitOf (Reg.PRT_LANE_CTL p) 0 = true then .clock else .idle) ∧
  (∀ (p : Fin 13) (s : State), s.open (laneBlk p) = true → (s.lane p).st ≠ .off → s.bitOf (Reg.PRT_LANE_CTL p) 2 = true →
    answers (.prtTxDisable p) s fun t => (t.lane p).st = .off ∧ (t.lane p).inData = false ∧
      t.bitOf (Reg.PRT_LANE_CTL p) 2 = false) ∧
  (∀ (p : Fin 13) (s : State), s.open (laneBlk p) = true → ((s.lane p).st = .fault ∨ (s.lane p).st = .idle) →
    answers (.trainReq p) s fun t => (t.lane p).st = .clock ∧ t.bitOf (Reg.PRT_LANE_CTL p) 0 = false) ∧
  (∀ (p : Fin 13) (s : State), s.open (laneBlk p) = true → (s.lane p).st = .off →
    answers (.trainReq p) s fun t => (t.lane p).st = .off ∧ t.bitOf (Reg.PRT_LANE_CTL p) 0 = true) ∧
  (∀ (p : Fin 13) (s : State), s.open (laneBlk p) = true → (s.lane p).inData = true → s.armBlocked p = false →
    answers (.trainReq p) s fun t => t.lane p = s.lane p ∧ t.bitOf (Reg.PRT_LANE_CTL p) 0 = false ∧
      t.bitOf (Reg.PRT_LANE_EVT p) 6 = true) ∧
  (∀ (p : Fin 13) (s : State), s.open (laneBlk p) = true → (s.lane p).st = .idle →
    answers (.autoRetrainSet p) s fun t => (t.lane p).st = .clock ∧ t.bitOf (Reg.PRT_LANE_CTL p) 3 = true) ∧
  (∀ (p : Fin 13) (loop : BitVec 2) (tx rx : Bool) (s : State), s.open (laneBlk p) = true →
    ((s.lane p).st = .off ∨ (s.lane p).st = .fault ∨ (s.lane p).st = .idle) →
    answers (.testModeWrite p loop tx rx) s fun t => (t.lane p).loopEff = (if loop = 3 then 0 else loop) ∧
      (t.lane p).prbsTx = tx ∧ (t.lane p).prbsRx = rx)

/-- Of a valid training frame of a port in training (one in loop-back takes only what it sends itself, and none while it
sends PRBS31 instead): with status FAILED the training fails with code 9; on the leading side a frame of the present
stage with status READY counts toward the 8 that are needed, any other starts the count again, and the leader moves
on when its own receiver is done and 8 have come; the follower goes to the next stage when the frame shows it.
TRAINING_STAGE_DONE moves a leader on that already has its 8 frames where the measurement meets the stage's
condition: a phase error within 0.3 UI and one frequency check passed; an eye on both lanes, which is recorded;
level gaps within 25 %, which set the slicer thresholds midway between the levels; both lanes within 4 UI of the
clock, which is recorded (the sign is the model's choice, log entry 133); no group in error. Otherwise it changes
nothing. TRAINING_STAGE_TIMEOUT takes the port to FAULT with the failure code of the stage. UP_DATA_START within the
bound takes it to DATA, with event bit 0. -/
def Obligations.TrainingMovesStageByStage : Prop :=
  (∀ (p : Fin 13) (tr : BitVec 16) (s : State), (s.lane p).loopEff ≠ 0 → (tr ≠ s.trainSent p ∨ (s.lane p).prbsTx = true) →
    exec (.trainingFrame p 0x1F350D79 tr (~~~ tr)) s = .next s) ∧
  (∀ (p : Fin 13) (tr : BitVec 16) (s : State), (s.lane p).training = true → ((s.lane p).loopEff = 0 ∨ (tr = s.trainSent p ∧ (s.lane p).prbsTx = false)) →
    fieldOf tr 10 2 = 2 → exec (.trainingFrame p 0x1F350D79 tr (~~~ tr)) s = .next (s.laneFail p 9)) ∧
  (∀ (p : Fin 13) (tr : BitVec 16) (s : State), (s.lane p).training = true → ((s.lane p).loopEff = 0 ∨ (tr = s.trainSent p ∧ (s.lane p).prbsTx = false)) →
    fieldOf tr 10 2 ≠ 2 → s.leads p = true →
    exec (.trainingFrame p 0x1F350D79 tr (~~~ tr)) s = .next ((s.setLane p { s.lane p with
      ready := if fieldOf tr 12 4 = (s.lane p).st.code ∧ fieldOf tr 10 2 = 1 then satInc (s.lane p).ready 8 else 0 }).laneTry p)) ∧
  (∀ (p : Fin 13) (tr : BitVec 16) (s : State), (s.lane p).training = true → ((s.lane p).loopEff = 0 ∨ (tr = s.trainSent p ∧ (s.lane p).prbsTx = false)) →
    fieldOf tr 10 2 ≠ 2 → s.leads p = false → fieldOf tr 12 4 = (s.lane p).st.code + 1 → (s.lane p).st ≠ .data →
    answers (.trainingFrame p 0x1F350D79 tr (~~~ tr)) s fun t => (t.lane p).st = (s.lane p).st.succ ∧
      (t.lane p).stageAt = s.tb.vt ∧ (∀ q, q ≠ (p : Nat) → t.lane q = s.lane q) ∧ { t with lanes := s.lanes } = s) ∧
  (∀ (p : Fin 13) (st : LaneSt) (m : StageMeas) (s : State),
    ((s.lane p).st ≠ st ∨ s.stageMet p m = none → exec (.trainingStageDone p st m) s = .next s) ∧
    ((s.lane p).st = st → (s.stageMet p m).isSome = true → answers (.trainingStageDone p st m) s fun t =>
      (t.lane p).st = (if s.leads p = true ∧ 8 ≤ (s.lane p).ready then (s.lane p).st.succ else (s.lane p).st) ∧
      (∀ g0 g1 a b, m = .phase g0 g1 → eyeOf g0 = some a → eyeOf g1 = some b →
        t.rd (Reg.PRT_RX_EYE p) = BitVec.ofNat 32 (b * 65536 + a)) ∧
      (∀ a b, m = .align a b →
        t.rd (Reg.PRT_RX_DESKEW p) = BitVec.ofNat 32 ((BitVec.ofInt 4 b).toNat * 16 + (BitVec.ofInt 4 a).toNat)) ∧
      (∀ l0 l1, m = .level l0 l1 → (t.lane p).slicer0 = some (slicersOf l0) ∧ (t.lane p).slicer1 = some (slicersOf l1)))) ∧
  (∀ (p : Fin 13) (s : State) (e a b : Nat) (g0 g1 : BitVec 32) (x y : Int) (l0 l1 : Int × Int × Int × Int),
    ((s.stageMet p (.clock e)).isSome = true ↔ (s.lane p).st = .clock ∧ e ≤ 300 ∧ (s.lane p).freqOnce = true) ∧
    ((s.stageMet p (.phase g0 g1)).isSome = true ↔
      (s.lane p).st = .phase ∧ (eyeOf g0).isSome = true ∧ (eyeOf g1).isSome = true) ∧
    ((s.stageMet p (.level l0 l1)).isSome = true ↔ (s.lane p).st = .level ∧ levelsOk l0 = true ∧ levelsOk l1 = true) ∧
    ((s.stageMet p (.align x y)).isSome = true ↔ (s.lane p).st = .align ∧ -4 ≤ x ∧ x ≤ 4 ∧ -4 ≤ y ∧ y ≤ 4) ∧
    ((s.stageMet p (.check a b)).isSome = true ↔ (s.lane p).st = .check ∧ a = 0 ∧ b = 0)) ∧
  (∀ (p : Fin 13) (s : State), (s.lane p).training = true → answers (.trainingStageTimeout p) s fun t =>
    (t.lane p).st = .fault ∧ (t.lane p).failCode = (s.lane p).boundCode ∧ (t.lane p).trainFailed = true) ∧
  (∀ (p : Fin 13) (ui : Fin 32) (s : State), (s.lane p).st = .data → (s.lane p).up = false →
    (s.tb.vt - (s.lane p).stageAt).toNat ≤ 200 → answers (.upDataStart p ui) s fun t =>
      (t.lane p).inData = true ∧ (t.lane p).locked = true ∧ t.bitOf (Reg.PRT_LANE_EVT p) 0 = true)

/-- In a powered window: LOS_ASSERT of a LIT fibre makes it DARK and sets event bit 1; a port in DATA goes to FAULT, a
port in training fails with code 8. LOS_DEASSERT makes the fibre LIT and, with all three LIT, starts their time.
LOL_ASSERT of a locked port in DATA sets event bit 2, clears the lock that was lost and takes the port to FAULT; a
phase error within 0.3 UI is none. FREQ_CHECK notes the window's largest phase error (log entry 102); within 50 ppm
it shows FREQ_OK; beyond, it sets event bit 4 and is a loss of lock. AUTO_RETRAIN_TIMER starts training of a port in
FAULT with its fibres LIT and AUTO_RETRAIN set. PRBS_CHECK of a lane counts a group that differs from the sequence
and sets event bit 5; in loop-back only a group that the port sends itself is checked (log entry 134). -/
def Obligations.LossOfSignalOrLockEndsData : Prop :=
  (∀ (p : Fin 13) (f : Fibre) (s : State), s.open (laneBlk p) = true → (s.lane p).dark f = false →
    answers (.losAssert p f) s fun t => (t.lane p).dark f = true ∧ t.bitOf (Reg.PRT_LANE_EVT p) 1 = true ∧
      ((s.lane p).inData = true → (t.lane p).st = .fault ∧ (t.lane p).inData = false) ∧
      ((s.lane p).training = true → (t.lane p).st = .fault ∧ (t.lane p).failCode = 8)) ∧
  (∀ (p : Fin 13) (f : Fibre) (s : State), s.open (laneBlk p) = true → (s.lane p).dark f = true →
    answers (.losDeassert p f) s fun t => (t.lane p).dark f = false ∧ ((t.lane p).allLit = true → (t.lane p).litAt = s.tb.vt) ∧
      (t.lane p).st = (s.lane p).st ∧ (∀ q, q ≠ (p : Nat) → t.lane q = s.lane q) ∧ { t with lanes := s.lanes } = s) ∧
  (∀ (p : Fin 13) (c : LolCause) (s : State), s.open (laneBlk p) = true → (s.lane p).inData = true →
    (s.lane p).locked = true → (∀ e, c = .phaseErr e → 300 < e) →
    answers (.lolAssert p c) s fun t => (t.lane p).st = .fault ∧ (t.lane p).locked = false ∧ (t.lane p).inData = false ∧
      t.bitOf (Reg.PRT_LANE_EVT p) 2 = true ∧ (c = .freq → t.bitOf (Reg.PRT_LANE_EVT p) 4 = true)) ∧
  (∀ (p : Fin 13) (e : Nat) (s : State), e ≤ 300 → exec (.lolAssert p (.phaseErr e)) s = .next s) ∧
  (∀ (p : Fin 13) (m : FreqMeas) (s : State), s.open (laneBlk p) = true → m.dev.natAbs ≤ 50000 →
    answers (.freqCheck p m) s fun t => (t.lane p).freqOk = true ∧ (t.lane p).st = (s.lane p).st ∧
      t.field (Reg.PRT_PHERR_MAX p) 0 6 = max (s.field (Reg.PRT_PHERR_MAX p) 0 6) (min (64 * m.err / 1000) 63) ∧
      regsBut s t [Reg.PRT_PHERR_MAX p] ∧ { t with lanes := s.lanes, regs := s.regs } = s) ∧
  (∀ (p : Fin 13) (m : FreqMeas) (s : State), s.open (laneBlk p) = true → 50000 < m.dev.natAbs →
    exec (.freqCheck p m) s = .next (((s.notePhase p m.err).setBit (Reg.PRT_LANE_EVT p) 4).loseLock p .freq)) ∧
  (∀ (p : Fin 13) (s : State), (s.lane p).st = .fault → (s.lane p).allLit = true → s.bitOf (Reg.PRT_LANE_CTL p) 3 = true →
    answers (.autoRetrainTimer p) s fun t => (t.lane p).st = .clock ∧ (t.lane p).portFault = false) ∧
  (∀ (p : Fin 13) (lane : Fin 2) (g : BitVec 2) (s : State),
    ((s.lane p).prbsRx = false → exec (.prbsCheck ⟨p, lane⟩ g) s = .next s) ∧
    (∀ c, (s.lane p).loopEff = 0 → s.prbsCame p lane c g = some c) ∧
    (s.prbsCame p lane (if lane = 0 then (s.lane p).prbs0 else (s.lane p).prbs1) g = none →
      exec (.prbsCheck ⟨p, lane⟩ g) s = .next s) ∧
    (∀ c, (s.lane p).prbsRx = true → s.prbsCame p lane (if lane = 0 then (s.lane p).prbs0 else (s.lane p).prbs1) g = some c →
      (c.take g).2 = false →
      answers (.prbsCheck ⟨p, lane⟩ g) s fun t =>
        t.rdNat (Reg.PRT_PRBS_ERR p) = satInc (s.rdNat (Reg.PRT_PRBS_ERR p)) 0xFFFFFFFF ∧
        t.bitOf (Reg.PRT_LANE_EVT p) 5 = true ∧
        onlyRegs { s with lanes := t.lanes } t [Reg.PRT_PRBS_ERR p, Reg.PRT_LANE_EVT p]) ∧
    (∀ c, (s.lane p).prbsRx = true → s.prbsCame p lane (if lane = 0 then (s.lane p).prbs0 else (s.lane p).prbs1) g = some c →
      (c.take g).2 = true →
      answers (.prbsCheck ⟨p, lane⟩ g) s fun t => { t with lanes := s.lanes } = s))

/-- From the same precoder state the receiver recovers every run of groups that a lane sends, and the four groups 00,
01, 11, 10 go out as levels -3, -1, +1, +3 after state 0. On a port in DATA, UP_BLOCK_RECEIVE decodes the symbols of
both lanes from the state each lane's last symbol left, keeps their last symbols as the new states and advances the
block count by one; a block of an arm port that fails its checks is also counted in the period's discards and in
PRT_BLK_DISC and sets event bit 0, and changes nothing else. Discards of a period beyond CRC_LIM raise the port's
source at its end. Outside DATA no block is taken, and in loop-back only the block that the port sends itself in the
slot (log entry 134). An RPT block whose tag names the period whose reports are being received is taken into the
stream at its index; any other is stale: it is counted in PRT_BLK_STALE with event bit 2 and not used. -/
def Obligations.UpBlocksCountAsSlots : Prop :=
  (∀ (y : BitVec 2) (l : List (BitVec 2)), decodeLane y (encodeLane y l) = l ∧ (encodeLane y l).length = l.length) ∧
  (∀ (y g : BitVec 2) (l : List (BitVec 2)), lastSymbol y (encodeLane y (l ++ [g])) =
    precode (lastSymbol y (encodeLane y l)) (grayOf g)) ∧
  ((encodeLane 0 [0]).map levelOf = [-3] ∧ (encodeLane 0 [1]).map levelOf = [-1] ∧ (encodeLane 0 [3]).map levelOf = [1] ∧
    (encodeLane 0 [2]).map levelOf = [3]) ∧
  (∀ (p : Fin 13) (d0 d1 : BitVec 256) (b : BitVec 512) (s u : State), (s.lane p).inData = true →
    ((s.lane p).loopEff = 0 ∨ s.sendsBlock p ⟨d0, d1⟩ = true) →
    b = undealt (decodeLane (s.lane p).rx0 (symbolsOf d0)) (decodeLane (s.lane p).rx1 (symbolsOf d1)) →
    u = (s.setLane p { s.lane p with rx0 := d0.setWidth 2, rx1 := d1.setWidth 2 }).setPort p
      { s.port p with slot := (s.port p).slot + 1 } →
    ((blockValid p (s.port p).slot b = true ∨ 12 ≤ p.val) → exec (.upBlockReceive p ⟨d0, d1⟩) s = .next u) ∧
    (blockValid p (s.port p).slot b = false → p.val < 12 → answers (.upBlockReceive p ⟨d0, d1⟩) s fun t =>
      t.port p = { u.port p with discs := (s.port p).discs + 1 } ∧ (∀ q, q ≠ p.val → t.port q = s.port q) ∧ t.lanes = u.lanes ∧
      t.rdNat (Reg.PRT_BLK_DISC p) = satInc (s.rdNat (Reg.PRT_BLK_DISC p)) 0xFFFFFFFF ∧ t.bitOf (Reg.PRT_FRM_EVT p) 0 = true ∧
      regsBut s t [Reg.PRT_BLK_DISC p, Reg.PRT_FRM_EVT p] ∧
      { t with ports := s.ports, lanes := s.lanes, regs := s.regs, setAt := s.setAt } = s)) ∧
  (∀ (p : Fin 13) (d0 d1 : BitVec 256) (s : State), (s.lane p).inData = false ∨
    ((s.lane p).loopEff ≠ 0 ∧ s.sendsBlock p ⟨d0, d1⟩ = false) → exec (.upBlockReceive p ⟨d0, d1⟩) s = .next s) ∧
  (∀ (p : Nat) (s : State), s.inUse p = true → s.open (.port p) = true →
    (s.field (Reg.PRT_FRM_CTL p) 0 8 < (s.port p).discs → s.portPeriodEnd p = (s.noteEcho p).raise (67 + 5 * p)) ∧
    ((s.port p).discs ≤ s.field (Reg.PRT_FRM_CTL p) 0 8 → s.portPeriodEnd p = s.noteEcho p)) ∧
  (∀ (p : Fin 12) (tag : BitVec 12) (body : BitVec 460) (s : State), (s.lane p).inData = true →
    fieldOf tag 10 2 = (s.rptPc p).toNat % 4 →
    exec (.rptBlockReceive p tag body) s = .next (s.rptTake p (fieldOf tag 0 10) (s.rptPc p) body)) ∧
  (∀ (p : Fin 12) (tag : BitVec 12) (body : BitVec 460) (s : State), (s.lane p).inData = true →
    fieldOf tag 10 2 ≠ (s.rptPc p).toNat % 4 → answers (.rptBlockReceive p tag body) s fun t =>
      t.rdNat (Reg.PRT_BLK_STALE p) = satInc (s.rdNat (Reg.PRT_BLK_STALE p)) 0xFFFFFFFF ∧ t.bitOf (Reg.PRT_FRM_EVT p) 2 = true ∧
      onlyRegs s t [Reg.PRT_BLK_STALE p, Reg.PRT_FRM_EVT p])

/-- On a powered port in DATA of the lease holder with no request in progress: ECHO and BARRIER are queued behind the
messages waiting with their argument, BUSY and GO are 1, and the result of an ECHO before is no longer valid (log
entries 104 and 105); SNAP and RESET are queued likewise when their XA lies late enough, RESET only while the last
frame carried BLOCK_ARM (event bit 6 otherwise), and an XA that comes too soon sets event bit 5. While a request is
in progress, or without DATA or the lease, a request is refused with event bit 9 and nothing is queued. -/
def Obligations.FirmwareControlRequests : Prop :=
  (∀ (p : Fin 12) (s : State), s.open (.port p) = true → (s.port p).busy = false → (s.lane p).inData = true → s.holds = true →
    (answers (.echoRequest p) s fun t => (t.port p).busy = true ∧ t.bitOf (Reg.PRT_CTL_REQ p) 0 = true ∧
      t.bitOf (Reg.PRT_ECHO_RES p) 31 = false ∧
      ∃ c, (t.port p).ctrl = (s.port p).ctrl ++ [c] ∧ c.op = 0x01 ∧ c.fw = true ∧ 64 ≤ c.arg.toNat ∧ c.arg.toNat ≤ 4000 ∧
        c.target = (s.rd (Reg.PRT_CTL_TGT p)).setWidth 24) ∧
    (answers (.barrierRequest p) s fun t => (t.port p).busy = true ∧ t.bitOf (Reg.PRT_CTL_REQ p) 0 = true ∧
      ∃ c, (t.port p).ctrl = (s.port p).ctrl ++ [c] ∧ c.op = 0x07 ∧ c.fw = true ∧
        c.arg.toNat = s.field (Reg.PRT_CTL_ARG_LO p) 0 8) ∧
    (s.xaInTime p ((s.rd (Reg.PRT_CTL_XA p)).setWidth 16) (s.ctrlTick p) = true →
      (answers (.snapRequest p) s fun t => (t.port p).busy = true ∧
        ∃ c, (t.port p).ctrl = (s.port p).ctrl ++ [c] ∧ c.op = 0x06 ∧ c.arg = 0 ∧ c.xa = (s.rd (Reg.PRT_CTL_XA p)).setWidth 16) ∧
      ((s.port p).blockArm = true → answers (.resetRequest p) s fun t => (t.port p).busy = true ∧
        ∃ c, (t.port p).ctrl = (s.port p).ctrl ++ [c] ∧ c.op = 0x08 ∧ c.arg = 0)) ∧
    (s.xaInTime p ((s.rd (Reg.PRT_CTL_XA p)).setWidth 16) (s.ctrlTick p) = false →
      answers (.snapRequest p) s fun t => t.ports = s.ports ∧ t.bitOf (Reg.PRT_FRM_EVT p) 5 = true) ∧
    ((s.port p).blockArm = false → answers (.resetRequest p) s fun t => t.ports = s.ports ∧
      t.bitOf (Reg.PRT_FRM_EVT p) 6 = true)) ∧
  (∀ (p : Fin 12) (s : State), s.open (.port p) = true →
    ((s.port p).busy = true ∨ (s.lane p).inData = false ∨ s.holds = false) →
    (answers (.echoRequest p) s fun t => t.ports = s.ports ∧ t.bitOf (Reg.PRT_FRM_EVT p) 9 = true) ∧
    (answers (.snapRequest p) s fun t => t.ports = s.ports ∧ t.bitOf (Reg.PRT_FRM_EVT p) 9 = true) ∧
    (answers (.barrierRequest p) s fun t => t.ports = s.ports ∧ t.bitOf (Reg.PRT_FRM_EVT p) 9 = true) ∧
    (answers (.resetRequest p) s fun t => t.ports = s.ports ∧ t.bitOf (Reg.PRT_FRM_EVT p) 9 = true))

/-- CTRL_BLOCK_SEND on a port in DATA sends the oldest message waiting at the next tick on which a CTRL block fits; a
firmware message whose XA has come too near is dropped with event bit 5. An ECHO response of the device and sequence
asked shows a firmware echo's DELAY with VALID, an echo timeout clears VALID with event bit 3; the calibration's own
echoes, outstanding beside it, go on with the measured DELAY or without, and of two outstanding the one due first
runs out. A barrier response with the ID sent shows ID and NACK, a timeout sets event bit 4; a snapshot block is
kept by its index. -/
def Obligations.ControlMessagesAndTheirAnswers : Prop :=
  (∀ (p : Fin 12) (c : Ctrl) (rest : List Ctrl) (s : State), (s.port p).ctrl = c :: rest → (s.lane p).inData = true →
    s.ctrlFits p (s.ctrlTick p) = true →
    ((¬ (c.fw = true ∧ c.xaUsed = true ∧ s.xaInTime p c.xa (s.ctrlTick p) = false)) →
      exec (.ctrlBlockSend p) s = .next ((s.advanceTo (s.ctrlTick p)).ctrlOut p c rest)) ∧
    ((c.fw = true ∧ c.xaUsed = true ∧ s.xaInTime p c.xa (s.ctrlTick p) = false) →
      exec (.ctrlBlockSend p) s = .next ((s.setPort p { s.port p with ctrl := rest }).ctlEnd p 5))) ∧
  (∀ (p : Fin 12) (e : EchoOut) (ui : Fin 32) (s : State), (s.port p).echoFw = some e →
    ((∀ a, (s.port p).echo = some a → ¬ (a.target = e.target ∧ a.seq = e.seq)) →
      answers (.echoResponse p e.target e.seq ui) s fun t => (t.port p).echoFw = none ∧ (t.port p).busy = false ∧
        (t.port p).echo = (s.port p).echo ∧
        t.rd (Reg.PRT_ECHO_RES p) = bitIf true 31 ||| BitVec.ofNat 32 (delayOf (32 * s.now.toNat + ui) e.ts e.ofs % 2 ^ 24) ∧
        t.bitOf (Reg.PRT_FRM_EVT p) 8 = true) ∧
    ((s.port p).fwFirst = true → answers (.echoTimeout p) s fun t => (t.port p).echoFw = none ∧ (t.port p).busy = false ∧
      (t.port p).echo = (s.port p).echo ∧ t.bitOf (Reg.PRT_ECHO_RES p) 31 = false ∧ t.bitOf (Reg.PRT_FRM_EVT p) 3 = true)) ∧
  (∀ (p : Fin 12) (e : EchoOut) (ui : Fin 32) (s : State), (s.port p).echo = some e →
    exec (.echoResponse p e.target e.seq ui) s = .next (s.calEchoDone p (some (delayOf (32 * s.now.toNat + ui) e.ts e.ofs))) ∧
    ((s.port p).fwFirst = false → exec (.echoTimeout p) s =
      .next (((s.advanceTo e.deadline).setBit (Reg.PRT_FRM_EVT p) 3).calEchoDone p none))) ∧
  (∀ (p : Fin 12) (id nack : BitVec 8) (d : BitVec 64) (s : State), (s.port p).barrier = some (id, d) →
    (answers (.barrierResponse p id nack) s fun t => (t.port p).barrier = none ∧ (t.port p).busy = false ∧
      t.rd (Reg.PRT_BAR_RES p) = putField id.toNat 8 ||| nack.setWidth 32 ∧ t.bitOf (Reg.PRT_FRM_EVT p) 8 = true) ∧
    (answers (.barrierTimeout p) s fun t => (t.port p).barrier = none ∧ (t.port p).busy = false ∧
      t.bitOf (Reg.PRT_FRM_EVT p) 4 = true)) ∧
  (∀ (p : Fin 12) (i : BitVec 8) (body : BitVec 460) (s : State), (s.port p).snapXa.isSome = true →
    answers (.snapshotResponse p i body) s fun t => Sparse.get (fun _ => none) (t.port p).snap i.toNat = some body ∧
      (∀ q, q ≠ p.val → t.port q = s.port q) ∧ { t with ports := s.ports } = s)

/-- While a census is awaited, CENSUS_RESPONSE shows its counts; a mismatch with the topology fails it with the
verdict's result code and device index and raises the calibration fault, a match takes calibration on to the echoes
with the absent cells noted. CENSUS_TIMEOUT fails it with code 0x14 and shows no record. CENSUS_RETRY of a failed
port in DATA begins the steps again 100 ms after they last began. RECAL_ROUND, at a boundary with PC mod 1,024 = 0,
starts a round on a calibrated port with its first hub. -/
def Obligations.CensusAndRecalibration : Prop :=
  (∀ (p : Fin 12) (recs : List CensusRec) (s : State), (s.port p).cal = .census → recs ≠ [] →
    (∀ r, censusVerdict (s.devs p) recs (s.aeTable p).1.redAll (s.aeTable p).1.redFb = .inl r →
      ∃ u : State, u.rd (Reg.PRT_CENSUS p) = censusCount recs ∧ (u.port p).censusOk = false ∧ (u.port p).census = recs ∧
        regsBut s u [Reg.PRT_CENSUS p] ∧ { u with ports := s.ports, regs := s.regs } = s ∧
        exec (.censusResponse p recs) s = .next (u.calFail p r.1 r.2)) ∧
    (∀ ab, censusVerdict (s.devs p) recs (s.aeTable p).1.redAll (s.aeTable p).1.redFb = .inr ab →
      answers (.censusResponse p recs) s fun t => (t.port p).censusOk = true ∧ (t.port p).absent = ab ∧
        (t.port p).cal = .echo 0 ∧ t.rd (Reg.PRT_CENSUS_RES p) = (if ab.isEmpty then 1 else 2))) ∧
  (∀ (p : Fin 12) (s : State), (s.port p).cal = .census → ∃ u : State, u.rd (Reg.PRT_CENSUS p) = 0 ∧
    (u.port p).censusOk = false ∧ (u.port p).census = [] ∧ exec (.censusTimeout p) s = .next (u.calFail p 0x14 0)) ∧
  (∀ (p : Fin 12) (s : State), (s.port p).cal = .failed → (s.lane p).inData = true →
    exec (.censusRetry p) s = .next ((s.advanceTo ((s.port p).calAt + BitVec.ofNat 64 20000000)).calStart p)) ∧
  (∀ (p : Fin 12) (s : State), s.tb.pc.toNat % 1024 = 0 → (s.lane p).inData = true → (s.port p).calDone = true →
    (s.port p).cal = .done → exec (.recalRound p) s = .next ((s.setPort p { s.port p with cal := .recal 0 }).calEcho p))

/-- PORT_DUE_TICK of a port in use and powered, not yet decided in this period, decides at b(k) + E_START - 8. Where
frames are due: the misses of the period are declared first; under a Block the plan is the BLOCK_ARM frame;
otherwise a deblock that waits takes effect, a miss withholds the arm's commands, and without one the audit decides.
An audit that passes plans the commands handed over and records PC + 1; one that fails counts the failure, raises
the arm's insertion-count fault and withholds. Withheld commands are the repeat of the last set that passed, fitted
to the next period's length (log entry 106), or state 00 for every cell where none has. COMMANDS_RESUME lets a
calibrated port in DATA with its five sources quiet send commands again. -/
def Obligations.DueTickDecidesTheFrame : Prop :=
  (∀ (p : Fin 12) (r : Bool) (s u : State), s.tb.run = true → s.inUse p = true → s.open (.port p) = true →
    (s.port p).dueDone = false →
    u = (s.advanceTo (s.tickAt s.dueAt)).setPort p { (s.advanceTo (s.tickAt s.dueAt)).port p with dueDone := true, plan := .none } →
    (u.framesDue p = false → exec (.portDueTick p r) s = .next u) ∧
    (u.framesDue p = true → (u.portMisses p).2.blockAt p (u.portMisses p).2.emitAt = true →
      exec (.portDueTick p r) s = .next ((u.portMisses p).2.setPort p { (u.portMisses p).2.port p with
        plan := .send .blockArm ((u.portMisses p).2.blockFrame p) })) ∧
    (u.framesDue p = true → (u.portMisses p).2.blockAt p (u.portMisses p).2.emitAt = false →
      exec (.portDueTick p r) s = .next (if (u.portMisses p).1 then ((u.portMisses p).2.portDeblock p).withhold p
        else ((u.portMisses p).2.portDeblock p).portAudit p r))) ∧
  (∀ (p : Nat) (cs : CmdSet) (s : State), (s.port p).hand = .cmds cs → (auditOf (.cmds cs) (s.port p).order).ok = true →
    ((s.portAudit p false).port p).plan = .send .fresh cs ∧ (s.portAudit p false).rd (Reg.PRT_AUD_PASS_PC p) = s.tb.pc + 1) ∧
  (∀ (p : Nat) (s : State), (∀ cs, (s.port p).passed = some cs →
      ((s.withhold p).port p).plan = .send .repeated (repeatSet s.nextPer cs)) ∧
    ((s.port p).passed = none → ((s.withhold p).port p).plan = .send .block00 (s.blockFrame p))) ∧
  (∀ (p : Fin 12) (s : State), (s.port p).cmdsOn = false → (s.lane p).inData = true → (s.port p).calDone = true →
    s.portQuiet p = true → answers (.commandsResume p) s fun t => (t.port p).cmdsOn = true ∧ t.lanes = s.lanes ∧ t.regs = s.regs)

/-- In a period the module computes, on an arm engine at work whose work for the period has not ended and whose unit is
free: no source being marked for surrender, RANK_START after the end of intake leaves the rank of the cells and the
arm's sums; SELECT_START with a whole level order and a rank leaves a selection and shows the level order used,
whether or not the arm current came; without a level order, with a broken one or without a rank it leaves NO_ORDER
as the result; PLACE_START hands the placed set over to the port and ends the engine's work for the period, and
changes no register and no other engine. -/
def Obligations.ArmStagesBuildTheCommandSet : Prop :=
  (∀ (n : Fin 12) (s : State), s.aeOn n = true → s.computes = true → noMarks s → (s.ae n).rank = none → (s.ae n).stop = false →
    (s.advanceTo (s.tickAt (s.sec.ae n).rankAt)).aeBusy n 0 = false → s.tb.intakeDone = true →
    answers (.rankStart n false) s fun t => (t.ae n).rank = some (rankCells (t.ae n).cells) ∧
      (t.ae n).sums = some (armSums (t.ae n).cells)) ∧
  (∀ (n : Fin 12) (lam : Word × Word) (rank : List Nat) (s : State), s.aeOn n = true →
    s.computes = true → noMarks s → (s.ae n).stop = false → (s.ae n).selStarted = false →
    (s.advanceTo (s.tickAt (s.sec.ae n).selectAt)).aeBusy n 1 = false → (s.ae n).order = some lam →
    (s.ae n).rank = some rank → pairOk lam.1 lam.2 = true →
    answers (.selectStart n false) s fun t => (t.ae n).selStarted = true ∧ (t.ae n).lamLast = lam.1 ∧
      (t.ae n).nLast = lam.1.toInt.natAbs / 65536 ∧ (t.ae n).neg = decide (lam.1.toInt < 0) ∧ ∃ r, (t.ae n).sel = some (some r)) ∧
  (∀ (n : Fin 12) (s : State), s.aeOn n = true → s.computes = true → noMarks s → (s.ae n).stop = false →
    (s.ae n).selStarted = false → (s.advanceTo (s.tickAt (s.sec.ae n).selectAt)).aeBusy n 1 = false →
    ((∀ lam, (s.ae n).order = some lam → pairOk lam.1 lam.2 = false) ∨ (s.ae n).rank = none) →
    answers (.selectStart n false) s fun t => (t.ae n).selStarted = true ∧ (t.ae n).sel = some none ∧
      (t.ae n).out = .noOrder ∧ t.bitOf (Reg.AE_EVT n) 7 = true) ∧
  (∀ (n : Fin 12) (sel : Sel) (s : State), s.aeOn n = true → s.computes = true → (s.ae n).stop = false →
    (s.advanceTo (s.tickAt (s.sec.ae n).placeAt)).aeBusy n 2 = false → (s.ae n).sel = some (some sel) →
    answers (.placeStart n false) s fun t =>
      (t.ae n).out = .cmds (placeSet sel (s.setCells n) (dMaxOf (s.setCells n)) s.setPeriod) ∧ (t.ae n).stop = true ∧
      t.regs = s.regs ∧ t.ports = s.ports ∧ t.flt = s.flt ∧ ∀ m, m ≠ n.val → t.ae m = s.ae m)

/-- LEVEL_ORDER_RECEIVE of this period by the reader's tick: the whole λ and i_a that came are what the arm engine uses,
what did not come stays, and λ is what the port's audit uses; no other engine and no other port is touched. One of
an earlier period is discarded. SW_WINDOW_END of a full window shows the changes, starts a new count and gives the
band that R233 computes, or keeps the band and marks AE_EVT where the residue check fails. CELL_LATCH_OUT of a cell
of the table waits as a latch, CELL_RELEASE of a cell that R247 allows waits as a release; outside the table both
set event bit 8 and nothing waits; the command's register pair holds what was written. WITNESS_RECEIVE with a whole
pair outside the ports in use is kept and shown in PRT_WIT_LAST; one with a broken pair is not used and raises the
port island's integrity fault. -/
def Obligations.LevelOrderAndCellCommandsReachTheArm : Prop :=
  (∀ (n : Fin 12) (pcLo : BitVec 16) (lam lamC cur curC : Option Word) (s : State), s.aeOn n = true →
    (s.ae n).selStarted = false → s.pastTick (s.sec.ae n).selectAt = false → s.staleXfer pcLo = false →
    pairFine (wholePair lam lamC) = true → pairFine (wholePair cur curC) = true →
    answers (.levelOrderReceive (.ae n) pcLo lam lamC cur curC) s fun t =>
      (t.ae n).order = (wholePair lam lamC <|> (s.ae n).order) ∧ (t.ae n).current = (wholePair cur curC <|> (s.ae n).current) ∧ t.ports = s.ports ∧ t.flt = s.flt ∧ ∀ m, m ≠ n.val → t.ae m = s.ae m) ∧
  (∀ (n : Fin 12) (pcLo : BitVec 16) (lam lamC : Word) (cur curC : Option Word) (s : State), s.tb.run = true →
    s.inUse n = true → s.open (.port n) = true → (s.port n).dueDone = false → s.pastTick s.dueAt = false →
    s.staleXfer pcLo = false → pairOk lam lamC = true →
    answers (.levelOrderReceive (.port n) pcLo (some lam) (some lamC) cur curC) s fun t => (t.port n).order = some (lam, lamC) ∧
      t.aes = s.aes ∧ t.flt = s.flt ∧ ∀ m, m ≠ n.val → t.port m = s.port m) ∧
  (∀ (d : LevelDst) (pcLo : BitVec 16) (lam lamC cur curC : Option Word) (s : State), s.staleXfer pcLo = true →
    exec (.levelOrderReceive d pcLo lam lamC cur curC) s = .next s) ∧
  (∀ (n : Fin 12) (s : State), s.aeOn n = true → (s.ae n).par.wSw ≤ (s.ae n).winCount →
    answers (.swWindowEnd ⟨n, false⟩) s fun t => t.rd (Reg.AE_SW_RATE n) = BitVec.ofNat 32 (min (s.ae n).changes 0xFFFFFFFF) ∧
      (t.ae n).changes = 0 ∧ (t.ae n).winCount = 0 ∧ (t.ae n).spreadHit = false ∧
      (s.inPer = 0 → (t.ae n).band = (s.ae n).bandAfter s.per) ∧
      (s.inPer ≠ 0 → (t.ae n).band = (s.ae n).band ∧ (t.ae n).bandNext = some ((s.ae n).bandAfter s.per)) ∧
      regsBut s t [Reg.AE_SW_RATE n] ∧ { t with aes := s.aes, regs := s.regs } = s) ∧
  (∀ (n : Fin 12) (s : State), s.aeOn n = true → (s.ae n).par.wSw ≤ (s.ae n).winCount → noMarks s →
    answers (.swWindowEnd ⟨n, true⟩) s fun t => (t.ae n).winCount = 0 ∧ t.bitOf (Reg.AE_EVT n) 0 = true ∧
      (s.inPer = 0 → (t.ae n).band = (s.ae n).band) ∧ (s.inPer ≠ 0 → (t.ae n).bandNext = some (s.ae n).band)) ∧
  (∀ (n : Fin 12) (i : Fin 1024) (s : State), s.open (.ae n) = true → i.val < (s.ae n).cells.length →
    (answers (.cellLatchOut n i) s fun t => (t.ae n).cellCmd = (s.ae n).cellCmd ++ [(true, i.val)] ∧
      t.rd (Reg.AE_CELL_CMD n) = 0x40000000 + BitVec.ofNat 32 i ∧
      t.rd (Reg.AE_CELL_CMD n + 4) = ~~~ (0x40000000 + BitVec.ofNat 32 i) ∧
      regsBut s t [Reg.AE_CELL_CMD n, Reg.AE_CELL_CMD n + 4] ∧ { t with aes := s.aes, regs := s.regs } = s) ∧
    (s.releaseOk n (cellAt (s.ae n).cells i) = true →
      answers (.cellRelease n i) s fun t => (t.ae n).cellCmd = (s.ae n).cellCmd ++ [(false, i.val)] ∧
      regsBut s t [Reg.AE_CELL_CMD n, Reg.AE_CELL_CMD n + 4] ∧ { t with aes := s.aes, regs := s.regs } = s)) ∧
  (∀ (n : Fin 12) (i : Fin 1024) (s : State), s.open (.ae n) = true → (s.ae n).cells.length ≤ i.val →
    (answers (.cellLatchOut n i) s fun t => t.aes = s.aes ∧ t.bitOf (Reg.AE_EVT n) 8 = true) ∧
    answers (.cellRelease n i) s fun t => t.aes = s.aes ∧ t.bitOf (Reg.AE_EVT n) 8 = true) ∧
  (∀ (p : Fin 12) (e c : BitVec 16) (recs : List (BitVec 8)) (s : State), (s.lane p).inData = true → pairOk e c = true →
    s.inUse p = false → answers (.witnessReceive p e c recs) s fun t =>
      (t.port p).wit = some { eMax := e, eMaxC := c, recs := recs, at_ := s.now } ∧ (e, c, s.now) ∈ (t.port p).eMaxs ∧
      t.rd (Reg.PRT_WIT_LAST p) = BitVec.ofNat 32 (e.toNat * 65536 + recs.length % 256) ∧
      (∀ q, q ≠ p.val → t.port q = s.port q) ∧ regsBut s t [Reg.PRT_WIT_LAST p] ∧ { t with ports := s.ports, regs := s.regs } = s) ∧
  (∀ (p : Fin 12) (e c : BitVec 16) (recs : List (BitVec 8)) (s : State), (s.lane p).inData = true → pairOk e c = false →
    exec (.witnessReceive p e c recs) s = .next (s.integrity (22 + p)))

/-- In a period the module computes, CUE_START of a cue of a powered engine runs at its start tick: on a free unit, with
a whole entry and its inputs of this period it runs; an occupied unit, or one that sends to a domain that is off, is
a miss of KIND 1, an entry in cue memory that fails its pair check one of KIND 2, an input that has not come one of
KIND 3; inputs by transfer that are present leave their slack in each case. A CUE word gives back the four fields it
was made of. TRANSFER_RECEIVE of a CUE word at a powered engine records the crossing time; a transfer of an earlier
period is counted stale and discarded, the arm sums reach the loop engine it names, any other is delivered by its
kind. -/
def Obligations.CuesAndTransfersMoveTheLoop : Prop :=
  (∀ (e : Fin 4) (i : Fin 2048) (dmg : CueDamage) (c : Cue) (sh : BlkShape) (s s1 : State),
    (s.sec.cueList e)[i.val]? = some c → blkShape c.block = some sh → s.tb.run = true → s.open (.le e) = true →
    s.computes = true → s1 = ((s.advanceTo (s.tickAt c.start)).leSettle e).cueSlack e i c sh →
    (s1.cueBusy e c sh = false → s1.cueDark e c = false → dmg ≠ .entry → (s1.le e).entryOk i = true →
      cueStarved (s1.le e) c sh s.tb.pc = false → s1.nodeLate e c = false →
      exec (.cueStart e i dmg) s = .next (s1.cueRun e c sh (dmg == .residue))) ∧
    (s1.cueBusy e c sh = true ∨ s1.cueDark e c = true → dmg ≠ .entry →
      exec (.cueStart e i dmg) s = .next (s1.cueMiss e i 1 c sh)) ∧
    (s1.cueBusy e c sh = false → s1.cueDark e c = false → dmg ≠ .entry → (s1.le e).entryOk i = false →
      exec (.cueStart e i dmg) s = .next (s1.cueMiss e i 2 c sh)) ∧
    (s1.cueBusy e c sh = false → s1.cueDark e c = false → dmg ≠ .entry → (s1.le e).entryOk i = true →
      (cueStarved (s1.le e) c sh s.tb.pc = true ∨ s1.nodeLate e c = true) →
      exec (.cueStart e i dmg) s = .next (s1.cueMiss e i 3 c sh)) ∧
    (dmg = .entry → ((s1.cueBreak e i).le e).entryOk i = false ∧ exec (.cueStart e i dmg) s = .next
      ((s1.cueBreak e i).cueMiss e i
        (if (s1.cueBreak e i).cueBusy e c sh = true ∨ (s1.cueBreak e i).cueDark e c = true then 1 else 2) c sh))) ∧
  (∀ (stamp pcLo : BitVec 16) (i n : Nat), i < 1024 → n < 65536 → cueStamp (cueWord stamp i n pcLo) = stamp ∧
    cueXing (cueWord stamp i n pcLo) = i ∧ cueCount (cueWord stamp i n pcLo) = n ∧ cuePc (cueWord stamp i n pcLo) = pcLo) ∧
  (∀ (w : BitVec 64) (vals comps : List Word) (held : List Bool) (damage : List Nat) (x : Xing) (s : State),
    s.sec.xings[cueXing w]? = some x → s.tb.run = true → s.powered (islandDomain (codeIsland x.dst)) = true →
    ∃ u : State, u = s.noteCrossing (cueXing w) (s.crossingTime x (cueStamp w)) ∧
      (s.staleXfer (cuePc w) = true → exec (.transferReceive w vals comps held damage) s = .next u.noteStale) ∧
      (s.staleXfer (cuePc w) = false → x.kind = 3 → damage = [] → ∃ t : State,
        exec (.transferReceive w vals comps held damage) s = .next t ∧
        Sparse.get (fun _ => none) t.isl.sumsNew (16 * (x.dst - 0x20) + (x.src - 0x10)) = (u.ae (x.src - 0x10)).sums ∧
        { t with isl := { t.isl with sumsNew := u.isl.sumsNew, sumsNewAt := u.isl.sumsNewAt } } = u) ∧
      (s.staleXfer (cuePc w) = false → x.kind = 0 →
        exec (.transferReceive w vals comps held damage) s = .next (u.slotsIn (cueXing w) x w (slotWords vals comps held))) ∧
      (s.staleXfer (cuePc w) = false → x.kind = 4 →
        exec (.transferReceive w vals comps held damage) s = .next (u.nodesTo x (cuePc w) damage)) ∧
      (s.staleXfer (cuePc w) = false → x.kind = 6 →
        exec (.transferReceive w vals comps held damage) s = .next (u.handIn x damage)) ∧
      (s.staleXfer (cuePc w) = false → (x.kind ≠ 0 ∧ x.kind ≠ 3 ∧ x.kind ≠ 4 ∧ x.kind ≠ 6) →
        exec (.transferReceive w vals comps held damage) s = .next u))

/-- With the loop window powered: INJ_START of a run that R306 allows begins the first entry with nothing complete and
clears START; one it does not allow sets event bit 4 and shows REFUSED. INJ_STOP of an active run aborts it and
clears STOP and START. INJ_RECORD_END of a full record gives every entry of it its result and ends the run with DONE
and the signal 0, or where entries remain in stepped mode begins the next. EDDY_CLEAR adds its bits to LE_EDDY_CLEAR
and changes no other register. -/
def Obligations.InjectionRuns : Prop :=
  (∀ (mode : BitVec 2) (pt : BitVec 5) (s : State), s.open (.le 0) = true → s.isl.inj.active = false →
    ((s.wr Reg.LE_INJ_CTL (putField mode.toNat 16 ||| putField pt.toNat 8)).injMay = true →
      answers (.injStart mode pt) s fun t => t.isl.inj.active = true ∧ t.isl.inj.idx = 0 ∧ t.isl.inj.k = 0 ∧
        t.isl.inj.ents = [] ∧ t.isl.inj.going = false ∧ t.bitOf Reg.LE_INJ_CTL 1 = false ∧ regsBut s t [Reg.LE_INJ_CTL] ∧
        { t with isl := s.isl, regs := s.regs } = s) ∧
    ((s.wr Reg.LE_INJ_CTL (putField mode.toNat 16 ||| putField pt.toNat 8)).injMay = false →
      answers (.injStart mode pt) s fun t => t.isl.inj = { s.isl.inj with st := .refused, refusedRun := false } ∧ t.bitOf Reg.LE_ISL_EVT 4 = true ∧
        t.bitOf Reg.LE_INJ_CTL 1 = false ∧ regsBut s t [Reg.LE_INJ_CTL, Reg.LE_ISL_EVT])) ∧
  (∀ (mode : BitVec 2) (pt : BitVec 5) (s : State), s.open (.le 0) = true → s.isl.inj.active = true →
    (answers (.injStart mode pt) s fun t => t.isl.inj = { s.isl.inj with refusedRun := true } ∧ t.bitOf Reg.LE_ISL_EVT 4 = true) ∧
    (answers .injStop s fun t => t.isl.inj = { s.isl.inj with st := .aborted, refusedRun := false } ∧ t.bitOf Reg.LE_INJ_CTL 2 = false ∧
      t.bitOf Reg.LE_INJ_CTL 1 = false ∧ regsBut s t [Reg.LE_INJ_CTL])) ∧
  (∀ (s : State), s.isl.inj.st = .measuring → s.isl.inj.len ≤ s.isl.inj.k →
    ((s.injMode ≠ 3 ∨ s.injNf ≤ s.isl.inj.idx + 1) → answers .injRecordEnd s fun t => t.isl.inj.st = .done ∧
      t.isl.inj.s = 0 ∧ t.bitOf Reg.LE_INJ_CTL 1 = false ∧ regsBut s t [Reg.LE_INJ_CTL]) ∧
    (s.injMode = 3 → s.isl.inj.idx + 1 < s.injNf → answers .injRecordEnd s fun t => t.isl.inj.active = true ∧
      t.isl.inj.idx = s.isl.inj.idx + 1 ∧ t.isl.inj.k = 0 ∧ t.regs = s.regs)) ∧
  (∀ (bits : BitVec 16) (s : State), s.open (.le 0) = true → answers (.eddyClear bits) s fun t =>
    t.rd Reg.LE_EDDY_CLEAR = s.rd Reg.LE_EDDY_CLEAR ||| bits.setWidth 32 ∧ regsBut s t [Reg.LE_EDDY_CLEAR] ∧
    { t with isl := s.isl, regs := s.regs } = s)

/-- With no source marked for surrender, an EVENT word of an implemented source at an event tick that the source has not
had, and that came before no host clear that has acted: the event is logged in the order of event ticks and counted,
its sticky bit set, the tick joins the source's ticks; the source is LOCKED if it was, or is FS15, and ACTIVE
otherwise; every other source stays as it was. Where the reaction rises to Block or Trip, or the source's class is
one of these already, the block latch is set, followed by emits from 16 ticks after the event on; where it becomes
Trip the trip request is made (an event older than the last COMMIT of its entry is classed by the entry before). An
expiry or clear of the source that the event comes before is undone first (log entry 116). A second word of a tick
is the same event and changes nothing but to make an injected one real; one before a host clear that has acted is
taken and the source is QUIET again. A word of a reserved source is one of FS15. A broken entry or state, or a
counter's residue, found with the word raises FS15 besides and drops nothing of the event. -/
def Obligations.EventIsTakenAndReactedTo : Prop :=
  (∀ (word : BitVec 64) (n : Nat) (tick : BitVec 64) (s u : State), n = srcOf (fieldOf word 40 8) →
    tick = nearest16 s.now (BitVec.ofNat 16 (fieldOf word 48 16)) → noMarks s → (s.src n).seen tick = false →
    (s.src n).clearedAfter tick = none →
    u = (match s.entryDue n with | some e => s.reclass n e | none => s).undo n tick →
    answers (.faultEvent word none) s fun t =>
      (t.src n).st = (if (u.src n).st = .locked ∨ n = 15 then .locked else .active) ∧
      (t.src n).ticks = ((u.src n).ticksWith tick).take 15 ∧
      (t.src n).last = (if (u.src n).latest tick = true then some tick else (s.src n).last) ∧
      (∀ m, m ≠ n → t.src m = s.src m) ∧ t.flt.log = (s.flt.logged n tick).log ∧
      t.rdNat Reg.FLT_CNT_EVT = satInc (s.rdNat Reg.FLT_CNT_EVT) 0xFFFFFFFF ∧ t.bitOf (Reg.FLT_STICKY (n / 32)) (n % 32) = true ∧
      ((∀ w old, (u.src n).was = some (w, old) → reached tick w = true) →
        (2 ≤ t.reaction → u.reaction < t.reaction → t.flt.latch = true ∧ t.flt.latchLog.head? = some (tick + 16, true)) ∧
        (2 ≤ (t.src n).cls n → t.flt.latch = true ∧ t.flt.latchLog.head? = some (tick + 16, true)) ∧
        (t.reaction = 3 → u.reaction ≠ 3 → t.saf.req = true)) ∧
      t.ports = s.ports ∧ t.lanes = s.lanes ∧ t.aes = s.aes ∧ t.ram = s.ram) ∧
  (∀ (word : BitVec 64) (n : Nat) (tick : BitVec 64) (s : State), n = srcOf (fieldOf word 40 8) →
    tick = nearest16 s.now (BitVec.ofNat 16 (fieldOf word 48 16)) → noMarks s →
    ((s.src n).seen tick = true → exec (.faultEvent word none) s =
      .next (if (s.src n).injected = true ∧ (s.src n).last = some tick then s.collide n else s)) ∧
    (∀ p, (s.src n).seen tick = false → (s.src n).clearedAfter tick = some p → answers (.faultEvent word none) s fun t =>
      (t.src n).st = .quiet ∧ (t.src n).promoted = false ∧ (t.src n).ticks = [] ∧ (∀ m, m ≠ n → t.src m = s.src m) ∧
      t.flt.log = (s.flt.logged n tick).log ∧ t.rdNat Reg.FLT_CNT_EVT = satInc (s.rdNat Reg.FLT_CNT_EVT) 0xFFFFFFFF ∧
      t.bitOf (Reg.FLT_STICKY (n / 32)) (n % 32) = true)) ∧
  (∀ (word : BitVec 64) (n : Nat) (tick : BitVec 64) (s : State), n = srcOf (fieldOf word 40 8) → n ≠ 15 →
    tick = nearest16 s.now (BitVec.ofNat 16 (fieldOf word 48 16)) → noMarks s → (s.src n).seen tick = false →
    (s.src 15).seen s.now = false →
    (answers (.faultEvent word (some .source)) s fun t => (t.src n).broken = true ∧
      t.bitOf (Reg.FLT_STICKY (n / 32)) (n % 32) = true ∧ t.bitOf (Reg.FLT_STICKY 0) 15 = true) ∧
    ∀ (c : Fin 3) (stays : Bool), answers (.faultEvent word (some (.counter c stays))) s fun t =>
      t.flt.selfBad = (s.flt.selfBad || stays) ∧ t.bitOf (Reg.FLT_STICKY (n / 32)) (n % 32) = true ∧
      t.bitOf (Reg.FLT_STICKY 0) 15 = true)

/-- LULL_EXPIRY of an ACTIVE source that has had an event and whose pair is whole counts the recovery and takes it to
LOCKED when REC_LIM is reached and to QUIET without promotion otherwise; a changed count falls due for the key. Of
any other source it changes nothing. CLEAR_SOURCE through a powered window of a source that is not ACTIVE, or whose
pair is broken, and without an event in this tick, FS15 only where its self-check passes, takes it to QUIET with its
promotion, recovery count, ticks and break gone, and a changed count falls due; in every other case it sets event
bit 5 and changes no source, but that a self-check which fails raises FS15. CLEAR_ALL does the same to every source
but FS15, passes over an ACTIVE one, and sets event bit 5 for one not ACTIVE before an event in this tick. No other
source changes. -/
def Obligations.FaultStatesEndByLullAndClear : Prop :=
  (∀ (n : Fin 256) (t0 : BitVec 64) (s : State), (s.src n).st = .active → (s.src n).broken = false → (s.src n).last = some t0 →
    answers (.lullExpiry n) s fun t => (t.src n).recCnt = satInc (s.src n).recCnt 255 ∧
      (t.src n).st = (if 0 < (s.src n).entry.recLim ∧ (s.src n).entry.recLim ≤ (s.src n).recCnt + 1 then .locked else .quiet) ∧
      ((t.src n).st = .quiet → (t.src n).promoted = false) ∧
      ((t.src n).st = .locked → (t.src n).promoted = (s.src n).promoted ∧ t.bitOf Reg.FLT_EVT 3 = true) ∧
      ((s.src n).recCnt < 255 → t.key.due.isSome = true) ∧ (∀ m, m ≠ n.val → t.src m = s.src m)) ∧
  (∀ (n : Fin 256) (s : State), ((s.src n).st ≠ .active ∨ (s.src n).broken = true ∨ (s.src n).last = none) →
    exec (.lullExpiry n) s = .next s) ∧
  (∀ (n : Fin 256) (s : State), s.open .flt = true → (n.val = 15 → s.flt.selfFails = false) →
    ((s.src n).st ≠ .active ∨ (s.src n).broken = true) → (s.src n).eventNow s.now = false →
    answers (.clearSource n) s fun t => (t.src n).st = .quiet ∧ (t.src n).promoted = false ∧ (t.src n).recCnt = 0 ∧
      (t.src n).ticks = [] ∧ (t.src n).broken = false ∧ (0 < (s.src n).recCnt → t.key.due.isSome = true) ∧
      (∀ m, m ≠ n.val → t.src m = s.src m)) ∧
  (∀ (s : State), s.open .flt = true → s.flt.selfFails = true → exec (.clearSource 15) s =
    .next (((s.wrPair Reg.FLT_CLEAR (actionWord 1 15)).setBit Reg.FLT_EVT 5).raise 15)) ∧
  (∀ (n : Fin 256) (s : State), s.open .flt = true → (n.val = 15 → s.flt.selfFails = false) →
    (((s.src n).st = .active ∧ (s.src n).broken = false) ∨ (s.src n).eventNow s.now = true) →
    answers (.clearSource n) s fun t => t.flt = s.flt ∧ t.bitOf Reg.FLT_EVT 5 = true ∧
      regsBut s t [Reg.FLT_CLEAR, Reg.FLT_CLEAR + 4, Reg.FLT_EVT]) ∧
  (∀ (s : State), s.open .flt = true → answers .clearAll s fun t => t.src 15 = s.src 15 ∧ ∀ m, m ≠ 15 →
    (((s.src m).st = .active ∧ (s.src m).broken = false) → t.src m = s.src m) ∧
    ((s.src m).eventNow s.now = true → ((s.src m).st ≠ .active ∨ (s.src m).broken = true ∨ (s.src m).wasSt ≠ .active) →
      t.src m = s.src m ∧ t.bitOf Reg.FLT_EVT 5 = true) ∧
    (((s.src m).st ≠ .active ∨ (s.src m).broken = true) → (s.src m).eventNow s.now = false →
      (t.src m).st = .quiet ∧ (t.src m).promoted = false ∧ (t.src m).recCnt = 0 ∧ (t.src m).ticks = [] ∧
      (t.src m).broken = false))

/-- Through the powered window of the collector: INJECT in factory test mode, with none pending, of an implemented
source other than FS15 and at least 1,000 ticks ahead is armed with FLT_INJ_AT and shown in FLT_INJ_STAT, and
changes nothing else but its own register pair; otherwise event bit 6 is set and nothing is armed. INJECTION_FIRE of
a source without an event at that tick makes it ACTIVE, or leaves it LOCKED, marked injected, and shows DONE; with a
real event of the source as its last, at that tick, it is dropped as COLLIDED; with none armed nothing happens.
DEBLOCK is accepted as R400 says: the latch is cleared, for emits from 16 ticks on, and stands before every powered
port; otherwise event bit 7 is set and the collector stays as it is. BLOCK_REQUEST sets the latch, which disarms the
undervoltage comparators. -/
def Obligations.InjectionAndConverterCommands : Prop :=
  (∀ (n : Fin 256) (s : State), s.open .flt = true →
    ((s.flt.factory = true ∧ s.flt.inj = none ∧ n.val ≠ 15 ∧ reservedSrc n = false ∧
        1000 ≤ timeDiff (s.rd Reg.FLT_INJ_AT) (s.now.setWidth 32)) →
      answers (.inject n) s fun t => t.flt = { s.flt with inj := some { tick := s.rd Reg.FLT_INJ_AT, src := n } } ∧
        t.rd Reg.FLT_INJ_STAT = bitIf true 8 ||| BitVec.ofNat 32 n ∧ { t with flt := s.flt, regs := s.regs } = s ∧
        regsBut s t [Reg.FLT_INJ, Reg.FLT_INJ + 4, Reg.FLT_INJ_STAT]) ∧
    ((s.flt.factory = false ∨ s.flt.inj.isSome = true ∨ n.val = 15 ∨ reservedSrc n = true ∨
        timeDiff (s.rd Reg.FLT_INJ_AT) (s.now.setWidth 32) < 1000) →
      answers (.inject n) s fun t => t.flt = s.flt ∧ t.bitOf Reg.FLT_EVT 6 = true)) ∧
  (∀ (j : Inj) (s s1 : State), s.flt.inj = some j → s1 = s.advanceTo (s.now + BitVec.ofNat 64 (timeDiff j.tick (s.now.setWidth 32)).toNat) →
    (s.src j.src).last = some s1.now → (s.src j.src).injected = false → exec .injectionFire s = .next (s1.collide j.src)) ∧
  (∀ (s : State), s.flt.inj = none → exec .injectionFire s = .next s) ∧
  (∀ (j : Inj) (s s1 : State), s.flt.inj = some j → noMarks s → j.src ≠ 15 → j.src < 256 → reservedSrc j.src = false →
    s1 = s.advanceTo (s.now + BitVec.ofNat 64 (timeDiff j.tick (s.now.setWidth 32)).toNat) →
    (s.src j.src).seen s1.now = false → (s.src j.src).clearedAfter s1.now = none → (s.src j.src).latest s1.now = true →
    answers .injectionFire s fun t =>
      (t.src j.src).st = (if ((s1.undo j.src s1.now).src j.src).st = .locked then .locked else .active) ∧
      (t.src j.src).injected = true ∧ t.flt.inj = none ∧ (∀ m, m ≠ j.src → t.src m = s.src m) ∧
      t.rd Reg.FLT_INJ_STAT = bitIf true 9 ||| BitVec.ofNat 32 j.src ∧ t.bitOf Reg.FLT_EVT 8 = true) ∧
  (∀ (s : State), s.open .flt = true →
    (s.deblockOk = true → answers .deblock s fun t => t.flt.latch = false ∧
      t.flt.latchLog.head? = some (s.now + 16, false) ∧ t.flt.srcs = s.flt.srcs ∧
      (∀ p : Fin 12, s.open (.port p) = true → (t.port p).deblock = true)) ∧
    (s.deblockOk = false → answers .deblock s fun t => t.flt = s.flt ∧ t.ports = s.ports ∧ t.bitOf Reg.FLT_EVT 7 = true) ∧
    (answers .blockRequest s fun t => t.flt.latch = true ∧ t.flt.latchLog.head? = some (s.now + 16, true) ∧
      t.flt.srcs = s.flt.srcs ∧ t.isl = s.isl.uvOff ∧ t.ports = s.ports ∧
      regsBut s t [Reg.FLT_CONV, Reg.FLT_CONV + 4, Reg.FLT_EVT] ∧
      { t with flt := s.flt, regs := s.regs, setAt := s.setAt, isl := s.isl } = s))

/-- Through the powered window: ARM that R443 allows is held for the next boundary, otherwise event bit 3 is set and the
record stays; STOP of a capturing recorder ends the record with the period in progress, otherwise event bit 3; FORCE
while ARMED fires with source 0x20 in the period in progress while that is captured (log entry 142), otherwise and
in IDLE or STOPPED it sets event bit 3. GUST_ARM_EFFECT at the first tick of a later period begins a new record,
ARMED, with that period as its first and no trigger shown. An ARM of the partner with sharing on acts the same way
but sends nothing to the partner; refused, it sets event bits 3 and 8. -/
def Obligations.GustCommands : Prop :=
  (∀ (s : State), s.open .gst = true →
    ((s.wrPair Reg.GST_CMD (actionWord 1 0)).gstArmOk = true → answers .arm s fun t =>
      t.gst = { s.gst with armAt := some s.tb.pc } ∧ t.flt = s.flt ∧ t.ports = s.ports) ∧
    ((s.wrPair Reg.GST_CMD (actionWord 1 0)).gstArmOk = false → answers .arm s fun t =>
      t.gst = s.gst ∧ t.bitOf Reg.GST_EVT 3 = true ∧ regsBut s t [Reg.GST_CMD, Reg.GST_CMD + 4, Reg.GST_EVT]) ∧
    (s.gst.captures = true → answers .stop s fun t => t.gst = s.gst.stopWith s.tb.pc ∧
      regsBut s t [Reg.GST_CMD, Reg.GST_CMD + 4] ∧ { t with gst := s.gst, regs := s.regs } = s) ∧
    (s.gst.captures = false → answers .stop s fun t => t.gst = s.gst ∧ t.bitOf Reg.GST_EVT 3 = true) ∧
    (∀ r, s.gst.st = .armed → s.gstCurrent = some r → exec .force s = .next ((s.wrPair Reg.GST_CMD (actionWord 3 0)).gstFire r 0x20)) ∧
    ((s.gst.st = .idle ∨ s.gst.st = .stopped ∨ (s.gst.st = .armed ∧ s.gstCurrent = none)) → answers .force s fun t => t.gst = s.gst ∧ t.bitOf Reg.GST_EVT 3 = true)) ∧
  (∀ (pc : BitVec 32) (s : State), s.gst.armAt = some pc → s.tb.run = true → pc ≠ s.tb.pc → s.inPer = 0 →
    answers .gustArmEffect s fun t => t.gst = s.gstFresh ∧ t.gst.st = .armed ∧ t.gst.pcA = s.tb.pc ∧
      t.bitOf Reg.GST_EVT 0 = true ∧ t.rd Reg.GST_TRIG_PC = 0 ∧ t.rd Reg.GST_TRIG_SRC = 0 ∧ t.ports = s.ports ∧ t.flt = s.flt) ∧
  (∀ (s : State), s.open .gst = true → s.gstShareRx = true → s.twinEn = true →
    (s.gstArmOk = true → answers .gustArmReceive s fun t => t.gst = { s.gst with armAt := some s.tb.pc } ∧ t.twn = s.twn) ∧
    (s.gstArmOk = false → answers .gustArmReceive s fun t => t.gst = s.gst ∧
      t.bitOf Reg.GST_EVT 3 = true ∧ t.bitOf Reg.GST_EVT 8 = true ∧ onlyRegs s t [Reg.GST_EVT]))

/-- With PD7 powered and the recorder capturing: TRACE_WORD of a channel that traces a slot, whose row is open, puts its
sample into that row; for a channel that does not, capturing or not, it counts as late and nothing is stored; for a
row of this period or an earlier one that has closed it counts as late and no row takes it. TRACE_ROW_CLOSE closes
the oldest open row but that of the period in progress, 16 ticks into that period. RECORD_DEADLINE of a captured
period marks its trace row, or its plane record, and raises FS240. GUST_FIRE_RECEIVE with sharing on that names a
captured period of an armed recorder out of hold-off triggers with source 0x21 at that period, and captures on to
POST periods after it, or to the newest period where that is later; of a triggered recorder one that names an
earlier period, captured or not, moves the trigger there; one that names none sets event bit 8. -/
def Obligations.GustRowsFillAndClose : Prop :=
  (∀ (word : BitVec 64) (s : State), s.powered 7 = true → s.gstSrc (fieldOf word 16 6) ≠ 1 →
    exec (.traceWord word) s = .next (s.bump Reg.GST_CNT_LATE)) ∧
  (∀ (word : BitVec 64) (pc : BitVec 32) (s : State), s.powered 7 = true → s.gst.captures = true →
    pc = s.tb.pc + BitVec.ofInt 32 (timeDiff (BitVec.ofNat 16 (fieldOf word 0 16)) (s.tb.pc.setWidth 16)) →
    (s.gstSrc (fieldOf word 16 6) = 1 → (s.gst.live.any fun r => r.pc == pc && s.rowOpen r) = true →
      answers (.traceWord word) s fun t =>
        (∀ r ∈ t.gst.live, r.pc = pc → Sparse.get (fun _ => none) r.row (fieldOf word 16 6) =
          some (BitVec.ofNat 32 (fieldOf word 32 32), word.getLsbD 31)) ∧
        (∀ r ∈ t.gst.live, r.pc ≠ pc → r ∈ s.gst.live) ∧ t.gst.hist = s.gst.hist ∧ regsBut s t [Reg.GST_CNT_DUP]) ∧
    (s.gstSrc (fieldOf word 16 6) = 1 → (s.gst.live.any fun r => r.pc == pc && s.rowOpen r) = false → pcLe pc s.tb.pc = true →
      answers (.traceWord word) s fun t => t.gst.live.map (·.row) = s.gst.live.map (·.row) ∧ regsBut s t [Reg.GST_CNT_LATE] ∧
        t.rdNat Reg.GST_CNT_LATE = satInc (s.rdNat Reg.GST_CNT_LATE) 0xFFFFFFFF)) ∧
  (∀ (r : GstPer) (s : State), s.gstClosing = some r →
    exec .traceRowClose s = .next ((s.advanceTo (s.tickAt 16)).gstClose r)) ∧
  (∀ (pc : BitVec 32) (s : State),
    (pc = s.tb.pc - 2 → (s.gst.find pc).isSome = true → ∃ u : State,
      u.gst.live = s.gst.live.map (fun r => if r.pc = pc then { r with trFault := true } else r) ∧
      u.gst.hist = s.gst.hist.map (fun r => if r.pc = pc then { r with trFault := true } else r) ∧
      u.bitOf Reg.GST_EVT 9 = true ∧ regsBut s u [Reg.GST_EVT] ∧ exec (.recordDeadline true) s = .next (u.raise 240)) ∧
    (pc = s.tb.pc - 1 → (s.gst.find pc).isSome = true → s.gst.planeOn = true → ∃ u : State,
      u.gst.live = s.gst.live.map (fun r => if r.pc = pc then { r with plFault := true } else r) ∧
      u.gst.hist = s.gst.hist.map (fun r => if r.pc = pc then { r with plFault := true } else r) ∧
      u.bitOf Reg.GST_EVT 9 = true ∧ regsBut s u [Reg.GST_EVT] ∧ exec (.recordDeadline false) s = .next (u.raise 240))) ∧
  (∀ (vt : BitVec 64) (s : State), s.open .gst = true → s.gstShareRx = true → s.twinEn = true →
    (∀ q, s.gstNamed vt = some q → s.gst.st = .armed → s.gstHoldoff = false → exec (.gustFireReceive vt) s =
      .next (s.gstTrigger q.1 q.2 0x21 (if pcLe (q.1 + BitVec.ofNat 32 s.gstPost) s.gstNewest = true then s.gstNewest
        else q.1 + BitVec.ofNat 32 s.gstPost) true)) ∧
    (∀ q old, s.gstNamed vt = some q ∨ (s.gstNamed vt = none ∧ s.gstOlder vt = some q) → s.gst.st = .triggered →
      s.gst.trig = some old → q.1 ≠ old → pcLe q.1 old = true → exec (.gustFireReceive vt) s =
      .next (s.gstTrigger q.1 q.2 0x21 (if pcLe (q.1 + BitVec.ofNat 32 s.gstPost) s.gstNewest = true then s.gstNewest
        else q.1 + BitVec.ofNat 32 s.gstPost) true)) ∧
    (s.gstNamed vt = none → (s.gstOlder vt = none ∨ s.gst.st ≠ .triggered) →
      exec (.gustFireReceive vt) s = .next (s.setBit Reg.GST_EVT 8)))

/-- With the twin port in DATA and a whole epoch pair: RENEW at a module without the lease and without a claim learns
the epoch and makes the view last L of the message from now; STATUS is kept as the partner's; SURRENDER ends the
view, and in ZEPHYR begins the power step of a claim and switches on the engines' domains that the image uses;
RECLAIM at a duty secondary enters HANDING and answers HANDOVER with the period h; HANDOVER at the primary in WARM
is kept with its h; ACK in HANDING ends in ZEPHYR with the takeback's first period shown; NAK in HANDING, with the
ports in DATA, resumes DUTY with result 0x20 and event bit 7; ECHO is answered 256 ticks after its arrival;
ECHO_RESP measures the link's delay, and sets VT_OFS where it was unset and no periods run. -/
def Obligations.PartnerMessagesDoTheirWork : Prop :=
  (∀ (m : TwMsgIn) (s : State), s.twinUp = true → pairOk m.epoch m.epochC = true →
    (s.holds = false → s.twn.claim = none → answers (.renew m) s fun t =>
      t.twn.viewTo = some (s.now + BitVec.ofNat 64 (us (fieldOf m.arg 0 16))) ∧ t.twn.lease = s.twn.lease ∧
      ((s.twn.epochKnown = false ∨ 0 < timeDiff m.epoch s.epoch) → t.epoch = m.epoch ∧ t.twn.epochKnown = true)) ∧
    (s.twn.lease = .duty → fieldOf m.arg 0 4 ≠ 6 → s.twn.epochKnown = true → answers (.status m .none) s fun t =>
      t.twn.partner = some (partnerOf m.arg s.now) ∧ t.twn.lease = .duty ∧ regsBut s t [Reg.TWN_PHASE]) ∧
    (s.twn.lease = .zephyr → s.twn.mustHeal = false → s.twn.claim = none → answers (.surrender m) s fun t =>
      t.twn.viewTo = none ∧ t.twn.claim = some { step := .power, stepAt := s.now, began := s.now } ∧
      (s.mayPower = true → ∀ d, d ∈ [2, 3, 4] → s.sys.cfg.dev.pdUse.getLsbD d = true → t.powered d = true) ∧
      ∀ a, a ≠ Reg.TWN_PHASE →
        (∀ b ∈ domainBlks 2 ++ domainBlks 3 ++ domainBlks 4, a < b.range.1 ∨ b.range.2 ≤ a) → t.rd a = s.rd a) ∧
    (s.duty = true → s.twn.secondary = true → s.tb.run = true → answers (.reclaim m) s fun t =>
      t.twn.lease = .handing ∧ t.twn.hand = some { h := s.handPeriod, began := s.now } ∧
      (∃ o, t.twn.sent.head? = some o ∧ o.op = 0x05 ∧ o.arg = BitVec.ofNat 64 s.handPeriod.toNat) ∧
      regsBut s t [Reg.TWN_PHASE, Reg.TWN_EVT]) ∧
    (s.twn.lease = .warm → answers (.handover m) s fun t =>
      t.twn.hand = some { h := BitVec.ofNat 32 (fieldOf m.arg 0 32), began := s.now } ∧ t.twn.lease = .warm ∧
      regsBut s t [Reg.TWN_PHASE]) ∧
    (answers (.echo m) s fun t => t.twn.msgSeq = s.twn.msgSeq + 1 ∧
      (∃ o, t.twn.sent.head? = some o ∧ o.op = 0x09 ∧ o.arg = s.now ∧ o.vt = s.now + 256) ∧ regsBut s t [Reg.TWN_PHASE])) ∧
  (∀ (m : TwMsgIn) (h : Hand) (s : State), s.twinUp = true → pairOk m.epoch m.epochC = true → s.twn.lease = .handing →
    s.twn.hand = some h →
    (answers (.ack m) s fun t => t.twn.lease = .zephyr ∧ t.twn.hand = none ∧
      t.rd Reg.TWN_TKO_PC = BitVec.ofNat 32 (fieldOf m.arg 0 32) ∧ t.bitOf Reg.TWN_EVT 6 = true ∧ t.powered 2 = false) ∧
    (noMarks s → s.portsTrained = true → answers (.nak m) s fun t => t.twn.lease = .duty ∧ t.twn.hand = none ∧
      t.field Reg.TWN_RES 24 8 = 0x20 ∧ t.bitOf Reg.TWN_EVT 7 = true)) ∧
  (∀ (m : TwMsgIn) (ui : Fin 32) (t1 : Nat) (twice : Int) (s : State), s.twinUp = true → pairOk m.epoch m.epochC = true →
    s.twn.echoAt = some t1 →
    twice = (32 * (s.tb.vt.toNat : Int) + (ui : Nat) - t1) - 32 * timeDiff m.vt m.arg →
    answers (.echoResp m ui) s fun t => t.twn.echoAt = none ∧
      t.rd Reg.TWN_DELAY = BitVec.ofNat 32 (min (twice / 2).toNat 0xFFFFFF) ∧
      (s.twn.ofsSet = false → s.tb.run = false → t.twn.ofsSet = true ∧
        t.twn.vtOfs = BitVec.ofInt 64 ((64 * (m.arg.toNat : Int) - 2 * t1 - twice) / 64)) ∧
      (s.twn.ofsSet = true ∨ s.tb.run = true → t.twn.vtOfs = s.twn.vtOfs))

/-- RENEW_SEND of a duty, with no source marked for surrender and the twin port up, L/4 after the last one (time moves
on to then), sends RENEW, queues a LEASE message on each arm port in use and in DATA, and keeps the tick at which it
became DUTY; STATUS_SEND with the twin port up, outside WARM, sends STATUS with the lease state and the health, 8
periods after the last; TWIN_ECHO_SEND of a module not aligned and not the owner sends ECHO and notes its departure;
LEASE_QUERY_SEND in CLAIMING from INIT before the CLAIM queues a LEASE message on each of those ports, 2 periods
after the last, and in CLAIMING from ZEPHYR sends none; CHECKPOINT_CAPTURE of a duty with a twin, at a boundary,
captures the first checkpoint, and its registers show it with the twin port up; LIVE_CAPTURE in HANDING in the
period before h captures the LIVE transfer once. -/
def Obligations.TwinSendsWhenDue : Prop :=
  (∀ (s s1 : State), s1 = s.dueAgain s.twn.renewAt (s.leaseTicks / 4) → s.duty = true → noMarks s → s.twinUp = true →
    answers .renewSend s fun t =>
    t.twn.lease = .duty ∧ t.twn.renewAt = some (s1.dueMark s.twn.renewAt (s.leaseTicks / 4)) ∧ t.twn.dutyAt = s.twn.dutyAt ∧
    (∃ o, t.twn.sent.head? = some o ∧ o.op = 0x01 ∧ fieldOf o.arg 0 16 = s.field Reg.TWN_CFG 16 16) ∧
    ∀ p : Fin 12, s.inUse p = true → (s.lane p).inData = true → ∃ c, (t.port p).ctrl = (s.port p).ctrl ++ [c] ∧ c.op = 0x09) ∧
  (∀ (s s1 : State), s1 = s.dueAgain s.twn.statusAt (8 * s.sec.p) → s.twinUp = true → s.twn.lease ≠ .warm →
    answers .statusSend s fun t =>
    (∃ o, t.twn.sent.head? = some o ∧ o.op = 0x02 ∧ fieldOf o.arg 0 4 = s.twn.lease.code ∧ o.arg.getLsbD 4 = s.healthy) ∧
    t.twn.statusAt = some (s1.dueMark s.twn.statusAt (8 * s.sec.p)) ∧ t.twn.lease = s.twn.lease ∧ t.regs = s.regs) ∧
  (∀ (t0 : BitVec 64) (n : Nat) (s : State), s.sys.going = true → s.dueAgain none n = s ∧
    (s.dueAgain (some t0) n).now =
      (if 0 ≤ timeDiff (t0 + BitVec.ofNat 64 n) s.now then t0 + BitVec.ofNat 64 n else s.now) ∧
    ∃ k, s.dueMark (some t0) n = t0 + BitVec.ofNat 64 (k * n) ∧ k * n ≤ (s.now - t0).toNat) ∧
  (∀ (s : State), s.twinUp = true → s.timeOwner = false → s.twn.ofsSet = false → answers .twinEchoSend s fun t =>
    (∃ o, t.twn.sent.head? = some o ∧ o.op = 0x08 ∧ o.vt = s.msgSlot) ∧
    t.twn.echoAt = some (32 * (s.msgSlot - s.twn.vtOfs).toNat) ∧ t.regs = s.regs ∧
    { t with twn := s.twn } = s) ∧
  (∀ (c : Claim) (s s1 : State), s1 = s.dueAgain s.twn.queryAt (2 * s.sec.p) → s.twn.lease = .claiming →
    s.twn.claim = some c → c.step = .rule →
    (c.fromInit = true → answers .leaseQuerySend s fun t => t.twn.claim = some c ∧ t.twn.queryAt = some (s1.dueMark s.twn.queryAt (2 * s.sec.p)) ∧
      t.regs = s.regs ∧
      ∀ p : Fin 12, s.inUse p = true → (s.lane p).inData = true → ∃ q, (t.port p).ctrl = (s.port p).ctrl ++ [q] ∧ q.op = 0x09) ∧
    (c.fromInit = false → answers .leaseQuerySend s fun t => t.ports = s.ports ∧ t.regs = s.regs ∧ t.twn.claim = some c)) ∧
  (∀ (s : State), s.duty = true → s.twinEn = true → s.tb.run = true → s.inPer = 0 → s.twn.ckptAt = none →
    answers .checkpointCapture s fun t => t.twn.ckptAt = some s.now ∧ t.twn.ckptNo = s.twn.ckptNo + 1 ∧
      (s.twinUp = true → t.rd Reg.TWN_CKPT_PC = s.tb.pc) ∧ (s.twinUp = false → t.regs = s.regs) ∧
      regsBut s t [Reg.TWN_CKPT_PC, Reg.TWN_CKPT_CNT, Reg.TWN_CKPT_LEN] ∧
      { t with twn := s.twn, regs := s.regs } = s) ∧
  (∀ (h : Hand) (s : State), s.twn.lease = .handing → s.twn.hand = some h → h.captured = false → s.tb.pc = h.h - 1 →
    answers .liveCapture s fun t => (∃ l, t.twn.hand = some { h with live := l, captured := true }) ∧
      t.twn.handNo = s.twn.handNo + 1 ∧ t.twn.lease = .handing ∧ t.regs = s.regs)

/-- With no source marked for surrender: LEASE_VIEW_EXPIRY in ZEPHYR begins a claim's power step and switches on the
engines' domains that the image uses; ENGINE_POWER_UP_DONE takes it on to the restore or, with the tests failed, to
FAILED with 0x14; RESTORE_DONE takes it on to the rule, or to FAILED with 0x11 where nothing can be restored;
CLAIM_SEND, and CLAIM_DELAY_EXPIRY of a delayed claim, send the CLAIM with the epoch above the highest known when
every port in use is ready; EPOCH_LEARN_TIMEOUT claims with the key's epoch + 1; CLAIM_CONFIRM_TIMEOUT tries again
0x0100 higher, or fails with 0x17 after 256; CLAIM_STEP_TIMEOUT fails the claim with the step's code.
PARTNER_TIMEOUT in INIT makes the module the time owner. RECLAIM_HEALTH_TIMER of a healthy primary whose partner is
DUTY enters WARM and sends RECLAIM. -/
def Obligations.ClaimGoesStepByStep : Prop :=
  (∀ (t0 : BitVec 64) (s : State), s.twn.viewTo = some t0 → s.twn.lease = .zephyr → s.twn.mustHeal = false → s.twn.claim = none →
    answers .leaseViewExpiry s fun t => t.twn.viewTo = none ∧
      (s.mayPower = true → ∀ d, d ∈ [2, 3, 4] → s.sys.cfg.dev.pdUse.getLsbD d = true → t.powered d = true) ∧
      (∀ a, (∀ b ∈ domainBlks 2 ++ domainBlks 3 ++ domainBlks 4, a < b.range.1 ∨ b.range.2 ≤ a) → t.rd a = s.rd a) ∧
      t.twn.claim = some { step := .power, stepAt := (s.advanceTo t0).now, began := (s.advanceTo t0).now }) ∧
  (∀ (c : Claim) (s : State), s.twn.claim = some c → noMarks s →
    (c.step = .power → (answers (.enginePowerUpDone true) s fun t => t.twn.claim = some { c with step := .restore, stepAt := s.now }) ∧
      answers (.enginePowerUpDone false) s fun t => t.twn.lease = .failed ∧ t.twn.claim = none ∧ t.field Reg.TWN_RES 24 8 = 0x14) ∧
    (c.step = .restore →
      (s.restorable.isSome = true → answers .restoreDone s fun t => t.twn.claim = some { c with step := .rule, stepAt := s.now }) ∧
      (s.restorable = none → answers .restoreDone s fun t => t.twn.lease = .failed ∧ t.twn.claim = none ∧
        t.field Reg.TWN_RES 24 8 = 0x11)) ∧
    (c.fromInit = false → (c.step = .power ∨ c.step = .restore ∨ c.step = .sent) → answers .claimStepTimeout s fun t =>
      t.twn.lease = .failed ∧ t.twn.claim = none ∧ t.bitOf Reg.TWN_EVT 1 = true ∧
      t.field Reg.TWN_RES 24 8 = (match c.step with | .power => 0x10 | .restore => 0x11 | _ => 0x12)) ∧
    (c.fromInit = true → c.step = .sent →
      (c.tries < 256 → answers .claimConfirmTimeout s fun t => ∃ d, t.twn.claim = some d ∧ d.step = .sent ∧
        d.tries = c.tries + 1 ∧ d.epoch = c.epoch + 0x0100) ∧
      (256 ≤ c.tries → answers .claimConfirmTimeout s fun t => t.twn.lease = .failed ∧ t.field Reg.TWN_RES 24 8 = 0x17))) ∧
  (∀ (c : Claim) (m : BitVec 64) (s : State), s.twn.lease = .claiming → s.twn.claim = some c → c.metAt = some m → c.step = .rule →
    (∀ p, p < 12 → s.inUse p = true → (s.lane p).inData = true ∧ (c.fromInit = true ∨ (s.port p).censusOk = true)) →
    (s.since m s.claimDelay = true → answers .claimSend s fun t =>
      t.twn.claim = some { c with step := .sent, stepAt := s.now, epoch := s.highEpoch + 1, epochC := ~~~ (s.highEpoch + 1), confirmed := 0 } ∧
      ∀ p : Fin 12, s.inUse p = true → ∃ q, (t.port p).ctrl = (s.port p).ctrl ++ [q] ∧ q.op = 0x09 ∧
        q.epoch = some (s.highEpoch + 1)) ∧
    (0 < s.claimDelay → answers .claimDelayExpiry s fun t => ∃ d, t.twn.claim = some d ∧ d.step = .sent ∧
      d.epoch = s.highEpoch + 1)) ∧
  (∀ (c : Claim) (s : State), s.twn.lease = .claiming → s.twn.claim = some c → c.step = .learn → s.twn.epochKnown = false →
    answers .epochLearnTimeout s fun t => t.twn.epochKnown = true ∧ t.epoch = s.key.epoch ∧ ∃ d, t.twn.claim = some d ∧
      d.step = .sent ∧ d.epoch = s.key.epoch + 1) ∧
  (∀ (s : State), s.twn.lease = .init → 4 ≤ s.sys.stage → s.twn.ofsSet = false → s.twn.partner = none →
    answers .partnerTimeout s fun t => t.twn.ofsSet = true ∧ t.twn.owner = true ∧ t.twn.lease = .init ∧ t.regs = s.regs) ∧
  (∀ (h : BitVec 64) (p : Partner) (s s1 : State), s.healthy = true → s.twn.healthyAt = some h →
    s1 = s.advanceTo (h + BitVec.ofNat 64 s.reclaimTicks) → s1.since h s1.reclaimTicks = true → s.twn.lease = .zephyr →
    s.twinEn = true → s.twn.secondary = false → s.twn.partner = some p → p.lease = 3 → s.bitOf Reg.TWN_CFG 2 = true →
    answers (.reclaimHealthTimer true) s fun t => t.twn.lease = .warm ∧ t.twn.mustHeal = false ∧
      ∃ o, t.twn.sent.head? = some o ∧ o.op = 0x04)

/-- At a module without the lease and not in WARM with the twin port up, CHECKPOINT_RECEIVE of a transfer that passes
its checks holds it, one that fails is counted and the held one stays; CHECKPOINT_TIMEOUT while the partner shows
DUTY raises FS198. In WARM, with no source marked: LIVE_RECEIVE of a good transfer in time takes the duty from
period h and sends ACK; a bad one, or LIVE_DEADLINE, sends NAK and stands down with 0x22. HANDING_TIMEOUT stands
down with 0x21. Through the powered window TWN_SURRENDER_CMD of a duty whose partner is ready stops all frames,
sends SURRENDER and ends in ZEPHYR with PD2 to PD4 off; TWN_RETRY of FAILED returns to INIT; TWN_ABORT_WARM leaves
WARM for ZEPHYR, with 0x21 where it drops a handover; each refused sets event bit 8. -/
def Obligations.CheckpointsAndHandovers : Prop :=
  (∀ (b : List (BitVec 8)) (s : State), s.twinUp = true → s.holds = false → s.twn.lease ≠ .warm →
    (ckptValid b = true → b.length = 64 + ckptFastLen b + 262144 → answers (.checkpointReceive b) s fun t =>
      t.twn.held = some (b.take (64 + ckptFastLen b)) ∧ t.twn.ckptFrom = s.now ∧
      t.rd Reg.TWN_CKPT_PC = BitVec.ofNat 32 (bytesAt b 0 4)) ∧
    ((ckptValid b = false ∨ b.length ≠ 64 + ckptFastLen b + 262144) → ∃ u : State, u.twn = s.twn ∧
      u.bitOf Reg.TWN_EVT 3 = true ∧ exec (.checkpointReceive b) s = .next (u.raise 199)) ∧
    (∀ p, s.twn.partner = some p → p.lease = 3 → ∃ u : State, u.twn.ckptFrom = u.now ∧ u.regs = s.regs ∧
      exec .checkpointTimeout s = .next (u.raise 198))) ∧
  (∀ (b : List (BitVec 8)) (h : Hand) (s : State), s.twn.lease = .warm → s.twn.hand = some h → noMarks s →
    (s.twinUp = true → ckptValid b = true → bytesAt b 0 4 = (h.h - 1).toNat → ckptPart b = 0xFF →
      b.length = 64 + ckptFastLen b → reached (s.liveBy h.h) s.now = true →
      answers (.liveReceive b) s fun t => t.twn.lease = .duty ∧ t.twn.computeFrom = some h.h ∧ t.rd Reg.TWN_TKO_PC = h.h ∧
        ∃ o, t.twn.sent.head? = some o ∧ o.op = 0x06 ∧ o.arg = BitVec.ofNat 64 h.h.toNat) ∧
    (s.twinUp = true → ckptValid b = false → answers (.liveReceive b) s fun t => t.twn.lease = .zephyr ∧
      t.field Reg.TWN_RES 24 8 = 0x22 ∧ ∃ o, t.twn.sent.head? = some o ∧ o.op = 0x07) ∧
    (answers .liveDeadline s fun t => t.twn.lease = .zephyr ∧ t.field Reg.TWN_RES 24 8 = 0x22 ∧
      ∃ o, t.twn.sent.head? = some o ∧ o.op = 0x07)) ∧
  (∀ (h : Hand) (s : State), s.twn.lease = .handing → s.twn.hand = some h → noMarks s → answers .handingTimeout s fun t =>
    t.twn.lease = .zephyr ∧ t.twn.hand = none ∧ t.field Reg.TWN_RES 24 8 = 0x21 ∧ t.bitOf Reg.TWN_EVT 7 = true) ∧
  (∀ (s : State), s.open .twn = true →
    (s.duty = true → s.twinEn = true → s.partnerReady = true → answers .twnSurrenderCmd s fun t =>
      t.twn.lease = .zephyr ∧ t.twn.mustHeal = true ∧ t.rd Reg.TWN_SURR = 4 ∧ t.powered 2 = false ∧ t.powered 3 = false ∧
      t.powered 4 = false ∧ (∀ p : Fin 12, (t.port p).framesOn = false) ∧
      ∃ o, t.twn.sent.head? = some o ∧ o.op = 0x03 ∧ o.arg = 4) ∧
    (s.twn.lease = .failed → answers .twnRetry s fun t => t.twn.lease = .init ∧ t.twn.claim = none ∧ t.twn.initAt = s.now ∧
      regsBut s t [Reg.TWN_CMD, Reg.TWN_CMD + 4, Reg.TWN_EVT] ∧ { t with twn := s.twn, regs := s.regs, setAt := s.setAt } = s) ∧
    (s.twn.lease = .warm → answers .twnAbortWarm s fun t => t.twn.lease = .zephyr ∧ t.powered 2 = false ∧
      t.twn.hand = none ∧ (s.twn.hand.isSome = true → t.field Reg.TWN_RES 24 8 = 0x21 ∧ t.bitOf Reg.TWN_EVT 7 = true)) ∧
    (s.duty = false → answers .twnSurrenderCmd s fun t => t.twn = s.twn ∧ t.bitOf Reg.TWN_EVT 8 = true) ∧
    (s.twn.lease ≠ .failed → answers .twnRetry s fun t => t.twn = s.twn ∧ t.bitOf Reg.TWN_EVT 8 = true) ∧
    (s.twn.lease ≠ .warm → answers .twnAbortWarm s fun t => t.twn = s.twn ∧ t.bitOf Reg.TWN_EVT 8 = true))

/-- BANK_CHARGED with 1,200 µF or more shows the capacitance and, with the timebase locked, ends stage 1. IMAGE_CHECK in
stage 2 fails with 0x11 without a key and with 0x12 on a bad header, and takes image A when it passes, with
SYS_IMG_RES at 0: stage 3. DOMAIN_SELF_TEST_DONE failed ends in 0x14; passed, the sections of the image take effect
and the ports begin. FIRST_BOUNDARY_PLACE of a module without a twin, or of a time owner that has heard its partner,
places b(0) with PC 0 at the first tick that R544 allows. READY_BLOCKED under R545 reaches stage 6 with result 1; in
stage 6 it only takes a module in INIT to ZEPHYR. START_STAGE_BOUND fails stage 1 with 0x10 and stage 2 with 0x11 or
0x12, and only notes 0x20 or 0x21 in stages 4 and 5. A start-up that fails has every domain from PD2 on off. -/
def Obligations.StartUpGoesByStages : Prop :=
  (∀ (c : BitVec 16) (s : State), s.sys.going = true → 1200 ≤ c.toNat → answers (.bankCharged c) s fun t =>
    t.rd Reg.SYS_HOLD_C = c.setWidth 32 ∧ t.sys.bankOk = true ∧ regsBut s t [Reg.SYS_HOLD_C] ∧
    (s.sys.stage = 1 → s.tb.lock = true → t.sys.stage = 2 ∧ t.sys.result = 0) ∧
    (¬ (s.sys.stage = 1 ∧ s.tb.lock = true) → t.sys.stage = s.sys.stage) ∧ { t with sys := s.sys, regs := s.regs } = s) ∧
  (∀ (s : State), s.sys.going = true → s.sys.stage = 2 →
    (s.key.present = false → answers .imageCheck s fun t => t.sys.stage = 7 ∧ t.sys.result = 0x11 ∧ t.sys.ready = false ∧
      (∀ d, 2 ≤ d → d < 14 → t.powered d = false) ∧ t.powered 1 = s.powered 1) ∧
    (s.key.present = true → keyHeaderOk s.mram = false → answers .imageCheck s fun t =>
      t.sys.stage = 7 ∧ t.sys.result = 0x12 ∧ ∀ d, 2 ≤ d → d < 14 → t.powered d = false) ∧
    (s.key.present = true → keyHeaderOk s.mram = true → imgCheck (s.readKey.imageBytes false) s.readKey.fuses = none →
      exec .imageCheck s = .next ((s.readKey.wr Reg.SYS_IMG_RES 0).acceptImage false (s.readKey.imageBytes false)))) ∧
  (∀ (s : State), s.sys.stage = 3 →
    (answers (.domainSelfTestDone false) s fun t => t.sys.stage = 7 ∧ t.sys.result = 0x14 ∧ t.sys.ready = false) ∧
    (∀ c, s.sys.img = some c → exec (.domainSelfTestDone true) s = .next (s.putInEffect c).beginPorts)) ∧
  (∀ (s : State), s.sys.stage = 4 → s.tb.placed = false → s.sch.cur.isSome = true →
    (s.twinEn = false ∨ (s.twn.ofsSet = false ∧ s.twn.partner.isSome = true ∧ s.timeOwner = true)) →
    answers .firstBoundaryPlace s fun t => t.tb.placed = true ∧ t.tb.pc = 0 ∧ t.tb.period = s.sec.p ∧
      t.tb.nextB = s.firstBoundary ∧ t.twn.owner = true ∧ t.twn.ofsSet = true ∧ t.regs = s.regs ∧ { t with tb := s.tb, twn := s.twn } = s) ∧
  (∀ (s : State), s.sys.stage = 5 → s.portsReady = true → s.leaseReady = true → answers .readyBlocked s fun t =>
    t.sys.stage = 6 ∧ t.sys.result = 1 ∧ t.sys.ready = true ∧ t.bitOf Reg.SYS_EVT 0 = true ∧
    t.rd Reg.SYS_START_T = BitVec.ofNat 32 (s.sys.up / 200) ∧
    t.twn.lease = (if s.twn.lease = .init then .zephyr else s.twn.lease)) ∧
  (∀ (s : State), s.sys.stage = 6 → s.portsReady = true → s.leaseReady = true → answers .readyBlocked s fun t =>
    t.sys.stage = 6 ∧ t.sys.result = s.sys.result ∧ t.twn.lease = (if s.twn.lease = .init then .zephyr else s.twn.lease)) ∧
  (∀ (s : State), s.sys.going = true →
    (s.sys.stage = 1 → answers .startStageBound s fun t => t.sys.stage = 7 ∧ t.sys.result = 0x10) ∧
    (s.sys.stage = 2 → answers .startStageBound s fun t => t.sys.stage = 7 ∧
      t.sys.result = if s.key.present then 0x12 else 0x11) ∧
    (s.sys.stage = 4 → answers .startStageBound s fun t => t.sys.stage = 4 ∧ t.sys.result = 0x20 ∧ t.regs = s.regs) ∧
    (s.sys.stage = 5 → answers .startStageBound s fun t => t.sys.stage = 5 ∧ t.sys.result = 0x21 ∧ t.regs = s.regs))

/-- A KEY_CMD action that R580 allows is held as the command in progress with KEY_ADDR, KEY_LEN and KEY_BUF; any other
sets KEY_EVT bit 4 and changes nothing but its own register pair. KEY_COMMAND_DONE of a read copies KEY_LEN bytes of
the key to memory, of a write copies them to the key, and no other byte changes; a write that failed, or whose data
came marked in error, sets event bit 3 and raises FS254; a verify leaves both memories. KEY_INSERT into an empty
slot before power gives the key's content; KEY_REMOVE empties the slot. COUNTER_AREA_WRITE of a key that has been
read writes the next sequence to the copy not in effect, and a failed write leaves free values there and raises
FS254. -/
def Obligations.KeyCommandsActOnTheKey : Prop :=
  (∀ (slot : Fin 16) (b : Bool) (s : State), s.open .key = true →
    (∀ (c : Instr) (action n : Nat), (c, action, n) ∈ [(Instr.keyRead, 1, 0), (.keyWrite, 2, 0), (.keyInvalidatePm slot, 3, slot.val),
        (.keyVerify b, 4, if b then 1 else 0)] →
      ∀ k : KeyCmd, k = { action := action, slot := n, addr := s.field Reg.KEY_ADDR 0 27, len := s.field Reg.KEY_LEN 0 25, buf := s.keyBuf } →
      (s.keyMay k = true → answers c s fun t => t.key = { s.key with cmd := some k } ∧
        regsBut s t [Reg.KEY_CMD, Reg.KEY_CMD + 4] ∧ { t with key := s.key, regs := s.regs } = s) ∧
      (s.keyMay k = false → answers c s fun t => t.key = s.key ∧ t.bitOf Reg.KEY_EVT 4 = true ∧
        onlyRegs s t [Reg.KEY_CMD, Reg.KEY_CMD + 4, Reg.KEY_EVT]))) ∧
  (∀ (ok : Bool) (k : KeyCmd) (s : State), s.key.cmd = some k → s.key.present = true →
    (k.action = 1 → answers (.keyCommandDone ok) s fun t => t.key.cmd = none ∧ t.bitOf Reg.KEY_EVT 2 = true ∧ t.mram = s.mram ∧
      (∀ i, i < k.len → t.ram.byte (k.buf + i) = s.mram.byte (k.addr + i)) ∧
      ∀ a, (a < k.buf ∨ k.buf + k.len ≤ a) → t.ram.byte a = s.ram.byte a) ∧
    (k.action = 2 → ok = true → k.marked = false → answers (.keyCommandDone ok) s fun t => t.key.cmd = none ∧ t.bitOf Reg.KEY_EVT 2 = true ∧
      t.ram = s.ram ∧ (∀ i, i < k.len → t.mram.byte (k.addr + i) = s.ram.byte (k.buf + i)) ∧
      ∀ a, (a < k.addr ∨ k.addr + k.len ≤ a) → t.mram.byte a = s.mram.byte a) ∧
    (k.action = 2 → (ok = false ∨ k.marked = true) → ∃ u : State, u.key.cmd = none ∧ u.bitOf Reg.KEY_EVT 3 = true ∧ u.ram = s.ram ∧
      (∀ a, (a < k.addr ∨ k.addr + k.len ≤ a) → u.mram.byte a = s.mram.byte a) ∧
      exec (.keyCommandDone ok) s = .next (u.raise 254)) ∧
    (k.action = 4 → answers (.keyCommandDone ok) s fun t => t.key.cmd = none ∧ t.ram = s.ram ∧ t.mram = s.mram ∧
      regsBut s t [Reg.SYS_IMG_RES, Reg.KEY_EVT])) ∧
  (∀ (content : List (Nat × BitVec 8)) (s : State), s.key.present = false → s.sys.going = false →
    Instr.wellFormed (.keyInsert content) = true → answers (.keyInsert content) s fun t => t.mram = content ∧
      t.key.present = true ∧ t.regs = s.regs ∧ t.ram = s.ram) ∧
  (∀ (s : State), s.key.present = true → s.key.id = none → answers .keyRemove s fun t => t.mram = [] ∧
    t.key.present = false ∧ t.key.pmCount = 0 ∧ t.ram = s.ram ∧ regsBut s t [Reg.KEY_EVT]) ∧
  (∀ (s : State), s.key.present = true → s.key.foreign = false → s.key.id.isSome = true → s.key.due.isSome = true →
    (answers (.counterAreaWrite true) s fun t => t.key.seq = s.key.seq + 1 ∧ t.key.copy = 1 - s.key.copy ∧ t.key.due = none ∧
      t.mram = s.mram.write (keyCopyAt (1 - s.key.copy)) (s.areaBytes (s.key.seq + 1)) ∧ t.regs = s.regs ∧ t.ram = s.ram) ∧
    ∃ u : State, u.key = s.key ∧ u.regs = s.regs ∧ exec (.counterAreaWrite false) s = .next (u.raise 254))

/-- From stage 3 on, through the powered window: OPEN empties the Draft unless it is PENDING or being checked; LOAD of a
whole section that fits stages its body under its type and sets event bit 0, data marked in error set bit 1; CHECK
of a STAGING Draft begins the check; CHECK_DONE takes a set that passes to CHECKED with result 0, any other back to
STAGING with its code counted; COMMIT of a CHECKED set 16 to 2^24 periods ahead is PENDING for that boundary, sooner
it is refused with 0x30; ABORT returns a PENDING set two or more periods ahead to CHECKED and empties one that is
not committed. At the boundary named the schedule of the set is the one in effect with its P, and the Draft is
empty. -/
def Obligations.DraftGoesFromOpenToEffect : Prop :=
  (∀ (s : State), s.open .drf = true → s.draftOpenNow = true →
    (s.drf.st ≠ .pending → s.drf.st ≠ .checking →
      (answers .draftOpen s fun t => t.drf = { s.drf with st := .empty, staged := [], set := {}, pendAt := none } ∧
        regsBut s t [Reg.DRF_CMD, Reg.DRF_CMD + 4] ∧ { t with drf := s.drf, regs := s.regs } = s) ∧
      (s.drf.marked = true → answers .load s fun t => t.drf = { s.drf with marked := false } ∧ t.bitOf Reg.DRF_EVT 1 = true) ∧
      (s.drf.marked = false → s.draftSource ≠ [] → draftType (bytesAt s.draftSource 0 2) = true → sectionOk s.draftSource (bytesAt s.draftSource 0 2) = true →
        s.draftSource.length + s.drf.bytesBut (bytesAt s.draftSource 0 2) ≤ 0x400000 → answers .load s fun t =>
          t.drf.st = .staging ∧ t.drf.body (bytesAt s.draftSource 0 2) = some (s.draftSource.drop 16) ∧
          (∀ k, k ≠ bytesAt s.draftSource 0 2 → t.drf.body k = s.drf.body k) ∧ t.bitOf Reg.DRF_EVT 0 = true ∧ t.ram = s.ram) ∧
      (s.drf.marked = false → s.draftSource = [] → answers .load s fun t => t.drf = s.drf ∧ t.bitOf Reg.DRF_EVT 1 = true) ∧
      (answers .abort s fun t => t.drf.st = .empty ∧ t.drf.staged = [] ∧ t.drf.pendAt = none)) ∧
    (s.drf.st = .staging → answers .check s fun t => t.drf = { s.drf with st := .checking } ∧
      regsBut s t [Reg.DRF_CMD, Reg.DRF_CMD + 4]) ∧
    (s.drf.st = .checked →
      (16 ≤ timeDiff (s.rd Reg.DRF_COMMIT_PC) s.tb.pc → timeDiff (s.rd Reg.DRF_COMMIT_PC) s.tb.pc ≤ 2 ^ 24 →
        s.inHandover (s.rd Reg.DRF_COMMIT_PC) = false → answers .commit s fun t =>
          t.drf = { s.drf with st := .pending, pendAt := some (s.rd Reg.DRF_COMMIT_PC) } ∧
          regsBut s t [Reg.DRF_CMD, Reg.DRF_CMD + 4]) ∧
      (timeDiff (s.rd Reg.DRF_COMMIT_PC) s.tb.pc < 16 → answers .commit s fun t => t.drf = s.drf ∧
        t.rd Reg.DRF_RES = 0x30 ∧ t.bitOf Reg.DRF_EVT 6 = true)) ∧
    (∀ p, s.drf.st = .pending → s.drf.pendAt = some p → 2 ≤ timeDiff p s.tb.pc → answers .abort s fun t =>
      t.drf = { s.drf with st := .checked, pendAt := none })) ∧
  (∀ (s : State), s.drf.st = .checking →
    (s.draftVerdict = none → answers .checkDone s fun t => t.drf.st = .checked ∧ t.rd Reg.DRF_RES = 0 ∧
      t.bitOf Reg.DRF_EVT 2 = true ∧ t.sch = s.sch ∧ t.sys = s.sys) ∧
    (∀ e, s.draftVerdict = some e → answers .checkDone s fun t => t.drf = { s.drf with st := .staging } ∧
      t.bitOf Reg.DRF_EVT 3 = true ∧
      t.rd Reg.DRF_RES = BitVec.ofNat 32 (e.idx % 65536 * 65536 + e.tab * 4096 + e.typ * 256 + e.code))) ∧
  (∀ (s : State), s.drf.st = .pending → s.drf.pendAt = some s.tb.pc → s.now = s.tb.bound →
    answers .draftCommitBoundary s fun t => t.drf.st = .empty ∧ t.drf.staged = [] ∧ t.drf.crcs = s.drf.nextCrcs ∧
      t.rd Reg.DRF_SET_ID_EFF = setId s.drf.nextCrcs ∧ t.bitOf Reg.DRF_EVT 4 = true ∧
      ∀ c, s.drf.set.sch = some c → t.sch.cur = some c ∧ t.tb.period = c.p)

/-- With PD0 powered: a feed found outside 18 to 32 V shows its reading and raises FS0 or FS1, beyond 33 V it is cut off
as well; around a voltage from 18.5 to 31.5 V for 10 ms the mark ends, and below 32 V the cut-off ends. With both
feeds lost, and none marked for surrender, the ride-through begins, and with T_RIDE = 0 the shed; it ends when a
feed is back. A bank measurement shows voltage and energies; one that meets E_REQ raises nothing. A shed at E_REQ
with a standby ready turns every domain off but PD0, PD1 and PD8; without one, with arms not yet blocked, it sets
the block latch and waits; once the arms are blocked it goes on; a ride-through that lasts to its end begins the
shed then. A feed that returns after the shed restarts the part at stage 1, or is noted while the record is written. -/
def Obligations.FeedsBankAndShed : Prop :=
  (∀ (f : Fin 2) (v : BitVec 16) (s : State), s.sys.going = true →
    ((v.toNat < 1800 ∨ 3200 < v.toNat) → s.sys.feedBad.getLsbD f = false → ∃ u : State,
      u.field Reg.SYS_FEED (16 * f.val) 16 = v.toNat ∧ u.sys.feedBad.getLsbD f = true ∧
      (3300 < v.toNat → u.sys.feedCut.getLsbD f = true) ∧ (v.toNat ≤ 3300 → u.sys.feedCut = s.sys.feedCut) ∧
      regsBut s u [Reg.SYS_FEED] ∧ exec (.feedOutOfRange f v) s = .next (u.raise f)) ∧
    (answers (.feedInRange f v) s fun t => t.field Reg.SYS_FEED (16 * f.val) 16 = v.toNat ∧
      t.sys.feedBad.getLsbD f = (s.sys.feedBad.getLsbD f && !decide (1850 ≤ v.toNat ∧ v.toNat ≤ 3150)) ∧
      t.sys.feedCut.getLsbD f = (s.sys.feedCut.getLsbD f && !decide (v.toNat < 3200)) ∧ regsBut s t [Reg.SYS_FEED] ∧
      { t with sys := s.sys, regs := s.regs } = s)) ∧
  (∀ (a b : BitVec 16) (s : State), s.sys.going = true → s.sys.riding = none → s.sys.shed = .none → a.toNat < 1800 →
    b.toNat < 1800 → noMarks s → answers (.feedsLost a b) s fun t => t.sys.riding = some s.now ∧
      t.field Reg.SYS_FEED 0 16 = a.toNat ∧ t.field Reg.SYS_FEED 16 16 = b.toNat ∧
      (0 < s.tRide → t.bitOf Reg.SYS_EVT 3 = true) ∧ (s.tRide = 0 → t.sys.shed ≠ .none ∧ t.bitOf Reg.SYS_EVT 4 = true)) ∧
  (∀ (f : Fin 2) (v : BitVec 16) (s : State), s.sys.riding.isSome = true → s.sys.shed = .none → 1800 ≤ v.toNat →
    answers (.rideEnd f v) s fun t => t.sys.riding = none ∧ t.field Reg.SYS_FEED (16 * f.val) 16 = v.toNat ∧
      { t with sys := s.sys, regs := s.regs } = s) ∧
  (∀ (v : BitVec 16) (s : State), s.sys.going = true → s.eReq ≤ s.usableAt v → answers (.holdVoltageMeasure v) s fun t =>
    t.rd Reg.SYS_HOLD_V = v.setWidth 32 ∧ t.eUsable = min (s.usableAt v) 0xFFFF ∧ t.sys.holdLow = false ∧
    regsBut s t [Reg.SYS_HOLD_V, Reg.SYS_HOLD_E] ∧ { t with sys := s.sys, regs := s.regs } = s) ∧
  (∀ (t0 : BitVec 64) (s : State), s.sys.riding = some t0 → s.sys.shed = .none →
    (s.eUsable ≤ s.eReq → s.standbyReady = true → answers .shed s fun t => t.sys.shed = .recording ∧
      t.powered 8 = s.powered 8 ∧ t.powered 1 = s.powered 1 ∧ ∀ d, 2 ≤ d → d < 14 → d ≠ 8 → t.powered d = false) ∧
    (s.eUsable ≤ s.eReq → s.standbyReady = false → s.armsBlocked = false → answers .shed s fun t =>
      t.sys.shed = .waiting ∧ t.sys.shedAt = s.now ∧ t.flt.latch = true ∧ t.bitOf Reg.SYS_EVT 4 = true ∧ t.sys.pdOn = s.sys.pdOn) ∧
    (s.eReq < s.eUsable → exec .shed s = .next (s.advanceTo (t0 + BitVec.ofNat 64 s.tRide)).shedBegin)) ∧
  (∀ (s : State), s.sys.shed = .waiting → s.armsBlocked = true → answers .shed s fun t => t.sys.shed = .recording ∧
    ∀ d, 2 ≤ d → d < 14 → d ≠ 8 → t.powered d = false) ∧
  (∀ (s : State), (s.sys.shed = .recording → answers .shedFeedReturn s fun t => t.sys = { s.sys with feedBack := true } ∧
      { t with sys := s.sys } = s) ∧
    (s.sys.shed = .off → answers .shedFeedReturn s fun t => t.sys.stage = 1 ∧ t.sys.going = true ∧ t.tb.vt = 0 ∧
      t.twn.secondary = s.twn.secondary ∧ t.mram = s.mram ∧ t.sys.shed = .none))

/-- Outside a shed, with no source marked for surrender: PM_RECORD_START of a due cause without a usable key sets event
bit 6 and begins nothing; with one and 10 mJ or more usable it begins a record whose first cause is the one due.
PM_RECORD_DONE of a record written makes it the newest on the key and sets event bit 5; one that failed raises
FS254. TEMP_MEASURE shows the reading of every powered sensor and 0x8000 for the others. TEMP_CUTOFF of a sensor
above its cut-off level turns every domain but PD0 off, until PD0 next powers up. -/
def Obligations.RecordsAndTemperatures : Prop :=
  (∀ (v : BitVec 16) (d : PmDue) (rest : List PmDue) (s : State), s.sys.pmDue = d :: rest → s.sys.pm = none →
    s.sys.shed = .none → noMarks s →
    ((s.key.present = false ∨ s.key.foreign = true) → answers (.pmRecordStart v) s fun t => t.sys.pm = none ∧
      t.bitOf Reg.SYS_EVT 6 = true ∧ t.mram = s.mram) ∧
    (s.key.present = true → s.key.foreign = false → 10 ≤ s.usableAt v → answers (.pmRecordStart v) s fun t =>
      (∃ r, t.sys.pm = some r ∧ r.first = d ∧ r.cause = (1 : BitVec 3) <<< d.cause ∧ r.eReq = s.eReq) ∧ t.mram = s.mram)) ∧
  (∀ (r : PmRec) (s : State), s.sys.pm = some r → s.sys.shed = .none → s.key.present = true →
    (noMarks s → answers (.pmRecordDone true) s fun t => t.sys.pm = none ∧ t.key.pmNew = some (r.seq, r.slot) ∧
      t.bitOf Reg.SYS_EVT 5 = true) ∧
    ∃ u : State, u.sys.pm = none ∧ u.regs = s.regs ∧ u.sys.shed = .none ∧
      (∀ a, (a < keySlotAt r.slot ∨ keySlotAt r.slot + (512 + r.body.length) ≤ a) → u.mram.byte a = s.mram.byte a) ∧
      exec (.pmRecordDone false) s = .next (u.raise 254).shedEnds) ∧
  (∀ (t0 t1 t2 t3 t4 : BitVec 16) (s : State), s.sys.going = true → noMarks s → answers (.tempMeasure t0 t1 t2 t3 t4) s fun t =>
    t.rd (Reg.SYS_TEMP_S 0) = (if s.powered 0 then t0.setWidth 32 else 0x8000) ∧
    t.rd (Reg.SYS_TEMP_S 1) = (if s.powered 7 then t1.setWidth 32 else 0x8000) ∧
    t.rd (Reg.SYS_TEMP_S 2) = (if s.powered 8 then t2.setWidth 32 else 0x8000) ∧
    t.rd (Reg.SYS_TEMP_S 3) = (if s.powered 5 then t3.setWidth 32 else 0x8000) ∧
    t.rd (Reg.SYS_TEMP_S 4) = (if s.powered 6 then t4.setWidth 32 else 0x8000)) ∧
  (∀ (i : Fin 5) (x : Int) (s : State), s.tempOf i = some x → (tempLevels i).2.2 < x → answers (.tempCutoff i) s fun t =>
    t.sys.cutOff = true ∧ t.powered 0 = s.powered 0 ∧ ∀ d, 1 ≤ d → d < 14 → t.powered d = false)

/-- With PD9 on: LINK_DOWN and LINK_UP change the link bit and set event bit 0, and without PRP the loss on NET A or NET
B raises FS208 or FS209. A frame for a ring without PRP, not an order, takes the descriptor at its head when there
is one, moves the head on, and is lost otherwise. A supervision send counts and sends one frame on both ports; a
path timeout marks the path lost. A second copy of an order datagram on a PRP pair is discarded and counted. An
order that passes the checks is counted, its sequence and lifetime kept, and one that applies at once enters the
empty mailbox; a refusal shows its code with event bit 5 and changes no order state. A held message enters when its
time comes; a lifetime that has run out raises FS212 once its tick is over; a release moves the waiting message
forward. A status message in time is queued as a frame on each launch ring that sends status; launch times passed
are skipped and the next message waits for its own time. -/
def Obligations.NetworkLinksFramesAndOrders : Prop :=
  (∀ (p : Fin 3) (s : State), s.open .net = true →
    (s.net.link.getLsbD p = true → s.prpMode = false → ∃ u : State, u.net.link.getLsbD p = false ∧ u.bitOf Reg.NET_EVT 0 = true ∧
      regsBut s u [Reg.NET_EVT] ∧ (∀ q, q < 3 → q ≠ p.val → u.net.link.getLsbD q = s.net.link.getLsbD q) ∧
      exec (.linkDown p) s = .next (if p.val < 2 then u.raise (208 + p) else u)) ∧
    (s.net.link.getLsbD p = false → answers (.linkUp p) s fun t => t.net.link.getLsbD p = true ∧ t.bitOf Reg.NET_EVT 0 = true ∧
      regsBut s t [Reg.NET_EVT] ∧ { t with net := s.net, regs := s.regs, setAt := s.setAt } = s)) ∧
  (∀ (p : Fin 3) (f : List (BitVec 8)) (s : State), s.open .net = true → s.net.link.getLsbD p = true → 14 ≤ f.length →
    f.length ≤ 1518 → s.prpMode = false → s.isOrder p f = false →
    (s.headDesc p 0 = none → exec (.frameReceive p f) s = .next s) ∧
    (∀ i d, s.headDesc p 0 = some (i, d) → answers (.frameReceive p f) s fun t =>
      t.ringHead p 0 = (i + 1) % s.ringSize p 0 ∧ regsBut s t [Reg.NET_RING_PTR p 0] ∧
      { t with ram := s.ram, regs := s.regs } = s)) ∧
  (∀ (p : Fin 2) (t0 : Nat) (s : State), s.open .net = true → s.prpMode = true →
    (∀ s1 : State, s1 = (match s.net.supAt with | some t => s.elapse (t + ms 2000 - s.sys.up) | none => s) →
      answers .prpSupervisionSend s fun t => t.net.supSent = s.net.supSent + 1 ∧ t.net.supAt = some s1.sys.up ∧
        t.net.prpSeq = s.net.prpSeq + 1 ∧ { t with net := s1.net } = s1 ∧
        ∀ q, q < 2 → Sparse.get (fun _ => []) t.net.lastTx q = withTrailer s.supFrame (s.net.prpSeq + 1) q) ∧
    (Sparse.get (fun _ => none) s.net.trailerAt p = some t0 → answers (.prpPathTimeout p) s fun t =>
      t.net.path.getLsbD p = false)) ∧
  (∀ (c : OrdCopy) (ip : BitVec 32) (d : List (BitVec 8)) (s : State), s.open .net = true → s.net.link.getLsbD c.port = true →
    (s.prpMode = false ∨ c.tag = none) →
    (s.ordCheck ip d = 0 → answers (.orderMessage c ip d) s fun t => t.net.lastSeq = some (BitVec.ofNat 32 (beAt d 0x0C 4)) ∧
      t.net.lifeTo = some (s.sys.up + ms (beAt d 0x14 2)) ∧ t.net.expired = false ∧
      t.rd Reg.NET_ORD_LAST = BitVec.ofNat 32 (beAt d 0x0C 4) ∧
      t.rdNat Reg.NET_ORD_CNT = satInc (s.rdNat Reg.NET_ORD_CNT) 0xFFFFFFFF ∧
      (beAt d 6 2 / 2 % 2 = 0 → s.net.front = none → t.net.front = some (ordOf d))) ∧
    (s.ordCheck ip d ≠ 0 → s.ordCheck ip d ≠ 6 → answers (.orderMessage c ip d) s fun t =>
      t.field Reg.NET_ORD_REF 0 8 = s.ordCheck ip d ∧ t.bitOf Reg.NET_EVT 5 = true ∧ t.net = s.net)) ∧
  (∀ (c : OrdCopy) (ip : BitVec 32) (d : List (BitVec 8)) (mac : BitVec 48) (seq : BitVec 16) (lan : BitVec 4) (s : State),
    s.open .net = true → s.net.link.getLsbD c.port = true → s.prpMode = true → c.tag = some (mac, seq, lan) →
    lan.toNat = 0xA + c.port.val →
    ((s.prpLive.any fun e => e.mac == mac && e.seq == seq) = true → answers (.orderMessage c ip d) s fun t =>
      t.net.lastSeq = s.net.lastSeq ∧ t.net.front = s.net.front ∧ t.net.back = s.net.back ∧ t.net.held = s.net.held ∧
      t.rdNat Reg.NET_PRP_DUP = satInc (s.rdNat Reg.NET_PRP_DUP) 0xFFFFFFFF ∧ regsBut s t [Reg.NET_PRP_DUP]) ∧
    ((s.prpLive.any fun e => e.mac == mac && e.seq == seq) = false → exec (.orderMessage c ip d) s =
      .next (((s.pathSeen c.port).prpTake c.port mac seq none).2.orderIn ip d))) ∧
  (∀ (m : OrdMsg) (a : BitVec 32) (s : State), s.net.held = some (m, a) → s.net.front = none → answers .orderApply s fun t =>
    t.net.front = some m ∧ t.net.held = none ∧ t.regs = s.regs) ∧
  (∀ (a : Nat) (s : State), s.net.lifeTo = some a → ∃ u : State, u.net.lifeTo = none ∧ u.net.expired = true ∧ u.regs = s.regs ∧
    u.sys.up = max (a + 1) s.sys.up ∧ exec .orderLifetimeExpiry s = .next (u.raise 212)) ∧
  (∀ (s : State), s.open .net = true → (answers .netOrdRel s fun t => t.net = { s.net with front := s.net.back, back := none } ∧
      { t with net := s.net } = s) ∧
    (s.statPer ≠ 0 → (s.toNt (s.net.statNext - BitVec.ofNat 32 (125 * s.netField 0x48 2))).statSkips = 0 →
      answers .statusBuild s fun t => t.net.statSeq = s.net.statSeq + 1 ∧
        t.net.statNext = s.net.statNext + BitVec.ofNat 32 (125 * s.statPer) ∧ t.regs = s.regs ∧
        ∀ p, p < 2 → (s.netByte 0x4B).testBit p = true → s.ringCarries p 2 = true →
          t.launchQ p = s.launchQ p ++ [.status s.net.statNext (s.statusFrame p s.net.statNext)]) ∧
    (∀ (s1 : State) (lead next : BitVec 32), lead = BitVec.ofNat 32 (125 * s.netField 0x48 2) →
      s1 = s.toNt (s.net.statNext - lead) → s.statPer ≠ 0 → 0 < s1.statSkips →
      next = s.net.statNext + BitVec.ofNat 32 (s1.statSkips * 125 * s.statPer) → 0 < timeDiff (next - lead) s1.ntLow →
      answers .statusBuild s fun t => t.net.statNext = next ∧ t.net.statSeq = s.net.statSeq ∧ t.net.launch = s.net.launch))

/-- Through the powered network window: a write of ADJ is held within its range, with event bit 2 outside, and NT's
course up to it is kept for timestamps; a step adds its signed value to NT's count, clears NT_LOCKED and sets event
bit 3; an offset within band counts toward lock; NET_LATCH and a read of NET_NT_LO latch NT; SFP diagnostics show; a
tail written is the tail, and on a launch ring that carries traffic queues the descriptors between; on ring 1 an
idle port starts the frame at the head, where GUARD lets it: a frame that would not end, with its gap, before LAUNCH
of the launch head is not started. With no servo update in time NT_LOCKED clears. A read of NET_TXTS_HDR answers and
drops the oldest timestamp, or 0 with none. LAUNCH_FRAME_SEND takes the head of the launch ring: in time it is in
transmission, late it is dropped, counted and raises FS214. FRAME_TRANSMIT_DONE of a status message ends its
transmission, and counts it once. -/
def Obligations.NetworkTimeRingsAndTimestamps : Prop :=
  (∀ (v : Word) (s : State), s.open .net = true →
    (answers (.netNtAdj v) s fun t => t.rd Reg.NET_NT_ADJ = BitVec.ofInt 32 (max (-4294967) (min 4294967 v.toInt)) ∧
      ((v.toInt < -4294967 ∨ 4294967 < v.toInt) → t.bitOf Reg.NET_EVT 2 = true) ∧ regsBut s t [Reg.NET_NT_ADJ, Reg.NET_EVT] ∧
      t.net = s.net.marked (s.rd Reg.NET_NT_ADJ) ∧ { t with net := s.net, regs := s.regs, setAt := s.setAt } = s) ∧
    (answers (.ntStep v) s fun t => t.net.nt = s.net.nt + ((v ++ s.rd Reg.NET_NT_STEP_LO).setWidth 96 <<< 32) ∧
      t.net.locked = false ∧ t.bitOf Reg.NET_EVT 3 = true) ∧
    (v.toInt.natAbs ≤ s.netField 0x58 4 → answers (.netNtOffset v) s fun t => t.net.inBand = satInc s.net.inBand 255 ∧
      (s.netByte 0x5C ≤ satInc s.net.inBand 255 → t.net.locked = true) ∧ t.rd Reg.NET_NT_OFFSET = v ∧
      t.net.servoAt = some s.sys.up ∧ regsBut s t [Reg.NET_NT_OFFSET]) ∧
    (s.netField 0x58 4 < v.toInt.natAbs → answers (.netNtOffset v) s fun t => t.net.inBand = 0 ∧ t.net.locked = false) ∧
    (answers .netLatch s fun t => t.rd Reg.NET_LATCH_NT_LO = s.net.count.setWidth 32 ∧
      t.rd Reg.NET_LATCH_VT_LO = s.now.setWidth 32 ∧
      onlyRegs s t [Reg.NET_LATCH_NT_LO, Reg.NET_LATCH_NT_HI, Reg.NET_LATCH_VT_LO, Reg.NET_LATCH_VT_HI]) ∧
    (answers .netNtLoRead s fun t => t.bus.data = s.net.count.setWidth 32 ∧
      t.rd Reg.NET_NT_HI = BitVec.ofNat 32 (s.net.count.toNat / 2 ^ 32) ∧ regsBut s t [Reg.NET_NT_HI])) ∧
  (∀ (p : Fin 2) (rx tx : BitVec 16) (s : State), s.open .net = true →
    (answers (.sfpDiagRead p rx tx) s fun t => t.rd (Reg.NET_SFP p) = rx ++ tx ∧ onlyRegs s t [Reg.NET_SFP p]) ∧
    (Sparse.get (fun _ => []) s.net.txts p = [] → answers (.txtsPop p) s fun t => t.bus.data = 0 ∧ t.regs = s.regs) ∧
    (∀ e r, Sparse.get (fun _ => []) s.net.txts p = e :: r → answers (.txtsPop p) s fun t =>
      t.bus.data = bitIf true 31 ||| putField e.1.toNat 16 ||| BitVec.ofNat 32 e.2.1.toNat ∧ t.rd (Reg.NET_TXTS_NT p) = e.2.2 ∧
      Sparse.get (fun _ => []) t.net.txts p = r ∧ regsBut s t [Reg.NET_TXTS_NT p])) ∧
  (∀ (p r : Fin 3) (tail : BitVec 10) (s : State), s.open .net = true → answers (.ringTailWrite p r tail) s fun t =>
    t.ringTail p r = tail.toNat ∧ t.ringHead p r = s.ringHead p r ∧ regsBut s t [Reg.NET_RING_PTR p r] ∧ t.ram = s.ram ∧
    (r.val = 2 → p.val < 2 → s.ringCarries p 2 = true → t.launchQ p = s.launchQ p ++ (ringSpan 1024 (s.ringTail p 2) tail.toNat (s.ringSize p 2)).map .desc) ∧
    (r.val = 0 ∨ (r.val = 2 ∧ s.ringCarries p 2 = false) → t.net = s.net) ∧
    (r.val = 1 → t.net = { s.net with ring1 := t.net.ring1 } ∧
      (s.txEnds p = none → ∀ i d, (s.setField (Reg.NET_RING_PTR p r) 0 10 tail.toNat).headDesc p 1 = some (i, d) →
        t.ring1On p = if s.guardOk p d.len s.net.count then some (i, s.net.count + 8) else none))) ∧
  (∀ (p : Fin 2) (len : Nat) (x : LaunchItem) (rest : List LaunchItem) (s : State), s.launchQ p = x :: rest →
    s.bitOf (Reg.NET_PORT_CTL p) 1 = true → (s.guardOk p len s.net.count = true ↔
      0 < timeDiff (s.launchOf p x) ((s.net.count + BitVec.ofNat 64 (s.wireLen p len + 24)).setWidth 32))) ∧
  (∀ (a : Nat) (s : State), s.open .net = true → s.net.servoAt = some a → answers .servoUpdateTimeout s fun t =>
    t.net.locked = false ∧ t.net.inBand = 0 ∧ t.net.servoAt = none) ∧
  (∀ (p : Fin 2) (x : LaunchItem) (rest : List LaunchItem) (s s1 : State), s.open .net = true → s.launchQ p = x :: rest →
    s.launchMay p x = true → s1 = s.launchTurn p x → s1.launchQ p = x :: rest → s1.regs = s.regs →
    (timeDiff s1.ntLow (s1.launchOf p x) ≤ s1.field (Reg.NET_LATE_WIN p) 0 16 → answers (.launchFrameSend p) s fun t =>
      t.launchQ p = rest ∧ Sparse.get (fun _ => none) t.net.sending p = some (x, s1.net.count) ∧ t.regs = s.regs ∧ t.ram = s1.ram) ∧
    (∀ l b, x = .status l b → s1.field (Reg.NET_LATE_WIN p) 0 16 < timeDiff s1.ntLow (s1.launchOf p x) → ∃ u : State,
      u.launchQ p = rest ∧ u.rdNat Reg.NET_LATE_CNT = satInc (s.rdNat Reg.NET_LATE_CNT) 0xFFFFFFFF ∧
      exec (.launchFrameSend p) s = .next ((u.raise 214).txStart p))) ∧
  (∀ (p : Fin 2) (x : LaunchItem) (s : State), (s.toNt (s.launchOf p x)).txEnds p = none →
    s.launchTurn p x = s.toNt (s.launchOf p x)) ∧
  (∀ (p : Fin 3) (l : BitVec 32) (b : List (BitVec 8)) (at_ : BitVec 64) (s : State), s.open .net = true →
    Sparse.get (fun _ => none) s.net.sending p = some (.status l b, at_) → answers (.frameTransmitDone p) s fun t =>
      Sparse.get (fun _ => none) t.net.sending p = none ∧ t.ram = s.ram ∧ regsBut s t [Reg.NET_STAT_CNT] ∧ t.net.launch = s.net.launch ∧
      t.field Reg.NET_STAT_CNT 16 16 = (if s.net.statSent.contains l then s.field Reg.NET_STAT_CNT 16 16
        else min (s.field Reg.NET_STAT_CNT 16 16 + 1) 65535) ∧
      (p.val < 2 → Sparse.get (fun _ => []) t.net.lastTx p = if s.prpMode ∧ p.val = 0 then withTrailer b (s.net.prpSeq + 1) 0 else b))

/-- A command of core c through the powered window. CREATE of a FREE thread with a mask makes it BLOCKED with its
priority and affinity; READY of a BLOCKED thread makes it READY, or RUNNING where its core still runs it; BLOCK of a
READY or RUNNING thread makes it BLOCKED; YIELD of the RUNNING thread of the core leaves it READY, or RUNNING where
it is chosen again; PRIO and AFFINITY set their field of a thread that is not FREE; DELETE of a BLOCKED thread frees
it; ACK that matches DSP_NEXT makes DSP_CUR name the thread, which runs with the core as its LAST. Each writes
result 0. A wrong state is refused with 2, a zero mask with 3, an ACK that does not match with 4, with event bit 1
and every thread as it was. A core's pending interrupt 16 stands exactly while DSP_NEXT differs from DSP_CUR, and an
ACK that matches ends it. -/
def Obligations.ThreadDispatcherCommands : Prop :=
  (∀ (c : Fin 8) (x : BitVec 7) (p : BitVec 5) (a : BitVec 8) (s : State), s.open .dsp = true →
    ((s.thr x).st = .free → a ≠ 0 → answers (.create c x p a) s fun t =>
      t.thr x = { st := .blocked, prio := p, affinity := a } ∧ t.rd (Reg.DSP_RES c) = 0 ∧ ∀ y, y ≠ x → t.thr y = s.thr y) ∧
    ((s.thr x).st ≠ .free → answers (.create c x p a) s fun t => t.rd (Reg.DSP_RES c) = 2 ∧ t.bitOf Reg.DSP_EVT 1 = true ∧
      ∀ y, t.thr y = s.thr y) ∧
    ((s.thr x).st = .free → a = 0 → answers (.create c x p a) s fun t => t.rd (Reg.DSP_RES c) = 3 ∧ ∀ y, t.thr y = s.thr y) ∧
    ((s.thr x).st = .blocked → answers (.ready c x) s fun t =>
      ((t.thr x).st = .ready ∨ (t.thr x).st = .running) ∧ (t.thr x).prio = (s.thr x).prio ∧ t.rd (Reg.DSP_RES c) = 0) ∧
    ((s.thr x).st ≠ .blocked → answers (.ready c x) s fun t => t.rd (Reg.DSP_RES c) = 2 ∧ ∀ y, t.thr y = s.thr y) ∧
    (((s.thr x).st = .ready ∨ (s.thr x).st = .running) → answers (.block c x) s fun t => (t.thr x).st = .blocked ∧
      t.rd (Reg.DSP_RES c) = 0) ∧
    ((s.thr x).st ≠ .free → answers (.prio c x p) s fun t => (t.thr x).prio = p ∧ (t.thr x).affinity = (s.thr x).affinity ∧
      t.rd (Reg.DSP_RES c) = 0) ∧
    ((s.thr x).st ≠ .free → a ≠ 0 → answers (.affinity c x a) s fun t => t.thr x = { s.thr x with affinity := a } ∧
      t.rd (Reg.DSP_RES c) = 0 ∧ ∀ y, y ≠ x → t.thr y = s.thr y) ∧
    ((s.thr x).st = .blocked → answers (.delete c x) s fun t => t.thr x = { s.thr x with st := .free } ∧
      t.rd (Reg.DSP_RES c) = 0 ∧ ∀ y, y ≠ x → t.thr y = s.thr y)) ∧
  (∀ (c : Fin 8) (x given : BitVec 7) (s : State), s.open .dsp = true →
    (s.curThr c = some x → (s.thr x).st = .running → answers (.yield c given) s fun t =>
      ((t.thr x).st = .ready ∨ (t.thr x).st = .running) ∧ t.rd (Reg.DSP_RES c) = 0) ∧
    (s.nextThr c = some x → (∀ o, s.curThr c = some o → o = x ∨ (s.thr o).st ≠ .running) →
      answers (.dispatchAck c x false) s fun t => (t.thr x).st = .running ∧ (t.thr x).last = some c ∧ t.curThr c = some x ∧
        t.rd (Reg.DSP_RES c) = 0 ∧ t.dispatchPending c = false) ∧
    (s.nextThr c = none → s.curThr c = none → answers (.dispatchAck c x true) s fun t => t.curThr c = none ∧
      t.rd (Reg.DSP_RES c) = 0 ∧ t.dispatchPending c = false ∧ ∀ y, t.thr y = s.thr y) ∧
    (s.nextThr c ≠ some x → answers (.dispatchAck c x false) s fun t => t.rd (Reg.DSP_RES c) = 4 ∧
      t.bitOf Reg.DSP_EVT 1 = true ∧ ∀ y, t.thr y = s.thr y)) ∧
  (∀ (c : Fin 8) (s : State), ((s.mip c).getLsbD 16 = true ↔ s.nextThr c ≠ s.curThr c) ∧
    ((s.mip c).getLsbD 7 = true ↔ s.mtimecmp c ≤ s.tb.vt.toNat) ∧ ((s.mip c).getLsbD 11 = true ↔ s.irqBest c ≠ 0) ∧
    (s.mip c).getLsbD 3 = s.bitOf (Reg.DSP_MSIP c) 0)

/-- Through the powered supervisor window: a kick of an enabled watchdog restarts its count; EN is set once, with its
period, and nothing changes it then; an expiry, with no source marked for surrender, sets event bit 3 and starts the
count again. The debug module halts and resumes exactly the core named. The first DSP_MSIP of a core other than 0
starts it at DSP_BOOT_PC. MTIMECMP_MATCH is the tick at which mtime has reached the compare value. A claim returns
and claims the source that R640 chooses, or 0; a completion of an enabled source ends its claim and of another does
nothing. An access that the core's protection denies in U mode is an access fault on its core, taken in M mode, and
raises FS17; any other leaves the core as its program has made it. -/
def Obligations.CoresWatchdogAndInterrupts : Prop :=
  (∀ (v : Word) (period : BitVec 16) (s : State), s.open .dsp = true →
    (s.bitOf Reg.DSP_WDOG_CFG 16 = true →
      (answers (.watchdogKick v) s fun t => t.dsp.wdogDue = s.sys.up + s.wdogTicks ∧
        regsBut s t [Reg.DSP_WDOG_KICK, Reg.DSP_WDOG_KICK + 4] ∧ { t with dsp := s.dsp, regs := s.regs } = s) ∧
      exec (.watchdogEnable period) s = .next s ∧
      (noMarks s → answers .watchdogExpiry s fun t => t.bitOf Reg.DSP_EVT 3 = true ∧ t.dsp.wdogDue = t.sys.up + t.wdogTicks ∧
        t.field Reg.DSP_WDOG_CNT 16 16 = satAdd (s.field Reg.DSP_WDOG_CNT 16 16) 1 0xFFFF)) ∧
    (s.bitOf Reg.DSP_WDOG_CFG 16 = false → answers (.watchdogEnable period) s fun t =>
      t.rd Reg.DSP_WDOG_CFG = 0x10000 ||| period.setWidth 32 ∧ t.dsp.wdogDue = s.sys.up + 20000 * period.toNat ∧
      regsBut s t [Reg.DSP_WDOG_CFG])) ∧
  (∀ (c : Fin 8) (s : State), s.open .dsp = true →
    (s.haltedCore c = false → noMarks s → answers (.debugHalt c) s fun t =>
      t.dsp.halted = s.dsp.halted ||| ((1 : BitVec 8) <<< c.val)) ∧
    (s.haltedCore c = true → answers (.debugResume c) s fun t =>
      t.dsp.halted = s.dsp.halted &&& ~~~ ((1 : BitVec 8) <<< c.val)) ∧
    (s.dsp.started.getLsbD c = false → c.val ≠ 0 → answers (.coreStart c) s fun t => t.rd (Reg.DSP_MSIP c) = 1 ∧
      t.dsp.started = s.dsp.started ||| ((1 : BitVec 8) <<< c.val) ∧ Sparse.get (fun _ => 0) t.dsp.startPc c =
        BitVec.ofNat 64 (s.rdNat Reg.DSP_BOOT_PC_LO + 0x100000000 * s.rdNat Reg.DSP_BOOT_PC_HI) ∧ regsBut s t [Reg.DSP_MSIP c]) ∧
    (s.dsp.started.getLsbD c = true → answers (.coreStart c) s fun t => t.rd (Reg.DSP_MSIP c) = 1 ∧ t.dsp = s.dsp) ∧
    (s.sys.going = true → s.timerPending c = false → answers (.mtimecmpMatch c) s fun t => t.tb.vt.toNat = s.mtimecmp c ∧
      t.timerPending c = true ∧ t.regs = s.regs) ∧
    (answers (.plicClaim c) s fun t => t.bus = { data := BitVec.ofNat 32 (s.irqBest c), err := false } ∧
      (s.irqBest c ≠ 0 → t.dsp.claimed = s.dsp.claimed ||| ((1 : BitVec 64) <<< s.irqBest c)) ∧
      (s.irqBest c = 0 → t.dsp = s.dsp) ∧ { t with bus := s.bus, dsp := s.dsp } = s) ∧
    (∀ id : Word, (id.toNat < 64 → s.irqEnabled c id.toNat = true → answers (.plicComplete c id) s fun t =>
        t.dsp.claimed = s.dsp.claimed &&& ~~~ ((1 : BitVec 64) <<< id.toNat) ∧ { t with dsp := s.dsp } = s) ∧
      ((64 ≤ id.toNat ∨ s.irqEnabled c id.toNat = false) → exec (.plicComplete c id) s = .next s)) ∧
    (∀ k : CoreAcc, (k.denied = true → ∃ u : State, Sparse.get (fun _ => none) u.dsp.excs c = some k.kind.fault ∧
        u.scCore c = { k.core with mode := .machine } ∧ { u with dsp := s.dsp } = s ∧
        exec (.pmpDenial c k) s = .next (u.raise 17)) ∧
      (k.denied = false → answers (.pmpDenial c k) s fun t => t.scCore c = k.core ∧ t.dsp.excs = s.dsp.excs ∧
        { t with dsp := s.dsp } = s)))

/-- Through the powered windows: START of an idle channel with a limit and a good descriptor address, answered, takes
the descriptor when its OWN is 1, with no byte done yet, and goes idle otherwise; a START that may not be is refused
with event bit 5. DESCRIPTOR_RETURN of whole data without a chain returns status 1 with all bytes done and leaves
the channel idle; reserved control bits return status 8 with none and event bit 3. STOP leaves the channel idle with
event bit 2, its descriptor returned with status 2, or STOPPING until the access in flight is answered; an access
not answered leaves it idle with event bit 3 and raises FS248. A write of MODE clears the deficits. A corrected
error counts and raises FS242 or FS244; an uncorrectable one latches its address and raises FS241 or FS243; a scrub
pass of a powered channel B counts, 24 h after the last. -/
def Obligations.DmaAndMemoryCommands : Prop :=
  (∀ (n : Fin 16) (s : State), s.open .dma = true → (s.dmaCh n).st = .idle →
    (s.field (Reg.DMA_CH_LIMIT n) 0 16 ≠ 0 → dmaDescAt (s.dmaDesc n) = true → ¬ (n.val = 15 ∧ s.tracing = true) →
      ((s.descOf (s.dmaDesc n)).ctl.getLsbD 31 = true → answers (.dmaStart n true) s fun t =>
        t.dmaCh n = { st := .active, cur := some (s.descOf (s.dmaDesc n)) } ∧ t.rd (Reg.DMA_CH_DONE n) = 0 ∧ t.field (Reg.DMA_CH_STAT n) 0 16 = 0 ∧
        t.ram = s.ram ∧ (∀ m, m ≠ n.val → t.dmaCh m = s.dmaCh m) ∧
        regsBut s t [Reg.DMA_CH_STAT n, Reg.DMA_CH_AUDIT n, Reg.DMA_CH_DONE n]) ∧
      ((s.descOf (s.dmaDesc n)).ctl.getLsbD 31 = false → answers (.dmaStart n true) s fun t =>
        (t.dmaCh n).st = .idle ∧ t.bitOf (Reg.DMA_CH_EVT n) 0 = true ∧ t.ram = s.ram)) ∧
    ((s.field (Reg.DMA_CH_LIMIT n) 0 16 = 0 ∨ dmaDescAt (s.dmaDesc n) = false) → ∀ b, answers (.dmaStart n b) s fun t =>
      t.bitOf (Reg.DMA_CH_EVT n) 5 = true ∧ onlyRegs s t [Reg.DMA_CH_EVT n])) ∧
  (∀ (n : Fin 16) (d : DmaDesc) (s : State), (s.dmaCh n).cur = some d →
    ((s.dmaCh n).st = .active → s.dmaOutcome d .whole = (1, d.len) → d.ctl.getLsbD 1 = false → answers (.descriptorReturn n .whole .goesOn) s fun t =>
      (t.dmaCh n).st = .idle ∧ t.field (Reg.DMA_CH_STAT n) 24 8 = 1 ∧ t.rd (Reg.DMA_CH_DONE n) = BitVec.ofNat 32 d.len) ∧
    (∀ e a k, (s.dmaCh n).st = .stopping → answers (.descriptorReturn n e a) s fun t => (t.dmaCh n).st = .idle ∧
      t.bitOf (Reg.DMA_CH_EVT n) 2 = true ∧ (e = .cut k → t.field (Reg.DMA_CH_STAT n) 24 8 = 2 ∧
        t.rd (Reg.DMA_CH_DONE n) = BitVec.ofNat 32 (if s.dmaMovable d then min k d.len else 0))) ∧
    (∀ e a, (s.dmaCh n).st = .active → e.isCut = false → d.badCtl = true → answers (.descriptorReturn n e a) s fun t => (t.dmaCh n).st = .idle ∧
      t.field (Reg.DMA_CH_STAT n) 24 8 = 8 ∧ t.rd (Reg.DMA_CH_DONE n) = 0 ∧ t.bitOf (Reg.DMA_CH_EVT n) 3 = true)) ∧
  (∀ (n : Fin 16) (k : Nat) (h : DmaHalt) (a : DmaAccess) (s : State), s.open .dma = true → (s.dmaCh n).st ≠ .idle →
    ((s.dmaCh n).cur = none → answers (.dmaStop n h) s fun t => (t.dmaCh n).st = .idle ∧ t.bitOf (Reg.DMA_CH_EVT n) 2 = true) ∧
    (∀ d, (s.dmaCh n).cur = some d →
      (answers (.dmaStop n (.ended k)) s fun t => (t.dmaCh n).st = .idle ∧ t.bitOf (Reg.DMA_CH_EVT n) 2 = true ∧
        t.field (Reg.DMA_CH_STAT n) 24 8 = 2) ∧
      (answers (.dmaStop n .stopping) s fun t => t.dmaCh n = { st := .stopping, cur := some d } ∧
        t.bitOf (Reg.DMA_CH_CTL n) 2 = true ∧ t.ram = s.ram ∧ regsBut s t [Reg.DMA_CH_CTL n])) ∧
    ((s.dmaCh n).cur = none → ∃ u : State, (u.dmaCh n).st = .idle ∧ u.bitOf (Reg.DMA_CH_EVT n) 3 = true ∧ u.ram = s.ram ∧
      exec (.dmaAccessTimeout n a) s = .next (u.raise 248))) ∧
  (∀ (mode : BitVec 1) (chB : Bool) (a : BitVec 35) (s : State), s.open .mem = true →
    (answers (.arbModeWrite mode) s fun t => t.rd Reg.MEM_ARB_CFG = mode.setWidth 32 ∧ t.mem.weighted = mode.getLsbD 0 ∧
      t.mem.deficit = [] ∧ t.mem.served = s.mem.served ∧ regsBut s t [Reg.MEM_ARB_CFG]) ∧
    (∃ u : State, u.field (if chB then Reg.MEM_ECC_B else Reg.MEM_ECC_A) 0 16 =
        satAdd (s.field (if chB then Reg.MEM_ECC_B else Reg.MEM_ECC_A) 0 16) 1 0xFFFF ∧
      u.bitOf Reg.MEM_EVT (if chB then 2 else 0) = true ∧ { u with regs := s.regs, setAt := s.setAt } = s ∧
      exec (.eccCorrected chB) s = .next (u.raise (if chB then 244 else 242))) ∧
    (∃ u : State, u.rd Reg.MEM_ECC_ADDR_LO = a.setWidth 32 ∧
      u.rd Reg.MEM_ECC_ADDR_HI = bitIf chB 31 ||| BitVec.ofNat 32 (a.toNat / 0x100000000) ∧
      u.bitOf Reg.MEM_EVT (if chB then 3 else 1) = true ∧ { u with regs := s.regs, setAt := s.setAt } = s ∧
      exec (.eccUncorrectable chB a .other) s = .next (u.raise (if chB then 243 else 241))) ∧
    (s.powered 8 = true → answers .scrubPass s fun t => t.sys.up = max s.sys.up (s.mem.scrubbed + scrubPeriod) ∧
      t.mem = { s.mem with scrubbed := t.sys.up } ∧ t.ram = s.ram ∧
      t.rdNat Reg.MEM_SCRUB = satInc (s.rdNat Reg.MEM_SCRUB) 0xFFFFFFFF ∧ regsBut s t [Reg.MEM_SCRUB]))

/-- A channel that powers up has its latch set with START and PB and no switch on. In a sample, a pair with a role reads
1 only when its inputs are both 1 and it is not latched, 0 when they differ or are 0; at its T a difference latches
the pair and trips with DISC; an ESTOP pair at 0 trips with ESTOP, its fall raising FS230. A reset held for
RESET_MAX sets RESET_HELD and raises FS236. An asserted trip request trips with COLLECTOR and keeps BRK off. In an
exchange a trip is adopted, and edges accepted within 10 ms clear both latches. A cross-check failure trips with
CROSS. An off-pulse test opens one switch; a failed one, or more than 5 V while off, latches the output off in both
channels. A bank that differs from the block keeps every switch off with BANK; one that matches changes no latch.
The discharge time counts from the latch. An arm port takes the level of a block line, and an asserted one sets the
block latch. A block is taken when its last chunk passes the checks. -/
def Obligations.SafetyChannelsSampleTestAndTrip : Prop :=
  (∀ (c : Fin 2) (bank : BitVec 16) (s : State), s.powered (12 + c) = true → (s.safCh c).on = false →
    answers (.safetyChannelPowerUp c bank) s fun t => (t.safCh c).on = true ∧ (t.safCh c).latch = true ∧
      (t.safCh c).causes = 0x201 ∧ (t.safCh c).bank = bank ∧ (t.safCh c).blk = none ∧ (t.safCh c).sw = 0) ∧
  (∀ (c : Fin 2) (ins : BitVec 32) (i : Fin 8) (b : List Byte) (crc : Word) (s : State), (s.safCh c).on = true →
    (s.safCh c).blk = some (b, crc) → safRole b i ≠ 0 → bytesAt b (0x10 + 2 * i) 2 ≠ 0 →
    answers (.safetySample c ins) s fun t =>
      (ins.getLsbD (2 * i) = true → ins.getLsbD (2 * i + 1) = true → (t.safCh c).pairs.getLsbD i = !(s.safCh c).disc.getLsbD i) ∧
      (ins.getLsbD (2 * i) ≠ ins.getLsbD (2 * i + 1) → (t.safCh c).pairs.getLsbD i = false ∧
        ((s.safCh c).disc.getLsbD i = true → (t.safCh c).disc.getLsbD i = true) ∧
        ((s.safCh c).disc.getLsbD i = false → Sparse.get (fun _ => 0) (s.safCh c).differ i + 1 = bytesAt b (0x10 + 2 * i) 2 →
          (t.safCh c).disc.getLsbD i = true ∧ (t.safCh c).latch = true ∧ (t.safCh c).causes.getLsbD 4 = true)) ∧
      (ins.getLsbD (2 * i) = false → ins.getLsbD (2 * i + 1) = false → (t.safCh c).pairs.getLsbD i = false ∧
        (t.safCh c).disc.getLsbD i = false) ∧
      (safRole b i = 1 → (ins.getLsbD (2 * i) && ins.getLsbD (2 * i + 1)) = false → (t.safCh c).latch = true ∧
        (t.safCh c).causes.getLsbD 1 = true ∧
        ((s.safCh c).pairs.getLsbD i = true → s.powered 11 = true → (t.fio.evtSet ||| t.fio.evtNext).getLsbD 6 = true))) ∧
  (∀ (c : Fin 2) (s : State), (s.safCh c).on = true →
    (0 < (s.safCh c).ones → (∀ b crc, (s.safCh c).blk = some (b, crc) → bytesAt b 0x2E 2 * 200 ≤ (s.safCh c).ones) →
      ((s.safCh c).blk = none → 1 ≤ (s.safCh c).ones) → (s.safCh c).held = false → answers (.resetHeld c) s fun t => t.safCh c = { s.safCh c with held := true } ∧
      (s.powered 11 = true → (t.fio.evtSet ||| t.fio.evtNext).getLsbD 12 = true)) ∧
    (∀ b crc, (s.safCh c).blk = some (b, crc) → (s.safCh c).ones < bytesAt b 0x2E 2 * 200 → exec (.resetHeld c) s = .next s) ∧
    (answers (.tripRequestLine c) s fun t => (t.safCh c).req = s.saf.req ∧ (s.saf.req = true → (t.safCh c).latch = true ∧
      (t.safCh c).causes.getLsbD 8 = true ∧
      ∀ b crc, (s.safCh c).blk = some (b, crc) → ∀ so, so < 8 → safFunc b so = 1 → (t.safCh c).sw.getLsbD so = false)) ∧
    (∀ lost : Bool, answers (.crossCheckFail lost) s fun t => (t.safCh c).latch = true ∧ (t.safCh c).causes.getLsbD 7 = true ∧
      t.saf.linkOk = (s.saf.linkOk && !lost))) ∧
  (∀ s : State, (s.safCh 0).on = true → (s.safCh 1).on = true → answers .crossLinkExchange s fun t => t.saf.linkOk = true ∧
    ((s.safCh 0).latch = true → (s.safCh 0).causes &&& ~~~ (s.safCh 1).causes ≠ 0 → (t.safCh 1).latch = true ∧
      (s.safCh 0).causes &&& ~~~ (t.safCh 1).causes = 0) ∧
    (∀ a b, (s.safCh 0).edgeAt = some a → (s.safCh 1).edgeAt = some b → (s.safCh 0).causes = (s.safCh 1).causes →
      a ≤ b + msTicks 10 → b ≤ a + msTicks 10 → (t.safCh 0).latch = false ∧ (t.safCh 1).latch = false ∧ t.saf.fail = 0 ∧
        (t.safCh 0).causes = 0 ∧ (t.safCh 1).causes = 0 ∧ t.saf.resets = s.saf.resets + 1)) ∧
  (∀ (c : Fin 2) (so : Fin 8) (s : State),
    (s.safOutOn so = true → (s.safCh c).test = none → (s.safCh (1 - c.val)).test ≠ some so → answers (.offPulseTest c so) s fun t =>
      t.safCh c = { s.safCh c with test := some so } ∧ t.safCh (1 - c.val) = s.safCh (1 - c.val) ∧ t.saf.tests = s.saf.tests + 1) ∧
    ((s.safCh c).test = some so →
      (answers (.offPulseVerdict c true) s fun t => t.safCh c = { s.safCh c with test := none } ∧ t.saf.fail = s.saf.fail) ∧
      (answers (.offPulseVerdict c false) s fun t => (t.safCh c).test = none ∧ t.saf.fail.getLsbD so = true ∧
        t.saf.fails = s.saf.fails + 1 ∧ (t.safCh 0).sw.getLsbD so = false ∧ (t.safCh 1).sw.getLsbD so = false)) ∧
    ((s.safCh c).on = true → (s.safCh c).sw.getLsbD so = false → s.saf.fail.getLsbD so = false →
      answers (.outputAbove5vWhileOff so) s fun t => t.saf.fail.getLsbD so = true ∧ (t.safCh 0).sw.getLsbD so = false ∧
        (t.safCh 1).sw.getLsbD so = false)) ∧
  (∀ (c : Fin 2) (v : BitVec 16) (b : List Byte) (crc : Word) (s : State), (s.safCh c).on = true →
    (s.safCh c).blk = some (b, crc) →
    (v = crc.setWidth 16 → answers (.switchBankRead c v) s fun t => (t.safCh c).bank = v ∧ (t.safCh c).latch = (s.safCh c).latch ∧
      (t.safCh c).causes = (s.safCh c).causes) ∧
    (v ≠ crc.setWidth 16 → answers (.switchBankRead c v) s fun t => (t.safCh c).bank = v ∧ (t.safCh c).latch = true ∧
      (t.safCh c).causes.getLsbD 6 = true ∧ (t.safCh c).sw = 0) ∧
    ((s.safCh c).latch = true → (s.safCh c).dischOk = false → answers (.dischargeTimer c) s fun t => (t.safCh c).dischOk = true ∧
      t.sys.up = max s.sys.up ((s.safCh c).latchAt + msTicks (bytesAt b 0x30 4)))) ∧
  (∀ (p : Fin 12) (c : Fin 2) (s : State), s.open (.port p) = true → answers (.safetyBlockLine p c) s fun t =>
    (if (c : Nat) = 0 then (t.port p).lineA else (t.port p).lineB) = s.safLine c ∧
    (if (c : Nat) = 0 then (t.port p).lineB = (s.port p).lineB else (t.port p).lineA = (s.port p).lineA) ∧
    t.flt.latch = (s.flt.latch || s.safLine c)) ∧
  (∀ (c : Fin 2) (idx : BitVec 8) (data : BitVec 128) (s : State), (s.safCh c).on = true → (s.safCh c).blk = none →
    (idx = 0 → answers (.safetyPbChunk c idx data) s fun t => t.safCh c = { s.safCh c with rx := lineBytes data 0 16 }) ∧
    (idx = 4 → (s.safCh c).rx.length = 64 → answers (.safetyPbChunk c idx data) s fun t => (t.safCh c).rx = [] ∧
      let l := (s.safCh c).rx ++ lineBytes data 0 16
      (safSectionOk l = true → (t.safCh c).blk = some (l.drop 16, wordAt l 12)) ∧
      (safSectionOk l = false → (t.safCh c).blk = none ∧ t.saf.note.getLsbD 11 = true)))

/-- An input changes after FILT samples that agree. An overload latches off the output and its gang and raises FS226;
FIO_OVL_CLR clears the bits written. A low supply puts every field and safety output off and raises FS227; it
recovers at 19.0 V or more. A down frame carries SYNC, SLOT, OUT and its complement, RESUME and a CRC that passes,
and consumes RESUME; a write of FIO_OUT in the tick in which a down frame is formed goes out in the next slot, one
of an earlier tick in this one; an up frame carries SYNC, EVT_NO, IN, EVT and a CRC that passes. An up frame with a
bad CRC is counted with event bit 1; a good one with no new event set brings FIO_IN and SAF_STAT and ends staleness;
a new EVT_NO is the one acknowledged. A lost up frame counts, and the third makes the data stale. A down frame with
a bad CRC is counted and changes no output; one that fails only the OUT check counts as lost; a good one is
followed, after a hold-off from its RESUME on. The third lost down frame in a row puts every output off. FIO_RESUME
marks the next down frame. -/
def Obligations.FieldLinkFramesAndOutputs : Prop :=
  (∀ (n : Fin 32) (level : Bool) (run : Nat) (s : State), s.powered 11 = true →
    (s.fio.filt.toNat < run → answers (.fieldInputChange n level run) s fun t => t.fio.ins.getLsbD n = level ∧
      (∀ m, m < 32 → m ≠ n.val → t.fio.ins.getLsbD m = s.fio.ins.getLsbD m) ∧ t.regs = s.regs) ∧
    (run ≤ s.fio.filt.toNat → exec (.fieldInputChange n level run) s = .next s)) ∧
  (∀ (n : Fin 16) (s : State), s.powered 11 = true → s.fio.outOn n = true → answers (.outputOverload n) s fun t =>
    (∀ m, m < 16 → t.fio.ovl.getLsbD m = (s.fio.ovl.getLsbD m || s.fio.lead m == s.fio.lead n)) ∧
    (∀ m, m < 16 → s.fio.lead m = s.fio.lead n → t.fio.outOn m = false) ∧ (t.fio.evtSet ||| t.fio.evtNext).getLsbD 2 = true) ∧
  (∀ (v : BitVec 16) (s : State), s.powered 11 = true →
    (s.fio.low = false → v.toNat < 1800 → answers (.fieldSupplyLow v) s fun t => t.fio.low = true ∧ t.fio.vsup = v ∧
      (∀ m, m < 16 → t.fio.outOn m = false) ∧ (∀ so, t.safOutOn so = false) ∧
      (t.fio.evtSet ||| t.fio.evtNext).getLsbD 3 = true) ∧
    (s.fio.low = true → 1900 ≤ v.toNat → answers (.fieldSupplyRecover v) s fun t => t.fio.low = false ∧ t.fio.vsup = v) ∧
    (s.fio.low = true → v.toNat < 1900 → exec (.fieldSupplyRecover v) s = .next s)) ∧
  (∀ s s1 : State, s.powered 1 = true → s.sys.going = true → s.powered 11 = true → s.now.toNat + 10000 < 2 ^ 64 →
    s1 = s.elapse ((10000 - s.now.toNat % 10000) % 10000) →
    answers .downFrameSend s fun t => t.now.toNat = (s.now.toNat + 9999) / 10000 * 10000 ∧ t.iso.resume = false ∧
      lineField t.fio.down 0 16 = 0xA55A ∧ lineField t.fio.down 16 8 = t.now.toNat / 10000 % 256 ∧
      lineField t.fio.down 24 16 = s1.outsNow ∧ lineField t.fio.down 40 16 = 65535 - s1.outsNow ∧
      lineField t.fio.down 56 8 = (if s.iso.resume then 128 else 0) ∧ lineField t.fio.down 64 8 = s.iso.ack.toNat ∧
      isoCrcOk t.fio.down = true) ∧
  (∀ (v : Word) (s : State), (∀ t o, s.iso.outWas = some (t, o) → t ≠ s.now) →
    s.outsNow = s.field Reg.FIO_OUT 0 16 ∧ (s.fioOut v).rd Reg.FIO_OUT = v &&& 0xFFFF ∧
    (s.fioOut v).outsNow = s.field Reg.FIO_OUT 0 16 ∧ (∀ w, ((s.fioOut v).fioOut w).outsNow = s.field Reg.FIO_OUT 0 16) ∧
    (∀ n, 0 < n → n < 2 ^ 64 → s.sys.going = true → ((s.fioOut v).elapse n).outsNow = fieldOf v 0 16)) ∧
  (∀ s : State, s.powered 11 = true → answers .fieldUpFrameSend s fun t => { t with fio := s.fio } = s ∧
    lineField t.fio.up 0 16 = 0x5AA5 ∧ lineField t.fio.up 24 8 = s.fio.evtNo.toNat ∧ lineField t.fio.up 32 32 = s.fio.ins.toNat ∧
    lineField t.fio.up 152 16 = s.fio.evtSet.toNat ∧ isoCrcOk t.fio.up = true) ∧
  (∀ (u : BitVec 256) (s : State), s.open .fio = true →
    (isoCrcOk u = false → ∃ w : State, w.field Reg.FIO_LINK_CNT 16 16 = satAdd (s.field Reg.FIO_LINK_CNT 16 16) 1 0xFFFF ∧
      w.bitOf Reg.FIO_EVT 1 = true ∧ onlyRegs s w [Reg.FIO_LINK_CNT, Reg.FIO_EVT] ∧
      exec (.upFrameReceive u) s = .next (w.raise 225)) ∧
    (isoCrcOk u = true → lineField u 0 16 = 0x5AA5 → lineField u 24 8 = s.iso.ack.toNat →
      answers (.upFrameReceive u) s fun t => t.rd Reg.FIO_IN = BitVec.ofNat 32 (lineField u 32 32) ∧
        t.rd Reg.SAF_STAT = BitVec.ofNat 32 (lineField u 104 16) ∧ t.iso.stale = false ∧ t.iso.lostRow = 0 ∧
        t.iso.ack = s.iso.ack) ∧
    (isoCrcOk u = true → lineField u 0 16 = 0x5AA5 → answers (.upFrameReceive u) s fun t =>
      t.iso.ack = BitVec.ofNat 8 (lineField u 24 8)) ∧
    (s.iso.slotOk ≠ some (s.now.toNat / 10000) → answers .upFrameLost s fun t => t.iso.lostRow = s.iso.lostRow + 1 ∧
      t.iso.stale = (s.iso.stale || s.iso.lostRow + 1 == 3)) ∧
    (answers .fioResume s fun t => t = { s with iso := { s.iso with resume := true } }) ∧
    (∀ v : BitVec 16, answers (.fioOvlClr v) s fun t => t = { s with fio := { s.fio with ovl := s.fio.ovl &&& ~~~ v } })) ∧
  (∀ (d : BitVec 256) (s : State), s.powered 11 = true →
    (isoCrcOk d = false → answers (.fieldDownFrameReceive d) s fun t => t.fio.crc = s.fio.crc + 1 ∧ t.fio.out = s.fio.out ∧
      t.fio.heldOff = s.fio.heldOff ∧ (t.fio.evtSet ||| t.fio.evtNext).getLsbD 1 = true) ∧
    (isoCrcOk d = true → lineField d 0 16 = 0xA55A → lineField d 24 16 + lineField d 40 16 ≠ 65535 →
      answers (.fieldDownFrameReceive d) s fun t => t.fio.lost = s.fio.lost + 1 ∧ t.fio.out = s.fio.out ∧
        (t.fio.evtSet ||| t.fio.evtNext).getLsbD 1 = true) ∧
    (isoCrcOk d = true → lineField d 0 16 = 0xA55A → lineField d 24 16 + lineField d 40 16 = 65535 →
      answers (.fieldDownFrameReceive d) s fun t => t.fio.out = BitVec.ofNat 16 (lineField d 24 16) ∧ t.fio.lostRow = 0 ∧
        t.fio.gang = BitVec.ofNat 12 (lineField d 224 12) ∧ t.fio.slot = BitVec.ofNat 8 (lineField d 16 8) ∧
        t.fio.heldOff = (s.fio.heldOff && lineField d 56 1 == 0) ∧ t.fio.ovl = s.fio.ovl) ∧
    (answers .fieldDownFrameLost s fun t => t.fio.lostRow = s.fio.lostRow + 1 ∧ t.fio.lost = s.fio.lost + 1 ∧
      t.fio.heldOff = (s.fio.heldOff || s.fio.lostRow + 1 == 3) ∧
      (s.fio.lostRow = 2 → ∀ m, t.fio.outOn m = false)))

/-- Converter, PD10 on: START, STOP, CAL and a factor write act in the states that allow them and else set event bit 7,
changing nothing more; START puts each modulator on its first entry at its first free grid slot. The trigger of JGO,
or of VT at ADC_JAT, puts each modulator named on its first injected entry at most 200 ticks later. CAL_DONE takes
the factors of each modulator that passes and sets event bits 5 and, for one that fails, 6. A slot end writes the
result of its input, first of a slot that had ended when an injection came, or of its injected entry. A result read
latches its stamp. Shaft: edges count as the mode says; both lines changing in quadrature count nothing but an
error. An index is latched, becomes the reference, or is checked against SHF_IDX and the two values a CPR away; an
unexpected one sets event bit 4 and, with IDX_CORR, moves to the nearest. A count write, configuration writes, a
request, a read's end and its idle time do what their rules say or are refused with event bit 9. -/
def Obligations.ConverterAndShaftCommands : Prop :=
  (∀ s : State, s.open .adc = true →
    (s.adc.run = false → s.adc.cal = false → answers .adcStart s fun t => t.adc.run = true ∧ t.regs = s.regs ∧
      ∀ m, m < 4 → (t.adcMod m).cur = ((s.adcEntries m).head?.map fun e => ⟨e, s.adcFree (s.adcMod m) (s.adcGrid s.now)⟩) ∧
        ((s.adcMod m).inj = none → s.adcFree (s.adcMod m) (s.adcGrid s.now) = s.adcGrid s.now) ∧
        (t.adcMod m).todo = (s.adcEntries m).tail ∧ (t.adcMod m).inj = (s.adcMod m).inj) ∧
    ((s.adc.run || s.adc.cal) = true → answers .adcStart s fun t => t.bitOf Reg.ADC_EVT 7 = true ∧ onlyRegs s t [Reg.ADC_EVT]) ∧
    (s.adc.run = true → answers .adcStop s fun t => t.adc.run = false ∧ t.adc.jbusy = false ∧ t.adc.mods = [] ∧
      t.bitOf Reg.ADC_EVT 0 = true ∧ regsBut s t [Reg.ADC_EVT]) ∧
    (s.adc.run = false → answers .adcStop s fun t => t.bitOf Reg.ADC_EVT 7 = true ∧ onlyRegs s t [Reg.ADC_EVT]) ∧
    (s.adc.busy = false → answers .adcCal s fun t => t = { s with adc := { s.adc with cal := true } }) ∧
    (s.adc.busy = true → answers .adcCal s fun t => t.bitOf Reg.ADC_EVT 7 = true ∧ onlyRegs s t [Reg.ADC_EVT])) ∧
  (∀ (m : Fin 4) (gain : Bool) (v : Word) (s : State), s.open .adc = true →
    (s.adc.busy = false → answers (.adcFactorWrite m gain v) s fun t => t.adc = { s.adc with calValid := true } ∧
      t.rd (if gain then Reg.ADC_GAIN m else Reg.ADC_OFS m) = v ∧
      regsBut s t [if gain then Reg.ADC_GAIN m else Reg.ADC_OFS m] ∧ { t with adc := s.adc, regs := s.regs } = s) ∧
    (s.adc.busy = true → answers (.adcFactorWrite m gain v) s fun t => t.bitOf Reg.ADC_EVT 7 = true ∧
      onlyRegs s t [Reg.ADC_EVT])) ∧
  (∀ (o0 o1 o2 o3 r0 r1 r2 r3 : Word) (s : State), s.open .adc = true → s.adc.cal = true →
    answers (.calDone o0 o1 o2 o3 r0 r1 r2 r3) s fun t => t.adc = { s.adc with cal := false, calValid := true } ∧
      t.bitOf Reg.ADC_EVT 5 = true ∧
      ∀ e ∈ [(0, o0, r0), (1, o1, r1), (2, o2, r2), (3, o3, r3)], match calFactors e.2.1 e.2.2 with
        | some (o, g) => t.rd (Reg.ADC_OFS e.1) = o ∧ t.rd (Reg.ADC_GAIN e.1) = g
        | none => t.bitOf Reg.ADC_EVT 6 = true ∧ t.rd (Reg.ADC_OFS e.1) = s.rd (Reg.ADC_OFS e.1) ∧
          t.rd (Reg.ADC_GAIN e.1) = s.rd (Reg.ADC_GAIN e.1)) ∧
  (∀ s : State, s.open .adc = true → s.adc.jbusy = false → s.adc.cal = false →
    (s.adcTrig = 1 → answers .jgo s fun t => t.adc.jbusy = true ∧ t.regs = s.regs ∧ ∀ m, m < 4 →
      (∀ j r, s.adcJEntries m = j :: r → ∃ d, d ≤ 200 ∧ (t.adcMod m).inj = some ⟨j, s.now + BitVec.ofNat 64 d⟩ ∧
        (t.adcMod m).injTodo = r) ∧ (s.adcJEntries m = [] → t.adcMod m = s.adcMod m)) ∧
    (s.adcTrig = 2 → s.sys.going = true → answers .jatMatch s fun t => t.adc.jbusy = true ∧
      t.now.setWidth 32 = s.rd Reg.ADC_JAT ∧ ∀ m, m < 4 → ∀ j r, s.adcJEntries m = j :: r → ∃ d, d ≤ 200 ∧
        (t.adcMod m).inj = some ⟨j, t.now + BitVec.ofNat 64 d⟩)) ∧
  (∀ (m : Fin 4) (raw : Word) (c : AdcConv) (s : State), s.open .adc = true →
    ((s.adcMod m).late = some c ∨ ((s.adcMod m).late = none ∧ (s.adcMod m).inj = none ∧ (s.adcMod m).cur = some c) → answers (.adcSlotEnd m raw) s fun t =>
      t.bitOf Reg.ADC_NEW (s.adcIn c.entry) = true ∧ ∃ f : Nat, t.rd (Reg.ADC_RES (s.adcIn c.entry)) =
        adcWord (adcCode raw.toInt (s.rd (Reg.ADC_OFS m)) (s.rd (Reg.ADC_GAIN m)) s.adcFine f) (!s.adc.calValid)
          (s.rdNat Reg.ADC_ROUND)) ∧
    ((s.adcMod m).late = some c → answers (.adcSlotEnd m raw) s fun t => (t.adcMod m).late = none ∧
      (t.adcMod m).inj = (s.adcMod m).inj) ∧
    ((s.adcMod m).late = none → (s.adcMod m).inj = some c → c.entry < 4 → answers (.adcSlotEnd m raw) s fun t =>
      (t.adcMod m).cur = (s.adcMod m).cur ∧ ∃ f : Nat, t.rd (Reg.ADC_JRES c.entry) =
        adcWord (adcCode raw.toInt (s.rd (Reg.ADC_OFS m)) (s.rd (Reg.ADC_GAIN m)) s.adcFine f) (!s.adc.calValid) 0)) ∧
  (∀ (n : Fin 16) (s : State), s.open .adc = true →
    (answers (.adcResRead false n) s fun t => t.bus.data = s.rd (Reg.ADC_RES n) ∧
      t.rd Reg.ADC_RES_VT = Sparse.get (fun _ => 0) s.adc.starts n ∧ regsBut s t [Reg.ADC_RES_VT] ∧
      { t with bus := s.bus, regs := s.regs } = s) ∧
    (answers (.adcResRead true n) s fun t => t.bus.data = s.rd (Reg.ADC_JRES (n % 4)) ∧
      t.rd Reg.ADC_RES_VT = Sparse.get (fun _ => 0) s.adc.starts (16 + n.val % 4) ∧ regsBut s t [Reg.ADC_RES_VT])) ∧
  (∀ (ch : Fin 2) (a b : Bool) (s : State), s.open .shf = true → answers (.shaftEdge ch a b (s.shf ch).z) s fun t =>
    let x := s.shf ch
    let v := s.rd (Reg.SHF_CNT ch)
    (t.shf ch).a = a ∧ (t.shf ch).b = b ∧
    (s.shfMode ch = 0 → t.rd (Reg.SHF_CNT ch) = v) ∧
    (s.shfMode ch = 1 → x.a ≠ a → x.b ≠ b → t.rd (Reg.SHF_CNT ch) = v ∧ t.bitOf (Reg.SHF_EVT ch) 3 = true ∧
      t.field (Reg.SHF_ERR ch) 0 8 = satAdd (s.field (Reg.SHF_ERR ch) 0 8) 1 255 ∧ (t.shf ch).dir = x.dir) ∧
    (s.shfMode ch = 1 → (x.a ^^ a) ≠ (x.b ^^ b) → t.rd (Reg.SHF_CNT ch) = if quadUp x.a x.b a b then v + 1 else v - 1) ∧
    (s.shfMode ch = 2 → x.a = false → a = true → t.rd (Reg.SHF_CNT ch) = if x.b then v + 1 else v - 1) ∧
    (s.shfMode ch = 3 → x.a = false → x.b = false → t.rd (Reg.SHF_CNT ch) = if a = b then v else if a then v + 1 else v - 1)) ∧
  (∀ (ch : Fin 2) (s : State), s.open .shf = true → (s.shf ch).z = false → 1 ≤ s.shfMode ch → s.shfMode ch ≤ 3 →
    answers (.indexEdge ch) s fun t =>
      let v := s.rd (Reg.SHF_CNT ch)
      let want := [s.rd (Reg.SHF_IDX ch), s.rd (Reg.SHF_IDX ch) + s.rd (Reg.SHF_CPR ch),
        s.rd (Reg.SHF_IDX ch) - s.rd (Reg.SHF_CPR ch)]
      (t.shf ch).z = true ∧
      (s.rd (Reg.SHF_CPR ch) = 0 ∨ (s.shf ch).next = true ∨ v ∈ want → t.rd (Reg.SHF_IDX ch) = v ∧ t.rd (Reg.SHF_CNT ch) = v) ∧
      (s.rd (Reg.SHF_CPR ch) ≠ 0 → (s.shf ch).next = true → (t.shf ch).ref = true ∧ (t.shf ch).next = false) ∧
      (s.rd (Reg.SHF_CPR ch) ≠ 0 → (s.shf ch).next = false → v ∉ want → t.rd (Reg.SHF_IDX_BAD ch) = v ∧
        t.bitOf (Reg.SHF_EVT ch) 4 = true ∧
        (s.shfCorr ch = false → t.rd (Reg.SHF_CNT ch) = v ∧ t.rd (Reg.SHF_IDX ch) = s.rd (Reg.SHF_IDX ch)) ∧
        (s.shfCorr ch = true → ∃ e ∈ want, (∀ e' ∈ want, (timeDiff e v).natAbs ≤ (timeDiff e' v).natAbs) ∧
          t.rd (Reg.SHF_CNT ch) = e ∧ t.rd (Reg.SHF_IDX ch) = e))) ∧
  (∀ (ch : Fin 2) (v : Word) (s : State), s.open .shf = true →
    (answers (.shfCntWrite ch v) s fun t => t.rd (Reg.SHF_CNT ch) = v ∧ t.shf ch = { s.shf ch with ref := false, next := true } ∧
      regsBut s t [Reg.SHF_CNT ch]) ∧
    (fieldOf v 0 3 ≤ 3 → answers (.shfCfgWrite ch v) s fun t => t.rd (Reg.SHF_CFG ch) = v &&& 0x00071007 ∧
      regsBut s t [Reg.SHF_CFG ch] ∧ ((s.shfMode ch = 0 ∧ fieldOf v 0 3 ≠ 0) → (t.shf ch).next = true)) ∧
    (3 < fieldOf v 0 3 → answers (.shfCfgWrite ch v) s fun t => t.bitOf (Reg.SHF_EVT ch) 9 = true ∧
      onlyRegs s t [Reg.SHF_EVT ch]) ∧
    ((s.shf ch).ssi = .idle → s.absEn ch = true → answers (.ssiReq ch) s fun t =>
      t.shf ch = { s.shf ch with ssi := .reading } ∧ t.regs = s.regs) ∧
    ((s.shf ch).ssi ≠ .idle ∨ s.absEn ch = false → answers (.ssiReq ch) s fun t => t.bitOf (Reg.SHF_EVT ch) 9 = true ∧
      onlyRegs s t [Reg.SHF_EVT ch]) ∧
    ((s.shf ch).ssi = .pause → answers (.ssiTmEnd ch) s fun t => t.shf ch = { s.shf ch with ssi := .idle } ∧ t.regs = s.regs) ∧
    ((s.shf ch).ssi = .idle → fieldOf v 16 8 ≠ 0 → fieldOf v 0 12 ≠ 0 → answers (.shfAbsCfgWrite ch true v) s fun t =>
      t.rd (Reg.SHF_ABS_TIME ch) = v &&& 0x00FF0FFF ∧ onlyRegs s t [Reg.SHF_ABS_TIME ch]) ∧
    ((s.shf ch).ssi = .idle → 8 ≤ fieldOf v 20 6 → fieldOf v 20 6 ≤ 32 → 50 ≤ fieldOf v 10 10 → fieldOf v 10 10 ≤ 1000 →
      answers (.shfAbsCfgWrite ch false v) s fun t => t.rd (Reg.SHF_ABS_CFG ch) = v &&& 0xF3FFFC7F ∧
        onlyRegs s t [Reg.SHF_ABS_CFG ch]) ∧
    ((s.shf ch).ssi ≠ .idle → ∀ time, answers (.shfAbsCfgWrite ch time v) s fun t => t.bitOf (Reg.SHF_EVT ch) 9 = true ∧
      onlyRegs s t [Reg.SHF_EVT ch])) ∧
  (∀ (ch : Fin 2) (vt bits : Word) (high : Bool) (s : State), s.open .shf = true → (s.shf ch).ssi = .reading →
    (answers (.ssiReadDone ch true vt bits high) s fun t => t.shf ch = { s.shf ch with ssi := .pause } ∧
      t.rd (Reg.SHF_ABS_VT ch) = vt ∧
      ((s.bitOf (Reg.SHF_ABS_CFG ch) 29 && high) = true → t.bitOf (Reg.SHF_EVT ch) 7 = true ∧
        t.rd (Reg.SHF_ABS_POS ch) = s.rd (Reg.SHF_ABS_POS ch)) ∧
      ((s.bitOf (Reg.SHF_ABS_CFG ch) 29 && high) = false → t.bitOf (Reg.SHF_EVT ch) 5 = true ∧
        let w := bits &&& BitVec.ofNat 32 (2 ^ s.field (Reg.SHF_ABS_CFG ch) 20 6 - 1)
        (s.bitOf (Reg.SHF_ABS_CFG ch) 30 = false → t.rd (Reg.SHF_ABS_POS ch) = w) ∧
        (s.bitOf (Reg.SHF_ABS_CFG ch) 30 = true → t.rd (Reg.SHF_ABS_POS ch) ^^^ (t.rd (Reg.SHF_ABS_POS ch) >>> 1) = w))) ∧
    (answers (.ssiReadDone ch false vt bits high) s fun t => t.shf ch = { s.shf ch with ssi := .pause } ∧
      t.bitOf (Reg.SHF_EVT ch) 6 = true ∧ regsBut s t [Reg.SHF_EVT ch]))

/-- Through the powered PWM window: a LOAD_ALL whose checks pass writes result 0, is pending on enabled channels and in
effect at once on the others; one that fails writes the first failing channel with its code, sets event bit 1 and
changes no pair. A reload takes the pending pair, but the old one in the tick of the LOAD_ALL, or the armed pair
where a Trip arms the channel, and lights the output for its on-time to the next reload; the off edge darkens it.
Setting EN starts a channel 4 ticks later, or is refused with code 6 for an invalid pair; clearing it darkens the
channel and takes its pending pair. MINOFF changes only while EN is 0, an armed pair only without a Trip and when
valid, PWM_CHOP only without a Trip. The firmware arm is set and cleared, and refused while a core is halted with
HALT_CALM. A clock stop sets event bit 5 and darkens every output. -/
def Obligations.ChopperOutputsCommands : Prop :=
  (∀ s : State, s.open .pwm = true →
    (s.pwmFails = none → answers .loadAll s fun t => t.rd Reg.PWM_LOAD_RES = 0 ∧ ∀ n, n < 16 →
      (s.pwmEn n = true → (t.pwmCh n).pend = some (s.rd (Reg.PWM_STG_PER n), s.rd (Reg.PWM_STG_T n)) ∧
        (t.pwmCh n).pendAt = s.tb.vt ∧
        t.rd (Reg.PWM_PER n) = s.rd (Reg.PWM_PER n) ∧ t.rd (Reg.PWM_T n) = s.rd (Reg.PWM_T n)) ∧
      (s.pwmEn n = false → t.rd (Reg.PWM_PER n) = s.rd (Reg.PWM_STG_PER n) ∧ t.rd (Reg.PWM_T n) = s.rd (Reg.PWM_STG_T n))) ∧
    (∀ n c, s.pwmFails = some (n, c) → answers .loadAll s fun t => t.rd Reg.PWM_LOAD_RES = BitVec.ofNat 32 (256 * n + c) ∧
      t.bitOf Reg.PWM_EVT 1 = true ∧ onlyRegs s t [Reg.PWM_LOAD_RES, Reg.PWM_EVT] ∧
      (∀ k, k < n → s.pwmEn k = true → pwmCode (s.rd (Reg.PWM_STG_PER k)) (s.rd (Reg.PWM_STG_T k)) (s.pwmMinOff k) = 0 ∧
        (s.pwmCh k).pend = none))) ∧
  (∀ (n : Fin 16) (s : State), s.open .pwm = true → (s.pwmCh n).run = true →
    ((s.pwm.trip && s.pwmChop n) = false →
      let old := (s.rd (Reg.PWM_PER n), s.rd (Reg.PWM_T n))
      let p := if (s.pwmCh n).pendAt = (s.pwmCh n).next then old else (s.pwmCh n).pend.getD old
      pwmPer p.1 ≠ 0 → answers (.pwmReload n) s fun t => t.rd (Reg.PWM_PER n) = p.1 ∧ t.rd (Reg.PWM_T n) = p.2 ∧
        (t.pwmCh n).pend = (if (s.pwmCh n).pendAt = (s.pwmCh n).next then (s.pwmCh n).pend else none) ∧ (t.pwmCh n).run = true ∧
        (t.pwmCh n).calm = s.pwmHalt ∧ (t.pwmCh n).on = decide (0 < pwmOn p.1 p.2) ∧
        (t.pwmCh n).next = (s.pwmCh n).next + BitVec.ofNat 64 (pwmPer p.1) ∧
        (t.pwmCh n).off = (s.pwmCh n).next + BitVec.ofNat 64 (pwmOn p.1 p.2)) ∧
    ((s.pwm.trip && s.pwmChop n) = true → pwmPer (s.rd (Reg.PWM_ARM_PER n)) ≠ 0 → answers (.pwmReload n) s fun t =>
      (t.pwmCh n).armed = true ∧
      (t.pwmCh n).next = (s.pwmCh n).next + BitVec.ofNat 64 (pwmPer (s.rd (Reg.PWM_ARM_PER n)))) ∧
    ((s.pwmCh n).on = true → answers (.pwmOffEdge n) s fun t => t.pwmCh n = { s.pwmCh n with on := false } ∧
      t.pwmLit n = false ∧ t.regs = s.regs)) ∧
  (∀ (v : BitVec 16) (n : Fin 16) (s : State), s.open .pwm = true → answers (.pwmEnWrite v) s fun t =>
    (v.getLsbD n = s.pwmEn n → t.pwmEn n = s.pwmEn n ∧ t.pwmCh n = s.pwmCh n) ∧
    (v.getLsbD n = true → s.pwmEn n = false →
      (pwmCode (s.rd (Reg.PWM_PER n)) (s.rd (Reg.PWM_T n)) (s.pwmMinOff n) = 0 → t.pwmEn n = true ∧
        t.pwmCh n = { s.pwmCh n with run := true, on := false, calm := s.pwmHalt, next := s.tb.vt + 4 }) ∧
      (pwmCode (s.rd (Reg.PWM_PER n)) (s.rd (Reg.PWM_T n)) (s.pwmMinOff n) ≠ 0 → t.pwmEn n = false ∧ t.pwmCh n = s.pwmCh n ∧
        t.bitOf Reg.PWM_EVT 1 = true ∧ t.field Reg.PWM_LOAD_RES 0 8 = 6)) ∧
    (v.getLsbD n = false → s.pwmEn n = true → t.pwmEn n = false ∧ t.pwmLit n = false ∧ (t.pwmCh n).run = false ∧
      (t.pwmCh n).pend = none ∧
      ∀ p, (s.pwmCh n).pend = some p → t.rd (Reg.PWM_PER n) = p.1 ∧ t.rd (Reg.PWM_T n) = p.2)) ∧
  (∀ (n : Fin 16) (v : BitVec 16) (s : State), s.open .pwm = true →
    (s.pwmEn n = false → answers (.pwmMinoffWrite n v) s fun t => s.pwmEn n = t.pwmEn n ∧ t.pwmMinOff n = v.toNat ∧
      onlyRegs s t [Reg.PWM_MINOFF n]) ∧
    (s.pwmEn n = true → answers (.pwmMinoffWrite n v) s fun t => t.bitOf Reg.PWM_EVT 2 = true ∧ onlyRegs s t [Reg.PWM_EVT]) ∧
    (s.pwm.trip = false → answers (.pwmChopWrite v) s fun t => t.rd Reg.PWM_CHOP = v.setWidth 32 ∧ onlyRegs s t [Reg.PWM_CHOP]) ∧
    (s.pwm.trip = true → exec (.pwmChopWrite v) s = .next s)) ∧
  (∀ s : State, s.open .pwm = true →
    (s.pwmHalt = false →
      (answers .chopperArm s fun t => t.pwmFw = true ∧ onlyRegs s t [Reg.PWM_ARM_CMD, Reg.PWM_ARM_CMD + 4]) ∧
      (answers .chopperDisarm s fun t => t.pwmFw = false ∧ t.pwm.trip = s.pwm.trip ∧
        onlyRegs s t [Reg.PWM_ARM_CMD, Reg.PWM_ARM_CMD + 4])) ∧
    (s.pwmHalt = true → ∀ c, c = .chopperArm ∨ c = .chopperDisarm → answers c s fun t => t.bitOf Reg.PWM_EVT 2 = true ∧
      onlyRegs s t [Reg.PWM_EVT]) ∧
    (answers .clockStop s fun t => t.bitOf Reg.PWM_EVT 5 = true ∧ (∀ n, t.pwmLit n = false) ∧ regsBut s t [Reg.PWM_EVT])) ∧
  (∀ (n : Fin 16) (isT : Bool) (v : Word) (s : State), s.open .pwm = true →
    let per := if isT then s.rd (Reg.PWM_ARM_PER n) else v &&& 0x00FFFFFF
    let w := if isT then v &&& 0x80FFFFFF else s.rd (Reg.PWM_ARM_T n)
    let a := if isT then Reg.PWM_ARM_T n else Reg.PWM_ARM_PER n
    (s.pwm.trip = false → pwmCode per w (s.pwmMinOff n) = 0 → answers (.armPairWrite n isT v) s fun t =>
      t.rd a = (if isT then w else per) ∧ onlyRegs s t [a]) ∧
    (s.pwm.trip = true ∨ pwmCode per w (s.pwmMinOff n) ≠ 0 → answers (.armPairWrite n isT v) s fun t =>
      t.bitOf Reg.PWM_EVT 2 = true ∧ onlyRegs s t [Reg.PWM_EVT]))

/-- Through a powered port: a frame received goes to the lowest fitting buffer with NEW clear, with its ID, stamp and
event bit 0; without a fit it is counted in CAN_RX_NOMATCH, with none free or overwritable in CAN_RX_LOST with event
bit 7. A request is accepted exactly when R809 allows it, and sets PEND and the queue stamp; else event bit 9 is
set. An abort discards a pending frame that is not in transmission and marks one that is. A sent frame clears PEND,
counts in SENT and takes its stamp; one that fails is discarded when aborted or ONESHOT, else waits on; a stale one
is discarded with FS219. Every send and discard is checked by the accounting, which raises FS218 with event bit 10
only when the counts differ. The port enters the states its counters give, with their event bits; recovery starts by
REC or AUTO_REC and ends error-active. Setting INIT ends in CONFIG with no frame pending. Bit timings are taken only
under INIT and within range. -/
def Obligations.CanPortsCommands : Prop :=
  (∀ (p : Fin 2) (f : CanFrame) (ts : Word) (s : State), s.open (.can p) = true → (s.can p).live = true → s.canLoop p ≠ 1 →
    (f.fdf = true → s.bitOf (Reg.CAN_CTL p) 1 = true) →
    (∀ b : Fin 64, s.canFits p f b = true → s.canNew p b = false → (∀ k, k < b.val → s.canFits p f k = true → s.canNew p k = true) →
      answers (.canFrameReceive p f ts) s fun t => t.canNew p b = true ∧ t.rd (Reg.CAN_BUF_ID p b) = f.idWord ∧
        t.rd (Reg.CAN_BUF_TS p b) = ts ∧ t.bitOf (Reg.CAN_EVT p) 0 = true ∧ ∀ k, k < 64 → k ≠ b.val → t.canNew p k = s.canNew p k) ∧
    ((∀ k, k < 64 → s.canFits p f k = false) → answers (.canFrameReceive p f ts) s fun t =>
      t.rdNat (Reg.CAN_RX_NOMATCH p) = satInc (s.rdNat (Reg.CAN_RX_NOMATCH p)) 0xFFFFFFFF ∧ onlyRegs s t [Reg.CAN_RX_NOMATCH p]) ∧
    ((∃ k, k < 64 ∧ s.canFits p f k = true) → (∀ k, k < 64 → s.canFits p f k = true → s.canNew p k = true ∧
        s.bitOf (Reg.CAN_BUF_CFG p k) 29 = false) → answers (.canFrameReceive p f ts) s fun t =>
      t.rdNat (Reg.CAN_RX_LOST p) = satInc (s.rdNat (Reg.CAN_RX_LOST p)) 0xFFFFFFFF ∧ t.bitOf (Reg.CAN_EVT p) 7 = true ∧
        onlyRegs s t [Reg.CAN_RX_LOST p, Reg.CAN_EVT p])) ∧
  (∀ (p : Fin 2) (m : BitVec 64) (b : Fin 64) (s : State), s.open (.can p) = true → answers (.canTxReq p m) s fun t =>
    (m.getLsbD b = false → t.canPend p b = s.canPend p b) ∧
    (m.getLsbD b = true → ((s.bitOf (Reg.CAN_BUF_CFG p b) 31 && s.bitOf (Reg.CAN_BUF_CFG p b) 30) = true ∧ s.canPend p b = false ∧
        s.canInit p = false → t.canPend p b = true ∧ t.rd (Reg.CAN_BUF_QTS p b) = s.canTs) ∧
      ((s.bitOf (Reg.CAN_BUF_CFG p b) 31 && s.bitOf (Reg.CAN_BUF_CFG p b) 30) = false ∨ s.canPend p b = true ∨ s.canInit p = true →
        t.canPend p b = s.canPend p b ∧ t.bitOf (Reg.CAN_EVT p) 9 = true))) ∧
  (∀ (p : Fin 2) (b : Fin 64) (cur : Option (Fin 64)) (s : State), s.open (.can p) = true →
    (s.canPend p b = false → exec (.canTxAbort p ((1 : BitVec 64) <<< b.val) cur) s = .next s) ∧
    (s.canPend p b = true → cur = some b → answers (.canTxAbort p ((1 : BitVec 64) <<< b.val) cur) s fun t =>
      t.canPend p b = true ∧ t.canAborting p b = true ∧ t.rd (Reg.CAN_DISCARDED p) = s.rd (Reg.CAN_DISCARDED p)) ∧
    (s.canPend p b = true → cur ≠ some b → exec (.canTxAbort p ((1 : BitVec 64) <<< b.val) cur) s = .next (s.canDiscard p b 1)) ∧
    (∀ m, answers (.canTxAbort p m cur) s fun t => (m.getLsbD b = false → t.canPend p b = s.canPend p b) ∧
      (m.getLsbD b = true → t.canPend p b = (s.canPend p b && cur == some b)))) ∧
  (∀ (p : Fin 2) (b : Fin 64) (reason : Nat) (s : State), ∃ u : State, u.canPend p b = false ∧ u.canAborting p b = false ∧
    u.rd (Reg.CAN_DISCARDED p) = s.rd (Reg.CAN_DISCARDED p) + 1 ∧ u.rd (Reg.CAN_TX_DISC p) = BitVec.ofNat 32 (256 * b + reason) ∧
    u.bitOf (Reg.CAN_EVT p) 6 = true ∧ s.canDiscard p b reason = u.canAudit p) ∧
  (∀ (p : Fin 2) (s : State),
    (s.rd (Reg.CAN_QUEUED p) - s.rd (Reg.CAN_SENT p) - s.rd (Reg.CAN_DISCARDED p) = BitVec.ofNat 32 (s.canPending p) →
      s.canAudit p = s) ∧
    (s.rd (Reg.CAN_QUEUED p) - s.rd (Reg.CAN_SENT p) - s.rd (Reg.CAN_DISCARDED p) ≠ BitVec.ofNat 32 (s.canPending p) →
      s.canAudit p = (s.setBit (Reg.CAN_EVT p) 10).raise 218)) ∧
  (∀ (p : Fin 2) (b : Fin 64) (start : Word) (s : State), s.open (.can p) = true → s.canPend p b = true →
    ((s.can p).live = true → s.canWins p b start = true → ∃ u : State, u.canPend p b = false ∧
      u.rd (Reg.CAN_SENT p) = s.rd (Reg.CAN_SENT p) + 1 ∧ u.rd (Reg.CAN_BUF_TS p b) = start ∧ u.bitOf (Reg.CAN_EVT p) 1 = true ∧
      exec (.canFrameSent p b start) s = .next (if s.canLoop p = 1 ∨ s.canLoop p = 2 then
        (u.canAudit p).canFilter p (s.canFrameOf p b) start else u.canAudit p)) ∧
    (s.canAborting p b = true → exec (.canFrameFail p b) s = .next (s.canDiscard p b 1)) ∧
    (s.canAborting p b = false → s.bitOf (Reg.CAN_BUF_CFG p b) 28 = true → exec (.canFrameFail p b) s = .next (s.canDiscard p b 3)) ∧
    (s.canAborting p b = false → s.bitOf (Reg.CAN_BUF_CFG p b) 28 = false → exec (.canFrameFail p b) s = .next s) ∧
    (0 < s.field (Reg.CAN_BUF_CTL p b) 8 16 →
      ((s.field (Reg.CAN_BUF_CTL p b) 8 16 * 25000 : Nat) < timeDiff s.canTs (s.rd (Reg.CAN_BUF_QTS p b)) →
        exec (.canStaleTest p b) s = .next (((s.canDiscard p b 2).setBit (Reg.CAN_EVT p) 5).raise 219)) ∧
      (timeDiff s.canTs (s.rd (Reg.CAN_BUF_QTS p b)) ≤ (s.field (Reg.CAN_BUF_CTL p b) 8 16 * 25000 : Nat) →
        exec (.canStaleTest p b) s = .next s))) ∧
  (∀ (p : Fin 2) (rec tec : BitVec 8) (s : State), s.open (.can p) = true → (s.can p).live = true →
    (answers (.canStateChange p rec tec true) s fun t => t.bitOf (Reg.CAN_EVT p) 3 = true ∧
      (t.can p).st = if s.bitOf (Reg.CAN_CTL p) 6 then .recovering else .busOff) ∧
    (answers (.canStateChange p rec tec false) s fun t => (t.can p).recCnt = rec ∧ (t.can p).tecCnt = tec ∧
      (t.can p).st = (if 127 < rec.toNat ∨ 127 < tec.toNat then .passive else .active) ∧
      ((127 < rec.toNat ∨ 127 < tec.toNat) → (s.can p).st = .active → t.bitOf (Reg.CAN_EVT p) 2 = true))) ∧
  (∀ (p : Fin 2) (s : State), s.open (.can p) = true →
    ((s.can p).st = .busOff → answers (.canRec p) s fun t => t = s.setCan p { s.can p with st := .recovering }) ∧
    ((s.can p).st ≠ .busOff → exec (.canRec p) s = .next s) ∧
    ((s.can p).st = .recovering → answers (.canRecovered p) s fun t => t.can p = { st := .active } ∧
      t.bitOf (Reg.CAN_EVT p) 4 = true ∧ regsBut s t [Reg.CAN_EVT p]) ∧
    (s.canInit p = true → exec (.canInit p) s = .next s) ∧
    (s.canInit p = false → answers (.canInit p) s fun t => t.canInit p = true ∧ (t.can p).st = .config ∧
      ∀ b, b < 64 → t.canPend p b = false)) ∧
  (∀ (p : Fin 2) (v : Word) (s : State), s.open (.can p) = true →
    (s.canInit p = false → ∀ k, answers (.canTimingWrite p k v) s fun t => t.bitOf (Reg.CAN_EVT p) 9 = true ∧
      onlyRegs s t [Reg.CAN_EVT p]) ∧
    (s.canInit p = true →
      (nbtOk v = true → answers (.canTimingWrite p .nominal v) s fun t => t.rd (Reg.CAN_NBT p) = v &&& 0xFFFF7F7F ∧
        onlyRegs s t [Reg.CAN_NBT p]) ∧
      (nbtOk v = false → answers (.canTimingWrite p .nominal v) s fun t => t.bitOf (Reg.CAN_EVT p) 9 = true ∧
        onlyRegs s t [Reg.CAN_EVT p]) ∧
      (dbtOk v = true → answers (.canTimingWrite p .data v) s fun t => t.rd (Reg.CAN_DBT p) = v &&& 0x1F1F0F0F ∧
        onlyRegs s t [Reg.CAN_DBT p]) ∧
      (dbtOk v = false → answers (.canTimingWrite p .data v) s fun t => t.bitOf (Reg.CAN_EVT p) 9 = true ∧
        onlyRegs s t [Reg.CAN_EVT p]) ∧
      (answers (.canTimingWrite p .delay v) s fun t => t.rd (Reg.CAN_TDC p) = v &&& 0x17F ∧ onlyRegs s t [Reg.CAN_TDC p])))
end

