-- ==== Sys2Proof/Laws/Sparse.lean ====
section
/-! SUPPORT. What the operations on sparse tables do: reading after writing, and the canonical form they keep. -/

namespace Sys2Proof.Machine

variable {α : Type} (d : Nat → α)

@[simp] theorem Sparse.get_nil (k : Nat) : Sparse.get d [] k = d k := rfl

theorem Sparse.get_drop (t : Sparse α) (k j : Nat) :
    Sparse.get d (Sparse.drop t k) j = if j = k then d j else Sparse.get d t j := by
  induction t with
  | nil => simp [Sparse.drop]
  | cons e r ih =>
    obtain ⟨a, v⟩ := e
    by_cases h : a = k
    · subst h
      by_cases hj : j = a
      · subst hj; simp [Sparse.drop, ih]
      · simp [Sparse.drop, Sparse.get, ih, hj, Ne.symm hj]
    · by_cases hj : a = j
      · subst hj; simp [Sparse.drop, Sparse.get, h]
      · simp [Sparse.drop, Sparse.get, h, hj, ih]

theorem Sparse.get_place (t : Sparse α) (k j : Nat) (v : α) (h : ∀ e ∈ t, e.1 ≠ k) :
    Sparse.get d (Sparse.place t k v) j = if j = k then v else Sparse.get d t j := by
  induction t with
  | nil => by_cases hj : k = j <;> simp [Sparse.place, Sparse.get, hj, eq_comm]
  | cons e r ih =>
    obtain ⟨a, w⟩ := e
    have ha : a ≠ k := h (a, w) (by simp)
    have hr := ih fun e he => h e (by simp [he])
    by_cases hlt : a < k
    · by_cases hj : a = j
      · subst hj; simp [Sparse.place, Sparse.get, hlt, ha]
      · simp [Sparse.place, Sparse.get, hlt, hj, hr]
    · by_cases hj : k = j
      · subst hj; simp [Sparse.place, Sparse.get, hlt]
      · simp [Sparse.place, Sparse.get, hlt, hj, Ne.symm hj]

theorem Sparse.key_of_mem_drop (t : Sparse α) (k : Nat) : ∀ e ∈ Sparse.drop t k, e.1 ≠ k := by
  induction t with
  | nil => simp [Sparse.drop]
  | cons e r ih =>
    obtain ⟨a, v⟩ := e
    by_cases h : a = k
    · simpa [Sparse.drop, h] using ih
    · intro e he
      simp only [Sparse.drop, h, if_false, List.mem_cons] at he
      rcases he with rfl | he
      · exact h
      · exact ih e he

/-- Reading after writing: the key written gives the value written, every other key what it gave before. -/
theorem Sparse.get_put [DecidableEq α] (t : Sparse α) (k j : Nat) (v : α) :
    Sparse.get d (Sparse.put d t k v) j = if j = k then v else Sparse.get d t j := by
  unfold Sparse.put
  split
  · next h => subst h; rw [Sparse.get_drop]; by_cases hj : j = k <;> simp [hj]
  · rw [Sparse.get_place d _ _ _ _ (Sparse.key_of_mem_drop t k), Sparse.get_drop]
    by_cases hj : j = k <;> simp [hj]

@[simp] theorem Sparse.get_put_same [DecidableEq α] (t : Sparse α) (k : Nat) (v : α) :
    Sparse.get d (Sparse.put d t k v) k = v := by simp [Sparse.get_put]

theorem Sparse.get_put_other [DecidableEq α] (t : Sparse α) (k j : Nat) (v : α) (h : j ≠ k) :
    Sparse.get d (Sparse.put d t k v) j = Sparse.get d t j := by simp [Sparse.get_put, h]

/-! ## The canonical form -/

theorem Sparse.risesFrom_mono (t : Sparse α) {b c : Nat} (h : c ≤ b) (ht : Sparse.risesFrom t b = true) :
    Sparse.risesFrom t c = true := by
  cases t with
  | nil => rfl
  | cons e r =>
    obtain ⟨a, v⟩ := e
    simp only [Sparse.risesFrom, Bool.and_eq_true, decide_eq_true_eq] at ht ⊢
    exact ⟨by omega, ht.2⟩

theorem Sparse.risesFrom_drop (t : Sparse α) (k b : Nat) (h : Sparse.risesFrom t b = true) :
    Sparse.risesFrom (Sparse.drop t k) b = true := by
  induction t generalizing b with
  | nil => rfl
  | cons e r ih =>
    obtain ⟨a, v⟩ := e
    simp only [Sparse.risesFrom, Bool.and_eq_true, decide_eq_true_eq] at h
    by_cases ha : a = k
    · simp only [Sparse.drop, ha, if_true]
      exact ih b (Sparse.risesFrom_mono r (by omega) h.2)
    · simp [Sparse.drop, ha, Sparse.risesFrom, h.1, ih (a + 1) h.2]

theorem Sparse.risesFrom_place (t : Sparse α) (k b : Nat) (v : α) (hb : b ≤ k) (hk : ∀ e ∈ t, e.1 ≠ k)
    (h : Sparse.risesFrom t b = true) : Sparse.risesFrom (Sparse.place t k v) b = true := by
  induction t generalizing b with
  | nil => simp [Sparse.place, Sparse.risesFrom, hb]
  | cons e r ih =>
    obtain ⟨a, w⟩ := e
    have ha : a ≠ k := hk (a, w) (by simp)
    simp only [Sparse.risesFrom, Bool.and_eq_true, decide_eq_true_eq] at h
    by_cases hlt : a < k
    · simp [Sparse.place, hlt, Sparse.risesFrom, h.1,
        ih (a + 1) (by omega) (fun e he => hk e (by simp [he])) h.2]
    · simp only [Sparse.place, hlt, if_false, Sparse.risesFrom, Bool.and_eq_true, decide_eq_true_eq]
      exact ⟨hb, by omega, h.2⟩

theorem Sparse.mem_drop (t : Sparse α) (k : Nat) (e : Nat × α) (h : e ∈ Sparse.drop t k) : e ∈ t := by
  induction t with
  | nil => simp [Sparse.drop] at h
  | cons x r ih =>
    obtain ⟨a, v⟩ := x
    by_cases ha : a = k
    · simp only [Sparse.drop, ha, if_true] at h; simp [ih h]
    · simp only [Sparse.drop, ha, if_false, List.mem_cons] at h
      rcases h with rfl | h <;> simp_all

theorem Sparse.mem_place (t : Sparse α) (k : Nat) (v : α) (e : Nat × α) (h : e ∈ Sparse.place t k v) :
    e = (k, v) ∨ e ∈ t := by
  induction t with
  | nil => simpa [Sparse.place] using h
  | cons x r ih =>
    obtain ⟨a, w⟩ := x
    by_cases ha : a < k
    · simp only [Sparse.place, ha, if_true, List.mem_cons] at h
      rcases h with rfl | h
      · simp
      · rcases ih h with rfl | h <;> simp_all
    · simp only [Sparse.place, ha, if_false, List.mem_cons] at h
      rcases h with rfl | rfl | h <;> simp_all

variable [DecidableEq α]

@[simp] theorem Sparse.wf_nil : Sparse.wf d [] = true := rfl

/-- A write keeps the canonical form. -/
theorem Sparse.wf_put (t : Sparse α) (k : Nat) (v : α) (h : Sparse.wf d t = true) :
    Sparse.wf d (Sparse.put d t k v) = true := by
  simp only [Sparse.wf, Sparse.noDefault, Bool.and_eq_true, List.all_eq_true, decide_eq_true_eq] at h ⊢
  unfold Sparse.put
  split
  · exact ⟨Sparse.risesFrom_drop t k 0 h.1, fun e he => h.2 e (Sparse.mem_drop t k e he)⟩
  · next hv =>
    refine ⟨Sparse.risesFrom_place _ k 0 v (by omega) (Sparse.key_of_mem_drop t k)
      (Sparse.risesFrom_drop t k 0 h.1), fun e he => ?_⟩
    rcases Sparse.mem_place _ k v e he with rfl | he
    · exact hv
    · exact h.2 e (Sparse.mem_drop t k e he)

theorem Sparse.risesFrom_filter {α : Type} (t : Sparse α) (p : Nat × α → Bool) (b : Nat)
    (h : Sparse.risesFrom t b = true) : Sparse.risesFrom (t.filter p) b = true := by
  induction t generalizing b with
  | nil => rfl
  | cons e r ih =>
    obtain ⟨a, v⟩ := e
    simp only [Sparse.risesFrom, Bool.and_eq_true, decide_eq_true_eq] at h
    by_cases hp : p (a, v) = true
    · simp [List.filter_cons, hp, Sparse.risesFrom, h.1, ih (a + 1) h.2]
    · simp only [List.filter_cons, hp]
      exact ih b (Sparse.risesFrom_mono r (by omega) h.2)

/-- A filtered table keeps the canonical form. -/
theorem Sparse.wf_filter (t : Sparse α) (p : Nat × α → Bool) (h : Sparse.wf d t = true) :
    Sparse.wf d (t.filter p) = true := by
  simp only [Sparse.wf, Sparse.noDefault, Bool.and_eq_true, List.all_eq_true, decide_eq_true_eq] at h ⊢
  exact ⟨Sparse.risesFrom_filter t p 0 h.1, fun e he => h.2 e (List.mem_filter.mp he).1⟩

theorem Sparse.wf_clearRange (t : Sparse α) (lo hi : Nat) (h : Sparse.wf d t = true) :
    Sparse.wf d (Sparse.clearRange t lo hi) = true := Sparse.wf_filter d t _ h

end Sys2Proof.Machine
end

