-- ==== Sys2Proof/Laws/State.lean ====
section
/-! SUPPORT. The fields of the state after each of the named updates, and reading registers and bits after writing. -/

namespace Sys2Proof.Machine

/-! ## Reading after writing -/

theorem State.rd_wr (s : State) (a b : Nat) (v : Word) : (s.wr a v).rd b = if b = a then v else s.rd b :=
  Sparse.get_put _ _ _ _ _

@[simp] theorem State.rd_wr_same (s : State) (a : Nat) (v : Word) : (s.wr a v).rd a = v := by simp [State.rd_wr]

theorem State.rd_wr_other (s : State) (a b : Nat) (v : Word) (h : b ≠ a) : (s.wr a v).rd b = s.rd b := by
  simp [State.rd_wr, h]

/-- What a write of a register can do: the register reads as the value, the others and every other part stay. -/
theorem State.wr_spec (s t : State) (a : Nat) (v : Word) (h : t = s.wr a v) :
    t.rd a = v ∧ (∀ b, b ≠ a → t.rd b = s.rd b) ∧ { t with regs := s.regs } = s := by
  subst h
  exact ⟨by simp, fun b hb => State.rd_wr_other s a b v hb, rfl⟩

@[simp] theorem State.rd_setBit_same (s : State) (a i : Nat) : (s.setBit a i).rd a = s.rd a ||| bitIf true i :=
  State.rd_wr_same s a _

/-- What hardware's setting of bits can do: they read as set, other registers and every other part stay. -/
theorem State.setBits_spec (s : State) (a : Nat) (m : Word) :
    (s.setBits a m).rd a = s.rd a ||| m ∧ (∀ b, b ≠ a → (s.setBits a m).rd b = s.rd b) ∧
      { s.setBits a m with regs := s.regs, setAt := s.setAt } = s :=
  ⟨State.rd_wr_same s a _, fun b hb => State.rd_wr_other s a b _ hb, rfl⟩

theorem State.rd_setBit_other (s : State) (a b i : Nat) (h : b ≠ a) : (s.setBit a i).rd b = s.rd b :=
  State.rd_wr_other s a b _ h

@[simp] theorem State.rd_clrBit_same (s : State) (a i : Nat) : (s.clrBit a i).rd a = s.rd a &&& ~~~ bitIf true i := by
  simp [State.clrBit]

theorem State.rd_clrBit_other (s : State) (a b i : Nat) (h : b ≠ a) : (s.clrBit a i).rd b = s.rd b :=
  State.rd_wr_other s a b _ h

theorem State.rd_bump_other (s : State) (a b : Nat) (h : b ≠ a) : (s.bump a).rd b = s.rd b :=
  State.rd_wr_other s a b _ h

@[simp] theorem State.rd_bump_same (s : State) (a : Nat) :
    (s.bump a).rd a = BitVec.ofNat 32 (satInc (s.rdNat a) 0xFFFFFFFF) := by simp [State.bump]

theorem State.rd_setField_other (s : State) (a b lo n v : Nat) (h : b ≠ a) : (s.setField a lo n v).rd b = s.rd b :=
  State.rd_wr_other s a b _ h

theorem State.rd_addField_other (s : State) (a b lo n k : Nat) (h : b ≠ a) : (s.addField a lo n k).rd b = s.rd b :=
  State.rd_wr_other s a b _ h

/-- Registers outside a cleared list keep their values. -/
theorem State.rd_clearAll_other (l : List Nat) (s : State) (b : Nat) (h : b ∉ l) : (s.clearAll l).rd b = s.rd b := by
  induction l generalizing s with
  | nil => rfl
  | cons a r ih =>
    simp only [List.mem_cons, not_or] at h
    rw [show s.clearAll (a :: r) = (s.wr a 0).clearAll r from rfl, ih _ h.2, State.rd_wr_other _ _ _ _ h.1]

/-- Registers of a cleared list read zero. -/
theorem State.rd_clearAll_same (l : List Nat) (s : State) (b : Nat) (h : b ∈ l) : (s.clearAll l).rd b = 0 := by
  induction l generalizing s with
  | nil => simp at h
  | cons a r ih =>
    rw [show s.clearAll (a :: r) = (s.wr a 0).clearAll r from rfl]
    by_cases hb : b ∈ r
    · exact ih _ hb
    · have : b = a := by simpa [hb] using h
      subst this
      rw [State.rd_clearAll_other r _ b hb]; simp

/-- Clearing a list of registers changes registers only. -/
theorem State.clearAll_regs (l : List Nat) (s : State) : { s.clearAll l with regs := s.regs } = s := by
  induction l generalizing s with
  | nil => rfl
  | cons a r ih =>
    rw [show s.clearAll (a :: r) = (s.wr a 0).clearAll r from rfl]
    have h := ih (s.wr a 0)
    exact congrArg (fun t : State => { t with regs := s.regs }) h

/-! ## The canonical form -/

/-- A write of a register keeps the canonical form of the register file. -/
theorem State.wr_regs_wf (s : State) (a : Nat) (v : Word) (h : Sparse.wf Reg.resetAt s.regs = true) :
    Sparse.wf Reg.resetAt (s.wr a v).regs = true := Sparse.wf_put _ _ _ _ h

/-- A byte read after a byte written. -/
theorem Memory.byte_put (m : Memory) (a b : Nat) (v : Byte) : (m.put a v).byte b = if b = a then v else m.byte b :=
  Sparse.get_put _ _ _ _ _

/-- Writing a byte keeps the canonical form. -/
theorem Memory.wf_put (m : Memory) (a : Nat) (v : Byte) (h : m.wf = true) : (m.put a v).wf = true :=
  Sparse.wf_put _ _ _ _ h

/-- Writing bytes keeps the canonical form. -/
theorem Memory.wf_write (l : List Byte) (m : Memory) (a : Nat) (h : m.wf = true) : (m.write a l).wf = true := by
  induction l generalizing m a with
  | nil => exact h
  | cons b r ih => exact ih _ _ (Memory.wf_put m a b h)

/-- Clearing a stretch keeps the canonical form. -/
theorem Memory.wf_clearRange (m : Memory) (lo hi : Nat) (h : m.wf = true) : Memory.wf (Sparse.clearRange m lo hi) = true :=
  Sparse.wf_clearRange _ _ _ _ h

/-- Bytes outside the stretch written keep their values. -/
theorem Memory.byte_write_other (l : List Byte) (m : Memory) (a b : Nat) (h : b < a ∨ a + l.length ≤ b) :
    (m.write a l).byte b = m.byte b := by
  induction l generalizing m a with
  | nil => rfl
  | cons x r ih =>
    simp only [List.length_cons] at h
    rw [show Memory.write m a (x :: r) = Memory.write (m.put a x) (a + 1) r from rfl, ih _ _ (by omega), Memory.byte_put]
    simp [show b ≠ a by omega]

/-! ## Fields after updates -/

@[simp] theorem State.wr_held (s : State) (a : Nat) (v : Word) : (s.wr a v).held = s.held := rfl
@[simp] theorem State.wr_setAt (s : State) (a : Nat) (v : Word) : (s.wr a v).setAt = s.setAt := rfl
@[simp] theorem State.wr_sys (s : State) (a : Nat) (v : Word) : (s.wr a v).sys = s.sys := rfl
@[simp] theorem State.wr_tb (s : State) (a : Nat) (v : Word) : (s.wr a v).tb = s.tb := rfl
@[simp] theorem State.wr_lanes (s : State) (a : Nat) (v : Word) : (s.wr a v).lanes = s.lanes := rfl
@[simp] theorem State.wr_ports (s : State) (a : Nat) (v : Word) : (s.wr a v).ports = s.ports := rfl
@[simp] theorem State.wr_aes (s : State) (a : Nat) (v : Word) : (s.wr a v).aes = s.aes := rfl
@[simp] theorem State.wr_les (s : State) (a : Nat) (v : Word) : (s.wr a v).les = s.les := rfl
@[simp] theorem State.wr_isl (s : State) (a : Nat) (v : Word) : (s.wr a v).isl = s.isl := rfl
@[simp] theorem State.wr_sch (s : State) (a : Nat) (v : Word) : (s.wr a v).sch = s.sch := rfl
@[simp] theorem State.wr_flt (s : State) (a : Nat) (v : Word) : (s.wr a v).flt = s.flt := rfl
@[simp] theorem State.wr_gst (s : State) (a : Nat) (v : Word) : (s.wr a v).gst = s.gst := rfl
@[simp] theorem State.wr_twn (s : State) (a : Nat) (v : Word) : (s.wr a v).twn = s.twn := rfl
@[simp] theorem State.wr_key (s : State) (a : Nat) (v : Word) : (s.wr a v).key = s.key := rfl
@[simp] theorem State.wr_drf (s : State) (a : Nat) (v : Word) : (s.wr a v).drf = s.drf := rfl
@[simp] theorem State.wr_net (s : State) (a : Nat) (v : Word) : (s.wr a v).net = s.net := rfl
@[simp] theorem State.wr_dsp (s : State) (a : Nat) (v : Word) : (s.wr a v).dsp = s.dsp := rfl
@[simp] theorem State.wr_dma (s : State) (a : Nat) (v : Word) : (s.wr a v).dma = s.dma := rfl
@[simp] theorem State.wr_mem (s : State) (a : Nat) (v : Word) : (s.wr a v).mem = s.mem := rfl
@[simp] theorem State.wr_saf (s : State) (a : Nat) (v : Word) : (s.wr a v).saf = s.saf := rfl
@[simp] theorem State.wr_fio (s : State) (a : Nat) (v : Word) : (s.wr a v).fio = s.fio := rfl
@[simp] theorem State.wr_iso (s : State) (a : Nat) (v : Word) : (s.wr a v).iso = s.iso := rfl
@[simp] theorem State.wr_adc (s : State) (a : Nat) (v : Word) : (s.wr a v).adc = s.adc := rfl
@[simp] theorem State.wr_shfs (s : State) (a : Nat) (v : Word) : (s.wr a v).shfs = s.shfs := rfl
@[simp] theorem State.wr_pwm (s : State) (a : Nat) (v : Word) : (s.wr a v).pwm = s.pwm := rfl
@[simp] theorem State.wr_cans (s : State) (a : Nat) (v : Word) : (s.wr a v).cans = s.cans := rfl
@[simp] theorem State.wr_ram (s : State) (a : Nat) (v : Word) : (s.wr a v).ram = s.ram := rfl
@[simp] theorem State.wr_mram (s : State) (a : Nat) (v : Word) : (s.wr a v).mram = s.mram := rfl
@[simp] theorem State.wr_bus (s : State) (a : Nat) (v : Word) : (s.wr a v).bus = s.bus := rfl
@[simp] theorem State.wr_free (s : State) (a : Nat) (v : Word) : (s.wr a v).free = s.free := rfl
@[simp] theorem State.wr_pending (s : State) (a : Nat) (v : Word) : (s.wr a v).pending = s.pending := rfl
@[simp] theorem State.setBit_held (s : State) (a i : Nat) : (s.setBit a i).held = s.held := rfl
@[simp] theorem State.setBit_sys (s : State) (a i : Nat) : (s.setBit a i).sys = s.sys := rfl
@[simp] theorem State.setBit_tb (s : State) (a i : Nat) : (s.setBit a i).tb = s.tb := rfl
@[simp] theorem State.setBit_lanes (s : State) (a i : Nat) : (s.setBit a i).lanes = s.lanes := rfl
@[simp] theorem State.setBit_ports (s : State) (a i : Nat) : (s.setBit a i).ports = s.ports := rfl
@[simp] theorem State.setBit_aes (s : State) (a i : Nat) : (s.setBit a i).aes = s.aes := rfl
@[simp] theorem State.setBit_les (s : State) (a i : Nat) : (s.setBit a i).les = s.les := rfl
@[simp] theorem State.setBit_isl (s : State) (a i : Nat) : (s.setBit a i).isl = s.isl := rfl
@[simp] theorem State.setBit_sch (s : State) (a i : Nat) : (s.setBit a i).sch = s.sch := rfl
@[simp] theorem State.setBit_flt (s : State) (a i : Nat) : (s.setBit a i).flt = s.flt := rfl
@[simp] theorem State.setBit_gst (s : State) (a i : Nat) : (s.setBit a i).gst = s.gst := rfl
@[simp] theorem State.setBit_twn (s : State) (a i : Nat) : (s.setBit a i).twn = s.twn := rfl
@[simp] theorem State.setBit_key (s : State) (a i : Nat) : (s.setBit a i).key = s.key := rfl
@[simp] theorem State.setBit_drf (s : State) (a i : Nat) : (s.setBit a i).drf = s.drf := rfl
@[simp] theorem State.setBit_net (s : State) (a i : Nat) : (s.setBit a i).net = s.net := rfl
@[simp] theorem State.setBit_dsp (s : State) (a i : Nat) : (s.setBit a i).dsp = s.dsp := rfl
@[simp] theorem State.setBit_dma (s : State) (a i : Nat) : (s.setBit a i).dma = s.dma := rfl
@[simp] theorem State.setBit_mem (s : State) (a i : Nat) : (s.setBit a i).mem = s.mem := rfl
@[simp] theorem State.setBit_saf (s : State) (a i : Nat) : (s.setBit a i).saf = s.saf := rfl
@[simp] theorem State.setBit_fio (s : State) (a i : Nat) : (s.setBit a i).fio = s.fio := rfl
@[simp] theorem State.setBit_iso (s : State) (a i : Nat) : (s.setBit a i).iso = s.iso := rfl
@[simp] theorem State.setBit_adc (s : State) (a i : Nat) : (s.setBit a i).adc = s.adc := rfl
@[simp] theorem State.setBit_shfs (s : State) (a i : Nat) : (s.setBit a i).shfs = s.shfs := rfl
@[simp] theorem State.setBit_pwm (s : State) (a i : Nat) : (s.setBit a i).pwm = s.pwm := rfl
@[simp] theorem State.setBit_cans (s : State) (a i : Nat) : (s.setBit a i).cans = s.cans := rfl
@[simp] theorem State.setBit_ram (s : State) (a i : Nat) : (s.setBit a i).ram = s.ram := rfl
@[simp] theorem State.setBit_mram (s : State) (a i : Nat) : (s.setBit a i).mram = s.mram := rfl
@[simp] theorem State.setBit_bus (s : State) (a i : Nat) : (s.setBit a i).bus = s.bus := rfl
@[simp] theorem State.setBit_free (s : State) (a i : Nat) : (s.setBit a i).free = s.free := rfl
@[simp] theorem State.setBit_pending (s : State) (a i : Nat) : (s.setBit a i).pending = s.pending := rfl
@[simp] theorem State.clrBit_held (s : State) (a i : Nat) : (s.clrBit a i).held = s.held := rfl
@[simp] theorem State.clrBit_setAt (s : State) (a i : Nat) : (s.clrBit a i).setAt = s.setAt := rfl
@[simp] theorem State.clrBit_sys (s : State) (a i : Nat) : (s.clrBit a i).sys = s.sys := rfl
@[simp] theorem State.clrBit_tb (s : State) (a i : Nat) : (s.clrBit a i).tb = s.tb := rfl
@[simp] theorem State.clrBit_lanes (s : State) (a i : Nat) : (s.clrBit a i).lanes = s.lanes := rfl
@[simp] theorem State.clrBit_ports (s : State) (a i : Nat) : (s.clrBit a i).ports = s.ports := rfl
@[simp] theorem State.clrBit_aes (s : State) (a i : Nat) : (s.clrBit a i).aes = s.aes := rfl
@[simp] theorem State.clrBit_les (s : State) (a i : Nat) : (s.clrBit a i).les = s.les := rfl
@[simp] theorem State.clrBit_isl (s : State) (a i : Nat) : (s.clrBit a i).isl = s.isl := rfl
@[simp] theorem State.clrBit_sch (s : State) (a i : Nat) : (s.clrBit a i).sch = s.sch := rfl
@[simp] theorem State.clrBit_flt (s : State) (a i : Nat) : (s.clrBit a i).flt = s.flt := rfl
@[simp] theorem State.clrBit_gst (s : State) (a i : Nat) : (s.clrBit a i).gst = s.gst := rfl
@[simp] theorem State.clrBit_twn (s : State) (a i : Nat) : (s.clrBit a i).twn = s.twn := rfl
@[simp] theorem State.clrBit_key (s : State) (a i : Nat) : (s.clrBit a i).key = s.key := rfl
@[simp] theorem State.clrBit_drf (s : State) (a i : Nat) : (s.clrBit a i).drf = s.drf := rfl
@[simp] theorem State.clrBit_net (s : State) (a i : Nat) : (s.clrBit a i).net = s.net := rfl
@[simp] theorem State.clrBit_dsp (s : State) (a i : Nat) : (s.clrBit a i).dsp = s.dsp := rfl
@[simp] theorem State.clrBit_dma (s : State) (a i : Nat) : (s.clrBit a i).dma = s.dma := rfl
@[simp] theorem State.clrBit_mem (s : State) (a i : Nat) : (s.clrBit a i).mem = s.mem := rfl
@[simp] theorem State.clrBit_saf (s : State) (a i : Nat) : (s.clrBit a i).saf = s.saf := rfl
@[simp] theorem State.clrBit_fio (s : State) (a i : Nat) : (s.clrBit a i).fio = s.fio := rfl
@[simp] theorem State.clrBit_iso (s : State) (a i : Nat) : (s.clrBit a i).iso = s.iso := rfl
@[simp] theorem State.clrBit_adc (s : State) (a i : Nat) : (s.clrBit a i).adc = s.adc := rfl
@[simp] theorem State.clrBit_shfs (s : State) (a i : Nat) : (s.clrBit a i).shfs = s.shfs := rfl
@[simp] theorem State.clrBit_pwm (s : State) (a i : Nat) : (s.clrBit a i).pwm = s.pwm := rfl
@[simp] theorem State.clrBit_cans (s : State) (a i : Nat) : (s.clrBit a i).cans = s.cans := rfl
@[simp] theorem State.clrBit_ram (s : State) (a i : Nat) : (s.clrBit a i).ram = s.ram := rfl
@[simp] theorem State.clrBit_mram (s : State) (a i : Nat) : (s.clrBit a i).mram = s.mram := rfl
@[simp] theorem State.clrBit_bus (s : State) (a i : Nat) : (s.clrBit a i).bus = s.bus := rfl
@[simp] theorem State.clrBit_free (s : State) (a i : Nat) : (s.clrBit a i).free = s.free := rfl
@[simp] theorem State.clrBit_pending (s : State) (a i : Nat) : (s.clrBit a i).pending = s.pending := rfl
@[simp] theorem State.setField_held (s : State) (a lo n v : Nat) : (s.setField a lo n v).held = s.held := rfl
@[simp] theorem State.setField_setAt (s : State) (a lo n v : Nat) : (s.setField a lo n v).setAt = s.setAt := rfl
@[simp] theorem State.setField_sys (s : State) (a lo n v : Nat) : (s.setField a lo n v).sys = s.sys := rfl
@[simp] theorem State.setField_tb (s : State) (a lo n v : Nat) : (s.setField a lo n v).tb = s.tb := rfl
@[simp] theorem State.setField_lanes (s : State) (a lo n v : Nat) : (s.setField a lo n v).lanes = s.lanes := rfl
@[simp] theorem State.setField_ports (s : State) (a lo n v : Nat) : (s.setField a lo n v).ports = s.ports := rfl
@[simp] theorem State.setField_aes (s : State) (a lo n v : Nat) : (s.setField a lo n v).aes = s.aes := rfl
@[simp] theorem State.setField_les (s : State) (a lo n v : Nat) : (s.setField a lo n v).les = s.les := rfl
@[simp] theorem State.setField_isl (s : State) (a lo n v : Nat) : (s.setField a lo n v).isl = s.isl := rfl
@[simp] theorem State.setField_sch (s : State) (a lo n v : Nat) : (s.setField a lo n v).sch = s.sch := rfl
@[simp] theorem State.setField_flt (s : State) (a lo n v : Nat) : (s.setField a lo n v).flt = s.flt := rfl
@[simp] theorem State.setField_gst (s : State) (a lo n v : Nat) : (s.setField a lo n v).gst = s.gst := rfl
@[simp] theorem State.setField_twn (s : State) (a lo n v : Nat) : (s.setField a lo n v).twn = s.twn := rfl
@[simp] theorem State.setField_key (s : State) (a lo n v : Nat) : (s.setField a lo n v).key = s.key := rfl
@[simp] theorem State.setField_drf (s : State) (a lo n v : Nat) : (s.setField a lo n v).drf = s.drf := rfl
@[simp] theorem State.setField_net (s : State) (a lo n v : Nat) : (s.setField a lo n v).net = s.net := rfl
@[simp] theorem State.setField_dsp (s : State) (a lo n v : Nat) : (s.setField a lo n v).dsp = s.dsp := rfl
@[simp] theorem State.setField_dma (s : State) (a lo n v : Nat) : (s.setField a lo n v).dma = s.dma := rfl
@[simp] theorem State.setField_mem (s : State) (a lo n v : Nat) : (s.setField a lo n v).mem = s.mem := rfl
@[simp] theorem State.setField_saf (s : State) (a lo n v : Nat) : (s.setField a lo n v).saf = s.saf := rfl
@[simp] theorem State.setField_fio (s : State) (a lo n v : Nat) : (s.setField a lo n v).fio = s.fio := rfl
@[simp] theorem State.setField_iso (s : State) (a lo n v : Nat) : (s.setField a lo n v).iso = s.iso := rfl
@[simp] theorem State.setField_adc (s : State) (a lo n v : Nat) : (s.setField a lo n v).adc = s.adc := rfl
@[simp] theorem State.setField_shfs (s : State) (a lo n v : Nat) : (s.setField a lo n v).shfs = s.shfs := rfl
@[simp] theorem State.setField_pwm (s : State) (a lo n v : Nat) : (s.setField a lo n v).pwm = s.pwm := rfl
@[simp] theorem State.setField_cans (s : State) (a lo n v : Nat) : (s.setField a lo n v).cans = s.cans := rfl
@[simp] theorem State.setField_ram (s : State) (a lo n v : Nat) : (s.setField a lo n v).ram = s.ram := rfl
@[simp] theorem State.setField_mram (s : State) (a lo n v : Nat) : (s.setField a lo n v).mram = s.mram := rfl
@[simp] theorem State.setField_bus (s : State) (a lo n v : Nat) : (s.setField a lo n v).bus = s.bus := rfl
@[simp] theorem State.setField_free (s : State) (a lo n v : Nat) : (s.setField a lo n v).free = s.free := rfl
@[simp] theorem State.setField_pending (s : State) (a lo n v : Nat) : (s.setField a lo n v).pending = s.pending := rfl
@[simp] theorem State.addField_held (s : State) (a lo n k : Nat) : (s.addField a lo n k).held = s.held := rfl
@[simp] theorem State.addField_setAt (s : State) (a lo n k : Nat) : (s.addField a lo n k).setAt = s.setAt := rfl
@[simp] theorem State.addField_sys (s : State) (a lo n k : Nat) : (s.addField a lo n k).sys = s.sys := rfl
@[simp] theorem State.addField_tb (s : State) (a lo n k : Nat) : (s.addField a lo n k).tb = s.tb := rfl
@[simp] theorem State.addField_lanes (s : State) (a lo n k : Nat) : (s.addField a lo n k).lanes = s.lanes := rfl
@[simp] theorem State.addField_ports (s : State) (a lo n k : Nat) : (s.addField a lo n k).ports = s.ports := rfl
@[simp] theorem State.addField_aes (s : State) (a lo n k : Nat) : (s.addField a lo n k).aes = s.aes := rfl
@[simp] theorem State.addField_les (s : State) (a lo n k : Nat) : (s.addField a lo n k).les = s.les := rfl
@[simp] theorem State.addField_isl (s : State) (a lo n k : Nat) : (s.addField a lo n k).isl = s.isl := rfl
@[simp] theorem State.addField_sch (s : State) (a lo n k : Nat) : (s.addField a lo n k).sch = s.sch := rfl
@[simp] theorem State.addField_flt (s : State) (a lo n k : Nat) : (s.addField a lo n k).flt = s.flt := rfl
@[simp] theorem State.addField_gst (s : State) (a lo n k : Nat) : (s.addField a lo n k).gst = s.gst := rfl
@[simp] theorem State.addField_twn (s : State) (a lo n k : Nat) : (s.addField a lo n k).twn = s.twn := rfl
@[simp] theorem State.addField_key (s : State) (a lo n k : Nat) : (s.addField a lo n k).key = s.key := rfl
@[simp] theorem State.addField_drf (s : State) (a lo n k : Nat) : (s.addField a lo n k).drf = s.drf := rfl
@[simp] theorem State.addField_net (s : State) (a lo n k : Nat) : (s.addField a lo n k).net = s.net := rfl
@[simp] theorem State.addField_dsp (s : State) (a lo n k : Nat) : (s.addField a lo n k).dsp = s.dsp := rfl
@[simp] theorem State.addField_dma (s : State) (a lo n k : Nat) : (s.addField a lo n k).dma = s.dma := rfl
@[simp] theorem State.addField_mem (s : State) (a lo n k : Nat) : (s.addField a lo n k).mem = s.mem := rfl
@[simp] theorem State.addField_saf (s : State) (a lo n k : Nat) : (s.addField a lo n k).saf = s.saf := rfl
@[simp] theorem State.addField_fio (s : State) (a lo n k : Nat) : (s.addField a lo n k).fio = s.fio := rfl
@[simp] theorem State.addField_iso (s : State) (a lo n k : Nat) : (s.addField a lo n k).iso = s.iso := rfl
@[simp] theorem State.addField_adc (s : State) (a lo n k : Nat) : (s.addField a lo n k).adc = s.adc := rfl
@[simp] theorem State.addField_shfs (s : State) (a lo n k : Nat) : (s.addField a lo n k).shfs = s.shfs := rfl
@[simp] theorem State.addField_pwm (s : State) (a lo n k : Nat) : (s.addField a lo n k).pwm = s.pwm := rfl
@[simp] theorem State.addField_cans (s : State) (a lo n k : Nat) : (s.addField a lo n k).cans = s.cans := rfl
@[simp] theorem State.addField_ram (s : State) (a lo n k : Nat) : (s.addField a lo n k).ram = s.ram := rfl
@[simp] theorem State.addField_mram (s : State) (a lo n k : Nat) : (s.addField a lo n k).mram = s.mram := rfl
@[simp] theorem State.addField_bus (s : State) (a lo n k : Nat) : (s.addField a lo n k).bus = s.bus := rfl
@[simp] theorem State.addField_free (s : State) (a lo n k : Nat) : (s.addField a lo n k).free = s.free := rfl
@[simp] theorem State.addField_pending (s : State) (a lo n k : Nat) : (s.addField a lo n k).pending = s.pending := rfl
@[simp] theorem State.bump_held (s : State) (a : Nat) : (s.bump a).held = s.held := rfl
@[simp] theorem State.bump_setAt (s : State) (a : Nat) : (s.bump a).setAt = s.setAt := rfl
@[simp] theorem State.bump_sys (s : State) (a : Nat) : (s.bump a).sys = s.sys := rfl
@[simp] theorem State.bump_tb (s : State) (a : Nat) : (s.bump a).tb = s.tb := rfl
@[simp] theorem State.bump_lanes (s : State) (a : Nat) : (s.bump a).lanes = s.lanes := rfl
@[simp] theorem State.bump_ports (s : State) (a : Nat) : (s.bump a).ports = s.ports := rfl
@[simp] theorem State.bump_aes (s : State) (a : Nat) : (s.bump a).aes = s.aes := rfl
@[simp] theorem State.bump_les (s : State) (a : Nat) : (s.bump a).les = s.les := rfl
@[simp] theorem State.bump_isl (s : State) (a : Nat) : (s.bump a).isl = s.isl := rfl
@[simp] theorem State.bump_sch (s : State) (a : Nat) : (s.bump a).sch = s.sch := rfl
@[simp] theorem State.bump_flt (s : State) (a : Nat) : (s.bump a).flt = s.flt := rfl
@[simp] theorem State.bump_gst (s : State) (a : Nat) : (s.bump a).gst = s.gst := rfl
@[simp] theorem State.bump_twn (s : State) (a : Nat) : (s.bump a).twn = s.twn := rfl
@[simp] theorem State.bump_key (s : State) (a : Nat) : (s.bump a).key = s.key := rfl
@[simp] theorem State.bump_drf (s : State) (a : Nat) : (s.bump a).drf = s.drf := rfl
@[simp] theorem State.bump_net (s : State) (a : Nat) : (s.bump a).net = s.net := rfl
@[simp] theorem State.bump_dsp (s : State) (a : Nat) : (s.bump a).dsp = s.dsp := rfl
@[simp] theorem State.bump_dma (s : State) (a : Nat) : (s.bump a).dma = s.dma := rfl
@[simp] theorem State.bump_mem (s : State) (a : Nat) : (s.bump a).mem = s.mem := rfl
@[simp] theorem State.bump_saf (s : State) (a : Nat) : (s.bump a).saf = s.saf := rfl
@[simp] theorem State.bump_fio (s : State) (a : Nat) : (s.bump a).fio = s.fio := rfl
@[simp] theorem State.bump_iso (s : State) (a : Nat) : (s.bump a).iso = s.iso := rfl
@[simp] theorem State.bump_adc (s : State) (a : Nat) : (s.bump a).adc = s.adc := rfl
@[simp] theorem State.bump_shfs (s : State) (a : Nat) : (s.bump a).shfs = s.shfs := rfl
@[simp] theorem State.bump_pwm (s : State) (a : Nat) : (s.bump a).pwm = s.pwm := rfl
@[simp] theorem State.bump_cans (s : State) (a : Nat) : (s.bump a).cans = s.cans := rfl
@[simp] theorem State.bump_ram (s : State) (a : Nat) : (s.bump a).ram = s.ram := rfl
@[simp] theorem State.bump_mram (s : State) (a : Nat) : (s.bump a).mram = s.mram := rfl
@[simp] theorem State.bump_bus (s : State) (a : Nat) : (s.bump a).bus = s.bus := rfl
@[simp] theorem State.bump_free (s : State) (a : Nat) : (s.bump a).free = s.free := rfl
@[simp] theorem State.bump_pending (s : State) (a : Nat) : (s.bump a).pending = s.pending := rfl
@[simp] theorem State.wrPair_held (s : State) (a : Nat) (v : Word) : (s.wrPair a v).held = s.held := rfl
@[simp] theorem State.wrPair_setAt (s : State) (a : Nat) (v : Word) : (s.wrPair a v).setAt = s.setAt := rfl
@[simp] theorem State.wrPair_sys (s : State) (a : Nat) (v : Word) : (s.wrPair a v).sys = s.sys := rfl
@[simp] theorem State.wrPair_tb (s : State) (a : Nat) (v : Word) : (s.wrPair a v).tb = s.tb := rfl
@[simp] theorem State.wrPair_lanes (s : State) (a : Nat) (v : Word) : (s.wrPair a v).lanes = s.lanes := rfl
@[simp] theorem State.wrPair_ports (s : State) (a : Nat) (v : Word) : (s.wrPair a v).ports = s.ports := rfl
@[simp] theorem State.wrPair_aes (s : State) (a : Nat) (v : Word) : (s.wrPair a v).aes = s.aes := rfl
@[simp] theorem State.wrPair_les (s : State) (a : Nat) (v : Word) : (s.wrPair a v).les = s.les := rfl
@[simp] theorem State.wrPair_isl (s : State) (a : Nat) (v : Word) : (s.wrPair a v).isl = s.isl := rfl
@[simp] theorem State.wrPair_sch (s : State) (a : Nat) (v : Word) : (s.wrPair a v).sch = s.sch := rfl
@[simp] theorem State.wrPair_flt (s : State) (a : Nat) (v : Word) : (s.wrPair a v).flt = s.flt := rfl
@[simp] theorem State.wrPair_gst (s : State) (a : Nat) (v : Word) : (s.wrPair a v).gst = s.gst := rfl
@[simp] theorem State.wrPair_twn (s : State) (a : Nat) (v : Word) : (s.wrPair a v).twn = s.twn := rfl
@[simp] theorem State.wrPair_key (s : State) (a : Nat) (v : Word) : (s.wrPair a v).key = s.key := rfl
@[simp] theorem State.wrPair_drf (s : State) (a : Nat) (v : Word) : (s.wrPair a v).drf = s.drf := rfl
@[simp] theorem State.wrPair_net (s : State) (a : Nat) (v : Word) : (s.wrPair a v).net = s.net := rfl
@[simp] theorem State.wrPair_dsp (s : State) (a : Nat) (v : Word) : (s.wrPair a v).dsp = s.dsp := rfl
@[simp] theorem State.wrPair_dma (s : State) (a : Nat) (v : Word) : (s.wrPair a v).dma = s.dma := rfl
@[simp] theorem State.wrPair_mem (s : State) (a : Nat) (v : Word) : (s.wrPair a v).mem = s.mem := rfl
@[simp] theorem State.wrPair_saf (s : State) (a : Nat) (v : Word) : (s.wrPair a v).saf = s.saf := rfl
@[simp] theorem State.wrPair_fio (s : State) (a : Nat) (v : Word) : (s.wrPair a v).fio = s.fio := rfl
@[simp] theorem State.wrPair_iso (s : State) (a : Nat) (v : Word) : (s.wrPair a v).iso = s.iso := rfl
@[simp] theorem State.wrPair_adc (s : State) (a : Nat) (v : Word) : (s.wrPair a v).adc = s.adc := rfl
@[simp] theorem State.wrPair_shfs (s : State) (a : Nat) (v : Word) : (s.wrPair a v).shfs = s.shfs := rfl
@[simp] theorem State.wrPair_pwm (s : State) (a : Nat) (v : Word) : (s.wrPair a v).pwm = s.pwm := rfl
@[simp] theorem State.wrPair_cans (s : State) (a : Nat) (v : Word) : (s.wrPair a v).cans = s.cans := rfl
@[simp] theorem State.wrPair_ram (s : State) (a : Nat) (v : Word) : (s.wrPair a v).ram = s.ram := rfl
@[simp] theorem State.wrPair_mram (s : State) (a : Nat) (v : Word) : (s.wrPair a v).mram = s.mram := rfl
@[simp] theorem State.wrPair_bus (s : State) (a : Nat) (v : Word) : (s.wrPair a v).bus = s.bus := rfl
@[simp] theorem State.wrPair_free (s : State) (a : Nat) (v : Word) : (s.wrPair a v).free = s.free := rfl
@[simp] theorem State.wrPair_pending (s : State) (a : Nat) (v : Word) : (s.wrPair a v).pending = s.pending := rfl
@[simp] theorem State.setLane_regs (s : State) (n : Nat) (x : Lane) : (s.setLane n x).regs = s.regs := rfl
@[simp] theorem State.setLane_held (s : State) (n : Nat) (x : Lane) : (s.setLane n x).held = s.held := rfl
@[simp] theorem State.setLane_setAt (s : State) (n : Nat) (x : Lane) : (s.setLane n x).setAt = s.setAt := rfl
@[simp] theorem State.setLane_sys (s : State) (n : Nat) (x : Lane) : (s.setLane n x).sys = s.sys := rfl
@[simp] theorem State.setLane_tb (s : State) (n : Nat) (x : Lane) : (s.setLane n x).tb = s.tb := rfl
@[simp] theorem State.setLane_ports (s : State) (n : Nat) (x : Lane) : (s.setLane n x).ports = s.ports := rfl
@[simp] theorem State.setLane_aes (s : State) (n : Nat) (x : Lane) : (s.setLane n x).aes = s.aes := rfl
@[simp] theorem State.setLane_les (s : State) (n : Nat) (x : Lane) : (s.setLane n x).les = s.les := rfl
@[simp] theorem State.setLane_isl (s : State) (n : Nat) (x : Lane) : (s.setLane n x).isl = s.isl := rfl
@[simp] theorem State.setLane_sch (s : State) (n : Nat) (x : Lane) : (s.setLane n x).sch = s.sch := rfl
@[simp] theorem State.setLane_flt (s : State) (n : Nat) (x : Lane) : (s.setLane n x).flt = s.flt := rfl
@[simp] theorem State.setLane_gst (s : State) (n : Nat) (x : Lane) : (s.setLane n x).gst = s.gst := rfl
@[simp] theorem State.setLane_twn (s : State) (n : Nat) (x : Lane) : (s.setLane n x).twn = s.twn := rfl
@[simp] theorem State.setLane_key (s : State) (n : Nat) (x : Lane) : (s.setLane n x).key = s.key := rfl
@[simp] theorem State.setLane_drf (s : State) (n : Nat) (x : Lane) : (s.setLane n x).drf = s.drf := rfl
@[simp] theorem State.setLane_net (s : State) (n : Nat) (x : Lane) : (s.setLane n x).net = s.net := rfl
@[simp] theorem State.setLane_dsp (s : State) (n : Nat) (x : Lane) : (s.setLane n x).dsp = s.dsp := rfl
@[simp] theorem State.setLane_dma (s : State) (n : Nat) (x : Lane) : (s.setLane n x).dma = s.dma := rfl
@[simp] theorem State.setLane_mem (s : State) (n : Nat) (x : Lane) : (s.setLane n x).mem = s.mem := rfl
@[simp] theorem State.setLane_saf (s : State) (n : Nat) (x : Lane) : (s.setLane n x).saf = s.saf := rfl
@[simp] theorem State.setLane_fio (s : State) (n : Nat) (x : Lane) : (s.setLane n x).fio = s.fio := rfl
@[simp] theorem State.setLane_iso (s : State) (n : Nat) (x : Lane) : (s.setLane n x).iso = s.iso := rfl
@[simp] theorem State.setLane_adc (s : State) (n : Nat) (x : Lane) : (s.setLane n x).adc = s.adc := rfl
@[simp] theorem State.setLane_shfs (s : State) (n : Nat) (x : Lane) : (s.setLane n x).shfs = s.shfs := rfl
@[simp] theorem State.setLane_pwm (s : State) (n : Nat) (x : Lane) : (s.setLane n x).pwm = s.pwm := rfl
@[simp] theorem State.setLane_cans (s : State) (n : Nat) (x : Lane) : (s.setLane n x).cans = s.cans := rfl
@[simp] theorem State.setLane_ram (s : State) (n : Nat) (x : Lane) : (s.setLane n x).ram = s.ram := rfl
@[simp] theorem State.setLane_mram (s : State) (n : Nat) (x : Lane) : (s.setLane n x).mram = s.mram := rfl
@[simp] theorem State.setLane_bus (s : State) (n : Nat) (x : Lane) : (s.setLane n x).bus = s.bus := rfl
@[simp] theorem State.setLane_free (s : State) (n : Nat) (x : Lane) : (s.setLane n x).free = s.free := rfl
@[simp] theorem State.setLane_pending (s : State) (n : Nat) (x : Lane) : (s.setLane n x).pending = s.pending := rfl
@[simp] theorem State.setPort_regs (s : State) (n : Nat) (x : Port) : (s.setPort n x).regs = s.regs := rfl
@[simp] theorem State.setPort_held (s : State) (n : Nat) (x : Port) : (s.setPort n x).held = s.held := rfl
@[simp] theorem State.setPort_setAt (s : State) (n : Nat) (x : Port) : (s.setPort n x).setAt = s.setAt := rfl
@[simp] theorem State.setPort_sys (s : State) (n : Nat) (x : Port) : (s.setPort n x).sys = s.sys := rfl
@[simp] theorem State.setPort_tb (s : State) (n : Nat) (x : Port) : (s.setPort n x).tb = s.tb := rfl
@[simp] theorem State.setPort_lanes (s : State) (n : Nat) (x : Port) : (s.setPort n x).lanes = s.lanes := rfl
@[simp] theorem State.setPort_aes (s : State) (n : Nat) (x : Port) : (s.setPort n x).aes = s.aes := rfl
@[simp] theorem State.setPort_les (s : State) (n : Nat) (x : Port) : (s.setPort n x).les = s.les := rfl
@[simp] theorem State.setPort_isl (s : State) (n : Nat) (x : Port) : (s.setPort n x).isl = s.isl := rfl
@[simp] theorem State.setPort_sch (s : State) (n : Nat) (x : Port) : (s.setPort n x).sch = s.sch := rfl
@[simp] theorem State.setPort_flt (s : State) (n : Nat) (x : Port) : (s.setPort n x).flt = s.flt := rfl
@[simp] theorem State.setPort_gst (s : State) (n : Nat) (x : Port) : (s.setPort n x).gst = s.gst := rfl
@[simp] theorem State.setPort_twn (s : State) (n : Nat) (x : Port) : (s.setPort n x).twn = s.twn := rfl
@[simp] theorem State.setPort_key (s : State) (n : Nat) (x : Port) : (s.setPort n x).key = s.key := rfl
@[simp] theorem State.setPort_drf (s : State) (n : Nat) (x : Port) : (s.setPort n x).drf = s.drf := rfl
@[simp] theorem State.setPort_net (s : State) (n : Nat) (x : Port) : (s.setPort n x).net = s.net := rfl
@[simp] theorem State.setPort_dsp (s : State) (n : Nat) (x : Port) : (s.setPort n x).dsp = s.dsp := rfl
@[simp] theorem State.setPort_dma (s : State) (n : Nat) (x : Port) : (s.setPort n x).dma = s.dma := rfl
@[simp] theorem State.setPort_mem (s : State) (n : Nat) (x : Port) : (s.setPort n x).mem = s.mem := rfl
@[simp] theorem State.setPort_saf (s : State) (n : Nat) (x : Port) : (s.setPort n x).saf = s.saf := rfl
@[simp] theorem State.setPort_fio (s : State) (n : Nat) (x : Port) : (s.setPort n x).fio = s.fio := rfl
@[simp] theorem State.setPort_iso (s : State) (n : Nat) (x : Port) : (s.setPort n x).iso = s.iso := rfl
@[simp] theorem State.setPort_adc (s : State) (n : Nat) (x : Port) : (s.setPort n x).adc = s.adc := rfl
@[simp] theorem State.setPort_shfs (s : State) (n : Nat) (x : Port) : (s.setPort n x).shfs = s.shfs := rfl
@[simp] theorem State.setPort_pwm (s : State) (n : Nat) (x : Port) : (s.setPort n x).pwm = s.pwm := rfl
@[simp] theorem State.setPort_cans (s : State) (n : Nat) (x : Port) : (s.setPort n x).cans = s.cans := rfl
@[simp] theorem State.setPort_ram (s : State) (n : Nat) (x : Port) : (s.setPort n x).ram = s.ram := rfl
@[simp] theorem State.setPort_mram (s : State) (n : Nat) (x : Port) : (s.setPort n x).mram = s.mram := rfl
@[simp] theorem State.setPort_bus (s : State) (n : Nat) (x : Port) : (s.setPort n x).bus = s.bus := rfl
@[simp] theorem State.setPort_free (s : State) (n : Nat) (x : Port) : (s.setPort n x).free = s.free := rfl
@[simp] theorem State.setPort_pending (s : State) (n : Nat) (x : Port) : (s.setPort n x).pending = s.pending := rfl
@[simp] theorem State.setAe_regs (s : State) (n : Nat) (x : Ae) : (s.setAe n x).regs = s.regs := rfl
@[simp] theorem State.setAe_held (s : State) (n : Nat) (x : Ae) : (s.setAe n x).held = s.held := rfl
@[simp] theorem State.setAe_setAt (s : State) (n : Nat) (x : Ae) : (s.setAe n x).setAt = s.setAt := rfl
@[simp] theorem State.setAe_sys (s : State) (n : Nat) (x : Ae) : (s.setAe n x).sys = s.sys := rfl
@[simp] theorem State.setAe_tb (s : State) (n : Nat) (x : Ae) : (s.setAe n x).tb = s.tb := rfl
@[simp] theorem State.setAe_lanes (s : State) (n : Nat) (x : Ae) : (s.setAe n x).lanes = s.lanes := rfl
@[simp] theorem State.setAe_ports (s : State) (n : Nat) (x : Ae) : (s.setAe n x).ports = s.ports := rfl
@[simp] theorem State.setAe_les (s : State) (n : Nat) (x : Ae) : (s.setAe n x).les = s.les := rfl
@[simp] theorem State.setAe_isl (s : State) (n : Nat) (x : Ae) : (s.setAe n x).isl = s.isl := rfl
@[simp] theorem State.setAe_sch (s : State) (n : Nat) (x : Ae) : (s.setAe n x).sch = s.sch := rfl
@[simp] theorem State.setAe_flt (s : State) (n : Nat) (x : Ae) : (s.setAe n x).flt = s.flt := rfl
@[simp] theorem State.setAe_gst (s : State) (n : Nat) (x : Ae) : (s.setAe n x).gst = s.gst := rfl
@[simp] theorem State.setAe_twn (s : State) (n : Nat) (x : Ae) : (s.setAe n x).twn = s.twn := rfl
@[simp] theorem State.setAe_key (s : State) (n : Nat) (x : Ae) : (s.setAe n x).key = s.key := rfl
@[simp] theorem State.setAe_drf (s : State) (n : Nat) (x : Ae) : (s.setAe n x).drf = s.drf := rfl
@[simp] theorem State.setAe_net (s : State) (n : Nat) (x : Ae) : (s.setAe n x).net = s.net := rfl
@[simp] theorem State.setAe_dsp (s : State) (n : Nat) (x : Ae) : (s.setAe n x).dsp = s.dsp := rfl
@[simp] theorem State.setAe_dma (s : State) (n : Nat) (x : Ae) : (s.setAe n x).dma = s.dma := rfl
@[simp] theorem State.setAe_mem (s : State) (n : Nat) (x : Ae) : (s.setAe n x).mem = s.mem := rfl
@[simp] theorem State.setAe_saf (s : State) (n : Nat) (x : Ae) : (s.setAe n x).saf = s.saf := rfl
@[simp] theorem State.setAe_fio (s : State) (n : Nat) (x : Ae) : (s.setAe n x).fio = s.fio := rfl
@[simp] theorem State.setAe_iso (s : State) (n : Nat) (x : Ae) : (s.setAe n x).iso = s.iso := rfl
@[simp] theorem State.setAe_adc (s : State) (n : Nat) (x : Ae) : (s.setAe n x).adc = s.adc := rfl
@[simp] theorem State.setAe_shfs (s : State) (n : Nat) (x : Ae) : (s.setAe n x).shfs = s.shfs := rfl
@[simp] theorem State.setAe_pwm (s : State) (n : Nat) (x : Ae) : (s.setAe n x).pwm = s.pwm := rfl
@[simp] theorem State.setAe_cans (s : State) (n : Nat) (x : Ae) : (s.setAe n x).cans = s.cans := rfl
@[simp] theorem State.setAe_ram (s : State) (n : Nat) (x : Ae) : (s.setAe n x).ram = s.ram := rfl
@[simp] theorem State.setAe_mram (s : State) (n : Nat) (x : Ae) : (s.setAe n x).mram = s.mram := rfl
@[simp] theorem State.setAe_bus (s : State) (n : Nat) (x : Ae) : (s.setAe n x).bus = s.bus := rfl
@[simp] theorem State.setAe_free (s : State) (n : Nat) (x : Ae) : (s.setAe n x).free = s.free := rfl
@[simp] theorem State.setAe_pending (s : State) (n : Nat) (x : Ae) : (s.setAe n x).pending = s.pending := rfl
@[simp] theorem State.setLe_regs (s : State) (n : Nat) (x : Le) : (s.setLe n x).regs = s.regs := rfl
@[simp] theorem State.setLe_held (s : State) (n : Nat) (x : Le) : (s.setLe n x).held = s.held := rfl
@[simp] theorem State.setLe_setAt (s : State) (n : Nat) (x : Le) : (s.setLe n x).setAt = s.setAt := rfl
@[simp] theorem State.setLe_sys (s : State) (n : Nat) (x : Le) : (s.setLe n x).sys = s.sys := rfl
@[simp] theorem State.setLe_tb (s : State) (n : Nat) (x : Le) : (s.setLe n x).tb = s.tb := rfl
@[simp] theorem State.setLe_lanes (s : State) (n : Nat) (x : Le) : (s.setLe n x).lanes = s.lanes := rfl
@[simp] theorem State.setLe_ports (s : State) (n : Nat) (x : Le) : (s.setLe n x).ports = s.ports := rfl
@[simp] theorem State.setLe_aes (s : State) (n : Nat) (x : Le) : (s.setLe n x).aes = s.aes := rfl
@[simp] theorem State.setLe_isl (s : State) (n : Nat) (x : Le) : (s.setLe n x).isl = s.isl := rfl
@[simp] theorem State.setLe_sch (s : State) (n : Nat) (x : Le) : (s.setLe n x).sch = s.sch := rfl
@[simp] theorem State.setLe_flt (s : State) (n : Nat) (x : Le) : (s.setLe n x).flt = s.flt := rfl
@[simp] theorem State.setLe_gst (s : State) (n : Nat) (x : Le) : (s.setLe n x).gst = s.gst := rfl
@[simp] theorem State.setLe_twn (s : State) (n : Nat) (x : Le) : (s.setLe n x).twn = s.twn := rfl
@[simp] theorem State.setLe_key (s : State) (n : Nat) (x : Le) : (s.setLe n x).key = s.key := rfl
@[simp] theorem State.setLe_drf (s : State) (n : Nat) (x : Le) : (s.setLe n x).drf = s.drf := rfl
@[simp] theorem State.setLe_net (s : State) (n : Nat) (x : Le) : (s.setLe n x).net = s.net := rfl
@[simp] theorem State.setLe_dsp (s : State) (n : Nat) (x : Le) : (s.setLe n x).dsp = s.dsp := rfl
@[simp] theorem State.setLe_dma (s : State) (n : Nat) (x : Le) : (s.setLe n x).dma = s.dma := rfl
@[simp] theorem State.setLe_mem (s : State) (n : Nat) (x : Le) : (s.setLe n x).mem = s.mem := rfl
@[simp] theorem State.setLe_saf (s : State) (n : Nat) (x : Le) : (s.setLe n x).saf = s.saf := rfl
@[simp] theorem State.setLe_fio (s : State) (n : Nat) (x : Le) : (s.setLe n x).fio = s.fio := rfl
@[simp] theorem State.setLe_iso (s : State) (n : Nat) (x : Le) : (s.setLe n x).iso = s.iso := rfl
@[simp] theorem State.setLe_adc (s : State) (n : Nat) (x : Le) : (s.setLe n x).adc = s.adc := rfl
@[simp] theorem State.setLe_shfs (s : State) (n : Nat) (x : Le) : (s.setLe n x).shfs = s.shfs := rfl
@[simp] theorem State.setLe_pwm (s : State) (n : Nat) (x : Le) : (s.setLe n x).pwm = s.pwm := rfl
@[simp] theorem State.setLe_cans (s : State) (n : Nat) (x : Le) : (s.setLe n x).cans = s.cans := rfl
@[simp] theorem State.setLe_ram (s : State) (n : Nat) (x : Le) : (s.setLe n x).ram = s.ram := rfl
@[simp] theorem State.setLe_mram (s : State) (n : Nat) (x : Le) : (s.setLe n x).mram = s.mram := rfl
@[simp] theorem State.setLe_bus (s : State) (n : Nat) (x : Le) : (s.setLe n x).bus = s.bus := rfl
@[simp] theorem State.setLe_free (s : State) (n : Nat) (x : Le) : (s.setLe n x).free = s.free := rfl
@[simp] theorem State.setLe_pending (s : State) (n : Nat) (x : Le) : (s.setLe n x).pending = s.pending := rfl
@[simp] theorem State.setSrc_regs (s : State) (n : Nat) (x : Src) : (s.setSrc n x).regs = s.regs := rfl
@[simp] theorem State.setSrc_held (s : State) (n : Nat) (x : Src) : (s.setSrc n x).held = s.held := rfl
@[simp] theorem State.setSrc_setAt (s : State) (n : Nat) (x : Src) : (s.setSrc n x).setAt = s.setAt := rfl
@[simp] theorem State.setSrc_sys (s : State) (n : Nat) (x : Src) : (s.setSrc n x).sys = s.sys := rfl
@[simp] theorem State.setSrc_tb (s : State) (n : Nat) (x : Src) : (s.setSrc n x).tb = s.tb := rfl
@[simp] theorem State.setSrc_lanes (s : State) (n : Nat) (x : Src) : (s.setSrc n x).lanes = s.lanes := rfl
@[simp] theorem State.setSrc_ports (s : State) (n : Nat) (x : Src) : (s.setSrc n x).ports = s.ports := rfl
@[simp] theorem State.setSrc_aes (s : State) (n : Nat) (x : Src) : (s.setSrc n x).aes = s.aes := rfl
@[simp] theorem State.setSrc_les (s : State) (n : Nat) (x : Src) : (s.setSrc n x).les = s.les := rfl
@[simp] theorem State.setSrc_isl (s : State) (n : Nat) (x : Src) : (s.setSrc n x).isl = s.isl := rfl
@[simp] theorem State.setSrc_sch (s : State) (n : Nat) (x : Src) : (s.setSrc n x).sch = s.sch := rfl
@[simp] theorem State.setSrc_gst (s : State) (n : Nat) (x : Src) : (s.setSrc n x).gst = s.gst := rfl
@[simp] theorem State.setSrc_twn (s : State) (n : Nat) (x : Src) : (s.setSrc n x).twn = s.twn := rfl
@[simp] theorem State.setSrc_key (s : State) (n : Nat) (x : Src) : (s.setSrc n x).key = s.key := rfl
@[simp] theorem State.setSrc_drf (s : State) (n : Nat) (x : Src) : (s.setSrc n x).drf = s.drf := rfl
@[simp] theorem State.setSrc_net (s : State) (n : Nat) (x : Src) : (s.setSrc n x).net = s.net := rfl
@[simp] theorem State.setSrc_dsp (s : State) (n : Nat) (x : Src) : (s.setSrc n x).dsp = s.dsp := rfl
@[simp] theorem State.setSrc_dma (s : State) (n : Nat) (x : Src) : (s.setSrc n x).dma = s.dma := rfl
@[simp] theorem State.setSrc_mem (s : State) (n : Nat) (x : Src) : (s.setSrc n x).mem = s.mem := rfl
@[simp] theorem State.setSrc_saf (s : State) (n : Nat) (x : Src) : (s.setSrc n x).saf = s.saf := rfl
@[simp] theorem State.setSrc_fio (s : State) (n : Nat) (x : Src) : (s.setSrc n x).fio = s.fio := rfl
@[simp] theorem State.setSrc_iso (s : State) (n : Nat) (x : Src) : (s.setSrc n x).iso = s.iso := rfl
@[simp] theorem State.setSrc_adc (s : State) (n : Nat) (x : Src) : (s.setSrc n x).adc = s.adc := rfl
@[simp] theorem State.setSrc_shfs (s : State) (n : Nat) (x : Src) : (s.setSrc n x).shfs = s.shfs := rfl
@[simp] theorem State.setSrc_pwm (s : State) (n : Nat) (x : Src) : (s.setSrc n x).pwm = s.pwm := rfl
@[simp] theorem State.setSrc_cans (s : State) (n : Nat) (x : Src) : (s.setSrc n x).cans = s.cans := rfl
@[simp] theorem State.setSrc_ram (s : State) (n : Nat) (x : Src) : (s.setSrc n x).ram = s.ram := rfl
@[simp] theorem State.setSrc_mram (s : State) (n : Nat) (x : Src) : (s.setSrc n x).mram = s.mram := rfl
@[simp] theorem State.setSrc_bus (s : State) (n : Nat) (x : Src) : (s.setSrc n x).bus = s.bus := rfl
@[simp] theorem State.setSrc_free (s : State) (n : Nat) (x : Src) : (s.setSrc n x).free = s.free := rfl
@[simp] theorem State.setSrc_pending (s : State) (n : Nat) (x : Src) : (s.setSrc n x).pending = s.pending := rfl
@[simp] theorem State.setChan_regs (s : State) (n : Nat) (x : Chan) : (s.setChan n x).regs = s.regs := rfl
@[simp] theorem State.setChan_held (s : State) (n : Nat) (x : Chan) : (s.setChan n x).held = s.held := rfl
@[simp] theorem State.setChan_setAt (s : State) (n : Nat) (x : Chan) : (s.setChan n x).setAt = s.setAt := rfl
@[simp] theorem State.setChan_sys (s : State) (n : Nat) (x : Chan) : (s.setChan n x).sys = s.sys := rfl
@[simp] theorem State.setChan_lanes (s : State) (n : Nat) (x : Chan) : (s.setChan n x).lanes = s.lanes := rfl
@[simp] theorem State.setChan_ports (s : State) (n : Nat) (x : Chan) : (s.setChan n x).ports = s.ports := rfl
@[simp] theorem State.setChan_aes (s : State) (n : Nat) (x : Chan) : (s.setChan n x).aes = s.aes := rfl
@[simp] theorem State.setChan_les (s : State) (n : Nat) (x : Chan) : (s.setChan n x).les = s.les := rfl
@[simp] theorem State.setChan_isl (s : State) (n : Nat) (x : Chan) : (s.setChan n x).isl = s.isl := rfl
@[simp] theorem State.setChan_sch (s : State) (n : Nat) (x : Chan) : (s.setChan n x).sch = s.sch := rfl
@[simp] theorem State.setChan_flt (s : State) (n : Nat) (x : Chan) : (s.setChan n x).flt = s.flt := rfl
@[simp] theorem State.setChan_gst (s : State) (n : Nat) (x : Chan) : (s.setChan n x).gst = s.gst := rfl
@[simp] theorem State.setChan_twn (s : State) (n : Nat) (x : Chan) : (s.setChan n x).twn = s.twn := rfl
@[simp] theorem State.setChan_key (s : State) (n : Nat) (x : Chan) : (s.setChan n x).key = s.key := rfl
@[simp] theorem State.setChan_drf (s : State) (n : Nat) (x : Chan) : (s.setChan n x).drf = s.drf := rfl
@[simp] theorem State.setChan_net (s : State) (n : Nat) (x : Chan) : (s.setChan n x).net = s.net := rfl
@[simp] theorem State.setChan_dsp (s : State) (n : Nat) (x : Chan) : (s.setChan n x).dsp = s.dsp := rfl
@[simp] theorem State.setChan_dma (s : State) (n : Nat) (x : Chan) : (s.setChan n x).dma = s.dma := rfl
@[simp] theorem State.setChan_mem (s : State) (n : Nat) (x : Chan) : (s.setChan n x).mem = s.mem := rfl
@[simp] theorem State.setChan_saf (s : State) (n : Nat) (x : Chan) : (s.setChan n x).saf = s.saf := rfl
@[simp] theorem State.setChan_fio (s : State) (n : Nat) (x : Chan) : (s.setChan n x).fio = s.fio := rfl
@[simp] theorem State.setChan_iso (s : State) (n : Nat) (x : Chan) : (s.setChan n x).iso = s.iso := rfl
@[simp] theorem State.setChan_adc (s : State) (n : Nat) (x : Chan) : (s.setChan n x).adc = s.adc := rfl
@[simp] theorem State.setChan_shfs (s : State) (n : Nat) (x : Chan) : (s.setChan n x).shfs = s.shfs := rfl
@[simp] theorem State.setChan_pwm (s : State) (n : Nat) (x : Chan) : (s.setChan n x).pwm = s.pwm := rfl
@[simp] theorem State.setChan_cans (s : State) (n : Nat) (x : Chan) : (s.setChan n x).cans = s.cans := rfl
@[simp] theorem State.setChan_ram (s : State) (n : Nat) (x : Chan) : (s.setChan n x).ram = s.ram := rfl
@[simp] theorem State.setChan_mram (s : State) (n : Nat) (x : Chan) : (s.setChan n x).mram = s.mram := rfl
@[simp] theorem State.setChan_bus (s : State) (n : Nat) (x : Chan) : (s.setChan n x).bus = s.bus := rfl
@[simp] theorem State.setChan_free (s : State) (n : Nat) (x : Chan) : (s.setChan n x).free = s.free := rfl
@[simp] theorem State.setChan_pending (s : State) (n : Nat) (x : Chan) : (s.setChan n x).pending = s.pending := rfl
@[simp] theorem State.setShf_regs (s : State) (n : Nat) (x : Shf) : (s.setShf n x).regs = s.regs := rfl
@[simp] theorem State.setShf_held (s : State) (n : Nat) (x : Shf) : (s.setShf n x).held = s.held := rfl
@[simp] theorem State.setShf_setAt (s : State) (n : Nat) (x : Shf) : (s.setShf n x).setAt = s.setAt := rfl
@[simp] theorem State.setShf_sys (s : State) (n : Nat) (x : Shf) : (s.setShf n x).sys = s.sys := rfl
@[simp] theorem State.setShf_tb (s : State) (n : Nat) (x : Shf) : (s.setShf n x).tb = s.tb := rfl
@[simp] theorem State.setShf_lanes (s : State) (n : Nat) (x : Shf) : (s.setShf n x).lanes = s.lanes := rfl
@[simp] theorem State.setShf_ports (s : State) (n : Nat) (x : Shf) : (s.setShf n x).ports = s.ports := rfl
@[simp] theorem State.setShf_aes (s : State) (n : Nat) (x : Shf) : (s.setShf n x).aes = s.aes := rfl
@[simp] theorem State.setShf_les (s : State) (n : Nat) (x : Shf) : (s.setShf n x).les = s.les := rfl
@[simp] theorem State.setShf_isl (s : State) (n : Nat) (x : Shf) : (s.setShf n x).isl = s.isl := rfl
@[simp] theorem State.setShf_sch (s : State) (n : Nat) (x : Shf) : (s.setShf n x).sch = s.sch := rfl
@[simp] theorem State.setShf_flt (s : State) (n : Nat) (x : Shf) : (s.setShf n x).flt = s.flt := rfl
@[simp] theorem State.setShf_gst (s : State) (n : Nat) (x : Shf) : (s.setShf n x).gst = s.gst := rfl
@[simp] theorem State.setShf_twn (s : State) (n : Nat) (x : Shf) : (s.setShf n x).twn = s.twn := rfl
@[simp] theorem State.setShf_key (s : State) (n : Nat) (x : Shf) : (s.setShf n x).key = s.key := rfl
@[simp] theorem State.setShf_drf (s : State) (n : Nat) (x : Shf) : (s.setShf n x).drf = s.drf := rfl
@[simp] theorem State.setShf_net (s : State) (n : Nat) (x : Shf) : (s.setShf n x).net = s.net := rfl
@[simp] theorem State.setShf_dsp (s : State) (n : Nat) (x : Shf) : (s.setShf n x).dsp = s.dsp := rfl
@[simp] theorem State.setShf_dma (s : State) (n : Nat) (x : Shf) : (s.setShf n x).dma = s.dma := rfl
@[simp] theorem State.setShf_mem (s : State) (n : Nat) (x : Shf) : (s.setShf n x).mem = s.mem := rfl
@[simp] theorem State.setShf_saf (s : State) (n : Nat) (x : Shf) : (s.setShf n x).saf = s.saf := rfl
@[simp] theorem State.setShf_fio (s : State) (n : Nat) (x : Shf) : (s.setShf n x).fio = s.fio := rfl
@[simp] theorem State.setShf_iso (s : State) (n : Nat) (x : Shf) : (s.setShf n x).iso = s.iso := rfl
@[simp] theorem State.setShf_adc (s : State) (n : Nat) (x : Shf) : (s.setShf n x).adc = s.adc := rfl
@[simp] theorem State.setShf_pwm (s : State) (n : Nat) (x : Shf) : (s.setShf n x).pwm = s.pwm := rfl
@[simp] theorem State.setShf_cans (s : State) (n : Nat) (x : Shf) : (s.setShf n x).cans = s.cans := rfl
@[simp] theorem State.setShf_ram (s : State) (n : Nat) (x : Shf) : (s.setShf n x).ram = s.ram := rfl
@[simp] theorem State.setShf_mram (s : State) (n : Nat) (x : Shf) : (s.setShf n x).mram = s.mram := rfl
@[simp] theorem State.setShf_bus (s : State) (n : Nat) (x : Shf) : (s.setShf n x).bus = s.bus := rfl
@[simp] theorem State.setShf_free (s : State) (n : Nat) (x : Shf) : (s.setShf n x).free = s.free := rfl
@[simp] theorem State.setShf_pending (s : State) (n : Nat) (x : Shf) : (s.setShf n x).pending = s.pending := rfl
@[simp] theorem State.setCan_regs (s : State) (n : Nat) (x : Can) : (s.setCan n x).regs = s.regs := rfl
@[simp] theorem State.setCan_held (s : State) (n : Nat) (x : Can) : (s.setCan n x).held = s.held := rfl
@[simp] theorem State.setCan_setAt (s : State) (n : Nat) (x : Can) : (s.setCan n x).setAt = s.setAt := rfl
@[simp] theorem State.setCan_sys (s : State) (n : Nat) (x : Can) : (s.setCan n x).sys = s.sys := rfl
@[simp] theorem State.setCan_tb (s : State) (n : Nat) (x : Can) : (s.setCan n x).tb = s.tb := rfl
@[simp] theorem State.setCan_lanes (s : State) (n : Nat) (x : Can) : (s.setCan n x).lanes = s.lanes := rfl
@[simp] theorem State.setCan_ports (s : State) (n : Nat) (x : Can) : (s.setCan n x).ports = s.ports := rfl
@[simp] theorem State.setCan_aes (s : State) (n : Nat) (x : Can) : (s.setCan n x).aes = s.aes := rfl
@[simp] theorem State.setCan_les (s : State) (n : Nat) (x : Can) : (s.setCan n x).les = s.les := rfl
@[simp] theorem State.setCan_isl (s : State) (n : Nat) (x : Can) : (s.setCan n x).isl = s.isl := rfl
@[simp] theorem State.setCan_sch (s : State) (n : Nat) (x : Can) : (s.setCan n x).sch = s.sch := rfl
@[simp] theorem State.setCan_flt (s : State) (n : Nat) (x : Can) : (s.setCan n x).flt = s.flt := rfl
@[simp] theorem State.setCan_gst (s : State) (n : Nat) (x : Can) : (s.setCan n x).gst = s.gst := rfl
@[simp] theorem State.setCan_twn (s : State) (n : Nat) (x : Can) : (s.setCan n x).twn = s.twn := rfl
@[simp] theorem State.setCan_key (s : State) (n : Nat) (x : Can) : (s.setCan n x).key = s.key := rfl
@[simp] theorem State.setCan_drf (s : State) (n : Nat) (x : Can) : (s.setCan n x).drf = s.drf := rfl
@[simp] theorem State.setCan_net (s : State) (n : Nat) (x : Can) : (s.setCan n x).net = s.net := rfl
@[simp] theorem State.setCan_dsp (s : State) (n : Nat) (x : Can) : (s.setCan n x).dsp = s.dsp := rfl
@[simp] theorem State.setCan_dma (s : State) (n : Nat) (x : Can) : (s.setCan n x).dma = s.dma := rfl
@[simp] theorem State.setCan_mem (s : State) (n : Nat) (x : Can) : (s.setCan n x).mem = s.mem := rfl
@[simp] theorem State.setCan_saf (s : State) (n : Nat) (x : Can) : (s.setCan n x).saf = s.saf := rfl
@[simp] theorem State.setCan_fio (s : State) (n : Nat) (x : Can) : (s.setCan n x).fio = s.fio := rfl
@[simp] theorem State.setCan_iso (s : State) (n : Nat) (x : Can) : (s.setCan n x).iso = s.iso := rfl
@[simp] theorem State.setCan_adc (s : State) (n : Nat) (x : Can) : (s.setCan n x).adc = s.adc := rfl
@[simp] theorem State.setCan_shfs (s : State) (n : Nat) (x : Can) : (s.setCan n x).shfs = s.shfs := rfl
@[simp] theorem State.setCan_pwm (s : State) (n : Nat) (x : Can) : (s.setCan n x).pwm = s.pwm := rfl
@[simp] theorem State.setCan_ram (s : State) (n : Nat) (x : Can) : (s.setCan n x).ram = s.ram := rfl
@[simp] theorem State.setCan_mram (s : State) (n : Nat) (x : Can) : (s.setCan n x).mram = s.mram := rfl
@[simp] theorem State.setCan_bus (s : State) (n : Nat) (x : Can) : (s.setCan n x).bus = s.bus := rfl
@[simp] theorem State.setCan_free (s : State) (n : Nat) (x : Can) : (s.setCan n x).free = s.free := rfl
@[simp] theorem State.setCan_pending (s : State) (n : Nat) (x : Can) : (s.setCan n x).pending = s.pending := rfl
@[simp] theorem State.tick1_regs (s : State) : (s.tick1).regs = s.regs := rfl
@[simp] theorem State.tick1_held (s : State) : (s.tick1).held = s.held := rfl
@[simp] theorem State.tick1_setAt (s : State) : (s.tick1).setAt = s.setAt := rfl
@[simp] theorem State.tick1_sys (s : State) : (s.tick1).sys = s.sys := rfl
@[simp] theorem State.tick1_tb (s : State) : (s.tick1).tb = s.tb := rfl
@[simp] theorem State.tick1_lanes (s : State) : (s.tick1).lanes = s.lanes := rfl
@[simp] theorem State.tick1_ports (s : State) : (s.tick1).ports = s.ports := rfl
@[simp] theorem State.tick1_aes (s : State) : (s.tick1).aes = s.aes := rfl
@[simp] theorem State.tick1_les (s : State) : (s.tick1).les = s.les := rfl
@[simp] theorem State.tick1_isl (s : State) : (s.tick1).isl = s.isl := rfl
@[simp] theorem State.tick1_sch (s : State) : (s.tick1).sch = s.sch := rfl
@[simp] theorem State.tick1_flt (s : State) : (s.tick1).flt = s.flt := rfl
@[simp] theorem State.tick1_gst (s : State) : (s.tick1).gst = s.gst := rfl
@[simp] theorem State.tick1_twn (s : State) : (s.tick1).twn = s.twn := rfl
@[simp] theorem State.tick1_key (s : State) : (s.tick1).key = s.key := rfl
@[simp] theorem State.tick1_drf (s : State) : (s.tick1).drf = s.drf := rfl
@[simp] theorem State.tick1_net (s : State) : (s.tick1).net = s.net := rfl
@[simp] theorem State.tick1_dsp (s : State) : (s.tick1).dsp = s.dsp := rfl
@[simp] theorem State.tick1_dma (s : State) : (s.tick1).dma = s.dma := rfl
@[simp] theorem State.tick1_mem (s : State) : (s.tick1).mem = s.mem := rfl
@[simp] theorem State.tick1_saf (s : State) : (s.tick1).saf = s.saf := rfl
@[simp] theorem State.tick1_fio (s : State) : (s.tick1).fio = s.fio := rfl
@[simp] theorem State.tick1_iso (s : State) : (s.tick1).iso = s.iso := rfl
@[simp] theorem State.tick1_adc (s : State) : (s.tick1).adc = s.adc := rfl
@[simp] theorem State.tick1_shfs (s : State) : (s.tick1).shfs = s.shfs := rfl
@[simp] theorem State.tick1_pwm (s : State) : (s.tick1).pwm = s.pwm := rfl
@[simp] theorem State.tick1_cans (s : State) : (s.tick1).cans = s.cans := rfl
@[simp] theorem State.tick1_ram (s : State) : (s.tick1).ram = s.ram := rfl
@[simp] theorem State.tick1_mram (s : State) : (s.tick1).mram = s.mram := rfl
@[simp] theorem State.tick1_bus (s : State) : (s.tick1).bus = s.bus := rfl
@[simp] theorem State.tick1_pending (s : State) : (s.tick1).pending = s.pending := rfl
@[simp] theorem State.ramWrite_regs (s : State) (a : Nat) (l : List Byte) : (s.ramWrite a l).regs = s.regs := rfl
@[simp] theorem State.ramWrite_held (s : State) (a : Nat) (l : List Byte) : (s.ramWrite a l).held = s.held := rfl
@[simp] theorem State.ramWrite_setAt (s : State) (a : Nat) (l : List Byte) : (s.ramWrite a l).setAt = s.setAt := rfl
@[simp] theorem State.ramWrite_sys (s : State) (a : Nat) (l : List Byte) : (s.ramWrite a l).sys = s.sys := rfl
@[simp] theorem State.ramWrite_tb (s : State) (a : Nat) (l : List Byte) : (s.ramWrite a l).tb = s.tb := rfl
@[simp] theorem State.ramWrite_lanes (s : State) (a : Nat) (l : List Byte) : (s.ramWrite a l).lanes = s.lanes := rfl
@[simp] theorem State.ramWrite_ports (s : State) (a : Nat) (l : List Byte) : (s.ramWrite a l).ports = s.ports := rfl
@[simp] theorem State.ramWrite_aes (s : State) (a : Nat) (l : List Byte) : (s.ramWrite a l).aes = s.aes := rfl
@[simp] theorem State.ramWrite_les (s : State) (a : Nat) (l : List Byte) : (s.ramWrite a l).les = s.les := rfl
@[simp] theorem State.ramWrite_isl (s : State) (a : Nat) (l : List Byte) : (s.ramWrite a l).isl = s.isl := rfl
@[simp] theorem State.ramWrite_sch (s : State) (a : Nat) (l : List Byte) : (s.ramWrite a l).sch = s.sch := rfl
@[simp] theorem State.ramWrite_flt (s : State) (a : Nat) (l : List Byte) : (s.ramWrite a l).flt = s.flt := rfl
@[simp] theorem State.ramWrite_gst (s : State) (a : Nat) (l : List Byte) : (s.ramWrite a l).gst = s.gst := rfl
@[simp] theorem State.ramWrite_twn (s : State) (a : Nat) (l : List Byte) : (s.ramWrite a l).twn = s.twn := rfl
@[simp] theorem State.ramWrite_key (s : State) (a : Nat) (l : List Byte) : (s.ramWrite a l).key = s.key := rfl
@[simp] theorem State.ramWrite_drf (s : State) (a : Nat) (l : List Byte) : (s.ramWrite a l).drf = s.drf := rfl
@[simp] theorem State.ramWrite_net (s : State) (a : Nat) (l : List Byte) : (s.ramWrite a l).net = s.net := rfl
@[simp] theorem State.ramWrite_dsp (s : State) (a : Nat) (l : List Byte) : (s.ramWrite a l).dsp = s.dsp := rfl
@[simp] theorem State.ramWrite_dma (s : State) (a : Nat) (l : List Byte) : (s.ramWrite a l).dma = s.dma := rfl
@[simp] theorem State.ramWrite_mem (s : State) (a : Nat) (l : List Byte) : (s.ramWrite a l).mem = s.mem := rfl
@[simp] theorem State.ramWrite_saf (s : State) (a : Nat) (l : List Byte) : (s.ramWrite a l).saf = s.saf := rfl
@[simp] theorem State.ramWrite_fio (s : State) (a : Nat) (l : List Byte) : (s.ramWrite a l).fio = s.fio := rfl
@[simp] theorem State.ramWrite_iso (s : State) (a : Nat) (l : List Byte) : (s.ramWrite a l).iso = s.iso := rfl
@[simp] theorem State.ramWrite_adc (s : State) (a : Nat) (l : List Byte) : (s.ramWrite a l).adc = s.adc := rfl
@[simp] theorem State.ramWrite_shfs (s : State) (a : Nat) (l : List Byte) : (s.ramWrite a l).shfs = s.shfs := rfl
@[simp] theorem State.ramWrite_pwm (s : State) (a : Nat) (l : List Byte) : (s.ramWrite a l).pwm = s.pwm := rfl
@[simp] theorem State.ramWrite_cans (s : State) (a : Nat) (l : List Byte) : (s.ramWrite a l).cans = s.cans := rfl
@[simp] theorem State.ramWrite_mram (s : State) (a : Nat) (l : List Byte) : (s.ramWrite a l).mram = s.mram := rfl
@[simp] theorem State.ramWrite_bus (s : State) (a : Nat) (l : List Byte) : (s.ramWrite a l).bus = s.bus := rfl
@[simp] theorem State.ramWrite_free (s : State) (a : Nat) (l : List Byte) : (s.ramWrite a l).free = s.free := rfl
@[simp] theorem State.ramWrite_pending (s : State) (a : Nat) (l : List Byte) : (s.ramWrite a l).pending = s.pending := rfl
@[simp] theorem State.keyPut_regs (s : State) (a : Nat) (l : List Byte) : (s.keyPut a l).regs = s.regs := rfl
@[simp] theorem State.keyPut_held (s : State) (a : Nat) (l : List Byte) : (s.keyPut a l).held = s.held := rfl
@[simp] theorem State.keyPut_setAt (s : State) (a : Nat) (l : List Byte) : (s.keyPut a l).setAt = s.setAt := rfl
@[simp] theorem State.keyPut_sys (s : State) (a : Nat) (l : List Byte) : (s.keyPut a l).sys = s.sys := rfl
@[simp] theorem State.keyPut_tb (s : State) (a : Nat) (l : List Byte) : (s.keyPut a l).tb = s.tb := rfl
@[simp] theorem State.keyPut_lanes (s : State) (a : Nat) (l : List Byte) : (s.keyPut a l).lanes = s.lanes := rfl
@[simp] theorem State.keyPut_ports (s : State) (a : Nat) (l : List Byte) : (s.keyPut a l).ports = s.ports := rfl
@[simp] theorem State.keyPut_aes (s : State) (a : Nat) (l : List Byte) : (s.keyPut a l).aes = s.aes := rfl
@[simp] theorem State.keyPut_les (s : State) (a : Nat) (l : List Byte) : (s.keyPut a l).les = s.les := rfl
@[simp] theorem State.keyPut_isl (s : State) (a : Nat) (l : List Byte) : (s.keyPut a l).isl = s.isl := rfl
@[simp] theorem State.keyPut_sch (s : State) (a : Nat) (l : List Byte) : (s.keyPut a l).sch = s.sch := rfl
@[simp] theorem State.keyPut_flt (s : State) (a : Nat) (l : List Byte) : (s.keyPut a l).flt = s.flt := rfl
@[simp] theorem State.keyPut_gst (s : State) (a : Nat) (l : List Byte) : (s.keyPut a l).gst = s.gst := rfl
@[simp] theorem State.keyPut_twn (s : State) (a : Nat) (l : List Byte) : (s.keyPut a l).twn = s.twn := rfl
@[simp] theorem State.keyPut_key (s : State) (a : Nat) (l : List Byte) : (s.keyPut a l).key = s.key := rfl
@[simp] theorem State.keyPut_drf (s : State) (a : Nat) (l : List Byte) : (s.keyPut a l).drf = s.drf := rfl
@[simp] theorem State.keyPut_net (s : State) (a : Nat) (l : List Byte) : (s.keyPut a l).net = s.net := rfl
@[simp] theorem State.keyPut_dsp (s : State) (a : Nat) (l : List Byte) : (s.keyPut a l).dsp = s.dsp := rfl
@[simp] theorem State.keyPut_dma (s : State) (a : Nat) (l : List Byte) : (s.keyPut a l).dma = s.dma := rfl
@[simp] theorem State.keyPut_mem (s : State) (a : Nat) (l : List Byte) : (s.keyPut a l).mem = s.mem := rfl
@[simp] theorem State.keyPut_saf (s : State) (a : Nat) (l : List Byte) : (s.keyPut a l).saf = s.saf := rfl
@[simp] theorem State.keyPut_fio (s : State) (a : Nat) (l : List Byte) : (s.keyPut a l).fio = s.fio := rfl
@[simp] theorem State.keyPut_iso (s : State) (a : Nat) (l : List Byte) : (s.keyPut a l).iso = s.iso := rfl
@[simp] theorem State.keyPut_adc (s : State) (a : Nat) (l : List Byte) : (s.keyPut a l).adc = s.adc := rfl
@[simp] theorem State.keyPut_shfs (s : State) (a : Nat) (l : List Byte) : (s.keyPut a l).shfs = s.shfs := rfl
@[simp] theorem State.keyPut_pwm (s : State) (a : Nat) (l : List Byte) : (s.keyPut a l).pwm = s.pwm := rfl
@[simp] theorem State.keyPut_cans (s : State) (a : Nat) (l : List Byte) : (s.keyPut a l).cans = s.cans := rfl
@[simp] theorem State.keyPut_ram (s : State) (a : Nat) (l : List Byte) : (s.keyPut a l).ram = s.ram := rfl
@[simp] theorem State.keyPut_bus (s : State) (a : Nat) (l : List Byte) : (s.keyPut a l).bus = s.bus := rfl
@[simp] theorem State.keyPut_free (s : State) (a : Nat) (l : List Byte) : (s.keyPut a l).free = s.free := rfl
@[simp] theorem State.keyPut_pending (s : State) (a : Nat) (l : List Byte) : (s.keyPut a l).pending = s.pending := rfl
@[simp] theorem State.lifeUp_regs (s : State) (i : Nat) : (s.lifeUp i).regs = s.regs := rfl
@[simp] theorem State.lifeUp_held (s : State) (i : Nat) : (s.lifeUp i).held = s.held := rfl
@[simp] theorem State.lifeUp_setAt (s : State) (i : Nat) : (s.lifeUp i).setAt = s.setAt := rfl
@[simp] theorem State.lifeUp_sys (s : State) (i : Nat) : (s.lifeUp i).sys = s.sys := rfl
@[simp] theorem State.lifeUp_tb (s : State) (i : Nat) : (s.lifeUp i).tb = s.tb := rfl
@[simp] theorem State.lifeUp_lanes (s : State) (i : Nat) : (s.lifeUp i).lanes = s.lanes := rfl
@[simp] theorem State.lifeUp_ports (s : State) (i : Nat) : (s.lifeUp i).ports = s.ports := rfl
@[simp] theorem State.lifeUp_aes (s : State) (i : Nat) : (s.lifeUp i).aes = s.aes := rfl
@[simp] theorem State.lifeUp_les (s : State) (i : Nat) : (s.lifeUp i).les = s.les := rfl
@[simp] theorem State.lifeUp_isl (s : State) (i : Nat) : (s.lifeUp i).isl = s.isl := rfl
@[simp] theorem State.lifeUp_sch (s : State) (i : Nat) : (s.lifeUp i).sch = s.sch := rfl
@[simp] theorem State.lifeUp_flt (s : State) (i : Nat) : (s.lifeUp i).flt = s.flt := rfl
@[simp] theorem State.lifeUp_gst (s : State) (i : Nat) : (s.lifeUp i).gst = s.gst := rfl
@[simp] theorem State.lifeUp_twn (s : State) (i : Nat) : (s.lifeUp i).twn = s.twn := rfl
@[simp] theorem State.lifeUp_drf (s : State) (i : Nat) : (s.lifeUp i).drf = s.drf := rfl
@[simp] theorem State.lifeUp_net (s : State) (i : Nat) : (s.lifeUp i).net = s.net := rfl
@[simp] theorem State.lifeUp_dsp (s : State) (i : Nat) : (s.lifeUp i).dsp = s.dsp := rfl
@[simp] theorem State.lifeUp_dma (s : State) (i : Nat) : (s.lifeUp i).dma = s.dma := rfl
@[simp] theorem State.lifeUp_mem (s : State) (i : Nat) : (s.lifeUp i).mem = s.mem := rfl
@[simp] theorem State.lifeUp_saf (s : State) (i : Nat) : (s.lifeUp i).saf = s.saf := rfl
@[simp] theorem State.lifeUp_fio (s : State) (i : Nat) : (s.lifeUp i).fio = s.fio := rfl
@[simp] theorem State.lifeUp_iso (s : State) (i : Nat) : (s.lifeUp i).iso = s.iso := rfl
@[simp] theorem State.lifeUp_adc (s : State) (i : Nat) : (s.lifeUp i).adc = s.adc := rfl
@[simp] theorem State.lifeUp_shfs (s : State) (i : Nat) : (s.lifeUp i).shfs = s.shfs := rfl
@[simp] theorem State.lifeUp_pwm (s : State) (i : Nat) : (s.lifeUp i).pwm = s.pwm := rfl
@[simp] theorem State.lifeUp_cans (s : State) (i : Nat) : (s.lifeUp i).cans = s.cans := rfl
@[simp] theorem State.lifeUp_ram (s : State) (i : Nat) : (s.lifeUp i).ram = s.ram := rfl
@[simp] theorem State.lifeUp_mram (s : State) (i : Nat) : (s.lifeUp i).mram = s.mram := rfl
@[simp] theorem State.lifeUp_bus (s : State) (i : Nat) : (s.lifeUp i).bus = s.bus := rfl
@[simp] theorem State.lifeUp_free (s : State) (i : Nat) : (s.lifeUp i).free = s.free := rfl
@[simp] theorem State.lifeUp_pending (s : State) (i : Nat) : (s.lifeUp i).pending = s.pending := rfl
@[simp] theorem State.keyDue_regs (s : State) : (s.keyDue).regs = s.regs := rfl
@[simp] theorem State.keyDue_held (s : State) : (s.keyDue).held = s.held := rfl
@[simp] theorem State.keyDue_setAt (s : State) : (s.keyDue).setAt = s.setAt := rfl
@[simp] theorem State.keyDue_sys (s : State) : (s.keyDue).sys = s.sys := rfl
@[simp] theorem State.keyDue_tb (s : State) : (s.keyDue).tb = s.tb := rfl
@[simp] theorem State.keyDue_lanes (s : State) : (s.keyDue).lanes = s.lanes := rfl
@[simp] theorem State.keyDue_ports (s : State) : (s.keyDue).ports = s.ports := rfl
@[simp] theorem State.keyDue_aes (s : State) : (s.keyDue).aes = s.aes := rfl
@[simp] theorem State.keyDue_les (s : State) : (s.keyDue).les = s.les := rfl
@[simp] theorem State.keyDue_isl (s : State) : (s.keyDue).isl = s.isl := rfl
@[simp] theorem State.keyDue_sch (s : State) : (s.keyDue).sch = s.sch := rfl
@[simp] theorem State.keyDue_flt (s : State) : (s.keyDue).flt = s.flt := rfl
@[simp] theorem State.keyDue_gst (s : State) : (s.keyDue).gst = s.gst := rfl
@[simp] theorem State.keyDue_twn (s : State) : (s.keyDue).twn = s.twn := rfl
@[simp] theorem State.keyDue_drf (s : State) : (s.keyDue).drf = s.drf := rfl
@[simp] theorem State.keyDue_net (s : State) : (s.keyDue).net = s.net := rfl
@[simp] theorem State.keyDue_dsp (s : State) : (s.keyDue).dsp = s.dsp := rfl
@[simp] theorem State.keyDue_dma (s : State) : (s.keyDue).dma = s.dma := rfl
@[simp] theorem State.keyDue_mem (s : State) : (s.keyDue).mem = s.mem := rfl
@[simp] theorem State.keyDue_saf (s : State) : (s.keyDue).saf = s.saf := rfl
@[simp] theorem State.keyDue_fio (s : State) : (s.keyDue).fio = s.fio := rfl
@[simp] theorem State.keyDue_iso (s : State) : (s.keyDue).iso = s.iso := rfl
@[simp] theorem State.keyDue_adc (s : State) : (s.keyDue).adc = s.adc := rfl
@[simp] theorem State.keyDue_shfs (s : State) : (s.keyDue).shfs = s.shfs := rfl
@[simp] theorem State.keyDue_pwm (s : State) : (s.keyDue).pwm = s.pwm := rfl
@[simp] theorem State.keyDue_cans (s : State) : (s.keyDue).cans = s.cans := rfl
@[simp] theorem State.keyDue_ram (s : State) : (s.keyDue).ram = s.ram := rfl
@[simp] theorem State.keyDue_mram (s : State) : (s.keyDue).mram = s.mram := rfl
@[simp] theorem State.keyDue_bus (s : State) : (s.keyDue).bus = s.bus := rfl
@[simp] theorem State.keyDue_free (s : State) : (s.keyDue).free = s.free := rfl
@[simp] theorem State.keyDue_pending (s : State) : (s.keyDue).pending = s.pending := rfl

end Sys2Proof.Machine
end

