-- ==== Sys2Proof/Laws/Index.lean ====
section
/-! SUPPORT. Reading an indexed part of the state after writing one: the part written reads as written, the others and the
rest of the state stay. -/

namespace Sys2Proof.Machine

@[simp] theorem State.lane_setLane_same (s : State) (n : Nat) (x : Lane) : (s.setLane n x).lane n = x :=
  Sparse.get_put_same _ _ _ _

theorem State.lane_setLane (s : State) (n m : Nat) (x : Lane) : (s.setLane n x).lane m = if m = n then x else s.lane m :=
  Sparse.get_put _ _ _ _ _

theorem State.lane_setLane_other (s : State) (n m : Nat) (x : Lane) (h : m ≠ n) : (s.setLane n x).lane m = s.lane m := by
  simp [State.lane_setLane, h]

/-- Everything `setLane` does. -/
theorem State.setLane_spec (s t : State) (n : Nat) (x : Lane) (h : t = s.setLane n x) :
    t.lane n = x ∧ (∀ m, m ≠ n → t.lane m = s.lane m) ∧ { t with lanes := s.lanes } = s := by
  subst h
  exact ⟨by simp, fun m hm => State.lane_setLane_other s n m x hm, rfl⟩

@[simp] theorem State.rd_setLane (s : State) (n a : Nat) (x : Lane) : (s.setLane n x).rd a = s.rd a := rfl

@[simp] theorem State.port_setPort_same (s : State) (n : Nat) (x : Port) : (s.setPort n x).port n = x :=
  Sparse.get_put_same _ _ _ _

theorem State.port_setPort (s : State) (n m : Nat) (x : Port) : (s.setPort n x).port m = if m = n then x else s.port m :=
  Sparse.get_put _ _ _ _ _

theorem State.port_setPort_other (s : State) (n m : Nat) (x : Port) (h : m ≠ n) : (s.setPort n x).port m = s.port m := by
  simp [State.port_setPort, h]

/-- Everything `setPort` does. -/
theorem State.setPort_spec (s t : State) (n : Nat) (x : Port) (h : t = s.setPort n x) :
    t.port n = x ∧ (∀ m, m ≠ n → t.port m = s.port m) ∧ { t with ports := s.ports } = s := by
  subst h
  exact ⟨by simp, fun m hm => State.port_setPort_other s n m x hm, rfl⟩

@[simp] theorem State.rd_setPort (s : State) (n a : Nat) (x : Port) : (s.setPort n x).rd a = s.rd a := rfl

@[simp] theorem State.ae_setAe_same (s : State) (n : Nat) (x : Ae) : (s.setAe n x).ae n = x :=
  Sparse.get_put_same _ _ _ _

theorem State.ae_setAe (s : State) (n m : Nat) (x : Ae) : (s.setAe n x).ae m = if m = n then x else s.ae m :=
  Sparse.get_put _ _ _ _ _

theorem State.ae_setAe_other (s : State) (n m : Nat) (x : Ae) (h : m ≠ n) : (s.setAe n x).ae m = s.ae m := by
  simp [State.ae_setAe, h]

/-- Everything `setAe` does. -/
theorem State.setAe_spec (s t : State) (n : Nat) (x : Ae) (h : t = s.setAe n x) :
    t.ae n = x ∧ (∀ m, m ≠ n → t.ae m = s.ae m) ∧ { t with aes := s.aes } = s := by
  subst h
  exact ⟨by simp, fun m hm => State.ae_setAe_other s n m x hm, rfl⟩

@[simp] theorem State.rd_setAe (s : State) (n a : Nat) (x : Ae) : (s.setAe n x).rd a = s.rd a := rfl

@[simp] theorem State.le_setLe_same (s : State) (n : Nat) (x : Le) : (s.setLe n x).le n = x :=
  Sparse.get_put_same _ _ _ _

theorem State.le_setLe (s : State) (n m : Nat) (x : Le) : (s.setLe n x).le m = if m = n then x else s.le m :=
  Sparse.get_put _ _ _ _ _

theorem State.le_setLe_other (s : State) (n m : Nat) (x : Le) (h : m ≠ n) : (s.setLe n x).le m = s.le m := by
  simp [State.le_setLe, h]

/-- Everything `setLe` does. -/
theorem State.setLe_spec (s t : State) (n : Nat) (x : Le) (h : t = s.setLe n x) :
    t.le n = x ∧ (∀ m, m ≠ n → t.le m = s.le m) ∧ { t with les := s.les } = s := by
  subst h
  exact ⟨by simp, fun m hm => State.le_setLe_other s n m x hm, rfl⟩

@[simp] theorem State.rd_setLe (s : State) (n a : Nat) (x : Le) : (s.setLe n x).rd a = s.rd a := rfl

@[simp] theorem State.src_setSrc_same (s : State) (n : Nat) (x : Src) : (s.setSrc n x).src n = x :=
  Sparse.get_put_same _ _ _ _

theorem State.src_setSrc (s : State) (n m : Nat) (x : Src) : (s.setSrc n x).src m = if m = n then x else s.src m :=
  Sparse.get_put _ _ _ _ _

theorem State.src_setSrc_other (s : State) (n m : Nat) (x : Src) (h : m ≠ n) : (s.setSrc n x).src m = s.src m := by
  simp [State.src_setSrc, h]

/-- Everything `setSrc` does. -/
theorem State.setSrc_spec (s t : State) (n : Nat) (x : Src) (h : t = s.setSrc n x) :
    t.src n = x ∧ (∀ m, m ≠ n → t.src m = s.src m) ∧ { t with flt := s.flt } = s := by
  subst h
  exact ⟨by simp, fun m hm => State.src_setSrc_other s n m x hm, rfl⟩

@[simp] theorem State.rd_setSrc (s : State) (n a : Nat) (x : Src) : (s.setSrc n x).rd a = s.rd a := rfl

@[simp] theorem State.chan_setChan_same (s : State) (n : Nat) (x : Chan) : (s.setChan n x).chan n = x :=
  Sparse.get_put_same _ _ _ _

theorem State.chan_setChan (s : State) (n m : Nat) (x : Chan) : (s.setChan n x).chan m = if m = n then x else s.chan m :=
  Sparse.get_put _ _ _ _ _

theorem State.chan_setChan_other (s : State) (n m : Nat) (x : Chan) (h : m ≠ n) : (s.setChan n x).chan m = s.chan m := by
  simp [State.chan_setChan, h]

/-- Everything `setChan` does. -/
theorem State.setChan_spec (s t : State) (n : Nat) (x : Chan) (h : t = s.setChan n x) :
    t.chan n = x ∧ (∀ m, m ≠ n → t.chan m = s.chan m) ∧ { t with tb := s.tb } = s := by
  subst h
  exact ⟨by simp, fun m hm => State.chan_setChan_other s n m x hm, rfl⟩

@[simp] theorem State.rd_setChan (s : State) (n a : Nat) (x : Chan) : (s.setChan n x).rd a = s.rd a := rfl

@[simp] theorem State.shf_setShf_same (s : State) (n : Nat) (x : Shf) : (s.setShf n x).shf n = x :=
  Sparse.get_put_same _ _ _ _

theorem State.shf_setShf (s : State) (n m : Nat) (x : Shf) : (s.setShf n x).shf m = if m = n then x else s.shf m :=
  Sparse.get_put _ _ _ _ _

theorem State.shf_setShf_other (s : State) (n m : Nat) (x : Shf) (h : m ≠ n) : (s.setShf n x).shf m = s.shf m := by
  simp [State.shf_setShf, h]

/-- Everything `setShf` does. -/
theorem State.setShf_spec (s t : State) (n : Nat) (x : Shf) (h : t = s.setShf n x) :
    t.shf n = x ∧ (∀ m, m ≠ n → t.shf m = s.shf m) ∧ { t with shfs := s.shfs } = s := by
  subst h
  exact ⟨by simp, fun m hm => State.shf_setShf_other s n m x hm, rfl⟩

@[simp] theorem State.rd_setShf (s : State) (n a : Nat) (x : Shf) : (s.setShf n x).rd a = s.rd a := rfl

@[simp] theorem State.can_setCan_same (s : State) (n : Nat) (x : Can) : (s.setCan n x).can n = x :=
  Sparse.get_put_same _ _ _ _

theorem State.can_setCan (s : State) (n m : Nat) (x : Can) : (s.setCan n x).can m = if m = n then x else s.can m :=
  Sparse.get_put _ _ _ _ _

theorem State.can_setCan_other (s : State) (n m : Nat) (x : Can) (h : m ≠ n) : (s.setCan n x).can m = s.can m := by
  simp [State.can_setCan, h]

/-- Everything `setCan` does. -/
theorem State.setCan_spec (s t : State) (n : Nat) (x : Can) (h : t = s.setCan n x) :
    t.can n = x ∧ (∀ m, m ≠ n → t.can m = s.can m) ∧ { t with cans := s.cans } = s := by
  subst h
  exact ⟨by simp, fun m hm => State.can_setCan_other s n m x hm, rfl⟩

@[simp] theorem State.rd_setCan (s : State) (n a : Nat) (x : Can) : (s.setCan n x).rd a = s.rd a := rfl

@[simp] theorem State.adcMod_setAdcMod_same (s : State) (n : Nat) (x : AdcMod) : (s.setAdcMod n x).adcMod n = x :=
  Sparse.get_put_same _ _ _ _

theorem State.adcMod_setAdcMod (s : State) (n m : Nat) (x : AdcMod) : (s.setAdcMod n x).adcMod m = if m = n then x else s.adcMod m :=
  Sparse.get_put _ _ _ _ _

theorem State.adcMod_setAdcMod_other (s : State) (n m : Nat) (x : AdcMod) (h : m ≠ n) : (s.setAdcMod n x).adcMod m = s.adcMod m := by
  simp [State.adcMod_setAdcMod, h]

/-- Everything `setAdcMod` does. -/
theorem State.setAdcMod_spec (s t : State) (n : Nat) (x : AdcMod) (h : t = s.setAdcMod n x) :
    t.adcMod n = x ∧ (∀ m, m ≠ n → t.adcMod m = s.adcMod m) ∧ { t with adc := s.adc } = s := by
  subst h
  exact ⟨by simp, fun m hm => State.adcMod_setAdcMod_other s n m x hm, rfl⟩

@[simp] theorem State.rd_setAdcMod (s : State) (n a : Nat) (x : AdcMod) : (s.setAdcMod n x).rd a = s.rd a := rfl

@[simp] theorem State.dmaCh_setDmaCh_same (s : State) (n : Nat) (x : DmaCh) : (s.setDmaCh n x).dmaCh n = x :=
  Sparse.get_put_same _ _ _ _

theorem State.dmaCh_setDmaCh (s : State) (n m : Nat) (x : DmaCh) : (s.setDmaCh n x).dmaCh m = if m = n then x else s.dmaCh m :=
  Sparse.get_put _ _ _ _ _

theorem State.dmaCh_setDmaCh_other (s : State) (n m : Nat) (x : DmaCh) (h : m ≠ n) : (s.setDmaCh n x).dmaCh m = s.dmaCh m := by
  simp [State.dmaCh_setDmaCh, h]

/-- Everything `setDmaCh` does. -/
theorem State.setDmaCh_spec (s t : State) (n : Nat) (x : DmaCh) (h : t = s.setDmaCh n x) :
    t.dmaCh n = x ∧ (∀ m, m ≠ n → t.dmaCh m = s.dmaCh m) ∧ { t with dma := s.dma } = s := by
  subst h
  exact ⟨by simp, fun m hm => State.dmaCh_setDmaCh_other s n m x hm, rfl⟩

@[simp] theorem State.rd_setDmaCh (s : State) (n a : Nat) (x : DmaCh) : (s.setDmaCh n x).rd a = s.rd a := rfl

@[simp] theorem State.safCh_setSafCh_same (s : State) (n : Nat) (x : SafCh) : (s.setSafCh n x).safCh n = x :=
  Sparse.get_put_same _ _ _ _

theorem State.safCh_setSafCh (s : State) (n m : Nat) (x : SafCh) : (s.setSafCh n x).safCh m = if m = n then x else s.safCh m :=
  Sparse.get_put _ _ _ _ _

theorem State.safCh_setSafCh_other (s : State) (n m : Nat) (x : SafCh) (h : m ≠ n) : (s.setSafCh n x).safCh m = s.safCh m := by
  simp [State.safCh_setSafCh, h]

/-- Everything `setSafCh` does. -/
theorem State.setSafCh_spec (s t : State) (n : Nat) (x : SafCh) (h : t = s.setSafCh n x) :
    t.safCh n = x ∧ (∀ m, m ≠ n → t.safCh m = s.safCh m) ∧ { t with saf := s.saf } = s := by
  subst h
  exact ⟨by simp, fun m hm => State.safCh_setSafCh_other s n m x hm, rfl⟩

@[simp] theorem State.rd_setSafCh (s : State) (n a : Nat) (x : SafCh) : (s.setSafCh n x).rd a = s.rd a := rfl

@[simp] theorem State.energy_setEnergy_same (s : State) (n : Nat) (x : Energy) : (s.setEnergy n x).energy n = x :=
  Sparse.get_put_same _ _ _ _

theorem State.energy_setEnergy (s : State) (n m : Nat) (x : Energy) : (s.setEnergy n x).energy m = if m = n then x else s.energy m :=
  Sparse.get_put _ _ _ _ _

theorem State.energy_setEnergy_other (s : State) (n m : Nat) (x : Energy) (h : m ≠ n) : (s.setEnergy n x).energy m = s.energy m := by
  simp [State.energy_setEnergy, h]

/-- Everything `setEnergy` does. -/
theorem State.setEnergy_spec (s t : State) (n : Nat) (x : Energy) (h : t = s.setEnergy n x) :
    t.energy n = x ∧ (∀ m, m ≠ n → t.energy m = s.energy m) ∧ { t with tb := s.tb } = s := by
  subst h
  exact ⟨by simp, fun m hm => State.energy_setEnergy_other s n m x hm, rfl⟩

@[simp] theorem State.rd_setEnergy (s : State) (n a : Nat) (x : Energy) : (s.setEnergy n x).rd a = s.rd a := rfl

@[simp] theorem State.pwmCh_setPwmCh_same (s : State) (n : Nat) (x : PwmCh) : (s.setPwmCh n x).pwmCh n = x :=
  Sparse.get_put_same _ _ _ _

theorem State.pwmCh_setPwmCh (s : State) (n m : Nat) (x : PwmCh) : (s.setPwmCh n x).pwmCh m = if m = n then x else s.pwmCh m :=
  Sparse.get_put _ _ _ _ _

theorem State.pwmCh_setPwmCh_other (s : State) (n m : Nat) (x : PwmCh) (h : m ≠ n) : (s.setPwmCh n x).pwmCh m = s.pwmCh m := by
  simp [State.pwmCh_setPwmCh, h]

/-- Everything `setPwmCh` does. -/
theorem State.setPwmCh_spec (s t : State) (n : Nat) (x : PwmCh) (h : t = s.setPwmCh n x) :
    t.pwmCh n = x ∧ (∀ m, m ≠ n → t.pwmCh m = s.pwmCh m) ∧ { t with pwm := s.pwm } = s := by
  subst h
  exact ⟨by simp, fun m hm => State.pwmCh_setPwmCh_other s n m x hm, rfl⟩

@[simp] theorem State.rd_setPwmCh (s : State) (n a : Nat) (x : PwmCh) : (s.setPwmCh n x).rd a = s.rd a := rfl

@[simp] theorem State.cmpr_setCmpr_same (s : State) (n : Nat) (x : Cmpr) : (s.setCmpr n x).cmpr n = x :=
  Sparse.get_put_same _ _ _ _

theorem State.cmpr_setCmpr (s : State) (n m : Nat) (x : Cmpr) : (s.setCmpr n x).cmpr m = if m = n then x else s.cmpr m :=
  Sparse.get_put _ _ _ _ _

theorem State.cmpr_setCmpr_other (s : State) (n m : Nat) (x : Cmpr) (h : m ≠ n) : (s.setCmpr n x).cmpr m = s.cmpr m := by
  simp [State.cmpr_setCmpr, h]

/-- Everything `setCmpr` does. -/
theorem State.setCmpr_spec (s t : State) (n : Nat) (x : Cmpr) (h : t = s.setCmpr n x) :
    t.cmpr n = x ∧ (∀ m, m ≠ n → t.cmpr m = s.cmpr m) ∧ { t with isl := s.isl } = s := by
  subst h
  exact ⟨by simp, fun m hm => State.cmpr_setCmpr_other s n m x hm, rfl⟩

@[simp] theorem State.rd_setCmpr (s : State) (n a : Nat) (x : Cmpr) : (s.setCmpr n x).rd a = s.rd a := rfl

@[simp] theorem State.scCore_setScCore_same (s : State) (n : Nat) (x : ScCore) : (s.setScCore n x).scCore n = x :=
  Sparse.get_put_same _ _ _ _

theorem State.scCore_setScCore (s : State) (n m : Nat) (x : ScCore) : (s.setScCore n x).scCore m = if m = n then x else s.scCore m :=
  Sparse.get_put _ _ _ _ _

theorem State.scCore_setScCore_other (s : State) (n m : Nat) (x : ScCore) (h : m ≠ n) : (s.setScCore n x).scCore m = s.scCore m := by
  simp [State.scCore_setScCore, h]

/-- Everything `setScCore` does. -/
theorem State.setScCore_spec (s t : State) (n : Nat) (x : ScCore) (h : t = s.setScCore n x) :
    t.scCore n = x ∧ (∀ m, m ≠ n → t.scCore m = s.scCore m) ∧ { t with dsp := s.dsp } = s := by
  subst h
  exact ⟨by simp, fun m hm => State.scCore_setScCore_other s n m x hm, rfl⟩

@[simp] theorem State.rd_setScCore (s : State) (n a : Nat) (x : ScCore) : (s.setScCore n x).rd a = s.rd a := rfl

@[simp] theorem State.launchQ_setLaunch_same (s : State) (n : Nat) (x : List LaunchItem) : (s.setLaunch n x).launchQ n = x :=
  Sparse.get_put_same _ _ _ _

theorem State.launchQ_setLaunch (s : State) (n m : Nat) (x : List LaunchItem) : (s.setLaunch n x).launchQ m = if m = n then x else s.launchQ m :=
  Sparse.get_put _ _ _ _ _

theorem State.launchQ_setLaunch_other (s : State) (n m : Nat) (x : List LaunchItem) (h : m ≠ n) : (s.setLaunch n x).launchQ m = s.launchQ m := by
  simp [State.launchQ_setLaunch, h]

/-- Everything `setLaunch` does. -/
theorem State.setLaunch_spec (s t : State) (n : Nat) (x : List LaunchItem) (h : t = s.setLaunch n x) :
    t.launchQ n = x ∧ (∀ m, m ≠ n → t.launchQ m = s.launchQ m) ∧ { t with net := s.net } = s := by
  subst h
  exact ⟨by simp, fun m hm => State.launchQ_setLaunch_other s n m x hm, rfl⟩

@[simp] theorem State.rd_setLaunch (s : State) (n a : Nat) (x : List LaunchItem) : (s.setLaunch n x).rd a = s.rd a := rfl

@[simp] theorem State.ring1On_setRing1_same (s : State) (n : Nat) (x : Option (Nat × BitVec 64)) : (s.setRing1 n x).ring1On n = x :=
  Sparse.get_put_same _ _ _ _

theorem State.ring1On_setRing1 (s : State) (n m : Nat) (x : Option (Nat × BitVec 64)) : (s.setRing1 n x).ring1On m = if m = n then x else s.ring1On m :=
  Sparse.get_put _ _ _ _ _

theorem State.ring1On_setRing1_other (s : State) (n m : Nat) (x : Option (Nat × BitVec 64)) (h : m ≠ n) : (s.setRing1 n x).ring1On m = s.ring1On m := by
  simp [State.ring1On_setRing1, h]

/-- Everything `setRing1` does. -/
theorem State.setRing1_spec (s t : State) (n : Nat) (x : Option (Nat × BitVec 64)) (h : t = s.setRing1 n x) :
    t.ring1On n = x ∧ (∀ m, m ≠ n → t.ring1On m = s.ring1On m) ∧ { t with net := s.net } = s := by
  subst h
  exact ⟨by simp, fun m hm => State.ring1On_setRing1_other s n m x hm, rfl⟩

@[simp] theorem State.rd_setRing1 (s : State) (n a : Nat) (x : Option (Nat × BitVec 64)) : (s.setRing1 n x).rd a = s.rd a := rfl

@[simp] theorem State.thr_setThr_same (s : State) (n : BitVec 7) (x : Thr) : (s.setThr n x).thr n = x :=
  Sparse.get_put_same _ _ _ _

theorem State.thr_setThr_other (s : State) (n m : BitVec 7) (x : Thr) (h : m ≠ n) : (s.setThr n x).thr m = s.thr m :=
  Sparse.get_put_other _ _ _ _ _ (fun e => h (BitVec.eq_of_toNat_eq e))

@[simp] theorem State.rd_setThr (s : State) (n : BitVec 7) (a : Nat) (x : Thr) : (s.setThr n x).rd a = s.rd a := rfl

@[simp] theorem Le.slot_setSlot_same (x : Le) (i : Nat) (v : Slot) : (x.setSlot i v).slot i = v :=
  Sparse.get_put_same _ _ _ _

theorem Le.slot_setSlot_other (x : Le) (i j : Nat) (v : Slot) (h : j ≠ i) : (x.setSlot i v).slot j = x.slot j :=
  Sparse.get_put_other _ _ _ _ _ h

/-- Everything a change of the record of the precoders of a line does (R84). -/
theorem State.setLine_spec (s : State) (p : Nat) (l : LineAt) :
    { s.setLine p l with ports := s.ports, twn := s.twn } = s ∧ (12 ≤ p → (s.setLine p l).ports = s.ports ∧
      (s.setLine p l).twn = { s.twn with line := l }) ∧
    (p < 12 → (s.setLine p l).twn = s.twn ∧ (s.setLine p l).port p = { s.port p with line := l }) := by
  unfold State.setLine
  split
  · exact ⟨rfl, fun h => absurd h (by omega), fun _ => ⟨rfl, State.port_setPort_same _ _ _⟩⟩
  · exact ⟨rfl, fun _ => ⟨rfl, rfl⟩, fun h => absurd h (by omega)⟩

@[simp] theorem State.rd_setLine (s : State) (p a : Nat) (l : LineAt) : (s.setLine p l).rd a = s.rd a := by
  unfold State.setLine; split <;> rfl

/-- The Gray code and the precoder undo themselves (R83 to R85). -/
@[simp] theorem groupOf_grayOf (g : BitVec 2) : groupOf (grayOf g) = g := by revert g; decide
@[simp] theorem unprecode_precode (y x : BitVec 2) : unprecode y (precode y x) = x := by
  simp [unprecode, precode]

/-- A paired word is whole exactly when both halves have come (R43, R48). -/
@[simp] theorem wholePair_some (v c : Word) : wholePair (some v) (some c) = some (v, c) := rfl
theorem wholePair_eq_some (v c : Option Word) (p : Word × Word) :
    wholePair v c = some p ↔ v = some p.1 ∧ c = some p.2 := by
  cases v <;> cases c <;> simp [wholePair, Prod.ext_iff]

end Sys2Proof.Machine
end

