-- ==== Sys2Proof/Laws/Keeps.lean ====
section
/-! SUPPORT. What the shared operations keep: the canonical form of the register file and the two memories, and the queue
of commands. One lemma for each operation, cited in place of unfolding it. -/

namespace Sys2Proof.Machine

open Sys2Proof.Safety

/-- From `s` to `t` the tables stay canonical and the commands that wait are the same. -/
def Keeps (s t : State) : Prop := (tablesOk s = true → tablesOk t = true) ∧ t.pending = s.pending

theorem Keeps.refl (s : State) : Keeps s s := ⟨id, rfl⟩

theorem Keeps.trans {s t u : State} (h : Keeps s t) (k : Keeps t u) : Keeps s u := ⟨k.1 ∘ h.1, k.2.trans h.2⟩

/-- A change of any part but the tables and the queue. -/
theorem Keeps.same {s t u : State} (h : Keeps s t) (hr : u.regs = t.regs) (ha : u.ram = t.ram) (hm : u.mram = t.mram)
    (hp : u.pending = t.pending) : Keeps s u := by
  refine ⟨fun hs => ?_, hp.trans h.2⟩
  have := h.1 hs
  simpa [tablesOk, hr, ha, hm] using this

theorem Keeps.ite {s t u : State} {c : Prop} [Decidable c] (h : Keeps s t) (k : Keeps s u) : Keeps s (if c then t else u) := by
  split <;> assumption

theorem Keeps.foldl {α : Type} (l : List α) (f : State → α → State) (h : ∀ t a, Keeps t (f t a)) (s : State) :
    Keeps s (l.foldl f s) := by
  induction l generalizing s with
  | nil => exact Keeps.refl s
  | cons a r ih => exact (h s a).trans (ih (f s a))

/-! ## Registers and memories -/

theorem State.wr_keeps (s : State) (a : Nat) (v : Word) : Keeps s (s.wr a v) := by
  refine ⟨fun h => ?_, rfl⟩
  simp only [tablesOk, Bool.and_eq_true] at h ⊢
  exact ⟨⟨State.wr_regs_wf s a v h.1.1, h.1.2⟩, h.2⟩

theorem State.setBit_keeps (s : State) (a i : Nat) : Keeps s (s.setBit a i) := State.wr_keeps s a _
theorem State.clrBit_keeps (s : State) (a i : Nat) : Keeps s (s.clrBit a i) := State.wr_keeps s a _
theorem State.setField_keeps (s : State) (a lo n v : Nat) : Keeps s (s.setField a lo n v) := State.wr_keeps s a _
theorem State.addField_keeps (s : State) (a lo n k : Nat) : Keeps s (s.addField a lo n k) := State.wr_keeps s a _
theorem State.bump_keeps (s : State) (a : Nat) : Keeps s (s.bump a) := State.wr_keeps s a _
theorem State.wrPair_keeps (s : State) (a : Nat) (v : Word) : Keeps s (s.wrPair a v) :=
  (State.wr_keeps s a v).trans (State.wr_keeps _ _ _)

theorem State.setBitIf_keeps (s : State) (c : Bool) (a i : Nat) : Keeps s (s.setBitIf c a i) := by
  unfold State.setBitIf
  exact Keeps.ite (State.setBit_keeps s a i) (Keeps.refl s)

theorem State.putBit_keeps (s : State) (a i : Nat) (b : Bool) : Keeps s (s.putBit a i b) := by
  unfold State.putBit
  exact Keeps.ite (State.setBit_keeps s a i) (State.clrBit_keeps s a i)

theorem State.clearAll_keeps (s : State) (l : List Nat) : Keeps s (s.clearAll l) :=
  Keeps.foldl l _ (fun t a => State.wr_keeps t a 0) s

theorem State.ramWrite_keeps (s : State) (a : Nat) (l : List Byte) : Keeps s (s.ramWrite a l) := by
  refine ⟨fun h => ?_, rfl⟩
  simp only [tablesOk, Bool.and_eq_true] at h ⊢
  exact ⟨⟨h.1.1, Memory.wf_write l s.ram a h.1.2⟩, h.2⟩

theorem State.keyPut_keeps (s : State) (a : Nat) (l : List Byte) : Keeps s (s.keyPut a l) := by
  refine ⟨fun h => ?_, rfl⟩
  simp only [tablesOk, Bool.and_eq_true] at h ⊢
  exact ⟨h.1, Memory.wf_write l s.mram a h.2⟩

/-! ## Parts of the state, free values, time -/

theorem State.setLane_keeps (s : State) (n : Nat) (x : Lane) : Keeps s (s.setLane n x) := (Keeps.refl s).same rfl rfl rfl rfl
theorem State.setPort_keeps (s : State) (n : Nat) (x : Port) : Keeps s (s.setPort n x) := (Keeps.refl s).same rfl rfl rfl rfl
theorem State.setAe_keeps (s : State) (n : Nat) (x : Ae) : Keeps s (s.setAe n x) := (Keeps.refl s).same rfl rfl rfl rfl
theorem State.setLe_keeps (s : State) (n : Nat) (x : Le) : Keeps s (s.setLe n x) := (Keeps.refl s).same rfl rfl rfl rfl
theorem State.setSrc_keeps (s : State) (n : Nat) (x : Src) : Keeps s (s.setSrc n x) := (Keeps.refl s).same rfl rfl rfl rfl
theorem State.setChan_keeps (s : State) (n : Nat) (x : Chan) : Keeps s (s.setChan n x) := (Keeps.refl s).same rfl rfl rfl rfl
theorem State.setShf_keeps (s : State) (n : Nat) (x : Shf) : Keeps s (s.setShf n x) := (Keeps.refl s).same rfl rfl rfl rfl
theorem State.setCan_keeps (s : State) (n : Nat) (x : Can) : Keeps s (s.setCan n x) := (Keeps.refl s).same rfl rfl rfl rfl
theorem State.setSafCh_keeps (s : State) (n : Nat) (x : SafCh) : Keeps s (s.setSafCh n x) :=
  (Keeps.refl s).same rfl rfl rfl rfl
theorem State.setPwmCh_keeps (s : State) (n : Nat) (x : PwmCh) : Keeps s (s.setPwmCh n x) :=
  (Keeps.refl s).same rfl rfl rfl rfl
theorem State.setAdcMod_keeps (s : State) (n : Nat) (x : AdcMod) : Keeps s (s.setAdcMod n x) :=
  (Keeps.refl s).same rfl rfl rfl rfl
theorem State.setDmaCh_keeps (s : State) (n : Nat) (x : DmaCh) : Keeps s (s.setDmaCh n x) :=
  (Keeps.refl s).same rfl rfl rfl rfl
theorem State.setThr_keeps (s : State) (n : BitVec 7) (x : Thr) : Keeps s (s.setThr n x) :=
  (Keeps.refl s).same rfl rfl rfl rfl
theorem State.tick1_keeps (s : State) : Keeps s s.tick1 := (Keeps.refl s).same rfl rfl rfl rfl
theorem State.lifeUp_keeps (s : State) (i : Nat) : Keeps s (s.lifeUp i) := (Keeps.refl s).same rfl rfl rfl rfl
theorem State.keyDue_keeps (s : State) : Keeps s s.keyDue := (Keeps.refl s).same rfl rfl rfl rfl

/-- Everything that passing time does: VT and network time go on, the reference counts, and nothing else changes. -/
theorem State.elapse_spec (s : State) (n : Nat) :
    (s.elapse n).sys.up = s.sys.up + n ∧ (s.elapse n).tb.vt = (if s.sys.going then s.tb.vt + BitVec.ofNat 64 n else s.tb.vt) ∧
      { s.elapse n with tb := s.tb, sys := s.sys, net := s.net } = s ∧
      { (s.elapse n).tb with vt := s.tb.vt } = s.tb ∧ { (s.elapse n).sys with up := s.sys.up } = s.sys ∧
      (s.powered 9 = false → (s.elapse n).net = s.net) := by
  cases h : s.powered 9 <;> simp only [State.elapse, h]
  · exact ⟨rfl, rfl, rfl, rfl, rfl, fun _ => rfl⟩
  · exact ⟨rfl, rfl, rfl, rfl, rfl, fun e => nomatch e⟩

theorem State.elapse_keeps (s : State) (n : Nat) : Keeps s (s.elapse n) := by
  unfold State.elapse
  exact Keeps.ite ((Keeps.refl s).same rfl rfl rfl rfl) ((Keeps.refl s).same rfl rfl rfl rfl)

theorem State.advanceTo_keeps (s : State) (t : BitVec 64) : Keeps s (s.advanceTo t) := State.elapse_keeps s _

/-- A command through a window: its effect where the window is reachable, nothing where it is not (R858). -/
theorem State.via_spec (s : State) (b : Blk) (f : State → State) :
    s.via b f = .next (if s.open b then f s else s) := rfl

/-! ## Power -/

theorem State.resetWindow_keeps (s : State) (b : Blk) : Keeps s (s.resetWindow b) := by
  refine ⟨fun h => ?_, rfl⟩
  simp only [tablesOk, Bool.and_eq_true] at h ⊢
  exact ⟨⟨Sparse.wf_clearRange _ _ _ _ h.1.1, h.1.2⟩, h.2⟩

theorem State.loseBlocks_keeps (s : State) (d : Nat) : Keeps s (s.loseBlocks d) := by
  have hram : ∀ (u : State) (lo hi : Nat), u.regs = s.regs → u.mram = s.mram → u.pending = s.pending →
      u.ram = Sparse.clearRange s.ram lo hi → Keeps s u := by
    intro u lo hi hr hm hp ha
    refine ⟨fun h => ?_, hp⟩
    simp only [tablesOk, Bool.and_eq_true] at h ⊢
    rw [hr, hm, ha]
    exact ⟨⟨h.1.1, Memory.wf_clearRange _ _ _ h.1.2⟩, h.2⟩
  unfold State.loseBlocks
  split <;> first
    | exact (Keeps.refl s).same rfl rfl rfl rfl
    | exact hram _ _ _ rfl rfl rfl rfl

theorem State.domainOff_keeps (s : State) (d : Nat) : Keeps s (s.domainOff d) := by
  unfold State.domainOff
  refine Keeps.ite (Keeps.same ((State.loseBlocks_keeps s d).trans (Keeps.foldl (domainBlks d) _ ?_ _)) rfl rfl rfl rfl)
    (Keeps.refl s)
  exact fun t b => State.resetWindow_keeps t b

theorem State.domainOn_keeps (s : State) (d : Nat) : Keeps s (s.domainOn d) := by
  unfold State.domainOn
  refine Keeps.ite (Keeps.refl s) (Keeps.same (((State.loseBlocks_keeps s d).trans
    (Keeps.foldl (domainBlks d) _ (fun t b => State.resetWindow_keeps t b) _)).trans
    (Keeps.foldl (lanesOf d) _ (fun t n => State.setLane_keeps t n _) _)) rfl rfl rfl rfl)

/-! ## The fault collector: events, reactions and what hangs on them -/

theorem State.setLatch_keeps (s : State) (b : Bool) (t : BitVec 64) : Keeps s (s.setLatch b t) :=
  (Keeps.refl s).same rfl rfl rfl rfl

theorem State.blockNow_keeps (s : State) : Keeps s s.blockNow := by
  unfold State.blockNow
  exact Keeps.ite (State.setLatch_keeps s _ _) ((State.setLatch_keeps s _ _).trans (State.setBit_keeps _ _ _))

/-- The latch as it is set: its change is logged, and undervoltage comparators are disarmed (R290, R395). -/
theorem State.setLatch_true (s : State) (t : BitVec 64) :
    s.setLatch true t = { s with flt := s.flt.latched true t s.now, isl := s.isl.uvOff } := by simp [State.setLatch]

/-- Everything a block request does: the block latch is set and its change logged, undervoltage comparators are disarmed, and
FLT_EVT shows a latch that was clear (R290, R402). -/
theorem State.blockNow_spec (s : State) :
    s.blockNow.flt = s.flt.latched true (s.now + 16) s.now ∧ s.blockNow.isl = s.isl.uvOff ∧
      { s.blockNow with flt := s.flt, regs := s.regs, setAt := s.setAt, isl := s.isl } = s ∧
      (∀ a, a ≠ Reg.FLT_EVT → s.blockNow.rd a = s.rd a) ∧ (s.flt.latch = true → s.blockNow.regs = s.regs) := by
  unfold State.blockNow
  rw [State.setLatch_true]
  generalize s.flt.latched true (s.now + 16) s.now = f
  generalize s.isl.uvOff = i
  cases s.flt.latch
  · exact ⟨rfl, rfl, rfl, fun a ha => State.rd_setBit_other _ _ _ _ ha, fun e => nomatch e⟩
  · exact ⟨rfl, rfl, rfl, fun _ _ => rfl, fun _ => rfl⟩

theorem State.setSticky_keeps (s : State) (n : Nat) (t : BitVec 64) : Keeps s (s.setSticky n t) := by
  unfold State.setSticky
  refine Keeps.trans (Keeps.ite ?_ (Keeps.refl s)) (State.setBit_keeps _ _ _)
  exact ((State.wr_keeps s _ _).trans (State.wr_keeps _ _ _)).trans (State.wr_keeps _ _ _)

theorem State.adcInject_keeps (s : State) (m : Nat) (t : BitVec 64) : Keeps s (s.adcInject m t) := by
  unfold State.adcInject
  split
  · exact Keeps.refl s
  · exact State.setAdcMod_keeps s _ _

theorem State.adcTrigger_keeps (s : State) (t : BitVec 64) : Keeps s (s.adcTrigger t) := by
  unfold State.adcTrigger
  refine Keeps.ite (State.setBit_keeps s _ _) (Keeps.trans ?_ (Keeps.foldl _ _ (fun u m => State.adcInject_keeps u m _) _))
  exact (Keeps.refl s).same rfl rfl rfl rfl

theorem State.eventHook_keeps (s : State) (n : Nat) (t : BitVec 64) : Keeps s (s.eventHook n t) := by
  have h : Keeps s { s with gst := s.gst.event n t } := (Keeps.refl s).same rfl rfl rfl rfl
  unfold State.eventHook State.adcEvent
  exact h.trans (Keeps.ite (State.adcTrigger_keeps _ _) (Keeps.refl _))

theorem State.noteEvent_keeps (s : State) (n : Nat) (t : BitVec 64) : Keeps s (s.noteEvent n t) := by
  have h : Keeps s { s with flt := s.flt.logged n t } := (Keeps.refl s).same rfl rfl rfl rfl
  unfold State.noteEvent
  exact (((h.trans (State.bump_keeps _ _)).trans (State.setSticky_keeps _ _ _)).trans (State.setBitIf_keeps _ _ _ _)).trans
    (State.eventHook_keeps _ _ _)

theorem State.blockBegins_keeps (s : State) : Keeps s s.blockBegins := by
  have h : Keeps s { s with isl := { s.isl with inj := { s.isl.inj with st := .aborted, refusedRun := false } } } :=
    (Keeps.refl s).same rfl rfl rfl rfl
  unfold State.blockBegins State.injAbort
  exact Keeps.ite ((h.trans (State.clrBit_keeps _ _ _)).trans (State.clrBit_keeps _ _ _)) (Keeps.refl s)

theorem State.pwmTake_keeps (s : State) (n : Nat) : Keeps s (s.pwmTake n) := by
  unfold State.pwmTake
  split
  · exact Keeps.refl s
  · exact (((State.wr_keeps s _ _).trans (State.wr_keeps _ _ _)).trans (State.setPwmCh_keeps _ _ _)).trans
      (State.setBitIf_keeps _ _ _ _)

theorem State.pwmCycle_keeps (s : State) (n : Nat) (t : BitVec 64) : Keeps s (s.pwmCycle n t) := by
  have h : Keeps s (if (s.pwmCh n).pendAt = t then s else s.pwmTake n) := Keeps.ite (Keeps.refl s) (State.pwmTake_keeps s n)
  unfold State.pwmCycle
  exact h.trans (Keeps.ite (State.setPwmCh_keeps _ _ _) (State.setPwmCh_keeps _ _ _))

theorem State.pmCause_keeps (s : State) (c : Nat) : Keeps s (s.pmCause c) := by
  unfold State.pmCause
  split <;> exact (Keeps.refl s).same rfl rfl rfl rfl

theorem State.pwmTripEnds_keeps (s : State) : Keeps s s.pwmTripEnds := by
  have h : Keeps s { s with pwm := { s.pwm with trip := false } } := (Keeps.refl s).same rfl rfl rfl rfl
  unfold State.pwmTripEnds
  exact Keeps.ite (h.trans (Keeps.foldl _ _ (fun u n => State.pwmCycle_keeps u n _) _))
    (h.trans (Keeps.foldl _ _ (fun u n => State.setPwmCh_keeps u n _) _))

theorem State.tripEnds_keeps (s : State) : Keeps s s.tripEnds := by
  have h : Keeps s { s with saf := { s.saf with req := false } } := (Keeps.refl s).same rfl rfl rfl rfl
  exact h.trans (State.pwmTripEnds_keeps _)

theorem State.collide_keeps (s : State) (n : Nat) : Keeps s (s.collide n) := by
  unfold State.collide
  refine Keeps.trans (Keeps.trans ?_ (State.wr_keeps _ _ _)) (State.setBit_keeps _ _ _)
  exact (Keeps.refl s).same rfl rfl rfl rfl

theorem State.lockedNow_keeps (s : State) : Keeps s s.lockedNow := (State.bump_keeps s _).trans (State.setBit_keeps _ _ _)

theorem State.tripOn_keeps (s : State) : Keeps s s.tripOn := by
  have h : Keeps s { s with saf := { s.saf with req := true, brkOff := true } } := (Keeps.refl s).same rfl rfl rfl rfl
  unfold State.tripOn State.pwmTrip
  refine h.trans (Keeps.trans (Keeps.trans ?_ (State.setBitIf_keeps _ _ _ _))
    (Keeps.foldl _ _ (fun u n => State.pwmCycle_keeps u n _) _))
  exact (Keeps.refl _).same rfl rfl rfl rfl

theorem State.tripBegins_keeps (s : State) : Keeps s s.tripBegins :=
  ((State.tripOn_keeps s).trans (State.lifeUp_keeps _ _)).trans (State.pmCause_keeps _ _)

theorem State.settle_keeps (b s : State) (t : BitVec 64) : Keeps s (State.settle b s t) := by
  unfold State.settle
  refine Keeps.trans (Keeps.trans (Keeps.trans (Keeps.ite ?_ (Keeps.refl s)) (Keeps.ite (State.tripBegins_keeps _) (Keeps.refl _)))
    (Keeps.ite (State.tripEnds_keeps _) (Keeps.refl _))) (State.setBitIf_keeps _ _ _ _)
  exact (State.setLatch_keeps s _ _).trans (State.blockBegins_keeps _)

theorem State.undo_keeps (s : State) (n : Nat) (t : BitVec 64) : Keeps s (s.undo n t) := by
  unfold State.undo
  extract_lets x
  split
  · exact Keeps.refl s
  · next p _ =>
    refine Keeps.ite ?_ (Keeps.refl s)
    extract_lets s1 s2 s3 s4
    have h1 : Keeps s s1 := (State.setSrc_keeps s n _).trans (State.wr_keeps _ _ _)
    have h2 : Keeps s s2 := h1.trans (State.setBitIf_keeps _ _ _ _)
    have h3 : Keeps s s3 := h2.trans (Keeps.ite (State.wr_keeps _ _ _) (Keeps.refl _))
    have h4 : Keeps s s4 := h3.trans (Keeps.ite (State.keyDue_keeps _) (Keeps.refl _))
    exact h4.trans (Keeps.ite (State.tripOn_keeps _) (Keeps.refl _))

theorem State.takeEvent_keeps (s : State) (n : Nat) (t : BitVec 64) (inj : Bool) : Keeps s (s.takeEvent n t inj) := by
  unfold State.takeEvent
  extract_lets x x' s1 s2 s3 s4
  have h1 : Keeps s s1 := (State.noteEvent_keeps s n t).trans (State.setSrc_keeps _ n _)
  have h2 : Keeps s s2 := h1.trans (Keeps.ite ((State.bump_keeps _ _).trans (State.setBit_keeps _ _ _)) (Keeps.refl _))
  have h3 : Keeps s s3 := h2.trans (Keeps.ite (State.lockedNow_keeps _) (Keeps.refl _))
  have h4 : Keeps s s4 := h3.trans (State.settle_keeps _ _ t)
  exact h4.trans (Keeps.ite (State.setLatch_keeps _ _ _) (Keeps.refl _))

theorem State.takeUnder_keeps (s : State) (n : Nat) (t : BitVec 64) (inj : Bool) : Keeps s (s.takeUnder n t inj) := by
  unfold State.takeUnder
  extract_lets x
  split
  · next u old _ =>
    refine Keeps.ite (State.takeEvent_keeps s n t inj) ?_
    extract_lets _ s1 s2
    have h : Keeps s s2 := ((State.setSrc_keeps s n _).trans (State.takeEvent_keeps _ n t inj)).trans (State.setSrc_keeps _ n _)
    exact Keeps.ite h (h.trans (State.settle_keeps _ _ _))
  · exact State.takeEvent_keeps s n t inj

theorem State.recDue_keeps (s : State) (a b : Nat) : Keeps s (s.recDue a b) :=
  Keeps.ite (Keeps.refl s) (State.keyDue_keeps s)

theorem State.clearAt_keeps (s : State) (n : Nat) (t : BitVec 64) : Keeps s (s.clearAt n t) := by
  unfold State.clearAt
  extract_lets x y s1
  have h1 : Keeps s s1 := (State.setSrc_keeps s n _).trans (State.settle_keeps _ _ t)
  exact (h1.trans (State.setSrc_keeps s1 n _)).trans (State.recDue_keeps _ _ _)

theorem State.collect_keeps (s : State) (n : Nat) (t : BitVec 64) (inj : Bool) : Keeps s (s.collect n t inj) := by
  unfold State.collect
  extract_lets k s0 u hit s1
  refine Keeps.ite (Keeps.ite (State.collide_keeps s _) (Keeps.refl s)) ?_
  have h0 : Keeps s s0 := by
    unfold s0
    split
    · exact State.setSrc_keeps s k _
    · exact Keeps.refl s
  split
  · exact ((h0.trans (State.setSrc_keeps s0 k _)).trans (State.takeUnder_keeps _ k t inj)).trans (State.clearAt_keeps _ k _)
  · have h1 : Keeps s s1 := (h0.trans (State.undo_keeps s0 k t)).trans (State.takeUnder_keeps u k t inj)
    exact h1.trans (Keeps.ite (State.collide_keeps _ _) (Keeps.refl _))

/-! ## The lease -/

theorem State.lineNote_keeps (s : State) (p : Nat) : Keeps s (s.lineNote p) := by
  unfold State.lineNote State.setLine
  exact Keeps.ite (Keeps.ite (State.setPort_keeps s p _) ((Keeps.refl s).same rfl rfl rfl rfl)) (Keeps.refl s)

theorem State.startXfer_keeps (s : State) (f : Option Xfer) : Keeps s (s.startXfer f) :=
  (State.lineNote_keeps s 12).same rfl rfl rfl rfl

theorem State.setLease_keeps (s : State) (l : LeaseSt) : Keeps s (s.setLease l) := by
  unfold State.setLease
  refine Keeps.ite (Keeps.refl s) (Keeps.trans ?_ (State.setBit_keeps _ _ _))
  exact (State.startXfer_keeps s none).same rfl rfl rfl rfl

theorem State.sendMsg_keeps (s : State) (op : BitVec 8) (arg : BitVec 64) : Keeps s (s.sendMsg op arg) :=
  (State.lineNote_keeps s 12).same rfl rfl rfl rfl

theorem State.stopFrames_keeps (s : State) : Keeps s s.stopFrames :=
  Keeps.foldl _ _ (fun t n => State.setPort_keeps t n _) s

theorem State.enginesOff_keeps (s : State) : Keeps s s.enginesOff :=
  ((State.domainOff_keeps s 2).trans (State.domainOff_keeps _ 3)).trans (State.domainOff_keeps _ 4)

theorem State.dropHand_keeps (s : State) : Keeps s s.dropHand := by
  unfold State.dropHand State.twnResult
  exact Keeps.ite (((State.wr_keeps s _ _).trans (State.setBit_keeps _ _ _)).trans (State.collect_keeps _ 203 _ false)) (Keeps.refl s)

theorem State.standDown_keeps (s : State) : Keeps s s.standDown :=
  ((((State.dropHand_keeps s).trans (State.stopFrames_keeps _)).trans (State.setLease_keeps _ _)).trans
    (State.enginesOff_keeps _)).same rfl rfl rfl rfl

theorem State.ill_keeps (s : State) : Keeps s s.ill := by
  have h : Keeps s { s with twn := { s.twn with healthyAt := none } } := (Keeps.refl s).same rfl rfl rfl rfl
  unfold State.ill
  exact h.trans (Keeps.ite (State.standDown_keeps _) (Keeps.refl _))

theorem State.surrender_keeps (s : State) (why what : Nat) : Keeps s (s.surrender why what) := by
  unfold State.surrender
  extract_lets s1 s2 x s3
  have h1 : Keeps s s1 := ((State.stopFrames_keeps s).trans (State.sendMsg_keeps _ _ _)).trans (State.wr_keeps _ _ _)
  have h2 : Keeps s s2 := (h1.trans (State.collect_keeps s1 196 _ false)).trans (State.setBit_keeps _ _ _)
  have h3 : Keeps s s3 := h2.same rfl rfl rfl rfl
  exact (h3.trans (State.setLease_keeps s3 _)).trans (State.enginesOff_keeps _)

theorem State.maskSurrender_keeps (b s : State) (n : Nat) : Keeps s (State.maskSurrender b s n) := by
  unfold State.maskSurrender
  exact Keeps.ite (State.surrender_keeps s 2 n) (Keeps.ite (State.ill_keeps s) (Keeps.refl s))

/-- An event of a fault source, with everything that follows from it. -/
theorem State.raise_keeps (s : State) (n : Nat) : Keeps s (s.raise n) :=
  (State.collect_keeps s n _ false).trans (State.maskSurrender_keeps _ _ _)

theorem State.raiseIf_keeps (s : State) (c : Bool) (n : Nat) : Keeps s (s.raiseIf c n) := by
  unfold State.raiseIf
  exact Keeps.ite (State.raise_keeps s n) (Keeps.refl s)

theorem State.raiseOnce_keeps (s : State) (n : Nat) : Keeps s (s.raiseOnce n) := by
  unfold State.raiseOnce
  refine Keeps.ite (Keeps.refl s) (Keeps.trans ?_ (State.raise_keeps _ n))
  exact (Keeps.refl s).same rfl rfl rfl rfl

end Sys2Proof.Machine
end

