-- ==== Sys2Proof/Tests/Slice0.lean ====
section
/-! SUPPORT. Checks of the model on small states, and for each statement with hypotheses a state and operands that meet
them. Expected values come from the rule each test names. -/

namespace Sys2Proof.Tests

open Sys2Proof.Machine Sys2Proof.Safety

/-- Every domain powered and the timebase locked. -/
def on : State := { sys := { pdOn := 0x3FFF, rail := 0x3FFF, going := true }, tb := { lock := true } }

/-- Only PD0 powered. -/
def pd0Only : State := { sys := { pdOn := 1 } }

/-- A schedule section with port and arm 0 in use, P = 400. -/
def section1 : SchSection :=
  { p := 400, iEnd := 10, eStart := 150, mask := 1
    ports := [{ eEnd := 200, m := 150, ncell := 2, nnode := 1 }], aes := [{ rankAt := 10, selectAt := 70, placeAt := 100 }] }

/-- Periods run at P = 400 with one arm; the next boundary is at tick 400. -/
def running : State :=
  { on with tb := { lock := true, run := true, placed := true, period := 400, nextB := 400 }, sch := { cur := some section1 } }

/-! ## Well-formedness -/

theorem test_key_content_rising : Instr.wellFormed (.keyInsert [(0, 0x4C), (1, 0x4E)]) = true := by decide

theorem test_key_content_falling_refused : Instr.wellFormed (.keyInsert [(1, 0x4C), (0, 0x4E)]) = false := by decide

theorem test_key_content_zero_listed_refused : Instr.wellFormed (.keyInsert [(4, 0)]) = false := by decide

theorem test_key_content_beyond_the_mram_refused : Instr.wellFormed (.keyInsert [(0x8000000, 1)]) = false := by decide

theorem test_key_insert_ill_formed_faults : exec (.keyInsert [(4, 0)]) {} = .fault .illFormed := rfl

theorem wit_idle : (on).pending = [] := rfl

theorem wit_step_goes_on : step { pending := [.timebaseLockLost] } = .next { pending := [] } := rfl

theorem wit_tables_ok : tablesOk (State.wr {} Reg.TB_VT_HI 7) = true := by decide

theorem wit_well_formed : Instr.wellFormed .periodBoundary = true := rfl

theorem wit_ill_formed : Instr.wellFormed (.keyInsert [(0x8000000, 1)]) = false := by decide

theorem wit_unpowered_window : windowOf .chopperArm = some Blk.pwm ∧ pd0Only.open .pwm = false := by decide

theorem wit_unpowered_read : Machine.windowOf 0x200C0008 = some (Blk.pwm, 8) ∧ pd0Only.open .pwm = false := by decide

theorem wit_regs_wf : Sparse.wf Reg.resetAt (State.wr {} Reg.TB_VT_HI 7).regs = true := by decide

theorem wit_pair_value : on.open (PairReg.blk .fltClear) = true := by decide

theorem wit_pair_none_held : on.open (PairReg.blk .keyCmd) = true ∧ on.heldAt (PairReg.addr .keyCmd) = none ∧
    (PairReg.blk .keyCmd).pairRefused = some (Reg.KEY_EVT, 5) := by decide

theorem wit_pair_held : (on.setHeld (PairReg.addr .drfCmd) (some 5)).open (PairReg.blk .drfCmd) = true ∧
    (on.setHeld (PairReg.addr .drfCmd) (some 5)).heldAt (PairReg.addr .drfCmd) = some 5 ∧
    (PairReg.blk .drfCmd).pairRefused = some (Reg.DRF_EVT, 7) := by decide

theorem wit_register_write : Machine.windowOf 0x20010028 = some (Blk.tb, 0x28) ∧ 0x20010028 % 4 = 0 ∧ on.open .tb = true ∧
    (Blk.row .tb 0x28).map RegRow.acc = some .w1c ∧ Blk.row .tb 0x3C = none ∧
    (Blk.row .tb 0).map RegRow.acc = some .ro ∧ (Blk.row .drf 0x10).map RegRow.acc = some .rw := by decide

theorem wit_register_write_ram : Machine.windowOf 0x10000000 = none ∧ (inSram 0x10000000 ∨ inDramB 0x10000000) := by decide

theorem wit_bus_error : on.powered 1 = true ∧ on.accessFails .reserve 0x20000000 = true ∧
    (Machine.windowOf 0x20000000).isSome ∧ on.accessFails .fetch 0x20120000 = true ∧ on.accessFails .load 0x10000000 = false ∧
    on.accessFails .atomic 0x20120000 = true ∧ (Machine.windowOf 0x20120000).isNone ∧ inCaptureMem 0x20120000 = false := by decide

theorem wit_outside_every_window : Machine.windowOf 0x20120000 = none ∧ ¬ (inSram 0x20120000 ∨ inDramB 0x20120000) ∧
    ¬ inRom 0x20120000 := by decide

theorem wit_vt_read : on.powered 1 = true := by decide

theorem wit_clears : on.open (laneBlk 12) = true ∧ on.open (.port 11) = true ∧ on.open (.ae 11) = true ∧ on.open (.le 3) = true ∧
    on.open .flt = true ∧ on.open .gst = true ∧ on.open .twn = true ∧ on.open .mem = true ∧ on.open .fio = true ∧
    on.open .saf = true ∧ on.open (.can 1) = true ∧ on.open .shf = true ∧ on.open .sch = true ∧ on.open .net = true := by decide

theorem wit_boundary : running.tb.placed = true ∧ running.tb.run = true ∧ running.tb.intakeDone = false := by decide

theorem wit_first_boundary : (State.placeOwn on).tb.placed = true ∧ (State.placeOwn on).tb.run = false := ⟨rfl, rfl⟩

theorem wit_before_b0 : on.powered 1 = true ∧ on.tb.run = false := by decide

theorem wit_emit : (State.setPort running 0 { framesOn := true }).inUse (0 : Fin 12) = true ∧ running.tb.run = true ∧
    running.open (.port 0) = true := by decide

theorem wit_emit_planned :
    let s := ({ running with twn := { lease := .duty } }.setPort 0 { plan := .send .fresh {} }).setLane 0 { st := .data, up := true }
    ((s.advanceTo s.emitAt).injRead.port 0).plan = .send .fresh {} ∧ (s.advanceTo s.emitAt).injRead.framesDue 0 = true := by decide

theorem wit_marker : on.powered (islandDomain (33 : Fin 34)) = true ∧
    4 < (timeDiff ((on.replicaTime (33 : Fin 34)).setWidth 16) (5 : BitVec 16)).natAbs ∧
    (timeDiff ((on.replicaTime (33 : Fin 34)).setWidth 16) (4 : BitVec 16)).natAbs ≤ 4 := by decide

theorem wit_word_queued :
    let s := on.setChan (chanKey (6 : Fin 34) (1 : Fin 34)) { used := 1, words := [⟨0, 28, 5⟩], waitSince := some 3 }
    (s.chan (chanKey (6 : Fin 34) (1 : Fin 34))).words = [⟨0, 28, 5⟩] ∧ s.powered (islandDomain (1 : Fin 34)) = true ∧
    s.endpointOk 1 28 = true ∧ s.chanOn (chanKey (6 : Fin 34) (1 : Fin 34)) = true ∧ (s.chan (chanKey (6 : Fin 34) (1 : Fin 34))).used ≠ 0 ∧
    (s.chan (chanKey (6 : Fin 34) (1 : Fin 34))).waitSince = some 3 := by decide

theorem wit_tag_fault :
    let s := on.setChan (chanKey (6 : Fin 34) (1 : Fin 34)) { used := 1, words := [⟨7, 0, 5⟩] }
    (s.chan (chanKey (6 : Fin 34) (1 : Fin 34))).words = [⟨7, 0, 5⟩] ∧ s.powered (islandDomain (1 : Fin 34)) = true ∧
    (⟨7, 0, 5⟩ : HWord).kind = 7 ∧ s.endpointOk 1 3 = false := by decide

theorem wit_channel : on.chanOn (chanKey 6 1) = true ∧ (on.chan (chanKey 6 1)).used = 0 ∧ pd0Only.chanOn (chanKey 6 1) = false := by
  decide

theorem wit_credit_left : (on.chan (chanKey 6 1)).used < chanD (chanKey 6 1) := by
  have h : (on.chan (chanKey 6 1)).used = 0 := by decide
  rw [h]; unfold chanD; omega

theorem wit_no_credit :
    ¬ ((on.setChan (chanKey 6 1) { used := 64 }).chan (chanKey 6 1)).used < chanD (chanKey 6 1) := by
  have : ((on.setChan (chanKey 6 1) { used := 64 }).chan (chanKey 6 1)).used = 64 := by decide
  rw [this]; unfold chanD; omega

theorem wit_pair_rule : (⟨2, 3, 0⟩ : HWord).kind = 2 ∧ (⟨1, 3, 0⟩ : HWord).kind = 1 ∧ (⟨0, 3, 0⟩ : HWord).kind ≠ 1 := by decide

theorem wit_energy :
    let s := on.setEnergy (3 : Fin 12) { count := 65536, missI := 9 }
    s.sys.cfg.par.energy.wE ≤ (s.energy (3 : Fin 12)).count ∧ (s.energy (3 : Fin 12)).void = true := by decide

theorem wit_power : ({} : State).sys.going = false ∧ on.tb.lock = true ∧ on.supplied = true ∧ pd0Only.supplied = false ∧
    (State.supplied { on with sys := { on.sys with riding := some 5 } }) = false ∧ on.sys.pm = none := by decide

theorem wit_domains : on.powered (13 : Fin 14) = true ∧ on.sys.stage ≠ 3 ∧ pd0Only.powered 13 = false := by decide

theorem wit_domain_on : ({ sys := { pdOn := 0x3FFF } } : State).powered (4 : Fin 14) = true ∧
    ({ sys := { pdOn := 0x3FFF } } : State).sys.rail.getLsbD 4 = false := by decide

theorem wit_stage3_rail : let s := State.wr { sys := { pdOn := 0x3FFF, stage := 3 } } Reg.SYS_PD_USE 0x3FFF
    s.powered (2 : Fin 14) = true ∧ s.usesDomain (2 : Fin 14) = true ∧ s.sys.rail.getLsbD 2 = false := by decide

theorem wit_may_switch : let s := State.wr { on with sys := { on.sys with stage := 6, pdOn := 0x3BFF } } Reg.SYS_PD_USE 0x3FFF
    s.maySwitch 10 = true ∧ s.powered 10 = false ∧ s.maySwitch 9 = false ∧ s.mayGoOff (10 : Fin 14) = true ∧
    s.mayGoOff (9 : Fin 14) = false := by decide

theorem wit_lane_off : on.open (laneBlk (11 : Fin 13)) = true ∧ (on.lane (11 : Fin 13)).st = .off ∧ on.mayRun (11 : Fin 13) = true ∧
    on.bitOf (Reg.PRT_LANE_CTL (11 : Fin 13)) 2 = false := by decide

theorem wit_lane_data : let s := ((on.setLane 0 { st := .data, up := true }).wr (Reg.PRT_LANE_CTL 0) 4).setPort 0 { framesOn := true }
    s.open (laneBlk (0 : Fin 13)) = true ∧ (s.lane (0 : Fin 13)).st ≠ .off ∧ s.bitOf (Reg.PRT_LANE_CTL (0 : Fin 13)) 2 = true ∧
    (s.lane (0 : Fin 13)).inData = true ∧ s.armBlocked (0 : Fin 13) = false := by decide

theorem wit_lane_idle : let s := on.setLane 12 { st := .idle }
    s.open (laneBlk (12 : Fin 13)) = true ∧ (s.lane (12 : Fin 13)).st = .idle := by decide

theorem wit_training : let s := on.setLane 3 { st := .phase, ready := 8 }
    (s.lane (3 : Fin 13)).training = true ∧ fieldOf (0x2800 : BitVec 16) 10 2 = 2 ∧ fieldOf (0x2400 : BitVec 16) 10 2 ≠ 2 ∧
    s.leads (3 : Fin 13) = true ∧ (s.lane (3 : Fin 13)).st ≠ .data ∧ (s.stageMet (3 : Fin 13) (.phase 0x1FFF 0xFFFFFFFF)).isSome = true ∧
    (s.stageMet (3 : Fin 13) (.phase 0xFFF 0x1FFF)).isSome = false ∧ (s.lane (3 : Fin 13)).loopEff = 0 := by decide

theorem wit_training_loop : let s := on.setLane 3 { st := .clock, loopEff := 1 }
    (s.lane (3 : Fin 13)).training = true ∧ (s.lane (3 : Fin 13)).prbsTx = false ∧ s.trainSent (3 : Fin 13) = 0x1000 ∧
    (s.lane (3 : Fin 13)).loopEff ≠ 0 ∧ (0x1400 : BitVec 16) ≠ s.trainSent (3 : Fin 13) := by decide

theorem wit_training_follower :
    let s : State := { (on.setLane 12 { st := .phase }) with twn := { secondary := true } }
    (s.lane (12 : Fin 13)).training = true ∧ s.leads (12 : Fin 13) = false ∧
    fieldOf (0x3400 : BitVec 16) 12 4 = (s.lane (12 : Fin 13)).st.code + 1 := by decide

theorem wit_up_data : let s := on.setLane 0 { st := .data }
    (s.lane (0 : Fin 13)).st = .data ∧ (s.lane (0 : Fin 13)).up = false ∧ (s.tb.vt - (s.lane (0 : Fin 13)).stageAt).toNat ≤ 200 := by
  decide

theorem wit_los : let s := on.setLane 12 { st := .data, up := true, prbsRx := true }
    s.open (laneBlk (12 : Fin 13)) = true ∧ (s.lane (12 : Fin 13)).dark .ck = false ∧ (s.lane (12 : Fin 13)).inData = true ∧
    (s.lane (12 : Fin 13)).prbsRx = true ∧ (50001 : Int).natAbs > 50000 := by decide

theorem wit_lol : let s := on.setLane 12 { st := .data, up := true, locked := true, prbsRx := true, prbs0 := { got := 16, reg := 1 } }
    s.open (laneBlk (12 : Fin 13)) = true ∧ (s.lane (12 : Fin 13)).inData = true ∧ (s.lane (12 : Fin 13)).locked = true ∧
    s.prbsCame (12 : Fin 13) (0 : Fin 2) (s.lane (12 : Fin 13)).prbs0 3 = some (s.lane (12 : Fin 13)).prbs0 ∧
    ((s.lane (12 : Fin 13)).prbs0.take 3).2 = false ∧ ((s.lane (12 : Fin 13)).prbs0.take 0).2 = true := by decide

theorem wit_los_back : let s := (on.setLane 0 { st := .fault, dark1 := true }).wr (Reg.PRT_LANE_CTL 0) 8
    s.open (laneBlk (0 : Fin 13)) = true ∧ (s.lane (0 : Fin 13)).dark .d1 = true := by decide

theorem wit_retrain : let s := (on.setLane 0 { st := .fault }).wr (Reg.PRT_LANE_CTL 0) 8
    (s.lane (0 : Fin 13)).st = .fault ∧ (s.lane (0 : Fin 13)).allLit = true ∧ s.bitOf (Reg.PRT_LANE_CTL (0 : Fin 13)) 3 = true := by
  decide

theorem wit_up_block : let s := on.setLane 12 { st := .data, up := true }
    (s.lane (12 : Fin 13)).inData = true ∧ (s.lane (12 : Fin 13)).loopEff = 0 := by decide

set_option exponentiation.threshold 600 in
theorem wit_up_block_bad : let s := on.setLane 5 { st := .data, up := true }
    (s.lane (5 : Fin 13)).inData = true ∧ s.inUse 5 = false ∧ running.inUse 0 = true ∧ running.open (.port 0) = true ∧
    blockValid 5 (s.port 5).slot (0xF <<< 508) = false := by
  have h : upTypeOk 5 (lineField (0xF <<< 508 : BitVec 512) 0 4) = false := by decide
  exact ⟨by decide, by decide, by decide, by decide, by simp only [blockValid, h, Bool.and_false]⟩

theorem wit_report : let s := on.setLane 0 { st := .data, up := true }
    (s.lane (0 : Fin 12)).inData = true ∧ fieldOf (0x003 : BitVec 12) 10 2 = (s.rptPc (0 : Fin 12)).toNat % 4 ∧
    fieldOf (0x403 : BitVec 12) 10 2 ≠ (s.rptPc (0 : Fin 12)).toNat % 4 := by decide

theorem wit_request : let s := ({ on with twn := { lease := .duty } }.setLane 0 { st := .data, up := true }).setPort 0 { blockArm := true }
    s.open (.port (0 : Fin 12)) = true ∧ (s.port (0 : Fin 12)).busy = false ∧ (s.lane (0 : Fin 12)).inData = true ∧ s.holds = true ∧
    s.xaInTime (0 : Fin 12) 0 (s.ctrlTick (0 : Fin 12)) = false ∧
    (s.wr (Reg.PRT_CTL_XA 0) 24).xaInTime (0 : Fin 12) 24 (s.ctrlTick (0 : Fin 12)) = true := by decide

theorem wit_request_refused : on.open (.port (11 : Fin 12)) = true ∧ (on.lane (11 : Fin 12)).inData = false := by decide

theorem wit_ctrl_send : let s := (on.setLane 0 { st := .data, up := true }).setPort 0 { ctrl := [ownCtrl 0x04 allDevices 0] }
    (s.port (0 : Fin 12)).ctrl = [ownCtrl 0x04 allDevices 0] ∧ (s.lane (0 : Fin 12)).inData = true ∧
    s.ctrlFits (0 : Fin 12) (s.ctrlTick (0 : Fin 12)) = true := by decide

theorem wit_answers : let s := on.setPort 0 { echoFw := some ⟨1, 2, 3, 64⟩, barrier := some (7, 90), snapXa := some 5 }
    (s.port (0 : Fin 12)).echoFw = some ⟨1, 2, 3, 64⟩ ∧ (s.port (0 : Fin 12)).echo = none ∧ (s.port (0 : Fin 12)).fwFirst = true ∧
    (s.port (0 : Fin 12)).barrier = some (7, 90) ∧ (s.port (0 : Fin 12)).snapXa.isSome = true := by decide

theorem wit_answers_own : let s := on.setPort 0 { echo := some ⟨1, 2, 3, 64⟩, echoFw := some ⟨1, 3, 32, 64⟩ }
    (s.port (0 : Fin 12)).echo = some ⟨1, 2, 3, 64⟩ ∧ (s.port (0 : Fin 12)).fwFirst = false := by decide

theorem wit_census : let s := on.setPort 0 { cal := .census }
    (s.port (0 : Fin 12)).cal = .census ∧
    censusVerdict (s.devs (0 : Fin 12)) [⟨0, 3, 0, 0⟩] (s.aeTable (0 : Fin 12)).1.redAll (s.aeTable (0 : Fin 12)).1.redFb = .inl (0x12, 0) ∧
    [(⟨0, 3, 0, 0⟩ : CensusRec)] ≠ [] := by decide

theorem wit_census_retry : let s := (on.setLane 0 { st := .data, up := true }).setPort 0 { cal := .failed }
    (s.port (0 : Fin 12)).cal = .failed ∧ (s.lane (0 : Fin 12)).inData = true := by decide

theorem wit_recal : let s := (on.setLane 0 { st := .data, up := true }).setPort 0 { cal := .done, calDone := true }
    s.tb.pc.toNat % 1024 = 0 ∧ (s.lane (0 : Fin 12)).inData = true ∧ (s.port (0 : Fin 12)).calDone = true ∧
    (s.port (0 : Fin 12)).cal = .done := by decide

theorem wit_due : let s := { running with twn := { lease := .duty } }.setLane 0 { st := .data, up := true }
    let u := (s.advanceTo (s.tickAt s.dueAt)).setPort (0 : Fin 12)
      { (s.advanceTo (s.tickAt s.dueAt)).port (0 : Fin 12) with dueDone := true, plan := .none }
    s.tb.run = true ∧ s.inUse (0 : Fin 12) = true ∧ s.open (.port (0 : Fin 12)) = true ∧ (s.port (0 : Fin 12)).dueDone = false ∧
    u.framesDue (0 : Fin 12) = true := by decide

theorem wit_audit : (auditOf (.cmds {}) (some (0, 0xFFFFFFFF))).ok = true := by decide

theorem wit_resume : let s := (on.setLane 0 { st := .data, up := true }).setPort 0 { cmdsOn := false, calDone := true }
    (s.port (0 : Fin 12)).cmdsOn = false ∧ (s.lane (0 : Fin 12)).inData = true ∧ (s.port (0 : Fin 12)).calDone = true ∧
    s.portQuiet (0 : Fin 12) = true := by decide

theorem wit_stages :
    let s := { running with tb := { running.tb with intakeDone := true } }
    s.aeOn 0 = true ∧ s.computes = true ∧ (s.ae 0).rank = none ∧ (s.ae 0).stop = false ∧ (s.ae 0).selStarted = false ∧
    (s.ae 0).order = none ∧ (s.advanceTo (s.tickAt (s.sec.ae 0).rankAt)).aeBusy 0 0 = false ∧
    (s.advanceTo (s.tickAt (s.sec.ae 0).selectAt)).aeBusy 0 1 = false ∧ s.rd (Reg.TWN_SURR_MASK 7) = 0 := by decide

theorem wit_select :
    let s := running.setAe 0 { order := some (0x10000, 0xFFFEFFFF), current := some (5, 0xFFFFFFFA), rank := some [] }
    s.aeOn 0 = true ∧ s.computes = true ∧ (s.ae 0).stop = false ∧ (s.ae 0).selStarted = false ∧
    pairOk (0x10000 : Word) 0xFFFEFFFF = true ∧ (s.advanceTo (s.tickAt (s.sec.ae 0).selectAt)).aeBusy 0 1 = false := by decide

theorem wit_place :
    let s := running.setAe 0 { sel := some (some ⟨[], false, none⟩) }
    s.aeOn 0 = true ∧ s.computes = true ∧ (s.ae 0).stop = false ∧
    (s.advanceTo (s.tickAt (s.sec.ae 0).placeAt)).aeBusy 0 2 = false := by decide

theorem wit_order :
    running.aeOn 0 = true ∧ (running.ae 0).selStarted = false ∧ (running.ae 0).stop = false ∧
    running.pastTick (running.sec.ae 0).selectAt = false ∧ pairOk (7 : Word) 0xFFFFFFF8 = true ∧ running.staleXfer 0 = false ∧
    running.staleXfer 0xFFFF = true ∧ pairFine (some ((7 : Word), 0xFFFFFFF8)) = true ∧ pairFine none = true ∧ running.inUse 0 = true ∧
    (running.port 0).dueDone = false ∧ running.pastTick running.dueAt = false := by decide

theorem wit_window_end : let s := running.setAe 0 { winCount := 4096 }
    s.aeOn 0 = true ∧ (s.ae 0).par.wSw ≤ (s.ae 0).winCount ∧ s.inPer = 0 ∧ running.per = 400 ∧
    (s.advanceTo 3).inPer ≠ 0 := by decide

theorem wit_cell_cmd : let s := running.setAe 0 { cells := [{ out := 5 }] }
    s.open (.ae 0) = true ∧ 0 < (s.ae 0).cells.length ∧ s.releaseOk 0 (cellAt (s.ae 0).cells 0) = true ∧
    (s.ae 0).cells.length ≤ 1 := by decide

theorem wit_witness : let s := on.setLane 3 { st := .data, up := true }
    (s.lane (3 : Fin 12)).inData = true ∧ pairOk (7 : BitVec 16) 0xFFF8 = true ∧ pairOk (7 : BitVec 16) 7 = false ∧ s.inUse 3 = false := by decide

/-- A section with one cue of block ADD and two crossings. -/
def section2 : SchSection :=
  { section1 with cues := [[{ start := 5, block := 0x01, lanes := 1 }]], xings := [{ src := 0x10, dst := 0x20, kind := 3 }] }

theorem wit_cue : let s := { running with sch := { cur := some section2 } }
    (s.sec.cueList 0)[0]? = some { start := 5, block := 0x01, lanes := 1 } ∧ (blkShape 0x01).isSome = true ∧
    s.tb.run = true ∧ s.open (.le 0) = true ∧ s.computes = true ∧ s.staleXfer 0 = false ∧ s.staleXfer 0xFFFF = true ∧
    s.powered (islandDomain (codeIsland 0x20)) = true ∧ cueXing 0x0005000000060000 = 0 ∧ (s.le 0).entryOk 0 = true ∧
    s.cueBusy 0 { start := 5, block := 0x01, lanes := 1 } ⟨2, 1, 4, 0, 0, false⟩ = false ∧ s.sec.xings[0]? = some { src := 0x10, dst := 0x20, kind := 3 } := by decide

theorem wit_inj : on.open (.le 0) = true ∧ on.isl.inj.active = false ∧
    (on.wr Reg.LE_INJ_CTL (putField 1 16 ||| putField 0 8)).injMay = false := by decide

theorem wit_inj_allowed :
    let s := ({ running with
      isl := { injAllow := true, injAmp := [0x40000000], inj := { freqs := [(0, 0x42C80000)] } }
      sch := { cur := some { section1 with cues := [[{ block := 0x2B, lanes := 1 }]] } } }.wr Reg.LE_INJ_NF 1).wr
      Reg.LE_INJ_AMP 0x3F800000
    s.open (.le 0) = true ∧ s.isl.inj.active = false ∧
    (s.wr Reg.LE_INJ_CTL (putField 1 16 ||| putField 0 8)).injMay = true := by decide

theorem wit_inj_run : let s := { on with isl := { inj := { st := .measuring, len := 4, k := 4 } } }
    s.isl.inj.active = true ∧ s.isl.inj.st = .measuring ∧ s.isl.inj.len ≤ s.isl.inj.k ∧ s.injMode ≠ 3 := by decide

theorem wit_inj_step :
    let s := ({ on with isl := { inj := { st := .measuring, len := 4, k := 4 } } }.wr Reg.LE_INJ_NF 2).wr Reg.LE_INJ_CTL 0x30000
    s.isl.inj.active = true ∧ s.injMode = 3 ∧ s.isl.inj.idx + 1 < s.injNf := by decide

theorem wit_no_marks : noMarks on := by unfold noMarks; decide

theorem wit_event : srcOf (fieldOf (0x0005200000000000 : BitVec 64) 40 8) = 32 ∧ reservedSrc 32 = false ∧
    nearest16 on.now (BitVec.ofNat 16 (fieldOf (0x0005200000000000 : BitVec 64) 48 16)) = 5 ∧
    (on.src 32).seen 5 = false ∧ (on.src 32).clearedAfter 5 = none ∧ (on.src 32).was = none ∧ on.entryDue 32 = none ∧ (on.src 15).seen on.now = false := by decide

theorem wit_event_reserved : srcOf (fieldOf (0x0005140000000000 : BitVec 64) 40 8) = 15 := by decide

theorem wit_event_seen : let s := on.setSrc 32 { st := .active, last := some 5, ticks := [5] }
    (s.src 32).seen 5 = true := by decide

theorem wit_event_cleared :
    let s := on.setSrc 32 { prior := some ⟨9, .locked, false, 0, [], false, true, false, 0⟩ }
    (s.src 32).seen 5 = false ∧ ((s.src 32).clearedAfter 5).isSome = true := by decide

theorem wit_lull : let s := on.setSrc 64 { st := .active, last := some 5 }
    (s.src 64).st = .active ∧ (s.src 64).last = some 5 ∧ s.open .flt = true ∧ (s.src 64).broken = false ∧
    (s.src 64).recCnt < 255 ∧ (s.src 65).st ≠ .active := by decide

theorem wit_clear : let s := on.setSrc 64 { st := .locked, last := some 5, recCnt := 2 }
    s.open .flt = true ∧ (s.src 64).st ≠ .active ∧ (s.src 64).eventNow s.now = false ∧ s.flt.selfFails = false ∧
    0 < (s.src 64).recCnt := by decide

theorem wit_clear_refused : let s := on.setSrc 64 { st := .locked, last := some on.now, ticks := [on.now] }
    s.open .flt = true ∧ (s.src 64).st ≠ .active ∧ (s.src 64).eventNow s.now = true ∧
    { s.flt with selfBad := true }.selfFails = true := by decide

theorem wit_inject : let s := ({ on with flt := { factory := true } }.wr Reg.FLT_INJ_AT 1000)
    s.open .flt = true ∧ s.flt.factory = true ∧ s.flt.inj = none ∧ reservedSrc 32 = false ∧
    1000 ≤ timeDiff (s.rd Reg.FLT_INJ_AT) (s.now.setWidth 32) := by decide

theorem wit_fire : let s := { on with flt := { inj := some ⟨50, 32⟩ } }
    s.flt.inj = some ⟨50, 32⟩ ∧ (s.src 32).seen 50 = false ∧ (s.src 32).clearedAfter 50 = none ∧ (s.src 32).latest 50 = true ∧
    (s.advanceTo (s.now + BitVec.ofNat 64 (timeDiff (50 : BitVec 32) (s.now.setWidth 32)).toNat)).now = 50 := by decide

theorem wit_deblock : let s := { on with sys := { on.sys with ready := true }, twn := { lease := .duty } }
    s.open .flt = true ∧ s.deblockOk = true ∧ on.deblockOk = false ∧ s.open (.port 3) = true := by decide

theorem wit_gust : let s := running.wr Reg.GST_CFG 0x20000040
    s.open .gst = true ∧ s.gstArmOk = true ∧ on.gstArmOk = false ∧ s.gst.captures = false ∧ s.gst.st = .idle ∧
    s.gstShareRx = true ∧ (s.wr Reg.TWN_CFG 1).twinEn = true := by decide

theorem wit_gust_armed : let s := { running with gst := { st := .armed, armAt := some 0xFFFFFFFF } }
    s.gst.captures = true ∧ s.gst.st = .armed ∧ s.gstCurrent = none ∧ (0xFFFFFFFF : BitVec 32) ≠ s.tb.pc ∧ s.inPer = 0 := by decide

/-- A captured period. -/
def row (pc : BitVec 32) : GstPer :=
  { pc := pc, idx := 0, p := 400, vtB := 0, ntB := 0, ntValid := false, react := 0, epoch := 0, mask := 1, ncells := [2], first := false }

/-- An armed recorder with the rows of the period in progress and of the one before. -/
def capturing : State :=
  ({ running with
    tb := { running.tb with pc := 5 }
    gst := { st := .armed, planeOn := true, live := [row 5, row 4, row 3] } }.wr Reg.GST_CFG 0x20000040).wr
    Reg.TWN_CFG 1

theorem wit_trace_word :
    capturing.powered 7 = true ∧ capturing.gst.captures = true ∧
    capturing.tb.pc + BitVec.ofInt 32 (timeDiff (5 : BitVec 16) (capturing.tb.pc.setWidth 16)) = 5 ∧
    ((capturing.wr (Reg.GST_CH_SRC 0) 0x100).gst.live.any fun r => r.pc == 5 && capturing.rowOpen r) = true ∧ capturing.gstSrc 0 ≠ 1 ∧
    (capturing.gst.live.any fun r => r.pc == 2 && capturing.rowOpen r) = false ∧ pcLe 2 capturing.tb.pc = true := by decide

theorem wit_row_close : (capturing.gstClosing).map (·.pc) = some 3 ∧ (capturing.gst.find 3).isSome = true ∧
    (capturing.gst.find 4).isSome = true ∧ capturing.gst.planeOn = true := by decide

theorem wit_fire_receive : capturing.open .gst = true ∧ capturing.gstShareRx = true ∧ capturing.twinEn = true ∧
    (capturing.gstNamed 0).isSome = true ∧ capturing.gst.st = .armed ∧ capturing.gstHoldoff = false ∧
    capturing.gstNamed 5000 = none ∧ capturing.gstOlder 5000 = none := by decide

theorem wit_fire_moves : let s := { capturing with gst := { capturing.gst with st := .triggered, trig := some 5 } }
    s.gstNamed (0 - 100) = none ∧ s.gstOlder (0 - 100) = some (2, 0 - 400) ∧ s.gst.trig = some 5 ∧ pcLe 2 5 = true := by decide

/-- The twin port in DATA with TWIN_EN set. -/
def twinOn : State := (running.setLane 12 { st := .data, up := true }).wr Reg.TWN_CFG 1

/-- A message with a whole epoch pair. -/
def msg (arg : BitVec 64) : TwMsgIn := { epoch := 5, epochC := 0xFFFA, pc := 0, vt := 0, arg := arg, phase := 0 }

theorem wit_message : twinOn.twinUp = true ∧ pairOk (msg 0).epoch (msg 0).epochC = true ∧ twinOn.holds = false ∧
    twinOn.twn.claim = none ∧ 0 < timeDiff (msg 0).epoch twinOn.epoch ∧ fieldOf (msg 3).arg 0 4 ≠ 6 ∧
    twinOn.rd (Reg.TWN_SURR_MASK 0) = 0 := by decide

theorem wit_message_zephyr : let s := { twinOn with twn := { lease := .zephyr } }
    s.twinUp = true ∧ s.twn.lease = .zephyr ∧ s.twn.mustHeal = false ∧ s.twn.claim = none := by decide

theorem wit_message_handing :
    let s := { twinOn with twn := { lease := .handing, hand := some {}, secondary := true } }.setLane 0 { st := .data, up := true }
    s.twinUp = true ∧ s.twn.lease = .handing ∧ s.twn.hand = some {} ∧ s.portsTrained = true := by decide

theorem wit_message_duty : let s := { twinOn with twn := { lease := .duty, secondary := true, epochKnown := true } }
    s.twinUp = true ∧ s.duty = true ∧ s.twn.secondary = true ∧ s.tb.run = true ∧ s.twn.epochKnown = true := by decide

theorem wit_message_echo : let s := { twinOn with tb := { lock := true }, twn := { echoAt := some 3 } }
    s.twinUp = true ∧ s.twn.echoAt = some 3 ∧ s.twn.ofsSet = false ∧ s.tb.run = false := by decide

theorem wit_renew_send : let s := { twinOn with twn := { lease := .duty } }.setLane 0 { st := .data, up := true }
    s.duty = true ∧ s.twinUp = true ∧ s.rd (Reg.TWN_SURR_MASK 7) = 0 ∧ s.inUse (0 : Fin 12) = true ∧
    (s.lane (0 : Fin 12)).inData = true ∧ s.tb.run = true ∧ s.inPer = 0 ∧ s.twn.ckptAt = none ∧ s.twn.lease ≠ .warm := by decide

theorem wit_echo_send : let s := { twinOn with twn := { secondary := true } }
    s.twinUp = true ∧ s.timeOwner = false ∧ s.twn.ofsSet = false := by decide

theorem wit_query_send : let s := { twinOn with twn := { lease := .claiming, claim := some { step := .rule, fromInit := true } } }
    s.twn.lease = .claiming ∧ s.twn.claim = some { step := .rule, fromInit := true } := by decide

theorem wit_live_capture : let s := { twinOn with twn := { lease := .handing, hand := some { h := 1 } } }
    s.twn.lease = .handing ∧ s.twn.hand = some { h := 1 } ∧ s.tb.pc = ({ h := 1 } : Hand).h - 1 := by decide

theorem wit_view_expiry : let s := { twinOn with twn := { lease := .zephyr, viewTo := some 9 } }
    s.twn.viewTo = some 9 ∧ s.twn.lease = .zephyr ∧ s.twn.mustHeal = false ∧ s.twn.claim = none := by decide

theorem wit_claim_steps : let s := { twinOn with twn := { claim := some { step := .restore } } }
    s.twn.claim = some { step := .restore } ∧ s.restorable = none ∧ s.rd (Reg.TWN_SURR_MASK 3) = 0 := by decide

theorem wit_claim_send :
    let s := { twinOn with twn := { lease := .claiming, claim := some { step := .rule, metAt := some 0, fromInit := true } } }.setLane 0
      { st := .data, up := true }
    s.twn.lease = .claiming ∧ s.since 0 s.claimDelay = true ∧ s.inUse 0 = true ∧ (s.lane 0).inData = true ∧
    s.sec.mask = 1 := by decide

theorem wit_claim_delay :
    let s := ({ twinOn with twn := { lease := .claiming, secondary := true } }).wr Reg.TWN_CFG 0x00640001
    0 < s.claimDelay := by decide

theorem wit_partner_timeout : let s := { on with sys := { on.sys with stage := 4 } }
    s.twn.lease = .init ∧ 4 ≤ s.sys.stage ∧ s.twn.ofsSet = false ∧ s.twn.partner = none := by decide

theorem wit_reclaim_timer :
    let s := { on with
      sys := { on.sys with ready := true }, lanes := [(12, { st := .data, up := true })]
      twn := { lease := .zephyr, healthyAt := some 0, partner := some { lease := 3 } } }.wr Reg.TWN_CFG 5
    s.healthy = true ∧ s.twn.healthyAt = some 0 ∧ s.twinEn = true ∧ s.bitOf Reg.TWN_CFG 2 = true ∧ s.twn.secondary = false := by
  decide

theorem wit_checkpoint : let s := { twinOn with twn := { lease := .zephyr, partner := some { lease := 3 } } }
    s.twinUp = true ∧ s.holds = false ∧ s.twn.lease ≠ .warm ∧ ckptValid [] = false ∧
    s.twn.partner = some { lease := 3 } := by decide

theorem wit_live : let s := { twinOn with twn := { lease := .warm, hand := some { h := 1 } } }
    s.twn.lease = .warm ∧ s.twn.hand = some { h := 1 } ∧ s.twinUp = true ∧ reached (s.liveBy 1) s.now = true ∧
    s.rd (Reg.TWN_SURR_MASK 0) = 0 ∧ s.open .twn = true := by decide

theorem wit_twn_cmd : let s := { twinOn with twn := { lease := .duty, partner := some { lease := 1, healthy := true } } }
    s.open .twn = true ∧ s.duty = true ∧ s.twinEn = true ∧ s.partnerReady = true := by decide

theorem wit_stage_two : let s := { on with sys := { on.sys with stage := 2 } }
    s.sys.going = true ∧ s.sys.stage = 2 ∧ s.key.present = false ∧ keyHeaderOk s.mram = false := by decide

theorem wit_first_boundary_place :
    let s := { on with sys := { on.sys with stage := 4 }, sch := { cur := some section1 } }
    s.sys.stage = 4 ∧ s.tb.placed = false ∧ s.sch.cur.isSome = true ∧ s.twinEn = false ∧ s.firstBoundary = 1002 := by decide

theorem wit_ready : let s := { running with
      sys := { on.sys with stage := 5 }, twn := { lease := .duty }, lanes := [(0, { st := .data, up := true })]
      ports := [(0, { censusOk := true, calDone := true })] }
    s.sys.stage = 5 ∧ s.portsReady = true ∧ s.leaseReady = true := by decide

theorem wit_key_cmd :
    let s := ((({ on with key := { present := true } }.wr Reg.KEY_LEN 16).wr Reg.KEY_BUF_HI 2).wr Reg.KEY_ADDR 0x1000000)
    s.open .key = true ∧ s.keyMay ⟨1, 0, 0x1000000, 16, 0x200000000, false⟩ = true ∧ s.keyMay ⟨4, 1, 0, 0, 0, false⟩ = true ∧
    on.keyMay ⟨4, 0, 0, 0, 0, false⟩ = false ∧ s.keyBuf = 0x200000000 := by decide

theorem wit_key_done : let s := { on with key := { present := true, cmd := some ⟨2, 0, 0x1000000, 1, 0x200000000, false⟩ } }
    s.key.cmd = some ⟨2, 0, 0x1000000, 1, 0x200000000, false⟩ ∧ s.key.present = true := by decide

theorem wit_key_insert : State.reset.key.present = false ∧ State.reset.sys.going = false ∧
    Instr.wellFormed (.keyInsert [(0, 0x4C)]) = true := by decide

theorem wit_counter_write : let s := { on with key := { present := true, id := some 0, due := some 4 } }
    s.key.present = true ∧ s.key.foreign = false ∧ s.key.due.isSome = true ∧ s.key.id.isSome = true := by decide

theorem wit_key_remove : let s := { on with key := { present := true } }
    s.key.present = true ∧ s.key.id = none := by decide

theorem wit_draft : let s := { on with sys := { on.sys with stage := 6 }, drf := { st := .staging } }
    s.open .drf = true ∧ s.draftOpenNow = true ∧ s.drf.st ≠ .pending ∧ s.drf.st ≠ .checking ∧ s.draftSource = [] := by decide

theorem wit_commit : let s := { on with sys := { on.sys with stage := 6 }, drf := { st := .checked } }.wr Reg.DRF_COMMIT_PC 16
    s.draftOpenNow = true ∧ 16 ≤ timeDiff (s.rd Reg.DRF_COMMIT_PC) s.tb.pc ∧ s.inHandover (s.rd Reg.DRF_COMMIT_PC) = false ∧
    timeDiff (on.rd Reg.DRF_COMMIT_PC) on.tb.pc < 16 := by decide

theorem wit_commit_boundary :
    let s := { running with drf := { st := .pending, pendAt := some 0, set := { sch := some section1 } } }
    s.drf.st = .pending ∧ s.drf.pendAt = some s.tb.pc ∧ s.now = s.tb.bound ∧ s.drf.set.sch = some section1 := by decide

theorem wit_load_source :
    let s := (({ on with ram := [(0x200000000, 1)] }.wr Reg.DRF_SRC_HI 2)).draftSource
    s.length = 16 ∧ draftType (bytesAt s 0 2) = true := by decide

theorem wit_feeds : on.sys.going = true ∧ on.sys.feedBad.getLsbD 1 = false ∧ on.sys.riding = none ∧ on.sys.shed = .none ∧
    (1700#16).toNat < 1800 ∧ 3300 < (3400#16).toNat ∧ on.rd (Reg.TWN_SURR_MASK 0) = 0 := by decide

theorem wit_measure : let s := on.wr Reg.SYS_HOLD_C 1400
    s.eReq ≤ s.usableAt 7000 := by decide

theorem wit_shed : let s := { running with sys := { on.sys with riding := some 5 } }
    s.sys.riding = some 5 ∧ s.eUsable ≤ s.eReq ∧ s.standbyReady = false ∧ s.armsBlocked = false ∧
    s.eReq < (s.wr Reg.SYS_HOLD_E 0x0FFF0071).eUsable := by decide

theorem wit_shed_standby :
    let s := { twinOn with
      sys := { on.sys with riding := some 5 }, twn := { lease := .duty, partner := some { lease := 1, healthy := true } } }
    s.standbyReady = true ∧ s.eUsable ≤ s.eReq := by decide

theorem wit_shed_waiting : let s := { running with sys := { on.sys with shed := .waiting }, ports := [(0, { blockArm := true })] }
    s.sys.shed = .waiting ∧ s.armsBlocked = true := by decide

/-- A cause for a record. -/
def due : PmDue := { cause := 0, at_ := 0, nt := 0, pc := 0, epoch := 0, lease := 0, feeds := 0, snap := [] }

theorem wit_record : let s := { on with sys := { on.sys with pmDue := [due] }, key := { present := true } }.wr Reg.SYS_HOLD_C 1400
    s.sys.pmDue = [due] ∧ s.sys.pm = none ∧ s.sys.shed = .none ∧ s.key.present = true ∧ s.key.foreign = false ∧
    10 ≤ s.usableAt 7000 ∧ s.rd (Reg.TWN_SURR_MASK 0) = 0 := by decide

theorem wit_record_done : let s := { on with
      sys := { on.sys with pm := some { first := due, cause := 1, flags := 0, slot := 3, seq := 9, eUsable := 0, eReq := 0, body := [] } }
      key := { present := true } }
    s.sys.pm.isSome = true ∧ s.sys.shed = .none ∧ s.key.present = true := by decide

theorem wit_cutoff : let s := on.wr (Reg.SYS_TEMP_S 3) 951
    s.tempOf 3 = some 951 ∧ (tempLevels 3).2.2 < 951 ∧ on.sys.going = true := by decide

theorem wit_net : let s := { on with net := { link := 1, held := some (⟨1, 2, [], false⟩, 7), lifeTo := some 4 } }
    s.open .net = true ∧ s.net.link.getLsbD 0 = true ∧ s.net.link.getLsbD 1 = false ∧ s.prpMode = false ∧
    s.net.front = none ∧ s.headDesc 0 0 = none ∧ s.isOrder 0 (List.replicate 14 0) = false ∧
    s.ordCheck 0 [] = 1 := by decide

theorem wit_net_prp :
    let s := { on with sys := { on.sys with cfg := { net := { bytes := [1] } } }, net := { trailerAt := [(1, some 4)] } }
    s.open .net = true ∧ s.prpMode = true ∧ Sparse.get (fun _ => none) s.net.trailerAt 1 = some 4 := by decide

theorem wit_net_prp_order : let s := { on with
      sys := { on.sys with cfg := { net := { bytes := [1] } } }, net := { link := 3, prpSeen := [⟨7, 8, 0, 0, none⟩] } }
    s.open .net = true ∧ s.net.link.getLsbD 1 = true ∧ s.prpMode = true ∧ (11#4).toNat = 0xA + (1 : Fin 2).val ∧
    (s.prpLive.any fun e => e.mac == 7 && e.seq == 8) = true ∧ (s.prpLive.any fun e => e.mac == 7 && e.seq == 9) = false := by
  decide

theorem wit_status_skip : let s := { on with
      sys := { on.sys with cfg := { net := { bytes := List.replicate 0x44 0 ++ [100] } } }, net := { nt := 0x100000000 } }
    s.statPer ≠ 0 ∧ 0 < s.statSkips ∧ 0 < timeDiff (BitVec.ofNat 32 (s.statSkips * 125 * s.statPer)) s.ntLow := by decide

theorem wit_ring :
    let s := ({ on with ram := [(0x20000000A, 1)] }.wr (Reg.NET_RING_SIZE 2 0) 4).wr (Reg.NET_RING_BASE_HI 2 0) 2
    ((s.setField (Reg.NET_RING_PTR 2 0) 0 10 1).headDesc 2 0).map (·.1) = some 0 := by decide

theorem wit_net_time : on.open .net = true ∧ (5000000#32).toInt = 5000000 ∧ (0#32).toInt.natAbs ≤ on.netField 0x58 4 ∧
    on.netField 0x58 4 < (1#32).toInt.natAbs ∧ Sparse.get (fun _ => []) on.net.txts 0 = [] := by decide

theorem wit_net_sends :
    let s := { on with net := { servoAt := some 3, launch := [(0, [.status 0 [1]])], sending := [(1, some (.status 0 [2], 9))]
                                txts := [(0, [(1, 2, 3)])] } }.setBit (Reg.NET_PORT_CTL 0) 0
    s.net.servoAt = some 3 ∧ s.launchQ 0 = [.status 0 [1]] ∧ Sparse.get (fun _ => none) s.net.sending 1 = some (.status 0 [2], 9) ∧
    Sparse.get (fun _ => []) s.net.txts 0 = [(1, 2, 3)] ∧ timeDiff s.ntLow 0 ≤ s.field (Reg.NET_LATE_WIN 0) 0 16 ∧
    s.launchMay 0 (.status 0 [1]) = true ∧ s.txEnds 0 = none ∧ (s.launchTurn 0 (.status 0 [1])).launchQ 0 = [.status 0 [1]] ∧
    (s.launchTurn 0 (.status 0 [1])).regs = s.regs := by decide

theorem wit_net_guard :
    let s := { on with net := { launch := [(0, [.status 90 [1]])] } }.setBit (Reg.NET_PORT_CTL 0) 1
    s.bitOf (Reg.NET_PORT_CTL 0) 1 = true ∧ s.guardOk 0 60 s.net.count = true ∧ s.guardOk 0 70 s.net.count = false := by decide

theorem wit_net_late : let s := { on with net := { nt := 0x100000000000, launch := [(0, [.status 0 [1]])] } }
    s.field (Reg.NET_LATE_WIN 0) 0 16 < timeDiff s.ntLow 0 := by decide

theorem wit_threads : let s := (on.setThr 5 { st := .blocked, affinity := 1 }).setThr 6 { st := .running, affinity := 1 }
    s.open .dsp = true ∧ (s.thr 4).st = .free ∧ (s.thr 5).st = .blocked ∧ (s.thr 6).st = .running ∧ s.nextThr 0 = none ∧
    s.curThr 0 = none ∧ s.nextThr 0 ≠ some 5 := by decide

theorem wit_threads_named :
    let s := ((on.setThr 6 { st := .running, affinity := 1 }).wr (Reg.DSP_CUR 0) 0x80000006).wr (Reg.DSP_NEXT 0) 0x80000006
    s.curThr 0 = some 6 ∧ (s.thr 6).st = .running ∧ s.nextThr 0 = some 6 := by decide

/-- A thread that yields with no other to run goes on (R648, R649). -/
theorem test_yield_alone :
    let s := ((on.setThr 6 { st := .running, affinity := 1 }).wr (Reg.DSP_CUR 0) 0x80000006).wr (Reg.DSP_NEXT 0) 0x80000006
    ((s.thrYield 0 6).thr 6).st = .running := by decide

theorem wit_watchdog : let s := on.wr Reg.DSP_WDOG_CFG 0x10005
    s.open .dsp = true ∧ s.bitOf Reg.DSP_WDOG_CFG 16 = true ∧ on.bitOf Reg.DSP_WDOG_CFG 16 = false ∧
    s.rd (Reg.TWN_SURR_MASK 1) = 0 := by decide

theorem wit_core : let s := { on with dsp := { halted := 4, started := 1 } }.wr (Reg.DSP_MTIMECMP_LO 0) 7
    s.open .dsp = true ∧ s.haltedCore 0 = false ∧ s.haltedCore 2 = true ∧ s.dsp.started.getLsbD 3 = false ∧
    s.dsp.started.getLsbD 0 = true ∧ s.sys.going = true ∧ s.timerPending 0 = false := by decide

theorem wit_pmp : let user : ScCore := { mode := .user }
    let open_ : ScCore := { mode := .user, pmp := [(0x19, 0x7FFFFFFF)] }
    ({ kind := .store, addr := 0x10000000, size := 2, core := user } : CoreAcc).denied = true ∧
    ({ kind := .load, addr := 0x10000000, size := 2, core := open_ } : CoreAcc).denied = false ∧
    ({ kind := .store, addr := 0x10000000, size := 2, core := open_ } : CoreAcc).denied = true ∧
    ({ kind := .store, addr := 0x10000000, size := 2, core := {} } : CoreAcc).denied = false := by decide

theorem wit_plic :
    let s := ((({ on with net := { front := some ⟨1, 0, [], false⟩ } }.wr (Reg.PLIC_EN_LO 3) 0x400).wr (Reg.PLIC_PRIO 10) 2))
    s.irqBest 3 = 10 ∧ s.irqBest 2 = 0 ∧ s.irqEnabled 3 10 = true ∧ s.irqEnabled 3 11 = false := by decide

theorem wit_dma :
    let s := ((({ on with ram := [(0x10000010, 1), (0x10000017, 0x80)] }.wr (Reg.DMA_CH_LIMIT 2) 4).wr (Reg.DMA_CH_DESC_LO 2) 0x10000000))
    s.open .dma = true ∧ (s.dmaCh 2).st = .idle ∧ s.field (Reg.DMA_CH_LIMIT 2) 0 16 ≠ 0 ∧ dmaDescAt (s.dmaDesc 2) = true ∧
    (s.descOf (s.dmaDesc 2)).ctl.getLsbD 31 = true ∧ (on.wr (Reg.DMA_CH_LIMIT 2) 0).field (Reg.DMA_CH_LIMIT 2) 0 16 = 0 := by decide

theorem wit_dma_return :
    let d : DmaDesc := { at_ := 0x10000000, src := 0x10000100, dst := 0x10000200, len := 4, ctl := 0x80000000, next := 0 }
    let s := on.setDmaCh 2 { st := .active, cur := some d }
    (s.dmaCh 2).cur = some d ∧ s.dmaOutcome d .whole = (1, d.len) ∧ d.ctl.getLsbD 1 = false ∧ d.badCtl = false ∧
    ({ d with ctl := 4 } : DmaDesc).badCtl = true ∧ (s.dmaCh 2).st = .active ∧ s.open .mem = true ∧ s.powered 8 = true := by decide

/-- A safety block with an ESTOP pair 0 (T = 20 samples) and the BRK output 0. -/
def safBlock : List (BitVec 8) :=
  [0x53, 0x41, 0x46, 0x50, 1, 0, 0, 0, 1, 0, 0, 0, 0, 0, 0, 0, 20, 0, 0, 0, 0, 0, 0, 0, 0, 0, 0, 0, 0, 0, 0, 0, 1]

/-- Both channels running with that block, its outputs on. -/
def safOn : State :=
  { on with saf := { chs := [(0, { on := true, blk := some (safBlock, 7), sw := 1, pairs := 1, ones := 1, bank := 7 }),
                             (1, { on := true, blk := some (safBlock, 7), sw := 1, pairs := 1, bank := 7 })] } }

theorem wit_safety : safOn.powered 12 = true ∧ (safOn.safCh 0).on = true ∧ (safOn.safCh 0).blk = some (safBlock, 7) ∧
    safRole safBlock 0 = 1 ∧ bytesAt safBlock 0x10 2 ≠ 0 ∧ safOn.safOutOn 0 = true ∧ (safOn.safCh 0).test = none ∧
    (safOn.safCh 1).test ≠ some 0 ∧ 0 < (safOn.safCh 0).ones ∧ bytesAt safBlock 0x2E 2 * 200 ≤ (safOn.safCh 0).ones ∧ (safOn.safCh 0).held = false ∧ safOn.open (.port 3) = true ∧
    (safOn.safCh 0).sw.getLsbD 7 = false ∧ safFunc safBlock 0 = 1 ∧ (7 : BitVec 16) = (7 : Word).setWidth 16 := by decide

theorem wit_safety_off : on.powered 12 = true ∧ (on.safCh 0).on = false := by decide

theorem wit_safety_latched : let x : SafCh := { on := true, blk := some (safBlock, 7), latch := true, causes := 2, edgeAt := some 4 }
    let s := (safOn.setSafCh 0 x).setSafCh 1 { x with causes := 1 }
    (s.safCh 0).latch = true ∧ (s.safCh 0).dischOk = false ∧ (s.safCh 0).causes &&& ~~~ (s.safCh 1).causes ≠ 0 ∧
    ((s.setSafCh 1 x).safCh 0).causes = ((s.setSafCh 1 x).safCh 1).causes ∧ ((s.setSafCh 1 x).safCh 1).edgeAt = some 4 := by decide

theorem wit_safety_differ : let s := safOn.setSafCh 0 { safOn.safCh 0 with differ := [(0, 19)] }
    Sparse.get (fun _ => 0) (s.safCh 0).differ 0 + 1 = bytesAt safBlock 0x10 2 ∧ (s.safCh 0).disc.getLsbD 0 = false := by decide

theorem wit_safety_chunks : let s := on.setSafCh 1 { on := true, rx := List.replicate 64 0 }
    (s.safCh 1).on = true ∧ (s.safCh 1).blk = none ∧ (s.safCh 1).rx.length = 64 := by decide

theorem wit_safety_test : let s := safOn.setSafCh 0 { safOn.safCh 0 with test := some 0 }
    (s.safCh 0).test = some 0 := by decide

theorem wit_field : let s := { on with fio := { out := 5, filt := 2 } }
    s.powered 11 = true ∧ s.fio.filt.toNat < 3 ∧ s.fio.outOn 2 = true ∧ s.fio.low = false ∧ s.powered 1 = true ∧
    s.sys.going = true ∧ s.now.toNat + 10000 < 2 ^ 64 ∧ s.open .fio = true ∧ s.iso.slotOk ≠ some (s.now.toNat / 10000) ∧
    s.iso.outWas = none := by
  decide

theorem wit_field_low : let s := { on with fio := { low := true } }
    s.powered 11 = true ∧ s.fio.low = true ∧ 1900 ≤ (1900 : BitVec 16).toNat := by decide

theorem wit_up_frame : let u := on.upFrame
    isoCrcOk u = true ∧ lineField u 0 16 = 0x5AA5 ∧ lineField u 24 8 = on.iso.ack.toNat ∧ isoCrcOk (u ^^^ 1) = false := by decide +kernel

theorem wit_down_frame : let d := isoFrame [(0xA55A, 16), (0, 8), (5, 16), (65530, 16), (0, 184)]
    isoCrcOk d = true ∧ lineField d 0 16 = 0xA55A ∧ lineField d 24 16 + lineField d 40 16 = 65535 := by decide +kernel

theorem wit_down_frame_bad_pair : let d := isoFrame [(0xA55A, 16), (0, 8), (5, 16), (65531, 16), (0, 184)]
    isoCrcOk d = true ∧ lineField d 0 16 = 0xA55A ∧ lineField d 24 16 + lineField d 40 16 ≠ 65535 := by decide +kernel

theorem wit_converter : on.open .adc = true ∧ on.adc.run = false ∧ on.adc.cal = false ∧ on.adc.busy = false ∧ on.adc.jbusy = false ∧
    (on.wr Reg.ADC_JCTL 0x10000).adcTrig = 1 ∧ (on.wr Reg.ADC_JCTL 0x20000).adcTrig = 2 ∧ on.sys.going = true ∧
    on.adcEntries 0 = [0] ∧ on.adcJEntries 0 = [0] ∧ on.adcJEntries 1 = [] := by decide

theorem wit_converter_runs : let s := { on with adc := { run := true, cal := true, mods := [(0, { cur := some ⟨0, 0⟩ }), (1, { inj := some ⟨2, 5⟩ })] } }
    s.open .adc = true ∧ s.adc.run = true ∧ s.adc.cal = true ∧ s.adc.busy = true ∧ (s.adcMod 0).inj = none ∧
    (s.adcMod 0).cur = some ⟨0, 0⟩ ∧ (s.adcMod 1).inj = some ⟨2, 5⟩ ∧ (s.adcMod 1).late = none ∧
    ((s.setAdcMod 2 { late := some ⟨1, 9⟩ }).adcMod 2).late = some ⟨1, 9⟩ := by decide

theorem wit_shaft : let s := ((on.wr (Reg.SHF_CFG 0) 1).wr (Reg.SHF_CPR 0) 4).wr (Reg.SHF_CNT 0) 1
    s.open .shf = true ∧ (s.shf 0).z = false ∧ s.shfMode 0 = 1 ∧ s.shfMode 1 = 0 ∧ s.rd (Reg.SHF_CPR 0) ≠ 0 ∧
    (s.shf 0).next = false ∧ s.shfCorr 0 = false ∧ s.rd (Reg.SHF_CNT 0) ∉ [s.rd (Reg.SHF_IDX 0), s.rd (Reg.SHF_IDX 0) + 4,
      s.rd (Reg.SHF_IDX 0) - 4] ∧ s.rd (Reg.SHF_CPR 1) = 0 ∧ (s.wr (Reg.SHF_CFG 0) 0x1001).shfCorr 0 = true ∧
    (s.wr (Reg.SHF_CFG 0) 2).shfMode 0 = 2 ∧ (s.wr (Reg.SHF_CFG 0) 3).shfMode 0 = 3 := by decide

theorem wit_absolute : let s := on.wr (Reg.SHF_ABS_CFG 0) 0x80000000
    (s.shf 0).ssi = .idle ∧ s.absEn 0 = true ∧ s.absEn 1 = false ∧ ((s.setShf 0 { ssi := .reading }).shf 0).ssi = .reading ∧
    ((s.setShf 0 { ssi := .pause }).shf 0).ssi = .pause ∧ fieldOf (0x10001 : Word) 16 8 ≠ 0 ∧ fieldOf (0x10001 : Word) 0 12 ≠ 0 ∧
    8 ≤ fieldOf (0x80C800 : Word) 20 6 ∧ 50 ≤ fieldOf (0x80C800 : Word) 10 10 ∧ fieldOf (0x80C800 : Word) 10 10 ≤ 1000 ∧
    fieldOf (0x80C800 : Word) 20 6 ≤ 32 ∧ (s.wr (Reg.SHF_ABS_CFG 0) 0x20000000).bitOf (Reg.SHF_ABS_CFG 0) 29 = true := by decide

/-- Channel 2 enabled and cycling with PER 100 and T 40, which are staged as well; channel 3 with the pair but not enabled. -/
def chopOn : State :=
  (((((((on.wr Reg.PWM_EN 4).wr (Reg.PWM_PER 2) 100).wr (Reg.PWM_T 2) 40).wr (Reg.PWM_STG_PER 2) 100).wr (Reg.PWM_STG_T 2) 40).wr
    (Reg.PWM_PER 3) 100).wr (Reg.PWM_T 3) 40).setPwmCh 2 { run := true, on := true, next := 100, off := 40 }

theorem wit_chopper : chopOn.open .pwm = true ∧ chopOn.pwmFails = none ∧ (chopOn.pwmCh 2).run = true ∧ (chopOn.pwmCh 2).on = true ∧
    chopOn.pwm.trip = false ∧ pwmPer (chopOn.rd (Reg.PWM_PER 2)) ≠ 0 ∧ chopOn.pwmEn 2 = true ∧ chopOn.pwmEn 3 = false ∧
    pwmCode 100 40 0 = 0 ∧ pwmCode 100 10 0 ≠ 0 ∧ chopOn.pwmHalt = false ∧ (chopOn.pwmCh 2).pendAt ≠ (chopOn.pwmCh 2).next ∧
    (chopOn.wr (Reg.PWM_STG_T 2) 101).pwmFails = some (2, 2) := by decide

theorem wit_chopper_trip : let s := { ((chopOn.wr Reg.PWM_CHOP 4).wr (Reg.PWM_ARM_PER 2) 50) with
      pwm := { chopOn.pwm with trip := true }, dsp := { halted := 1 } }
    s.open .pwm = true ∧ (s.pwm.trip && s.pwmChop 2) = true ∧ pwmPer (s.rd (Reg.PWM_ARM_PER 2)) ≠ 0 ∧ (s.pwmCh 2).run = true ∧
    s.pwmHalt = true := by decide

/-- Port 1 takes part in its bus; buffer 40 is a transmit buffer, buffer 3 a receive buffer for every base identifier. -/
def canOn : State :=
  { ((on.wr (Reg.CAN_CTL 1) 0).wr (Reg.CAN_BUF_CFG 1 40) 0xC0000000).wr (Reg.CAN_BUF_CFG 1 3) 0x40000000 with
    cans := [(1, { st := .active })] }

/-- A remote frame with identifier 5. -/
def canF : CanFrame := { xtd := false, rtr := true, id := 5, fdf := false, brs := false, esi := false, dlc := 0, data := [] }

theorem wit_can : canOn.open (.can 1) = true ∧ (canOn.can 1).live = true ∧ canOn.canLoop 1 ≠ 1 ∧ canOn.canFits 1 canF 3 = true ∧
    canOn.canNew 1 3 = false ∧ (∀ k, k < 3 → canOn.canFits 1 canF k = false) ∧ canOn.canPend 1 40 = false ∧ canOn.canInit 1 = false ∧
    (canOn.bitOf (Reg.CAN_BUF_CFG 1 40) 31 && canOn.bitOf (Reg.CAN_BUF_CFG 1 40) 30) = true ∧ on.canInit 1 = true ∧
    nbtOk 0x001E0707 = true ∧ nbtOk 0 = false ∧ dbtOk 0x00040101 = true ∧ dbtOk 0 = false := by decide

theorem wit_can_full : let s := canOn.setBit (Reg.CAN_NEW_LO 1) 3
    s.canFits 1 canF 3 = true ∧ s.canNew 1 3 = true ∧ s.bitOf (Reg.CAN_BUF_CFG 1 3) 29 = false := by decide

theorem wit_can_pending : let s := ((canOn.setBit (Reg.CAN_TX_REQ_HI 1) 8).wr (Reg.CAN_BUF_QTS 1 40) 0x80000001).wr (Reg.CAN_BUF_CTL 1 40) 0x100
    s.canPend 1 40 = true ∧ s.canWins 1 40 0 = true ∧ s.canAborting 1 40 = false ∧ 0 < s.field (Reg.CAN_BUF_CTL 1 40) 8 16 ∧
    (25000 : Int) < timeDiff s.canTs (s.rd (Reg.CAN_BUF_QTS 1 40)) ∧ (s.setBit (Reg.CAN_TX_ABORT_HI 1) 8).canAborting 1 40 = true ∧
    (s.setBit (Reg.CAN_BUF_CFG 1 40) 28).bitOf (Reg.CAN_BUF_CFG 1 40) 28 = true := by decide

theorem wit_can_states : ((canOn.setCan 1 { st := .busOff }).can 1).st = .busOff ∧
    ((canOn.setCan 1 { st := .recovering }).can 1).st = .recovering := by decide

end Sys2Proof.Tests
end

section
/-! Registers, held values and bus accesses (00_scope.md): one rule for each operation, then the obligations. -/

namespace Sys2Proof.Machine

open Sys2Proof.Safety

/-! ## The register file and its frame -/

/-- A register write reaches no other part of the state. -/
theorem State.wr_onlyRegs (s : State) (a : Nat) (v : Word) : onlyRegs s (s.wr a v) [a] :=
  ⟨rfl, fun b hb => State.rd_wr_other s a b v (by simpa using hb), fun _ _ => rfl⟩

theorem State.setNow_setBits_other (s : State) (a b : Nat) (m : Word) (h : b ≠ a) :
    (s.setBits a m).setNow b = s.setNow b := by
  have hget : Sparse.get (fun _ => (0, 0)) (s.setBits a m).setAt b = Sparse.get (fun _ => (0, 0)) s.setAt b :=
    Sparse.get_put_other _ _ _ _ _ h
  simp only [State.setNow, hget]
  rfl

/-- Hardware's setting of bits reaches nothing but that register and the record of the bits set in this tick. -/
theorem State.setBits_onlyRegs (s : State) (a : Nat) (m : Word) : onlyRegs s (s.setBits a m) [a] := by
  obtain ⟨-, hrd, hrest⟩ := State.setBits_spec s a m
  exact ⟨hrest, fun b hb => hrd b (by simpa using hb),
    fun b hb => State.setNow_setBits_other s a b m (by simpa using hb)⟩

/-! ## Values held for a paired register (R10 to R13) -/

@[simp] theorem State.heldAt_setHeld_same (s : State) (a : Nat) (v : Option Word) : (s.setHeld a v).heldAt a = v :=
  Sparse.get_put_same _ _ _ _

theorem State.heldAt_setHeld_other (s : State) (a b : Nat) (v : Option Word) (h : b ≠ a) :
    (s.setHeld a v).heldAt b = s.heldAt b :=
  Sparse.get_put_other _ _ _ _ _ h

@[simp] theorem State.heldAt_setBit (s : State) (a i b : Nat) : (s.setBit a i).heldAt b = s.heldAt b := rfl

@[simp] theorem State.rd_setHeld (s : State) (a b : Nat) (v : Option Word) : (s.setHeld a v).rd b = s.rd b := rfl

theorem State.pairRefuse_eq_setBit (s : State) {b : Blk} {a i : Nat} (h : b.pairRefused = some (a, i)) :
    s.pairRefuse b = s.setBit a i := by
  simp [State.pairRefuse, h]

theorem State.pairComplement_of_none_held (s : State) (r : PairReg) (c : Word) (h : s.heldAt r.addr = none) :
    s.pairComplement r c = s.pairRefuse r.blk := by
  simp [State.pairComplement, h]

theorem State.pairComplement_of_exact (s : State) (r : PairReg) (v : Word) (h : s.heldAt r.addr = some v) :
    s.pairComplement r (~~~ v) =
      (s.setHeld r.addr none).pairTakes r (v &&& ((rowAt r.addr).map RegRow.wmask).getD 0) := by
  simp [State.pairComplement, h]

theorem State.pairComplement_of_inexact (s : State) (r : PairReg) {v c : Word} (h : s.heldAt r.addr = some v)
    (hc : c ≠ ~~~ v) : s.pairComplement r c = (s.setHeld r.addr none).pairRefuse r.blk := by
  simp [State.pairComplement, h, hc]

theorem State.via_of_open (s : State) {b : Blk} (f : State → State) (h : s.open b = true) : s.via b f = .next (f s) := by
  simp [State.via_spec, h]

theorem exec_pairedValueWrite (r : PairReg) (v : Word) {s : State} (h : s.open r.blk = true) :
    exec (.pairedValueWrite r v) s = .next (s.setHeld r.addr (some v)) := by
  change s.via r.blk (fun t => t.pairValue r v) = _
  rw [State.via_of_open s _ h, State.pairValue]

theorem exec_pairedComplementWrite (r : PairReg) (c : Word) {s : State} (h : s.open r.blk = true) :
    exec (.pairedComplementWrite r c) s = .next (s.pairComplement r c) := by
  change s.via r.blk (fun t => t.pairComplement r c) = _
  rw [State.via_of_open s _ h]

/-! ## A register write by its access code (R15 to R17) -/

theorem State.regWrite_hole (s : State) {b : Blk} {off : Nat} (a : Nat) (v : Word) (h : b.row off = none) :
    s.regWrite b off a v = s := by
  simp [State.regWrite, h]

theorem State.regWrite_readOnly (s : State) {b : Blk} {off : Nat} {r : RegRow} (a : Nat) (v : Word)
    (h : b.row off = some r) (hr : r.acc = .ro) : s.regWrite b off a v = s := by
  simp [State.regWrite, h, hr]

theorem State.regWrite_clearByOnes (s : State) {b : Blk} {off : Nat} {r : RegRow} (a : Nat) (v : Word)
    (h : b.row off = some r) (hr : r.acc = .w1c) :
    s.regWrite b off a v = s.wr a (s.rd a &&& ~~~ (v &&& r.wmask &&& ~~~ s.staysSet b a)) := by
  simp [State.regWrite, h, hr]

theorem State.regWrite_readWrite (s : State) {b : Blk} {off : Nat} {r : RegRow} (a : Nat) (v : Word)
    (h : b.row off = some r) (hr : r.acc = .rw) : s.regWrite b off a v = s.blkWrite b off a (v &&& r.wmask) := by
  simp [State.regWrite, h, hr]

/-- In the windows of the timebase, the Draft and the key a write sets nothing else going. -/
theorem State.blkWrite_plain (s : State) {b : Blk} (off a : Nat) (v : Word) (h : b = .tb ∨ b = .drf ∨ b = .key) :
    s.blkWrite b off a v = s.wr a v := by
  rcases h with rfl | rfl | rfl <;> rfl

/-! ## REGISTER_WRITE by where its address lies (R15 to R18, R631, R857) -/

theorem exec_registerWrite_window (w : Initiator) {a : BitVec 64} (v : Word) {s : State} {b : Blk} {off : Nat}
    (hw : windowOf a.toNat = some (b, off)) (ha : a.toNat % 4 = 0) (ho : s.open b = true) :
    exec (.registerWrite w a (.word v)) s =
      .next (State.regWrite { s with bus := { s.bus with err := false } } b off a.toNat v) := by
  change execRegisterWrite w a (.word v) s = _
  simp [execRegisterWrite, hw, ha, ho]

theorem exec_registerWrite_memory (w : Initiator) {a : BitVec 64} (x : BusVal) (s : State)
    (hw : windowOf a.toNat = none) (hm : inSram a.toNat ∨ inDramB a.toNat) :
    exec (.registerWrite w a x) s =
      .next (State.busWrite { s with bus := { s.bus with err := false } } a.toNat x.bytes) := by
  change execRegisterWrite w a x s = _
  simp [execRegisterWrite, hw, hm]

/-- A window takes aligned words alone. -/
theorem exec_registerWrite_badWindowAccess (w : Initiator) {a : BitVec 64} {v : BusVal} (s : State) {b : Blk} {off : Nat}
    (hw : windowOf a.toNat = some (b, off)) (h : a.toNat % 4 ≠ 0 ∨ ∀ x, v ≠ .word x) :
    exec (.registerWrite w a v) s = .next (s.busFault w .store a.toNat) := by
  change execRegisterWrite w a v s = _
  cases v with
  | word x =>
    have ha : a.toNat % 4 ≠ 0 := h.resolve_right fun hx => hx x rfl
    simp [execRegisterWrite, hw, ha]
  | byte x | half x | dword x => simp [execRegisterWrite, hw]

theorem exec_registerWrite_outside (w : Initiator) {a : BitVec 64} (v : BusVal) (s : State)
    (hw : windowOf a.toNat = none) (hm : ¬ (inSram a.toNat ∨ inDramB a.toNat)) (hr : ¬ inRom a.toNat) :
    exec (.registerWrite w a v) s = .next (s.busFault w .store a.toNat) := by
  change execRegisterWrite w a v s = _
  simp [execRegisterWrite, hw, hm, hr]

/-- Little-endian bytes come in two stretches, the low ones first (R18). -/
theorem natBytes_add (m n v : Nat) : natBytes (m + n) v = natBytes m v ++ natBytes n (v / 256 ^ m) := by
  induction m generalizing v with
  | zero => simp [natBytes]
  | succ m ih => simp [Nat.succ_add, natBytes, ih, Nat.div_div_eq_div_mul, Nat.pow_succ']

/-- The four low bytes of a number are those of its low 32 bits (R18). -/
theorem natBytes_four (v : Nat) : natBytes 4 v = wordBytes (BitVec.ofNat 32 v) := by
  simp only [natBytes, wordBytes, List.cons.injEq, and_true]
  refine ⟨?_, ?_, ?_, ?_⟩ <;> apply BitVec.eq_of_toNat_eq <;> simp [Nat.shiftRight_eq_div_pow] <;> omega

/-- A doubleword is stored as its low word and then its high one (R18). -/
theorem bytes_dword_append (v u : Word) : BusVal.bytes (.dword (v ++ u)) = wordBytes u ++ wordBytes v := by
  have hu : u.toNat < 2 ^ 32 := u.isLt
  have hsum : (v ++ u).toNat = 2 ^ 32 * v.toNat + u.toNat := by
    rw [BitVec.toNat_append, Nat.shiftLeft_eq, Nat.mul_comm, Nat.two_pow_add_eq_or_of_lt hu]
  have hlow : BitVec.ofNat 32 (v ++ u).toNat = u := by
    apply BitVec.eq_of_toNat_eq
    rw [BitVec.toNat_ofNat, hsum, Nat.mul_add_mod, Nat.mod_eq_of_lt hu]
  have hhigh : BitVec.ofNat 32 ((v ++ u).toNat / 256 ^ 4) = v := by
    apply BitVec.eq_of_toNat_eq
    rw [BitVec.toNat_ofNat, hsum]
    omega
  calc natBytes 8 (v ++ u).toNat
      = natBytes 4 (v ++ u).toNat ++ natBytes 4 ((v ++ u).toNat / 256 ^ 4) := natBytes_add 4 4 _
    _ = wordBytes u ++ wordBytes v := by rw [natBytes_four, natBytes_four, hlow, hhigh]

/-! ## Bus errors (R17, R631, R633) -/

theorem exec_busError (w : Initiator) (k : AccKind) (a : BitVec 64) {s : State} (h : s.powered 1 = true)
    (hf : s.accessFails k a.toNat = true) : exec (.busError w k a) s = .next (s.busFault w k a.toNat) := by
  have hopen : s.open .dsp = true := h
  change s.via .dsp _ = _
  simp [State.via_of_open s _ hopen, hf]

/-- Where the address map lets an access succeed, BUS_ERROR does nothing, whether PD1 is powered or not. -/
theorem exec_busError_of_success (w : Initiator) {k : AccKind} {a : BitVec 64} {s : State}
    (hf : s.accessFails k a.toNat = false) : exec (.busError w k a) s = .next s := by
  change execBusError w k a s = _
  simp [execBusError, State.via_spec, hf]

@[simp] theorem State.setScCore_excs (s : State) (c : Nat) (x : ScCore) : (s.setScCore c x).dsp.excs = s.dsp.excs := rfl

theorem State.coreFault_excs (s : State) (c : Nat) (k : AccKind) :
    Sparse.get (fun _ => none) (s.coreFault c k).dsp.excs c = some k.fault := by
  simp [State.coreFault]

theorem State.coreFault_mode (s : State) (c : Nat) (k : AccKind) : ((s.coreFault c k).scCore c).mode = .machine := by
  simp [State.coreFault]

/-- An initiator that is no core learns of the error by the answer of the bus alone (R17). -/
theorem State.busFault_other (s : State) (k : AccKind) (a : Nat) :
    s.busFault .other k a = { s with bus := { s.bus with err := true } } := rfl

theorem State.busFault_core_exception (s : State) (c : Fin 8) {k : AccKind} {a : Nat}
    (h : k.isAtomic = true ∧ ((windowOf a).isSome ∨ inCaptureMem a)) : s.busFault (.core c) k a = s.coreFault c k :=
  if_pos h

theorem State.busFault_core_error (s : State) (c : Fin 8) {k : AccKind} {a : Nat}
    (h : ¬ (k.isAtomic = true ∧ ((windowOf a).isSome ∨ inCaptureMem a))) :
    s.busFault (.core c) k a = State.raise { s.coreFault c k with bus := { s.bus with err := true } } 16 :=
  if_neg h

end Sys2Proof.Machine

namespace Sys2Proof.Scope

open Sys2Proof.Machine Sys2Proof.Safety

/-- Settles O8, by the laws of the sparse table that holds the registers. -/
theorem registerFileReadsWhatWasWritten : Obligations.RegisterFileReadsWhatWasWritten := fun s a v =>
  ⟨State.rd_wr_same s a v, State.wr_onlyRegs s a v, State.wr_regs_wf s a v⟩

/-- Settles O9: the command is one update of the table of held values. -/
theorem pairedValueIsHeld : Obligations.PairedValueIsHeld := fun r v s ho =>
  ⟨_, exec_pairedValueWrite r v ho, State.heldAt_setHeld_same s _ _,
    fun b hb => State.heldAt_setHeld_other s _ b _ hb, rfl⟩

/-- Settles O10: the refusal sets one flag. -/
theorem pairedComplementWithoutValueIsRefused : Obligations.PairedComplementWithoutValueIsRefused := by
  intro r c s a i ho hheld hflag
  have hexec : exec (.pairedComplementWrite r c) s = .next (s.setBit a i) := by
    rw [exec_pairedComplementWrite r c ho, State.pairComplement_of_none_held s r c hheld,
      State.pairRefuse_eq_setBit s hflag]
  exact ⟨_, hexec, State.rd_setBit_same s a i, State.setBits_onlyRegs s a _⟩

/-- Settles O11: the exact complement lets the pair take effect, any other ends the hold and sets one flag. -/
theorem pairedComplementTakesOrRefuses : Obligations.PairedComplementTakesOrRefuses := by
  intro r v c s a i ho hheld hflag
  refine ⟨?_, fun hc => ?_⟩
  · rintro rfl
    rw [exec_pairedComplementWrite r _ ho, State.pairComplement_of_exact s r v hheld]
  · have hexec : exec (.pairedComplementWrite r c) s = .next ((s.setHeld r.addr none).setBit a i) := by
      rw [exec_pairedComplementWrite r c ho, State.pairComplement_of_inexact s r hheld hc,
        State.pairRefuse_eq_setBit _ hflag]
    exact ⟨_, hexec, by simp, by simp, fun b hb => by simp [State.rd_setBit_other _ _ _ _ hb], rfl⟩

/-- Settles O12: the access code of the row, or the memory that the address lies in, decides. -/
theorem registerWriteFollowsItsAccessCode : Obligations.RegisterWriteFollowsItsAccessCode := by
  intro w a v s
  refine ⟨fun b off hw ha ho => ?_, fun x hw hm => exec_registerWrite_memory w x s hw hm, bytes_dword_append v⟩
  have hexec := exec_registerWrite_window w v hw ha ho
  refine ⟨fun hrow => ?_, fun r hrow hacc => ?_, fun r hrow hacc => ?_, fun r hrow hacc hb => ?_⟩
  · rw [hexec, State.regWrite_hole _ _ _ hrow]
  · rw [hexec, State.regWrite_readOnly _ _ _ hrow hacc]
  · rw [State.regWrite_clearByOnes _ _ _ hrow hacc] at hexec
    exact ⟨_, hexec, State.rd_wr_same _ _ _, (State.wr_onlyRegs _ _ _).2.1, rfl, rfl⟩
  · rw [State.regWrite_readWrite _ _ _ hrow hacc, State.blkWrite_plain _ _ _ _ hb] at hexec
    exact ⟨_, hexec, State.rd_wr_same _ _ _, (State.wr_onlyRegs _ _ _).2.1, rfl⟩

/-- Settles O13: by the initiator, and for a core by the kind of access and where it lies. -/
theorem busErrorReachesTheInitiator : Obligations.BusErrorReachesTheInitiator := by
  refine ⟨fun w k a s hf => exec_busError_of_success w hf, fun k a s hp hf => ?_,
    fun c k a s hp hf => ⟨State.coreFault_excs s c k, State.coreFault_mode s c k, fun h => ?_, fun h => ?_⟩, ?_⟩
  · rw [exec_busError _ k a hp hf, State.busFault_other]
  · rw [exec_busError _ k a hp hf, State.busFault_core_exception s c h]
  · have hnot : ¬ (k.isAtomic = true ∧ ((Machine.windowOf a.toNat).isSome ∨ inCaptureMem a.toNat)) := by
      rcases h with hk | ⟨hwin, hcap⟩
      · simp [hk]
      · simp [Option.isNone_iff_eq_none.mp hwin, hcap]
    rw [exec_busError _ k a hp hf, State.busFault_core_error s c hnot]
  · rintro w a v s (⟨b, off, hw, hbad⟩ | ⟨hw, hm, hr⟩)
    · exact exec_registerWrite_badWindowAccess w s hw hbad
    · exact exec_registerWrite_outside w v s hw hm hr

end Sys2Proof.Scope
end

section
/-! The course of the control period (R28 to R35) and the schedule section in effect: what no fault, miss, surrender or
report changes. One rule for each shared operation. -/

namespace Sys2Proof.Machine

/-- The timebase without what counts or is held beside the periods: VT, the replicas and marks of the islands, the
channels and the energy audits. -/
def Tb.course (t : Tb) : Tb := { t with vt := 0, replica := [], marked := [], chans := [], energy := [] }

/-- Where the part stands in the course of its periods, and by which schedule section. -/
def State.course (s : State) : Tb × Option SchSection := (s.tb.course, s.sch.cur)

theorem State.sec_of_course {s t : State} (h : t.course = s.course) : t.sec = s.sec :=
  congrArg (fun c : Tb × Option SchSection => c.2.getD {}) h

theorem State.tb_of_course {s t : State} (h : t.course = s.course) : t.tb.pc = s.tb.pc ∧ t.tb.run = s.tb.run ∧
    t.tb.bound = s.tb.bound ∧ t.tb.intakeDone = s.tb.intakeDone ∧ t.tb.nextB = s.tb.nextB ∧ t.tb.period = s.tb.period := by
  have htb : t.tb.course = s.tb.course := congrArg Prod.fst h
  simp only [Tb.course, Tb.mk.injEq] at htb
  obtain ⟨-, -, hpc, hrun, hperiod, hbound, -, hnextB, -, hintake, -⟩ := htb
  exact ⟨hpc, hrun, hbound, hintake, hnextB, hperiod⟩

/-! ## How the course of a state is read -/

@[simp] theorem State.course_mk (regs setAt held sys tb lanes ports aes les isl sch flt gst twn key drf net dsp dma mem saf
    fio iso adc shfs pwm cans ram mram bus free pending) :
    State.course ⟨regs, setAt, held, sys, tb, lanes, ports, aes, les, isl, sch, flt, gst, twn, key, drf, net, dsp, dma, mem,
      saf, fio, iso, adc, shfs, pwm, cans, ram, mram, bus, free, pending⟩ = (tb.course, sch.cur) := rfl

@[simp] theorem State.course_fold (s : State) : (s.tb.course, s.sch.cur) = s.course := rfl

@[simp] theorem State.course_ite (c : Prop) [Decidable c] (s t : State) :
    (if c then s else t).course = if c then s.course else t.course := apply_ite State.course c s t

theorem State.course_foldl {α : Type} (l : List α) (f : State → α → State) (h : ∀ t a, (f t a).course = t.course)
    (s : State) : (l.foldl f s).course = s.course := by
  induction l generalizing s with
  | nil => rfl
  | cons a r ih => rw [List.foldl_cons, ih, h]

/-! ## Registers, indexed parts and time -/

@[simp] theorem State.wr_course (s : State) (a : Nat) (v : Word) : (s.wr a v).course = s.course := rfl
@[simp] theorem State.setBit_course (s : State) (a i : Nat) : (s.setBit a i).course = s.course := rfl
@[simp] theorem State.clrBit_course (s : State) (a i : Nat) : (s.clrBit a i).course = s.course := rfl
@[simp] theorem State.setField_course (s : State) (a lo n v : Nat) : (s.setField a lo n v).course = s.course := rfl
@[simp] theorem State.addField_course (s : State) (a lo n k : Nat) : (s.addField a lo n k).course = s.course := rfl
@[simp] theorem State.bump_course (s : State) (a : Nat) : (s.bump a).course = s.course := rfl
@[simp] theorem State.wrPair_course (s : State) (a : Nat) (v : Word) : (s.wrPair a v).course = s.course := rfl
@[simp] theorem State.lifeUp_course (s : State) (i : Nat) : (s.lifeUp i).course = s.course := rfl
@[simp] theorem State.keyDue_course (s : State) : s.keyDue.course = s.course := rfl
@[simp] theorem State.setPort_course (s : State) (n : Nat) (x : Port) : (s.setPort n x).course = s.course := rfl
@[simp] theorem State.setAe_course (s : State) (n : Nat) (x : Ae) : (s.setAe n x).course = s.course := rfl
@[simp] theorem State.setSrc_course (s : State) (n : Nat) (x : Src) : (s.setSrc n x).course = s.course := rfl
@[simp] theorem State.setShf_course (s : State) (n : Nat) (x : Shf) : (s.setShf n x).course = s.course := rfl
@[simp] theorem State.setPwmCh_course (s : State) (n : Nat) (x : PwmCh) : (s.setPwmCh n x).course = s.course := rfl
@[simp] theorem State.setCmpr_course (s : State) (n : Nat) (x : Cmpr) : (s.setCmpr n x).course = s.course := rfl
@[simp] theorem State.setInj_course (s : State) (x : Injector) : (s.setInj x).course = s.course := rfl
@[simp] theorem State.setEnergy_course (s : State) (n : Nat) (x : Energy) : (s.setEnergy n x).course = s.course := rfl
@[simp] theorem State.setStage_course (s : State) (k : Nat) : (s.setStage k).course = s.course := rfl

@[simp] theorem State.resetWindow_course (s : State) (b : Blk) : (s.resetWindow b).course = s.course := rfl

@[simp] theorem State.setBitIf_course (s : State) (c : Bool) (a i : Nat) : (s.setBitIf c a i).course = s.course := by
  simp [State.setBitIf]

@[simp] theorem State.elapse_course (s : State) (n : Nat) : (s.elapse n).course = s.course := by
  simp only [State.elapse, State.course_ite]
  exact ite_self _

@[simp] theorem State.advanceTo_course (s : State) (t : BitVec 64) : (s.advanceTo t).course = s.course :=
  State.elapse_course s _

/-! ## Power of the domains -/

/-- Of the domains only PD1 holds the schedule section (R858). -/
theorem State.loseBlocks_course (s : State) (d : Nat) (h : d ≠ 1) : (s.loseBlocks d).course = s.course := by
  unfold State.loseBlocks
  split
  · exact absurd rfl h
  all_goals rfl

theorem State.domainOff_course (s : State) (d : Nat) (h : d ≠ 1) : (s.domainOff d).course = s.course := by
  have hlost : ((domainBlks d).foldl State.resetWindow (s.loseBlocks d)).course = s.course :=
    (State.course_foldl _ _ State.resetWindow_course _).trans (State.loseBlocks_course s d h)
  unfold State.domainOff
  split
  · exact hlost
  · rfl

@[simp] theorem State.enginesOff_course (s : State) : s.enginesOff.course = s.course := by
  simp [State.enginesOff, State.domainOff_course]

/-! ## What follows from an event in the collector -/

@[simp] theorem State.setLatch_course (s : State) (b : Bool) (t : BitVec 64) : (s.setLatch b t).course = s.course := rfl

@[simp] theorem State.setSticky_course (s : State) (n : Nat) (t : BitVec 64) : (s.setSticky n t).course = s.course := by
  simp [State.setSticky]

@[simp] theorem State.adcInject_course (s : State) (m : Nat) (t : BitVec 64) : (s.adcInject m t).course = s.course := by
  unfold State.adcInject
  split <;> rfl

@[simp] theorem State.adcTrigger_course (s : State) (t : BitVec 64) : (s.adcTrigger t).course = s.course := by
  unfold State.adcTrigger
  split
  · rfl
  · exact State.course_foldl _ _ (fun u m => State.adcInject_course u m _) _

@[simp] theorem State.eventHook_course (s : State) (n : Nat) (t : BitVec 64) : (s.eventHook n t).course = s.course := by
  simp [State.eventHook, State.adcEvent]

@[simp] theorem State.noteEvent_course (s : State) (n : Nat) (t : BitVec 64) : (s.noteEvent n t).course = s.course := by
  simp [State.noteEvent]

@[simp] theorem State.blockBegins_course (s : State) : s.blockBegins.course = s.course := by
  simp [State.blockBegins, State.injAbort]

@[simp] theorem State.pmCause_course (s : State) (c : Nat) : (s.pmCause c).course = s.course := by
  unfold State.pmCause
  split <;> rfl

@[simp] theorem State.pwmTake_course (s : State) (n : Nat) : (s.pwmTake n).course = s.course := by
  unfold State.pwmTake
  split <;> simp

@[simp] theorem State.pwmCycle_course (s : State) (n : Nat) (t : BitVec 64) : (s.pwmCycle n t).course = s.course := by
  simp [State.pwmCycle]

@[simp] theorem State.tripOn_course (s : State) : s.tripOn.course = s.course := by
  simp [State.tripOn, State.pwmTrip, State.course_foldl]

@[simp] theorem State.tripBegins_course (s : State) : s.tripBegins.course = s.course := by
  simp [State.tripBegins]

@[simp] theorem State.pwmTripEnds_course (s : State) : s.pwmTripEnds.course = s.course := by
  unfold State.pwmTripEnds
  extract_lets s1
  split
  · exact State.course_foldl _ _ (fun t n => State.pwmCycle_course t n _) _
  · exact State.course_foldl _ _ (fun t n => State.setPwmCh_course t n _) _

@[simp] theorem State.tripEnds_course (s : State) : s.tripEnds.course = s.course := by
  simp [State.tripEnds]

@[simp] theorem State.settle_course (b s : State) (t : BitVec 64) : (State.settle b s t).course = s.course := by
  simp [State.settle]

@[simp] theorem State.lockedNow_course (s : State) : s.lockedNow.course = s.course := rfl

@[simp] theorem State.collide_course (s : State) (n : Nat) : (s.collide n).course = s.course := rfl

@[simp] theorem State.recDue_course (s : State) (a b : Nat) : (s.recDue a b).course = s.course := by
  simp [State.recDue]

@[simp] theorem State.undo_course (s : State) (n : Nat) (t : BitVec 64) : (s.undo n t).course = s.course := by
  unfold State.undo
  extract_lets x
  split <;> simp

@[simp] theorem State.takeEvent_course (s : State) (n : Nat) (t : BitVec 64) (inj : Bool) :
    (s.takeEvent n t inj).course = s.course := by
  simp [State.takeEvent]

@[simp] theorem State.takeUnder_course (s : State) (n : Nat) (t : BitVec 64) (inj : Bool) :
    (s.takeUnder n t inj).course = s.course := by
  unfold State.takeUnder
  extract_lets x
  split <;> simp

@[simp] theorem State.clearAt_course (s : State) (n : Nat) (t : BitVec 64) : (s.clearAt n t).course = s.course := by
  simp [State.clearAt]

@[simp] theorem State.reclass_course (s : State) (n : Nat) (e : FltEntry) : (s.reclass n e).course = s.course := rfl

@[simp] theorem State.collect_course (s : State) (n : Nat) (t : BitVec 64) (inj : Bool) :
    (s.collect n t inj).course = s.course := by
  unfold State.collect
  extract_lets k s0 u hit s1
  have hs0 : s0.course = s.course := by
    unfold s0
    split <;> simp
  have hs1 : s1.course = s.course := by rw [State.takeUnder_course, State.undo_course, hs0]
  split
  · simp
  · split <;> simp [hs0, hs1]

/-! ## The lease and its surrender -/

@[simp] theorem State.setLine_course (s : State) (p : Nat) (l : LineAt) : (s.setLine p l).course = s.course := by
  simp [State.setLine]

@[simp] theorem State.lineNote_course (s : State) (p : Nat) : (s.lineNote p).course = s.course := by
  simp [State.lineNote]

@[simp] theorem State.setLease_course (s : State) (l : LeaseSt) : (s.setLease l).course = s.course := by
  simp [State.setLease, State.startXfer]

@[simp] theorem State.sendMsg_course (s : State) (op : BitVec 8) (arg : BitVec 64) : (s.sendMsg op arg).course = s.course := by
  simp [State.sendMsg, State.putMsg]

@[simp] theorem State.stopFrames_course (s : State) : s.stopFrames.course = s.course :=
  State.course_foldl _ _ (fun t n => State.setPort_course t n _) s

@[simp] theorem State.dropHand_course (s : State) : s.dropHand.course = s.course := by
  simp [State.dropHand, State.twnResult]

@[simp] theorem State.standDown_course (s : State) : s.standDown.course = s.course := by
  simp [State.standDown]

@[simp] theorem State.ill_course (s : State) : s.ill.course = s.course := by
  simp [State.ill]

@[simp] theorem State.surrender_course (s : State) (why what : Nat) : (s.surrender why what).course = s.course := by
  simp [State.surrender]

@[simp] theorem State.maskSurrender_course (b s : State) (n : Nat) : (State.maskSurrender b s n).course = s.course := by
  simp [State.maskSurrender]

@[simp] theorem State.raise_course (s : State) (n : Nat) : (s.raise n).course = s.course := by
  simp [State.raise]

@[simp] theorem State.raiseIf_course (s : State) (c : Bool) (n : Nat) : (s.raiseIf c n).course = s.course := by
  simp [State.raiseIf]

@[simp] theorem State.raiseOnce_course (s : State) (n : Nat) : (s.raiseOnce n).course = s.course := by
  simp [State.raiseOnce]

@[simp] theorem State.integrity_course (s : State) (i : Nat) : (s.integrity i).course = s.course := by
  simp [State.integrity]

end Sys2Proof.Machine
end

section
/-! The period boundary and the end of intake (R28, R30, R35): what their parts leave of the course of the periods, and what
the turn itself does. -/

namespace Sys2Proof.Machine

/-! ## Reports and fast protection at the end of intake -/

@[simp] theorem State.sendCues_course (s : State) (f : Xing → Bool) (lat : Nat) (pc : BitVec 16) :
    (s.sendCues f lat pc).course = s.course := by
  unfold State.sendCues
  refine State.course_foldl _ _ (fun t q => ?_) s
  split
  · rw [State.course_mk, State.course_fold]
  · rfl

@[simp] theorem State.blockFrom_course (s : State) (t : BitVec 64) : (s.blockFrom t).course = s.course := by
  simp [State.blockFrom]

@[simp] theorem State.cmpFire_course (s : State) (i : Nat) : (s.cmpFire i).course = s.course := by
  simp [State.cmpFire]

@[simp] theorem State.cmpSample_course (s : State) (uv : Bool) (i : Nat) (x : Option (BitVec 32)) :
    (s.cmpSample uv i x).course = s.course := by
  unfold State.cmpSample
  split <;> simp

@[simp] theorem State.chanSample_course (s : State) (uv : Bool) (c : Nat) (raw : Option (BitVec 16)) :
    (s.chanSample uv c raw).course = s.course :=
  State.course_foldl _ _ (fun t i => by simp) s

@[simp] theorem State.nodeSample_course (s : State) (uv : Bool) (p i : Nat)
    (e : Option (BitVec 16 × BitVec 16 × BitVec 16 × BitVec 16)) : (s.nodeSample uv p i e).course = s.course := by
  unfold State.nodeSample
  split <;> simp

@[simp] theorem State.portIntake_course (s : State) (p : Nat) : (s.portIntake p).course = s.course := by
  unfold State.portIntake
  split
  · extract_lets x c pc whole kept all got reps broken want miss nodes late absent mine s1 s1a s1b s2
    have hs2 : s2.course = s.course := by simp [s2, s1b, s1a, s1, State.sendNodes]
    split
    · rw [State.course_foldl _ _ (fun t i => State.nodeSample_course t _ p i none), hs2]
    · exact hs2
  · rfl

@[simp] theorem State.aeIntake_course (s : State) (n : Nat) : (s.aeIntake n).course = s.course := by
  simp [State.aeIntake]

@[simp] theorem State.gstPlane_course (s : State) (bad : List (Nat × Nat)) : (s.gstPlane bad).course = s.course := by
  unfold State.gstPlane
  split <;> simp

@[simp] theorem State.sumsBreak_course (s : State) (n : Nat) : (s.sumsBreak n).course = s.course := rfl

/-! ## The period that ends -/

@[simp] theorem State.injRead_course (s : State) : s.injRead.course = s.course := by
  simp [State.injRead]

@[simp] theorem State.gstSample_course (s : State) : s.gstSample.course = s.course := by
  unfold State.gstSample
  split <;> simp

@[simp] theorem State.energyStep_course (s : State) (n : Nat) : (s.energyStep n).course = s.course := by
  unfold State.energyStep
  split
  · rfl
  · split
    · simp [State.energyResidue]
    · extract_lets
      split <;> simp

@[simp] theorem State.noteEcho_course (s : State) (p : Nat) : (s.noteEcho p).course = s.course := by
  simp [State.noteEcho]

@[simp] theorem State.portPeriodEnd_course (s : State) (p : Nat) : (s.portPeriodEnd p).course = s.course := by
  simp [State.portPeriodEnd]

@[simp] theorem State.schPeriodEnd_course (s : State) : s.schPeriodEnd.course = s.course := by
  unfold State.schPeriodEnd
  extract_lets low s1 warn s2
  have hs2 : s2.course = s.course := by simp [s2, s1]
  exact hs2

@[simp] theorem State.periodEnd_course (s : State) : s.periodEnd.course = s.course := by
  simp [State.periodEnd, State.course_foldl]

/-! ## The period that begins -/

@[simp] theorem State.creditAudit_course (s : State) : s.creditAudit.course = s.course :=
  State.course_foldl _ _ (fun t e => by simp) s

@[simp] theorem State.aeBoundary_course (s : State) (n : Nat) (first : Bool) : (s.aeBoundary n first).course = s.course := by
  simp [State.aeBoundary]

@[simp] theorem State.calEcho_course (s : State) (n : Nat) : (s.calEcho n).course = s.course := by
  unfold State.calEcho
  extract_lets x idle send
  have hsend : ∀ i, (send i).course = s.course := fun i => rfl
  split
  · split
    · split <;> simp [hsend]
    · rfl
  · split
    · split <;> simp [hsend]
    · rfl
  · rfl

@[simp] theorem State.portBoundary_course (s : State) (p : Nat) : (s.portBoundary p).course = s.course := by
  simp [State.portBoundary]

@[simp] theorem State.leBoundary_course (s : State) (e : Nat) : (s.leBoundary e).course = s.course := rfl

@[simp] theorem State.takeOrders_course (s : State) : s.takeOrders.course = s.course :=
  State.course_foldl _ _ (fun t w => by simp) _

@[simp] theorem State.showStatus_course (s : State) : s.showStatus.course = s.course :=
  State.course_foldl _ _ (fun t e => by split <;> simp) _

@[simp] theorem State.eddyZero_course (s : State) (c : Nat) : (s.eddyZero c).course = s.course := rfl

@[simp] theorem State.takeClears_course (s : State) : s.takeClears.course = s.course :=
  State.course_foldl _ _ (fun t w => by simp) _

@[simp] theorem State.injBoundary_course (s : State) : s.injBoundary.course = s.course := by
  simp [State.injBoundary]

@[simp] theorem State.islBoundary_course (s : State) : s.islBoundary.course = s.course := by
  unfold State.islBoundary
  split
  · simp [State.course_foldl _ _ State.leBoundary_course]
  · rfl

@[simp] theorem State.gstBegin_course (s : State) : s.gstBegin.course = s.course := by
  unfold State.gstBegin
  split <;> simp

@[simp] theorem State.initClaim_course (s : State) : s.initClaim.course = s.course := by
  simp [State.initClaim]

@[simp] theorem State.noteHealth_course (s : State) : s.noteHealth.course = s.course := by
  unfold State.noteHealth
  split
  · split <;> simp
  · simp

@[simp] theorem State.netBoundary_course (s : State) : s.netBoundary.course = s.course := by
  simp [State.netBoundary]

@[simp] theorem State.ssiBoundary_course (s : State) (ch : Nat) : (s.ssiBoundary ch).course = s.course := by
  simp [State.ssiBoundary]

@[simp] theorem State.shfBoundary_course (s : State) : s.shfBoundary.course = s.course := by
  unfold State.shfBoundary
  split
  · exact State.course_foldl _ _ (fun t ch => by simp) s
  · rfl

@[simp] theorem State.otherBoundary_course (s : State) : s.otherBoundary.course = s.course := by
  simp [State.otherBoundary, State.pairAudit, State.stageFourDone]

/-! ## The two commands -/

/-- At a boundary that is not b(0) the period in progress moves on by one (R28, R30). -/
theorem State.turn_running (s : State) (h : s.tb.run = true) : s.turn.tb.pc = s.tb.pc + 1 ∧ s.turn.tb.run = true ∧
    s.turn.tb.bound = s.tb.nextB ∧ s.turn.tb.intakeDone = false ∧
    s.turn.tb.nextB = s.tb.nextB + BitVec.ofNat 64 s.tb.period := by
  obtain ⟨hpc, hrun, -, -, hnextB, hperiod⟩ := State.tb_of_course (State.advanceTo_course s s.tb.nextB)
  simp [State.turn, h, hpc, hrun, hnextB, hperiod]

/-- At b(0) the periods begin with the PC that it was placed with (R35, R544). -/
theorem State.turn_first (s : State) (h : s.tb.run = false) : s.turn.tb.pc = s.tb.pc ∧ s.turn.tb.run = true ∧
    s.turn.tb.bound = s.tb.nextB ∧ s.turn.tb.intakeDone = false := by
  obtain ⟨hpc, -, -, -, hnextB, -⟩ := State.tb_of_course (State.advanceTo_course s s.tb.nextB)
  simp [State.turn, h, hpc, hnextB]

theorem exec_periodBoundary {s : State} (h : s.tb.placed = true) :
    exec .periodBoundary s = .next (((List.range 12).foldl State.portBoundary
      ((List.range 12).foldl (fun t n => t.aeBoundary n (!s.tb.run))
        (s.advanceTo s.tb.nextB).periodEnd.turn.creditAudit)).islBoundary.gstBegin.otherBoundary) := by
  change execPeriodBoundary s = _
  simp [execPeriodBoundary, h]

/-- PERIOD_BOUNDARY leaves the course of the periods where the turn puts it. -/
theorem exec_periodBoundary_course {s : State} (h : s.tb.placed = true) :
    ∃ t, exec .periodBoundary s = .next t ∧ t.course = (s.advanceTo s.tb.nextB).periodEnd.turn.course := by
  refine ⟨_, exec_periodBoundary h, ?_⟩
  rw [State.otherBoundary_course, State.gstBegin_course, State.islBoundary_course,
    State.course_foldl _ _ State.portBoundary_course,
    State.course_foldl _ _ (fun t n => State.aeBoundary_course t n _), State.creditAudit_course]

/-- The state with the intake of the period in progress ended (R35). -/
def State.withIntakeDone (s : State) : State := { s with tb := { s.tb with intakeDone := true } }

theorem exec_intakeEnd (bad : IntakeDamage) {s : State} (hrun : s.tb.run = true) (hopen : s.tb.intakeDone = false) :
    exec (.intakeEnd bad) s = .next (bad.sums.foldl (fun (t : State) (n : Fin 12) => t.sumsBreak n)
      (((List.range 12).foldl State.aeIntake ((List.range 12).foldl State.portIntake
        (s.advanceTo (s.tickAt s.sec.iEnd)).withIntakeDone)).gstPlane bad.plane)) := by
  change execIntakeEnd bad s = _
  simp [execIntakeEnd, State.withIntakeDone, hrun, hopen]

/-- INTAKE_END ends the intake of the period in progress and leaves its other bounds and PC (R35). -/
theorem exec_intakeEnd_course (bad : IntakeDamage) {s : State} (hrun : s.tb.run = true) (hopen : s.tb.intakeDone = false) :
    ∃ t, exec (.intakeEnd bad) s = .next t ∧ t.course = (s.advanceTo (s.tickAt s.sec.iEnd)).withIntakeDone.course := by
  refine ⟨_, exec_intakeEnd bad hrun hopen, ?_⟩
  rw [State.course_foldl _ _ (fun (t : State) (n : Fin 12) => State.sumsBreak_course t n), State.gstPlane_course,
    State.course_foldl _ _ State.aeIntake_course, State.course_foldl _ _ State.portIntake_course]

end Sys2Proof.Machine

namespace Sys2Proof.Period

open Sys2Proof.Machine Sys2Proof.Safety

/-- Settles O16: of all that a boundary does, only the turn of the timebase touches the course of the periods. -/
theorem periodBoundaryCountsThePeriods : Obligations.PeriodBoundaryCountsThePeriods := by
  refine ⟨fun s hplaced hrun => ?_, fun s hplaced hrun => ?_, fun s bad hrun hopen => ?_⟩
  · obtain ⟨t, hexec, ht⟩ := exec_periodBoundary_course hplaced
    obtain ⟨hpc, hrun', hbound, hintake, hnextB, -⟩ := State.tb_of_course ht
    have hend : (s.advanceTo s.tb.nextB).periodEnd.course = s.course := by simp
    obtain ⟨hpc0, hrun0, -, -, hnextB0, hperiod0⟩ := State.tb_of_course hend
    obtain ⟨tpc, trun, tbound, tintake, tnextB⟩ := State.turn_running _ (hrun0.trans hrun)
    exact ⟨t, hexec, by rw [hpc, tpc, hpc0], hrun'.trans trun, by rw [hbound, tbound, hnextB0], hintake.trans tintake,
      by rw [hnextB, tnextB, hnextB0, hperiod0]⟩
  · obtain ⟨t, hexec, ht⟩ := exec_periodBoundary_course hplaced
    obtain ⟨hpc, hrun', hbound, hintake, -, -⟩ := State.tb_of_course ht
    have hend : (s.advanceTo s.tb.nextB).periodEnd.course = s.course := by simp
    obtain ⟨hpc0, hrun0, -, -, hnextB0, -⟩ := State.tb_of_course hend
    obtain ⟨tpc, trun, tbound, tintake⟩ := State.turn_first _ (hrun0.trans hrun)
    exact ⟨t, hexec, by rw [hpc, tpc, hpc0], hrun'.trans trun, by rw [hbound, tbound, hnextB0], hintake.trans tintake⟩
  · obtain ⟨t, hexec, ht⟩ := exec_intakeEnd_course bad hrun hopen
    obtain ⟨hpc, -, hbound, hintake, hnextB, -⟩ := State.tb_of_course ht
    obtain ⟨hpc0, -, hbound0, -, hnextB0, -⟩ := State.tb_of_course (State.advanceTo_course s (s.tickAt s.sec.iEnd))
    exact ⟨t, hexec, hintake, hpc.trans hpc0, hbound.trans hbound0, hnextB.trans hnextB0⟩

end Sys2Proof.Period
end

section
/-! The timebase (R23 to R27, R58 to R69): the idle tick, the latching read, TB_STAT, the replicas, the energy audit and the
power of PD0. -/

namespace Sys2Proof.Machine

open Sys2Proof.Safety

/-! ## The passing of time (R23, R593) -/

@[simp] theorem State.elapse_regs (s : State) (n : Nat) : (s.elapse n).regs = s.regs := by
  simp [State.elapse, apply_ite State.regs]
@[simp] theorem State.elapse_lanes (s : State) (n : Nat) : (s.elapse n).lanes = s.lanes := by
  simp [State.elapse, apply_ite State.lanes]
@[simp] theorem State.elapse_ports (s : State) (n : Nat) : (s.elapse n).ports = s.ports := by
  simp [State.elapse, apply_ite State.ports]
@[simp] theorem State.elapse_sch (s : State) (n : Nat) : (s.elapse n).sch = s.sch := by
  simp [State.elapse, apply_ite State.sch]
@[simp] theorem State.elapse_flt (s : State) (n : Nat) : (s.elapse n).flt = s.flt := by
  simp [State.elapse, apply_ite State.flt]
@[simp] theorem State.elapse_ram (s : State) (n : Nat) : (s.elapse n).ram = s.ram := by
  simp [State.elapse, apply_ite State.ram]
@[simp] theorem State.elapse_mram (s : State) (n : Nat) : (s.elapse n).mram = s.mram := by
  simp [State.elapse, apply_ite State.mram]
@[simp] theorem State.elapse_pending (s : State) (n : Nat) : (s.elapse n).pending = s.pending := by
  simp [State.elapse, apply_ite State.pending]

/-! ## The idle tick (R23, R666) -/

/-- From `s` to `t` nothing but the arbiter of DRAM channel B has moved: its own state, its registers and the free values. -/
def OnlyArbiter (s t : State) : Prop := { t with regs := s.regs, mem := s.mem, free := s.free } = s

theorem OnlyArbiter.trans {s t u : State} (h : OnlyArbiter s t) (k : OnlyArbiter t u) : OnlyArbiter s u := by
  unfold OnlyArbiter at *
  rw [← k] at h
  exact h

theorem OnlyArbiter.fields {s t : State} (h : OnlyArbiter s t) : t.pending = s.pending ∧ t.sys = s.sys ∧ t.tb = s.tb ∧
    t.ram = s.ram ∧ t.mram = s.mram ∧ t.lanes = s.lanes ∧ t.flt = s.flt ∧ t.sch = s.sch := by
  unfold OnlyArbiter at h
  rw [← h]
  exact ⟨rfl, rfl, rfl, rfl, rfl, rfl, rfl, rfl⟩

theorem State.memTree_onlyArbiter (s : State) (want : Nat → Bool) : OnlyArbiter s (s.memTree want) := by
  unfold State.memTree
  dsimp only
  split
  · rfl
  · split <;> rfl

theorem State.memRing_onlyArbiter (s : State) (want : Nat → Bool) : OnlyArbiter s (s.memRing want) := by
  unfold State.memRing
  extract_lets c m
  split
  · rfl
  · split <;> rfl

theorem State.memSlot_onlyArbiter (s : State) (want : BitVec 29) : OnlyArbiter s (s.memSlot want) := by
  unfold State.memSlot
  dsimp only
  split
  · rfl
  · split
    · refine OnlyArbiter.trans ?_ (State.memRing_onlyArbiter _ _)
      rfl
    · refine OnlyArbiter.trans ?_ (State.memTree_onlyArbiter _ _)
      rfl

theorem State.memIdleSlot_onlyArbiter (s : State) : OnlyArbiter s s.memIdleSlot :=
  OnlyArbiter.trans (t := s.tick1) rfl (State.memSlot_onlyArbiter _ _)

theorem State.memTick_onlyArbiter (s : State) : OnlyArbiter s s.memTick := by
  have hslot : OnlyArbiter s (State.memIdleSlot { s with mem := { s.mem with two := !s.mem.two } }) :=
    OnlyArbiter.trans (t := { s with mem := { s.mem with two := !s.mem.two } }) rfl (State.memIdleSlot_onlyArbiter _)
  unfold State.memTick
  split
  · split
    · exact hslot.trans (State.memIdleSlot_onlyArbiter _)
    · exact hslot
  · rfl

/-! ## The latching read (R24, R25) -/

theorem hiWord_eq_setWidth (t : BitVec 64) : hiWord t = (t >>> 32).setWidth 32 := by
  apply BitVec.eq_of_toNat_eq
  simp [hiWord, Nat.shiftRight_eq_div_pow]

theorem exec_tbVtLoRead (mtime : Bool) {s : State} (h : s.powered 1 = true) : exec (.tbVtLoRead mtime) s =
    .next { s.wr (if mtime then Reg.DSP_MTIME_HI else Reg.TB_VT_HI) (hiWord s.tb.vt) with
      bus := { data := loWord s.tb.vt, err := false } } := by
  change execTbVtLoRead mtime s = _
  simp [execTbVtLoRead, h]

/-! ## TB_STAT (R68, R69) -/

theorem State.readReg_tbStat {s : State} (h : s.powered 1 = true) : s.readReg Reg.TB_STAT = s.tbStat := by
  have hwin : windowOf Reg.TB_STAT = some (.tb, 0xC) := by decide
  have hrow : Blk.row .tb 0xC = some ⟨0xC, .ro, 0xC, 0x0, []⟩ := by decide
  have hopen : s.open .tb = true := h
  simp [State.readReg, hwin, hrow, hopen, State.view, State.viewTb]

/-- Before b(0) the fields RUN and PHASE read 0 and 11, whatever the others hold (R69). -/
theorem State.tbStat_not_running {s : State} (h : s.tb.run = false) :
    s.tbStat.getLsbD 1 = false ∧ fieldOf s.tbStat 2 2 = 3 := by
  have hphase : s.phase = 3 := by simp [State.phase, h]
  simp only [State.tbStat, hphase, h]
  generalize (s.drf.pendAt.isSome && s.drf.set.sch.isSome) = pending
  cases pending <;> cases s.tb.lock <;> decide

/-! ## Period markers (R27, R37, R40) -/

theorem exec_periodMarker {i : Fin 34} (vt : BitVec 16) {s : State} (h : s.powered (islandDomain i) = true) :
    exec (.periodMarker i vt) s = .next (s.marker i vt) := by
  change execPeriodMarker i vt s = _
  simp [execPeriodMarker, h]

theorem State.marker_within (s : State) {i : Nat} {vt : BitVec 16}
    (h : i = 0 ∨ (timeDiff ((s.replicaTime i).setWidth 16) vt).natAbs ≤ markerBound i) : s.marker i vt = s :=
  if_pos h

/-- The register that shows a replica fault of an island (R68). -/
def replicaErrReg (i : Nat) : Nat := if i < 32 then Reg.TB_REPLICA_ERR else Reg.TB_REPLICA_ERR_HI

/-- The replica of an island as a marker sets it, with the island's bit of TB_REPLICA_ERR (R27). -/
def State.reloaded (s : State) (i : Nat) (vt : BitVec 16) : State :=
  State.setBit { s with tb := { s.tb with
    replica := Sparse.put (fun _ => 0) s.tb.replica i (BitVec.ofInt 64 (timeDiff vt (s.now.setWidth 16))) } }
    (replicaErrReg i) (i % 32)

theorem State.marker_beyond (s : State) {i : Nat} {vt : BitVec 16} (hi : i < 64) (h0 : i ≠ 0)
    (h : markerBound i < (timeDiff ((s.replicaTime i).setWidth 16) vt).natAbs) :
    s.marker i vt = (s.reloaded i vt).raise 8 := by
  have hout : ¬ (i = 0 ∨ (timeDiff ((s.replicaTime i).setWidth 16) vt).natAbs ≤ markerBound i) := by omega
  by_cases hlow : i < 32
  · simp only [State.marker, if_neg hout, State.reloaded, replicaErrReg, if_pos hlow, Nat.mod_eq_of_lt hlow]
  · simp only [State.marker, if_neg hout, State.reloaded, replicaErrReg, if_neg hlow, show i % 32 = i - 32 by omega]

theorem State.reloaded_spec (s : State) (i : Nat) (vt : BitVec 16) :
    Sparse.get (fun _ => 0) (s.reloaded i vt).tb.replica i = BitVec.ofInt 64 (timeDiff vt (s.now.setWidth 16)) ∧
      (s.reloaded i vt).rd (replicaErrReg i) = s.rd (replicaErrReg i) ||| bitIf true (i % 32) ∧
      { s.reloaded i vt with tb := s.tb, regs := s.regs, setAt := s.setAt } = s :=
  ⟨Sparse.get_put_same _ _ _ _, State.rd_setBit_same _ _ _, rfl⟩

/-! ## The energy audit (R58 to R60) -/

theorem exec_energyWindowEnd (w : ArmWindow) {s : State} (h : s.sys.cfg.par.energy.wE ≤ (s.energy w.arm).count) :
    exec (.energyWindowEnd w) s = .next (
      if w.residue then (s.setEnergy w.arm (s.energy w.arm).next).integrity (6 + w.arm)
      else if (s.energy w.arm).void then (s.setEnergy w.arm (s.energy w.arm).next).bump (Reg.TB_ENERGY_VOID w.arm)
      else (s.setEnergy w.arm (s.energy w.arm).next).raiseIf ((s.energy w.arm).fails s.sys.cfg.par.energy) (160 + w.arm)) := by
  change execEnergyWindowEnd w s = _
  simp [execEnergyWindowEnd, Nat.not_lt.mpr h]

/-! ## The power of PD0 (R23, R63, R64) -/

theorem exec_pd0PowerUp (b : Bool) {s : State} (h : s.sys.going = false) :
    exec (.pd0PowerUp b) s = .next (s.pd0Up b) := by
  change execPd0PowerUp b s = _
  simp [execPd0PowerUp, h]

/-- What the part is after PD0 has powered up: VT counts from zero, start-up is at its first stage and SC0 runs (R23, R64,
R469, R523, R543, R634). -/
theorem State.pd0Up_spec (s : State) (b : Bool) : (s.pd0Up b).tb.vt = 0 ∧ (s.pd0Up b).tb.lock = true ∧
    (s.pd0Up b).sys.going = true ∧ (s.pd0Up b).sys.up = 0 ∧ (s.pd0Up b).sys.stage = 1 ∧ (s.pd0Up b).twn.secondary = b ∧
    (s.pd0Up b).dsp.started = 1 ∧ (s.pd0Up b).mram = s.mram ∧ (s.pd0Up b).ram = s.ram := by
  unfold State.pd0Up State.setBitIf
  cases s.sys.pmLost <;> exact ⟨rfl, rfl, rfl, rfl, rfl, rfl, rfl, rfl, rfl⟩

theorem exec_pd0PowerDown (s : State) : exec .pd0PowerDown s = .next (if s.supplied then s else s.pd0Down) := rfl

/-- Registers that each take the value they had in `s` read as in `s`, and no others change. -/
theorem State.rd_foldl_wr_rd (s : State) (l : List Nat) (u : State) {a : Nat} (h : a ∈ l ∨ u.rd a = s.rd a) :
    (l.foldl (fun t b => t.wr b (s.rd b)) u).rd a = s.rd a := by
  induction l generalizing u with
  | nil => simpa using h
  | cons b r ih =>
    refine ih _ ?_
    by_cases hab : a = b
    · exact .inr (by rw [hab, State.rd_wr_same])
    · rcases h with h | h
      · exact .inl (by simpa [hab] using h)
      · exact .inr (by rw [State.rd_wr_other _ _ _ _ hab, h])

theorem State.foldl_wr_regs (f : Nat → Word) (l : List Nat) (u : State) :
    { l.foldl (fun t b => t.wr b (f b)) u with regs := u.regs } = u := by
  induction l generalizing u with
  | nil => rfl
  | cons b r ih => exact congrArg (fun x : State => { x with regs := u.regs }) (ih (u.wr b (f b)))

/-- The part at reset with the fuses of `s` (R538). -/
def State.fused (s : State) : State :=
  (Reg.KEY_FUSE :: (List.range 8).map Reg.KEY_PUBKEY).foldl (fun t a => t.wr a (s.rd a)) State.reset

theorem State.fused_rd (s : State) {a : Nat} (h : a ∈ Reg.KEY_FUSE :: (List.range 8).map Reg.KEY_PUBKEY) :
    s.fused.rd a = s.rd a := State.rd_foldl_wr_rd s _ _ (.inl h)

theorem State.fused_fields (s : State) : s.fused.tb = {} ∧ s.fused.ram = [] ∧ s.fused.flt = {} ∧ s.fused.twn = {} ∧
    s.fused.lanes = [] ∧ s.fused.key.id = none ∧ s.fused.sys.going = false := by
  have h : { s.fused with regs := [] } = State.reset := State.foldl_wr_regs s.rd _ State.reset
  exact ⟨congrArg State.tb h, congrArg State.ram h, congrArg State.flt h, congrArg State.twn h, congrArg State.lanes h,
    congrArg (fun t : State => t.key.id) h, congrArg (fun t : State => t.sys.going) h⟩

/-- The part without power: what the fuses, the key, its slot and the queue keep (R63, R517, R538). -/
def State.unpowered (s : State) : State :=
  { s.fused with
    mram := s.mram, key := { s.fused.key with present := s.key.present }, free := s.free, pending := s.pending
    sys := { s.fused.sys with pmLost := s.sys.pmLost } }

theorem State.pd0Down_eq (s : State) : s.pd0Down = match s.sys.pm with
    | some r => if s.key.present then s.unpowered.keyTorn (keySlotAt r.slot) (512 + r.body.length) else s.unpowered
    | none => s.unpowered := rfl

/-- What a loss of power keeps of `s` and loses, as the state `t` after it shows (R63, R538). -/
def LostPower (s t : State) : Prop := t.key.present = s.key.present ∧ t.pending = s.pending ∧
  t.rd Reg.KEY_FUSE = s.rd Reg.KEY_FUSE ∧ t.rd (Reg.KEY_PUBKEY 7) = s.rd (Reg.KEY_PUBKEY 7) ∧ t.sys.going = false ∧
  t.tb = {} ∧ t.ram = [] ∧ t.flt = {} ∧ t.twn = {} ∧ t.lanes = [] ∧ t.key.id = none

theorem State.unpowered_lostPower (s : State) : LostPower s s.unpowered := by
  obtain ⟨htb, hram, hflt, htwn, hlanes, hid, hgoing⟩ := s.fused_fields
  have hfuse : s.fused.rd Reg.KEY_FUSE = s.rd Reg.KEY_FUSE := s.fused_rd (by simp)
  have hkey7 : s.fused.rd (Reg.KEY_PUBKEY 7) = s.rd (Reg.KEY_PUBKEY 7) := s.fused_rd (by decide)
  exact ⟨rfl, rfl, hfuse, hkey7, hgoing, htb, hram, hflt, htwn, hlanes, hid⟩

/-- Tearing a record touches the bytes of the key alone. -/
theorem LostPower.keyTorn {s t : State} (h : LostPower s t) (a n : Nat) : LostPower s (t.keyTorn a n) := h

theorem State.pd0Down_lostPower (s : State) : LostPower s s.pd0Down := by
  rw [State.pd0Down_eq]
  split
  · split
    · exact s.unpowered_lostPower.keyTorn _ _
    · exact s.unpowered_lostPower
  · exact s.unpowered_lostPower

/-- Without a record in progress, or without a key, no byte of the key changes (R574). -/
theorem State.pd0Down_mram (s : State) (h : s.sys.pm = none ∨ s.key.present = false) : s.pd0Down.mram = s.mram := by
  rw [State.pd0Down_eq]
  rcases h with h | h
  · rw [h]; rfl
  · split <;> simp [h, State.unpowered]

/-- A record in progress has overwritten its slot in part (R574). -/
theorem State.pd0Down_mram_torn (s : State) {r : PmRec} (hpm : s.sys.pm = some r) (hkey : s.key.present = true) :
    s.pd0Down.mram = (s.keyTorn (keySlotAt r.slot) (512 + r.body.length)).mram := by
  rw [State.pd0Down_eq, hpm]
  simp [hkey, State.keyTorn, State.keyPut, State.unpowered]

end Sys2Proof.Machine

namespace Sys2Proof.Period

open Sys2Proof.Machine Sys2Proof.Safety

/-- Settles O2: time goes on by one tick, and of the rest only the arbiter moves. -/
theorem idleStepIsOneTick : Obligations.IdleStepIsOneTick := by
  intro s hidle
  have hstep : step s = .next (s.elapse 1).memTick := by simp [step, hidle, State.idleTick]
  obtain ⟨hpending, hsys, htb, hram, hmram, hlanes, hflt, hsch⟩ := (State.memTick_onlyArbiter (s.elapse 1)).fields
  obtain ⟨hup, hvt, -⟩ := State.elapse_spec s 1
  refine ⟨_, hstep, ?_, ?_, ?_, ?_, ?_, ?_, ?_, ?_⟩
  · rw [hpending, State.elapse_pending, hidle]
  · rw [hsys, hup]
  · rw [htb, hvt]; rfl
  · rw [hram, State.elapse_ram]
  · rw [hmram, State.elapse_mram]
  · rw [hlanes, State.elapse_lanes]
  · rw [hflt, State.elapse_flt]
  · rw [hsch, State.elapse_sch]

/-- Settles O14: one register takes the upper word, and the bus answers the lower one. -/
theorem readOfVtLowLatchesVtHigh : Obligations.ReadOfVtLowLatchesVtHigh := fun mtime s hp =>
  ⟨_, exec_tbVtLoRead mtime hp, rfl, rfl, (State.rd_wr_same s _ _).trans (hiWord_eq_setWidth _),
    (State.wr_onlyRegs s _ _).2.1, rfl⟩

/-- Settles O17: TB_STAT shows the phase, which is margin while no period runs. -/
theorem phaseReadsAsItsOffsets : Obligations.PhaseReadsAsItsOffsets := by
  intro s hp hrun
  rw [State.readReg_tbStat hp]
  exact State.tbStat_not_running hrun

/-- Settles O19: the bound of the marker's channel decides whether the replica is reloaded. -/
theorem periodMarkerChecksTheReplica : Obligations.PeriodMarkerChecksTheReplica := by
  intro i vt s hp
  refine ⟨fun hin => ?_, fun h0 hout => ?_⟩
  · rw [exec_periodMarker vt hp, State.marker_within s hin]
  · obtain ⟨hreplica, hbit, hrest⟩ := State.reloaded_spec s i vt
    refine ⟨s.reloaded i vt, hreplica, hbit, hrest, ?_⟩
    rw [exec_periodMarker vt hp, State.marker_beyond s (by omega) h0 hout]

/-- Settles O22, by the verdict of ENERGY_WINDOW_END. -/
theorem energyWindowGivesItsVerdict : Obligations.EnergyWindowGivesItsVerdict := by
  intro n s hfull
  refine ⟨?_, fun hvoid => ?_, fun hvoid hfails => ?_, fun hvoid hfails => ?_, rfl, rfl⟩
  · simp [exec_energyWindowEnd ⟨n, true⟩ hfull]
  · simp [exec_energyWindowEnd ⟨n, false⟩ hfull, hvoid]
  · simp [exec_energyWindowEnd ⟨n, false⟩ hfull, hvoid, hfails, State.raiseIf]
  · simp [exec_energyWindowEnd ⟨n, false⟩ hfull, hvoid, hfails, State.raiseIf]

/-- Settles O23: PD0 brings the part up from reset, and takes it down to reset but for key, slot and fuses. -/
theorem powerOfTheModule : Obligations.PowerOfTheModule := by
  refine ⟨fun b s hoff => ⟨_, exec_pd0PowerUp b hoff, State.pd0Up_spec s b⟩, fun s hsup => ?_, fun s hsup => ?_,
    fun s hlock => ?_⟩
  · rw [exec_pd0PowerDown, if_pos hsup]
  · have hexec : exec .pd0PowerDown s = .next s.pd0Down := by simp [exec_pd0PowerDown, hsup]
    exact ⟨_, hexec, s.pd0Down_mram, fun r hpm hkey => s.pd0Down_mram_torn hpm hkey, s.pd0Down_lostPower⟩
  · change execTimebaseLockLost s = _
    simp [execTimebaseLockLost, hlock]

end Sys2Proof.Period
end

section
/-! The handshake channels (R38 to R47): the pair rule, and one rule for each command of a channel. -/

namespace Sys2Proof.Machine

/-! ## The pair rule (R43) -/

theorem pairStep_partner (ep : BitVec 5) (v : BitVec 64) {w : HWord} (hk : w.kind = 2) (he : w.ep = ep) :
    pairStep (some (ep, v)) w = (!pairOk v w.data, none) := if_pos ⟨hk, he⟩

theorem pairStep_not_partner (ep : BitVec 5) (v : BitVec 64) {w : HWord} (h : ¬ (w.kind = 2 ∧ w.ep = ep)) :
    pairStep (some (ep, v)) w = (true, if w.kind = 1 then some (w.ep, w.data) else none) := if_neg h

theorem pairStep_first {w : HWord} (hk : w.kind = 1) : pairStep none w = (false, some (w.ep, w.data)) := if_pos hk

theorem pairStep_none {w : HWord} (hk : w.kind ≠ 1) : pairStep none w = (w.kind == 2, none) := if_neg hk

/-! ## Sending and credits (R38, R39, R65) -/

theorem exec_wordSend_off (src dst : Fin 34) (w : HWord) {s : State} (h : s.chanOn (chanKey src dst) = false) :
    exec (.wordSend src dst w) s = .next s := by
  change execWordSend src dst w s = _
  simp [execWordSend, h]

theorem exec_wordSend_credit (src dst : Fin 34) (w : HWord) {s : State} (h : s.chanOn (chanKey src dst) = true)
    (hc : (s.chan (chanKey src dst)).used < chanD (chanKey src dst)) :
    exec (.wordSend src dst w) s = .next (s.setChan (chanKey src dst) { s.chan (chanKey src dst) with
      used := (s.chan (chanKey src dst)).used + 1, words := (s.chan (chanKey src dst)).words ++ [w], waitSince := none }) := by
  change execWordSend src dst w s = _
  simp [execWordSend, h, hc]

/-- Without a credit the sender keeps the word, and since when (R349). -/
theorem exec_wordSend_noCredit (src dst : Fin 34) (w : HWord) {s : State} (h : s.chanOn (chanKey src dst) = true)
    (hc : ¬ (s.chan (chanKey src dst)).used < chanD (chanKey src dst)) :
    exec (.wordSend src dst w) s = .next (s.setChan (chanKey src dst) { s.chan (chanKey src dst) with
      waitSince := some ((s.chan (chanKey src dst)).waitSince.getD s.now) }) := by
  change execWordSend src dst w s = _
  simp [execWordSend, h, hc]

theorem exec_creditReturn_off (src dst : Fin 34) {s : State} (h : s.chanOn (chanKey src dst) = false) :
    exec (.creditReturn src dst) s = .next s := by
  change execCreditReturn src dst s = _
  simp [execCreditReturn, h]

theorem exec_creditReturn_on (src dst : Fin 34) {s : State} (h : s.chanOn (chanKey src dst) = true) :
    exec (.creditReturn src dst) s = .next (if (s.chan (chanKey src dst)).used = 0 then s.raise 10
      else s.setChan (chanKey src dst) { s.chan (chanKey src dst) with
        used := (s.chan (chanKey src dst)).used - 1, returning := (s.chan (chanKey src dst)).returning - 1 }) := by
  change execCreditReturn src dst s = _
  by_cases hu : (s.chan (chanKey src dst)).used = 0 <;> simp [execCreditReturn, h, hu]

theorem exec_creditWaitTimeout (src dst : Fin 34) {s : State} {t : BitVec 64}
    (h : (s.chan (chanKey src dst)).waitSince = some t) :
    exec (.creditWaitTimeout src dst) s = .next (((s.advanceTo (t + 5)).setBit Reg.SCH_EVT 4).raiseOnce 54) := by
  change execCreditWaitTimeout src dst s = _
  simp [execCreditWaitTimeout, h]

/-! ## Receiving (R38, R42, R43) -/

theorem exec_wordReceive (src dst : Fin 34) {s : State} {w : HWord} {rest : List HWord}
    (hw : (s.chan (chanKey src dst)).words = w :: rest) (hp : s.powered (islandDomain dst) = true) (u t : State)
    (hu : u = s.setChan (chanKey src dst) ((s.chan (chanKey src dst)).taken w rest (s.tagBad dst w)))
    (ht : t = if (pairStep (s.chan (chanKey src dst)).pend w).1 then u.integrity dst else u) :
    exec (.wordReceive src dst) s = .next (if s.tagBad dst w then t.raise 11 else t.wordWork dst w) := by
  change execWordReceive src dst s = _
  simp [execWordReceive, hw, hp, ht, hu]

/-- A word that is neither a marker nor an event does its work elsewhere (R41). -/
theorem State.wordWork_other (s : State) (dst : Nat) {w : HWord} (h4 : w.kind ≠ 4) (h6 : w.kind ≠ 6) :
    s.wordWork dst w = s := by
  rw [State.wordWork, if_neg h4, if_neg fun h => h6 h.1]

theorem State.tagBad_eq_false {s : State} {dst : Nat} {w : HWord} (h7 : w.kind ≠ 7)
    (he : s.endpointOk dst w.ep.toNat = true) : s.tagBad dst w = false := by
  simpa [State.tagBad, he] using h7

theorem State.tagBad_eq_true {s : State} {dst : Nat} {w : HWord} (h : w.kind = 7 ∨ s.endpointOk dst w.ep.toNat = false) :
    s.tagBad dst w = true := by
  simpa [State.tagBad] using h

end Sys2Proof.Machine

namespace Sys2Proof.Period

open Sys2Proof.Machine Sys2Proof.Safety

/-- Settles O21, by what waits and the kind of the word that comes. -/
theorem pairRuleOfAChannel : Obligations.PairRuleOfAChannel := by
  intro w
  refine ⟨fun ep v h => ?_, fun hk => ?_, fun v hk => ?_, fun hk => pairStep_first hk, fun h1 h2 => ?_⟩
  · rw [pairStep_not_partner ep v h]
  · rw [pairStep_none (by rw [hk]; decide), hk]; rfl
  · rw [pairStep_partner w.ep v hk rfl]
    simp [pairOk]
  · rw [pairStep_none h1, beq_false_of_ne h2]

/-- Settles O20: each command of a channel moves one credit or one word, and faults are raised beside it. -/
theorem creditsGovernTheChannel : Obligations.CreditsGovernTheChannel := by
  refine ⟨fun src dst w s hon => ⟨exec_wordSend_credit src dst w hon, fun hc => ?_⟩,
    fun src dst w s hoff => exec_wordSend_off src dst w hoff, fun src dst w rest s hw hp h4 h6 h7 he => ?_,
    fun src dst w rest s hw hp hbad => ?_, fun src dst s hoff => exec_creditReturn_off src dst hoff,
    fun src dst s hon => ⟨fun hu => ?_, fun hu => ?_⟩, fun src dst t s ht => exec_creditWaitTimeout src dst ht⟩
  · exact ⟨_, exec_wordSend_noCredit src dst w hon hc, by simp, by simp⟩
  · refine ⟨_, rfl, ?_⟩
    rw [exec_wordReceive src dst hw hp _ _ rfl rfl, State.tagBad_eq_false h7 he]
    simp [Chan.taken, State.wordWork_other _ _ h4 h6]
  · refine ⟨_, rfl, ?_⟩
    rw [exec_wordReceive src dst hw hp _ _ rfl rfl, State.tagBad_eq_true hbad]
    simp [Chan.taken]
  · rw [exec_creditReturn_on src dst hon, if_pos hu]
  · rw [exec_creditReturn_on src dst hon, if_neg hu]

end Sys2Proof.Period
end

section
/-! The emit phase of a port (R32, R54 to R57, R127 to R137, R358 to R360): what it decides at its due tick, what it sends at its
emit start, and the end of the phase. -/

namespace Sys2Proof.Machine

@[simp] theorem State.port_wr (s : State) (a n : Nat) (v : Word) : (s.wr a v).port n = s.port n := rfl
@[simp] theorem State.port_setBit (s : State) (a i n : Nat) : (s.setBit a i).port n = s.port n := rfl
@[simp] theorem State.port_addField (s : State) (a lo k v n : Nat) : (s.addField a lo k v).port n = s.port n := rfl
@[simp] theorem State.port_setAe (s : State) (m n : Nat) (x : Ae) : (s.setAe m x).port n = s.port n := rfl
@[simp] theorem State.port_advanceTo (s : State) (t : BitVec 64) (n : Nat) : (s.advanceTo t).port n = s.port n := by
  simp [State.port, State.advanceTo]

/-! ## The due tick (R54, R358 to R360) -/

/-- The port at its due tick, before it decides. -/
def State.atDueTick (s : State) (p : Nat) : State :=
  (s.advanceTo (s.tickAt s.dueAt)).setPort p
    { (s.advanceTo (s.tickAt s.dueAt)).port p with dueDone := true, plan := .none }

theorem exec_portDueTick (p : Fin 12) (r : Bool) {s : State} (hrun : s.tb.run = true) (huse : s.inUse p = true)
    (hopen : s.open (.port p) = true) (hdue : (s.port p).dueDone = false) : exec (.portDueTick p r) s =
      .next (if (s.atDueTick p).framesDue p then (s.atDueTick p).portDecide p r else s.atDueTick p) := by
  change execPortDueTick p r s = _
  simp only [execPortDueTick, State.port_advanceTo, State.atDueTick, hrun, huse, hopen, hdue, Bool.true_eq_false,
    Bool.false_eq_true, or_self, if_false]

theorem State.portDecide_block (s : State) (p : Nat) (r : Bool)
    (h : (s.portMisses p).2.blockAt p (s.portMisses p).2.emitAt = true) : s.portDecide p r =
      (s.portMisses p).2.setPort p { (s.portMisses p).2.port p with
        plan := .send .blockArm ((s.portMisses p).2.blockFrame p) } := if_pos h

theorem State.portDecide_open (s : State) (p : Nat) (r : Bool)
    (h : (s.portMisses p).2.blockAt p (s.portMisses p).2.emitAt = false) : s.portDecide p r =
      if (s.portMisses p).1 then ((s.portMisses p).2.portDeblock p).withhold p
      else ((s.portMisses p).2.portDeblock p).portAudit p r := if_neg (by simp [h])

/-- An audit that passes plans the commands handed over and records the period they are for (R54, R55, R241). -/
theorem State.portAudit_pass (s : State) (p : Nat) {cs : CmdSet} (hhand : (s.port p).hand = .cmds cs)
    (hok : (auditOf (.cmds cs) (s.port p).order).ok = true) :
    ((s.portAudit p false).port p).plan = .send .fresh cs ∧ (s.portAudit p false).rd (Reg.PRT_AUD_PASS_PC p) = s.tb.pc + 1 := by
  simp [State.portAudit, hhand, hok]

theorem State.withhold_repeat (s : State) (p : Nat) {cs : CmdSet} (h : (s.port p).passed = some cs) :
    ((s.withhold p).port p).plan = .send .repeated (repeatSet s.nextPer cs) := by
  simp [State.withhold, h]

theorem State.withhold_first (s : State) (p : Nat) (h : (s.port p).passed = none) :
    ((s.withhold p).port p).plan = .send .block00 (s.blockFrame p) := by
  simp [State.withhold, h]

/-! ## The resume of commands (R105, R205, R210) -/

/-- The state after COMMANDS_RESUME. -/
def State.commandsOn (s : State) (p : Nat) : State :=
  let s1 := s.setPort p { s.port p with cmdsOn := true, rptLost := false }
  if s1.open (.ae p) then s1.setAe p ((s1.ae p).resumed (s.port p).reported) else s1

theorem exec_commandsResume (p : Fin 12) {s : State} (hoff : (s.port p).cmdsOn = false) (hdata : (s.lane p).inData = true)
    (hcal : (s.port p).calDone = true) (hquiet : s.portQuiet p = true) :
    exec (.commandsResume p) s = .next (s.commandsOn p) := by
  change execCommandsResume p s = _
  simp [execCommandsResume, State.commandsOn, hoff, hdata, hcal, hquiet]

theorem State.commandsOn_spec (s : State) (p : Nat) :
    ((s.commandsOn p).port p).cmdsOn = true ∧ (s.commandsOn p).lanes = s.lanes ∧ (s.commandsOn p).regs = s.regs := by
  unfold State.commandsOn
  dsimp only
  split <;> exact ⟨by simp, rfl, rfl⟩

/-! ## The emit start and the margin (R32, R70, R127, R129, R137) -/

theorem exec_emitStart_planned (p : Fin 12) {kind : SendKind} {cs : CmdSet} {s u : State} (hrun : s.tb.run = true)
    (huse : s.inUse p = true) (hopen : s.open (.port p) = true) (hu : u = (s.advanceTo s.emitAt).injRead)
    (hplan : (u.port p).plan = .send kind cs) (hdue : u.framesDue p = true) : exec (.emitStart p) s = .next
      (if u.takeoverEmit.blockAt p u.takeoverEmit.emitAt
        then u.takeoverEmit.sendFrame p .blockArm (u.takeoverEmit.blockFrame p)
        else u.takeoverEmit.sendFrame p kind cs) := by
  change execEmitStart p s = _
  simp [execEmitStart, hrun, huse, hopen, ← hu, hplan, hdue]

/-- The newest frame of a port that sends is the frame formed for the next period. -/
theorem State.sendFrame_head (s : State) (p : Nat) (kind : SendKind) (cs : CmdSet) :
    ((s.sendFrame p kind cs).port p).sent.head? = some (s.frameOf kind cs) := by
  simp [State.sendFrame]

theorem exec_marginStart (p : Fin 12) {s : State} (hrun : s.tb.run = true) (huse : s.inUse p = true)
    (hopen : s.open (.port p) = true) : exec (.marginStart p) s =
      .next ((s.advanceTo (s.tickAt (s.sec.port p).eEnd)).setPort p
        { s.port p with plan := .none }) := by
  change execMarginStart p s = _
  simp [execMarginStart, hrun, huse, hopen]

end Sys2Proof.Machine

namespace Sys2Proof.Period

open Sys2Proof.Machine Sys2Proof.Safety

/-- Settles O18: what a port planned decides with the Block at its emit start, and the frame is formed for the next period. -/
theorem frameGoesOutAtEmitStart : Obligations.FrameGoesOutAtEmitStart := by
  refine ⟨fun p kind cs s u hrun huse hopen hu hplan hdue => exec_emitStart_planned p hrun huse hopen hu hplan hdue,
    fun p kind cs s => ⟨s.frameOf kind cs, State.sendFrame_head s p kind cs, rfl, rfl, rfl, rfl, rfl, beq_iff_eq⟩,
    fun p s hrun huse hopen => ⟨_, exec_marginStart p hrun huse hopen, ?_⟩⟩
  refine ⟨by simp, fun q hq => ?_, ?_, ?_, ?_⟩
  · rw [State.port_setPort_other _ _ _ _ hq, State.port_advanceTo]
  · exact State.elapse_regs s _
  · exact State.elapse_ram s _
  · exact State.elapse_flt s _

/-- Settles O32, by the branches of the decision at the due tick. -/
theorem dueTickDecidesTheFrame : Obligations.DueTickDecidesTheFrame := by
  refine ⟨fun p r s u hrun huse hopen hdue hu => ?_, fun p cs s hhand hok => State.portAudit_pass s p hhand hok,
    fun p s => ⟨fun cs h => State.withhold_repeat s p h, State.withhold_first s p⟩,
    fun p s hoff hdata hcal hquiet => ⟨_, exec_commandsResume p hoff hdata hcal hquiet, State.commandsOn_spec s p⟩⟩
  have hexec := exec_portDueTick p r hrun huse hopen hdue
  rw [show s.atDueTick p = u from hu.symm] at hexec
  refine ⟨fun hno => ?_, fun hyes hblock => ?_, fun hyes hblock => ?_⟩
  · rw [hexec, hno]; rfl
  · rw [hexec, if_pos hyes, State.portDecide_block u p r hblock]
  · rw [hexec, if_pos hyes, State.portDecide_open u p r hblock]

end Sys2Proof.Period
end

section
/-! Loop cues and transfers (R253, R324 to R330, R346 to R357): the verdict on a cue at its start tick, the fields of a CUE
word, and what a transfer delivers. -/

namespace Sys2Proof.Machine

/-! ## A stored entry that has lost a complement (R327) -/

theorem pairOk_self (v : Word) : pairOk v v = false := by
  refine beq_false_of_ne fun h => ?_
  have hbit : v.getLsbD 0 = (~~~v).getLsbD 0 := congrArg (fun x : Word => x.getLsbD 0) h
  simp at hbit

theorem Le.entryOk_eq_false (x : Le) (i : Nat)
    (h : (Sparse.get (fun _ => (0, 0xFFFFFFFF)) x.cueMem (8 * i)).1 = (Sparse.get (fun _ => (0, 0xFFFFFFFF)) x.cueMem (8 * i)).2) :
    x.entryOk i = false := by
  refine List.all_eq_false.mpr ⟨0, by simp, ?_⟩
  dsimp only
  rw [Nat.add_zero, h, pairOk_self]
  decide

theorem State.cueBreak_entryOk (s : State) (e i : Nat) : ((s.cueBreak e i).le e).entryOk i = false := by
  refine Le.entryOk_eq_false _ i ?_
  simp [State.cueBreak]

/-! ## The verdict on a cue (R338, R353, R354) -/

/-- The state in which a cue is held against its resources and inputs, at its start tick (R252, R351). -/
def State.cueAt (s : State) (e i : Nat) (c : Cue) (sh : BlkShape) : State :=
  ((s.advanceTo (s.tickAt c.start)).leSettle e).cueSlack e i c sh

/-- What becomes of a cue: a miss of the KIND that applies first, or a run. -/
def State.cueVerdict (s : State) (e i : Nat) (c : Cue) (sh : BlkShape) (pc : BitVec 32) (residue : Bool) : State :=
  if s.cueBusy e c sh ∨ s.cueDark e c then s.cueMiss e i 1 c sh
  else if (s.le e).entryOk i = false then s.cueMiss e i 2 c sh
  else if cueStarved (s.le e) c sh pc ∨ s.nodeLate e c then s.cueMiss e i 3 c sh
  else s.cueRun e c sh residue

theorem exec_cueStart {e : Fin 4} {i : Fin 2048} (dmg : CueDamage) {c : Cue} {sh : BlkShape} {s : State}
    (hc : (s.sec.cueList e)[i.val]? = some c) (hsh : blkShape c.block = some sh) (hrun : s.tb.run = true)
    (hopen : s.open (.le e) = true) (hcomp : s.computes = true) : exec (.cueStart e i dmg) s = .next
      ((if dmg = .entry then (s.cueAt e i c sh).cueBreak e i else s.cueAt e i c sh).cueVerdict e i c sh s.tb.pc
        (dmg == .residue)) := by
  change execCueStart e i dmg s = _
  simp only [execCueStart, hc, hsh, hrun, hopen, hcomp, Bool.true_eq_false, or_self, if_false, State.cueVerdict, State.cueAt]
  split_ifs <;> rfl

section
variable (s : State) (e i : Nat) (c : Cue) (sh : BlkShape) (pc : BitVec 32) (residue : Bool)

theorem State.cueVerdict_occupied (h : s.cueBusy e c sh = true ∨ s.cueDark e c = true) :
    s.cueVerdict e i c sh pc residue = s.cueMiss e i 1 c sh := if_pos h

theorem State.cueVerdict_broken (hb : s.cueBusy e c sh = false) (hd : s.cueDark e c = false)
    (he : (s.le e).entryOk i = false) : s.cueVerdict e i c sh pc residue = s.cueMiss e i 2 c sh := by
  simp [State.cueVerdict, hb, hd, he]

theorem State.cueVerdict_starved (hb : s.cueBusy e c sh = false) (hd : s.cueDark e c = false)
    (he : (s.le e).entryOk i = true) (h : cueStarved (s.le e) c sh pc = true ∨ s.nodeLate e c = true) :
    s.cueVerdict e i c sh pc residue = s.cueMiss e i 3 c sh := by
  simp [State.cueVerdict, hb, hd, he, h]

theorem State.cueVerdict_runs (hb : s.cueBusy e c sh = false) (hd : s.cueDark e c = false) (he : (s.le e).entryOk i = true)
    (hs : cueStarved (s.le e) c sh pc = false) (hn : s.nodeLate e c = false) :
    s.cueVerdict e i c sh pc residue = s.cueRun e c sh residue := by
  simp [State.cueVerdict, hb, hd, he, hs, hn]

/-- A broken entry is a miss of KIND 2 unless its resource is occupied. -/
theorem State.cueVerdict_not_ok (he : (s.le e).entryOk i = false) : s.cueVerdict e i c sh pc residue =
    s.cueMiss e i (if s.cueBusy e c sh = true ∨ s.cueDark e c = true then 1 else 2) c sh := by
  by_cases h : s.cueBusy e c sh = true ∨ s.cueDark e c = true
  · rw [State.cueVerdict_occupied s e i c sh pc residue h, if_pos h]
  · rw [State.cueVerdict, if_neg h, if_pos he, if_neg h]

end

/-! ## The CUE word (R328) -/

/-- A CUE word as a number: its four fields side by side. -/
theorem cueWord_toNat (stamp pcLo : BitVec 16) {i n : Nat} (hi : i < 1024) (hn : n < 65536) :
    (cueWord stamp i n pcLo).toNat = stamp.toNat * 2 ^ 48 + i * 2 ^ 32 + n * 2 ^ 16 + pcLo.toNat := by
  have hs := stamp.isLt
  have hp := pcLo.isLt
  rw [cueWord, BitVec.toNat_ofNat, Nat.mod_eq_of_lt hi, Nat.mod_eq_of_lt hn, Nat.mod_eq_of_lt]
  omega

theorem cueWord_fields (stamp pcLo : BitVec 16) {i n : Nat} (hi : i < 1024) (hn : n < 65536) :
    cueStamp (cueWord stamp i n pcLo) = stamp ∧ cueXing (cueWord stamp i n pcLo) = i ∧
      cueCount (cueWord stamp i n pcLo) = n ∧ cuePc (cueWord stamp i n pcLo) = pcLo := by
  have hw := cueWord_toNat stamp pcLo hi hn
  have hs := stamp.isLt
  have hp := pcLo.isLt
  refine ⟨BitVec.eq_of_toNat_eq ?_, ?_, ?_, BitVec.eq_of_toNat_eq ?_⟩ <;>
    simp only [cueStamp, cueXing, cueCount, cuePc, fieldOf, BitVec.toNat_ofNat, hw] <;> omega

/-! ## Transfers (R324 to R330, R346 to R350) -/

@[simp] theorem State.noteCrossing_course (s : State) (i t : Nat) : (s.noteCrossing i t).course = s.course := by
  simp [State.noteCrossing]

theorem State.xing_eq {s : State} {i : Nat} {x : Xing} (h : s.sec.xings[i]? = some x) : s.xing i = x := by
  simp [State.xing, List.getD_eq_getElem?_getD, h]

/-- The receiver's record of a crossing time changes no crossing of the section. -/
theorem State.xing_noteCrossing {s : State} {i : Nat} {x : Xing} (t : Nat) (h : s.sec.xings[i]? = some x) :
    (s.noteCrossing i t).xing i = x :=
  State.xing_eq (by rw [State.sec_of_course (State.noteCrossing_course s i t), h])

theorem exec_transferReceive {w : BitVec 64} (vals comps : List Word) (held : List Bool) (damage : List Nat) {x : Xing}
    {s : State} (hx : s.sec.xings[cueXing w]? = some x) (hrun : s.tb.run = true)
    (hp : s.powered (islandDomain (codeIsland x.dst)) = true) :
    exec (.transferReceive w vals comps held damage) s = .next (if s.staleXfer (cuePc w)
      then (s.noteCrossing (cueXing w) (s.crossingTime x (cueStamp w))).noteStale
      else (s.noteCrossing (cueXing w) (s.crossingTime x (cueStamp w))).deliver w (slotWords vals comps held) damage) := by
  change execTransferReceive w vals comps held damage s = _
  simp [execTransferReceive, hx, hrun, hp]

section
variable {s : State} {w : BitVec 64} {x : Xing} (data : List (Word × Word × Bool)) (damage : List Nat)
  (hx : s.xing (cueXing w) = x)
include hx

theorem State.deliver_slots (h : x.kind = 0) : s.deliver w data damage = s.slotsIn (cueXing w) x w data := by
  simp [State.deliver, hx, h]

theorem State.deliver_sums (h : x.kind = 3) : s.deliver w data damage = s.sumsIn x (!damage.isEmpty) := by
  simp [State.deliver, hx, h]

theorem State.deliver_nodes (h : x.kind = 4) : s.deliver w data damage = s.nodesTo x (cuePc w) damage := by
  simp [State.deliver, hx, h]

theorem State.deliver_hand (h : x.kind = 6) : s.deliver w data damage = s.handIn x damage := by
  simp [State.deliver, hx, h]

/-- What the other KINDs carry comes as commands of its own (R324). -/
theorem State.deliver_other (h0 : x.kind ≠ 0) (h3 : x.kind ≠ 3) (h4 : x.kind ≠ 4) (h6 : x.kind ≠ 6) :
    s.deliver w data damage = s := by
  unfold State.deliver
  dsimp only
  rw [hx]
  split
  · exact absurd ‹x.kind = 0› h0
  · exact absurd ‹x.kind = 3› h3
  · exact absurd ‹x.kind = 4› h4
  · exact absurd ‹x.kind = 6› h6
  · rfl

end

/-- Whole arm sums reach the loop engine, and nothing else changes (R267). -/
theorem State.sumsIn_whole (s : State) (x : Xing) :
    Sparse.get (fun _ => none) (s.sumsIn x false).isl.sumsNew (16 * (x.dst - 0x20) + (x.src - 0x10)) =
        (s.ae (x.src - 0x10)).sums ∧
      { s.sumsIn x false with
        isl := { (s.sumsIn x false).isl with sumsNew := s.isl.sumsNew, sumsNewAt := s.isl.sumsNewAt } } = s :=
  ⟨Sparse.get_put_same _ _ _ _, rfl⟩

end Sys2Proof.Machine

namespace Sys2Proof.Period

open Sys2Proof.Machine Sys2Proof.Safety

/-- Settles O35, by the verdict on the cue, the fields of the CUE word and the KIND of the crossing. -/
theorem cuesAndTransfersMoveTheLoop : Obligations.CuesAndTransfersMoveTheLoop := by
  refine ⟨fun e i dmg c sh s s1 hc hsh hrun hopen hcomp hs1 => ?_, fun stamp pcLo i n hi hn => cueWord_fields stamp pcLo hi hn,
    fun w vals comps held damage x s hx hrun hp => ?_⟩
  · have hexec := exec_cueStart dmg hc hsh hrun hopen hcomp
    rw [show s.cueAt e i c sh = s1 from hs1.symm] at hexec
    refine ⟨fun hb hd hdmg he hst hn => ?_, fun h hdmg => ?_, fun hb hd hdmg he => ?_, fun hb hd hdmg he h => ?_,
      fun hdmg => ?_⟩
    · rw [hexec, if_neg hdmg, State.cueVerdict_runs _ _ _ _ _ _ _ hb hd he hst hn]
    · rw [hexec, if_neg hdmg, State.cueVerdict_occupied _ _ _ _ _ _ _ h]
    · rw [hexec, if_neg hdmg, State.cueVerdict_broken _ _ _ _ _ _ _ hb hd he]
    · rw [hexec, if_neg hdmg, State.cueVerdict_starved _ _ _ _ _ _ _ hb hd he h]
    · have hbroken := State.cueBreak_entryOk s1 e i
      refine ⟨hbroken, ?_⟩
      rw [hexec, if_pos hdmg, State.cueVerdict_not_ok _ _ _ _ _ _ _ hbroken]
  · have hexec := exec_transferReceive vals comps held damage hx hrun hp
    have hux := State.xing_noteCrossing (s.crossingTime x (cueStamp w)) hx
    refine ⟨_, rfl, fun hst => ?_, fun hst hk hd => ⟨_, ?_, State.sumsIn_whole _ x⟩, fun hst hk => ?_, fun hst hk => ?_,
      fun hst hk => ?_, fun hst ⟨h0, h3, h4, h6⟩ => ?_⟩
    · simp [hexec, hst]
    · rw [hexec, hst, State.deliver_sums _ _ hux hk, hd]; rfl
    · simp [hexec, hst, State.deliver_slots _ _ hux hk]
    · simp [hexec, hst, State.deliver_nodes _ _ hux hk]
    · simp [hexec, hst, State.deliver_hand _ _ hux hk]
    · simp [hexec, hst, State.deliver_other _ _ hux h0 h3 h4 h6]

end Sys2Proof.Period
end

section
/-! The clear commands of the counters (R111, R190, R245, R249, R314, R367, R412, R418, R467, R515, R626, R677, R742, R743,
R783, R822): a list of registers is cleared, and nothing else. -/

namespace Sys2Proof.Machine

open Sys2Proof.Safety

/-! ## Fields of a register -/

theorem fieldOf_eq_extractLsb' {w : Nat} (x : BitVec w) (lo n : Nat) : fieldOf x lo n = (x.extractLsb' lo n).toNat := by
  rw [BitVec.extractLsb'_toNat, Nat.shiftRight_eq_div_pow, fieldOf]

theorem getLsbD_putField (v lo i : Nat) : (putField v lo).getLsbD i =
    (decide (i < 32) && (decide (lo ≤ i) && v.testBit (i - lo))) := by
  rw [putField, BitVec.getLsbD_ofNat, Nat.testBit_mul_two_pow]

/-- A field reads as the number that it was set to, as far as it has room. -/
theorem State.field_setField_same (s : State) (a v : Nat) {lo n : Nat} (h : lo + n ≤ 32) :
    (s.setField a lo n v).field a lo n = v % 2 ^ n := by
  have hbits : ((s.rd a &&& ~~~ putField (2 ^ n - 1) lo) ||| putField (v % 2 ^ n) lo).extractLsb' lo n = BitVec.ofNat n v := by
    refine BitVec.eq_of_getLsbD_eq fun i hi => ?_
    have hlt : lo + i < 32 := by omega
    have hall : (2 ^ n - 1).testBit i = true := by simp [Nat.testBit_two_pow_sub_one, hi]
    have hnum : (v % 2 ^ n).testBit i = v.testBit i := by simp [hi]
    simp only [BitVec.getLsbD_extractLsb', BitVec.getLsbD_or, BitVec.getLsbD_and, BitVec.getLsbD_not, getLsbD_putField,
      BitVec.getLsbD_ofNat, Nat.add_sub_cancel_left, hall, hnum, hi, hlt]
    simp
  rw [State.field, State.setField, State.rd_wr_same, fieldOf_eq_extractLsb', hbits, BitVec.toNat_ofNat]

/-! ## Clearing a list of registers -/

/-- Clearing reaches no other register and no other part of the state. -/
theorem State.clearAll_onlyRegs (s : State) (l : List Nat) : onlyRegs s (s.clearAll l) l := by
  have hregs : { s.clearAll l with regs := s.regs } = s := State.clearAll_regs l s
  have hsetAt : (s.clearAll l).setAt = s.setAt := (congrArg State.setAt hregs :)
  have hsys : (s.clearAll l).sys = s.sys := (congrArg State.sys hregs :)
  refine ⟨congrArg (fun t : State => { t with setAt := s.setAt }) hregs, fun a ha => State.rd_clearAll_other l s a ha,
    fun a _ => ?_⟩
  rw [State.setNow, hsetAt, hsys]
  rfl

/-- The registers of a cleared list read zero, and nothing else changes. -/
theorem State.clearAll_spec (s : State) (l : List Nat) :
    (∀ a ∈ l, (s.clearAll l).rd a = 0) ∧ onlyRegs s (s.clearAll l) l :=
  ⟨fun a ha => State.rd_clearAll_same l s a ha, s.clearAll_onlyRegs l⟩

@[simp] theorem State.clearAll_flt (s : State) (l : List Nat) : (s.clearAll l).flt = s.flt :=
  (congrArg State.flt (State.clearAll_regs l s) :)

/-- Changes of registers alone, one after the other. -/
theorem onlyRegs_trans {s t u : State} {l m : List Nat} (h : onlyRegs s t l) (k : onlyRegs t u m) : onlyRegs s u (l ++ m) := by
  obtain ⟨hrest, hrd, hset⟩ := h
  obtain ⟨krest, krd, kset⟩ := k
  refine ⟨?_, fun a ha => ?_, fun a ha => ?_⟩
  · exact (congrArg (fun x : State => { x with regs := s.regs, setAt := s.setAt }) krest).trans hrest
  · rw [List.mem_append, not_or] at ha
    rw [krd a ha.2, hrd a ha.1]
  · rw [List.mem_append, not_or] at ha
    rw [kset a ha.2, hset a ha.1]

/-- A command through a reachable window answers what its effect makes of the state (R858). -/
theorem answers_of_via {c : Instr} {s : State} {b : Blk} {f : State → State} {P : State → Prop}
    (hexec : exec c s = s.via b f) (hopen : s.open b = true) (h : P (f s)) : answers c s P :=
  ⟨f s, by rw [hexec, State.via_of_open s f hopen], h⟩

/-- A command that clears a list of registers through a reachable window: they read zero, and nothing else changes. -/
theorem answers_of_clear {c : Instr} {s : State} {b : Blk} {l : List Nat} (hexec : exec c s = s.via b fun t => t.clearAll l)
    (hopen : s.open b = true) : answers c s fun t => (∀ a ∈ l, t.rd a = 0) ∧ onlyRegs s t l :=
  answers_of_via hexec hopen (s.clearAll_spec l)

/-! ## The clears that do more than clear a list -/

/-- The counters of the collector are written anew (R412, R418). -/
theorem State.fltCntClr_spec (s : State) :
    (∀ a ∈ [Reg.FLT_CNT_EVT, Reg.FLT_CNT_SQUALL, Reg.FLT_CNT_LOCK], s.fltCntClr.rd a = 0) ∧
      s.fltCntClr.flt = { s.flt with selfBad := false } ∧
      onlyRegs { s with flt := s.fltCntClr.flt } s.fltCntClr [Reg.FLT_CNT_EVT, Reg.FLT_CNT_SQUALL, Reg.FLT_CNT_LOCK] := by
  have hflt : s.fltCntClr.flt = { s.flt with selfBad := false } := State.clearAll_flt _ _
  obtain ⟨hzero, honly⟩ := State.clearAll_spec { s with flt := { s.flt with selfBad := false } }
    [Reg.FLT_CNT_EVT, Reg.FLT_CNT_SQUALL, Reg.FLT_CNT_LOCK]
  exact ⟨hzero, hflt, hflt ▸ honly⟩

/-- The counters that SCH_CNT_CLR sets to zero; the slack is set to its largest value instead (R367, log entry 37). -/
def schCounters : List Nat := [Reg.SCH_MISS_PER, Reg.SCH_SLACK_AT, Reg.SCH_XING_MAX, Reg.SCH_XING_OVER, Reg.SCH_STALE] ++
  (List.range 4).map Reg.SCH_LE_MISS ++ (List.range 12).map Reg.SCH_ARM_MISS

/-- The slack monitor starts anew (R367). -/
def State.slackAnew (s : State) : State :=
  { s.wr Reg.SCH_SLACK 0x7FFF7FFF with sch := { s.sch with xingMax := [] } }

theorem State.rd_slackAnew (s : State) (a : Nat) :
    s.slackAnew.rd a = if a = Reg.SCH_SLACK then 0x7FFF7FFF else s.rd a := State.rd_wr s Reg.SCH_SLACK a 0x7FFF7FFF

theorem State.schCntClr_eq (s : State) : s.schCntClr = (s.clearAll schCounters).slackAnew := rfl

theorem State.schCntClr_spec (s : State) : s.schCntClr.rd Reg.SCH_SLACK = 0x7FFF7FFF ∧ s.schCntClr.sch.xingMax = [] ∧
    (∀ a ∈ schCounters, s.schCntClr.rd a = 0) ∧ regsBut s s.schCntClr (Reg.SCH_SLACK :: schCounters) ∧
    { s.schCntClr with regs := s.regs, sch := s.sch } = s := by
  have hslack : Reg.SCH_SLACK ∉ schCounters := by decide
  have hregs : { s.clearAll schCounters with regs := s.regs } = s := State.clearAll_regs schCounters s
  obtain ⟨hzero, hrest⟩ : (∀ a ∈ schCounters, (s.clearAll schCounters).rd a = 0) ∧
      (∀ a, a ∉ schCounters → (s.clearAll schCounters).rd a = s.rd a) :=
    ⟨fun a => State.rd_clearAll_same _ s a, fun a => State.rd_clearAll_other _ s a⟩
  rw [State.schCntClr_eq]
  generalize s.clearAll schCounters = u at *
  refine ⟨by simp [State.rd_slackAnew], rfl, fun a ha => ?_, fun a ha => ?_,
    congrArg (fun t : State => { t with sch := s.sch }) hregs⟩
  · rw [State.rd_slackAnew, if_neg (ne_of_mem_of_not_mem ha hslack), hzero a ha]
  · rw [List.mem_cons, not_or] at ha
    rw [State.rd_slackAnew, if_neg ha.1, hrest a ha.2]

/-- The counter registers that NET_CNT_CLR clears whole (R626). -/
def netCounters : List Nat :=
  [Reg.NET_ORD_CNT, Reg.NET_ORD_DUP, Reg.NET_STAT_CNT, Reg.NET_LATE_CNT, Reg.NET_PRP_DUP, Reg.NET_PRP_WRONG]

theorem State.netCntClr_spec (s : State) : (∀ a ∈ netCounters, s.netCntClr.rd a = 0) ∧
    s.netCntClr.field Reg.NET_ORD_REF 16 16 = 0 ∧ onlyRegs s s.netCntClr (Reg.NET_ORD_REF :: netCounters) := by
  obtain ⟨hzero, honly⟩ := State.clearAll_spec (s.setField Reg.NET_ORD_REF 16 16 0) netCounters
  have href : s.netCntClr.rd Reg.NET_ORD_REF = (s.setField Reg.NET_ORD_REF 16 16 0).rd Reg.NET_ORD_REF :=
    State.rd_clearAll_other _ _ _ (by decide)
  refine ⟨hzero, ?_, onlyRegs_trans (s.wr_onlyRegs Reg.NET_ORD_REF _) honly⟩
  rw [State.field, href]
  exact State.field_setField_same s Reg.NET_ORD_REF 0 (by decide)

end Sys2Proof.Machine

namespace Sys2Proof.Lanes

open Sys2Proof.Machine Sys2Proof.Safety

/-- Settles O15: each command clears one list of registers; the collector, the schedule and the network do a little more. -/
theorem countClearsZeroTheirCounters : Obligations.CountClearsZeroTheirCounters := by
  refine ⟨fun p s ho => answers_of_clear rfl ho, fun p s ho => answers_of_clear rfl ho, fun p s ho => answers_of_clear rfl ho,
    fun n s ho => answers_of_clear rfl ho, fun e s ho => answers_of_clear rfl ho,
    fun s ho => answers_of_via rfl ho s.fltCntClr_spec, fun s ho => answers_of_clear rfl ho,
    fun s ho => answers_of_clear rfl ho, fun s ho => answers_of_clear rfl ho, fun s ho => answers_of_clear rfl ho,
    fun s ho => answers_of_clear rfl ho, fun p s ho => answers_of_clear rfl ho, fun ch s ho => answers_of_clear rfl ho,
    fun s ho => answers_of_via rfl ho s.schCntClr_spec, fun s ho => answers_of_via rfl ho s.netCntClr_spec⟩

end Sys2Proof.Lanes
end

section
/-! What an event in the collector, a surrender of the lease and a loss of health leave of the lanes: their state and their
registers (R98 to R115). One rule for each shared operation. -/

namespace Sys2Proof.Machine

/-- Is an address that of a lane register, of an arm port or of X13? (R111, R857) -/
def laneReg (a : Nat) : Bool :=
  decide ((0x20200000 ≤ a ∧ a < 0x202C0000 ∧ a % 0x10000 < 0x40) ∨ (0x20060800 ≤ a ∧ a < 0x20060840))

/-- The lane registers of a register file. -/
def laneRegs (r : Sparse Word) (a : Nat) : Word := if laneReg a then Sparse.get Reg.resetAt r a else 0

/-- The lanes of a state: their typed state and their registers. -/
def State.laneView (s : State) : Sparse Lane × (Nat → Word) := (s.lanes, laneRegs s.regs)

theorem laneReg_laneBase (p : Nat) {k : Nat} (hk : k < 0x40) : laneReg (Reg.laneBase p + k) = true := by
  refine decide_eq_true ?_
  unfold Reg.laneBase
  split <;> omega

@[simp] theorem laneReg_PRT_LANE_CTL (p : Nat) : laneReg (Reg.PRT_LANE_CTL p) = true := laneReg_laneBase p (by decide)
@[simp] theorem laneReg_PRT_LANE_EVT (p : Nat) : laneReg (Reg.PRT_LANE_EVT p) = true := laneReg_laneBase p (by decide)

theorem State.lane_of_laneView {s t : State} (h : t.laneView = s.laneView) (n : Nat) : t.lane n = s.lane n :=
  (congrArg (fun v : Sparse Lane × (Nat → Word) => Sparse.get (fun _ => ({} : Lane)) v.1 n) h :)

theorem State.rd_of_laneView {s t : State} (h : t.laneView = s.laneView) {a : Nat} (ha : laneReg a = true) :
    t.rd a = s.rd a := by
  have hregs : laneRegs t.regs a = laneRegs s.regs a := congrArg (fun v : Sparse Lane × (Nat → Word) => v.2 a) h
  rwa [laneRegs, laneRegs, if_pos ha, if_pos ha] at hregs

/-! ## How the view of a state is read -/

@[simp] theorem State.laneView_mk (regs setAt held sys tb lanes ports aes les isl sch flt gst twn key drf net dsp dma mem saf
    fio iso adc shfs pwm cans ram mram bus free pending) :
    State.laneView ⟨regs, setAt, held, sys, tb, lanes, ports, aes, les, isl, sch, flt, gst, twn, key, drf, net, dsp, dma, mem,
      saf, fio, iso, adc, shfs, pwm, cans, ram, mram, bus, free, pending⟩ = (lanes, laneRegs regs) := rfl

@[simp] theorem State.laneView_fold (s : State) : (s.lanes, laneRegs s.regs) = s.laneView := rfl

@[simp] theorem State.laneView_ite (c : Prop) [Decidable c] (s t : State) :
    (if c then s else t).laneView = if c then s.laneView else t.laneView := apply_ite State.laneView c s t

theorem State.laneView_foldl {α : Type} (l : List α) (f : State → α → State)
    (h : ∀ t, ∀ a ∈ l, (f t a).laneView = t.laneView) (s : State) : (l.foldl f s).laneView = s.laneView := by
  induction l generalizing s with
  | nil => rfl
  | cons a r ih => rw [List.foldl_cons, ih (fun t b hb => h t b (List.mem_cons_of_mem a hb)), h s a List.mem_cons_self]

/-! ## Registers of other blocks -/

@[simp] theorem laneReg_collector : laneReg Reg.FLT_EVT = false ∧ laneReg Reg.FLT_FIRST = false ∧
    laneReg Reg.FLT_FIRST_VT_LO = false ∧ laneReg Reg.FLT_FIRST_VT_HI = false ∧ laneReg Reg.FLT_CNT_EVT = false ∧
    laneReg Reg.FLT_CNT_SQUALL = false ∧ laneReg Reg.FLT_CNT_LOCK = false ∧ laneReg Reg.FLT_INJ_STAT = false := by decide

@[simp] theorem laneReg_twin : laneReg Reg.TWN_EVT = false ∧ laneReg Reg.TWN_CFG = false ∧ laneReg Reg.TWN_RES = false ∧
    laneReg Reg.TWN_SURR = false := by decide

@[simp] theorem laneReg_reaction : laneReg Reg.LE_INJ_CTL = false ∧ laneReg Reg.ADC_EVT = false ∧
    laneReg Reg.PWM_EVT = false := by decide

theorem laneReg_FLT_STICKY {n : Nat} (h : n < 256) : laneReg (Reg.FLT_STICKY (n / 32)) = false := by
  refine decide_eq_false ?_
  unfold Reg.FLT_STICKY
  omega

theorem laneReg_pwm {n : Nat} (h : n < 16) : laneReg (Reg.PWM_PER n) = false ∧ laneReg (Reg.PWM_T n) = false := by
  unfold Reg.PWM_PER Reg.PWM_T
  exact ⟨decide_eq_false (by omega), decide_eq_false (by omega)⟩

theorem laneReg_PRT_CTL_REQ {n : Nat} (h : n < 12) : laneReg (Reg.PRT_CTL_REQ n) = false := by
  refine decide_eq_false ?_
  unfold Reg.PRT_CTL_REQ
  omega

theorem laneRegs_put (r : Sparse Word) {a : Nat} (v : Word) (h : laneReg a = false) :
    laneRegs (Sparse.put Reg.resetAt r a v) = laneRegs r := by
  funext b
  by_cases hb : b = a
  · simp [laneRegs, hb, h]
  · simp [laneRegs, Sparse.get_put_other _ _ _ _ _ hb]

section
variable (s : State) {a : Nat} (h : laneReg a = false)
include h

@[simp] theorem State.wr_laneView (v : Word) : (s.wr a v).laneView = s.laneView :=
  Prod.ext rfl (laneRegs_put s.regs v h)
@[simp] theorem State.setBit_laneView (i : Nat) : (s.setBit a i).laneView = s.laneView := s.wr_laneView h _
@[simp] theorem State.clrBit_laneView (i : Nat) : (s.clrBit a i).laneView = s.laneView := s.wr_laneView h _
@[simp] theorem State.setField_laneView (lo n v : Nat) : (s.setField a lo n v).laneView = s.laneView := s.wr_laneView h _
@[simp] theorem State.bump_laneView : (s.bump a).laneView = s.laneView := s.wr_laneView h _
@[simp] theorem State.setBitIf_laneView (c : Bool) (i : Nat) : (s.setBitIf c a i).laneView = s.laneView := by
  simp [State.setBitIf, h]

end

/-! ## Parts of the state -/

@[simp] theorem State.lifeUp_laneView (s : State) (i : Nat) : (s.lifeUp i).laneView = s.laneView := rfl
@[simp] theorem State.keyDue_laneView (s : State) : s.keyDue.laneView = s.laneView := rfl
@[simp] theorem State.setPort_laneView (s : State) (n : Nat) (x : Port) : (s.setPort n x).laneView = s.laneView := rfl
@[simp] theorem State.setSrc_laneView (s : State) (n : Nat) (x : Src) : (s.setSrc n x).laneView = s.laneView := rfl
@[simp] theorem State.setPwmCh_laneView (s : State) (n : Nat) (x : PwmCh) : (s.setPwmCh n x).laneView = s.laneView := rfl
@[simp] theorem State.setStage_laneView (s : State) (k : Nat) : (s.setStage k).laneView = s.laneView := rfl

/-! ## Power of the engines -/

theorem Sparse.get_clearRange_other {α : Type} (d : Nat → α) (t : Sparse α) {lo hi a : Nat} (h : a < lo ∨ hi ≤ a) :
    Sparse.get d (Sparse.clearRange t lo hi) a = Sparse.get d t a := by
  induction t with
  | nil => rfl
  | cons e r ih =>
    obtain ⟨b, v⟩ := e
    by_cases hb : b < lo ∨ hi ≤ b
    · rw [show Sparse.clearRange ((b, v) :: r) lo hi = (b, v) :: Sparse.clearRange r lo hi by
        simp [Sparse.clearRange, hb], Sparse.get, Sparse.get, ih]
    · have hne : b ≠ a := fun e => hb (e ▸ h)
      rw [show Sparse.clearRange ((b, v) :: r) lo hi = Sparse.clearRange r lo hi by
        simp [Sparse.clearRange, hb], Sparse.get, if_neg hne, ih]

theorem lt_of_laneReg {a : Nat} (h : laneReg a = true) : a < 0x202C0000 := by
  rw [laneReg, decide_eq_true_eq] at h
  omega

/-- The windows of the engines lie beyond the lane registers (R857). -/
theorem State.resetWindow_laneView (s : State) (b : Blk) (h : 0x202C0000 ≤ b.range.1) :
    (s.resetWindow b).laneView = s.laneView := by
  refine Prod.ext rfl (funext fun a => ?_)
  change laneRegs (Sparse.clearRange s.regs b.range.1 b.range.2) a = laneRegs s.regs a
  by_cases ha : laneReg a = true
  · have hlt : a < b.range.1 := (lt_of_laneReg ha).trans_le h
    simp [laneRegs, Sparse.get_clearRange_other _ _ (.inl hlt)]
  · simp [laneRegs, ha]

/-- The domains of the loop engines and of the arm engines hold no lane (R63). -/
theorem State.domainOff_laneView (s : State) (d : Nat) (hd : d = 2 ∨ d = 3 ∨ d = 4) :
    (s.domainOff d).laneView = s.laneView := by
  have hblks : ∀ b ∈ domainBlks d, 0x202C0000 ≤ b.range.1 := by
    rcases hd with rfl | rfl | rfl <;> decide
  have hlose : (s.loseBlocks d).laneView = s.laneView := by
    rcases hd with rfl | rfl | rfl <;> rfl
  have hlost : ((domainBlks d).foldl State.resetWindow (s.loseBlocks d)).laneView = s.laneView :=
    (State.laneView_foldl _ _ (fun t b hb => State.resetWindow_laneView t b (hblks b hb)) _).trans hlose
  unfold State.domainOff
  split
  · exact hlost
  · rfl

@[simp] theorem State.enginesOff_laneView (s : State) : s.enginesOff.laneView = s.laneView := by
  simp [State.enginesOff, State.domainOff_laneView]

/-! ## What follows from an event in the collector -/

@[simp] theorem State.setLatch_laneView (s : State) (b : Bool) (t : BitVec 64) : (s.setLatch b t).laneView = s.laneView := rfl

theorem State.setSticky_laneView (s : State) {n : Nat} (t : BitVec 64) (h : n < 256) :
    (s.setSticky n t).laneView = s.laneView := by
  simp [State.setSticky, laneReg_FLT_STICKY h]

@[simp] theorem State.adcInject_laneView (s : State) (m : Nat) (t : BitVec 64) : (s.adcInject m t).laneView = s.laneView := by
  unfold State.adcInject
  split <;> rfl

@[simp] theorem State.adcTrigger_laneView (s : State) (t : BitVec 64) : (s.adcTrigger t).laneView = s.laneView := by
  unfold State.adcTrigger
  split
  · exact s.setBit_laneView (by decide) _
  · exact State.laneView_foldl _ _ (fun u m _ => State.adcInject_laneView u m _) _

@[simp] theorem State.eventHook_laneView (s : State) (n : Nat) (t : BitVec 64) : (s.eventHook n t).laneView = s.laneView := by
  simp [State.eventHook, State.adcEvent]

theorem State.noteEvent_laneView (s : State) {n : Nat} (t : BitVec 64) (h : n < 256) :
    (s.noteEvent n t).laneView = s.laneView := by
  simp [State.noteEvent, State.setSticky_laneView _ _ h]

@[simp] theorem State.blockBegins_laneView (s : State) : s.blockBegins.laneView = s.laneView := by
  simp [State.blockBegins, State.injAbort]

@[simp] theorem State.pmCause_laneView (s : State) (c : Nat) : (s.pmCause c).laneView = s.laneView := by
  unfold State.pmCause
  split <;> rfl

theorem State.pwmTake_laneView (s : State) {n : Nat} (h : n < 16) : (s.pwmTake n).laneView = s.laneView := by
  unfold State.pwmTake
  split <;> simp [laneReg_pwm h]

theorem State.pwmCycle_laneView (s : State) {n : Nat} (t : BitVec 64) (h : n < 16) :
    (s.pwmCycle n t).laneView = s.laneView := by
  simp [State.pwmCycle, State.pwmTake_laneView _ h]

theorem State.lt_of_mem_choppers {s : State} {n : Nat} (h : n ∈ s.choppers) : n < 16 :=
  List.mem_range.mp (List.mem_filter.mp h).1

@[simp] theorem State.tripOn_laneView (s : State) : s.tripOn.laneView = s.laneView := by
  unfold State.tripOn State.pwmTrip
  rw [State.laneView_foldl _ _ (fun t n hn => State.pwmCycle_laneView t _ (State.lt_of_mem_choppers hn))]
  simp

@[simp] theorem State.tripBegins_laneView (s : State) : s.tripBegins.laneView = s.laneView := by
  simp [State.tripBegins]

@[simp] theorem State.pwmTripEnds_laneView (s : State) : s.pwmTripEnds.laneView = s.laneView := by
  unfold State.pwmTripEnds
  extract_lets s1
  split
  · exact State.laneView_foldl _ _ (fun t n hn => State.pwmCycle_laneView t _ (State.lt_of_mem_choppers hn)) _
  · exact State.laneView_foldl _ _ (fun t n _ => State.setPwmCh_laneView t n _) _

@[simp] theorem State.tripEnds_laneView (s : State) : s.tripEnds.laneView = s.laneView := by
  simp [State.tripEnds]

@[simp] theorem State.settle_laneView (b s : State) (t : BitVec 64) : (State.settle b s t).laneView = s.laneView := by
  simp [State.settle]

@[simp] theorem State.lockedNow_laneView (s : State) : s.lockedNow.laneView = s.laneView := by
  simp [State.lockedNow]

@[simp] theorem State.collide_laneView (s : State) (n : Nat) : (s.collide n).laneView = s.laneView := by
  simp [State.collide]

@[simp] theorem State.recDue_laneView (s : State) (a b : Nat) : (s.recDue a b).laneView = s.laneView := by
  simp [State.recDue]

@[simp] theorem State.undo_laneView (s : State) (n : Nat) (t : BitVec 64) : (s.undo n t).laneView = s.laneView := by
  unfold State.undo
  extract_lets x
  split <;> simp

@[simp] theorem State.clearAt_laneView (s : State) (n : Nat) (t : BitVec 64) : (s.clearAt n t).laneView = s.laneView := by
  simp [State.clearAt]

@[simp] theorem State.reclass_laneView (s : State) (n : Nat) (e : FltEntry) : (s.reclass n e).laneView = s.laneView := rfl

section
variable {n : Nat} (h : n < 256)
include h

theorem State.takeEvent_laneView (s : State) (t : BitVec 64) (inj : Bool) : (s.takeEvent n t inj).laneView = s.laneView := by
  simp [State.takeEvent, State.noteEvent_laneView _ _ h]

theorem State.takeUnder_laneView (s : State) (t : BitVec 64) (inj : Bool) : (s.takeUnder n t inj).laneView = s.laneView := by
  unfold State.takeUnder
  extract_lets x
  split <;> simp [State.takeEvent_laneView h]

end

/-- An EVENT word names one of 256 sources (R375). -/
theorem srcOf_lt (n : Nat) : srcOf n < 256 := by
  unfold srcOf
  split <;> omega

@[simp] theorem State.collect_laneView (s : State) (n : Nat) (t : BitVec 64) (inj : Bool) :
    (s.collect n t inj).laneView = s.laneView := by
  have htake := fun (u : State) => State.takeUnder_laneView (srcOf_lt n) u t inj
  unfold State.collect
  extract_lets k s0 u hit s1
  have hs0 : s0.laneView = s.laneView := by
    unfold s0
    split <;> simp
  have hs1 : s1.laneView = s.laneView := by rw [htake, State.undo_laneView, hs0]
  split
  · simp
  · split <;> simp [k, htake, hs0, hs1]

/-! ## The lease and its surrender -/

@[simp] theorem State.setLine_laneView (s : State) (p : Nat) (l : LineAt) : (s.setLine p l).laneView = s.laneView := by
  simp [State.setLine]

@[simp] theorem State.lineNote_laneView (s : State) (p : Nat) : (s.lineNote p).laneView = s.laneView := by
  simp [State.lineNote]

@[simp] theorem State.setLease_laneView (s : State) (l : LeaseSt) : (s.setLease l).laneView = s.laneView := by
  simp [State.setLease, State.startXfer]

@[simp] theorem State.sendMsg_laneView (s : State) (op : BitVec 8) (arg : BitVec 64) :
    (s.sendMsg op arg).laneView = s.laneView := by
  simp [State.sendMsg, State.putMsg]

@[simp] theorem State.stopFrames_laneView (s : State) : s.stopFrames.laneView = s.laneView :=
  State.laneView_foldl _ _ (fun t n _ => State.setPort_laneView t n _) s

@[simp] theorem State.dropHand_laneView (s : State) : s.dropHand.laneView = s.laneView := by
  simp [State.dropHand, State.twnResult]

@[simp] theorem State.standDown_laneView (s : State) : s.standDown.laneView = s.laneView := by
  simp [State.standDown]

@[simp] theorem State.ill_laneView (s : State) : s.ill.laneView = s.laneView := by
  simp [State.ill]

@[simp] theorem State.surrender_laneView (s : State) (why what : Nat) : (s.surrender why what).laneView = s.laneView := by
  unfold State.surrender
  extract_lets s1 s2 x s3
  have hs3 : s3.laneView = s.laneView := by
    rw [show s3.laneView = s2.laneView from rfl]
    simp [s2, s1]
  simp [hs3]

@[simp] theorem State.maskSurrender_laneView (b s : State) (n : Nat) : (State.maskSurrender b s n).laneView = s.laneView := by
  simp [State.maskSurrender]

@[simp] theorem State.raise_laneView (s : State) (n : Nat) : (s.raise n).laneView = s.laneView := by
  simp [State.raise]

/-! ## A port that leaves DATA, or reaches it -/

@[simp] theorem State.portSurrender_laneView (s : State) (p : Nat) : (s.portSurrender p).laneView = s.laneView := by
  simp [State.portSurrender]

@[simp] theorem State.leaveData_laneView (s : State) (p : Nat) : (s.leaveData p).laneView = s.laneView := by
  unfold State.leaveData
  split
  · next h => simp [laneReg_PRT_CTL_REQ h]
  · simp

@[simp] theorem State.calStart_laneView (s : State) (n : Nat) : (s.calStart n).laneView = s.laneView := by
  simp [State.calStart, State.queueCtrl]

@[simp] theorem State.stageFourDone_laneView (s : State) : s.stageFourDone.laneView = s.laneView := by
  simp [State.stageFourDone]

@[simp] theorem State.twinAlign_laneView (s : State) : s.twinAlign.laneView = s.laneView := by
  simp [State.twinAlign, State.sendEcho]

end Sys2Proof.Machine
end

section
/-! The lanes of a port (R78 to R113): bits of their registers, one rule for each thing that happens to a port, and the writes
to PRT_LANE_CTL. -/

namespace Sys2Proof.Machine

open Sys2Proof.Safety

/-! ## Bits of a register -/

theorem getLsbD_bitIf (b : Bool) (i : Nat) {j : Nat} (hj : j < 32) : (bitIf b i).getLsbD j = (b && decide (j = i)) := by
  cases b
  · simp [bitIf]
  · rcases Nat.lt_trichotomy j i with h | h | h
    · simp [bitIf, BitVec.getLsbD_shiftLeft, h, h.ne]
    · simp [bitIf, h, h ▸ hj]
    · simp [bitIf, hj, h.ne', h.not_gt, Nat.sub_ne_zero_of_lt h]

theorem State.bitOf_setBit (s : State) (a b i : Nat) {j : Nat} (hj : j < 32) :
    (s.setBit a i).bitOf b j = (s.bitOf b j || decide (b = a ∧ j = i)) := by
  by_cases hb : b = a
  · subst hb
    simp [State.bitOf, getLsbD_bitIf _ _ hj]
  · simp [State.bitOf, State.rd_setBit_other _ _ _ _ hb, hb]

theorem State.bitOf_clrBit (s : State) (a b i : Nat) {j : Nat} (hj : j < 32) :
    (s.clrBit a i).bitOf b j = (s.bitOf b j && !decide (b = a ∧ j = i)) := by
  by_cases hb : b = a
  · subst hb
    rw [State.bitOf, State.rd_clrBit_same, BitVec.getLsbD_and, BitVec.getLsbD_not, getLsbD_bitIf _ _ hj, State.bitOf]
    simp [hj]
  · simp [State.bitOf, State.rd_clrBit_other _ _ _ _ hb, hb]

theorem State.bitOf_addField_other (s : State) {a b : Nat} (lo n k j : Nat) (h : b ≠ a) :
    (s.addField a lo n k).bitOf b j = s.bitOf b j := by
  rw [State.bitOf, State.rd_addField_other _ _ _ _ _ _ h, State.bitOf]

/-- The lane registers that the rules name are all different. -/
@[simp] theorem laneRegs_ne (p : Nat) : Reg.PRT_LANE_EVT p ≠ Reg.PRT_LANE_CTL p ∧ Reg.PRT_LANE_CTL p ≠ Reg.PRT_LANE_EVT p ∧
    Reg.PRT_LANE_EVT p ≠ Reg.PRT_TRAIN_CNT p ∧ Reg.PRT_LANE_CTL p ≠ Reg.PRT_TRAIN_CNT p ∧
    Reg.PRT_LANE_EVT p ≠ Reg.PRT_LOS_CNT p ∧ Reg.PRT_LANE_EVT p ≠ Reg.PRT_LOL_CNT p ∧
    Reg.PRT_PRBS_ERR p ≠ Reg.PRT_LANE_EVT p := by
  simp [Reg.PRT_LANE_EVT, Reg.PRT_LANE_CTL, Reg.PRT_TRAIN_CNT, Reg.PRT_LOS_CNT, Reg.PRT_LOL_CNT, Reg.PRT_PRBS_ERR]

/-! ## What leaves the lanes as they are -/

@[simp] theorem State.lane_wr (s : State) (a n : Nat) (v : Word) : (s.wr a v).lane n = s.lane n := rfl
@[simp] theorem State.lane_setBit (s : State) (a i n : Nat) : (s.setBit a i).lane n = s.lane n := rfl
@[simp] theorem State.lane_clrBit (s : State) (a i n : Nat) : (s.clrBit a i).lane n = s.lane n := rfl
@[simp] theorem State.lane_addField (s : State) (a lo k v n : Nat) : (s.addField a lo k v).lane n = s.lane n := rfl
@[simp] theorem State.lane_raise (s : State) (i n : Nat) : (s.raise i).lane n = s.lane n :=
  State.lane_of_laneView (s.raise_laneView i) n
@[simp] theorem State.lane_leaveData (s : State) (p n : Nat) : (s.leaveData p).lane n = s.lane n :=
  State.lane_of_laneView (s.leaveData_laneView p) n

@[simp] theorem State.bitOf_setLane (s : State) (n a i : Nat) (x : Lane) : (s.setLane n x).bitOf a i = s.bitOf a i := rfl
@[simp] theorem State.bitOf_laneRest (s : State) (p : Nat) (x : Lane) (st : LaneSt) (a i : Nat) :
    (s.laneRest p x st).bitOf a i = s.bitOf a i := rfl

theorem State.bitOf_of_laneView {s t : State} (h : t.laneView = s.laneView) {a : Nat} (ha : laneReg a = true) (i : Nat) :
    t.bitOf a i = s.bitOf a i := by
  rw [State.bitOf, State.rd_of_laneView h ha, State.bitOf]

@[simp] theorem State.bitOf_raise (s : State) (n : Nat) {a : Nat} (ha : laneReg a = true) (i : Nat) :
    (s.raise n).bitOf a i = s.bitOf a i := State.bitOf_of_laneView (s.raise_laneView n) ha i
@[simp] theorem State.bitOf_leaveData (s : State) (p : Nat) {a : Nat} (ha : laneReg a = true) (i : Nat) :
    (s.leaveData p).bitOf a i = s.bitOf a i := State.bitOf_of_laneView (s.leaveData_laneView p) ha i

/-! ## The state of a port -/

/-- Does a port rest, so that the test fields written take effect at once? (R110) -/
abbrev LaneSt.rests (st : LaneSt) : Prop := st = .off ∨ st = .fault ∨ st = .idle

theorem LaneSt.rests.not_inData {x : Lane} (h : x.st.rests) : x.inData = false := by
  rcases h with h | h | h <;> simp [Lane.inData, h]

/-- A port in training is not in DATA. -/
theorem Lane.not_inData_of_training {x : Lane} (h : x.training = true) : x.inData = false := by
  cases hst : x.st <;> simp_all [Lane.training, Lane.inData]

/-- The test fields of a lane alone change. -/
@[simp] theorem Lane.takeTest_fields (x : Lane) (c : Word) : (x.takeTest c).st = x.st ∧ (x.takeTest c).up = x.up ∧
    (x.takeTest c).failCode = x.failCode ∧ (x.takeTest c).trainFailed = x.trainFailed ∧
    (x.takeTest c).locked = x.locked ∧ (x.takeTest c).loopEff = loopOf c ∧
    (x.takeTest c).prbsTx = c.getLsbD 5 ∧ (x.takeTest c).prbsRx = c.getLsbD 4 := by
  unfold Lane.takeTest
  split <;> exact ⟨rfl, rfl, rfl, rfl, rfl, rfl, rfl, rfl⟩

@[simp] theorem Lane.takeTest_dark (x : Lane) (c : Word) (f : Fibre) : (x.takeTest c).dark f = x.dark f := by
  unfold Lane.takeTest
  cases f <;> split <;> rfl

@[simp] theorem Lane.takeTest_inData (x : Lane) (c : Word) : (x.takeTest c).inData = x.inData := by
  simp [Lane.inData]

@[simp] theorem State.lane_laneRest (s : State) (p : Nat) (x : Lane) (st : LaneSt) :
    (s.laneRest p x st).lane p = (s.enterLane p x st).takeTest (s.rd (Reg.PRT_LANE_CTL p)) :=
  State.lane_setLane_same s p _

/-! ## What happens to a port -/

/-- Training starts: the port is in CLOCK, and the request bit is clear (R106, R112). -/
theorem State.laneTrain_spec (s : State) (p : Nat) :
    (s.laneTrain p).lane p = { s.enterLane p (s.lane p) .clock with
      freqOnce := false, trainFailed := false, portFault := false, darkFrom := none } ∧
    ∀ i, i < 32 → (s.laneTrain p).bitOf (Reg.PRT_LANE_CTL p) i = (s.bitOf (Reg.PRT_LANE_CTL p) i && !decide (i = 0)) := by
  refine ⟨by simp [State.laneTrain], fun i hi => ?_⟩
  rw [State.laneTrain, State.bitOf_addField_other _ _ _ _ _ (by simp), State.bitOf_clrBit _ _ _ _ hi]
  simp

/-- Training fails: the port is in FAULT with the code, and event bit 3 comes on (R93, R94). -/
theorem State.laneFail_spec (s : State) (p : Nat) (code : BitVec 8) :
    ((s.laneFail p code).lane p).st = .fault ∧ ((s.laneFail p code).lane p).failCode = code ∧
    ((s.laneFail p code).lane p).trainFailed = true ∧ (∀ f, ((s.laneFail p code).lane p).dark f = (s.lane p).dark f) ∧
    ∀ i, s.bitOf (Reg.PRT_LANE_EVT p) i = true → i < 32 → (s.laneFail p code).bitOf (Reg.PRT_LANE_EVT p) i = true := by
  refine ⟨by simp [State.laneFail, State.enterLane], by simp [State.laneFail, State.enterLane],
    by simp [State.laneFail, State.enterLane], fun f => ?_, fun i hbit hi => ?_⟩
  · cases f <;> simp [State.laneFail] <;> rfl
  · simp [State.laneFail, State.bitOf_setBit _ _ _ _ hi, State.bitOf_addField_other, hbit]

/-- A port fault: the port is in FAULT and out of DATA (R99, R103). -/
theorem State.portFault_spec (s : State) (p i : Nat) :
    ((s.portFault p i).lane p).st = .fault ∧ ((s.portFault p i).lane p).inData = false ∧
    ((s.portFault p i).lane p).locked = (s.lane p).locked ∧ (∀ f, ((s.portFault p i).lane p).dark f = (s.lane p).dark f) ∧
    ∀ j, (s.portFault p i).bitOf (Reg.PRT_LANE_EVT p) j = s.bitOf (Reg.PRT_LANE_EVT p) j := by
  refine ⟨by simp [State.portFault, State.enterLane], by simp [State.portFault, State.enterLane, Lane.inData],
    by simp [State.portFault, State.enterLane], fun f => ?_, fun j => by simp [State.portFault]⟩
  cases f <;> simp [State.portFault] <;> rfl

/-- TX_EN set: a port in OFF that may run goes to IDLE, or on to training (R109). -/
theorem State.txOn_spec (s : State) (p : Nat) (hst : (s.lane p).st = .off) (hrun : s.mayRun p = true) :
    ((s.txOn p).lane p).st = (if s.bitOf (Reg.PRT_LANE_CTL p) 3 = true ∨ s.bitOf (Reg.PRT_LANE_CTL p) 0 = true then .clock
      else .idle) ∧
    (s.txOn p).bitOf (Reg.PRT_LANE_CTL p) 2 = s.bitOf (Reg.PRT_LANE_CTL p) 2 := by
  obtain ⟨hlane, hctl⟩ := State.laneTrain_spec (s.laneRest p (s.lane p) .idle) p
  rw [State.txOn, if_pos ⟨hst, hrun⟩]
  dsimp only
  rw [State.bitOf_laneRest, State.bitOf_laneRest]
  by_cases h : s.bitOf (Reg.PRT_LANE_CTL p) 3 = true ∨ s.bitOf (Reg.PRT_LANE_CTL p) 0 = true
  · rw [if_pos h, if_pos h]
    exact ⟨by rw [hlane]; rfl, by simp [hctl]⟩
  · rw [if_neg h, if_neg h]
    exact ⟨by simp [State.enterLane], by simp⟩

/-- TX_EN cleared: a port that is not in OFF goes there, and out of DATA (R113). -/
theorem State.txOff_spec (s : State) (p : Nat) (hst : (s.lane p).st ≠ .off) :
    ((s.txOff p).lane p).st = .off ∧ ((s.txOff p).lane p).inData = false ∧
    ∀ i, (s.txOff p).bitOf (Reg.PRT_LANE_CTL p) i = s.bitOf (Reg.PRT_LANE_CTL p) i := by
  simp only [State.txOff, hst, if_false]
  split
  · exact ⟨by simp [State.enterLane], by simp [State.enterLane, Lane.inData], fun i => by simp⟩
  · exact ⟨by simp [State.enterLane], by simp [State.enterLane, Lane.inData], fun i => by simp⟩

/-! ## A write to PRT_LANE_CTL (R109, R110, R112, R113) -/

/-- The state once PRT_LANE_CTL has taken a value, and a port that rests its test fields. -/
def State.ctlTaken (s : State) (p : Nat) (v : Word) : State :=
  let s1 := s.wr (Reg.PRT_LANE_CTL p) ((v &&& 0xFC) ||| (s.rd (Reg.PRT_LANE_CTL p) &&& 1))
  if (s.lane p).st = .off ∨ (s.lane p).st = .fault ∨ (s.lane p).st = .idle then s1.setLane p ((s.lane p).takeTest v) else s1

/-- What a change of TX_EN does. -/
def State.switched (s : State) (p : Nat) (old new : Bool) : State :=
  if old ∧ new = false then s.txOff p else if old = false ∧ new then s.txOn p else s

/-- The state once a port in IDLE that retrains by itself has started training. -/
def State.autoTrained (s : State) (p : Nat) (auto : Bool) : State :=
  if auto ∧ (s.lane p).st = .idle then s.laneTrain p else s

/-- The last step of a write: a training request. -/
def State.requested (s : State) (p : Nat) (req : Bool) : State := if req then s.trainReq p else s

theorem State.laneCtl_eq (s : State) (p : Nat) (v : Word) : s.laneCtl p v =
    (((s.ctlTaken p v).switched p (s.bitOf (Reg.PRT_LANE_CTL p) 2) (v.getLsbD 2)).autoTrained p (v.getLsbD 3)).requested p
      (v.getLsbD 0) := rfl

@[simp] theorem State.switched_same (s : State) (p : Nat) (b : Bool) : s.switched p b b = s := by cases b <;> rfl
@[simp] theorem State.switched_on (s : State) (p : Nat) : s.switched p false true = s.txOn p := rfl
@[simp] theorem State.switched_off (s : State) (p : Nat) : s.switched p true false = s.txOff p := rfl

theorem State.autoTrained_idle (s : State) (p : Nat) (h : (s.lane p).st = .idle) : s.autoTrained p true = s.laneTrain p := by
  simp [State.autoTrained, h]
theorem State.autoTrained_other (s : State) (p : Nat) {b : Bool} (h : (s.lane p).st ≠ .idle) : s.autoTrained p b = s := by
  simp [State.autoTrained, h]
@[simp] theorem State.autoTrained_false (s : State) (p : Nat) : s.autoTrained p false = s := by simp [State.autoTrained]

@[simp] theorem State.requested_false (s : State) (p : Nat) : s.requested p false = s := rfl
@[simp] theorem State.requested_true (s : State) (p : Nat) : s.requested p true = s.trainReq p := rfl

/-- The value written stands in the register but for TRAIN_REQ. -/
theorem State.bitOf_ctlTaken (s : State) (p : Nat) (v : Word) :
    (s.ctlTaken p v).bitOf (Reg.PRT_LANE_CTL p) 0 = s.bitOf (Reg.PRT_LANE_CTL p) 0 ∧
    (s.ctlTaken p v).bitOf (Reg.PRT_LANE_CTL p) 2 = v.getLsbD 2 ∧
    (s.ctlTaken p v).bitOf (Reg.PRT_LANE_CTL p) 3 = v.getLsbD 3 := by
  have hrd : (s.ctlTaken p v).rd (Reg.PRT_LANE_CTL p) = (v &&& 0xFC) ||| (s.rd (Reg.PRT_LANE_CTL p) &&& 1) := by
    unfold State.ctlTaken
    dsimp only
    split <;> simp
  simp [State.bitOf, hrd]

theorem State.bitOf_ctlTaken_other (s : State) (p : Nat) (v : Word) {a : Nat} (i : Nat) (h : a ≠ Reg.PRT_LANE_CTL p) :
    (s.ctlTaken p v).bitOf a i = s.bitOf a i := by
  unfold State.ctlTaken
  dsimp only
  split <;> simp [State.bitOf, State.rd_wr_other _ _ _ _ h]

theorem State.mayRun_ctlTaken (s : State) (p : Nat) (v : Word) : (s.ctlTaken p v).mayRun p = s.mayRun p := by
  have hne : Reg.TWN_CFG ≠ Reg.PRT_LANE_CTL p := by
    intro h
    have hcfg : laneReg Reg.TWN_CFG = true := h ▸ laneReg_PRT_LANE_CTL p
    simp at hcfg
  simp [State.mayRun, State.twinEn, State.bitOf_ctlTaken_other _ _ _ _ hne]

@[simp] theorem State.armBlocked_ctlTaken (s : State) (p : Nat) (v : Word) :
    (s.ctlTaken p v).armBlocked p = s.armBlocked p := by
  unfold State.ctlTaken
  dsimp only
  split <;> rfl

theorem State.lane_ctlTaken_rests (s : State) (p : Nat) (v : Word) (h : (s.lane p).st.rests) :
    (s.ctlTaken p v).lane p = (s.lane p).takeTest v := by
  rw [State.ctlTaken, if_pos h, State.lane_setLane_same]

theorem State.lane_ctlTaken_busy (s : State) (p : Nat) (v : Word) (h : ¬ (s.lane p).st.rests) :
    (s.ctlTaken p v).lane p = s.lane p := by
  rw [State.ctlTaken, if_neg h, State.lane_wr]

@[simp] theorem State.st_ctlTaken (s : State) (p : Nat) (v : Word) : ((s.ctlTaken p v).lane p).st = (s.lane p).st := by
  by_cases h : (s.lane p).st.rests
  · simp [State.lane_ctlTaken_rests s p v h]
  · rw [State.lane_ctlTaken_busy s p v h]

/-! ## Training requests (R106, R107, R112) -/

theorem State.trainReq_off (s : State) (p : Nat) (h : (s.lane p).st = .off) :
    s.trainReq p = s.setBit (Reg.PRT_LANE_CTL p) 0 := by
  simp [State.trainReq, Lane.inData, Lane.training, h]

theorem State.trainReq_refused (s : State) (p : Nat) (h : (s.lane p).inData = true) (hb : s.armBlocked p = false) :
    s.trainReq p = (s.clrBit (Reg.PRT_LANE_CTL p) 0).setBit (Reg.PRT_LANE_EVT p) 6 := by
  simp [State.trainReq, h, hb]

/-- A request of a port in FAULT or IDLE, or in CLOCK, leaves it in CLOCK and the request bit clear. -/
theorem State.trainReq_trains (s : State) (p : Nat)
    (h : (s.lane p).st = .fault ∨ (s.lane p).st = .idle ∨ (s.lane p).st = .clock) :
    ((s.trainReq p).lane p).st = .clock ∧ (s.trainReq p).bitOf (Reg.PRT_LANE_CTL p) 0 = false := by
  obtain ⟨hlane, hctl⟩ := State.laneTrain_spec s p
  have hclear : (s.laneTrain p).bitOf (Reg.PRT_LANE_CTL p) 0 = false := by simp [hctl]
  rcases h with h | h | h
  · rw [show s.trainReq p = s.laneTrain p by simp [State.trainReq, Lane.inData, Lane.training, h], hlane]
    exact ⟨rfl, hclear⟩
  · rw [show s.trainReq p = s.laneTrain p by simp [State.trainReq, Lane.inData, Lane.training, h], hlane]
    exact ⟨rfl, hclear⟩
  · rw [show s.trainReq p = s.clrBit (Reg.PRT_LANE_CTL p) 0 by simp [State.trainReq, Lane.inData, Lane.training, h]]
    exact ⟨h, by simp [State.bitOf_clrBit]⟩

/-! ## The writes of the commands (R78, R106 to R113) -/

/-- A command that writes to PRT_LANE_CTL what `w` makes of its value. -/
theorem answers_of_laneCtl {c : Instr} {s : State} {p : Nat} {P : State → Prop} (w : Word → Word)
    (hexec : exec c s = s.via (laneBlk p) fun t => t.laneCtl p (w (t.rd (Reg.PRT_LANE_CTL p))))
    (hopen : s.open (laneBlk p) = true) (h : P (s.laneCtl p (w (s.rd (Reg.PRT_LANE_CTL p))))) : answers c s P :=
  answers_of_via hexec hopen h

section
variable (s : State) (p : Nat)

theorem State.txEnable_spec (hst : (s.lane p).st = .off) (hrun : s.mayRun p = true)
    (htx : s.bitOf (Reg.PRT_LANE_CTL p) 2 = false) :
    (s.laneCtl p ((s.rd (Reg.PRT_LANE_CTL p) &&& ~~~ 1#32) ||| 4)).bitOf (Reg.PRT_LANE_CTL p) 2 = true ∧
    ((s.laneCtl p ((s.rd (Reg.PRT_LANE_CTL p) &&& ~~~ 1#32) ||| 4)).lane p).st =
      if s.bitOf (Reg.PRT_LANE_CTL p) 3 = true ∨ s.bitOf (Reg.PRT_LANE_CTL p) 0 = true then .clock else .idle := by
  have hv0 : ((s.rd (Reg.PRT_LANE_CTL p) &&& ~~~ 1#32) ||| 4).getLsbD 0 = false := by simp
  have hv2 : ((s.rd (Reg.PRT_LANE_CTL p) &&& ~~~ 1#32) ||| 4).getLsbD 2 = true := by simp
  have hv3 : ((s.rd (Reg.PRT_LANE_CTL p) &&& ~~~ 1#32) ||| 4).getLsbD 3 = s.bitOf (Reg.PRT_LANE_CTL p) 3 := by
    simp [State.bitOf]
  generalize (s.rd (Reg.PRT_LANE_CTL p) &&& ~~~ 1#32) ||| 4 = v at *
  obtain ⟨hc0, hc2, hc3⟩ := s.bitOf_ctlTaken p v
  obtain ⟨hstate, hbit⟩ := (s.ctlTaken p v).txOn_spec p ((s.st_ctlTaken p v).trans hst) ((s.mayRun_ctlTaken p v).trans hrun)
  rw [hc0, hc3, hv3] at hstate
  rw [hc2, hv2] at hbit
  rw [State.laneCtl_eq, htx, hv0, hv2, hv3, State.switched_on, State.requested_false]
  have hauto : ((s.ctlTaken p v).txOn p).autoTrained p (s.bitOf (Reg.PRT_LANE_CTL p) 3) = (s.ctlTaken p v).txOn p := by
    cases h3 : s.bitOf (Reg.PRT_LANE_CTL p) 3
    · exact State.autoTrained_false _ _
    · exact State.autoTrained_other _ _ (by simp [hstate, h3])
  rw [hauto]
  exact ⟨hbit, hstate⟩

theorem State.txDisable_spec (hst : (s.lane p).st ≠ .off) (htx : s.bitOf (Reg.PRT_LANE_CTL p) 2 = true) :
    ((s.laneCtl p (s.rd (Reg.PRT_LANE_CTL p) &&& ~~~ 5#32)).lane p).st = .off ∧
    ((s.laneCtl p (s.rd (Reg.PRT_LANE_CTL p) &&& ~~~ 5#32)).lane p).inData = false ∧
    (s.laneCtl p (s.rd (Reg.PRT_LANE_CTL p) &&& ~~~ 5#32)).bitOf (Reg.PRT_LANE_CTL p) 2 = false := by
  have hv0 : (s.rd (Reg.PRT_LANE_CTL p) &&& ~~~ 5#32).getLsbD 0 = false := by simp
  have hv2 : (s.rd (Reg.PRT_LANE_CTL p) &&& ~~~ 5#32).getLsbD 2 = false := by simp
  generalize s.rd (Reg.PRT_LANE_CTL p) &&& ~~~ 5#32 = v at *
  obtain ⟨-, hc2, -⟩ := s.bitOf_ctlTaken p v
  obtain ⟨hoff, hdata, hbit⟩ := (s.ctlTaken p v).txOff_spec p (by rwa [State.st_ctlTaken])
  rw [State.laneCtl_eq, htx, hv0, hv2, State.switched_off, State.requested_false,
    State.autoTrained_other _ _ (by simp [hoff])]
  exact ⟨hoff, hdata, by rw [hbit, hc2, hv2]⟩

/-- A write of 1 to TRAIN_REQ that changes nothing else. -/
theorem State.laneCtl_trainReq : s.laneCtl p (s.rd (Reg.PRT_LANE_CTL p) ||| 1) =
    ((s.ctlTaken p (s.rd (Reg.PRT_LANE_CTL p) ||| 1)).autoTrained p (s.bitOf (Reg.PRT_LANE_CTL p) 3)).trainReq p := by
  have hv0 : (s.rd (Reg.PRT_LANE_CTL p) ||| 1).getLsbD 0 = true := by simp
  have hv2 : (s.rd (Reg.PRT_LANE_CTL p) ||| 1).getLsbD 2 = s.bitOf (Reg.PRT_LANE_CTL p) 2 := by simp [State.bitOf]
  have hv3 : (s.rd (Reg.PRT_LANE_CTL p) ||| 1).getLsbD 3 = s.bitOf (Reg.PRT_LANE_CTL p) 3 := by simp [State.bitOf]
  rw [State.laneCtl_eq, hv0, hv2, hv3, State.switched_same, State.requested_true]

theorem State.trainRequest_trains (hst : (s.lane p).st = .fault ∨ (s.lane p).st = .idle) :
    ((s.laneCtl p (s.rd (Reg.PRT_LANE_CTL p) ||| 1)).lane p).st = .clock ∧
    (s.laneCtl p (s.rd (Reg.PRT_LANE_CTL p) ||| 1)).bitOf (Reg.PRT_LANE_CTL p) 0 = false := by
  rw [State.laneCtl_trainReq]
  generalize s.rd (Reg.PRT_LANE_CTL p) ||| 1 = v
  have hsame : ((s.ctlTaken p v).lane p).st = (s.lane p).st := s.st_ctlTaken p v
  refine State.trainReq_trains _ p ?_
  unfold State.autoTrained
  split
  · exact .inr (.inr (by rw [(State.laneTrain_spec _ p).1]; rfl))
  · rw [hsame]
    exact hst.imp_right .inl

theorem State.trainRequest_off (hst : (s.lane p).st = .off) :
    ((s.laneCtl p (s.rd (Reg.PRT_LANE_CTL p) ||| 1)).lane p).st = .off ∧
    (s.laneCtl p (s.rd (Reg.PRT_LANE_CTL p) ||| 1)).bitOf (Reg.PRT_LANE_CTL p) 0 = true := by
  rw [State.laneCtl_trainReq]
  generalize s.rd (Reg.PRT_LANE_CTL p) ||| 1 = v
  have hsame : ((s.ctlTaken p v).lane p).st = .off := (s.st_ctlTaken p v).trans hst
  rw [State.autoTrained_other _ _ (by simp [hsame]), State.trainReq_off _ _ hsame]
  exact ⟨hsame, by simp [State.bitOf_setBit]⟩

theorem State.trainRequest_refused (hdata : (s.lane p).inData = true) (hblk : s.armBlocked p = false) :
    (s.laneCtl p (s.rd (Reg.PRT_LANE_CTL p) ||| 1)).lane p = s.lane p ∧
    (s.laneCtl p (s.rd (Reg.PRT_LANE_CTL p) ||| 1)).bitOf (Reg.PRT_LANE_CTL p) 0 = false ∧
    (s.laneCtl p (s.rd (Reg.PRT_LANE_CTL p) ||| 1)).bitOf (Reg.PRT_LANE_EVT p) 6 = true := by
  rw [State.laneCtl_trainReq]
  generalize s.rd (Reg.PRT_LANE_CTL p) ||| 1 = v
  have hbusy : ¬ (s.lane p).st.rests := fun h => by simp [h.not_inData] at hdata
  have hsame : (s.ctlTaken p v).lane p = s.lane p := s.lane_ctlTaken_busy p v hbusy
  have hidle : ((s.ctlTaken p v).lane p).st ≠ .idle := fun h => hbusy (.inr (.inr (hsame ▸ h)))
  rw [State.autoTrained_other _ _ hidle, State.trainReq_refused _ _ (by rwa [hsame]) (by rwa [State.armBlocked_ctlTaken])]
  exact ⟨by simpa using hsame, by simp [State.bitOf_setBit, State.bitOf_clrBit], by simp [State.bitOf_setBit]⟩

theorem State.autoRetrainSet_idle (hst : (s.lane p).st = .idle) :
    ((s.laneCtl p ((s.rd (Reg.PRT_LANE_CTL p) &&& ~~~ 1#32) ||| 8)).lane p).st = .clock ∧
    (s.laneCtl p ((s.rd (Reg.PRT_LANE_CTL p) &&& ~~~ 1#32) ||| 8)).bitOf (Reg.PRT_LANE_CTL p) 3 = true := by
  have hv0 : ((s.rd (Reg.PRT_LANE_CTL p) &&& ~~~ 1#32) ||| 8).getLsbD 0 = false := by simp
  have hv2 : ((s.rd (Reg.PRT_LANE_CTL p) &&& ~~~ 1#32) ||| 8).getLsbD 2 = s.bitOf (Reg.PRT_LANE_CTL p) 2 := by
    simp [State.bitOf]
  have hv3 : ((s.rd (Reg.PRT_LANE_CTL p) &&& ~~~ 1#32) ||| 8).getLsbD 3 = true := by simp
  generalize (s.rd (Reg.PRT_LANE_CTL p) &&& ~~~ 1#32) ||| 8 = v at *
  obtain ⟨hlane, hctl⟩ := State.laneTrain_spec (s.ctlTaken p v) p
  obtain ⟨-, -, hc3⟩ := s.bitOf_ctlTaken p v
  rw [State.laneCtl_eq, hv0, hv2, hv3, State.switched_same, State.requested_false,
    State.autoTrained_idle _ _ ((s.st_ctlTaken p v).trans hst), hlane, hctl 3 (by decide), hc3, hv3]
  exact ⟨rfl, rfl⟩

end

/-! ## The test fields (R110, R112) -/

/-- What TEST_MODE_WRITE writes: AUTO_RETRAIN and TX_EN as they are, and the three test fields. -/
def testWord (c : Word) (loop : BitVec 2) (tx rx : Bool) : Word :=
  (c &&& 0x0C) ||| putField loop.toNat 6 ||| bitIf tx 5 ||| bitIf rx 4

theorem getLsbD_testWord (c : Word) (loop : BitVec 2) (tx rx : Bool) : (testWord c loop tx rx).getLsbD 0 = false ∧
    (testWord c loop tx rx).getLsbD 2 = c.getLsbD 2 ∧ (testWord c loop tx rx).getLsbD 3 = c.getLsbD 3 ∧
    (testWord c loop tx rx).getLsbD 4 = rx ∧ (testWord c loop tx rx).getLsbD 5 = tx := by
  simp only [testWord, BitVec.getLsbD_or, getLsbD_bitIf, getLsbD_putField, Nat.reduceLT]
  simp

theorem loopOf_testWord (c : Word) (loop : BitVec 2) (tx rx : Bool) :
    loopOf (testWord c loop tx rx) = if loop = 3 then 0 else loop := by
  have hfield : fieldOf (testWord c loop tx rx) 6 2 = loop.toNat := by
    rw [fieldOf_eq_extractLsb']
    refine congrArg BitVec.toNat (BitVec.eq_of_getLsbD_eq fun i hi => ?_)
    have hcases : i = 0 ∨ i = 1 := by omega
    rcases hcases with rfl | rfl <;>
      simp [testWord, getLsbD_bitIf, getLsbD_putField, -BitVec.getLsbD_eq_getElem, -Nat.testBit_zero] <;> rfl
  have hcode : ∀ l : BitVec 2, (if l.toNat = 3 then 0 else BitVec.ofNat 2 l.toNat) = if l = 3 then 0 else l := by decide
  rw [loopOf, hfield, hcode]

theorem State.testMode_spec (s : State) (p : Nat) (loop : BitVec 2) (tx rx : Bool) (hst : (s.lane p).st.rests) :
    ((s.laneCtl p (testWord (s.rd (Reg.PRT_LANE_CTL p)) loop tx rx)).lane p).loopEff = (if loop = 3 then 0 else loop) ∧
    ((s.laneCtl p (testWord (s.rd (Reg.PRT_LANE_CTL p)) loop tx rx)).lane p).prbsTx = tx ∧
    ((s.laneCtl p (testWord (s.rd (Reg.PRT_LANE_CTL p)) loop tx rx)).lane p).prbsRx = rx := by
  obtain ⟨hv0, hv2, -, hv4, hv5⟩ := getLsbD_testWord (s.rd (Reg.PRT_LANE_CTL p)) loop tx rx
  have hloop := loopOf_testWord (s.rd (Reg.PRT_LANE_CTL p)) loop tx rx
  rw [← State.bitOf] at hv2
  generalize testWord (s.rd (Reg.PRT_LANE_CTL p)) loop tx rx = v at *
  have hlane : (s.ctlTaken p v).lane p = (s.lane p).takeTest v := s.lane_ctlTaken_rests p v hst
  rw [State.laneCtl_eq, hv0, hv2, State.switched_same, State.requested_false, ← hloop, ← hv4, ← hv5]
  unfold State.autoTrained
  split
  · rw [(State.laneTrain_spec _ p).1, hlane]
    simp [State.enterLane]
  · rw [hlane]
    simp

end Sys2Proof.Machine

namespace Sys2Proof.Lanes

open Sys2Proof.Machine Sys2Proof.Safety

/-- Settles O25: each command is a write to PRT_LANE_CTL, whose bits say what follows. -/
theorem laneControlSwitchesThePort : Obligations.LaneControlSwitchesThePort := by
  refine ⟨fun p s ho hst hrun htx => ?_, fun p s ho hst htx => ?_, fun p s ho hst => ?_, fun p s ho hst => ?_,
    fun p s ho hdata hblk => ?_, fun p s ho hst => ?_, fun p loop tx rx s ho hst => ?_⟩
  · exact answers_of_laneCtl (fun c => (c &&& ~~~ 1#32) ||| 4) rfl ho (s.txEnable_spec p hst hrun htx)
  · exact answers_of_laneCtl (fun c => c &&& ~~~ 5#32) rfl ho (s.txDisable_spec p hst htx)
  · exact answers_of_laneCtl (fun c => c ||| 1) rfl ho (s.trainRequest_trains p hst)
  · exact answers_of_laneCtl (fun c => c ||| 1) rfl ho (s.trainRequest_off p hst)
  · exact answers_of_laneCtl (fun c => c ||| 1) rfl ho (s.trainRequest_refused p hdata hblk)
  · exact answers_of_laneCtl (fun c => (c &&& ~~~ 1#32) ||| 8) rfl ho (s.autoRetrainSet_idle p hst)
  · exact answers_of_laneCtl (fun c => testWord c loop tx rx) rfl ho (s.testMode_spec p loop tx rx hst)

end Sys2Proof.Lanes
end

section
/-! Training and its end (R87 to R98, R123): training frames, the stages' conditions and bounds, and the start of up data. -/

namespace Sys2Proof.Machine

open Sys2Proof.Safety

/-! ## Training frames (R87, R88, R90, R110) -/

/-- May a training frame of a port be taken: not in loop-back unless the port sends it itself? (R110) -/
def State.takesFrame (s : State) (p : Nat) (train : BitVec 16) : Prop :=
  (s.lane p).loopEff = 0 ∨ (train = s.trainSent p ∧ (s.lane p).prbsTx = false)

/-- The lane of a leader after a frame: frames of the present stage that show READY count, any other starts the count again. -/
def Lane.heard (x : Lane) (train : BitVec 16) : Lane :=
  { x with ready := if fieldOf train 12 4 = x.st.code ∧ fieldOf train 10 2 = 1 then satInc x.ready 8 else 0 }

theorem exec_trainingFrame_loopback (p : Fin 13) {tr : BitVec 16} {s : State} (hloop : (s.lane p).loopEff ≠ 0)
    (h : tr ≠ s.trainSent p ∨ (s.lane p).prbsTx = true) : exec (.trainingFrame p 0x1F350D79 tr (~~~ tr)) s = .next s := by
  change execTrainingFrame p trainMarker tr (~~~ tr) s = _
  have hskip : (s.lane p).prbsTx = true ∨ tr ≠ s.trainSent p := h.symm
  rw [execTrainingFrame, if_pos (.inr (.inr (.inr ⟨hloop, hskip⟩)))]

theorem exec_trainingFrame {p : Fin 13} {tr : BitVec 16} {s : State} (htrain : (s.lane p).training = true)
    (htake : s.takesFrame p tr) : exec (.trainingFrame p 0x1F350D79 tr (~~~ tr)) s = .next (
      if fieldOf tr 10 2 = 2 then s.laneFail p 9
      else if s.leads p then (s.setLane p ((s.lane p).heard tr)).laneTry p
      else if fieldOf tr 12 4 = (s.lane p).st.code + 1 ∧ (s.lane p).st ≠ .data then s.laneNext p else s) := by
  change execTrainingFrame p trainMarker tr (~~~ tr) s = _
  have hpair : pairOk tr (~~~ tr) = true := beq_self_eq_true _
  have hgo : ¬ (trainMarker ≠ trainMarker ∨ pairOk tr (~~~ tr) = false ∨ (s.lane p).training = false ∨
      ((s.lane p).loopEff ≠ 0 ∧ ((s.lane p).prbsTx = true ∨ tr ≠ s.trainSent p))) := by
    rintro (h | h | h | ⟨hloop, h⟩)
    · exact h rfl
    · simp [hpair] at h
    · simp [htrain] at h
    · obtain ⟨hsent, hprbs⟩ := htake.resolve_left hloop
      exact h.elim (fun h => by simp [hprbs] at h) (fun h => h hsent)
  rw [execTrainingFrame, if_neg hgo]
  dsimp only [Lane.heard]
  split_ifs <;> rfl

/-! ## From stage to stage (R90, R91) -/

/-- The next stage: the port's lane alone changes, and of it neither the slicers nor what the receiver measured before. -/
theorem State.laneNext_spec (s : State) (p : Nat) : ((s.laneNext p).lane p).st = (s.lane p).st.succ ∧
    ((s.laneNext p).lane p).stageAt = s.tb.vt ∧ ((s.laneNext p).lane p).slicer0 = (s.lane p).slicer0 ∧
    ((s.laneNext p).lane p).slicer1 = (s.lane p).slicer1 ∧ (∀ q, q ≠ p → (s.laneNext p).lane q = s.lane q) ∧
    { s.laneNext p with lanes := s.lanes } = s := by
  have hlane : (s.laneNext p).lane p = (if (s.lane p).st.succ = .data
      then { s.enterLane p (s.lane p) (s.lane p).st.succ with dataAt := s.dataFrom p s.now }
      else s.enterLane p (s.lane p) (s.lane p).st.succ) := State.lane_setLane_same _ _ _
  obtain ⟨-, hother, hrest⟩ := State.setLane_spec s (s.laneNext p) p _ rfl
  rw [hlane]
  split <;> exact ⟨rfl, rfl, rfl, rfl, hother, hrest⟩

/-- A leader whose receiver is done moves on with its eight frames; no try changes a register or the slicers. -/
theorem State.laneTry_spec (s : State) (p : Nat) (hdone : (s.lane p).rxDone = true) (htrain : (s.lane p).training = true)
    (hst : (s.lane p).st ≠ .data) :
    ((s.laneTry p).lane p).st = (if s.leads p = true ∧ 8 ≤ (s.lane p).ready then (s.lane p).st.succ else (s.lane p).st) ∧
    ((s.laneTry p).lane p).slicer0 = (s.lane p).slicer0 ∧ ((s.laneTry p).lane p).slicer1 = (s.lane p).slicer1 ∧
    (s.laneTry p).regs = s.regs := by
  by_cases h : s.leads p = true ∧ 8 ≤ (s.lane p).ready
  · obtain ⟨hnext, -, h0, h1, -, hrest⟩ := s.laneNext_spec p
    rw [show s.laneTry p = s.laneNext p by simp [State.laneTry, hdone, htrain, hst, h], if_pos h]
    exact ⟨hnext, h0, h1, (congrArg State.regs hrest :)⟩
  · rw [show s.laneTry p = s by
      rw [State.laneTry, if_neg]
      rintro ⟨hl, -, hr, -⟩
      exact h ⟨hl, hr⟩, if_neg h]
    exact ⟨rfl, rfl, rfl, rfl⟩

/-! ## The completion conditions (R80, R91) -/

section
variable (s : State) (p : Nat)

theorem State.stageMet_clock (e : Nat) : s.stageMet p (.clock e) =
    if (s.lane p).st = .clock ∧ e ≤ 300 ∧ (s.lane p).freqOnce = true then some (s.notePhase p e) else none := by
  cases hst : (s.lane p).st <;> simp [State.stageMet, hst, phaseIn]

theorem State.stageMet_phase (g0 g1 : BitVec 32) : s.stageMet p (.phase g0 g1) =
    if (s.lane p).st = .phase ∧ (eyeOf g0).isSome = true ∧ (eyeOf g1).isSome = true
    then some (s.wr (Reg.PRT_RX_EYE p) (BitVec.ofNat 32 ((eyeOf g1).getD 0 * 65536 + (eyeOf g0).getD 0))) else none := by
  cases hst : (s.lane p).st <;> simp [State.stageMet, hst]
  case phase => cases eyeOf g0 <;> cases eyeOf g1 <;> rfl

theorem State.stageMet_level (l0 l1 : Int × Int × Int × Int) : s.stageMet p (.level l0 l1) =
    if (s.lane p).st = .level ∧ levelsOk l0 = true ∧ levelsOk l1 = true
    then some (s.setLane p { s.lane p with slicer0 := some (slicersOf l0), slicer1 := some (slicersOf l1) }) else none := by
  cases hst : (s.lane p).st <;> simp [State.stageMet, hst]

theorem State.stageMet_align (x y : Int) : s.stageMet p (.align x y) =
    if (s.lane p).st = .align ∧ -4 ≤ x ∧ x ≤ 4 ∧ -4 ≤ y ∧ y ≤ 4
    then some (s.wr (Reg.PRT_RX_DESKEW p) (BitVec.ofNat 32 ((BitVec.ofInt 4 y).toNat * 16 + (BitVec.ofInt 4 x).toNat)))
    else none := by
  cases hst : (s.lane p).st <;> simp [State.stageMet, hst, skewOk, and_assoc]

theorem State.stageMet_check (a b : Nat) : s.stageMet p (.check a b) =
    if (s.lane p).st = .check ∧ a = 0 ∧ b = 0 then some s else none := by
  cases hst : (s.lane p).st <;> simp [State.stageMet, hst]

end

/-- Before DATA the port state alone says whether training is in progress. -/
theorem Lane.training_congr {x y : Lane} (hst : y.st = x.st) (hdata : x.st ≠ .data) : y.training = x.training := by
  cases h : x.st <;> simp_all [Lane.training]

/-- A condition that is met leaves the port in its stage, with the frames that it has heard. -/
theorem State.stageMet_some {s u : State} {p : Nat} {m : StageMeas} (h : s.stageMet p m = some u) :
    (u.lane p).st = (s.lane p).st ∧ (u.lane p).ready = (s.lane p).ready ∧ u.leads p = s.leads p ∧
    (s.lane p).training = true ∧ (s.lane p).st ≠ .data := by
  cases m with
  | clock e =>
    rw [State.stageMet_clock, Option.ite_none_right_eq_some, Option.some.injEq] at h
    obtain ⟨⟨hst, -⟩, rfl⟩ := h
    exact ⟨rfl, rfl, rfl, by rw [Lane.training, hst], by simp [hst]⟩
  | phase g0 g1 =>
    rw [State.stageMet_phase, Option.ite_none_right_eq_some, Option.some.injEq] at h
    obtain ⟨⟨hst, -⟩, rfl⟩ := h
    exact ⟨rfl, rfl, rfl, by rw [Lane.training, hst], by simp [hst]⟩
  | level l0 l1 =>
    rw [State.stageMet_level, Option.ite_none_right_eq_some, Option.some.injEq] at h
    obtain ⟨⟨hst, -⟩, rfl⟩ := h
    exact ⟨by simp, by simp, by simp [State.leads], by rw [Lane.training, hst], by simp [hst]⟩
  | align x y =>
    rw [State.stageMet_align, Option.ite_none_right_eq_some, Option.some.injEq] at h
    obtain ⟨⟨hst, -⟩, rfl⟩ := h
    exact ⟨rfl, rfl, rfl, by rw [Lane.training, hst], by simp [hst]⟩
  | check a b =>
    rw [State.stageMet_check, Option.ite_none_right_eq_some, Option.some.injEq] at h
    obtain ⟨⟨hst, -⟩, rfl⟩ := h
    exact ⟨rfl, rfl, rfl, by rw [Lane.training, hst], by simp [hst]⟩

/-! ## TRAINING_STAGE_DONE (R80, R90, R91) -/

/-- The port's receiver is done with its stage. -/
def State.receiverDone (u : State) (p : Nat) : State := u.setLane p { u.lane p with rxDone := true }

theorem exec_trainingStageDone_missed {p : Fin 13} {st : LaneSt} {m : StageMeas} {s : State}
    (h : (s.lane p).st ≠ st ∨ s.stageMet p m = none) : exec (.trainingStageDone p st m) s = .next s := by
  change execTrainingStageDone p st m s = _
  by_cases hst : (s.lane p).st = st
  · simp [execTrainingStageDone, hst, h.resolve_left (not_not_intro hst)]
  · simp [execTrainingStageDone, hst]

theorem exec_trainingStageDone_met {p : Fin 13} {st : LaneSt} {m : StageMeas} {s u : State} (hst : (s.lane p).st = st)
    (h : s.stageMet p m = some u) : exec (.trainingStageDone p st m) s = .next ((u.receiverDone p).laneTry p) := by
  change execTrainingStageDone p st m s = _
  simp [execTrainingStageDone, hst, h, State.receiverDone]

/-- What follows from a condition that is met: the leader's move, and otherwise what the measurement itself has set. -/
theorem State.receiverDone_laneTry_spec {s u : State} {p : Nat} {m : StageMeas} (h : s.stageMet p m = some u) :
    (((u.receiverDone p).laneTry p).lane p).st =
      (if s.leads p = true ∧ 8 ≤ (s.lane p).ready then (s.lane p).st.succ else (s.lane p).st) ∧
    (((u.receiverDone p).laneTry p).lane p).slicer0 = (u.lane p).slicer0 ∧
    (((u.receiverDone p).laneTry p).lane p).slicer1 = (u.lane p).slicer1 ∧
    ((u.receiverDone p).laneTry p).regs = u.regs := by
  obtain ⟨hst, hready, hleads, htrain, hdata⟩ := State.stageMet_some h
  have hlane : (u.receiverDone p).lane p = { u.lane p with rxDone := true } := State.lane_setLane_same _ _ _
  have hleads' : (u.receiverDone p).leads p = u.leads p := by simp [State.leads, hlane]; rfl
  have htrain' : ((u.receiverDone p).lane p).training = true := by
    rw [Lane.training_congr (x := s.lane p) (by rw [hlane, hst]) hdata, htrain]
  obtain ⟨hnext, h0, h1, hregs⟩ := (u.receiverDone p).laneTry_spec p (by rw [hlane]) htrain' (by rwa [hlane, hst])
  rw [hleads', hleads, hlane] at hnext
  simp only [hst, hready] at hnext
  exact ⟨hnext, by rw [h0, hlane], by rw [h1, hlane], hregs⟩

/-! ## The bound of a stage, and the start of up data (R91 to R93, R98, R123) -/

theorem exec_trainingStageTimeout {p : Fin 13} {s : State} (h : (s.lane p).training = true) :
    exec (.trainingStageTimeout p) s = .next ((s.advanceVt ((s.lane p).stageAt +
      BitVec.ofNat 64 ((s.lane p).st.bound + 1))).laneFail p (s.lane p).boundCode) := by
  change execTrainingStageTimeout p s = _
  simp [execTrainingStageTimeout, h]

theorem State.reachData_spec (s : State) (p ui : Nat) (hst : (s.lane p).st = .data) :
    ((s.reachData p ui).lane p).inData = true ∧ ((s.reachData p ui).lane p).locked = true ∧
    (s.reachData p ui).bitOf (Reg.PRT_LANE_EVT p) 0 = true := by
  have hlane : (s.reachData p ui).lane p = { s.lane p with
      up := true, locked := true, rxLock := true, freqOk := true, txLock := true, losRaised := false, lolRaised := false,
      portFault := false, rx0 := 0, rx1 := 0 } :=
    State.lane_setLane_same _ _ _
  refine ⟨by simp [hlane, Lane.inData, hst], by simp [hlane], ?_⟩
  unfold State.reachData
  dsimp only
  rw [State.bitOf_of_laneView (State.setPort_laneView _ _ _) (laneReg_PRT_LANE_EVT p)]
  simp [State.bitOf_setBit]

/-- What follows from the start of up data leaves the lanes as they are (R173, R473, R543). -/
theorem exec_upDataStart {p : Fin 13} (ui : Fin 32) {s : State} (hst : (s.lane p).st = .data) (hup : (s.lane p).up = false)
    (hin : (s.tb.vt - (s.lane p).stageAt).toNat ≤ 200) :
    ∃ t, exec (.upDataStart p ui) s = .next t ∧ t.laneView = (s.reachData p ui).laneView := by
  refine ⟨if (p : Nat) < 12 then ((s.reachData p ui).calStart p).stageFourDone else (s.reachData p ui).twinAlign, ?_, by simp⟩
  have hbound : decide (200 < (s.tb.vt - (s.lane p).stageAt).toNat) = false := decide_eq_false (Nat.not_lt.mpr hin)
  change execUpDataStart p ui s = _
  rw [execUpDataStart, if_pos ⟨hst, hup, hbound⟩]

end Sys2Proof.Machine

namespace Sys2Proof.Lanes

open Sys2Proof.Machine Sys2Proof.Safety

/-- Settles O26, by the verdicts on a frame and on a measurement, and the two ends of a stage. -/
theorem trainingMovesStageByStage : Obligations.TrainingMovesStageByStage := by
  refine ⟨fun p tr s hloop h => exec_trainingFrame_loopback p hloop h, fun p tr s htrain htake hfail => ?_,
    fun p tr s htrain htake hfail hlead => ?_, fun p tr s htrain htake hfail hlead hstage hdata => ?_,
    fun p st m s => ⟨exec_trainingStageDone_missed, fun hst hmet => ?_⟩, fun p s e a b g0 g1 x y l0 l1 => ?_,
    fun p s htrain => ?_, fun p ui s hst hup hin => ?_⟩
  · rw [exec_trainingFrame htrain htake, if_pos hfail]
  · rw [exec_trainingFrame htrain htake, if_neg hfail, if_pos hlead]
    rfl
  · have hexec := exec_trainingFrame htrain htake
    rw [if_neg hfail, if_neg (by simp [hlead]), if_pos ⟨hstage, hdata⟩] at hexec
    obtain ⟨hst, hat, -, -, hother, hrest⟩ := s.laneNext_spec p
    exact ⟨_, hexec, hst, hat, hother, hrest⟩
  · obtain ⟨u, hu⟩ := Option.isSome_iff_exists.mp hmet
    obtain ⟨hnext, h0, h1, hregs⟩ := State.receiverDone_laneTry_spec hu
    have hrd : ∀ a, ((u.receiverDone p).laneTry p).rd a = u.rd a :=
      fun a => congrArg (fun r => Sparse.get Reg.resetAt r a) hregs
    refine ⟨_, exec_trainingStageDone_met hst hu, hnext, ?_, ?_, ?_⟩
    · rintro g0 g1 a b rfl ha hb
      rw [State.stageMet_phase, Option.ite_none_right_eq_some, Option.some.injEq, ha, hb] at hu
      rw [hrd, ← hu.2, State.rd_wr_same]
      rfl
    · rintro a b rfl
      rw [State.stageMet_align, Option.ite_none_right_eq_some, Option.some.injEq] at hu
      rw [hrd, ← hu.2, State.rd_wr_same]
    · rintro l0 l1 rfl
      rw [State.stageMet_level, Option.ite_none_right_eq_some, Option.some.injEq] at hu
      rw [h0, h1, ← hu.2, State.lane_setLane_same]
      exact ⟨rfl, rfl⟩
  · refine ⟨?_, ?_, ?_, ?_, ?_⟩
    · simp [State.stageMet_clock]
    · simp [State.stageMet_phase]
    · simp [State.stageMet_level]
    · simp [State.stageMet_align]
    · simp [State.stageMet_check]
  · obtain ⟨hst, hcode, hfailed, -⟩ := State.laneFail_spec (s.advanceVt ((s.lane p).stageAt +
      BitVec.ofNat 64 ((s.lane p).st.bound + 1))) p (s.lane p).boundCode
    exact ⟨_, exec_trainingStageTimeout htrain, hst, hcode, hfailed⟩
  · obtain ⟨t, hexec, hview⟩ := exec_upDataStart ui hst hup hin
    obtain ⟨hdata, hlocked, hevt⟩ := s.reachData_spec p ui hst
    have hlane : t.lane p = (s.reachData p ui).lane p := State.lane_of_laneView hview p
    exact ⟨t, hexec, by rw [hlane, hdata], by rw [hlane, hlocked],
      by rw [State.bitOf_of_laneView hview (laneReg_PRT_LANE_EVT p), hevt]⟩

end Sys2Proof.Lanes
end

section
/-! Loss of signal and of lock, the frequency check, the retraining timer and the check of PRBS31 (R81, R93, R96 to R110). -/

namespace Sys2Proof.Machine

open Sys2Proof.Safety

/-! ## Loss of signal (R96, R98 to R100) -/

@[simp] theorem Lane.setDark_fields (x : Lane) (f : Fibre) (b : Bool) : (x.setDark f b).dark f = b ∧
    (x.setDark f b).st = x.st ∧ (x.setDark f b).up = x.up := by
  cases f <;> exact ⟨rfl, rfl, rfl⟩

@[simp] theorem State.darkNow_fields (s : State) (p : Nat) (x : Lane) (f : Fibre) (b : Bool) :
    (s.darkNow p x f b).dark f = b ∧ (s.darkNow p x f b).st = x.st ∧ (s.darkNow p x f b).up = x.up := by
  unfold State.darkNow
  dsimp only
  split <;> simp

/-- The state once a fibre is DARK and event bit 1 is set. -/
def State.darkened (s : State) (p : Nat) (f : Fibre) : State :=
  (s.setLane p (s.darkNow p (s.lane p) f true)).setBit (Reg.PRT_LANE_EVT p) 1

@[simp] theorem State.lane_darkened (s : State) (p : Nat) (f : Fibre) :
    (s.darkened p f).lane p = s.darkNow p (s.lane p) f true := by simp [State.darkened]

@[simp] theorem State.bitOf_darkened (s : State) (p : Nat) (f : Fibre) :
    (s.darkened p f).bitOf (Reg.PRT_LANE_EVT p) 1 = true := by simp [State.darkened, State.bitOf_setBit]

/-- The lane of a port that has noted its loss of signal beside a fault of the same tick (R93, R100). -/
def Lane.losNoted (x : Lane) : Lane := { x with losRaised := true }
def Lane.losCoded (x : Lane) : Lane := { x with failCode := 8 }

@[simp] theorem Lane.dark_losNoted (x : Lane) (f : Fibre) : x.losNoted.dark f = x.dark f := by cases f <;> rfl
@[simp] theorem Lane.dark_losCoded (x : Lane) (f : Fibre) : x.losCoded.dark f = x.dark f := by cases f <;> rfl

section
variable {p : Fin 13} {f : Fibre} {s : State} (ho : s.open (laneBlk p) = true) (hlit : (s.lane p).dark f = false)
include ho hlit

theorem exec_losAssert_data (h : (s.lane p).inData = true) : exec (.losAssert p f) s =
    .next (((s.darkened p f).addField (Reg.PRT_LOS_CNT p) 0 16 1).portFault p 0) := by
  change execLosAssert p f s = _
  simp [execLosAssert, ho, hlit, h, State.darkened]

theorem exec_losAssert_training (h : (s.lane p).training = true) : exec (.losAssert p f) s =
    .next ((s.darkened p f).laneFail p 8) := by
  have hfault : (s.lane p).sameTickFault s.tb.vt = false := by
    have hst : (s.lane p).st ≠ .fault := fun hst => by simp [Lane.training, hst] at h
    simp [Lane.sameTickFault, hst]
  change execLosAssert p f s = _
  simp [execLosAssert, ho, hlit, h, Lane.not_inData_of_training h, hfault, State.darkened]

/-- A port at rest notes the dark fibre; what else it may note leaves fibre and event bit as they are. -/
theorem exec_losAssert_rest (hd : (s.lane p).inData = false) (ht : (s.lane p).training = false) :
    ∃ t, exec (.losAssert p f) s = .next t ∧ (t.lane p).dark f = true ∧ t.bitOf (Reg.PRT_LANE_EVT p) 1 = true := by
  have hgo : ¬ (s.open (laneBlk p) = false ∨ (s.lane p).dark f = true) := by simp [ho, hlit]
  by_cases hfault : (s.lane p).sameTickFault s.tb.vt = true
  · refine ⟨if (s.lane p).losRaised then (s.darkened p f).addField (Reg.PRT_LOS_CNT p) 0 16 1
      else (((s.darkened p f).addField (Reg.PRT_LOS_CNT p) 0 16 1).setLane p
        ((s.darkened p f).lane p).losNoted).raise (laneSrc p 0), ?_, ?_⟩
    · change execLosAssert p f s = _
      rw [execLosAssert, if_neg hgo]
      dsimp only
      rw [if_neg (by simp [hd]), if_pos hfault]
      rfl
    · split <;> simp [State.bitOf_addField_other]
  · refine ⟨if (s.lane p).sameTickLol s.tb.vt then (s.darkened p f).setLane p ((s.darkened p f).lane p).losCoded
      else s.darkened p f, ?_, ?_⟩
    · change execLosAssert p f s = _
      rw [execLosAssert, if_neg hgo]
      dsimp only
      rw [if_neg (by simp [hd]), if_neg hfault, if_neg (by simp [ht])]
      split <;> rfl
    · split <;> simp

end

/-- The lane once a fibre is LIT again; with all three LIT their time starts (R98, R106). -/
def State.litAgain (s : State) (p : Nat) (f : Fibre) : Lane :=
  if (s.darkNow p (s.lane p) f false).allLit then { s.darkNow p (s.lane p) f false with litAt := s.tb.vt }
  else s.darkNow p (s.lane p) f false

theorem State.litAgain_spec (s : State) (p : Nat) (f : Fibre) : (s.litAgain p f).dark f = false ∧
    ((s.litAgain p f).allLit = true → (s.litAgain p f).litAt = s.tb.vt) ∧ (s.litAgain p f).st = (s.lane p).st := by
  obtain ⟨hdark, hst, -⟩ := s.darkNow_fields p (s.lane p) f false
  unfold State.litAgain
  generalize s.darkNow p (s.lane p) f false = y at *
  by_cases hlit : y.allLit = true
  · rw [if_pos hlit]
    exact ⟨by rw [← hdark]; cases f <;> rfl, fun _ => rfl, hst⟩
  · rw [if_neg hlit]
    exact ⟨hdark, fun h => absurd h hlit, hst⟩

theorem exec_losDeassert {p : Fin 13} {f : Fibre} {s : State} (ho : s.open (laneBlk p) = true)
    (hdark : (s.lane p).dark f = true) : exec (.losDeassert p f) s = .next (s.setLane p (s.litAgain p f)) := by
  change execLosDeassert p f s = _
  simp [execLosDeassert, ho, hdark, State.litAgain]

/-! ## Loss of lock (R79, R97 to R100) -/

@[simp] theorem Lane.unlock_locked (x : Lane) (c : LolCause) : (x.unlock c).locked = false := by cases c <;> rfl

@[simp] theorem State.partnerDark_locked (s : State) (p : Nat) (c : LolCause) (x : Lane) :
    (s.partnerDark p c x).locked = x.locked := by
  unfold State.partnerDark
  split <;> rfl

/-- A locked port in DATA that loses lock is a port fault of its own kind (R99). -/
theorem State.loseLock_data (s : State) (p : Nat) (c : LolCause) (hdata : (s.lane p).inData = true)
    (hlock : (s.lane p).locked = true) : s.loseLock p c =
      (((s.setLane p (s.partnerDark p c ((s.lane p).unlock c))).setBit (Reg.PRT_LANE_EVT p) 2).addField
        (Reg.PRT_LOL_CNT p) 0 16 1).portFault p 1 := by
  rw [State.loseLock, if_pos hdata, hlock]
  rfl

theorem State.loseLock_data_spec (s : State) (p : Nat) (c : LolCause) (hdata : (s.lane p).inData = true)
    (hlock : (s.lane p).locked = true) : ((s.loseLock p c).lane p).st = .fault ∧ ((s.loseLock p c).lane p).locked = false ∧
    ((s.loseLock p c).lane p).inData = false ∧ (s.loseLock p c).bitOf (Reg.PRT_LANE_EVT p) 2 = true ∧
    ∀ i, s.bitOf (Reg.PRT_LANE_EVT p) i = true → i < 32 → (s.loseLock p c).bitOf (Reg.PRT_LANE_EVT p) i = true := by
  rw [State.loseLock_data s p c hdata hlock]
  obtain ⟨hst, hout, hlocked, -, hevt⟩ := State.portFault_spec
    (((s.setLane p (s.partnerDark p c ((s.lane p).unlock c))).setBit (Reg.PRT_LANE_EVT p) 2).addField
      (Reg.PRT_LOL_CNT p) 0 16 1) p 1
  refine ⟨hst, by simp [hlocked], hout, ?_, fun i hbit hi => ?_⟩
  · rw [hevt, State.bitOf_addField_other _ _ _ _ _ (by simp)]
    simp [State.bitOf_setBit]
  · rw [hevt, State.bitOf_addField_other _ _ _ _ _ (by simp)]
    simp [State.bitOf_setBit _ _ _ _ hi, hbit]

/-- What a cause notes before lock is lost: the phase error, or the failed frequency check (R97, R111). -/
def State.lolNoted (s : State) (p : Nat) (c : LolCause) : State :=
  match c with
  | .phaseErr e => s.notePhase p e
  | .freq => s.setBit (Reg.PRT_LANE_EVT p) 4
  | .txClk => s

@[simp] theorem State.lane_lolNoted (s : State) (p : Nat) (c : LolCause) : (s.lolNoted p c).lane p = s.lane p := by
  cases c <;> rfl

theorem exec_lolAssert {p : Fin 13} {c : LolCause} {s : State} (ho : s.open (laneBlk p) = true)
    (hc : ∀ e, c = .phaseErr e → 300 < e) : exec (.lolAssert p c) s = .next ((s.lolNoted p c).loseLock p c) := by
  change execLolAssert p c s = _
  cases c with
  | phaseErr e =>
    have hout : phaseIn e = false := decide_eq_false (Nat.not_le.mpr (hc e rfl))
    simp [execLolAssert, ho, hout, State.lolNoted]
  | freq => simp [execLolAssert, ho, State.lolNoted]
  | txClk => simp [execLolAssert, ho, State.lolNoted]

theorem exec_lolAssert_within (p : Fin 13) {e : Nat} (s : State) (h : e ≤ 300) :
    exec (.lolAssert p (.phaseErr e)) s = .next s := by
  change execLolAssert p (.phaseErr e) s = _
  simp [execLolAssert, phaseIn, h]

/-! ## The frequency check and the retraining timer (R80, R81, R97, R106) -/

/-- The field holds the largest phase error so far, in 1/64 UI (R80, R111). -/
theorem State.field_notePhase (s : State) (p e : Nat) : (s.notePhase p e).field (Reg.PRT_PHERR_MAX p) 0 6 =
    max (s.field (Reg.PRT_PHERR_MAX p) 0 6) (min (64 * e / 1000) 63) := by
  have hlt : s.field (Reg.PRT_PHERR_MAX p) 0 6 < 64 := Nat.mod_lt _ (by decide)
  rw [State.notePhase, State.field_setField_same _ _ _ (by decide)]
  exact Nat.mod_eq_of_lt (by omega)

/-- The lane of a port whose frequency check has passed. -/
def Lane.freqPassed (x : Lane) : Lane := { x with freqOk := true, freqOnce := x.freqOnce || x.training }

theorem exec_freqCheck {p : Fin 13} (m : FreqMeas) {s : State} (ho : s.open (laneBlk p) = true) :
    exec (.freqCheck p m) s = .next (if m.dev.natAbs ≤ 50000
      then (s.notePhase p m.err).setLane p (s.lane p).freqPassed
      else ((s.notePhase p m.err).setBit (Reg.PRT_LANE_EVT p) 4).loseLock p .freq) := by
  change execFreqCheck p m s = _
  rw [execFreqCheck, if_neg (by simp [ho])]
  dsimp only
  split <;> rfl

/-- The tick on which a port in FAULT retrains by itself: its fibres have been LIT for 1 ms, and 1 ms more after a failed
training (R106). -/
def State.retrainTick (s : State) (p : Nat) : State :=
  let s1 := s.advanceVt ((s.lane p).litAt + BitVec.ofNat 64 (us 1000))
  if (s.lane p).trainFailed then s1.advanceVt ((s.lane p).failAt + BitVec.ofNat 64 (us 1000)) else s1

theorem exec_autoRetrainTimer {p : Fin 13} {s : State} (hst : (s.lane p).st = .fault) (hlit : (s.lane p).allLit = true)
    (hauto : s.bitOf (Reg.PRT_LANE_CTL p) 3 = true) :
    exec (.autoRetrainTimer p) s = .next ((s.retrainTick p).laneTrain p) := by
  change execAutoRetrainTimer p s = _
  rw [execAutoRetrainTimer, if_pos ⟨hst, hlit, hauto⟩]
  rfl

/-! ## The check of PRBS31 (R110) -/

/-- The check of a data lane. -/
def Lane.prbsOf (x : Lane) (l : Fin 2) : PrbsChk := if l = 0 then x.prbs0 else x.prbs1

/-- The lane once the check of a data lane has moved on. -/
def Lane.withPrbs (x : Lane) (l : Fin 2) (c : PrbsChk) : Lane := if l = 0 then { x with prbs0 := c } else { x with prbs1 := c }

section
variable {p : Fin 13} {l : Fin 2} {g : BitVec 2} {s : State}

theorem exec_prbsCheck_none (h : (s.lane p).prbsRx = false ∨ s.prbsCame p l ((s.lane p).prbsOf l) g = none) :
    exec (.prbsCheck ⟨p, l⟩ g) s = .next s := by
  change execPrbsCheck ⟨p, l⟩ g s = _
  cases hrx : (s.lane p).prbsRx
  · simp [execPrbsCheck, hrx]
  · have hcame := h.resolve_left (by simp [hrx])
    rw [Lane.prbsOf] at hcame
    simp [execPrbsCheck, hrx, hcame]

theorem exec_prbsCheck_some {c : PrbsChk} (hrx : (s.lane p).prbsRx = true)
    (h : s.prbsCame p l ((s.lane p).prbsOf l) g = some c) : exec (.prbsCheck ⟨p, l⟩ g) s = .next (
      if (c.take g).2 then s.setLane p ((s.lane p).withPrbs l (c.take g).1)
      else ((s.setLane p ((s.lane p).withPrbs l (c.take g).1)).bump (Reg.PRT_PRBS_ERR p)).setBit (Reg.PRT_LANE_EVT p) 5) := by
  have hcame : (if (s.lane p).prbsRx then s.prbsCame p l (if l = 0 then (s.lane p).prbs0 else (s.lane p).prbs1) g else none) =
      some c := by rwa [if_pos hrx]
  change execPrbsCheck ⟨p, l⟩ g s = _
  unfold execPrbsCheck
  dsimp only
  rw [hcame]
  rfl

end

/-- A counter register goes up by one and saturates. -/
theorem State.rdNat_bump (s : State) (a : Nat) : (s.bump a).rdNat a = satInc (s.rdNat a) 0xFFFFFFFF := by
  have hlt : s.rdNat a < 2 ^ 32 := (s.rd a).isLt
  rw [State.rdNat, State.rd_bump_same, BitVec.toNat_ofNat, Nat.mod_eq_of_lt]
  unfold satInc
  split <;> omega

/-- A group in error counts, and sets event bit 5. -/
theorem State.prbsError_spec (s : State) (p : Nat) :
    ((s.bump (Reg.PRT_PRBS_ERR p)).setBit (Reg.PRT_LANE_EVT p) 5).rdNat (Reg.PRT_PRBS_ERR p) =
      satInc (s.rdNat (Reg.PRT_PRBS_ERR p)) 0xFFFFFFFF ∧
    ((s.bump (Reg.PRT_PRBS_ERR p)).setBit (Reg.PRT_LANE_EVT p) 5).bitOf (Reg.PRT_LANE_EVT p) 5 = true ∧
    onlyRegs s ((s.bump (Reg.PRT_PRBS_ERR p)).setBit (Reg.PRT_LANE_EVT p) 5) [Reg.PRT_PRBS_ERR p, Reg.PRT_LANE_EVT p] := by
  refine ⟨?_, by simp [State.bitOf_setBit],
    onlyRegs_trans (s.wr_onlyRegs (Reg.PRT_PRBS_ERR p) _) (State.setBits_onlyRegs _ (Reg.PRT_LANE_EVT p) _)⟩
  rw [State.rdNat, State.rd_setBit_other _ _ _ _ (by simp), ← State.rdNat, State.rdNat_bump]

end Sys2Proof.Machine

namespace Sys2Proof.Lanes

open Sys2Proof.Machine Sys2Proof.Safety

/-- Settles O27: by what the port is doing when light or lock is lost, and by what each check finds. -/
theorem lossOfSignalOrLockEndsData : Obligations.LossOfSignalOrLockEndsData := by
  refine ⟨fun p f s ho hlit => ?_, fun p f s ho hdark => ?_,
    fun p c s ho hdata hlock hc => ⟨_, exec_lolAssert ho hc, ?_⟩, fun p e s he => exec_lolAssert_within p s he,
    fun p m s ho hdev => ?_, fun p m s ho hdev => ?_, fun p s hst hlit hauto => ?_, fun p l g s => ?_⟩
  · by_cases hdata : (s.lane p).inData = true
    · obtain ⟨hst, hout, -, hdark, hevt⟩ :=
        State.portFault_spec ((s.darkened p f).addField (Reg.PRT_LOS_CNT p) 0 16 1) p 0
      refine ⟨_, exec_losAssert_data ho hlit hdata, by simp [hdark], by simp [hevt, State.bitOf_addField_other],
        fun _ => ⟨hst, hout⟩, fun ht => ?_⟩
      simp [Lane.not_inData_of_training ht] at hdata
    · by_cases htrain : (s.lane p).training = true
      · obtain ⟨hst, hcode, -, hdark, hevt⟩ := State.laneFail_spec (s.darkened p f) p 8
        exact ⟨_, exec_losAssert_training ho hlit htrain, by rw [hdark]; simp, hevt 1 (by simp) (by decide),
          fun h => absurd h hdata, fun _ => ⟨hst, hcode⟩⟩
      · obtain ⟨t, hexec, hdark, hevt⟩ := exec_losAssert_rest ho hlit (by simpa using hdata) (by simpa using htrain)
        exact ⟨t, hexec, hdark, hevt, fun h => absurd h hdata, fun h => absurd h htrain⟩
  · obtain ⟨hlit, hat, hst⟩ := s.litAgain_spec p f
    obtain ⟨hlane, hother, hrest⟩ := State.setLane_spec s _ p (s.litAgain p f) rfl
    exact ⟨_, exec_losDeassert ho hdark, by rw [hlane, hlit], by rwa [hlane], by rw [hlane, hst], hother, hrest⟩
  · obtain ⟨hst, hlocked, hout, hevt, hkeep⟩ := (s.lolNoted p c).loseLock_data_spec p c (by simpa) (by simpa)
    refine ⟨hst, hlocked, hout, hevt, ?_⟩
    rintro rfl
    exact hkeep 4 (by simp [State.lolNoted, State.bitOf_setBit]) (by decide)
  · have hexec := exec_freqCheck m ho
    rw [if_pos hdev] at hexec
    refine ⟨_, hexec, by simp [Lane.freqPassed], by simp [Lane.freqPassed], s.field_notePhase p m.err, ?_, rfl⟩
    exact (s.wr_onlyRegs (Reg.PRT_PHERR_MAX p) _).2.1
  · rw [exec_freqCheck m ho, if_neg (Nat.not_le.mpr hdev)]
  · obtain ⟨hlane, -⟩ := (s.retrainTick p).laneTrain_spec p
    exact ⟨_, exec_autoRetrainTimer hst hlit hauto, by rw [hlane]; rfl, by rw [hlane]⟩
  · refine ⟨fun hrx => exec_prbsCheck_none (.inl hrx), fun c hloop => by simp [State.prbsCame, hloop],
      fun hcame => exec_prbsCheck_none (.inr hcame), fun c hrx hcame hbad => ?_, fun c hrx hcame hgood => ?_⟩
    · have hexec := exec_prbsCheck_some hrx hcame
      rw [if_neg (by simp [hbad])] at hexec
      exact ⟨_, hexec, State.prbsError_spec _ p⟩
    · have hexec := exec_prbsCheck_some hrx hcame
      rw [if_pos hgood] at hexec
      exact ⟨_, hexec, rfl⟩

end Sys2Proof.Lanes
end

section
/-! What an event in the collector leaves as it was (R372 to R413): every part of the state but its own, those of the units that
react to it, and the registers of their windows. One rule for each shared operation. -/

namespace Sys2Proof.Machine

open Sys2Proof.Safety

/-- Is an address that of a register which an event may write: in the window of the collector or of the choppers, the injector's
control or the converter's events? (R857) -/
def eventReg (a : Nat) : Bool :=
  decide ((0x20040000 ≤ a ∧ a < 0x20050000) ∨ a = Reg.LE_INJ_CTL ∨ a = Reg.ADC_EVT ∨ (0x200C0000 ≤ a ∧ a < 0x200D0000))

/-- The registers that no event writes. -/
def besideRegs (r : Sparse Word) (a : Nat) : Word := if eventReg a then 0 else Sparse.get Reg.resetAt r a

/-- What stands beside the collector: the state without the collector, the units that react to an event (recorder, injector,
converter, choppers, safety, key and post-mortem record), the free values and the registers an event may write. -/
def State.beside (s : State) : State × (Nat → Word) :=
  ({ s with regs := [], setAt := [], flt := {}, isl := {}, gst := {}, adc := {}, pwm := {}, saf := {}, key := {}, free := 0
            sys := { s.sys with pm := none, pmDue := [] } }, besideRegs s.regs)

section
variable {s t : State} (h : t.beside = s.beside)
include h

theorem State.fields_of_beside : t.tb = s.tb ∧ t.lanes = s.lanes ∧ t.ports = s.ports ∧ t.aes = s.aes ∧ t.twn = s.twn := by
  have hfst := congrArg Prod.fst h
  exact ⟨(congrArg State.tb hfst :), (congrArg State.lanes hfst :), (congrArg State.ports hfst :),
    (congrArg State.aes hfst :), (congrArg State.twn hfst :)⟩

theorem State.rd_of_beside {a : Nat} (ha : eventReg a = false) : t.rd a = s.rd a := by
  have hregs : besideRegs t.regs a = besideRegs s.regs a := congrArg (fun v : State × (Nat → Word) => v.2 a) h
  rwa [besideRegs, besideRegs, ha] at hregs

end

/-! ## How the view of a state is read -/

/-- What the view leaves out may change. -/
theorem State.beside_with (s : State) (setAt flt isl gst adc pwm saf key free) :
    State.beside { s with setAt := setAt, flt := flt, isl := isl, gst := gst, adc := adc, pwm := pwm, saf := saf, key := key,
                          free := free } = s.beside := rfl

@[simp] theorem State.beside_ite (c : Prop) [Decidable c] (s t : State) :
    (if c then s else t).beside = if c then s.beside else t.beside := apply_ite State.beside c s t

theorem State.beside_foldl {α : Type} (l : List α) (f : State → α → State)
    (h : ∀ t, ∀ a ∈ l, (f t a).beside = t.beside) (s : State) : (l.foldl f s).beside = s.beside := by
  induction l generalizing s with
  | nil => rfl
  | cons a r ih => rw [List.foldl_cons, ih (fun t b hb => h t b (List.mem_cons_of_mem a hb)), h s a List.mem_cons_self]

/-! ## Registers -/

@[simp] theorem eventReg_collector : eventReg Reg.FLT_EVT = true ∧ eventReg Reg.FLT_FIRST = true ∧
    eventReg Reg.FLT_FIRST_VT_LO = true ∧ eventReg Reg.FLT_FIRST_VT_HI = true ∧ eventReg Reg.FLT_CNT_EVT = true ∧
    eventReg Reg.FLT_CNT_SQUALL = true ∧ eventReg Reg.FLT_CNT_LOCK = true ∧ eventReg Reg.FLT_INJ_STAT = true := by decide

@[simp] theorem eventReg_reaction : eventReg Reg.LE_INJ_CTL = true ∧ eventReg Reg.ADC_EVT = true ∧
    eventReg Reg.PWM_EVT = true := by decide

theorem eventReg_FLT_STICKY {n : Nat} (h : n < 256) : eventReg (Reg.FLT_STICKY (n / 32)) = true := by
  refine decide_eq_true ?_
  unfold Reg.FLT_STICKY
  omega

theorem eventReg_pwm {n : Nat} (h : n < 16) : eventReg (Reg.PWM_PER n) = true ∧ eventReg (Reg.PWM_T n) = true := by
  unfold Reg.PWM_PER Reg.PWM_T
  exact ⟨decide_eq_true (by omega), decide_eq_true (by omega)⟩

theorem besideRegs_put (r : Sparse Word) {a : Nat} (v : Word) (h : eventReg a = true) :
    besideRegs (Sparse.put Reg.resetAt r a v) = besideRegs r := by
  funext b
  by_cases hb : b = a
  · simp [besideRegs, hb, h]
  · simp [besideRegs, Sparse.get_put_other _ _ _ _ _ hb]

section
variable (s : State) {a : Nat} (h : eventReg a = true)
include h

@[simp] theorem State.wr_beside (v : Word) : (s.wr a v).beside = s.beside := Prod.ext rfl (besideRegs_put s.regs v h)
@[simp] theorem State.setBit_beside (i : Nat) : (s.setBit a i).beside = s.beside := s.wr_beside h _
@[simp] theorem State.clrBit_beside (i : Nat) : (s.clrBit a i).beside = s.beside := s.wr_beside h _
@[simp] theorem State.bump_beside : (s.bump a).beside = s.beside := s.wr_beside h _
@[simp] theorem State.setBitIf_beside (c : Bool) (i : Nat) : (s.setBitIf c a i).beside = s.beside := by
  simp [State.setBitIf, h]

end

/-! ## The parts that react -/

@[simp] theorem State.lifeUp_beside (s : State) (i : Nat) : (s.lifeUp i).beside = s.beside := rfl
@[simp] theorem State.keyDue_beside (s : State) : s.keyDue.beside = s.beside := rfl
@[simp] theorem State.setSrc_beside (s : State) (n : Nat) (x : Src) : (s.setSrc n x).beside = s.beside := rfl
@[simp] theorem State.setPwmCh_beside (s : State) (n : Nat) (x : PwmCh) : (s.setPwmCh n x).beside = s.beside := rfl
@[simp] theorem State.setLatch_beside (s : State) (b : Bool) (t : BitVec 64) : (s.setLatch b t).beside = s.beside := rfl
@[simp] theorem State.reclass_beside (s : State) (n : Nat) (e : FltEntry) : (s.reclass n e).beside = s.beside := rfl

@[simp] theorem State.lockedNow_beside (s : State) : s.lockedNow.beside = s.beside := by simp [State.lockedNow]

@[simp] theorem State.adcInject_beside (s : State) (m : Nat) (t : BitVec 64) : (s.adcInject m t).beside = s.beside := by
  unfold State.adcInject
  split <;> rfl

@[simp] theorem State.adcTrigger_beside (s : State) (t : BitVec 64) : (s.adcTrigger t).beside = s.beside := by
  unfold State.adcTrigger
  split
  · exact s.setBit_beside (by decide) _
  · exact State.beside_foldl _ _ (fun u m _ => State.adcInject_beside u m _) _

@[simp] theorem State.eventHook_beside (s : State) (n : Nat) (t : BitVec 64) : (s.eventHook n t).beside = s.beside := by
  simp [State.eventHook, State.adcEvent, State.beside_with]

@[simp] theorem State.blockBegins_beside (s : State) : s.blockBegins.beside = s.beside := by
  simp [State.blockBegins, State.injAbort, State.beside_with]

@[simp] theorem State.pmCause_beside (s : State) (c : Nat) : (s.pmCause c).beside = s.beside := by
  unfold State.pmCause
  split <;> rfl

theorem State.pwmCycle_beside (s : State) {n : Nat} (t : BitVec 64) (h : n < 16) : (s.pwmCycle n t).beside = s.beside := by
  have htake : (s.pwmTake n).beside = s.beside := by
    unfold State.pwmTake
    split <;> simp [eventReg_pwm h]
  simp [State.pwmCycle, htake]

@[simp] theorem State.tripBegins_beside (s : State) : s.tripBegins.beside = s.beside := by
  unfold State.tripBegins State.tripOn State.pwmTrip
  rw [State.pmCause_beside, State.lifeUp_beside,
    State.beside_foldl _ _ fun t n hn => State.pwmCycle_beside t _ (State.lt_of_mem_choppers hn)]
  simp [State.beside_with]

@[simp] theorem State.tripOn_beside (s : State) : s.tripOn.beside = s.beside := by
  rw [← s.tripBegins_beside, State.tripBegins, State.pmCause_beside, State.lifeUp_beside]

@[simp] theorem State.tripEnds_beside (s : State) : s.tripEnds.beside = s.beside := by
  unfold State.tripEnds State.pwmTripEnds
  extract_lets s1
  split
  · exact State.beside_foldl _ _ (fun t n hn => State.pwmCycle_beside t _ (State.lt_of_mem_choppers hn)) _
  · exact State.beside_foldl _ _ (fun t n _ => State.setPwmCh_beside t n _) _

/-! ## An event -/

@[simp] theorem State.settle_beside (b s : State) (t : BitVec 64) : (State.settle b s t).beside = s.beside := by
  simp [State.settle]

@[simp] theorem State.collide_beside (s : State) (n : Nat) : (s.collide n).beside = s.beside := by
  simp [State.collide, State.beside_with]

@[simp] theorem State.undo_beside (s : State) (n : Nat) (t : BitVec 64) : (s.undo n t).beside = s.beside := by
  unfold State.undo
  extract_lets x
  split <;> simp

@[simp] theorem State.clearAt_beside (s : State) (n : Nat) (t : BitVec 64) : (s.clearAt n t).beside = s.beside := by
  simp [State.clearAt, State.recDue]

theorem State.noteEvent_beside (s : State) {n : Nat} (t : BitVec 64) (h : n < 256) : (s.noteEvent n t).beside = s.beside := by
  simp [State.noteEvent, State.setSticky, State.beside_with, eventReg_FLT_STICKY h]

theorem State.takeEvent_beside (s : State) {n : Nat} (t : BitVec 64) (inj : Bool) (h : n < 256) :
    (s.takeEvent n t inj).beside = s.beside := by
  simp [State.takeEvent, State.noteEvent_beside _ _ h]

theorem State.takeUnder_beside (s : State) {n : Nat} (t : BitVec 64) (inj : Bool) (h : n < 256) :
    (s.takeUnder n t inj).beside = s.beside := by
  unfold State.takeUnder
  extract_lets x
  split <;> simp [State.takeEvent_beside _ _ _ h]

@[simp] theorem State.collect_beside (s : State) (n : Nat) (t : BitVec 64) (inj : Bool) :
    (s.collect n t inj).beside = s.beside := by
  have htake := fun u : State => u.takeUnder_beside t inj (srcOf_lt n)
  unfold State.collect
  extract_lets k s0 u hit s1
  have hs0 : s0.beside = s.beside := by
    unfold s0
    split <;> simp
  have hs1 : s1.beside = s.beside := by rw [htake, State.undo_beside, hs0]
  split
  · simp
  · split <;> simp [k, htake, hs0, hs1]

/-! ## The raise of a source that no mark makes the duty surrender for (R498) -/

theorem eventReg_TWN_SURR_MASK {k : Nat} (h : k < 8) : eventReg (Reg.TWN_SURR_MASK k) = false := by
  refine decide_eq_false ?_
  unfold Reg.TWN_SURR_MASK Reg.LE_INJ_CTL Reg.ADC_EVT
  omega

theorem State.raise_beside (s : State) {n : Nat} (hn : n < 256) (h : noMarks s) : (s.raise n).beside = s.beside := by
  have hk : n / 32 < 8 := by omega
  have hmask : (s.collect n s.now false).bitOf (Reg.TWN_SURR_MASK (n / 32)) (n % 32) = false := by
    rw [State.bitOf, State.rd_of_beside (s.collect_beside n s.now false) (eventReg_TWN_SURR_MASK hk), h _ hk]
    exact BitVec.getLsbD_zero
  simp [State.raise, State.maskSurrender, hmask]

end Sys2Proof.Machine
end

section
/-! What an event in the collector and a surrender of the lease leave of the calibration of a port and of the registers of the
ports (R159, R173, R498, R499). One rule for each shared operation. -/

namespace Sys2Proof.Machine

/-- How far the calibration of a port is, and what its last census found (R159, R173). -/
def Port.calibration (x : Port) : CalStep × Bool × List Nat := (x.cal, x.censusOk, x.absent)

/-- The calibration of a port, and a register. -/
def State.calView (s : State) (p a : Nat) : (CalStep × Bool × List Nat) × Word := ((s.port p).calibration, s.rd a)

/-- Is an address that of a register of an arm port? (R857) -/
def portReg (a : Nat) : Prop := 0x20200000 ≤ a ∧ a < 0x202C0000

theorem portReg_PRT_CENSUS_RES (p : Fin 12) : portReg (Reg.PRT_CENSUS_RES p) := by
  unfold portReg Reg.PRT_CENSUS_RES
  omega

section
variable {a : Nat} (h : portReg a)
include h

theorem portReg.ne_twin : a ≠ Reg.TWN_EVT ∧ a ≠ Reg.TWN_RES ∧ a ≠ Reg.TWN_SURR := by
  unfold portReg at h
  refine ⟨?_, ?_, ?_⟩ <;> rintro rfl <;> simp [Reg.TWN_EVT, Reg.TWN_RES, Reg.TWN_SURR] at h

theorem portReg.not_eventReg : eventReg a = false := by
  unfold portReg at h
  refine decide_eq_false ?_
  unfold Reg.LE_INJ_CTL Reg.ADC_EVT
  omega

end

/-! ## How the view of a state is read -/

section
variable (s : State) (p a : Nat)

theorem State.calView_with (sch twn) :
    State.calView { s with sch := sch, twn := twn } p a = s.calView p a := rfl

@[simp] theorem State.calView_ite (c : Prop) [Decidable c] (s t : State) :
    (if c then s else t).calView p a = if c then s.calView p a else t.calView p a :=
  apply_ite (fun u : State => u.calView p a) c s t

theorem State.calView_of_beside {s t : State} (h : t.beside = s.beside) (ha : portReg a) : t.calView p a = s.calView p a := by
  obtain ⟨-, -, hports, -, -⟩ := State.fields_of_beside h
  rw [State.calView, State.rd_of_beside h ha.not_eventReg, State.port, hports]
  rfl

theorem State.setPort_calView {n : Nat} {x : Port} (hx : x.calibration = (s.port n).calibration) :
    (s.setPort n x).calView p a = s.calView p a := by
  by_cases hp : p = n
  · subst hp
    simp [State.calView, hx]
  · simp [State.calView, State.port_setPort_other _ _ _ _ hp]

theorem State.wr_calView {b : Nat} (v : Word) (h : a ≠ b) : (s.wr b v).calView p a = s.calView p a := by
  rw [State.calView, State.rd_wr_other _ _ _ _ h, State.port_wr, State.calView]

theorem State.setBit_calView {b : Nat} (i : Nat) (h : a ≠ b) : (s.setBit b i).calView p a = s.calView p a :=
  s.wr_calView p a _ h

/-! ## Sending to the partner, and the frames that stop (R482, R499) -/

@[simp] theorem State.lineNote_calView (n : Nat) : (s.lineNote n).calView p a = s.calView p a := by
  have hset : ∀ (l : LineAt), (s.setLine n l).calView p a = s.calView p a := fun l => by
    unfold State.setLine
    split
    · exact s.setPort_calView p a rfl
    · rfl
  simp [State.lineNote, hset]

@[simp] theorem State.sendMsg_calView (op : BitVec 8) (arg : BitVec 64) : (s.sendMsg op arg).calView p a = s.calView p a := by
  simp [State.sendMsg, State.putMsg, State.calView_with]

theorem Port.cutFrame_calibration (x : Port) (t : BitVec 64) : (x.cutFrame t).calibration = x.calibration := by
  unfold Port.cutFrame
  split
  · split <;> rfl
  · rfl

@[simp] theorem State.stopFrames_calView : s.stopFrames.calView p a = s.calView p a := by
  unfold State.stopFrames
  generalize List.range 12 = l
  induction l generalizing s with
  | nil => rfl
  | cons n r ih => exact (ih _).trans (s.setPort_calView p a ((s.port n).cutFrame_calibration s.now))

end

/-! ## The engines lose power (R63, R495, R499) -/

section
variable {a : Nat} (h : portReg a) (s : State) (p : Nat)
include h

theorem State.resetWindow_calView (b : Blk) (hb : 0x202C0000 ≤ b.range.1) :
    (s.resetWindow b).calView p a = s.calView p a := by
  have hrd : (s.resetWindow b).rd a = s.rd a := Sparse.get_clearRange_other _ _ (.inl (h.2.trans_le hb))
  rw [State.calView, hrd]
  rfl

theorem State.domainOff_calView (d : Nat) (hd : d = 2 ∨ d = 3 ∨ d = 4) : (s.domainOff d).calView p a = s.calView p a := by
  have hblks : ∀ b ∈ domainBlks d, 0x202C0000 ≤ b.range.1 := by
    rcases hd with rfl | rfl | rfl <;> decide
  have hlose : (s.loseBlocks d).calView p a = s.calView p a := by
    rcases hd with rfl | rfl | rfl <;> rfl
  have hreset : ∀ (l : List Blk) (t : State), (∀ b ∈ l, 0x202C0000 ≤ b.range.1) →
      (l.foldl State.resetWindow t).calView p a = t.calView p a := by
    intro l
    induction l with
    | nil => exact fun t _ => rfl
    | cons b r ih =>
      intro t ht
      obtain ⟨hb, hr⟩ := List.forall_mem_cons.mp ht
      rw [List.foldl_cons, ih _ hr, State.resetWindow_calView h _ _ _ hb]
  have hlost := (hreset _ (s.loseBlocks d) hblks).trans hlose
  unfold State.domainOff
  split
  · exact hlost
  · rfl

theorem State.enginesOff_calView : s.enginesOff.calView p a = s.calView p a := by
  simp [State.enginesOff, State.domainOff_calView h]

/-! ## The surrender (R495, R498, R499) -/

theorem State.collect_calView (n : Nat) (t : BitVec 64) (inj : Bool) : (s.collect n t inj).calView p a = s.calView p a :=
  State.calView_of_beside p a (s.collect_beside n t inj) h

theorem State.setLease_calView (l : LeaseSt) : (s.setLease l).calView p a = s.calView p a := by
  simp [State.setLease, State.startXfer, State.setBit_calView _ _ _ _ h.ne_twin.1, State.calView_with]

theorem State.dropHand_calView : s.dropHand.calView p a = s.calView p a := by
  obtain ⟨hevt, hres, -⟩ := h.ne_twin
  simp [State.dropHand, State.twnResult, State.setField, State.collect_calView h, State.setBit_calView _ _ _ _ hevt,
    State.wr_calView _ _ _ _ hres]

theorem State.standDown_calView : s.standDown.calView p a = s.calView p a := by
  simp [State.standDown, State.calView_with, State.enginesOff_calView h, State.setLease_calView h, State.dropHand_calView h]

theorem State.surrender_calView (why what : Nat) : (s.surrender why what).calView p a = s.calView p a := by
  obtain ⟨hevt, -, hsurr⟩ := h.ne_twin
  unfold State.surrender
  extract_lets s1 s2 x s3
  have hs3 : s3.calView p a = s2.calView p a := s2.calView_with p a s2.sch _
  rw [State.enginesOff_calView h, State.setLease_calView h, hs3, State.setBit_calView _ _ _ _ hevt, State.collect_calView h,
    State.wr_calView _ _ _ _ hsurr, State.sendMsg_calView, State.stopFrames_calView]

theorem State.raise_calView (n : Nat) : (s.raise n).calView p a = s.calView p a := by
  simp [State.raise, State.maskSurrender, State.ill, State.surrender_calView h, State.standDown_calView h,
    State.collect_calView h, State.calView_with]

theorem State.raiseOnce_calView (n : Nat) : (s.raiseOnce n).calView p a = s.calView p a := by
  simp [State.raiseOnce, State.raise_calView h, State.calView_with]

end

end Sys2Proof.Machine
end

section
/-! Up blocks and reports (R82 to R85, R120, R121, R126, R141, R146, R151): the line code both ways, the checks of a block with
their counts, and the period a report is for. -/

namespace Sys2Proof.Machine

open Sys2Proof.Safety

/-! ## The line code (R82 to R85) -/

/-- The receiver undoes the precoder and the Gray map. -/
theorem groupOf_unprecode_precode (y g : BitVec 2) : groupOf (unprecode y (precode y (grayOf g))) = g := by
  revert y g
  decide

theorem decodeLane_encodeLane (y : BitVec 2) (l : List (BitVec 2)) : decodeLane y (encodeLane y l) = l := by
  induction l generalizing y with
  | nil => rfl
  | cons g r ih => rw [encodeLane, decodeLane, groupOf_unprecode_precode, ih]

theorem length_encodeLane (y : BitVec 2) (l : List (BitVec 2)) : (encodeLane y l).length = l.length := by
  induction l generalizing y with
  | nil => rfl
  | cons g r ih => rw [encodeLane, List.length_cons, ih, List.length_cons]

/-- The precoder's state is the symbol last sent, so one more group is coded from it (R83). -/
theorem lastSymbol_encodeLane_append (y g : BitVec 2) (l : List (BitVec 2)) :
    lastSymbol y (encodeLane y (l ++ [g])) = precode (lastSymbol y (encodeLane y l)) (grayOf g) := by
  induction l generalizing y with
  | nil => rfl
  | cons h r ih =>
    have hcons : ∀ l, lastSymbol y (precode y (grayOf h) :: l) = lastSymbol (precode y (grayOf h)) l :=
      fun l => List.getLastD_cons
    rw [List.cons_append, encodeLane, encodeLane, hcons, hcons, ih]

/-- The four groups as levels, after state 0 (R82, R85). -/
theorem levels_of_groups : (encodeLane 0 [0]).map levelOf = [-3] ∧ (encodeLane 0 [1]).map levelOf = [-1] ∧
    (encodeLane 0 [3]).map levelOf = [1] ∧ (encodeLane 0 [2]).map levelOf = [3] := by decide

/-! ## Counting an event -/

/-- A counter goes up and an event bit comes on: nothing else changes. -/
theorem State.bump_setBit_spec (s : State) {a e : Nat} (i : Nat) (hne : a ≠ e) (hi : i < 32) :
    ((s.bump a).setBit e i).rdNat a = satInc (s.rdNat a) 0xFFFFFFFF ∧ ((s.bump a).setBit e i).bitOf e i = true ∧
    onlyRegs s ((s.bump a).setBit e i) [a, e] := by
  refine ⟨?_, by simp [State.bitOf_setBit _ _ _ _ hi],
    onlyRegs_trans (s.wr_onlyRegs a _) (State.setBits_onlyRegs _ e _)⟩
  rw [State.rdNat, State.rd_setBit_other _ _ _ _ hne, ← State.rdNat, State.rdNat_bump]

/-- The registers of the frames that count up blocks are not the one of their events. -/
theorem frameCounts_ne (p : Nat) : Reg.PRT_BLK_DISC p ≠ Reg.PRT_FRM_EVT p ∧ Reg.PRT_BLK_STALE p ≠ Reg.PRT_FRM_EVT p := by
  simp [Reg.PRT_BLK_DISC, Reg.PRT_BLK_STALE, Reg.PRT_FRM_EVT]

/-! ## UP_BLOCK_RECEIVE (R120, R121) -/

theorem exec_upBlockReceive {p : Fin 13} {d : UpSymbols} {b : BitVec 512} {s u : State} (hdata : (s.lane p).inData = true)
    (hline : (s.lane p).loopEff = 0 ∨ s.sendsBlock p d = true)
    (hb : b = undealt (decodeLane (s.lane p).rx0 (symbolsOf d.d0)) (decodeLane (s.lane p).rx1 (symbolsOf d.d1)))
    (hu : u = (s.setLane p { s.lane p with rx0 := d.d0.setWidth 2, rx1 := d.d1.setWidth 2 }).setPort p
      { s.port p with slot := (s.port p).slot + 1 }) :
    exec (.upBlockReceive p d) s =
      .next (if blockValid p (s.port p).slot b = true ∨ 12 ≤ p.val then u else u.blockDisc p) := by
  have htaken : ¬ ((s.lane p).inData = false ∨ ((s.lane p).loopEff ≠ 0 ∧ s.sendsBlock p d = false)) := by
    rcases hline with h | h <;> simp [hdata, h]
  subst hb hu
  change execUpBlockReceive p d s = _
  rw [execUpBlockReceive, if_neg htaken]

theorem exec_upBlockReceive_none {p : Fin 13} {d : UpSymbols} {s : State}
    (h : (s.lane p).inData = false ∨ ((s.lane p).loopEff ≠ 0 ∧ s.sendsBlock p d = false)) :
    exec (.upBlockReceive p d) s = .next s := by
  change execUpBlockReceive p d s = _
  rw [execUpBlockReceive, if_pos h]

/-- A block that fails its checks is counted in the period and in PRT_BLK_DISC, with event bit 0. -/
theorem State.blockDisc_spec (s : State) (p : Nat) :
    (s.blockDisc p).port p = { s.port p with discs := (s.port p).discs + 1 } ∧
    (∀ q, q ≠ p → (s.blockDisc p).port q = s.port q) ∧
    (s.blockDisc p).rdNat (Reg.PRT_BLK_DISC p) = satInc (s.rdNat (Reg.PRT_BLK_DISC p)) 0xFFFFFFFF ∧
    (s.blockDisc p).bitOf (Reg.PRT_FRM_EVT p) 0 = true ∧
    regsBut s (s.blockDisc p) [Reg.PRT_BLK_DISC p, Reg.PRT_FRM_EVT p] ∧
    { s.blockDisc p with ports := s.ports, regs := s.regs, setAt := s.setAt } = s := by
  obtain ⟨hcount, hevt, hrest, hregs, -⟩ := State.bump_setBit_spec
    (s.setPort p { s.port p with discs := (s.port p).discs + 1 }) 0 (frameCounts_ne p).1 (by decide)
  exact ⟨State.port_setPort_same s p _, fun q hq => State.port_setPort_other s p q _ hq, hcount, hevt, hregs,
    congrArg (fun t : State => { t with ports := s.ports }) hrest⟩

/-! ## Discards beyond the limit (R151) -/

theorem State.portPeriodEnd_eq (s : State) {p : Nat} (huse : s.inUse p = true) (ho : s.open (.port p) = true) :
    s.portPeriodEnd p = (s.noteEcho p).raiseIf (decide (s.field (Reg.PRT_FRM_CTL p) 0 8 < (s.port p).discs)) (67 + 5 * p) := by
  simp [State.portPeriodEnd, huse, ho]

/-! ## RPT_BLOCK_RECEIVE (R126, R146) -/

theorem exec_rptBlockReceive {p : Fin 12} (tag : BitVec 12) (body : BitVec 460) {s : State}
    (hdata : (s.lane p).inData = true) : exec (.rptBlockReceive p tag body) s =
      .next (if fieldOf tag 10 2 = (s.rptPc p).toNat % 4 then s.rptTake p (fieldOf tag 0 10) (s.rptPc p) body
        else (s.bump (Reg.PRT_BLK_STALE p)).setBit (Reg.PRT_FRM_EVT p) 2) := by
  change execRptBlockReceive p tag body s = _
  rw [execRptBlockReceive, if_neg (by simp [hdata]), apply_ite Host.Outcome.next]

end Sys2Proof.Machine

namespace Sys2Proof.Frames

open Sys2Proof.Machine Sys2Proof.Safety

/-- Settles O28: the line code by induction over the groups, a block by its checks, and a report by its tag. -/
theorem upBlocksCountAsSlots : Obligations.UpBlocksCountAsSlots := by
  refine ⟨fun y l => ⟨decodeLane_encodeLane y l, length_encodeLane y l⟩, lastSymbol_encodeLane_append, levels_of_groups,
    fun p d0 d1 b s u hdata hline hb hu => ⟨fun hok => ?_, fun hbad harm => ?_⟩,
    fun p d0 d1 s h => exec_upBlockReceive_none h, fun p s huse ho => ⟨fun hmany => ?_, fun hfew => ?_⟩,
    fun p tag body s hdata htag => ?_, fun p tag body s hdata htag => ?_⟩
  · rw [exec_upBlockReceive hdata hline hb hu, if_pos hok]
  · have hexec := exec_upBlockReceive hdata hline hb hu
    rw [if_neg (by simp [hbad, harm])] at hexec
    obtain ⟨hport, hother, hcount, hevt, hregs, hrest⟩ := u.blockDisc_spec p
    have hlanes : (u.blockDisc p).lanes = u.lanes := (congrArg State.lanes hrest :)
    have hsame := congrArg (fun t : State => { t with ports := s.ports, lanes := s.lanes }) hrest
    subst hu
    refine ⟨_, hexec, ?_, fun q hq => ?_, hlanes, hcount, hevt, hregs, hsame⟩
    · simpa using hport
    · rw [hother q hq, State.port_setPort_other _ _ _ _ hq]
      rfl
  · rw [s.portPeriodEnd_eq huse ho, State.raiseIf, if_pos (by simpa using hmany)]
  · rw [s.portPeriodEnd_eq huse ho, State.raiseIf, if_neg (by simpa using hfew)]
  · rw [exec_rptBlockReceive tag body hdata, if_pos htag]
  · have hexec := exec_rptBlockReceive tag body hdata
    rw [if_neg htag] at hexec
    exact ⟨_, hexec, s.bump_setBit_spec 2 (frameCounts_ne p).2 (by decide)⟩

end Sys2Proof.Frames
end

section
/-! Control requests of firmware (R187, R188, R190 to R192): what a write to PRT_CTL_REQ with GO = 1 does, by the verdict on it. -/

namespace Sys2Proof.Machine

open Sys2Proof.Safety

/-- The other registers of a control request, and the one with an ECHO's result, are not PRT_CTL_REQ (R190). -/
theorem ctlRegs_ne (p : Nat) : Reg.PRT_CTL_TGT p ≠ Reg.PRT_CTL_REQ p ∧ Reg.PRT_CTL_XA p ≠ Reg.PRT_CTL_REQ p ∧
    Reg.PRT_CTL_ARG_LO p ≠ Reg.PRT_CTL_REQ p ∧ Reg.PRT_CTL_ARG_HI p ≠ Reg.PRT_CTL_REQ p ∧
    Reg.PRT_ECHO_RES p ≠ Reg.PRT_CTL_REQ p := by
  simp [Reg.PRT_CTL_TGT, Reg.PRT_CTL_XA, Reg.PRT_CTL_ARG_LO, Reg.PRT_CTL_ARG_HI, Reg.PRT_CTL_REQ, Reg.PRT_ECHO_RES]

/-! ## The verdict on a request -/

/-- The state once OP and GO have been written to PRT_CTL_REQ, before anything follows from it. -/
def State.ctlWritten (s : State) (n op : Nat) : State :=
  s.wr (Reg.PRT_CTL_REQ n) ((goWord op &&& 0xFF00) ||| (s.rd (Reg.PRT_CTL_REQ n) &&& 1))

/-- The message of a request depends on no register that the write changes. -/
theorem State.ctlMsg_ctlWritten (s : State) (n op k : Nat) : (s.ctlWritten n op).ctlMsg n k = s.ctlMsg n k := by
  obtain ⟨htgt, hxa, hlo, hhi, -⟩ := ctlRegs_ne n
  simp only [State.ctlMsg, State.rdNat, State.ctlWritten, State.rd_wr_other _ _ _ _ htgt, State.rd_wr_other _ _ _ _ hxa,
    State.rd_wr_other _ _ _ _ hlo, State.rd_wr_other _ _ _ _ hhi]

/-- The state once a request is accepted: its message waits behind the others (R187, R188, R192). -/
def State.ctlQueued (s : State) (n op : Nat) : State :=
  let s1 := s.ctlWritten n op
  let s2 := if op = 1 then s1.clrBit (Reg.PRT_ECHO_RES n) 31 else s1
  ((s2.setBit (Reg.PRT_CTL_REQ n) 0).setPort n { s.port n with busy := true }).queueCtrl n (s.ctlMsg n op)

/-- What a request does, in the order in which its conditions are checked. -/
theorem State.ctlReq_goWord (s : State) (n : Nat) {op : Nat} (hop : op = 1 ∨ op = 6 ∨ op = 7 ∨ op = 8) :
    s.ctlReq n (goWord op) =
      if (s.port n).busy = true ∨ (s.lane n).inData = false ∨ s.holds = false
      then (s.ctlWritten n op).setBit (Reg.PRT_FRM_EVT n) 9
      else if op = 8 ∧ (s.port n).blockArm = false then (s.ctlWritten n op).setBit (Reg.PRT_FRM_EVT n) 6
      else if (s.ctlMsg n op).xaUsed = true ∧ s.xaInTime n (s.ctlMsg n op).xa (s.ctrlTick n) = false
      then (s.ctlWritten n op).setBit (Reg.PRT_FRM_EVT n) 5
      else s.ctlQueued n op := by
  have hfield : fieldOf (goWord op) 8 8 = op := by
    rcases hop with rfl | rfl | rfl | rfl <;> rfl
  have hgo : (goWord op).getLsbD 0 = true := by
    rcases hop with rfl | rfl | rfl | rfl <;> rfl
  have hknown : ¬ (op ≠ 1 ∧ op ≠ 6 ∧ op ≠ 7 ∧ op ≠ 8) := by omega
  have hmsg := s.ctlMsg_ctlWritten n op op
  unfold State.ctlWritten at hmsg
  unfold State.ctlReq State.ctlQueued State.ctlWritten
  simp only [hfield, hgo, hknown, hmsg, false_or, Bool.true_eq_false, if_false]
  rfl

section
variable {s : State} {n op : Nat} (hop : op = 1 ∨ op = 6 ∨ op = 7 ∨ op = 8)
include hop

theorem State.ctlReq_refused (h : (s.port n).busy = true ∨ (s.lane n).inData = false ∨ s.holds = false) :
    s.ctlReq n (goWord op) = (s.ctlWritten n op).setBit (Reg.PRT_FRM_EVT n) 9 := by
  rw [s.ctlReq_goWord n hop, if_pos h]

variable (hfree : (s.port n).busy = false) (hdata : (s.lane n).inData = true) (hholds : s.holds = true)
include hfree hdata hholds

theorem State.ctlReq_late (hblock : op = 8 → (s.port n).blockArm = true) (hxa : op = 6 ∨ op = 8)
    (h : s.xaInTime n ((s.rd (Reg.PRT_CTL_XA n)).setWidth 16) (s.ctrlTick n) = false) :
    s.ctlReq n (goWord op) = (s.ctlWritten n op).setBit (Reg.PRT_FRM_EVT n) 5 := by
  have hused : (s.ctlMsg n op).xaUsed = true := by
    rcases hxa with rfl | rfl <;> rfl
  rw [s.ctlReq_goWord n hop, if_neg (by simp [hfree, hdata, hholds]), if_neg (fun h8 => by simp [hblock h8.1] at h8),
    if_pos ⟨hused, h⟩]

theorem State.ctlReq_queued (hblock : op = 8 → (s.port n).blockArm = true)
    (h : op = 6 ∨ op = 8 → s.xaInTime n ((s.rd (Reg.PRT_CTL_XA n)).setWidth 16) (s.ctrlTick n) = true) :
    s.ctlReq n (goWord op) = s.ctlQueued n op := by
  have hused : (s.ctlMsg n op).xaUsed = true → op = 6 ∨ op = 8 := by simp [State.ctlMsg]
  have hintime : ¬ ((s.ctlMsg n op).xaUsed = true ∧ s.xaInTime n (s.ctlMsg n op).xa (s.ctrlTick n) = false) :=
    fun hlate => Bool.noConfusion ((h (hused hlate.1)).symm.trans hlate.2)
  rw [s.ctlReq_goWord n hop, if_neg (by simp [hfree, hdata, hholds]), if_neg (fun h8 => by simp [hblock h8.1] at h8),
    if_neg hintime]

end

theorem State.ctlReq_reset_unblocked {s : State} {n : Nat} (hfree : (s.port n).busy = false)
    (hdata : (s.lane n).inData = true) (hholds : s.holds = true) (h : (s.port n).blockArm = false) :
    s.ctlReq n (goWord 8) = (s.ctlWritten n 8).setBit (Reg.PRT_FRM_EVT n) 6 := by
  rw [s.ctlReq_goWord n (by simp), if_neg (by simp [hfree, hdata, hholds]), if_pos ⟨rfl, h⟩]

/-- A request through the window of its port answers what the write makes of the state (R858). -/
theorem answers_of_ctlReq {c : Instr} {s t : State} {p : Fin 12} {op : Nat} {P : State → Prop}
    (hexec : exec c s = s.via (.port p) fun u => u.ctlReq p (goWord op)) (ho : s.open (.port p) = true)
    (hreq : s.ctlReq p (goWord op) = t) (h : P t) : answers c s P :=
  ⟨t, by rw [hexec, State.via_of_open s _ ho, hreq], h⟩

/-! ## What is queued, and what is refused -/

/-- An event bit alone comes on: no port changes. -/
theorem State.ctlWritten_setBit_spec (s : State) (n op : Nat) {i : Nat} (hi : i < 32) :
    ((s.ctlWritten n op).setBit (Reg.PRT_FRM_EVT n) i).ports = s.ports ∧
    ((s.ctlWritten n op).setBit (Reg.PRT_FRM_EVT n) i).bitOf (Reg.PRT_FRM_EVT n) i = true :=
  ⟨rfl, by simp [State.bitOf_setBit _ _ _ _ hi]⟩

theorem State.ctlQueued_spec (s : State) (n op : Nat) : ((s.ctlQueued n op).port n).busy = true ∧
    ((s.ctlQueued n op).port n).ctrl = (s.port n).ctrl ++ [s.ctlMsg n op] ∧
    (s.ctlQueued n op).bitOf (Reg.PRT_CTL_REQ n) 0 = true := by
  refine ⟨by simp [State.ctlQueued, State.queueCtrl], by simp [State.ctlQueued, State.queueCtrl], ?_⟩
  have hbit : ∀ u : State, (u.setBit (Reg.PRT_CTL_REQ n) 0).bitOf (Reg.PRT_CTL_REQ n) 0 = true := by simp [State.bitOf_setBit]
  exact hbit (if op = 1 then (s.ctlWritten n op).clrBit (Reg.PRT_ECHO_RES n) 31 else s.ctlWritten n op)

/-- An ECHO that is accepted makes the result of the one before invalid. -/
theorem State.ctlQueued_echoRes (s : State) (n : Nat) : (s.ctlQueued n 1).bitOf (Reg.PRT_ECHO_RES n) 31 = false := by
  obtain ⟨-, -, -, -, hne⟩ := ctlRegs_ne n
  have hbit : ((((s.ctlWritten n 1).clrBit (Reg.PRT_ECHO_RES n) 31).setBit (Reg.PRT_CTL_REQ n) 0)).bitOf
      (Reg.PRT_ECHO_RES n) 31 = false := by
    simp [State.bitOf_setBit, State.bitOf_clrBit, hne]
  exact hbit

/-- A REPLY_OFS goes out within 64 to 4,000 (R164). -/
theorem ctlArg_echo (v : BitVec 64) : 64 ≤ (ctlArg 1 v).toNat ∧ (ctlArg 1 v).toNat ≤ 4000 := by
  have harg : (ctlArg 1 v).toNat = min (max (fieldOf v 0 16) 64) 4000 := by
    rw [ctlArg, if_pos rfl, BitVec.toNat_ofNat, Nat.mod_eq_of_lt (by omega)]
  omega

/-- A BARRIER's ID is the low byte of ARG (R164). -/
theorem State.ctlMsg_barrier (s : State) (n : Nat) :
    (s.ctlMsg n 7).arg.toNat = s.field (Reg.PRT_CTL_ARG_LO n) 0 8 := by
  have hlo : s.rdNat (Reg.PRT_CTL_ARG_LO n) < 2 ^ 32 := (s.rd _).isLt
  simp only [State.ctlMsg, ctlArg, State.field, fieldOf, State.rdNat] at hlo ⊢
  simp
  omega

end Sys2Proof.Machine

namespace Sys2Proof.Frames

open Sys2Proof.Machine Sys2Proof.Safety

/-- Settles O29: each request is a write to PRT_CTL_REQ, and the verdict on it says what follows. -/
theorem firmwareControlRequests : Obligations.FirmwareControlRequests := by
  refine ⟨fun p s ho hfree hdata hholds => ⟨?_, ?_, fun hxa => ⟨?_, fun hblock => ?_⟩, fun hlate => ?_, fun hopen => ?_⟩,
    fun p s ho href => ⟨?_, ?_, ?_, ?_⟩⟩
  · obtain ⟨hbusy, hctrl, hgo⟩ := s.ctlQueued_spec p 1
    exact answers_of_ctlReq rfl ho (State.ctlReq_queued (.inl rfl) hfree hdata hholds (by simp) (by simp))
      ⟨hbusy, hgo, s.ctlQueued_echoRes p, _, hctrl, rfl, rfl, (ctlArg_echo _).1, (ctlArg_echo _).2, rfl⟩
  · obtain ⟨hbusy, hctrl, hgo⟩ := s.ctlQueued_spec p 7
    exact answers_of_ctlReq rfl ho (State.ctlReq_queued (by simp) hfree hdata hholds (by simp) (by simp))
      ⟨hbusy, hgo, _, hctrl, rfl, rfl, s.ctlMsg_barrier p⟩
  · obtain ⟨hbusy, hctrl, -⟩ := s.ctlQueued_spec p 6
    exact answers_of_ctlReq rfl ho (State.ctlReq_queued (by simp) hfree hdata hholds (by simp) fun _ => hxa)
      ⟨hbusy, _, hctrl, rfl, rfl, rfl⟩
  · obtain ⟨hbusy, hctrl, -⟩ := s.ctlQueued_spec p 8
    exact answers_of_ctlReq rfl ho (State.ctlReq_queued (by simp) hfree hdata hholds (fun _ => hblock) fun _ => hxa)
      ⟨hbusy, _, hctrl, rfl, rfl⟩
  · exact answers_of_ctlReq rfl ho (State.ctlReq_late (by simp) hfree hdata hholds (by simp) (.inl rfl) hlate)
      (s.ctlWritten_setBit_spec p 6 (by decide))
  · exact answers_of_ctlReq rfl ho (State.ctlReq_reset_unblocked hfree hdata hholds hopen)
      (s.ctlWritten_setBit_spec p 8 (by decide))
  · exact answers_of_ctlReq rfl ho (State.ctlReq_refused (by simp) href) (s.ctlWritten_setBit_spec p 1 (by decide))
  · exact answers_of_ctlReq rfl ho (State.ctlReq_refused (by simp) href) (s.ctlWritten_setBit_spec p 6 (by decide))
  · exact answers_of_ctlReq rfl ho (State.ctlReq_refused (by simp) href) (s.ctlWritten_setBit_spec p 7 (by decide))
  · exact answers_of_ctlReq rfl ho (State.ctlReq_refused (by simp) href) (s.ctlWritten_setBit_spec p 8 (by decide))

end Sys2Proof.Frames
end

section
/-! Control messages and their answers (R162 to R170, R187, R189, R192): what goes out, and what an answer or a timeout ends. -/

namespace Sys2Proof.Machine

open Sys2Proof.Safety

/-- The registers that show the answers are not the one of a request, nor the one of the events (R190). -/
theorem answerRegs_ne (p : Nat) : Reg.PRT_ECHO_RES p ≠ Reg.PRT_FRM_EVT p ∧ Reg.PRT_FRM_EVT p ≠ Reg.PRT_ECHO_RES p ∧
    Reg.PRT_BAR_RES p ≠ Reg.PRT_FRM_EVT p ∧ Reg.PRT_BAR_RES p ≠ Reg.PRT_CTL_REQ p := by
  simp [Reg.PRT_ECHO_RES, Reg.PRT_BAR_RES, Reg.PRT_FRM_EVT, Reg.PRT_CTL_REQ]

/-! ## CTRL_BLOCK_SEND (R162, R163, R187) -/

theorem exec_ctrlBlockSend {p : Fin 12} {c : Ctrl} {rest : List Ctrl} {s : State} (hctrl : (s.port p).ctrl = c :: rest)
    (hdata : (s.lane p).inData = true) (hfits : s.ctrlFits p (s.ctrlTick p) = true) : exec (.ctrlBlockSend p) s =
      .next (if c.fw = true ∧ c.xaUsed = true ∧ s.xaInTime p c.xa (s.ctrlTick p) = false
        then (s.setPort p { s.port p with ctrl := rest }).ctlEnd p 5
        else (s.advanceTo (s.ctrlTick p)).ctrlOut p c rest) := by
  change execCtrlBlockSend p s = _
  simp only [execCtrlBlockSend, hctrl, hdata, hfits, Bool.true_eq_false, or_self, if_false, apply_ite Host.Outcome.next]

/-! ## The end of a request of firmware (R190) -/

/-- An answer shown in its register ends the request: the port is free, and event bit 8 comes on. -/
theorem State.answer_ctlEnd_spec (s : State) (p : Nat) (x : Port) {a : Nat} (v : Word) (hreq : a ≠ Reg.PRT_CTL_REQ p)
    (hevt : a ≠ Reg.PRT_FRM_EVT p) : (((s.setPort p x).wr a v).ctlEnd p 8).port p = { x with busy := false } ∧
    (((s.setPort p x).wr a v).ctlEnd p 8).rd a = v ∧
    (((s.setPort p x).wr a v).ctlEnd p 8).bitOf (Reg.PRT_FRM_EVT p) 8 = true := by
  refine ⟨by simp [State.ctlEnd, State.clrBit], ?_, by simp [State.ctlEnd, State.bitOf_setBit]⟩
  rw [State.ctlEnd, State.rd_setBit_other _ _ _ _ hevt, State.rd_clrBit_other _ _ _ _ hreq, State.rd_setPort,
    State.rd_wr_same]

/-! ## ECHO (R169, R170, R192) -/

theorem EchoOut.answers_same (e : EchoOut) : EchoOut.answers (some e) e.target e.seq = some e := by
  simp [EchoOut.answers]

theorem EchoOut.answers_none {x : Option EchoOut} {target : BitVec 24} {seq : BitVec 8}
    (h : ∀ a, x = some a → ¬ (a.target = target ∧ a.seq = seq)) : EchoOut.answers x target seq = none := by
  cases x with
  | none => rfl
  | some a => simpa [EchoOut.answers] using h a rfl

section
variable {p : Fin 12} {e : EchoOut} {s : State}

theorem exec_echoResponse_cal (ui : Fin 32) (h : (s.port p).echo = some e) : exec (.echoResponse p e.target e.seq ui) s =
    .next (s.calEchoDone p (some (delayOf (32 * s.now.toNat + ui) e.ts e.ofs))) := by
  change execEchoResponse p e.target e.seq ui s = _
  simp only [execEchoResponse, h, EchoOut.answers_same]

theorem exec_echoResponse_fw (ui : Fin 32) (h : (s.port p).echoFw = some e)
    (hother : ∀ a, (s.port p).echo = some a → ¬ (a.target = e.target ∧ a.seq = e.seq)) :
    exec (.echoResponse p e.target e.seq ui) s = .next (((s.setPort p { s.port p with echoFw := none }).wr
      (Reg.PRT_ECHO_RES p) (bitIf true 31 ||| BitVec.ofNat 32 (delayOf (32 * s.now.toNat + ui) e.ts e.ofs % 2 ^ 24))).ctlEnd
        p 8) := by
  change execEchoResponse p e.target e.seq ui s = _
  simp only [execEchoResponse, h, EchoOut.answers_none hother, EchoOut.answers_same]

/-- The state once the deadline of an echo has passed: event bit 3. -/
def State.echoLate (s : State) (p : Nat) (e : EchoOut) : State := (s.advanceTo e.deadline).setBit (Reg.PRT_FRM_EVT p) 3

theorem exec_echoTimeout_cal (h : (s.port p).echo = some e) (hfirst : (s.port p).fwFirst = false) :
    exec (.echoTimeout p) s = .next ((s.echoLate p e).calEchoDone p none) := by
  change execEchoTimeout p s = _
  simp [execEchoTimeout, h, hfirst, State.echoLate]

/-- The state once a firmware echo has run out: its result is not valid. -/
def State.echoFwLate (s : State) (p : Nat) (e : EchoOut) : State :=
  ((s.echoLate p e).clrBit (Reg.PRT_ECHO_RES p) 31).setPort p { s.port p with echoFw := none, busy := false }

theorem exec_echoTimeout_fw (h : (s.port p).echoFw = some e) (hfirst : (s.port p).fwFirst = true) :
    exec (.echoTimeout p) s = .next (s.echoFwLate p e) := by
  have hport : ((s.echoLate p e).clrBit (Reg.PRT_ECHO_RES p) 31).port p = s.port p := State.port_advanceTo s e.deadline p
  change execEchoTimeout p s = _
  rw [State.echoFwLate, ← hport]
  simp [execEchoTimeout, h, hfirst, State.echoLate]

theorem State.echoFwLate_spec (s : State) (p : Nat) (e : EchoOut) :
    (s.echoFwLate p e).port p = { s.port p with echoFw := none, busy := false } ∧
    (s.echoFwLate p e).bitOf (Reg.PRT_ECHO_RES p) 31 = false ∧ (s.echoFwLate p e).bitOf (Reg.PRT_FRM_EVT p) 3 = true := by
  obtain ⟨-, hne, -, -⟩ := answerRegs_ne p
  have hvalid : ((s.echoLate p e).clrBit (Reg.PRT_ECHO_RES p) 31).bitOf (Reg.PRT_ECHO_RES p) 31 = false := by
    simp [State.bitOf_clrBit]
  have hevt : ((s.echoLate p e).clrBit (Reg.PRT_ECHO_RES p) 31).bitOf (Reg.PRT_FRM_EVT p) 3 = true := by
    simp [State.echoLate, State.bitOf_clrBit, State.bitOf_setBit, hne]
  exact ⟨State.port_setPort_same _ p _, hvalid, hevt⟩

end

/-! ## BARRIER and SNAP (R164, R167, R189) -/

section
variable {p : Fin 12} {id : BitVec 8} {d : BitVec 64} {s : State}

theorem exec_barrierResponse (nack : BitVec 8) (h : (s.port p).barrier = some (id, d)) :
    exec (.barrierResponse p id nack) s = .next (((s.setPort p { s.port p with barrier := none }).wr (Reg.PRT_BAR_RES p)
      (putField id.toNat 8 ||| nack.setWidth 32)).ctlEnd p 8) := by
  change execBarrierResponse p id nack s = _
  simp [execBarrierResponse, h]

/-- The state once a barrier has run out: event bit 4. -/
def State.barrierLate (s : State) (p : Nat) (d : BitVec 64) : State :=
  ((s.advanceTo d).setBit (Reg.PRT_FRM_EVT p) 4).setPort p { s.port p with barrier := none, busy := false }

theorem exec_barrierTimeout (h : (s.port p).barrier = some (id, d)) :
    exec (.barrierTimeout p) s = .next (s.barrierLate p d) := by
  change execBarrierTimeout p s = _
  simp [execBarrierTimeout, h, State.barrierLate]

theorem State.bitOf_barrierLate (s : State) (p : Nat) (d : BitVec 64) :
    (s.barrierLate p d).bitOf (Reg.PRT_FRM_EVT p) 4 = true := by
  have hevt : ((s.advanceTo d).setBit (Reg.PRT_FRM_EVT p) 4).bitOf (Reg.PRT_FRM_EVT p) 4 = true := by
    simp [State.bitOf_setBit]
  exact hevt

end

theorem exec_snapshotResponse {p : Fin 12} (i : BitVec 8) (body : BitVec 460) {s : State}
    (h : (s.port p).snapXa.isSome = true) : exec (.snapshotResponse p i body) s = .next (s.setPort p
      { s.port p with snap := Sparse.put (fun _ => none) (s.port p).snap i.toNat (some body) }) := by
  change execSnapshotResponse p i body s = _
  rw [execSnapshotResponse, if_pos h]

end Sys2Proof.Machine

namespace Sys2Proof.Frames

open Sys2Proof.Machine Sys2Proof.Safety

/-- Settles O30: by the message that is oldest, and by what is outstanding when an answer or a deadline comes. -/
theorem controlMessagesAndTheirAnswers : Obligations.ControlMessagesAndTheirAnswers := by
  refine ⟨fun p c rest s hctrl hdata hfits => ⟨fun hgoes => ?_, fun hlate => ?_⟩,
    fun p e ui s he => ⟨fun hother => ?_, fun hfirst => ?_⟩,
    fun p e ui s he => ⟨exec_echoResponse_cal ui he, fun hfirst => exec_echoTimeout_cal he hfirst⟩,
    fun p id nack d s hbar => ⟨?_, ?_⟩, fun p i body s hsnap => ?_⟩
  · rw [exec_ctrlBlockSend hctrl hdata hfits, if_neg hgoes]
  · rw [exec_ctrlBlockSend hctrl hdata hfits, if_pos hlate]
  · obtain ⟨hne, -, -, -⟩ := answerRegs_ne p
    obtain ⟨-, -, -, -, hreq⟩ := ctlRegs_ne p
    obtain ⟨hport, hres, hevt⟩ := s.answer_ctlEnd_spec p { s.port p with echoFw := none }
      (bitIf true 31 ||| BitVec.ofNat 32 (delayOf (32 * s.now.toNat + ui) e.ts e.ofs % 2 ^ 24)) hreq hne
    exact ⟨_, exec_echoResponse_fw ui he hother, by rw [hport], by rw [hport], by rw [hport], hres, hevt⟩
  · obtain ⟨hport, hvalid, hevt⟩ := s.echoFwLate_spec p e
    exact ⟨_, exec_echoTimeout_fw he hfirst, by rw [hport], by rw [hport], by rw [hport], hvalid, hevt⟩
  · obtain ⟨-, -, hne, hreq⟩ := answerRegs_ne p
    obtain ⟨hport, hres, hevt⟩ := s.answer_ctlEnd_spec p { s.port p with barrier := none }
      (putField id.toNat 8 ||| nack.setWidth 32) hreq hne
    exact ⟨_, exec_barrierResponse nack hbar, by rw [hport], by rw [hport], hres, hevt⟩
  · have hport : (s.barrierLate p d).port p = { s.port p with barrier := none, busy := false } :=
      State.port_setPort_same _ p _
    exact ⟨_, exec_barrierTimeout hbar, by rw [hport], by rw [hport], s.bitOf_barrierLate p d⟩
  · obtain ⟨hport, hother, hrest⟩ := State.setPort_spec s _ p
      { s.port p with snap := Sparse.put (fun _ => none) (s.port p).snap i.toNat (some body) } rfl
    exact ⟨_, exec_snapshotResponse i body hsnap, by rw [hport, Sparse.get_put_same], hother, hrest⟩

end Sys2Proof.Frames
end

section
/-! Census, calibration and recalibration (R158 to R161, R173, R176, R546): the verdict on a census, its timeout, the next attempt
and the next round. -/

namespace Sys2Proof.Machine

open Sys2Proof.Safety

/-! ## CENSUS_RESPONSE (R158, R159, R173) -/

/-- The state once a census has been shown, before the verdict on it. -/
def State.censusShown (s : State) (n : Nat) (recs : List CensusRec) : State :=
  (s.setPort n { s.port n with census := recs }).wr (Reg.PRT_CENSUS n) (censusCount recs)

/-- The state once a census has failed, before the calibration fails with it. -/
def State.censusRefused (s : State) (n : Nat) (recs : List CensusRec) : State :=
  (s.censusShown n recs).setPort n { (s.censusShown n recs).port n with censusOk := false }

/-- The state once a census has passed, before the arm engine takes it. -/
def State.censusPassed (s : State) (n : Nat) (recs : List CensusRec) (absent : List Nat) : State :=
  ((s.censusShown n recs).setPort n
    { (s.censusShown n recs).port n with censusOk := true, absent := absent, cal := .echo 0, delays := [] }).wr
    (Reg.PRT_CENSUS_RES n) (if absent.isEmpty then 1 else 2)

section
variable {p : Fin 12} {recs : List CensusRec} {s : State}

theorem exec_censusResponse (hcal : (s.port p).cal = .census) (hrecs : recs ≠ []) :
    exec (.censusResponse p recs) s = .next (s.censusTaken p recs) := by
  change execCensusResponse p recs s = _
  rw [execCensusResponse, if_pos ⟨hcal, hrecs⟩]

theorem State.censusTaken_refused {r : Nat × Nat}
    (h : censusVerdict (s.devs p) recs (s.aeTable p).1.redAll (s.aeTable p).1.redFb = .inl r) :
    s.censusTaken p recs = (s.censusRefused p recs).calFail p r.1 r.2 := by
  simp only [State.censusTaken, h]
  rfl

theorem State.censusTaken_passed {absent : List Nat}
    (h : censusVerdict (s.devs p) recs (s.aeTable p).1.redAll (s.aeTable p).1.redFb = .inr absent) :
    s.censusTaken p recs = (((s.censusPassed p recs absent).aeCensus p).noteAbsent p absent).queueCtrl p
      (ownCtrl 0x05 allDevices (BitVec.ofNat 64 ((s.topo p).hold % 64))) := by
  simp only [State.censusTaken, h]
  rfl

end

@[simp] theorem State.port_censusShown (s : State) (p : Nat) (recs : List CensusRec) :
    (s.censusShown p recs).port p = { s.port p with census := recs } := by
  rw [State.censusShown, State.port_wr, State.port_setPort_same]

theorem State.censusRefused_spec (s : State) (p : Nat) (recs : List CensusRec) :
    (s.censusRefused p recs).rd (Reg.PRT_CENSUS p) = censusCount recs ∧
    ((s.censusRefused p recs).port p).censusOk = false ∧ ((s.censusRefused p recs).port p).census = recs ∧
    regsBut s (s.censusRefused p recs) [Reg.PRT_CENSUS p] ∧
    { s.censusRefused p recs with ports := s.ports, regs := s.regs } = s := by
  refine ⟨?_, by simp [State.censusRefused], by simp [State.censusRefused], fun a ha => ?_, ?_⟩
  · rw [State.censusRefused, State.rd_setPort, State.censusShown, State.rd_wr_same]
  · rw [State.censusRefused, State.rd_setPort, State.censusShown, State.rd_wr_other _ _ _ _ (by simpa using ha),
      State.rd_setPort]
  · unfold State.censusRefused State.censusShown State.setPort State.wr
    rfl

theorem State.queueCtrl_calView (s : State) (n : Nat) (c : Ctrl) (p a : Nat) : (s.queueCtrl n c).calView p a = s.calView p a :=
  s.setPort_calView p a rfl

/-- What the arm engine and the collector take of a census changes nothing in the calibration of a port. -/
theorem State.censusNoted_calView {a : Nat} (ha : portReg a) (s : State) (n p : Nat) (absent : List Nat) :
    ((s.aeCensus n).noteAbsent n absent).calView p a = s.calView p a := by
  have hae : (s.aeCensus n).calView p a = s.calView p a := by
    unfold State.aeCensus
    split <;> rfl
  have hevt : a ≠ Reg.AE_EVT n := by
    unfold portReg at ha
    unfold Reg.AE_EVT
    omega
  unfold State.noteAbsent
  split
  · rw [State.raiseOnce_calView ha, State.setBit_calView _ _ _ _ hevt, hae]
  · exact hae

/-- A census that matches takes calibration on to the echoes, with the absent cells noted (R159, R173). -/
theorem State.censusTaken_passed_spec {p : Fin 12} {recs : List CensusRec} {s : State} {absent : List Nat}
    (h : censusVerdict (s.devs p) recs (s.aeTable p).1.redAll (s.aeTable p).1.redFb = .inr absent) :
    ((s.censusTaken p recs).port p).censusOk = true ∧ ((s.censusTaken p recs).port p).absent = absent ∧
    ((s.censusTaken p recs).port p).cal = .echo 0 ∧
    (s.censusTaken p recs).rd (Reg.PRT_CENSUS_RES p) = (if absent.isEmpty then 1 else 2) := by
  have hview : (s.censusTaken p recs).calView p (Reg.PRT_CENSUS_RES p) =
      ((.echo 0, true, absent), if absent.isEmpty then 1 else 2) := by
    rw [State.censusTaken_passed h, State.queueCtrl_calView,
      State.censusNoted_calView (portReg_PRT_CENSUS_RES p), State.calView, State.censusPassed, State.rd_wr_same,
      State.port_wr, State.port_setPort_same]
    rfl
  simp only [State.calView, Port.calibration, Prod.mk.injEq] at hview
  obtain ⟨⟨hcal, hok, habs⟩, hres⟩ := hview
  exact ⟨hok, habs, hcal, hres⟩

/-! ## Without an answer (R159), and again (R176, R546) -/

/-- The state once a census has run out of time, before the calibration fails with it. -/
def State.censusLate (s : State) (n : Nat) : State :=
  ((s.advanceTo ((s.port n).censusAt + BitVec.ofNat 64 (us 2000))).wr (Reg.PRT_CENSUS n) 0).setPort n
    { s.port n with censusOk := false, census := [] }

theorem exec_censusTimeout {p : Fin 12} {s : State} (h : (s.port p).cal = .census) :
    exec (.censusTimeout p) s = .next ((s.censusLate p).calFail p 0x14 0) := by
  change execCensusTimeout p s = _
  simp [execCensusTimeout, h, State.censusLate]

theorem exec_censusRetry {p : Fin 12} {s : State} (hcal : (s.port p).cal = .failed) (hdata : (s.lane p).inData = true) :
    exec (.censusRetry p) s = .next ((s.advanceTo ((s.port p).calAt + BitVec.ofNat 64 20000000)).calStart p) := by
  change execCensusRetry p s = _
  rw [execCensusRetry, if_pos ⟨hcal, hdata⟩]
  rfl

theorem exec_recalRound {p : Fin 12} {s : State} (hpc : s.tb.pc.toNat % 1024 = 0) (hdata : (s.lane p).inData = true)
    (hdone : (s.port p).calDone = true) (hcal : (s.port p).cal = .done) :
    exec (.recalRound p) s = .next ((s.setPort p { s.port p with cal := .recal 0 }).calEcho p) := by
  change execRecalRound p s = _
  rw [execRecalRound, if_pos ⟨hpc, hdata, hdone, hcal⟩]

end Sys2Proof.Machine

namespace Sys2Proof.Frames

open Sys2Proof.Machine Sys2Proof.Safety

/-- Settles O31: by the verdict on the census, and by where calibration stands when a timer ends. -/
theorem censusAndRecalibration : Obligations.CensusAndRecalibration := by
  refine ⟨fun p recs s hcal hrecs => ⟨fun r hr => ?_, fun ab hab => ?_⟩, fun p s hcal => ?_,
    fun p s hcal hdata => exec_censusRetry hcal hdata,
    fun p s hpc hdata hdone hcal => exec_recalRound hpc hdata hdone hcal⟩
  · obtain ⟨hcount, hok, hcensus, hregs, hrest⟩ := s.censusRefused_spec p recs
    exact ⟨s.censusRefused p recs, hcount, hok, hcensus, hregs, hrest,
      by rw [exec_censusResponse hcal hrecs, State.censusTaken_refused hr]⟩
  · exact ⟨_, exec_censusResponse hcal hrecs, State.censusTaken_passed_spec hab⟩
  · exact ⟨s.censusLate p, by simp [State.censusLate], by simp [State.censusLate], by simp [State.censusLate],
      exec_censusTimeout hcal⟩

end Sys2Proof.Frames
end

section
/-! What reaches an arm (R184, R194, R233, R246 to R248, R357): level orders, the end of a switching window, firmware's cell
commands and the witnesses of a port. -/

namespace Sys2Proof.Machine

open Sys2Proof.Safety

/-! ## LEVEL_ORDER_RECEIVE (R194, R357) -/

/-- Noting a slack reaches the schedule block and its registers alone. -/
theorem State.noteSlack_frame (s : State) (code idx : Nat) (slack : Int) : (s.noteSlack code idx slack).ports = s.ports ∧
    (s.noteSlack code idx slack).aes = s.aes ∧ (s.noteSlack code idx slack).flt = s.flt := by
  unfold State.noteSlack
  extract_lets v s1
  split
  · rw [State.wr_ports, State.setField_ports, State.wr_aes, State.setField_aes, State.wr_flt, State.setField_flt]
    exact ⟨rfl, rfl, rfl⟩
  · exact ⟨rfl, rfl, rfl⟩

/-- The state once the slack of a level order for an arm engine has been noted, where one came. -/
def State.orderNoted (s : State) (n : Nat) (came : Bool) : State :=
  if came then s.noteSlack (aeCode n) 1 (((s.sec.ae n).selectAt : Int) - timeDiff s.now s.tb.bound) else s

theorem State.orderNoted_frame (s : State) (n : Nat) (came : Bool) : (s.orderNoted n came).ports = s.ports ∧
    (∀ m, (s.orderNoted n came).ae m = s.ae m) ∧ (s.orderNoted n came).flt = s.flt := by
  unfold State.orderNoted
  split
  · obtain ⟨hports, haes, hflt⟩ :=
      s.noteSlack_frame (aeCode n) 1 (((s.sec.ae n).selectAt : Int) - timeDiff s.now s.tb.bound)
    exact ⟨hports, fun m => by rw [State.ae, haes, State.ae], hflt⟩
  · exact ⟨rfl, fun _ => rfl, rfl⟩

/-- A level order by the reader's tick, with whole pairs: what came replaces what the engine had. -/
theorem State.orderToAe_spec {s : State} {n : Nat} {lam i : Option (Word × Word)} (hsel : (s.ae n).selStarted = false)
    (htick : s.pastTick (s.sec.ae n).selectAt = false) (hlam : pairFine lam = true) (hi : pairFine i = true) :
    ((s.orderToAe n lam i).ae n).order = (lam <|> (s.ae n).order) ∧
    ((s.orderToAe n lam i).ae n).current = (i <|> (s.ae n).current) ∧ (s.orderToAe n lam i).ports = s.ports ∧
    (s.orderToAe n lam i).flt = s.flt ∧ ∀ m, m ≠ n → (s.orderToAe n lam i).ae m = s.ae m := by
  have heq : s.orderToAe n lam i = (s.orderNoted n (lam.isSome || i.isSome)).setAe n
      { (s.orderNoted n (lam.isSome || i.isSome)).ae n with
        order := lam <|> ((s.orderNoted n (lam.isSome || i.isSome)).ae n).order
        current := i <|> ((s.orderNoted n (lam.isSome || i.isSome)).ae n).current } := by
    unfold State.orderToAe State.orderNoted
    dsimp only
    rw [if_neg (by simp [hsel, htick]), if_pos ⟨hlam, hi⟩]
  obtain ⟨hports, hae, hflt⟩ := s.orderNoted_frame n (lam.isSome || i.isSome)
  rw [heq]
  refine ⟨?_, ?_, hports, hflt, fun m hm => ?_⟩
  · rw [State.ae_setAe_same, hae]
  · rw [State.ae_setAe_same, hae]
  · rw [State.ae_setAe_other _ _ _ _ hm, hae]

/-- A whole λ by the due tick is what the port's audit uses. -/
theorem State.orderToPort_spec {s : State} {n : Nat} {lam : Word × Word} (hdue : (s.port n).dueDone = false)
    (htick : s.pastTick s.dueAt = false) (hlam : pairOk lam.1 lam.2 = true) :
    ((s.orderToPort n lam).port n).order = some lam ∧ (s.orderToPort n lam).aes = s.aes ∧
    (s.orderToPort n lam).flt = s.flt ∧ ∀ m, m ≠ n → (s.orderToPort n lam).port m = s.port m := by
  obtain ⟨hports, haes, hflt⟩ := s.noteSlack_frame (portCode n) 3 ((s.dueAt : Int) - timeDiff s.now s.tb.bound)
  have heq : s.orderToPort n lam = (s.noteSlack (portCode n) 3 ((s.dueAt : Int) - timeDiff s.now s.tb.bound)).setPort n
      { (s.noteSlack (portCode n) 3 ((s.dueAt : Int) - timeDiff s.now s.tb.bound)).port n with order := some lam } := by
    simp only [State.orderToPort, hdue, htick, hlam]
    rfl
  generalize s.noteSlack (portCode n) 3 ((s.dueAt : Int) - timeDiff s.now s.tb.bound) = u at *
  rw [heq]
  refine ⟨by simp, haes, hflt, fun m hm => ?_⟩
  rw [State.port_setPort_other _ _ _ _ hm, State.port, hports, State.port]

section
variable {n : Fin 12} {pcLo : BitVec 16} {s : State}

theorem exec_levelOrderReceive_stale (d : LevelDst) (lam lamC cur curC : Option Word) (h : s.staleXfer pcLo = true) :
    exec (.levelOrderReceive d pcLo lam lamC cur curC) s = .next s := by
  change execLevelOrderReceive d pcLo lam lamC cur curC s = _
  unfold execLevelOrderReceive
  rw [if_pos h]

theorem exec_levelOrderReceive_ae (lam lamC cur curC : Option Word) (hon : s.aeOn n = true)
    (hfresh : s.staleXfer pcLo = false) : exec (.levelOrderReceive (.ae n) pcLo lam lamC cur curC) s =
      .next (s.orderToAe n (wholePair lam lamC) (wholePair cur curC)) := by
  change execLevelOrderReceive (.ae n) pcLo lam lamC cur curC s = _
  simp [execLevelOrderReceive, hfresh, hon]

theorem exec_levelOrderReceive_port (lam lamC : Word) (cur curC : Option Word) (hrun : s.tb.run = true)
    (huse : s.inUse n = true) (ho : s.open (.port n) = true) (hfresh : s.staleXfer pcLo = false) :
    exec (.levelOrderReceive (.port n) pcLo (some lam) (some lamC) cur curC) s = .next (s.orderToPort n (lam, lamC)) := by
  change execLevelOrderReceive (.port n) pcLo (some lam) (some lamC) cur curC s = _
  simp [execLevelOrderReceive, hfresh, wholePair, hrun, huse, ho]

end

/-! ## SW_WINDOW_END (R233) -/

/-- The engine once its window has ended, at the tick `per` of the period: a band given within a period waits for the next. -/
def Ae.windowEnded (a : Ae) (per band : Nat) : Ae :=
  if per = 0 then { a.newWindow with band := band } else { a.newWindow with bandNext := some band }

theorem Ae.windowEnded_spec (a : Ae) (per band : Nat) : (a.windowEnded per band).changes = 0 ∧
    (a.windowEnded per band).winCount = 0 ∧ (a.windowEnded per band).spreadHit = false ∧
    (per = 0 → (a.windowEnded per band).band = band) ∧
    (per ≠ 0 → (a.windowEnded per band).band = a.band ∧ (a.windowEnded per band).bandNext = some band) := by
  unfold Ae.windowEnded
  split
  · next h => exact ⟨rfl, rfl, rfl, fun _ => rfl, fun hne => absurd h hne⟩
  · next h => exact ⟨rfl, rfl, rfl, fun h0 => absurd h0 h, fun _ => ⟨rfl, rfl⟩⟩

/-- An engine and a register alone change, whatever is written to them. -/
theorem State.setAe_wr_rest (s : State) (n a : Nat) (x : Ae) (v : Word) :
    { (s.setAe n x).wr a v with aes := s.aes, regs := s.regs } = s := rfl

/-- The state once the window of an engine has ended: its changes are shown. -/
def State.windowShown (s : State) (n : Nat) (a : Ae) (changes : Nat) : State :=
  (s.setAe n a).wr (Reg.AE_SW_RATE n) (BitVec.ofNat 32 (min changes 0xFFFFFFFF))

theorem State.windowShown_spec (s : State) (n : Nat) (a : Ae) (changes : Nat) :
    (s.windowShown n a changes).rd (Reg.AE_SW_RATE n) = BitVec.ofNat 32 (min changes 0xFFFFFFFF) ∧
    (s.windowShown n a changes).ae n = a ∧ regsBut s (s.windowShown n a changes) [Reg.AE_SW_RATE n] ∧
    { s.windowShown n a changes with aes := s.aes, regs := s.regs } = s := by
  refine ⟨State.rd_wr_same _ _ _, State.ae_setAe_same s n a, fun b hb => ?_,
    s.setAe_wr_rest n (Reg.AE_SW_RATE n) a _⟩
  rw [State.windowShown, State.rd_wr_other _ _ _ _ (by simpa using hb), State.rd_setAe]

theorem exec_swWindowEnd {n : Fin 12} (residue : Bool) {s : State} (hon : s.aeOn n = true)
    (hfull : (s.ae n).par.wSw ≤ (s.ae n).winCount) : exec (.swWindowEnd ⟨n, residue⟩) s =
      .next ((if residue then s.integrity (6 + n) else s).windowShown n
        ((s.ae n).windowEnded s.inPer (if residue then (s.ae n).band else (s.ae n).bandAfter s.per)) (s.ae n).changes) := by
  change execSwWindowEnd ⟨n, residue⟩ s = _
  unfold execSwWindowEnd
  dsimp only
  rw [if_pos ⟨hon, hfull⟩]
  rfl

/-- A residue fault of an arm engine marks AE_EVT, as long as nothing makes the duty surrender. -/
theorem State.bitOf_integrity_ae (s : State) (n : Fin 12) (h : noMarks s) :
    (s.integrity (6 + n)).bitOf (Reg.AE_EVT n) 0 = true := by
  have hsrc : islandFault (6 + n) < 256 := by
    unfold islandFault
    split_ifs <;> omega
  have hmarks : noMarks (s.setBit (Reg.AE_EVT n) 0) := fun k hk => by
    rw [State.rd_setBit_other _ _ _ _ (by unfold Reg.TWN_SURR_MASK Reg.AE_EVT; omega), h k hk]
  have hevt : eventReg (Reg.AE_EVT n) = false := by
    refine decide_eq_false ?_
    unfold Reg.AE_EVT Reg.LE_INJ_CTL Reg.ADC_EVT
    omega
  have heq : s.integrity (6 + n) = (s.setBit (Reg.AE_EVT n) 0).raise (islandFault (6 + n)) := by
    rw [State.integrity, if_pos (by omega), Nat.add_sub_cancel_left]
  rw [heq, State.bitOf, State.rd_of_beside (State.raise_beside _ hsrc hmarks) hevt, ← State.bitOf]
  simp [State.bitOf_setBit]

/-! ## CELL_LATCH_OUT and CELL_RELEASE (R246 to R248) -/

/-- The word of a cell command: what is asked, and the cell. -/
def cellWord (act i : Nat) : Word := putField act 30 ||| BitVec.ofNat 32 i

theorem toNat_cellWord {act i : Nat} (hact : act < 4) (hi : i < 1024) : (cellWord act i).toNat = 2 ^ 30 * act + i := by
  rw [Nat.two_pow_add_eq_or_of_lt (by omega), cellWord, putField, BitVec.toNat_or, BitVec.toNat_ofNat, BitVec.toNat_ofNat,
    Nat.mul_comm act, Nat.mod_eq_of_lt (by omega), Nat.mod_eq_of_lt (by omega)]

theorem fieldOf_cellWord {act i : Nat} (hact : act < 4) (hi : i < 1024) :
    fieldOf (cellWord act i) 30 2 = act ∧ fieldOf (cellWord act i) 0 10 = i := by
  unfold fieldOf
  rw [toNat_cellWord hact hi]
  omega

theorem cellWord_latch {i : Nat} (hi : i < 1024) : cellWord 1 i = 0x40000000 + BitVec.ofNat 32 i := by
  apply BitVec.eq_of_toNat_eq
  rw [toNat_cellWord (by decide) hi, BitVec.toNat_add, BitVec.toNat_ofNat, Nat.mod_eq_of_lt (show i < 2 ^ 32 by omega)]
  change _ = (1073741824 + i) % 2 ^ 32
  omega

section
variable (s : State) (a n : Nat) (v : Word)

theorem State.ae_wrPair : (s.wrPair a v).ae n = s.ae n := rfl

theorem State.releaseOk_wrPair (c : Cell) : (s.wrPair a v).releaseOk n c = s.releaseOk n c := rfl

theorem State.rd_wrPair_other {b : Nat} (hval : b ≠ a) (hcomp : b ≠ a + 4) : (s.wrPair a v).rd b = s.rd b := by
  rw [State.wrPair, State.rd_wr_other _ _ _ _ hcomp, State.rd_wr_other _ _ _ _ hval]

theorem State.rd_wrPair_same : (s.wrPair a v).rd a = v ∧ (s.wrPair a v).rd (a + 4) = ~~~ v := by
  refine ⟨?_, by rw [State.wrPair, State.rd_wr_same]⟩
  rw [State.wrPair, State.rd_wr_other _ _ _ _ (by omega), State.rd_wr_same]

/-- An engine and a pair of registers alone change, whatever is written to them. -/
theorem State.wrPair_setAe_rest (x : Ae) : { (s.wrPair a v).setAe n x with aes := s.aes, regs := s.regs } = s := rfl

/-- Setting an event bit after a pair has been written reaches no engine. -/
theorem State.wrPair_setBit_aes (b i : Nat) : ((s.wrPair a v).setBit b i).aes = s.aes := rfl

end

/-- A cell command of firmware: the pair is written, and what it asks follows. -/
def State.cellCommand (s : State) (n act i : Nat) : State :=
  (s.wrPair (Reg.AE_CELL_CMD n) (cellWord act i)).aeCellCmd n (cellWord act i)

/-- The state once a cell command waits. -/
def State.cellWaits (s : State) (n act i : Nat) : State :=
  (s.wrPair (Reg.AE_CELL_CMD n) (cellWord act i)).setAe n { s.ae n with cellCmd := (s.ae n).cellCmd ++ [(act == 1, i)] }

section
variable {s : State} {n act i : Nat} {v : Word} (hact : act = 1 ∨ act = 2) (hv : fieldOf v 30 2 = act ∧ fieldOf v 0 10 = i)
include hact hv

theorem State.aeCellCmd_waits (hin : i < (s.ae n).cells.length)
    (hrel : act = 2 → s.releaseOk n (cellAt (s.ae n).cells i) = true) : s.aeCellCmd n v =
      s.setAe n { s.ae n with cellCmd := (s.ae n).cellCmd ++ [(act == 1, i)] } := by
  obtain ⟨rfl, rfl⟩ := hv
  unfold State.aeCellCmd
  rw [if_neg (by omega), if_neg]
  rintro (h | h | ⟨h, hno⟩)
  · omega
  · omega
  · simp [hrel h] at hno

theorem State.aeCellCmd_refused (hout : (s.ae n).cells.length ≤ i) : s.aeCellCmd n v = s.setBit (Reg.AE_EVT n) 8 := by
  obtain ⟨rfl, rfl⟩ := hv
  unfold State.aeCellCmd
  rw [if_neg (by omega), if_pos (.inr (.inl hout))]

end

section
variable {s : State} {n act i : Nat} (hact : act = 1 ∨ act = 2) (hi : i < 1024)
include hact hi

theorem State.cellCommand_waits (hin : i < (s.ae n).cells.length)
    (hrel : act = 2 → s.releaseOk n (cellAt (s.ae n).cells i) = true) : s.cellCommand n act i = s.cellWaits n act i := by
  rw [State.cellCommand, State.aeCellCmd_waits hact (fieldOf_cellWord (by omega) hi), State.ae_wrPair, State.cellWaits]
  · rwa [State.ae_wrPair]
  · rwa [State.releaseOk_wrPair, State.ae_wrPair]

theorem State.cellCommand_refused (hout : (s.ae n).cells.length ≤ i) : s.cellCommand n act i =
    (s.wrPair (Reg.AE_CELL_CMD n) (cellWord act i)).setBit (Reg.AE_EVT n) 8 := by
  rw [State.cellCommand, State.aeCellCmd_refused hact (fieldOf_cellWord (by omega) hi)]
  rwa [State.ae_wrPair]

end

/-- A command that waits changes its pair of registers and the list of the engine, and nothing else. -/
theorem State.cellWaits_spec (s : State) (n act i : Nat) :
    ((s.cellWaits n act i).ae n).cellCmd = (s.ae n).cellCmd ++ [(act == 1, i)] ∧
    (s.cellWaits n act i).rd (Reg.AE_CELL_CMD n) = cellWord act i ∧
    (s.cellWaits n act i).rd (Reg.AE_CELL_CMD n + 4) = ~~~ cellWord act i ∧
    regsBut s (s.cellWaits n act i) [Reg.AE_CELL_CMD n, Reg.AE_CELL_CMD n + 4] ∧
    { s.cellWaits n act i with aes := s.aes, regs := s.regs } = s := by
  obtain ⟨hval, hcomp⟩ := s.rd_wrPair_same (Reg.AE_CELL_CMD n) (cellWord act i)
  refine ⟨by rw [State.cellWaits, State.ae_setAe_same], ?_, ?_, fun a ha => ?_,
    s.wrPair_setAe_rest (Reg.AE_CELL_CMD n) n (cellWord act i) _⟩
  · rw [State.cellWaits, State.rd_setAe, hval]
  · rw [State.cellWaits, State.rd_setAe, hcomp]
  · obtain ⟨hneVal, hneComp⟩ : a ≠ Reg.AE_CELL_CMD n ∧ a ≠ Reg.AE_CELL_CMD n + 4 := by simpa using ha
    rw [State.cellWaits, State.rd_setAe, State.rd_wrPair_other _ _ _ hneVal hneComp]

theorem exec_cellLatchOut (n : Fin 12) (i : Fin 1024) (s : State) :
    exec (.cellLatchOut n i) s = s.via (.ae n) fun t => t.cellCommand n 1 i := by
  change execCellLatchOut n i s = _
  unfold execCellLatchOut State.cellCommand cellWord
  rfl

theorem exec_cellRelease (n : Fin 12) (i : Fin 1024) (s : State) :
    exec (.cellRelease n i) s = s.via (.ae n) fun t => t.cellCommand n 2 i := by
  change execCellRelease n i s = _
  unfold execCellRelease State.cellCommand cellWord
  rfl

/-! ## WITNESS_RECEIVE (R184) -/

/-- A port and a register alone change, whatever is written to them. -/
theorem State.setPort_wr_rest (s : State) (n a : Nat) (x : Port) (v : Word) :
    { (s.setPort n x).wr a v with ports := s.ports, regs := s.regs } = s := rfl

/-- The state once a witness has been kept and shown. -/
def State.witnessKept (s : State) (p : Nat) (e c : BitVec 16) (recs : List (BitVec 8)) : State :=
  (s.setPort p { s.port p with
    wit := some { eMax := e, eMaxC := c, recs := recs, at_ := s.now }
    eMaxs := (e, c, s.now) :: (s.port p).eMaxs.filter fun w => !s.since w.2.2 (s.leaseTicks + 1) }).wr
  (Reg.PRT_WIT_LAST p) (BitVec.ofNat 32 (e.toNat * 65536 + recs.length % 256))

section
variable {p : Fin 12} {e c : BitVec 16} (recs : List (BitVec 8)) {s : State} (hdata : (s.lane p).inData = true)
include hdata

theorem exec_witnessReceive_broken (h : pairOk e c = false) :
    exec (.witnessReceive p e c recs) s = .next (s.integrity (22 + p)) := by
  change execWitnessReceive p e c recs s = _
  rw [execWitnessReceive, if_neg (by simp [hdata]), if_pos h]

theorem exec_witnessReceive_unused (h : pairOk e c = true) (huse : s.inUse p = false) :
    exec (.witnessReceive p e c recs) s = .next (s.witnessKept p e c recs) := by
  change execWitnessReceive p e c recs s = _
  rw [execWitnessReceive, if_neg (by simp [hdata]), if_neg (by simp [h])]
  dsimp only
  rw [if_neg (by simp [huse])]
  rfl

end

theorem State.witnessKept_spec (s : State) (p : Nat) (e c : BitVec 16) (recs : List (BitVec 8)) :
    ((s.witnessKept p e c recs).port p).wit = some { eMax := e, eMaxC := c, recs := recs, at_ := s.now } ∧
    (e, c, s.now) ∈ ((s.witnessKept p e c recs).port p).eMaxs ∧
    (s.witnessKept p e c recs).rd (Reg.PRT_WIT_LAST p) = BitVec.ofNat 32 (e.toNat * 65536 + recs.length % 256) ∧
    (∀ q, q ≠ p → (s.witnessKept p e c recs).port q = s.port q) ∧
    regsBut s (s.witnessKept p e c recs) [Reg.PRT_WIT_LAST p] ∧
    { s.witnessKept p e c recs with ports := s.ports, regs := s.regs } = s := by
  refine ⟨?_, ?_, State.rd_wr_same _ _ _, fun q hq => ?_, fun a ha => ?_,
    s.setPort_wr_rest p (Reg.PRT_WIT_LAST p) _ _⟩
  · rw [State.witnessKept, State.port_wr, State.port_setPort_same]
  · rw [State.witnessKept, State.port_wr, State.port_setPort_same]
    exact List.mem_cons_self
  · rw [State.witnessKept, State.port_wr, State.port_setPort_other _ _ _ _ hq]
  · rw [State.witnessKept, State.rd_wr_other _ _ _ _ (by simpa using ha), State.rd_setPort]

end Sys2Proof.Machine

namespace Sys2Proof.Frames

open Sys2Proof.Machine Sys2Proof.Safety

/-- Settles O34: by the reader of a level order and its tick, the residue of a window, the cell a command names and the pair of
a witness. -/
theorem levelOrderAndCellCommandsReachTheArm : Obligations.LevelOrderAndCellCommandsReachTheArm := by
  refine ⟨fun n pcLo lam lamC cur curC s hon hsel htick hfresh hlam hcur =>
      ⟨_, exec_levelOrderReceive_ae lam lamC cur curC hon hfresh, State.orderToAe_spec hsel htick hlam hcur⟩,
    fun n pcLo lam lamC cur curC s hrun huse ho hdue htick hfresh hpair =>
      ⟨_, exec_levelOrderReceive_port lam lamC cur curC hrun huse ho hfresh, State.orderToPort_spec hdue htick hpair⟩,
    fun d pcLo lam lamC cur curC s h => exec_levelOrderReceive_stale d lam lamC cur curC h,
    fun n s hon hfull => ?_, fun n s hon hfull hmarks => ?_, fun n i s ho hin => ⟨?_, fun hrel => ?_⟩,
    fun n i s ho hout => ⟨?_, ?_⟩,
    fun p e c recs s hdata hpair huse =>
      ⟨_, exec_witnessReceive_unused recs hdata hpair huse, s.witnessKept_spec p e c recs⟩,
    fun p e c recs s hdata hpair => exec_witnessReceive_broken recs hdata hpair⟩
  · obtain ⟨hchanges, hcount, hspread, hband, hwaits⟩ := (s.ae n).windowEnded_spec s.inPer ((s.ae n).bandAfter s.per)
    obtain ⟨hrate, hae, hregs, hrest⟩ := s.windowShown_spec n
      ((s.ae n).windowEnded s.inPer ((s.ae n).bandAfter s.per)) (s.ae n).changes
    have hexec := exec_swWindowEnd false hon hfull
    rw [if_neg Bool.false_ne_true, if_neg Bool.false_ne_true] at hexec
    refine ⟨_, hexec, hrate, ?_⟩
    rw [hae]
    exact ⟨hchanges, hcount, hspread, hband, hwaits, hregs, hrest⟩
  · obtain ⟨-, hcount, -, hband, hwaits⟩ := (s.ae n).windowEnded_spec s.inPer (s.ae n).band
    obtain ⟨-, hae, hregs, -⟩ := (s.integrity (6 + n)).windowShown_spec n
      ((s.ae n).windowEnded s.inPer (s.ae n).band) (s.ae n).changes
    have hevt : Reg.AE_EVT n ∉ [Reg.AE_SW_RATE n] := by simp [Reg.AE_EVT, Reg.AE_SW_RATE]
    have hexec := exec_swWindowEnd true hon hfull
    rw [if_pos rfl, if_pos rfl] at hexec
    refine ⟨_, hexec, by rw [hae, hcount], ?_, fun h0 => by rw [hae, hband h0], fun hin => by rw [hae, (hwaits hin).2]⟩
    rw [State.bitOf, hregs _ hevt, ← State.bitOf, s.bitOf_integrity_ae n hmarks]
  · obtain ⟨hcmd, hval, hcomp, hregs, hrest⟩ := s.cellWaits_spec n 1 i
    rw [cellWord_latch i.isLt] at hval hcomp
    have hwaits : s.cellCommand n 1 i = s.cellWaits n 1 i := State.cellCommand_waits (.inl rfl) i.isLt hin (by simp)
    refine answers_of_via (exec_cellLatchOut n i s) ho ?_
    rw [hwaits]
    exact ⟨hcmd, hval, hcomp, hregs, hrest⟩
  · obtain ⟨hcmd, -, -, hregs, hrest⟩ := s.cellWaits_spec n 2 i
    have hwaits : s.cellCommand n 2 i = s.cellWaits n 2 i := State.cellCommand_waits (.inr rfl) i.isLt hin fun _ => hrel
    refine answers_of_via (exec_cellRelease n i s) ho ?_
    rw [hwaits]
    exact ⟨hcmd, hregs, hrest⟩
  · refine answers_of_via (exec_cellLatchOut n i s) ho ?_
    rw [State.cellCommand_refused (.inl rfl) i.isLt hout]
    exact ⟨s.wrPair_setBit_aes _ _ _ _, by simp [State.bitOf_setBit]⟩
  · refine answers_of_via (exec_cellRelease n i s) ho ?_
    rw [State.cellCommand_refused (.inr rfl) i.isLt hout]
    exact ⟨s.wrPair_setBit_aes _ _ _ _, by simp [State.bitOf_setBit]⟩

end Sys2Proof.Frames
end

section
/-! The stages of an arm engine (R49, R194 to R230, R267, R353, R356): what RANK, SELECT and PLACE make of the engine, and what
PLACE leaves as it was. One rule for each shared operation, on the engine and on the marks for surrender (R498). -/

namespace Sys2Proof.Machine

open Sys2Proof.Safety

@[simp] theorem State.elapse_aes (s : State) (n : Nat) : (s.elapse n).aes = s.aes := by
  simp [State.elapse, apply_ite State.aes]
@[simp] theorem State.elapse_drf (s : State) (n : Nat) : (s.elapse n).drf = s.drf := by
  simp [State.elapse, apply_ite State.drf]

theorem State.ae_advanceTo (s : State) (t : BitVec 64) (n : Nat) : (s.advanceTo t).ae n = s.ae n := by
  rw [State.ae, State.advanceTo, State.elapse_aes, State.ae]

/-! ## An engine, while no source is marked for surrender -/

/-- Engine `n` stands as `a`, and no source is marked for surrender, so that no event turns the engines off (R498, R499). -/
structure State.ArmIs (s : State) (n : Nat) (a : Ae) : Prop where
  engine : s.ae n = a
  quiet : noMarks s

theorem State.armIs_self {s : State} (n : Nat) (h : noMarks s) : s.ArmIs n (s.ae n) := ⟨rfl, h⟩

/-- Is an address outside the window of the twin, where the marks for surrender are? (R857) -/
def outsideTwin (r : Nat) : Prop := r < 0x20060000 ∨ 0x20070000 ≤ r

theorem outsideTwin_schedule : outsideTwin Reg.SCH_EVT ∧ outsideTwin Reg.SCH_LAST_MISS ∧ outsideTwin Reg.SCH_LAST_MISS_PC ∧
    outsideTwin Reg.SCH_MISS_PER ∧ outsideTwin Reg.FLT_EVT :=
  ⟨.inl (by decide), .inl (by decide), .inl (by decide), .inl (by decide), .inl (by decide)⟩

theorem outsideTwin_arm (n : Nat) : outsideTwin (Reg.AE_EVT n) ∧ outsideTwin (Reg.AE_CNT_FRAC n) ∧
    outsideTwin (Reg.AE_CNT_DWELL n) ∧ outsideTwin (Reg.AE_CNT_DIR n) ∧ outsideTwin (Reg.AE_CNT_NOORD n) := by
  unfold outsideTwin Reg.AE_EVT Reg.AE_CNT_FRAC Reg.AE_CNT_DWELL Reg.AE_CNT_DIR Reg.AE_CNT_NOORD
  omega

theorem islandFault_lt (i : Nat) : islandFault i < 256 := by
  unfold islandFault
  split_ifs <;> omega

theorem aeOrigin_lt (n : Nat) : aeOrigin n < 256 := by
  unfold aeOrigin
  split <;> decide

namespace State.ArmIs

theorem ite {c : Prop} [Decidable c] {s t : State} {n : Nat} {a : Ae} (hs : s.ArmIs n a) (ht : t.ArmIs n a) :
    (if c then s else t).ArmIs n a := by
  split
  · exact hs
  · exact ht

theorem foldl {α : Type} {n : Nat} {a : Ae} (l : List α) (f : State → α → State)
    (hf : ∀ t x, x ∈ l → t.ArmIs n a → (f t x).ArmIs n a) {s : State} (h : s.ArmIs n a) : (l.foldl f s).ArmIs n a := by
  induction l generalizing s with
  | nil => exact h
  | cons x r ih =>
    rw [List.foldl_cons]
    exact ih (fun t y hy => hf t y (List.mem_cons_of_mem x hy)) (hf s x List.mem_cons_self h)

section
variable {s : State} {n : Nat} {a : Ae} (h : s.ArmIs n a)
include h

theorem same {t : State} (haes : t.aes = s.aes) (hregs : t.regs = s.regs) : t.ArmIs n a :=
  ⟨by rw [State.ae, haes]; exact h.engine, fun k hk => by rw [State.rd, hregs]; exact h.quiet k hk⟩

theorem withSch (x : Sch) : State.ArmIs { s with sch := x } n a := ⟨h.engine, h.quiet⟩

theorem setAe (b : Ae) : (s.setAe n b).ArmIs n b := ⟨State.ae_setAe_same s n b, h.quiet⟩

theorem update (f : Ae → Ae) : (s.setAe n (f (s.ae n))).ArmIs n (f a) := h.engine ▸ h.setAe (f (s.ae n))

theorem advanceTo (t : BitVec 64) : (s.advanceTo t).ArmIs n a := h.same (s.elapse_aes _) (s.elapse_regs _)

/-! ### Registers -/

theorem wr {r : Nat} (hr : outsideTwin r) (v : Word) : (s.wr r v).ArmIs n a := by
  refine ⟨h.engine, fun k hk => ?_⟩
  rw [State.rd_wr_other _ _ _ _ (by unfold outsideTwin at hr; unfold Reg.TWN_SURR_MASK; omega), h.quiet k hk]

theorem setBit {r : Nat} (hr : outsideTwin r) (i : Nat) : (s.setBit r i).ArmIs n a := (h.wr hr _).same rfl rfl

theorem setBitIf {r : Nat} (hr : outsideTwin r) (c : Bool) (i : Nat) : (s.setBitIf c r i).ArmIs n a :=
  (h.setBit hr i).ite h

theorem bump {r : Nat} (hr : outsideTwin r) : (s.bump r).ArmIs n a := h.wr hr _

theorem addField {r : Nat} (hr : outsideTwin r) (lo k v : Nat) : (s.addField r lo k v).ArmIs n a := h.wr hr _

/-! ### Events and misses -/

theorem raise {i : Nat} (hi : i < 256) : (s.raise i).ArmIs n a := by
  have hbeside := s.raise_beside hi h.quiet
  obtain ⟨-, -, -, haes, -⟩ := State.fields_of_beside hbeside
  refine ⟨by rw [State.ae, haes]; exact h.engine, fun k hk => ?_⟩
  rw [State.rd_of_beside hbeside (eventReg_TWN_SURR_MASK hk), h.quiet k hk]

theorem raiseOnce {i : Nat} (hi : i < 256) : (s.raiseOnce i).ArmIs n a := by
  unfold State.raiseOnce
  exact h.ite ((h.withSch _).raise hi)

theorem integrity (i : Nat) : (s.integrity i).ArmIs n a :=
  ((h.setBit (outsideTwin_arm _).1 0).ite h).raise (islandFault_lt i)

theorem blockFrom (t : BitVec 64) : (s.blockFrom t).ArmIs n a := by
  obtain ⟨-, -, -, -, hflt⟩ := outsideTwin_schedule
  have hlatch : (s.setLatch true t).ArmIs n a := h.same rfl rfl
  exact hlatch.setBitIf hflt _ _

theorem declareMiss (code kind idx m : Nat) : (s.declareMiss code kind idx [aeOrigin m]).ArmIs n a := by
  obtain ⟨hevt, hlast, hpc, hper, -⟩ := outsideTwin_schedule
  unfold State.declareMiss
  extract_lets s1 run bumped sch s2 s3 s4
  have hs1 : s1.ArmIs n a := ((h.setBit hevt 1).wr hlast _).wr hpc _
  have hs2 : s2.ArmIs n a := hs1.ite ((hs1.bump hper).withSch _)
  have hs3 : s3.ArmIs n a := hs2.setBitIf hevt _ _
  have hs4 : s4.ArmIs n a := ((hs3.blockFrom _).raise (by decide)).ite hs3
  exact foldl _ _ (fun t i hi ht => ht.raiseOnce (List.mem_singleton.mp hi ▸ aeOrigin_lt m)) hs4

end

end State.ArmIs

/-! ## What the stages share: the latches, the unit's occupation, the hand-over -/

/-- The engine once the latches of the compute phase have been taken (R199, R246). -/
def Ae.latched (a : Ae) : Ae :=
  { a with cells := (latchAll a.cells a.cellNow a.par.staleLim).cells, cellNow := [] }

/-- The engine with the unit of stage `u` occupied until `t` (R338). -/
def Ae.occupied (a : Ae) (u : Nat) (t : BitVec 64) : Ae := { a with busyTo := Sparse.put (fun _ => 0) a.busyTo u t }

/-- The engine once it has handed over (R196, R228, R356). -/
def Ae.handed (a : Ae) (h : Handover) (missed stop : Bool) : Ae :=
  { a with out := h, outMissed := a.outMissed || missed, stop := a.stop || stop }

/-- Ending transfers reaches the CUE words alone. -/
theorem State.sendCues_rest (s : State) (f : Xing → Bool) (lat : Nat) (pc : BitVec 16) :
    { s.sendCues f lat pc with sch := s.sch } = s := by
  unfold State.sendCues
  induction indexed 0 s.sec.xings using List.reverseRecOn with
  | nil => rfl
  | append_singleton l q ih =>
    rw [List.foldl_append, List.foldl_cons, List.foldl_nil]
    split
    · exact ih
    · exact ih

/-- Handing over changes the engine, and ends transfers. -/
theorem State.handOver_rest (s : State) (n : Nat) (h : Handover) (missed stop : Bool) (lat : Nat) :
    { s.handOver n h missed stop lat with sch := s.sch } = s.setAe n ((s.ae n).handed h missed stop) :=
  State.sendCues_rest _ _ _ _

section
variable {s : State} {n : Nat} {a : Ae} (h : s.ArmIs n a)
include h

theorem State.ArmIs.sendCues (f : Xing → Bool) (lat : Nat) (pc : BitVec 16) : (s.sendCues f lat pc).ArmIs n a := by
  have hrest := s.sendCues_rest f lat pc
  exact h.same (congrArg State.aes hrest :) (congrArg State.regs hrest :)

theorem State.ArmIs.takeLatches : (s.takeLatches n).ArmIs n a.latched := by
  obtain ⟨hevt, -⟩ := outsideTwin_arm n
  obtain ⟨rfl, hquiet⟩ := h
  have hself := State.armIs_self n hquiet
  unfold State.takeLatches
  extract_lets a m past s1 s2
  have hs1 : s1.ArmIs n (s.ae n).latched := hself.setAe _
  have hs2 : s2.ArmIs n (s.ae n).latched := ((hs1.setBit hevt 1).raiseOnce (by decide)).ite hs1
  exact ((hs2.setBit hevt 2).raiseOnce (by decide)).ite hs2

theorem State.ArmIs.aeOccupy (u len : Nat) :
    (s.aeOccupy n u len).ArmIs n (a.occupied u (s.now + BitVec.ofNat 64 len)) :=
  h.update fun x => x.occupied u (s.now + BitVec.ofNat 64 len)

theorem State.ArmIs.handOver (x : Handover) (missed stop : Bool) (lat : Nat) :
    (s.handOver n x missed stop lat).ArmIs n (a.handed x missed stop) := by
  unfold State.handOver
  exact (h.update fun b => b.handed x missed stop).sendCues _ _ _

end

/-! ## RANK (R49, R211, R267) -/

/-- The engine with the rank of its cells and its sums (R211, R267). -/
def Ae.ranked (a : Ae) : Ae := { a with rank := some (rankCells a.cells), sums := some (armSums a.cells) }

/-- RANK takes the latches, occupies its unit, and ranks and sums the cells as they then stand. -/
theorem State.ArmIs.rankStage {s : State} {n : Nat} {a : Ae} (h : s.ArmIs n a) :
    ∃ t, (s.rankStage n false).ArmIs n (a.latched.occupied 0 t).ranked := by
  have hheld := h.takeLatches.aeOccupy 0 (rankLat (s.nCell n))
  refine ⟨(s.takeLatches n).now + BitVec.ofNat 64 (rankLat (s.nCell n)), ?_⟩
  unfold State.rankStage
  extract_lets s1 b s2 x
  rw [if_neg Bool.false_ne_true]
  have hb : b = a.latched.occupied 0 _ := hheld.engine
  have hs2 : s2.ArmIs n b := hb ▸ (hheld.integrity _).ite hheld
  have hx : x = b := hs2.engine
  rw [← hb, hx]
  exact (hs2.setAe b.ranked).sendCues _ _ _

/-! ## SELECT (R194 to R224, R356) -/

/-- The engine once the selection has run by the level order `lam`, over `cells`, for a period of `p` ticks (R209 to R224,
R245). -/
def Ae.selected (a : Ae) (lam : Word) (rank : List Nat) (cells : List Cell) (p : Nat) : Ae :=
  let neg := decide (lam.toInt < 0)
  let dir := a.direction neg
  let r := selectSet a.par cells rank lam.toInt dir a.band (dMinOf cells) (dMaxOf cells) p
  let high := decide (a.par.spreadLim < r.spread)
  { a with
    charging := dir, sel := some (some r.sel), spread := r.spread, pool := r.pool, spreadHigh := high
    spreadHit := a.spreadHit || high, bEff := if high then a.par.bMin else a.band
    neg := neg, pulsing := r.sel.pulse.map (·.1), ran := true, lamLast := lam, nLast := lam.toInt.natAbs / 65536 }

/-- The engine once it builds no set in the period (R196). -/
def Ae.unselected (a : Ae) : Ae := { a with sel := some none, ran := false }

/-- Has an input of SELECT not come: the level order, the arm current or the rank? (R356) -/
def Ae.lacksInput (a : Ae) : Bool := a.order.isNone || a.current.isNone || a.rank.isNone

/-- The engine with SELECT started in the period (R357), and with its hand-over flagged MISSED (R356). -/
def Ae.started (a : Ae) : Ae := { a with selStarted := true }
def Ae.flagged (a : Ae) : Ae := { a with outMissed := true }

/-- The engine once SELECT has started, with its unit occupied until `t` and a missing input noted (R356, R357). -/
def Ae.selecting (a : Ae) (t : BitVec 64) : Ae :=
  if a.lacksInput then (a.latched.started.occupied 1 t).flagged else a.latched.started.occupied 1 t

theorem Ae.selecting_selStarted (a : Ae) (t : BitVec 64) : (a.selecting t).selStarted = true := by
  unfold Ae.selecting
  split <;> rfl

/-- The state with the latches taken and the unit of SELECT occupied (R246, R338, R357). -/
def State.selectHeld (s : State) (n : Nat) : State :=
  let s0 := s.takeLatches n
  (s0.setAe n (s0.ae n).started).aeOccupy n 1 selectLat

/-- The state once SELECT has started: its unit is occupied, and the miss of an input has been declared (R353, R356). -/
def State.selectBegun (s : State) (n : Nat) : State :=
  let s1 := s.selectHeld n
  let miss := s1.declareMiss (aeCode n) 3 1 [aeOrigin n]
  if (s1.ae n).lacksInput then miss.setAe n (miss.ae n).flagged else s1

section
variable {s : State} {n : Nat} {a : Ae} (h : s.ArmIs n a)
include h

theorem State.ArmIs.selectHeld : ∃ t, (s.selectHeld n).ArmIs n (a.latched.started.occupied 1 t) :=
  ⟨_, (h.takeLatches.update Ae.started).aeOccupy 1 selectLat⟩

theorem State.ArmIs.selectBegun : ∃ t, (s.selectBegun n).ArmIs n (a.selecting t) := by
  obtain ⟨t, hheld⟩ := h.selectHeld
  have hmiss := hheld.declareMiss (aeCode n) 3 1 n
  have hlacks : ((s.selectHeld n).ae n).lacksInput = a.lacksInput := by
    rw [hheld.engine]
    rfl
  refine ⟨t, ?_⟩
  unfold State.selectBegun Ae.selecting
  extract_lets s1 miss
  rw [hlacks]
  split
  · exact hmiss.update Ae.flagged
  · exact hheld

theorem State.ArmIs.noteSelection (r : SelInfo) (high : Bool) : (s.noteSelection n r high).ArmIs n a := by
  obtain ⟨hevt, hfrac, hdwell, -⟩ := outsideTwin_arm n
  unfold State.noteSelection
  extract_lets evt s1 s2 s3 s4 s5
  have hs1 : s1.ArmIs n a := h.wr hdwell _
  have hs2 : s2.ArmIs n a := ((hs1.setBit hevt 3).raiseOnce (by decide)).ite hs1
  have hs3 : s3.ArmIs n a := ((hs2.setBit hevt 6).raiseOnce (by decide)).ite hs2
  have hs4 : s4.ArmIs n a := ((hs3.addField hfrac 0 16 1).setBit hevt 4).ite hs3
  have hs5 : s5.ArmIs n a := (hs4.addField hfrac 16 16 1).ite hs4
  exact (((hs5.addField hfrac 16 16 1).setBit hevt 5).raiseOnce (by decide)).ite hs5

theorem State.ArmIs.selectWith (lam : Word) (rank : List Nat) :
    (s.selectWith n lam rank).ArmIs n (a.selected lam rank (s.setCells n) s.setPeriod) := by
  obtain ⟨-, -, -, hdirs, -⟩ := outsideTwin_arm n
  obtain ⟨rfl, hquiet⟩ := h
  have hself := State.armIs_self n hquiet
  unfold State.selectWith
  extract_lets a neg s1 dir cells r high s2
  have hs1 : s1.ArmIs n (s.ae n) := (hself.bump hdirs).ite hself
  have hs2 : s2.ArmIs n ((s.ae n).selected lam rank (s.setCells n) s.setPeriod) := hs1.setAe _
  exact hs2.noteSelection r high

theorem State.ArmIs.selectNone (missed : Bool) : (s.selectNone n missed).ArmIs n (a.handed .noOrder missed false).unselected := by
  obtain ⟨hevt, -, -, -, hnoord⟩ := outsideTwin_arm n
  have hout := ((h.bump hnoord).setBit hevt 7).handOver .noOrder missed false 0
  unfold State.selectNone State.noteNoOrder
  extract_lets s1
  have hs1 : s1.ArmIs n (a.handed .noOrder missed false) := hout
  exact hs1.update Ae.unselected

end

/-- A period without a valid level order marks AE_EVT (R196). -/
theorem State.bitOf_selectNone (s : State) (n : Nat) (missed : Bool) :
    (s.selectNone n missed).bitOf (Reg.AE_EVT n) 7 = true := by
  have hregs : (s.selectNone n missed).regs = (s.noteNoOrder n).regs :=
    (congrArg State.regs ((s.noteNoOrder n).handOver_rest n .noOrder missed false 0) :)
  rw [State.bitOf, State.rd, hregs, ← State.rd, ← State.bitOf, State.noteNoOrder, State.bitOf_setBit _ _ _ _ (by decide)]
  simp

section
variable {s : State} {n : Nat} {a : Ae} (h : s.ArmIs n a)
include h

/-- With a whole level order and a rank SELECT runs the selection; where the arm current has not come, the set goes to the port at
once (R194, R197, R356). -/
theorem State.ArmIs.selectStage_whole {lam : Word × Word} {rank : List Nat} (horder : a.order = some lam)
    (hrank : a.rank = some rank) (hpair : pairOk lam.1 lam.2 = true) : s.selectStage n false =
      if a.lacksInput then ((s.selectBegun n).selectWith n lam.1 rank).placeOut n true false 0
      else (s.selectBegun n).selectWith n lam.1 rank := by
  obtain ⟨t, hheld⟩ := h.selectHeld
  unfold State.selectStage
  extract_lets s0 x s1 b miss late y s2
  have hb : b = a.latched.started.occupied 1 t := hheld.engine
  have hlate : late = a.lacksInput := (congrArg Ae.lacksInput hb :)
  have horder' : b.order = some lam := by rw [hb, ← horder]; rfl
  have hrank' : b.rank = some rank := by rw [hb, ← hrank]; rfl
  rw [if_neg Bool.false_ne_true, horder', hrank', ← hlate]
  exact if_pos hpair

/-- Without a whole level order or without a rank SELECT builds no set (R196, R356). -/
theorem State.ArmIs.selectStage_none
    (hno : (∀ lam, a.order = some lam → pairOk lam.1 lam.2 = false) ∨ a.rank = none) :
    s.selectStage n false = (s.selectBegun n).selectNone n false := by
  obtain ⟨t, hheld⟩ := h.selectHeld
  unfold State.selectStage
  extract_lets s0 x s1 b miss late y s2
  have hb : b = a.latched.started.occupied 1 t := hheld.engine
  have horder : b.order = a.order := by rw [hb]; rfl
  have hrank : b.rank = a.rank := by rw [hb]; rfl
  rw [if_neg Bool.false_ne_true]
  split
  · next lam rank hlam hsome =>
    rw [horder] at hlam
    rw [hrank] at hsome
    have hbroken : pairOk lam.1 lam.2 = false := hno.elim (fun hpair => hpair lam hlam) fun hnone => by simp [hnone] at hsome
    exact if_neg (by simp [hbroken])
  · rfl

end

/-! ## PLACE (R228 to R230) -/

/-- The cells and the period that a set is built for rest on the course of the periods, the draft and the engine's cells alone
(R30, R232). -/
theorem State.setCells_congr {s t : State} {n : Nat} (hcourse : t.course = s.course) (hdrf : t.drf = s.drf)
    (hcells : (t.ae n).cells = (s.ae n).cells) : t.setCells n = s.setCells n ∧ t.setPeriod = s.setPeriod := by
  obtain ⟨hpc, -, -, -, -, hper⟩ := State.tb_of_course hcourse
  have hset : t.nextSet = s.nextSet := by rw [State.nextSet, State.nextSet, hpc, hdrf]
  refine ⟨?_, ?_⟩
  · rw [State.setCells, State.setCells, State.nextCdly, State.nextCdly, hset, hcells]
  · rw [State.setPeriod, State.setPeriod, State.nextPer, State.nextPer, hset, State.per, State.per, hper]

theorem State.placeOut_selected {s : State} {n : Nat} {sel : Sel} (missed stop : Bool) (lat : Nat)
    (h : (s.ae n).sel = some (some sel)) : s.placeOut n missed stop lat =
      s.handOver n (.cmds (placeSet sel (s.setCells n) (dMaxOf (s.setCells n)) s.setPeriod)) missed stop lat := by
  rw [State.placeOut, h]

/-- Handing over changes no register, no port, no source and no other engine. -/
theorem State.handOver_spec (s : State) (n : Nat) (h : Handover) (missed stop : Bool) (lat : Nat) :
    (s.handOver n h missed stop lat).ae n = (s.ae n).handed h missed stop ∧
    (s.handOver n h missed stop lat).regs = s.regs ∧ (s.handOver n h missed stop lat).ports = s.ports ∧
    (s.handOver n h missed stop lat).flt = s.flt ∧ ∀ m, m ≠ n → (s.handOver n h missed stop lat).ae m = s.ae m := by
  have hrest := s.handOver_rest n h missed stop lat
  have haes : (s.handOver n h missed stop lat).aes = (s.setAe n ((s.ae n).handed h missed stop)).aes :=
    (congrArg State.aes hrest :)
  refine ⟨?_, (congrArg State.regs hrest :), (congrArg State.ports hrest :), (congrArg State.flt hrest :), fun m hm => ?_⟩
  · rw [State.ae, haes]
    exact State.ae_setAe_same s n _
  · rw [State.ae, haes]
    exact State.ae_setAe_other s n m _ hm

/-- PLACE hands over the set placed over the cells as they stand, and ends the engine's work for the period. -/
theorem State.placeStage_spec {s : State} {n : Nat} {sel : Sel} (h : (s.ae n).sel = some (some sel)) :
    ((s.placeStage n false).ae n).out = .cmds (placeSet sel (s.setCells n) (dMaxOf (s.setCells n)) s.setPeriod) ∧
    ((s.placeStage n false).ae n).stop = true ∧ (s.placeStage n false).regs = s.regs ∧
    (s.placeStage n false).ports = s.ports ∧ (s.placeStage n false).flt = s.flt ∧
    ∀ m, m ≠ n → (s.placeStage n false).ae m = s.ae m := by
  have hunit : (s.aeOccupy n 2 (placeLat (s.nCell n))).ae n =
      (s.ae n).occupied 2 (s.now + BitVec.ofNat 64 (placeLat (s.nCell n))) := State.ae_setAe_same s n _
  have hsel : ((s.aeOccupy n 2 (placeLat (s.nCell n))).ae n).sel = some (some sel) := by rw [hunit, ← h]; rfl
  obtain ⟨hcells, hper⟩ := State.setCells_congr (t := s.aeOccupy n 2 (placeLat (s.nCell n))) (s := s) (n := n) rfl rfl
    (by rw [hunit]; rfl)
  have hstage : s.placeStage n false = _ := State.placeOut_selected false true (placeLat (s.nCell n)) hsel
  obtain ⟨hae, hregs, hports, hflt, hothers⟩ := State.handOver_spec (s.aeOccupy n 2 (placeLat (s.nCell n))) n
    (.cmds (placeSet sel (s.setCells n) (dMaxOf (s.setCells n)) s.setPeriod)) false true (placeLat (s.nCell n))
  rw [hstage, hcells, hper, hae]
  exact ⟨rfl, Bool.or_true _, hregs, hports, hflt, fun m hm => (hothers m hm).trans (State.ae_setAe_other s n m _ hm)⟩

/-! ## The commands of the stages (R353) -/

section
variable {n : Fin 12} {s : State} (residue : Bool) (hon : s.aeOn n = true) (hcomp : s.computes = true)
  (hstop : (s.ae n).stop = false)
include hon hcomp hstop

theorem exec_rankStart (hrank : (s.ae n).rank = none)
    (hfree : (s.advanceTo (s.tickAt (s.sec.ae n).rankAt)).aeBusy n 0 = false) (hintake : s.tb.intakeDone = true) :
    exec (.rankStart n residue) s = .next ((s.advanceTo (s.tickAt (s.sec.ae n).rankAt)).rankStage n residue) := by
  obtain ⟨-, -, -, hdone, -⟩ := State.tb_of_course (s.advanceTo_course (s.tickAt (s.sec.ae n).rankAt))
  change execRankStart n residue s = _
  rw [execRankStart, if_neg (by simp [hon, hcomp, hrank, hstop])]
  dsimp only
  rw [if_neg (by simp [hfree]), if_neg (by simp [hdone, hintake])]

theorem exec_selectStart (hsel : (s.ae n).selStarted = false)
    (hfree : (s.advanceTo (s.tickAt (s.sec.ae n).selectAt)).aeBusy n 1 = false) :
    exec (.selectStart n residue) s = .next ((s.advanceTo (s.tickAt (s.sec.ae n).selectAt)).selectStage n residue) := by
  change execSelectStart n residue s = _
  rw [execSelectStart, if_neg (by simp [hon, hcomp, hsel, hstop])]
  exact if_neg (by simp [hfree])

theorem exec_placeStart {sel : Option Sel} (hfree : (s.advanceTo (s.tickAt (s.sec.ae n).placeAt)).aeBusy n 2 = false)
    (hsel : (s.ae n).sel = some sel) :
    exec (.placeStart n residue) s = .next ((s.advanceTo (s.tickAt (s.sec.ae n).placeAt)).placeStage n residue) := by
  change execPlaceStart n residue s = _
  rw [execPlaceStart, if_neg (by simp [hon, hcomp, hstop])]
  dsimp only
  rw [if_neg (by simp [hfree]), if_neg (by simp [State.ae_advanceTo, hsel])]

end

end Sys2Proof.Machine

namespace Sys2Proof.Frames

open Sys2Proof.Machine Sys2Proof.Safety

/-- Settles O33: by what each stage makes of the engine, and by whether the level order, the arm current and the rank of SELECT
have come. -/
theorem armStagesBuildTheCommandSet : Obligations.ArmStagesBuildTheCommandSet := by
  refine ⟨fun n s hon hcomp hmarks hrank hstop hfree hintake => ?_,
    fun n lam rank s hon hcomp hmarks hstop hsel hfree horder hrank hpair => ?_,
    fun n s hon hcomp hmarks hstop hsel hfree hno => ?_,
    fun n sel s hon hcomp hstop hfree hsel => ?_⟩
  · obtain ⟨t, hranked⟩ := ((State.armIs_self n hmarks).advanceTo (s.tickAt (s.sec.ae n).rankAt)).rankStage
    refine ⟨_, exec_rankStart false hon hcomp hstop hrank hfree hintake, ?_⟩
    beta_reduce
    rw [hranked.engine]
    exact ⟨rfl, rfl⟩
  · have hstart := (State.armIs_self n hmarks).advanceTo (s.tickAt (s.sec.ae n).selectAt)
    refine ⟨_, exec_selectStart false hon hcomp hstop hsel hfree, ?_⟩
    rw [hstart.selectStage_whole horder hrank hpair]
    obtain ⟨t, hbegun⟩ := hstart.selectBegun
    have hstarted := (s.ae n).selecting_selStarted t
    have hselected := hbegun.selectWith lam.1 rank
    split
    · rw [State.placeOut_selected true false 0 (by rw [hselected.engine]; rfl), (hselected.handOver _ true false 0).engine]
      exact ⟨hstarted, rfl, rfl, rfl, _, rfl⟩
    · rw [hselected.engine]
      exact ⟨hstarted, rfl, rfl, rfl, _, rfl⟩
  · have hstart := (State.armIs_self n hmarks).advanceTo (s.tickAt (s.sec.ae n).selectAt)
    refine ⟨_, exec_selectStart false hon hcomp hstop hsel hfree, ?_⟩
    rw [hstart.selectStage_none hno]
    obtain ⟨t, hbegun⟩ := hstart.selectBegun
    have hstarted := (s.ae n).selecting_selStarted t
    rw [(hbegun.selectNone false).engine]
    exact ⟨hstarted, rfl, rfl, State.bitOf_selectNone _ n false⟩
  · have hae := s.ae_advanceTo (s.tickAt (s.sec.ae n).placeAt)
    obtain ⟨hcells, hper⟩ := State.setCells_congr (n := n) (s.advanceTo_course (s.tickAt (s.sec.ae n).placeAt))
      (s.elapse_drf _) (by rw [hae])
    obtain ⟨hout, hstopped, hregs, hports, hflt, hothers⟩ := State.placeStage_spec ((congrArg Ae.sel (hae n)).trans hsel)
    rw [hcells, hper] at hout
    exact ⟨_, exec_placeStart false hon hcomp hstop hfree hsel, hout, hstopped, hregs.trans (s.elapse_regs _),
      hports.trans (s.elapse_ports _), hflt.trans (s.elapse_flt _), fun m hm => (hothers m hm).trans (hae m)⟩

end Sys2Proof.Frames
end

section
/-! The set of a Draft at its boundary (R30, R343, R557): the sections that take effect after the schedule leave the course of
the periods as the schedule has set it. -/

namespace Sys2Proof.Machine

open Sys2Proof.Safety

@[simp] theorem State.setLe_course (s : State) (n : Nat) (x : Le) : (s.setLe n x).course = s.course := rfl

@[simp] theorem State.profLimit_course (s : State) (e : Nat) (c : Cue) (l : Nat) : (s.profLimit e c l).course = s.course := by
  simp [State.profLimit]

@[simp] theorem State.profLimits_course (s : State) : s.profLimits.course = s.course := by
  refine State.course_foldl _ _ (fun t e => State.course_foldl _ _ (fun u c => ?_) t) s
  split
  · exact State.course_foldl _ _ (fun w l => w.profLimit_course e c l) u
  · rfl

/-! ## What each section leaves of the course -/

@[simp] theorem State.loadCues_course (s : State) : s.loadCues.course = s.course := by
  unfold State.loadCues
  split
  · exact State.course_foldl _ _ (fun t e => t.setLe_course e _) s
  · rfl

@[simp] theorem State.applyLe_course (s : State) (t : ParTables) : (s.applyLe t).course = s.course :=
  State.course_foldl _ _ (fun u e => u.setLe_course e _) s

@[simp] theorem State.applyIsland_course (s : State) (t : ParTables) (p : Nat) (commit par samePer : Bool) :
    (s.applyIsland t p commit par samePer).course = s.course := by
  unfold State.applyIsland
  extract_lets eddy mem isl0 s1 s2 s3 s4
  have hs2 : s2.course = s1.course := by
    unfold s2
    refine State.course_foldl _ _ (fun u q => ?_) s1
    exact u.wr_course q.2 _
  have hs4 : s4.course = s3.course := by
    unfold s4
    refine State.course_foldl _ _ (fun u q => ?_) s3
    exact u.wrPair_course (Reg.LE_MCORR q.1) q.2
  have hs : s4.course = s.course := by rw [hs4, State.setField_course, hs2, State.course_mk, State.course_fold]
  split
  · rw [State.profLimits_course, hs]
  · exact hs

@[simp] theorem State.applyAe_course (s : State) (n : Nat) (t : ParTables) : (s.applyAe n t).course = s.course := by
  unfold State.applyAe
  split <;> rfl

@[simp] theorem State.commitEngines_course (s : State) (par topo samePer : Bool) :
    (s.commitEngines par topo samePer).course = s.course := by
  simp [State.commitEngines, State.course_foldl _ _ (fun u n => State.applyAe_course u n _)]

@[simp] theorem State.applyFlt_course (s : State) (t : FltTable) (first : Bool) : (s.applyFlt t first).course = s.course := by
  unfold State.applyFlt
  extract_lets s1 word s2 s3 sys0 cfg0 flt0 s4
  have hs1 : s1.course = s.course := State.course_foldl _ _ (fun u n => u.reclass_course n _) s
  have hs2 : s2.course = s1.course := State.course_foldl _ _ (fun u m => u.wr_course _ _) s1
  have hs3 : s3.course = s2.course := by
    unfold s3
    split
    · exact State.course_foldl _ _ (fun u m => u.wr_course _ _) s2
    · rfl
  calc (State.settle s s4 s.now).course = s4.course := State.settle_course _ _ _
    _ = s3.course := rfl
    _ = s.course := hs3.trans (hs2.trans hs1)

@[simp] theorem State.recWrite_course (s : State) (e : Nat × Word) : (s.recWrite e).course = s.course := by
  unfold State.recWrite
  split
  · split <;> rfl
  · rfl

@[simp] theorem State.applyRecs_course (s : State) (l : List (Nat × Word)) : (s.applyRecs l).course = s.course :=
  State.course_foldl _ _ State.recWrite_course s

@[simp] theorem State.applyDev_course (s : State) (d : DevPar) : (s.applyDev d).course = s.course := rfl

@[simp] theorem State.applyNet_course (s : State) (n : NetSetup) : (s.applyNet n).course = s.course := by
  unfold State.applyNet
  extract_lets s1 s2
  split <;> rfl

@[simp] theorem State.launchAgain_course (s : State) (was : Bool) : (s.launchAgain was).course = s.course := by
  unfold State.launchAgain
  split <;> rfl

@[simp] theorem State.commitEnergy_course (s : State) (old : Cfg) : (s.commitEnergy old).course = s.course := by
  refine State.course_foldl _ _ (fun t n => ?_) s
  dsimp only
  split <;> rfl

@[simp] theorem State.gstMark_course (s : State) (sched p : Bool) : (s.gstMark sched p).course = s.course := rfl

@[simp] theorem State.gstCfgStop_course (s : State) : s.gstCfgStop.course = s.course := by
  unfold State.gstCfgStop
  split
  · extract_lets g s1
    split <;> rfl
  · rfl

/-! ## The schedule section of a set -/

/-- A schedule section takes effect with its P (R30, R343). -/
theorem State.commitSch_spec (s : State) (c : SchSection) :
    (s.commitSch c).sch.cur = some c ∧ (s.commitSch c).tb.period = c.p := by
  have hcur : (s.applySch c).sch.cur = some c := congrArg Prod.snd (State.loadCues_course _)
  exact ⟨hcur, rfl⟩

/-- Nothing that takes effect after the schedule section of a set takes that section or its P back (R343, R557). -/
theorem State.commitSet_schedule (s : State) {c : Sections} {x : SchSection} (h : c.sch = some x) :
    (s.commitSet c).sch.cur = some x ∧ (s.commitSet c).tb.period = x.p := by
  have hcourse : ∃ u : State, (s.commitSet c).course = (u.commitSch x).course := by
    unfold State.commitSet
    extract_lets old p0 arms0 s1 s2 sys0 cfg0 s3 same s4 s5 s6 s7 s8 s9
    have hs2 : s2 = s1.commitSch x := by simp only [s2, h]
    have hs3 : s3.course = s2.course := by unfold s3; split <;> rfl
    have hs4 : s4.course = s3.course := by simp [s4]
    have hs5 : s5.course = s4.course := by unfold s5; split <;> simp
    have hs6 : s6.course = s5.course := by unfold s6; split <;> simp
    have hs7 : s7.course = s6.course := by unfold s7; split <;> simp
    have hs8 : s8.course = s7.course := by unfold s8; split <;> simp
    have hs9 : s9.course = s8.course := by simp [s9]
    refine ⟨s1, ?_⟩
    rw [← hs2, ← hs3, ← hs4, ← hs5, ← hs6, ← hs7, ← hs8, ← hs9]
    simp
  obtain ⟨u, hu⟩ := hcourse
  obtain ⟨hcur, hper⟩ := u.commitSch_spec x
  obtain ⟨-, -, -, -, -, hperiod⟩ := State.tb_of_course hu
  exact ⟨(congrArg Prod.snd hu).trans hcur, hperiod.trans hper⟩

end Sys2Proof.Machine
end

section
/-! The Draft from OPEN to the boundary (R551 to R559, R581): what each action makes of it, then what CHECK_DONE and the
boundary named do. -/

namespace Sys2Proof.Machine

open Sys2Proof.Safety

/-! ## An action through DRF_CMD -/

/-- The pair of DRF_CMD, which an action writes first, is neither the source of a LOAD nor the period that a COMMIT names. -/
theorem State.rd_wrPair_drfCmd (s : State) (v : Word) {b : Nat}
    (h : b ∈ [Reg.DRF_SRC_LO, Reg.DRF_SRC_HI, Reg.DRF_COMMIT_PC]) : (s.wrPair Reg.DRF_CMD v).rd b = s.rd b := by
  have hother : b ≠ Reg.DRF_CMD ∧ b ≠ Reg.DRF_CMD + 4 := by
    simp only [List.mem_cons, List.not_mem_nil, or_false] at h
    rcases h with rfl | rfl | rfl <;> decide
  exact s.rd_wrPair_other _ v hother.1 hother.2

theorem State.draftSource_wrPair_drfCmd (s : State) (v : Word) : (s.wrPair Reg.DRF_CMD v).draftSource = s.draftSource := by
  have hlo := s.rd_wrPair_drfCmd v (b := Reg.DRF_SRC_LO) (by simp)
  have hhi := s.rd_wrPair_drfCmd v (b := Reg.DRF_SRC_HI) (by simp)
  rw [State.draftSource, State.rdNat, State.field, hlo, hhi, State.wrPair_ram]
  rfl

/-- An action whose other effect is on the Draft alone changes no other register (R11, R581). -/
theorem State.wrPair_drfCmd_regsBut (s : State) (v : Word) (d : Drf) :
    regsBut s { s.wrPair Reg.DRF_CMD v with drf := d } [Reg.DRF_CMD, Reg.DRF_CMD + 4] := by
  intro b hb
  simp only [List.mem_cons, List.not_mem_nil, or_false, not_or] at hb
  exact s.rd_wrPair_other _ v hb.1 hb.2

/-- An action through the powered window, from stage 3 on: its pair is written, then the action is taken (R550, R581). -/
theorem exec_draftActions {s : State} (hopen : s.open .drf = true) (hnow : s.draftOpenNow = true) :
    exec .draftOpen s = .next (s.wrPair Reg.DRF_CMD (putField 1 28)).drfOpen ∧
    exec .load s = .next (s.wrPair Reg.DRF_CMD (putField 2 28)).drfLoad ∧
    exec .check s = .next (s.wrPair Reg.DRF_CMD (putField 3 28)).drfCheck ∧
    exec .commit s = .next (s.wrPair Reg.DRF_CMD (putField 4 28)).drfCommit ∧
    exec .abort s = .next (s.wrPair Reg.DRF_CMD (putField 5 28)).drfAbort := by
  have hvia (a : Nat) : (s.via .drf fun t => t.drfPair a) =
      .next ((s.wrPair Reg.DRF_CMD (putField a 28)).drfCmd (putField a 28)) := by
    rw [State.via_of_open s _ hopen, State.drfPair]
  have havail (v : Word) : (s.wrPair Reg.DRF_CMD v).draftOpenNow = true := hnow
  refine ⟨(hvia 1).trans ?_, (hvia 2).trans ?_, (hvia 3).trans ?_, (hvia 4).trans ?_, (hvia 5).trans ?_⟩
  all_goals
    rw [State.drfCmd, if_neg (by simp [havail])]
    rfl

/-! ## What each action makes of the Draft (R551, R552, R556, R559) -/

section
variable (s : State)

section
variable (hpend : s.drf.st ≠ .pending) (hchk : s.drf.st ≠ .checking)
include hpend hchk

theorem State.drfOpen_empties : s.drfOpen = s.draftEmpty := if_neg (by simp [hpend, hchk])

theorem State.drfLoad_marked (hm : s.drf.marked = true) :
    s.drfLoad = { s with drf := { s.drf with marked := false } }.setBit Reg.DRF_EVT 1 := by
  rw [State.drfLoad, if_neg (by simp [hpend, hchk]), if_pos hm]

theorem State.drfLoad_stages (hm : s.drf.marked = false) {x : List Byte} (hx : s.draftSource = x) {t : Nat}
    (ht : bytesAt x 0 2 = t) (hne : x ≠ []) (htype : draftType t = true) (hok : sectionOk x t = true)
    (hfits : x.length + s.drf.bytesBut t ≤ 0x400000) :
    s.drfLoad = { s with drf := { s.drf with
      st := .staging, staged := Sparse.put (fun _ => none) s.drf.staged t (some (x.drop 16)) } }.setBit Reg.DRF_EVT 0 := by
  subst hx ht
  rw [State.drfLoad, if_neg (by simp [hpend, hchk]), if_neg (by simp [hm])]
  exact if_pos (by simp [hne, htype, hok, hfits])

theorem State.drfLoad_nothing (hm : s.drf.marked = false) (hx : s.draftSource = []) :
    s.drfLoad = s.setBit Reg.DRF_EVT 1 := by
  rw [State.drfLoad, if_neg (by simp [hpend, hchk]), if_neg (by simp [hm])]
  exact if_neg (by simp [hx])

theorem State.drfAbort_empties : s.drfAbort = s.draftEmpty := by
  unfold State.drfAbort
  split
  · next h => exact absurd h hpend
  · next h => exact absurd h hchk
  · rfl

end

theorem State.drfCheck_begins (h : s.drf.st = .staging) : s.drfCheck = { s with drf := { s.drf with st := .checking } } :=
  if_pos h

theorem State.drfCommit_pends (h : s.drf.st = .checked) {pc : BitVec 32} (hpc : s.rd Reg.DRF_COMMIT_PC = pc)
    (hsoon : 16 ≤ timeDiff pc s.tb.pc) (hfar : timeDiff pc s.tb.pc ≤ 2 ^ 24) (hhand : s.inHandover pc = false) :
    s.drfCommit = { s with drf := { s.drf with st := .pending, pendAt := some pc } } := by
  subst hpc
  simp only [State.drfCommit]
  rw [if_neg (by simp [h]), if_neg (by omega), if_neg (by omega), if_neg (by simp [hhand])]

theorem State.drfCommit_tooSoon (h : s.drf.st = .checked) (hsoon : timeDiff (s.rd Reg.DRF_COMMIT_PC) s.tb.pc < 16) :
    s.drfCommit = (s.draftRes 0x30 0).draftRefuse := by
  simp only [State.drfCommit]
  rw [if_neg (by simp [h]), if_pos hsoon]

theorem State.drfAbort_withdraws {p : BitVec 32} (h : s.drf.st = .pending) (hat : s.drf.pendAt = some p)
    (hleft : 2 ≤ timeDiff p s.tb.pc) : s.drfAbort = { s with drf := { s.drf with st := .checked, pendAt := none } } := by
  simp only [State.drfAbort, h, hat]
  exact if_pos hleft

end

/-- A section staged stands under its type, and the others stay (R552, R553). -/
theorem Drf.body_put (d : Drf) (st : DrfSt) (t k : Nat) (b : List Byte) :
    { d with st := st, staged := Sparse.put (fun _ => none) d.staged t (some b) }.body k =
      if k = t then some b else d.body k := by
  rw [Drf.body, Sparse.get_put, Drf.body]

/-- The bit that an action sets reads as set. -/
theorem State.bitOf_setBit_same (s : State) (a : Nat) {i : Nat} (hi : i < 32) : (s.setBit a i).bitOf a i = true := by
  simp [State.bitOf_setBit _ _ _ _ hi]

/-- A COMMIT refused shows its code and leaves the Draft (R556). -/
theorem State.draftRefused_spec (s : State) (c t : Nat) : (s.draftRes c t).draftRefuse.drf = s.drf ∧
    (s.draftRes c t).draftRefuse.rd Reg.DRF_RES = BitVec.ofNat 32 (t * 256 + c) ∧
    (s.draftRes c t).draftRefuse.bitOf Reg.DRF_EVT 6 = true := by
  refine ⟨rfl, ?_, State.bitOf_setBit_same _ _ (by decide)⟩
  rw [State.draftRefuse, State.rd_setBit_other _ _ _ _ (by decide), State.draftRes, State.rd_wr_same]

/-! ## CHECK_DONE (R553, R555) -/

/-- What CHECK finds in a schedule shows in registers alone (R339, R367). -/
theorem State.draftLoadRes_rest (s : State) (e : Option DrfErr) :
    { s.draftLoadRes e with regs := s.regs, setAt := s.setAt } = s := by
  unfold State.draftLoadRes
  split
  · rfl
  · cases e with
    | none => rfl
    | some x => dsimp only; split_ifs <;> rfl

@[simp] theorem State.draftLoadRes_drf (s : State) (e : Option DrfErr) : (s.draftLoadRes e).drf = s.drf :=
  (congrArg State.drf (s.draftLoadRes_rest e) :)
@[simp] theorem State.draftLoadRes_sch (s : State) (e : Option DrfErr) : (s.draftLoadRes e).sch = s.sch :=
  (congrArg State.sch (s.draftLoadRes_rest e) :)
@[simp] theorem State.draftLoadRes_sys (s : State) (e : Option DrfErr) : (s.draftLoadRes e).sys = s.sys :=
  (congrArg State.sys (s.draftLoadRes_rest e) :)

/-- The Draft as a CHECK that passes leaves it: the sections staged are the set, with the CRC fields it brings (R551, R555). -/
def State.draftPassed (s : State) : State :=
  { s with drf := { s.drf with st := .checked, set := s.drf.sections, nextCrcs := s.mergedCrcs } }

theorem State.draftPassed_spec (s : State) :
    s.draftPassed.drf.st = .checked ∧ s.draftPassed.sch = s.sch ∧ s.draftPassed.sys = s.sys := ⟨rfl, rfl, rfl⟩

theorem exec_checkDone_passes {s : State} (hst : s.drf.st = .checking) (hv : s.draftVerdict = none) : exec .checkDone s =
    .next ((((s.draftLoadRes none).draftPassed.wr Reg.DRF_SET_ID (setId (s.draftLoadRes none).mergedCrcs)).wr
      Reg.DRF_RES 0).setBit Reg.DRF_EVT 2) := by
  change execCheckDone s = _
  rw [execCheckDone, if_neg (by simp [hst]), hv, State.draftPassed]

/-- A set that fails goes back to STAGING, and its first failure shows and counts (R553). -/
theorem exec_checkDone_fails {s : State} (hst : s.drf.st = .checking) {e : DrfErr} (hv : s.draftVerdict = some e) :
    exec .checkDone s = .next (((({ s.draftLoadRes (some e) with
      drf := { (s.draftLoadRes (some e)).drf with st := .staging } }).wr Reg.DRF_RES
        (BitVec.ofNat 32 (e.idx % 65536 * 65536 + e.tab * 4096 + e.typ * 256 + e.code))).addField Reg.DRF_CNT 0 16 1).setBit
          Reg.DRF_EVT 3) := by
  change execCheckDone s = _
  rw [execCheckDone, if_neg (by simp [hst]), hv]

/-! ## DRAFT_COMMIT_BOUNDARY (R343, R551, R555, R557) -/

/-- The Draft once its set has been taken: empty, with the CRC fields of the set in effect (R551, R555). -/
def State.draftTaken (s : State) (crcs : List (BitVec 32)) : State :=
  { s.draftEmpty with drf := { s.draftEmpty.drf with crcs := crcs } }

theorem State.draftTaken_spec (s : State) (crcs : List (BitVec 32)) :
    (s.draftTaken crcs).drf.st = .empty ∧ (s.draftTaken crcs).drf.staged = [] ∧ (s.draftTaken crcs).drf.crcs = crcs ∧
      (s.draftTaken crcs).sch = s.sch ∧ (s.draftTaken crcs).tb = s.tb := ⟨rfl, rfl, rfl, rfl, rfl⟩

theorem exec_draftCommitBoundary {s : State} (hst : s.drf.st = .pending) (hat : s.drf.pendAt = some s.tb.pc)
    (hnow : s.now = s.tb.bound) : exec .draftCommitBoundary s =
      .next (((((s.commitSet s.drf.set).draftTaken s.drf.nextCrcs).wr Reg.DRF_SET_ID_EFF (setId s.drf.nextCrcs)).addField
        Reg.DRF_CNT 16 16 1).setBit Reg.DRF_EVT 4) := by
  change execDraftCommitBoundary s = _
  rw [execDraftCommitBoundary, if_neg (by simp [hst, hat, hnow]), State.draftTaken]

end Sys2Proof.Machine

namespace Sys2Proof.Schedule

open Sys2Proof.Machine Sys2Proof.Safety

/-- Settles O48: by what each action makes of the Draft, by the verdict of CHECK, and by what the set's sections leave of the
course of the periods. -/
theorem draftGoesFromOpenToEffect : Obligations.DraftGoesFromOpenToEffect := by
  refine ⟨fun s hopen hnow => ?_, fun s hst => ⟨fun hv => ?_, fun e hv => ?_⟩, fun s hst hat hbound => ?_⟩
  · obtain ⟨hdrfOpen, hload, hcheck, hcommit, habort⟩ := exec_draftActions hopen hnow
    refine ⟨fun hpend hchk => ⟨?_, fun hm => ?_, fun hm hne htype hok hfits => ?_, fun hm hx => ?_, ?_⟩, fun hst => ?_,
      fun hst => ⟨fun hsoon hfar hhand => ?_, fun hsoon => ?_⟩, fun p hst hat hleft => ?_⟩
    · rw [(s.wrPair _ _).drfOpen_empties hpend hchk] at hdrfOpen
      exact ⟨_, hdrfOpen, rfl, s.wrPair_drfCmd_regsBut _ _, rfl⟩
    · rw [(s.wrPair _ _).drfLoad_marked hpend hchk hm] at hload
      exact ⟨_, hload, rfl, State.bitOf_setBit_same _ _ (by decide)⟩
    · rw [(s.wrPair _ _).drfLoad_stages hpend hchk hm (s.draftSource_wrPair_drfCmd _) rfl hne htype hok hfits] at hload
      exact ⟨_, hload, rfl, (Drf.body_put _ _ _ _ _).trans (if_pos rfl),
        fun k hk => (Drf.body_put _ _ _ _ _).trans (if_neg hk), State.bitOf_setBit_same _ _ (by decide), rfl⟩
    · rw [(s.wrPair _ _).drfLoad_nothing hpend hchk hm ((s.draftSource_wrPair_drfCmd _).trans hx)] at hload
      exact ⟨_, hload, rfl, State.bitOf_setBit_same _ _ (by decide)⟩
    · rw [(s.wrPair _ _).drfAbort_empties hpend hchk] at habort
      exact ⟨_, habort, rfl, rfl, rfl⟩
    · rw [(s.wrPair _ _).drfCheck_begins hst] at hcheck
      exact ⟨_, hcheck, rfl, s.wrPair_drfCmd_regsBut _ _⟩
    · rw [(s.wrPair _ _).drfCommit_pends hst (s.rd_wrPair_drfCmd _ (by simp)) hsoon hfar hhand] at hcommit
      exact ⟨_, hcommit, rfl, s.wrPair_drfCmd_regsBut _ _⟩
    · rw [(s.wrPair _ _).drfCommit_tooSoon hst (by rwa [s.rd_wrPair_drfCmd _ (by simp)])] at hcommit
      exact ⟨_, hcommit, State.draftRefused_spec _ _ _⟩
    · rw [(s.wrPair _ _).drfAbort_withdraws hst hat hleft] at habort
      exact ⟨_, habort, rfl⟩
  · obtain ⟨hchecked, hsch, hsys⟩ := (s.draftLoadRes none).draftPassed_spec
    refine ⟨_, exec_checkDone_passes hst hv, hchecked, ?_, State.bitOf_setBit_same _ _ (by decide),
      hsch.trans (s.draftLoadRes_sch none), hsys.trans (s.draftLoadRes_sys none)⟩
    rw [State.rd_setBit_other _ _ _ _ (by decide), State.rd_wr_same]
  · refine ⟨_, exec_checkDone_fails hst hv, by simp, State.bitOf_setBit_same _ _ (by decide), ?_⟩
    rw [State.rd_setBit_other _ _ _ _ (by decide), State.rd_addField_other _ _ _ _ _ _ (by decide), State.rd_wr_same]
  · obtain ⟨hempty, hstaged, hcrcs, hsch, htb⟩ := (s.commitSet s.drf.set).draftTaken_spec s.drf.nextCrcs
    refine ⟨_, exec_draftCommitBoundary hst hat hbound, hempty, hstaged, hcrcs, ?_, State.bitOf_setBit_same _ _ (by decide),
      fun c hc => ?_⟩
    · rw [State.rd_setBit_other _ _ _ _ (by decide), State.rd_addField_other _ _ _ _ _ _ (by decide), State.rd_wr_same]
    · obtain ⟨hcur, hper⟩ := s.commitSet_schedule hc
      exact ⟨(congrArg Sch.cur hsch).trans hcur, (congrArg Tb.period htb).trans hper⟩

end Sys2Proof.Schedule
end

section
/-! The collector's own part (R371 to R418): the reaction that its sources form, what the units that react leave of it, and what
the reaction formed anew does to it. -/

namespace Sys2Proof.Machine

open Sys2Proof.Safety

/-! ## The reaction as the highest class in a fault state (R394) -/

/-- The class that a source adds to the reaction: none outside its fault state (R394). -/
def Src.level (x : Src) (n : Nat) : Nat := if x.inFault then x.cls n else 0

theorem Sparse.mem_drop_iff {α : Type} (t : Sparse α) (k : Nat) (e : Nat × α) :
    e ∈ Sparse.drop t k ↔ e ∈ t ∧ e.1 ≠ k := by
  induction t with
  | nil => simp [Sparse.drop]
  | cons x r ih =>
    by_cases hx : x.1 = k
    · simp only [Sparse.drop, if_pos hx, ih, List.mem_cons]
      exact ⟨fun ⟨he, hk⟩ => ⟨.inr he, hk⟩, fun ⟨he, hk⟩ => ⟨he.resolve_left fun hex => hk (hex ▸ hx), hk⟩⟩
    · simp only [Sparse.drop, if_neg hx, ih, List.mem_cons, or_and_right]
      exact or_congr_left ⟨fun hex => ⟨hex, hex ▸ hx⟩, And.left⟩

theorem Sparse.mem_place_iff {α : Type} (t : Sparse α) (k : Nat) (v : α) (e : Nat × α) :
    e ∈ Sparse.place t k v ↔ e = (k, v) ∨ e ∈ t := by
  induction t with
  | nil => simp [Sparse.place]
  | cons x r ih =>
    rw [Sparse.place]
    split
    · simp only [List.mem_cons, ih]
      tauto
    · simp only [List.mem_cons]

/-- A write lists the value where it is not the default, and drops nothing but the key's own entries. -/
theorem Sparse.mem_put {α : Type} [DecidableEq α] (d : Nat → α) (t : Sparse α) (k : Nat) (v : α) (e : Nat × α) :
    e ∈ Sparse.put d t k v ↔ (v ≠ d k ∧ e = (k, v)) ∨ (e ∈ t ∧ e.1 ≠ k) := by
  unfold Sparse.put
  split
  · next h => simp [Sparse.mem_drop_iff, h]
  · next h => simp [Sparse.mem_place_iff, Sparse.mem_drop_iff, h]

theorem Flt.reaction_le_iff (f : Flt) (r : Nat) : f.reaction ≤ r ↔ ∀ e ∈ f.srcs, e.2.level e.1 ≤ r := by
  have hfold : ∀ (l : List (Nat × Src)) (m : Nat),
      l.foldl (fun m e => if e.2.inFault then max m (e.2.cls e.1) else m) m ≤ r ↔ m ≤ r ∧ ∀ e ∈ l, e.2.level e.1 ≤ r := by
    intro l
    induction l with
    | nil => simp
    | cons e l ih =>
      intro m
      rw [List.foldl_cons, ih, List.forall_mem_cons, Src.level]
      split <;> simp [and_assoc]
  exact (hfold f.srcs 0).trans (by simp)

/-- The reaction with a source replaced: the class it adds, and those of the other sources. -/
theorem State.reaction_setSrc_le (s : State) (n : Nat) (x : Src) (r : Nat) :
    (s.setSrc n x).reaction ≤ r ↔ x.level n ≤ r ∧ ∀ e ∈ s.flt.srcs, e.1 ≠ n → e.2.level e.1 ≤ r := by
  have hquiet : ∀ x : Src, x = {} → x.level n ≤ r := by
    rintro x rfl
    exact Nat.zero_le r
  rw [State.reaction, Flt.reaction_le_iff]
  simp only [State.setSrc, Sparse.mem_put]
  refine ⟨fun h => ⟨?_, fun e he hn => h e (.inr ⟨he, hn⟩)⟩, fun ⟨hx, hrest⟩ e he => ?_⟩
  · by_cases hx : x = {}
    · exact hquiet x hx
    · exact h (n, x) (.inl ⟨hx, rfl⟩)
  · rcases he with ⟨-, rfl⟩ | ⟨he, hn⟩
    · exact hx
    · exact hrest e he hn

theorem State.level_le_reaction_setSrc (s : State) (n : Nat) (x : Src) : x.level n ≤ (s.setSrc n x).reaction :=
  ((s.reaction_setSrc_le n x _).mp le_rfl).1

theorem State.reaction_congr {s t : State} (h : t.flt.srcs = s.flt.srcs) : t.reaction = s.reaction := by
  rw [State.reaction, State.reaction, Flt.reaction, Flt.reaction, h]

/-- A source written over by one that adds the same class leaves the reaction. -/
theorem State.reaction_setSrc_setSrc (s : State) {n : Nat} {x y : Src} (h : y.level n = x.level n) :
    ((s.setSrc n x).setSrc n y).reaction = (s.setSrc n x).reaction := by
  refine eq_of_forall_ge_iff fun r => ?_
  rw [State.reaction_setSrc_le, State.reaction_setSrc_le, h]
  simp only [State.setSrc, Sparse.mem_put]
  refine and_congr_right fun _ => forall_congr' fun e => ⟨fun hall he hn => hall (.inr ⟨he, hn⟩) hn, fun hall he hn => ?_⟩
  rcases he with ⟨-, rfl⟩ | ⟨he, -⟩
  · exact absurd rfl hn
  · exact hall he hn

theorem State.src_congr {s t : State} (h : t.flt.srcs = s.flt.srcs) (n : Nat) : t.src n = s.src n := by
  rw [State.src, State.src, h]

/-! ## The view of the collector: its typed state and the registers of its window (R418, R857) -/

/-- Is an address that of a register of the collector's window? -/
def fltReg (a : Nat) : Bool := decide (0x20040000 ≤ a ∧ a < 0x20050000)

/-- The registers of the collector's window. -/
def fltRegs (r : Sparse Word) (a : Nat) : Word := if fltReg a then Sparse.get Reg.resetAt r a else 0

def State.collector (s : State) : Flt × (Nat → Word) := (s.flt, fltRegs s.regs)

theorem State.flt_of_collector {s t : State} (h : t.collector = s.collector) : t.flt = s.flt := congrArg Prod.fst h

theorem State.rd_of_collector {s t : State} (h : t.collector = s.collector) {a : Nat} (ha : fltReg a = true) :
    t.rd a = s.rd a := by
  have hregs : fltRegs t.regs a = fltRegs s.regs a := congrArg (fun v : Flt × (Nat → Word) => v.2 a) h
  rwa [fltRegs, fltRegs, if_pos ha, if_pos ha] at hregs

/-- What stands beside the collector may change. -/
theorem State.collector_with (s : State) (setAt sys isl gst adc pwm saf key free) :
    State.collector { s with setAt := setAt, sys := sys, isl := isl, gst := gst, adc := adc, pwm := pwm, saf := saf, key := key,
                             free := free } = s.collector := rfl

@[simp] theorem State.collector_ite (c : Prop) [Decidable c] (s t : State) :
    (if c then s else t).collector = if c then s.collector else t.collector := apply_ite State.collector c s t

theorem State.collector_foldl {α : Type} (l : List α) (f : State → α → State)
    (h : ∀ t, ∀ a ∈ l, (f t a).collector = t.collector) (s : State) : (l.foldl f s).collector = s.collector := by
  induction l generalizing s with
  | nil => rfl
  | cons a r ih => rw [List.foldl_cons, ih (fun t b hb => h t b (List.mem_cons_of_mem a hb)), h s a List.mem_cons_self]

@[simp] theorem fltReg_reaction : fltReg Reg.LE_INJ_CTL = false ∧ fltReg Reg.ADC_EVT = false ∧ fltReg Reg.PWM_EVT = false := by
  decide

theorem fltReg_pwm {n : Nat} (h : n < 16) : fltReg (Reg.PWM_PER n) = false ∧ fltReg (Reg.PWM_T n) = false := by
  unfold Reg.PWM_PER Reg.PWM_T
  exact ⟨decide_eq_false (by omega), decide_eq_false (by omega)⟩

section
variable (s : State) {a : Nat} (h : fltReg a = false)
include h

@[simp] theorem State.wr_collector (v : Word) : (s.wr a v).collector = s.collector := by
  refine Prod.ext rfl (funext fun b => ?_)
  by_cases hb : b = a
  · simp [State.collector, fltRegs, hb, h]
  · simp [State.collector, fltRegs, State.wr, Sparse.get_put_other _ _ _ _ _ hb]

@[simp] theorem State.setBit_collector (i : Nat) : (s.setBit a i).collector = s.collector := s.wr_collector h _
@[simp] theorem State.clrBit_collector (i : Nat) : (s.clrBit a i).collector = s.collector := s.wr_collector h _
@[simp] theorem State.setBitIf_collector (c : Bool) (i : Nat) : (s.setBitIf c a i).collector = s.collector := by
  simp [State.setBitIf, h]

end

/-! ## The units that react (R310, R398, R399, R435, R757, R796, R798) -/

@[simp] theorem State.lifeUp_collector (s : State) (i : Nat) : (s.lifeUp i).collector = s.collector := rfl
@[simp] theorem State.setPwmCh_collector (s : State) (n : Nat) (x : PwmCh) : (s.setPwmCh n x).collector = s.collector := rfl

@[simp] theorem State.adcTrigger_collector (s : State) (t : BitVec 64) : (s.adcTrigger t).collector = s.collector := by
  have hinject : ∀ (u : State) (m : Nat) (t : BitVec 64), (u.adcInject m t).collector = u.collector := fun u m t => by
    unfold State.adcInject
    split <;> rfl
  unfold State.adcTrigger
  split
  · exact s.setBit_collector (by decide) _
  · exact State.collector_foldl _ _ (fun u m _ => hinject u m _) _

@[simp] theorem State.eventHook_collector (s : State) (n : Nat) (t : BitVec 64) : (s.eventHook n t).collector = s.collector := by
  simp [State.eventHook, State.adcEvent, State.collector_with]

@[simp] theorem State.blockBegins_collector (s : State) : s.blockBegins.collector = s.collector := by
  simp [State.blockBegins, State.injAbort, State.collector_with]

@[simp] theorem State.pmCause_collector (s : State) (c : Nat) : (s.pmCause c).collector = s.collector := by
  unfold State.pmCause
  split <;> rfl

theorem State.pwmCycle_collector (s : State) {n : Nat} (t : BitVec 64) (h : n < 16) :
    (s.pwmCycle n t).collector = s.collector := by
  have htake : (s.pwmTake n).collector = s.collector := by
    unfold State.pwmTake
    split <;> simp [fltReg_pwm h]
  simp [State.pwmCycle, htake]

@[simp] theorem State.tripOn_collector (s : State) : s.tripOn.collector = s.collector := by
  unfold State.tripOn State.pwmTrip
  rw [State.collector_foldl _ _ fun t n hn => State.pwmCycle_collector t _ (State.lt_of_mem_choppers hn)]
  simp [State.collector_with]

@[simp] theorem State.tripBegins_collector (s : State) : s.tripBegins.collector = s.collector := by
  simp [State.tripBegins]

@[simp] theorem State.tripEnds_collector (s : State) : s.tripEnds.collector = s.collector := by
  unfold State.tripEnds State.pwmTripEnds
  extract_lets s1
  split
  · exact State.collector_foldl _ _ (fun t n hn => State.pwmCycle_collector t _ (State.lt_of_mem_choppers hn)) _
  · exact State.collector_foldl _ _ (fun t n _ => State.setPwmCh_collector t n _) _

/-! ## The trip request (R398) -/

theorem State.setBitIf_saf (s : State) (c : Bool) (a i : Nat) : (s.setBitIf c a i).saf = s.saf := by
  cases c <;> rfl

theorem State.pwmCycle_saf (s : State) (n : Nat) (t : BitVec 64) : (s.pwmCycle n t).saf = s.saf := by
  have htake : (s.pwmTake n).saf = s.saf := by
    unfold State.pwmTake
    split
    · rfl
    · exact State.setBitIf_saf _ _ _ _
  unfold State.pwmCycle
  extract_lets s1
  have hs1 : s1.saf = s.saf := by
    unfold s1
    split
    · rfl
    · exact htake
  split <;> exact hs1

theorem State.tripBegins_req (s : State) : s.tripBegins.saf.req = true := by
  have hfold : ∀ (l : List Nat) (u : State), (l.foldl (fun t n => t.pwmCycle n t.tb.vt) u).saf = u.saf := by
    intro l
    induction l with
    | nil => exact fun _ => rfl
    | cons n r ih => exact fun u => (ih _).trans (u.pwmCycle_saf n _)
  have hon : s.tripOn.saf.req = true := by
    rw [State.tripOn, State.pwmTrip, hfold, State.setBitIf_saf]
  unfold State.tripBegins State.pmCause
  split <;> exact hon

/-! ## The reaction formed anew (R394 to R399) -/

/-- A reaction that rises to Block or Trip sets the block latch; emits follow from 16 ticks after the event on (R395, R396). -/
def State.blockRise (before s : State) (tick : BitVec 64) : State :=
  if 2 ≤ s.reaction ∧ before.reaction < s.reaction then s.setLatch true (tick + 16) else s

section
variable (b s : State) (t : BitVec 64)

/-- Of the collector, the reaction formed anew changes the latch, and sets bits of FLT_EVT. -/
theorem State.settle_spec : (State.settle b s t).flt = (State.blockRise b s t).flt ∧
    (∀ a, fltReg a = true → a ≠ Reg.FLT_EVT → (State.settle b s t).rd a = s.rd a) ∧
    ∀ i, i < 32 → s.bitOf Reg.FLT_EVT i = true → (State.settle b s t).bitOf Reg.FLT_EVT i = true := by
  unfold State.settle
  extract_lets r0 r1 enters s1 s2 s3
  have hs1 : s1.collector = (State.blockRise b s t).collector := by
    simp [s1, enters, r0, r1, State.blockRise]
  have hs3 : s3.collector = (State.blockRise b s t).collector := by
    simp [s3, s2, hs1]
  have hrise : ∀ a, (State.blockRise b s t).rd a = s.rd a := fun a => by
    unfold State.blockRise
    split <;> rfl
  have hrd : ∀ a, fltReg a = true → s3.rd a = s.rd a := fun a ha => (State.rd_of_collector hs3 ha).trans (hrise a)
  clear_value s3
  generalize (decide (r0 ≠ r1) || (b.flt.latch != s3.flt.latch)) = c
  refine ⟨?_, fun a ha hne => ?_, fun i hi hset => ?_⟩
  · rw [← State.flt_of_collector hs3]
    cases c <;> rfl
  · rw [← hrd a ha]
    cases c
    · rfl
    · exact State.rd_setBit_other _ _ _ _ hne
  · rw [State.bitOf, ← hrd _ (by decide)] at hset
    cases c
    · exact hset
    · exact (State.bitOf_setBit _ _ _ _ hi).trans (by rw [State.bitOf, hset, Bool.true_or])

@[simp] theorem State.settle_srcs : (State.settle b s t).flt.srcs = s.flt.srcs := by
  rw [(State.settle_spec b s t).1, State.blockRise]
  split <;> rfl

@[simp] theorem State.settle_src (n : Nat) : (State.settle b s t).src n = s.src n :=
  State.src_congr (State.settle_srcs b s t) n

@[simp] theorem State.settle_reaction : (State.settle b s t).reaction = s.reaction :=
  State.reaction_congr (State.settle_srcs b s t)

theorem State.settle_req (h3 : s.reaction = 3) (hb : b.reaction ≠ 3) : (State.settle b s t).saf.req = true := by
  unfold State.settle
  extract_lets r0 r1 enters s1 s2 s3
  have hs3 : s3.saf.req = true := by
    rw [show s3 = s1.tripBegins by simp [s3, s2, r0, r1, h3, hb], State.tripBegins_req]
  rwa [State.setBitIf_saf]

end

end Sys2Proof.Machine
end

section
/-! Taking an event (R371 to R386, R403 to R413, log entry 116): what the sources, the event log, the counter and the sticky bits
become, and when the block latch and the trip request follow. One rule for each operation of the collector. -/

namespace Sys2Proof.Machine

open Sys2Proof.Safety

/-! ## What an event of one source alone changes: the other sources, the log, the counter of events, the sticky bits -/

/-- Is an address that of FLT_CNT_EVT or of a sticky register? -/
def countReg (a : Nat) : Bool := decide (a = Reg.FLT_CNT_EVT ∨ (Reg.FLT_STICKY 0 ≤ a ∧ a < Reg.FLT_STICKY 8))

/-- The sources but `n`, the event log, the residue found wrong, and the registers that count events. -/
def State.counts (s : State) (n : Nat) : (Nat → Src) × List (BitVec 56 × BitVec 8) × Bool × (Nat → Word) :=
  (fun m => if m = n then {} else s.src m, s.flt.log, s.flt.selfBad, fun a => if countReg a then s.rd a else 0)

section
variable {s t : State} {n : Nat}

theorem State.counts_eq_iff : t.counts n = s.counts n ↔ (∀ m, m ≠ n → t.src m = s.src m) ∧ t.flt.log = s.flt.log ∧
    t.flt.selfBad = s.flt.selfBad ∧ ∀ a, countReg a = true → t.rd a = s.rd a := by
  simp only [State.counts, Prod.mk.injEq, funext_iff]
  refine and_congr (forall_congr' fun m => ?_) (and_congr_right fun _ => and_congr_right fun _ => forall_congr' fun a => ?_)
  · by_cases hm : m = n <;> simp [hm]
  · by_cases ha : countReg a = true <;> simp [ha]

theorem fltReg_of_countReg {a : Nat} (h : countReg a = true) : fltReg a = true := by
  rw [countReg, decide_eq_true_eq] at h
  refine decide_eq_true ?_
  unfold Reg.FLT_CNT_EVT Reg.FLT_STICKY at h
  omega

theorem State.counts_of_collector (h : t.collector = s.collector) : t.counts n = s.counts n := by
  have hflt := State.flt_of_collector h
  exact State.counts_eq_iff.mpr ⟨fun m _ => State.src_congr (congrArg Flt.srcs hflt) m, congrArg Flt.log hflt,
    congrArg Flt.selfBad hflt, fun a ha => State.rd_of_collector h (fltReg_of_countReg ha)⟩

end

@[simp] theorem State.counts_ite (c : Prop) [Decidable c] (s t : State) (n : Nat) :
    (if c then s else t).counts n = if c then s.counts n else t.counts n := apply_ite (fun u : State => u.counts n) c s t

@[simp] theorem countReg_other : countReg Reg.FLT_EVT = false ∧ countReg Reg.FLT_FIRST = false ∧
    countReg Reg.FLT_FIRST_VT_LO = false ∧ countReg Reg.FLT_FIRST_VT_HI = false ∧ countReg Reg.FLT_CNT_SQUALL = false ∧
    countReg Reg.FLT_CNT_LOCK = false ∧ countReg Reg.FLT_INJ_STAT = false := by decide

section
variable (s : State) (n : Nat)

section
variable {a : Nat} (h : countReg a = false)
include h

@[simp] theorem State.wr_counts (v : Word) : (s.wr a v).counts n = s.counts n := by
  refine State.counts_eq_iff.mpr ⟨fun _ _ => rfl, rfl, rfl, fun b hb => State.rd_wr_other _ _ _ _ ?_⟩
  rintro rfl
  exact absurd hb (by simp [h])

@[simp] theorem State.setBit_counts (i : Nat) : (s.setBit a i).counts n = s.counts n := s.wr_counts n h _
@[simp] theorem State.bump_counts : (s.bump a).counts n = s.counts n := s.wr_counts n h _
@[simp] theorem State.setBitIf_counts (c : Bool) (i : Nat) : (s.setBitIf c a i).counts n = s.counts n := by
  simp [State.setBitIf, h]

end

@[simp] theorem State.setSrc_counts (x : Src) : (s.setSrc n x).counts n = s.counts n :=
  State.counts_eq_iff.mpr ⟨fun _ hm => State.src_setSrc_other _ _ _ _ hm, rfl, rfl, fun _ _ => rfl⟩

@[simp] theorem State.setLatch_src (b : Bool) (t : BitVec 64) : (s.setLatch b t).src n = s.src n := rfl
@[simp] theorem State.setLatch_counts (b : Bool) (t : BitVec 64) : (s.setLatch b t).counts n = s.counts n := rfl
@[simp] theorem State.keyDue_counts : s.keyDue.counts n = s.counts n := rfl
@[simp] theorem State.tripOn_counts : s.tripOn.counts n = s.counts n := State.counts_of_collector s.tripOn_collector
@[simp] theorem State.lockedNow_counts : s.lockedNow.counts n = s.counts n := by simp [State.lockedNow]
@[simp] theorem State.recDue_counts (a b : Nat) : (s.recDue a b).counts n = s.counts n := by simp [State.recDue]
@[simp] theorem State.reclass_counts (e : FltEntry) : (s.reclass n e).counts n = s.counts n := by simp [State.reclass]

@[simp] theorem State.settle_counts (b : State) (t : BitVec 64) : (State.settle b s t).counts n = s.counts n := by
  obtain ⟨hflt, hrd, -⟩ := State.settle_spec b s t
  refine State.counts_eq_iff.mpr ⟨fun m _ => State.settle_src b s t m, ?_, ?_, fun a ha => hrd a (fltReg_of_countReg ha) ?_⟩
  · rw [hflt, State.blockRise]
    split <;> rfl
  · rw [hflt, State.blockRise]
    split <;> rfl
  · rintro rfl
    exact absurd ha (by decide)

@[simp] theorem State.collide_counts : (s.collide n).counts n = s.counts n := by
  rw [State.collide, State.setBit_counts _ _ (by decide), State.wr_counts _ _ (by decide)]
  exact s.setSrc_counts n _

@[simp] theorem State.undo_counts (t : BitVec 64) : (s.undo n t).counts n = s.counts n := by
  unfold State.undo
  extract_lets x
  split <;> simp

@[simp] theorem State.clearAt_counts (t : BitVec 64) : (s.clearAt n t).counts n = s.counts n := by
  simp [State.clearAt]

end

/-! ## The counting of an event (R379, R386, R414) -/

section
variable (s : State) (n : Nat) (t : BitVec 64)

theorem State.noteEvent_flt : (s.noteEvent n t).flt = s.flt.logged n t := by
  have hsticky : ∀ u : State, (u.setSticky n t).flt = u.flt := fun u => by
    unfold State.setSticky
    extract_lets clear s1
    rw [State.setBit_flt]
    unfold s1
    split <;> rfl
  have hirq : ∀ (u : State) (c : Bool) (a i : Nat), (u.setBitIf c a i).flt = u.flt := fun u c a i => by cases c <;> rfl
  rw [State.noteEvent, State.flt_of_collector (State.eventHook_collector _ _ _), hirq, hsticky]
  rfl

theorem ne_of_countReg {a b : Nat} (ha : countReg a = true) (hb : countReg b = false) : a ≠ b := by
  rintro rfl
  simp [ha] at hb

/-- The sticky bit of the source is set and FLT_CNT_EVT goes up; no other register that counts events changes. -/
theorem State.rd_noteEvent {a : Nat} (ha : countReg a = true) : (s.noteEvent n t).rd a =
    if a = Reg.FLT_STICKY (n / 32) then (s.bump Reg.FLT_CNT_EVT).rd a ||| bitIf true (n % 32)
    else (s.bump Reg.FLT_CNT_EVT).rd a := by
  have hfirst : a ≠ Reg.FLT_FIRST ∧ a ≠ Reg.FLT_FIRST_VT_LO ∧ a ≠ Reg.FLT_FIRST_VT_HI :=
    ⟨ne_of_countReg ha (by decide), ne_of_countReg ha (by decide), ne_of_countReg ha (by decide)⟩
  have hsticky : ∀ u : State, (u.setSticky n t).rd a =
      if a = Reg.FLT_STICKY (n / 32) then u.rd a ||| bitIf true (n % 32) else u.rd a := fun u => by
    unfold State.setSticky
    extract_lets clear s1
    have hs1 : s1.rd a = u.rd a := by
      unfold s1
      split
      · rw [State.rd_wr_other _ _ _ _ hfirst.2.2, State.rd_wr_other _ _ _ _ hfirst.2.1, State.rd_wr_other _ _ _ _ hfirst.1]
      · rfl
    split
    · next h => subst h; rw [State.rd_setBit_same, hs1]
    · next h => rw [State.rd_setBit_other _ _ _ _ h, hs1]
  have hirq : ∀ (u : State) (c : Bool) (i : Nat), (u.setBitIf c Reg.FLT_EVT i).rd a = u.rd a := fun u c i => by
    cases c
    · rfl
    · exact State.rd_setBit_other _ _ _ _ (ne_of_countReg ha (by decide))
  rw [State.noteEvent, State.rd_of_collector (State.eventHook_collector _ _ _) (fltReg_of_countReg ha), hirq, hsticky]
  rfl

/-- What an event makes of the view depends on the view alone. -/
theorem State.noteEvent_counts_congr {u : State} (h : u.counts n = s.counts n) :
    (u.noteEvent n t).counts n = (s.noteEvent n t).counts n := by
  obtain ⟨hsrc, hlog, hbad, hrd⟩ := State.counts_eq_iff.mp h
  have hbump : ∀ a, countReg a = true → (u.bump Reg.FLT_CNT_EVT).rd a = (s.bump Reg.FLT_CNT_EVT).rd a := fun a ha => by
    by_cases hcnt : a = Reg.FLT_CNT_EVT
    · subst hcnt
      rw [State.rd_bump_same, State.rd_bump_same, State.rdNat, State.rdNat, hrd _ ha]
    · rw [State.rd_bump_other _ _ _ hcnt, State.rd_bump_other _ _ _ hcnt, hrd a ha]
  refine State.counts_eq_iff.mpr ⟨fun m hm => ?_, ?_, ?_, fun a ha => ?_⟩
  · rw [State.src, State.src, State.noteEvent_flt, State.noteEvent_flt]
    exact hsrc m hm
  · rw [State.noteEvent_flt, State.noteEvent_flt, Flt.logged, Flt.logged, hlog]
  · rw [State.noteEvent_flt, State.noteEvent_flt]
    exact hbad
  · rw [State.rd_noteEvent _ _ _ ha, State.rd_noteEvent _ _ _ ha, hbump a ha]

end

/-- A state that counts an event as a state `s` does has logged, counted and marked it, and left every other source. -/
theorem State.counted_spec {s t : State} {n : Nat} {tick : BitVec 64} (hn : n < 256)
    (h : t.counts n = (s.noteEvent n tick).counts n) :
    (∀ m, m ≠ n → t.src m = s.src m) ∧ t.flt.log = (s.flt.logged n tick).log ∧ t.flt.selfBad = s.flt.selfBad ∧
      t.rdNat Reg.FLT_CNT_EVT = satInc (s.rdNat Reg.FLT_CNT_EVT) 0xFFFFFFFF ∧
      t.bitOf (Reg.FLT_STICKY (n / 32)) (n % 32) = true ∧
      ∀ m, m < 256 → s.bitOf (Reg.FLT_STICKY (m / 32)) (m % 32) = true → t.bitOf (Reg.FLT_STICKY (m / 32)) (m % 32) = true := by
  obtain ⟨hsrc, hlog, hbad, hrd⟩ := State.counts_eq_iff.mp h
  have hflt := s.noteEvent_flt n tick
  have hsticky : ∀ m, m < 256 → countReg (Reg.FLT_STICKY (m / 32)) = true ∧ Reg.FLT_STICKY (m / 32) ≠ Reg.FLT_CNT_EVT :=
    fun m hm => by
      unfold countReg Reg.FLT_STICKY Reg.FLT_CNT_EVT
      exact ⟨decide_eq_true (by omega), by omega⟩
  refine ⟨fun m hm => ?_, by rw [hlog, hflt], by rw [hbad, hflt]; rfl, ?_, ?_, fun m hm hset => ?_⟩
  · rw [hsrc m hm, State.src, hflt]
    rfl
  · rw [State.rdNat, hrd _ (by decide), State.rd_noteEvent _ _ _ (by decide), if_neg (hsticky n hn).2.symm, ← State.rdNat,
      State.rdNat_bump]
  · rw [State.bitOf, hrd _ (hsticky n hn).1, State.rd_noteEvent _ _ _ (hsticky n hn).1, if_pos rfl, BitVec.getLsbD_or,
      getLsbD_bitIf _ _ (Nat.mod_lt _ (by decide))]
    simp
  · have hbump : (s.bump Reg.FLT_CNT_EVT).rd (Reg.FLT_STICKY (m / 32)) = s.rd (Reg.FLT_STICKY (m / 32)) :=
      State.rd_bump_other _ _ _ (hsticky m hm).2
    rw [State.bitOf] at hset
    rw [State.bitOf, hrd _ (hsticky m hm).1, State.rd_noteEvent _ _ _ (hsticky m hm).1, hbump]
    split
    · rw [BitVec.getLsbD_or, hset, Bool.true_or]
    · exact hset

/-! ## An event under the entry in effect (R379 to R386, R394 to R399) -/

section
variable (s : State) (k : Nat) (t : BitVec 64) (inj : Bool)

theorem State.takeEvent_counts : (s.takeEvent k t inj).counts k = (s.noteEvent k t).counts k := by
  simp [State.takeEvent]

/-- The event is counted and the source put in its new state; then the reaction is formed anew, and a class of Block or Trip that
was in effect already holds the latch from this event on too. -/
theorem State.takeEvent_settles : ∃ u : State, u.flt.srcs = (s.setSrc k ((s.src k).afterEvent k t inj)).flt.srcs ∧
    s.takeEvent k t inj = if 2 ≤ ((s.src k).afterEvent k t inj).cls k ∧ (State.settle s u t).reaction ≤ s.reaction
      then (State.settle s u t).setLatch true (t + 16) else State.settle s u t := by
  unfold State.takeEvent
  extract_lets x x' s1 s2 s3 s4
  have hs1 : s1.flt.srcs = (s.setSrc k x').flt.srcs := by
    rw [show s1.flt.srcs = Sparse.put (fun _ => {}) (s.noteEvent k t).flt.srcs k x' from rfl, State.noteEvent_flt]
    rfl
  have hs2 : s2.flt.srcs = s1.flt.srcs := by
    unfold s2
    split <;> rfl
  have hs3 : s3.flt.srcs = s2.flt.srcs := by
    unfold s3
    split <;> rfl
  exact ⟨s3, hs3.trans (hs2.trans hs1), rfl⟩

theorem State.takeEvent_srcs :
    (s.takeEvent k t inj).flt.srcs = (s.setSrc k ((s.src k).afterEvent k t inj)).flt.srcs := by
  obtain ⟨u, hsrcs, hu⟩ := s.takeEvent_settles k t inj
  rw [hu, ← hsrcs, ← State.settle_srcs s u t]
  split <;> rfl

@[simp] theorem State.takeEvent_src : (s.takeEvent k t inj).src k = (s.src k).afterEvent k t inj :=
  (State.src_congr (s.takeEvent_srcs k t inj) k).trans (State.src_setSrc_same s k _)

/-- The latch is set, and emits follow it from 16 ticks after the event on (R395, R396). -/
def State.blockedFrom (s : State) (t : BitVec 64) : Prop := s.flt.latch = true ∧ s.flt.latchLog.head? = some (t + 16, true)

theorem State.setLatch_blockedFrom : (s.setLatch true (t + 16)).blockedFrom t := ⟨rfl, rfl⟩

theorem Src.afterEvent_inFault (x : Src) : (x.afterEvent k t inj).inFault = true := by
  unfold Src.inFault Src.afterEvent
  split <;> simp

/-- Where the reaction rises to Block or Trip, or the class of the source is one of these, the latch is set from the event on;
where it becomes Trip, the trip request is made (R374, R394 to R398). -/
theorem State.takeEvent_reacts :
    (2 ≤ (s.takeEvent k t inj).reaction → s.reaction < (s.takeEvent k t inj).reaction → (s.takeEvent k t inj).blockedFrom t) ∧
    (2 ≤ ((s.takeEvent k t inj).src k).cls k → (s.takeEvent k t inj).blockedFrom t) ∧
    ((s.takeEvent k t inj).reaction = 3 → s.reaction ≠ 3 → (s.takeEvent k t inj).saf.req = true) := by
  have hsrcs := s.takeEvent_srcs k t inj
  obtain ⟨u, husrcs, hu⟩ := s.takeEvent_settles k t inj
  have hreact : (s.takeEvent k t inj).reaction = u.reaction := State.reaction_congr (hsrcs.trans husrcs.symm)
  have hcls : ((s.src k).afterEvent k t inj).cls k ≤ u.reaction := by
    have hlevel := s.level_le_reaction_setSrc k ((s.src k).afterEvent k t inj)
    rwa [Src.level, if_pos (Src.afterEvent_inFault k t inj _), ← State.reaction_congr husrcs] at hlevel
  have hrise : 2 ≤ u.reaction → s.reaction < u.reaction → (State.settle s u t).blockedFrom t := fun h2 hlt => by
    rw [State.blockedFrom, (State.settle_spec s u t).1, State.blockRise, if_pos ⟨h2, hlt⟩]
    exact u.setLatch_blockedFrom t
  rw [hreact, State.takeEvent_src, hu, State.settle_reaction]
  refine ⟨fun h2 hlt => ?_, fun h2 => ?_, fun h3 hne => ?_⟩
  · rw [if_neg (by omega)]
    exact hrise h2 hlt
  · by_cases hle : u.reaction ≤ s.reaction
    · rw [if_pos ⟨h2, hle⟩]
      exact State.setLatch_blockedFrom _ t
    · rw [if_neg (by omega)]
      exact hrise (h2.trans hcls) (by omega)
  · have hreq := State.settle_req s u t h3 hne
    split <;> exact hreq

/-! ## An event under the entry of its own tick (R374, R392) -/

/-- The entry of a source that is in effect at a tick: before the last COMMIT, the one before. -/
def Src.entryAt (x : Src) (t : BitVec 64) : FltEntry :=
  match x.was with
  | some (w, old) => if reached t w then x.entry else old
  | none => x.entry

theorem State.takeUnder_of_reached (h : ∀ w old, (s.src k).was = some (w, old) → reached t w = true) :
    s.takeUnder k t inj = s.takeEvent k t inj := by
  unfold State.takeUnder
  extract_lets x
  split
  · next w old hw => rw [if_pos (h w old hw)]
  · rfl

theorem State.takeUnder_counts : (s.takeUnder k t inj).counts k = (s.noteEvent k t).counts k := by
  have hunder : ∀ x : Src, ((s.setSrc k x).takeEvent k t inj).counts k = (s.noteEvent k t).counts k := fun x =>
    (State.takeEvent_counts _ _ _ _).trans (State.noteEvent_counts_congr s k t (s.setSrc_counts k x))
  unfold State.takeUnder
  extract_lets x
  split
  · simp [State.takeEvent_counts, hunder]
  · exact s.takeEvent_counts k t inj

/-- The source counts and promotes under the entry of the event's tick, and keeps the one that it has. -/
theorem State.takeUnder_src : (s.takeUnder k t inj).src k =
    { ({ s.src k with entry := (s.src k).entryAt t } : Src).afterEvent k t inj with entry := (s.src k).entry } := by
  by_cases h : ∀ w old, (s.src k).was = some (w, old) → reached t w = true
  · have hentry : (s.src k).entryAt t = (s.src k).entry := by
      unfold Src.entryAt
      split
      · next w old hw => exact if_pos (h w old hw)
      · rfl
    rw [s.takeUnder_of_reached k t inj h, State.takeEvent_src, hentry]
    rfl
  · push Not at h
    obtain ⟨w, old, hw, hr⟩ := h
    have hentry : (s.src k).entryAt t = old := by simp [Src.entryAt, hw, hr]
    rw [hentry]
    simp only [State.takeUnder, hw, if_neg hr]
    split <;> simp

end

/-! ## The expiry or clear that an event comes before (R374, R406, log entry 116) -/

/-- The source once an expiry or clear at `t` or later is undone. -/
def Src.undone (x : Src) (t : BitVec 64) : Src :=
  match x.prior with
  | none => x
  | some p => if reached p.tick t then x.restored p else x

theorem State.undo_src (s : State) (n : Nat) (t : BitVec 64) : (s.undo n t).src n = (s.src n).undone t := by
  have htrip : ∀ u : State, u.tripOn.src n = u.src n := fun u =>
    State.src_congr (congrArg Flt.srcs (State.flt_of_collector u.tripOn_collector)) n
  unfold State.undo
  extract_lets x
  split
  · next h => rw [Src.undone, h]
  · next p h =>
    rw [Src.undone, h]
    split
    · next hr =>
      extract_lets s1 s2 s3 s4
      have hs1 : s1.src n = x.restored p := State.src_setSrc_same s n _
      have hs2 : s2.src n = s1.src n := by
        unfold s2
        cases p.clear <;> rfl
      have hs3 : s3.src n = s2.src n := by
        unfold s3
        split <;> rfl
      have hs4 : s4.src n = s3.src n := by
        unfold s4
        split <;> rfl
      have hs : s4.src n = x.restored p := hs4.trans (hs3.trans (hs2.trans hs1))
      split
      · exact (htrip s4).trans (hs.trans (if_pos hr).symm)
      · exact hs.trans (if_pos hr).symm
    · next hr => exact (if_neg hr).symm

@[simp] theorem Src.undone_last (x : Src) (t : BitVec 64) : (x.undone t).last = x.last := by
  unfold Src.undone
  split
  · rfl
  · split <;> rfl

theorem State.recDue_src (s : State) (a b n : Nat) : (s.recDue a b).src n = s.src n := by
  unfold State.recDue
  split <;> rfl

/-- A host clear takes the source to QUIET with its promotion, recovery count, ticks and break gone (R390, R413). -/
theorem State.clearAt_src (s : State) (n : Nat) (t : BitVec 64) : ∃ p, (s.clearAt n t).src n =
    { s.src n with st := .quiet, promoted := false, recCnt := 0, ticks := [], broken := false, prior := p } := by
  unfold State.clearAt
  extract_lets x y s1
  exact ⟨_, (State.recDue_src _ _ _ _).trans (State.src_setSrc_same s1 n _)⟩

/-! ## The collector takes an event -/

/-- The state in which an event of source `n` is taken: its entry is the one a COMMIT of this tick brings into effect (R392). -/
def State.classed (s : State) (n : Nat) : State :=
  match s.entryDue n with
  | some e => s.reclass n e
  | none => s

theorem State.classed_counts (s : State) (n : Nat) : (s.classed n).counts n = s.counts n := by
  unfold State.classed
  split <;> simp

/-- A COMMIT changes the entry of the source, and nothing else that an event goes by. -/
theorem State.classed_src (s : State) (n : Nat) : ((s.classed n).src n).prior = (s.src n).prior ∧
    ((s.classed n).src n).last = (s.src n).last ∧ ((s.classed n).src n).broken = (s.src n).broken := by
  unfold State.classed
  split
  · rw [State.reclass, State.src_setSrc_same, Src.reclassed]
    split <;> exact ⟨rfl, rfl, rfl⟩
  · exact ⟨rfl, rfl, rfl⟩

theorem Src.clearedAfter_congr {x y : Src} (h : y.prior = x.prior) (t : BitVec 64) : y.clearedAfter t = x.clearedAfter t := by
  rw [Src.clearedAfter, Src.clearedAfter, h]

section
variable {s : State} {n k : Nat} {t : BitVec 64} {inj : Bool} (hk : k = srcOf n) (hseen : (s.src k).seen t = false)
include hk hseen

/-- An event before a host clear that has acted is taken first, and the clear after it. -/
theorem State.collect_cleared {p : Prior} (hp : (s.src k).clearedAfter t = some p) : s.collect n t inj =
    (((s.classed k).setSrc k (((s.classed k).src k).restored p)).takeUnder k t inj).clearAt k p.tick := by
  rw [← Src.clearedAfter_congr (s.classed_src k).1] at hp
  subst hk
  unfold State.collect
  extract_lets k s0
  rw [if_neg (by simp [k, hseen])]
  split
  · next q hq =>
    cases Option.some.inj (hq.symm.trans hp)
    rfl
  · next hq => exact nomatch hq.symm.trans hp

/-- Every other event is taken once the expiry or clear it comes before is undone; an injection of its tick collides with it. -/
theorem State.collect_taken (hp : (s.src k).clearedAfter t = none) :
    s.collect n t inj = ((s.classed k).undo k t).takeUnder k t inj ∨
    s.collect n t inj = (((s.classed k).undo k t).takeUnder k t inj).collide k := by
  rw [← Src.clearedAfter_congr (s.classed_src k).1] at hp
  subst hk
  unfold State.collect
  extract_lets k s0 u hit s1
  rw [if_neg (by simp [k, hseen])]
  split
  · next q hq => exact nomatch hq.symm.trans hp
  · split
    · exact .inr rfl
    · exact .inl rfl

/-- An event that the source has not had is logged, counted and marked, and leaves every other source. -/
theorem State.collect_counts : (s.collect n t inj).counts k = (s.noteEvent k t).counts k := by
  have hcongr : ∀ u : State, u.counts k = s.counts k → (u.takeUnder k t inj).counts k = (s.noteEvent k t).counts k :=
    fun u hu => (u.takeUnder_counts k t inj).trans (State.noteEvent_counts_congr s k t hu)
  cases hp : (s.src k).clearedAfter t with
  | some p =>
    rw [State.collect_cleared hk hseen hp, State.clearAt_counts]
    exact hcongr _ ((State.setSrc_counts _ _ _).trans (s.classed_counts k))
  | none =>
    have htake := hcongr _ ((State.undo_counts _ _ t).trans (s.classed_counts k))
    rcases State.collect_taken (inj := inj) hk hseen hp with h | h
    · rw [h, htake]
    · rw [h, State.collide_counts, htake]

end

end Sys2Proof.Machine
end

section
/-! FAULT_EVENT (R370 to R374, R403 to R413): the word's event, a second word of a tick, one before a host clear, and what the
collector finds broken as it takes the word. -/

namespace Sys2Proof.Machine

open Sys2Proof.Safety

/-! ## Sources that no mark makes the duty surrender for (R498) -/

section
variable {s t : State}

theorem noMarks_of_beside (h : t.beside = s.beside) (hm : noMarks s) : noMarks t := fun k hk =>
  (State.rd_of_beside h (eventReg_TWN_SURR_MASK hk)).trans (hm k hk)

theorem State.now_of_beside (h : t.beside = s.beside) : t.now = s.now := by
  obtain ⟨htb, -, -, -, htwn⟩ := State.fields_of_beside h
  rw [State.now, State.now, htb, htwn]

theorem State.maskSurrender_unmarked (b : State) {n : Nat} (hn : n < 256) (hm : noMarks s) :
    State.maskSurrender b s n = s := by
  have hk : n / 32 < 8 := by omega
  have hmask : s.bitOf (Reg.TWN_SURR_MASK (n / 32)) (n % 32) = false := by
    rw [State.bitOf, hm _ hk]
    exact BitVec.getLsbD_zero
  simp [State.maskSurrender, hmask]

theorem State.raise_unmarked {n : Nat} (hn : n < 256) (hm : noMarks s) : s.raise n = s.collect n s.now false :=
  State.maskSurrender_unmarked s hn (noMarks_of_beside (s.collect_beside n _ _) hm)

/-- FS15 raised besides, in a state whose own FS15 and time are as in `s`: it leaves every other source and their sticky bits,
and sets its own (R412). -/
theorem State.raise_fs15 {n : Nat} (hn : n < 256) (hne : n ≠ 15) (hm : noMarks s) (hseen : (s.src 15).seen s.now = false)
    (hb : t.beside = s.beside) (h15 : t.src 15 = s.src 15)
    (hsticky : t.bitOf (Reg.FLT_STICKY (n / 32)) (n % 32) = true) :
    (t.raise 15).src n = t.src n ∧ (t.raise 15).flt.selfBad = t.flt.selfBad ∧
      (t.raise 15).bitOf (Reg.FLT_STICKY (n / 32)) (n % 32) = true ∧ (t.raise 15).bitOf (Reg.FLT_STICKY 0) 15 = true := by
  rw [← h15, ← State.now_of_beside hb] at hseen
  have hcounts : (t.collect 15 t.now false).counts 15 = (t.noteEvent 15 t.now).counts 15 :=
    State.collect_counts (n := 15) rfl hseen
  obtain ⟨hsrc, -, hbad, -, hmark, hkeep⟩ := State.counted_spec (by decide) hcounts
  rw [State.raise_unmarked (by decide) (noMarks_of_beside hb hm)]
  exact ⟨hsrc n hne, hbad, hkeep n hn hsticky, hmark⟩

end

/-! ## The event of a word (R371, R372) -/

section
variable {word : BitVec 64} {tick : BitVec 64} {s : State}
  (ht : tick = nearest16 s.now (BitVec.ofNat 16 (fieldOf word 48 16))) (hm : noMarks s)
include ht hm

theorem exec_faultEvent : exec (.faultEvent word none) s = .next (s.collect (fieldOf word 40 8) tick false) := by
  subst ht
  exact congrArg Host.Outcome.next
    (State.maskSurrender_unmarked s (srcOf_lt _) (noMarks_of_beside (s.collect_beside _ _ _) hm))

theorem exec_faultEvent_counter (c : Fin 3) (stays : Bool) : exec (.faultEvent word (some (.counter c stays))) s =
    .next (State.counterBreak s (s.collect (fieldOf word 40 8) tick false) c stays) := by
  subst ht
  exact congrArg (fun u : State => Host.Outcome.next (State.counterBreak s u c stays))
    (State.maskSurrender_unmarked s (srcOf_lt _) (noMarks_of_beside (s.collect_beside _ _ _) hm))

theorem exec_faultEvent_source {n : Nat} (hn : n = srcOf (fieldOf word 40 8))
    (hb : (s.sourceBreak n tick).beside = s.beside) : exec (.faultEvent word (some .source)) s =
      .next (((s.sourceBreak n tick).collect (fieldOf word 40 8) tick false).raise 15) := by
  subst hn ht
  exact congrArg (fun u : State => Host.Outcome.next (u.raise 15))
    (State.maskSurrender_unmarked _ (srcOf_lt _) (noMarks_of_beside ((State.collect_beside _ _ _ _).trans hb) hm))

end

/-- A second word of a tick is the same event: an injected one is real from then on (R372, R411). -/
theorem State.collect_seen (s : State) (n : Nat) {k : Nat} {t : BitVec 64} (hk : k = srcOf n)
    (hseen : (s.src k).seen t = true) :
    s.collect n t false = if (s.src k).injected = true ∧ (s.src k).last = some t then s.collide k else s := by
  subst hk
  simp [State.collect, hseen]

/-! ## An injection that an event collides with (R411) -/

section
variable (v : State) (n : Nat)

theorem State.collide_src : (v.collide n).src n = { v.src n with injected := false } := State.src_setSrc_same v n _

/-- The source adds the same class to the reaction as before. -/
theorem State.collide_reaction {s : State} {x : Src} (h : v.flt.srcs = (s.setSrc n x).flt.srcs) :
    (v.collide n).reaction = v.reaction := by
  have hsrc : v.src n = x := (State.src_congr h n).trans (s.src_setSrc_same n x)
  subst hsrc
  have hsrcs : (v.collide n).flt.srcs = ((s.setSrc n (v.src n)).setSrc n { v.src n with injected := false }).flt.srcs :=
    congrArg (fun l => Sparse.put (fun _ => ({} : Src)) l n { v.src n with injected := false }) h
  rw [State.reaction_congr hsrcs, State.reaction_congr h]
  exact s.reaction_setSrc_setSrc rfl

end

/-! ## What the event makes of its source, and of the converter (R379, R384, R394 to R398) -/

section
variable {s : State} {n k : Nat} {t : BitVec 64} {inj : Bool} (hk : k = srcOf n) (hseen : (s.src k).seen t = false)
  (hp : (s.src k).clearedAfter t = none)
include hk hseen hp

theorem State.collect_src : ∃ b, (s.collect n t inj).src k =
    { (((s.classed k).undo k t).takeUnder k t inj).src k with injected := b } := by
  rcases State.collect_taken (inj := inj) hk hseen hp with h | h
  · exact ⟨_, by rw [h]⟩
  · exact ⟨_, by rw [h, State.collide_src]⟩

/-- An event under the entry in effect blocks where the reaction rises or its class asks for it, and trips where the reaction
becomes Trip. -/
theorem State.collect_reacts
    (hwas : ∀ w old, (((s.classed k).undo k t).src k).was = some (w, old) → reached t w = true) :
    (2 ≤ (s.collect n t inj).reaction → ((s.classed k).undo k t).reaction < (s.collect n t inj).reaction →
      (s.collect n t inj).blockedFrom t) ∧
    (2 ≤ ((s.collect n t inj).src k).cls k → (s.collect n t inj).blockedFrom t) ∧
    ((s.collect n t inj).reaction = 3 → ((s.classed k).undo k t).reaction ≠ 3 → (s.collect n t inj).saf.req = true) := by
  have hcases := State.collect_taken (inj := inj) hk hseen hp
  generalize (s.classed k).undo k t = u at *
  rw [u.takeUnder_of_reached k t inj hwas] at hcases
  rcases hcases with h | h
  · rw [h]
    exact u.takeEvent_reacts k t inj
  · have hreaction := State.collide_reaction _ _ (u.takeEvent_srcs k t inj)
    have hreacts := u.takeEvent_reacts k t inj
    generalize u.takeEvent k t inj = v at *
    rw [h, hreaction, State.collide_src]
    exact hreacts

end

/-! ## A pair found broken (R413) -/

section
variable {s : State} {n : Nat} {tick : BitVec 64} (hne : n ≠ 15) (hn : n < 256) (hm : noMarks s)
include hne hn hm

theorem State.sourceBreak_spec : (s.sourceBreak n tick).src n = (s.src n).breakAt tick ∧
    (s.sourceBreak n tick).counts n = s.counts n ∧ (s.sourceBreak n tick).beside = s.beside := by
  rw [State.sourceBreak, if_neg hne]
  extract_lets s1 s2
  have hs2 : s2.src n = (s.src n).breakAt tick ∧ s2.counts n = s.counts n ∧ s2.beside = s.beside := by
    simp [s2, s1]
  clear_value s2
  generalize hu : (if s2.reaction ≤ s.reaction then s2.setLatch true (tick + 16) else s2) = u
  have hbreak : u.src n = (s.src n).breakAt tick ∧ u.counts n = s.counts n ∧ u.beside = s.beside := by
    rw [← hu]
    split <;> simp [hs2]
  rwa [State.maskSurrender_unmarked s hn (noMarks_of_beside hbreak.2.2 hm)]

end

/-- A break that no clear has mended stays through the undoing of an expiry. -/
theorem Src.breakAt_undone (x y : Src) (tick : BitVec 64) (hprior : y.prior = (x.breakAt tick).prior)
    (hbroken : y.broken = true) : (y.undone tick).broken = true := by
  unfold Src.undone
  split
  · exact hbroken
  · next p hp =>
    obtain ⟨q, -, hq⟩ := Option.bind_eq_some_iff.mp (hprior.symm.trans hp)
    split at hq
    · exact nomatch hq
    · split
      · rw [← Option.some.inj hq]
        rfl
      · exact hbroken

/-- No clear that has acted is kept for a source whose pair breaks at an event before it. -/
theorem Src.breakAt_clearedAfter (x : Src) (tick : BitVec 64) : (x.breakAt tick).clearedAfter tick = none := by
  unfold Src.clearedAfter
  split
  · next p hp =>
    obtain ⟨q, -, hq⟩ := Option.bind_eq_some_iff.mp (show x.prior.bind _ = some p from hp)
    split at hq
    · exact nomatch hq
    · next hcond =>
      rw [← Option.some.inj hq]
      exact if_neg fun h => hcond (by simp_all)
  · rfl

/-- The source stays broken, and the event is taken all the same (R413). -/
theorem State.collect_broken {s a : State} {n k : Nat} {tick : BitVec 64} {inj : Bool} (hk : k = srcOf n)
    (ha : a.src k = (s.src k).breakAt tick) (hseen : (s.src k).seen tick = false) :
    ((a.collect n tick inj).src k).broken = true ∧ (a.collect n tick inj).counts k = (a.noteEvent k tick).counts k := by
  have hseen' : (a.src k).seen tick = false := by rw [ha]; exact hseen
  have hp : (a.src k).clearedAfter tick = none := by rw [ha]; exact (s.src k).breakAt_clearedAfter tick
  obtain ⟨hprior, -, hbroken⟩ := a.classed_src k
  rw [ha] at hprior hbroken
  obtain ⟨b, hsrc⟩ := State.collect_src (inj := inj) hk hseen' hp
  refine ⟨?_, State.collect_counts hk hseen'⟩
  rw [hsrc, State.takeUnder_src]
  change (((a.classed k).undo k tick).src k).broken = true
  rw [State.undo_src]
  exact Src.breakAt_undone (s.src k) _ tick hprior hbroken

/-! ## A counter's residue found wrong (R52, R412) -/

/-- The counter takes its old value again; the residue may stay wrong. -/
def State.discard (before s : State) (c : Nat) (stays : Bool) : State :=
  let s1 := s.wr (fltCounter c) (before.rd (fltCounter c))
  { s1 with flt := { s1.flt with selfBad := s1.flt.selfBad || stays } }

theorem State.counterBreak_eq (before s : State) (c : Nat) (stays : Bool) :
    State.counterBreak before s c stays = (State.discard before s c stays).raise 15 := rfl

theorem State.discard_spec (before s : State) (c : Nat) (stays : Bool) :
    (∀ n, (State.discard before s c stays).src n = s.src n) ∧
    (State.discard before s c stays).flt.selfBad = (s.flt.selfBad || stays) ∧
    (State.discard before s c stays).beside = s.beside ∧
    ∀ k i, (State.discard before s c stays).bitOf (Reg.FLT_STICKY k) i = s.bitOf (Reg.FLT_STICKY k) i := by
  have hcounter : eventReg (fltCounter c) = true ∧ fltCounter c < Reg.FLT_STICKY 0 := by
    unfold fltCounter
    split <;> decide
  have hrd : ∀ k, (State.discard before s c stays).rd (Reg.FLT_STICKY k) = s.rd (Reg.FLT_STICKY k) := fun k => by
    refine State.rd_wr_other s _ _ _ ?_
    unfold Reg.FLT_STICKY at *
    omega
  exact ⟨fun _ => rfl, rfl, s.wr_beside hcounter.1 _, fun k i => by rw [State.bitOf, hrd, State.bitOf]⟩

end Sys2Proof.Machine

namespace Sys2Proof.Collector

open Sys2Proof.Machine Sys2Proof.Safety

/-- Settles O37: by what an event that the source has not had makes of the collector's view, of its source and of the reaction;
the word that finds something broken raises FS15 after it. -/
theorem eventIsTakenAndReactedTo : Obligations.EventIsTakenAndReactedTo := by
  refine ⟨fun word n tick s u hn ht hm hseen hp hu => ?_, fun word n tick s hn ht hm => ⟨fun hseen => ?_, fun p hseen hp => ?_⟩,
    fun word n tick s hn hne ht hm hseen hseen15 => ⟨?_, fun c stays => ?_⟩⟩
  all_goals have hlt : n < 256 := hn ▸ srcOf_lt _
  · have hu : u = (s.classed n).undo n tick := hu
    obtain ⟨b, hsrc⟩ := State.collect_src (inj := false) hn hseen hp
    obtain ⟨hrest, hlog, -, hcnt, hsticky, -⟩ := State.counted_spec hlt (State.collect_counts (inj := false) hn hseen)
    have hreacts := State.collect_reacts (inj := false) hn hseen hp
    have hbeside := s.collect_beside (fieldOf word 40 8) tick false
    have hlast : (u.src n).last = (s.src n).last := by
      rw [hu, State.undo_src, Src.undone_last, (s.classed_src n).2.1]
    rw [State.takeUnder_src, ← hu] at hsrc
    rw [← hu] at hreacts
    obtain ⟨-, hlanes, hports, haes, -⟩ := State.fields_of_beside hbeside
    refine ⟨_, exec_faultEvent ht hm, by rw [hsrc]; rfl, by rw [hsrc]; rfl, ?_, hrest, hlog, hcnt, hsticky, hreacts, hports,
      hlanes, haes, congrArg (fun v : State × (Nat → Word) => v.1.ram) hbeside⟩
    rw [hsrc, ← hlast]
    rfl
  · rw [exec_faultEvent ht hm, State.collect_seen s _ hn hseen]
  · obtain ⟨hrest, hlog, -, hcnt, hsticky, -⟩ := State.counted_spec hlt (State.collect_counts (inj := false) hn hseen)
    obtain ⟨q, hsrc⟩ := State.clearAt_src
      (((s.classed n).setSrc n (((s.classed n).src n).restored p)).takeUnder n tick false) n p.tick
    rw [← State.collect_cleared hn hseen hp] at hsrc
    exact ⟨_, exec_faultEvent ht hm, by rw [hsrc], by rw [hsrc], by rw [hsrc], hrest, hlog, hcnt, hsticky⟩
  · obtain ⟨hsrc, hcounts, hbeside⟩ := State.sourceBreak_spec (tick := tick) hne hlt hm
    obtain ⟨hbroken, htaken⟩ := State.collect_broken (inj := false) hn hsrc hseen
    obtain ⟨hrest, -, -, -, hsticky, -⟩ := State.counted_spec hlt htaken
    have hb := (State.collect_beside _ (fieldOf word 40 8) tick false).trans hbeside
    have h15 := (hrest 15 (Ne.symm hne)).trans ((State.counts_eq_iff.mp hcounts).1 15 (Ne.symm hne))
    obtain ⟨hkeep, -, hmark, hmark15⟩ := State.raise_fs15 hlt hne hm hseen15 hb h15 hsticky
    exact ⟨_, exec_faultEvent_source ht hm hn hbeside, by rw [hkeep]; exact hbroken, hmark, hmark15⟩
  · obtain ⟨hrest, -, hbad, -, hsticky, -⟩ := State.counted_spec hlt (State.collect_counts (inj := false) hn hseen)
    obtain ⟨hsrc, hself, hbeside, hset⟩ := State.discard_spec s (s.collect (fieldOf word 40 8) tick false) c stays
    have hb := hbeside.trans (s.collect_beside (fieldOf word 40 8) tick false)
    have h15 := (hsrc 15).trans (hrest 15 (Ne.symm hne))
    obtain ⟨-, hself', hmark, hmark15⟩ := State.raise_fs15 hlt hne hm hseen15 hb h15 ((hset _ _).trans hsticky)
    refine ⟨_, (exec_faultEvent_counter ht hm c stays).trans (congrArg _ (State.counterBreak_eq _ _ _ _)), ?_, hmark, hmark15⟩
    rw [hself', hself, hbad]

end Sys2Proof.Collector
end

section
/-! The ends of a fault state (R384 to R391, R406, R412, R413): the Lull of an ACTIVE source, and the host clears. -/

namespace Sys2Proof.Machine

open Sys2Proof.Safety

/-! ## What a change of one source by its Lull or a host clear leaves -/

section
variable (s : State) (n : Nat) (t : BitVec 64)

theorem State.recDue_due {a b : Nat} (h : a ≠ b) : (s.recDue a b).key.due.isSome = true := by
  rw [State.recDue, if_neg h]
  rfl

theorem State.recDue_rd (a b c : Nat) : (s.recDue a b).rd c = s.rd c := by
  unfold State.recDue
  split <;> rfl

theorem State.clearAt_rest : (∀ m, m ≠ n → (s.clearAt n t).src m = s.src m) ∧
    (0 < (s.src n).recCnt → (s.clearAt n t).key.due.isSome = true) ∧
    (s.bitOf Reg.FLT_EVT 5 = true → (s.clearAt n t).bitOf Reg.FLT_EVT 5 = true) := by
  refine ⟨(State.counts_eq_iff.mp (s.clearAt_counts n t)).1, fun h => State.recDue_due _ h.ne', fun h => ?_⟩
  unfold State.clearAt
  extract_lets x y s1
  rw [State.bitOf, State.recDue_rd]
  exact (State.settle_spec s (s.setSrc n y) t).2.2 5 (by decide) h

end

/-! ## LULL_EXPIRY (R384, R385, R387 to R389) -/

/-- The source after its Lull: the recovery is counted, and it is LOCKED, or QUIET without promotion. -/
def Src.recovered (x : Src) (locks : Bool) : Src :=
  if locks then { x with recCnt := satInc x.recCnt 255, st := .locked }
  else { x with recCnt := satInc x.recCnt 255, st := .quiet, promoted := false }

theorem Src.recovered_spec (x : Src) (locks : Bool) : (x.recovered locks).recCnt = satInc x.recCnt 255 ∧
    (x.recovered locks).st = (if locks = true then .locked else .quiet) ∧
    (locks = false → (x.recovered locks).promoted = false) ∧ (locks = true → (x.recovered locks).promoted = x.promoted) := by
  cases locks
  · exact ⟨rfl, rfl, fun _ => rfl, nofun⟩
  · exact ⟨rfl, rfl, nofun, fun _ => rfl⟩

/-- The expiry at `t` of the Lull of source `n`, which is `x`. -/
def State.recover (s : State) (n : Nat) (x : Src) (t : BitVec 64) (locks : Bool) : State :=
  let s2 := s.setSrc n (x.recovered locks)
  let s3 := State.settle s (if locks then s2.lockedNow else s2) s.now
  (s3.setSrc n { x.recovered locks with prior := x.replaced t false locks (s.newEvt s3) }).recDue x.recCnt
    (satInc x.recCnt 255)

/-- The recovery is counted and falls due, and LOCKED shows in FLT_EVT; no other source changes. -/
theorem State.recover_spec (s : State) (n : Nat) (x : Src) (t : BitVec 64) (locks : Bool) :
    ((s.recover n x t locks).src n).recCnt = satInc x.recCnt 255 ∧
    ((s.recover n x t locks).src n).st = (if locks = true then .locked else .quiet) ∧
    (locks = false → ((s.recover n x t locks).src n).promoted = false) ∧
    (locks = true → ((s.recover n x t locks).src n).promoted = x.promoted ∧
      (s.recover n x t locks).bitOf Reg.FLT_EVT 3 = true) ∧
    (x.recCnt < 255 → (s.recover n x t locks).key.due.isSome = true) ∧
    ∀ m, m ≠ n → (s.recover n x t locks).src m = s.src m := by
  obtain ⟨hcnt, hst, hquiet, hlocked⟩ := x.recovered_spec locks
  unfold State.recover
  extract_lets s2 s3
  rw [State.recDue_src, State.src_setSrc_same]
  refine ⟨hcnt, hst, hquiet, fun h => ⟨hlocked h, ?_⟩, fun h => ?_, ?_⟩
  · rw [State.bitOf, State.recDue_rd]
    refine (State.settle_spec s _ s.now).2.2 3 (by decide) ?_
    rw [if_pos h, State.lockedNow, State.bitOf_setBit _ _ _ _ (by decide)]
    simp
  · exact State.recDue_due _ (by rw [satInc, if_pos h]; exact (Nat.lt_succ_self _).ne)
  · have hcounts : s3.counts n = s.counts n := by simp [s3, s2]
    exact (State.counts_eq_iff.mp (by simp [hcounts])).1

theorem State.src_advanceTo (s : State) (t : BitVec 64) (n : Nat) : (s.advanceTo t).src n = s.src n := by
  obtain ⟨-, -, hrest, -⟩ := s.elapse_spec (ahead s.now t)
  exact State.src_congr (congrArg (fun u : State => u.flt.srcs) hrest) n

theorem exec_lullExpiry {n : Fin 256} {t0 : BitVec 64} {s : State} (hst : (s.src n).st = .active)
    (hbroken : (s.src n).broken = false) (hlast : (s.src n).last = some t0) : ∃ t,
    exec (.lullExpiry n) s = .next ((s.advanceTo t).recover n (s.src n) t
      (decide (0 < (s.src n).entry.recLim ∧ (s.src n).entry.recLim ≤ (s.src n).recCnt + 1))) := by
  change ∃ t, execLullExpiry n s = _
  unfold execLullExpiry
  extract_lets x
  split
  · next t _ _ _ => exact ⟨t, rfl⟩
  · next hnone => exact absurd (congrArg _ hlast) (hnone _ hst hbroken)

theorem exec_lullExpiry_none {n : Fin 256} {s : State}
    (h : (s.src n).st ≠ .active ∨ (s.src n).broken = true ∨ (s.src n).last = none) : exec (.lullExpiry n) s = .next s := by
  change execLullExpiry n s = _
  unfold execLullExpiry
  extract_lets x
  split
  · next t hst hbroken hends =>
    obtain ⟨t0, hlast, -⟩ := Option.map_eq_some_iff.mp (show x.last.map _ = some t from hends)
    rcases h with h | h | h
    · exact absurd hst h
    · exact absurd (hbroken.symm.trans h) (by decide)
    · exact nomatch hlast.symm.trans h
  · rfl

/-! ## CLEAR_SOURCE (R390, R391, R406, R412, R413) -/

theorem toNat_actionWord {a n : Nat} (ha : a < 4) (hn : n < 2 ^ 30) : (actionWord a n).toNat = 2 ^ 30 * a + n := by
  rw [actionWord, putField, BitVec.toNat_or, BitVec.toNat_ofNat, BitVec.toNat_ofNat, Nat.mod_eq_of_lt (by omega),
    Nat.mod_eq_of_lt (by omega), Nat.mul_comm, Nat.two_pow_add_eq_or_of_lt hn]

theorem fieldOf_actionWord {a n : Nat} (ha : a < 4) (hn : n < 256) :
    fieldOf (actionWord a n) 30 2 = a ∧ fieldOf (actionWord a n) 0 8 = n := by
  rw [fieldOf, fieldOf, toNat_actionWord ha (by omega)]
  omega

/-- Does the source stay in its fault state at a host clear: ACTIVE with a whole pair, or with an event in this tick? (R391, R406) -/
def Src.stays (x : Src) (now : BitVec 64) : Prop := (x.st = .active ∧ x.broken = false) ∨ x.eventNow now = true

theorem Src.not_stays_iff (x : Src) (now : BitVec 64) :
    ¬ x.stays now ↔ (x.st ≠ .active ∨ x.broken = true) ∧ x.eventNow now = false := by
  rw [Src.stays, not_or, not_and_or, Bool.not_eq_false, Bool.not_eq_true]

/-- QUIET, with promotion, recovery count, ticks and break gone (R390, R413). -/
def Src.cleared (x : Src) : Prop := x.st = .quiet ∧ x.promoted = false ∧ x.recCnt = 0 ∧ x.ticks = [] ∧ x.broken = false

theorem Src.cleared.not_stays {x : Src} (h : x.cleared) (now : BitVec 64) : ¬ x.stays now := by
  obtain ⟨hst, -, -, hticks, -⟩ := h
  rw [Src.not_stays_iff, Src.eventNow, hst, hticks]
  simp

theorem State.clearSrc_cleared (s : State) (n : Nat) : ((s.clearSrc n).src n).cleared := by
  obtain ⟨p, hsrc⟩ := s.clearAt_src n s.now
  rw [State.clearSrc, hsrc]
  exact ⟨rfl, rfl, rfl, rfl, rfl⟩

theorem exec_clearSource (n : Fin 256) {s : State} (hopen : s.open .flt = true) :
    exec (.clearSource n) s = .next ((s.wrPair Reg.FLT_CLEAR (actionWord 1 n)).clearOne n) := by
  obtain ⟨haction, hindex⟩ := fieldOf_actionWord (a := 1) (by decide) n.isLt
  change execClearSource n s = _
  rw [execClearSource, State.via_of_open s _ hopen, State.fltClear, haction]
  exact congrArg (fun k => Host.Outcome.next (State.clearOne _ k)) hindex

section
variable (s : State) (n : Nat)

theorem State.clearOne_fails (h : s.flt.selfFails = true) : s.clearOne 15 = (s.setBit Reg.FLT_EVT 5).raise 15 :=
  if_pos ⟨rfl, h⟩

section
variable (hself : n = 15 → s.flt.selfFails = false)
include hself

theorem State.clearOne_refuses (h : (s.src n).stays s.now) : s.clearOne n = s.setBit Reg.FLT_EVT 5 := by
  rw [State.clearOne, if_neg fun hf => absurd (hself hf.1) (by simp [hf.2])]
  exact if_pos h

theorem State.clearOne_clears (h : ¬ (s.src n).stays s.now) : s.clearOne n = s.clearSrc n := by
  rw [State.clearOne, if_neg fun hf => absurd (hself hf.1) (by simp [hf.2])]
  exact if_neg h

end

/-! ## CLEAR_ALL (R390, R391, R406) -/

/-- What CLEAR_ALL does to one source. -/
def State.clearStep (s : State) (n : Nat) : State :=
  let x := s.src n
  if n = 15 then s
  else if x.eventNow s.now ∧ x.wasSt ≠ .active then s.setBit Reg.FLT_EVT 5
  else if x.st = .active ∧ x.broken = false then s
  else if x.eventNow s.now then s.setBit Reg.FLT_EVT 5
  else s.clearSrc n

theorem State.clearEvery_eq : s.clearEvery = (s.flt.srcs.map (·.1)).foldl State.clearStep s := rfl

/-- A source that stays, and FS15, is passed over or its clear refused; every other one is cleared. -/
theorem State.clearStep_cases :
    ((n = 15 ∨ (s.src n).stays s.now) ∧ (s.clearStep n = s ∨ s.clearStep n = s.setBit Reg.FLT_EVT 5)) ∨
    (n ≠ 15 ∧ ¬ (s.src n).stays s.now ∧ s.clearStep n = s.clearSrc n) := by
  unfold State.clearStep
  extract_lets x
  split
  · next h => exact .inl ⟨.inl h, .inl rfl⟩
  · next h15 =>
    split
    · next h => exact .inl ⟨.inr (.inr h.1), .inr rfl⟩
    · split
      · next h => exact .inl ⟨.inr (.inl h), .inl rfl⟩
      · next hactive =>
        split
        · next h => exact .inl ⟨.inr (.inr h), .inr rfl⟩
        · next h => exact .inr ⟨h15, not_or.mpr ⟨hactive, h⟩, rfl⟩

/-- An event in this tick of a source that was not ACTIVE before it, or is not now, wins over the clear. -/
theorem State.clearStep_refuses (hn : n ≠ 15) (hnow : (s.src n).eventNow s.now = true)
    (h : (s.src n).st ≠ .active ∨ (s.src n).broken = true ∨ (s.src n).wasSt ≠ .active) :
    s.clearStep n = s.setBit Reg.FLT_EVT 5 := by
  unfold State.clearStep
  extract_lets x
  rw [if_neg hn]
  split
  · rfl
  · next hwas =>
    have hactive : ¬ (x.st = .active ∧ x.broken = false) := by
      rintro ⟨hst, hwhole⟩
      rcases h with h | h | h
      · exact h hst
      · exact absurd (hwhole.symm.trans h) (by decide)
      · exact hwas ⟨hnow, h⟩
    exact if_neg hactive

theorem State.clearStep_rest : (s.clearStep n).now = s.now ∧ (∀ m, m ≠ n → (s.clearStep n).src m = s.src m) ∧
    (s.bitOf Reg.FLT_EVT 5 = true → (s.clearStep n).bitOf Reg.FLT_EVT 5 = true) := by
  rcases s.clearStep_cases n with ⟨-, h | h⟩ | ⟨-, -, h⟩
  · rw [h]
    exact ⟨rfl, fun _ _ => rfl, id⟩
  · rw [h]
    exact ⟨rfl, fun _ _ => rfl, fun _ => by simp [State.bitOf_setBit]⟩
  · obtain ⟨hsrc, -, hevt⟩ := s.clearAt_rest n s.now
    rw [h]
    exact ⟨State.now_of_beside (s.clearAt_beside n s.now), hsrc, hevt⟩

theorem State.clearStep_stays (h : n = 15 ∨ (s.src n).stays s.now) : (s.clearStep n).src n = s.src n := by
  rcases s.clearStep_cases n with ⟨-, h' | h'⟩ | ⟨h15, hgo, -⟩
  · rw [h']
  · rw [h']
    rfl
  · exact absurd h (not_or.mpr ⟨h15, hgo⟩)

theorem State.clearStep_clears (hn : n ≠ 15) (h : ¬ (s.src n).stays s.now) : ((s.clearStep n).src n).cleared := by
  rcases s.clearStep_cases n with ⟨hs, -⟩ | ⟨-, -, h'⟩
  · exact absurd hs (not_or.mpr ⟨hn, h⟩)
  · rw [h']
    exact s.clearSrc_cleared n

end

section
variable (l : List Nat) (s : State) (m : Nat)

theorem State.clearSteps_stays (h : m = 15 ∨ (s.src m).stays s.now) : (l.foldl State.clearStep s).src m = s.src m := by
  induction l generalizing s with
  | nil => rfl
  | cons n r ih =>
    obtain ⟨hnow, hsrc, -⟩ := s.clearStep_rest n
    have hm : (s.clearStep n).src m = s.src m := by
      by_cases hmn : m = n
      · subst hmn
        exact s.clearStep_stays m h
      · exact hsrc m hmn
    rw [List.foldl_cons, ih _ (by rwa [hm, hnow]), hm]

theorem State.clearSteps_evt (h : s.bitOf Reg.FLT_EVT 5 = true) : (l.foldl State.clearStep s).bitOf Reg.FLT_EVT 5 = true := by
  induction l generalizing s with
  | nil => exact h
  | cons n r ih => exact ih _ ((s.clearStep_rest n).2.2 h)

theorem State.clearSteps_refuses (hm : m ≠ 15) (hl : m ∈ l) (hev : (s.src m).eventNow s.now = true)
    (h : (s.src m).st ≠ .active ∨ (s.src m).broken = true ∨ (s.src m).wasSt ≠ .active) :
    (l.foldl State.clearStep s).bitOf Reg.FLT_EVT 5 = true := by
  induction l generalizing s with
  | nil => exact absurd hl List.not_mem_nil
  | cons n r ih =>
    obtain ⟨hnow, hsrc, -⟩ := s.clearStep_rest n
    by_cases hmn : m = n
    · subst hmn
      refine State.clearSteps_evt r _ ?_
      rw [s.clearStep_refuses m hm hev h]
      simp [State.bitOf_setBit]
    · have hr := hsrc m hmn
      exact ih (s.clearStep n) ((List.mem_cons.mp hl).resolve_left hmn) (by rwa [hr, hnow]) (by rwa [hr])

theorem State.clearSteps_clears (hm : m ≠ 15) (hl : m ∈ l ∨ (s.src m).cleared) (h : ¬ (s.src m).stays s.now) :
    ((l.foldl State.clearStep s).src m).cleared := by
  induction l generalizing s with
  | nil => exact hl.resolve_left List.not_mem_nil
  | cons n r ih =>
    obtain ⟨hnow, hsrc, -⟩ := s.clearStep_rest n
    by_cases hmn : m = n
    · subst hmn
      have hcleared := s.clearStep_clears m hm h
      exact ih _ (.inr hcleared) (hcleared.not_stays _)
    · have hr := hsrc m hmn
      refine ih (s.clearStep n) (hl.imp (fun h => (List.mem_cons.mp h).resolve_left hmn) fun h => ?_) (by rwa [hr, hnow])
      rwa [hr]

end

theorem Sparse.get_unlisted {α : Type} (d : Nat → α) (t : Sparse α) {k : Nat} (h : k ∉ t.map (·.1)) :
    Sparse.get d t k = d k := by
  induction t with
  | nil => rfl
  | cons e r ih =>
    rw [List.map_cons, List.mem_cons, not_or] at h
    rw [Sparse.get, if_neg (Ne.symm h.1), ih h.2]

/-- A source that the table does not list is as at reset. -/
theorem State.listed_or_cleared (s : State) (m : Nat) : m ∈ s.flt.srcs.map (·.1) ∨ (s.src m).cleared := by
  by_cases h : m ∈ s.flt.srcs.map (·.1)
  · exact .inl h
  · have hsrc : s.src m = {} := Sparse.get_unlisted _ _ h
    rw [hsrc]
    exact .inr ⟨rfl, rfl, rfl, rfl, rfl⟩

theorem exec_clearAll {s : State} (hopen : s.open .flt = true) :
    exec .clearAll s = .next (s.wrPair Reg.FLT_CLEAR (actionWord 2 0)).clearEvery := by
  have haction : fieldOf (actionWord 2 0) 30 2 = 2 := by decide
  change execClearAll s = _
  rw [execClearAll, State.via_of_open s _ hopen, State.fltClear, haction]
  rfl

end Sys2Proof.Machine

namespace Sys2Proof.Collector

open Sys2Proof.Machine Sys2Proof.Safety

/-- Settles O38: a Lull by what an expiry makes of its source, CLEAR_SOURCE by its three cases, and CLEAR_ALL by induction over
the sources. -/
theorem faultStatesEndByLullAndClear : Obligations.FaultStatesEndByLullAndClear := by
  refine ⟨fun n t0 s hst hbroken hlast => ?_, fun n s h => exec_lullExpiry_none h, fun n s hopen hself hst hnow => ?_,
    fun s hopen hself => ?_, fun n s hopen hself h => ?_, fun s hopen => ?_⟩
  · obtain ⟨t, hexec⟩ := exec_lullExpiry hst hbroken hlast
    generalize hlocks : decide (0 < (s.src n).entry.recLim ∧ (s.src n).entry.recLim ≤ (s.src n).recCnt + 1) = locks at hexec
    obtain ⟨hcnt, hend, hquiet, hlocked, hdue, hrest⟩ := State.recover_spec (s.advanceTo t) n (s.src n) t locks
    refine ⟨_, hexec, hcnt, ?_, fun h => ?_, fun h => ?_, hdue, fun m hm => (hrest m hm).trans (s.src_advanceTo t m)⟩
    · rw [hend]
      simp only [← hlocks, decide_eq_true_eq]
    · cases locks
      · exact hquiet rfl
      · exact nomatch hend.symm.trans h
    · cases locks
      · exact nomatch hend.symm.trans h
      · exact hlocked rfl
  · have hgo := (Src.not_stays_iff _ _).mpr ⟨hst, hnow⟩
    obtain ⟨hquiet, hprom, hcnt, hticks, hwhole⟩ := State.clearSrc_cleared (s.wrPair Reg.FLT_CLEAR (actionWord 1 n)) n
    obtain ⟨hrest, hdue, -⟩ := State.clearAt_rest (s.wrPair Reg.FLT_CLEAR (actionWord 1 n)) n s.now
    exact ⟨_, (exec_clearSource n hopen).trans (congrArg _ (State.clearOne_clears _ n hself hgo)), hquiet, hprom, hcnt, hticks,
      hwhole, hdue, hrest⟩
  · exact (exec_clearSource 15 hopen).trans (congrArg _ (State.clearOne_fails _ hself))
  · refine ⟨_, (exec_clearSource n hopen).trans (congrArg _ (State.clearOne_refuses _ n hself h)), rfl,
      by simp [State.bitOf_setBit], fun a ha => ?_⟩
    simp only [List.mem_cons, List.not_mem_nil, or_false, not_or] at ha
    rw [State.rd_setBit_other _ _ _ _ ha.2.2, State.rd_wrPair_other _ _ _ ha.1 ha.2.1]
  · refine ⟨_, exec_clearAll hopen, ?_⟩
    rw [State.clearEvery_eq]
    refine ⟨State.clearSteps_stays _ _ 15 (.inl rfl), fun m hm => ⟨fun h => ?_, fun hnow h => ⟨?_, ?_⟩, fun hst hnow => ?_⟩⟩
    · exact State.clearSteps_stays _ _ m (.inr (.inl h))
    · exact State.clearSteps_stays _ _ m (.inr (.inr hnow))
    · exact State.clearSteps_refuses _ _ m hm
        ((s.listed_or_cleared m).resolve_right fun hc => hc.not_stays s.now (.inr hnow)) hnow h
    · exact State.clearSteps_clears _ _ m hm (s.listed_or_cleared m) ((Src.not_stays_iff _ _).mpr ⟨hst, hnow⟩)

end Sys2Proof.Collector
end

section
/-! DEBLOCK at the tick of a COMMIT that it cancels (R392, R400, R401, R558): the sources do not stay as they were. -/

namespace Sys2Proof.Machine

open Sys2Proof.Safety

theorem exec_deblock_accepted {s : State} (hopen : s.open .flt = true) (hok : s.deblockOk = true) :
    exec .deblock s = .next (s.wrPair Reg.FLT_CONV (actionWord 1 0)).deblockNow := by
  change execDeblock s = _
  rw [execDeblock, State.via_of_open s _ hopen]
  exact congrArg Host.Outcome.next (if_pos hok)

/-- The deblock that stands before the ports changes no other part (R401). -/
theorem State.awaitDeblock_rest (s : State) :
    s.awaitDeblock.flt = s.flt ∧ s.awaitDeblock.drf = s.drf ∧ s.awaitDeblock.now = s.now := by
  unfold State.awaitDeblock
  generalize List.range 12 = l
  induction l generalizing s with
  | nil => exact ⟨rfl, rfl, rfl⟩
  | cons n r ih =>
    obtain ⟨hflt, hdrf, hnow⟩ := ih (if s.open (.port n) then s.setPort n { s.port n with deblock := true } else s)
    rw [List.foldl_cons, hflt, hdrf, hnow]
    split <;> exact ⟨rfl, rfl, rfl⟩

/-- Where one source alone is listed and has taken its entry for an event of this tick, it has the one before again. -/
theorem State.unclass_single {s : State} {n : Nat} {x : Src} {old : FltEntry} (hsrcs : s.flt.srcs = [(n, x)])
    (hwas : x.was = some (s.now, old)) : s.unclass = s.setSrc n { x with entry := old, was := none } := by
  rw [State.unclass, hsrcs, List.foldl_cons, List.foldl_nil, hwas]
  exact if_pos rfl

/-- A deblock cancels a set that waits and holds a topology section, and with it the entries that the COMMIT brought (R558). -/
theorem State.deblockNow_src {s : State} {n : Nat} {x : Src} {old : FltEntry} (hst : s.drf.st = .pending)
    (htopo : s.drf.set.topo.isSome = true) (hsrcs : s.flt.srcs = [(n, x)]) (hwas : x.was = some (s.now, old)) :
    s.deblockNow.src n = { x with entry := old, was := none } := by
  have hset : ∀ c : Bool, ((s.setLatch false (s.now + 16)).setBitIf c Reg.FLT_EVT 1).flt.srcs = s.flt.srcs ∧
      ((s.setLatch false (s.now + 16)).setBitIf c Reg.FLT_EVT 1).drf = s.drf ∧
      ((s.setLatch false (s.now + 16)).setBitIf c Reg.FLT_EVT 1).now = s.now := by
    rintro (_ | _) <;> exact ⟨rfl, rfl, rfl⟩
  obtain ⟨hsrcs', hdrf', hnow'⟩ := hset s.flt.latch
  obtain ⟨hflt, hdrf, hnow⟩ := State.awaitDeblock_rest ((s.setLatch false (s.now + 16)).setBitIf s.flt.latch Reg.FLT_EVT 1)
  rw [State.deblockNow]
  generalize State.awaitDeblock _ = u at *
  rw [hdrf'] at hdrf
  have hsingle := State.unclass_single (((congrArg Flt.srcs hflt).trans hsrcs').trans hsrcs) (by rw [hnow, hnow', hwas])
  have hcancel : (u.draftCancel 0x35).flt = u.unclass.flt := by
    unfold State.draftCancel
    extract_lets d holds
    have hpends : d.st = .pending := (congrArg Drf.st hdrf).trans hst
    have hholds : holds = true := (congrArg (fun d : Drf => d.set.topo.isSome) hdrf).trans htopo
    rw [if_pos ⟨.inr hpends, hholds⟩]
    rfl
  rw [State.src_congr (congrArg Flt.srcs hcancel), hsingle, State.src_setSrc_same]

/-- A module ready in DUTY, deblock requested at the boundary that a pending COMMIT names, of a set with a topology and a fault
table. An event of FS0 in this tick has been taken under the entry of that table, whose class is no reaction (R392, R394). -/
def commitTick : State :=
  { sys := { pdOn := 3, ready := true }, twn := { lease := .duty }
    drf := { st := .pending, pendAt := some 0, set := { topo := some {}, flt := some { entries := [{ base := 0 }] } } }
    flt := { srcs := [(0, { entry := { base := 0 }, st := .active, ticks := [0], last := some 0, winCnt := 1, heard := [0],
                            was := some (0, {}) })] } }

/-- The event of FS0 makes the sources of `commitTick` of a collector that has had none. -/
theorem commitTick_srcs : ({ commitTick with flt := {} }.collect 0 0 false).flt.srcs = commitTick.flt.srcs := by decide

end Sys2Proof.Machine

namespace Sys2Proof.Collector

open Sys2Proof.Machine Sys2Proof.Safety

/-- Refutes O39, by its clause that an accepted deblock leaves the sources: in `commitTick` the deblock is accepted and cancels
the set whose COMMIT is due in that tick (R558), so FS0 has its entry of before again. -/
theorem not_injectionAndConverterCommands : ¬ Obligations.InjectionAndConverterCommands := by
  rintro ⟨-, -, -, -, hconv⟩
  have hopen : commitTick.open .flt = true := by decide
  have hok : commitTick.deblockOk = true := by decide
  obtain ⟨hdeblock, -, -⟩ := hconv commitTick hopen
  obtain ⟨t, hexec, -, -, hsrcs, -⟩ := hdeblock hok
  rw [exec_deblock_accepted hopen hok, Host.Outcome.next.injEq] at hexec
  subst hexec
  have hsrc := (State.deblockNow_src (n := 0) rfl rfl rfl rfl).symm.trans (State.src_congr hsrcs 0)
  exact absurd (congrArg Src.was hsrc) (by decide)

end Sys2Proof.Collector
end

section
/-! The Gust recorder: its rows (R431 to R438), the FIRE of the partner (R462, R463), and the effect of an ARM in the tick of a
COMMIT that it cancels (R442, R558). -/

namespace Sys2Proof.Machine

open Sys2Proof.Safety

/-! ## Trace words (R431 to R434) -/

/-- A row that has taken a sample; `again` where that replaced one (R432, R434). -/
def GstPer.stored (r : GstPer) (ch : Nat) (v : BitVec 32) (held again : Bool) : GstPer :=
  { r with row := Sparse.put (fun _ => none) r.row ch (some (v, held)), dup := if again then r.dup + 1 else r.dup }

theorem GstPer.stored_row (r : GstPer) (ch : Nat) (v : BitVec 32) (held again : Bool) :
    Sparse.get (fun _ => none) (r.stored ch v held again).row ch = some (v, held) :=
  Sparse.get_put_same (fun _ => none) r.row ch (some (v, held))

theorem State.gstStore_spec (s : State) (pc : BitVec 32) (ch : Nat) (v : BitVec 32) (held : Bool) :
    (∃ again, (s.gstStore pc ch v held).gst =
      { s.gst with live := s.gst.live.map fun r => if r.pc = pc then r.stored ch v held again else r }) ∧
    regsBut s (s.gstStore pc ch v held) [Reg.GST_CNT_DUP] := by
  unfold State.gstStore
  extract_lets again
  refine ⟨⟨again, ?_⟩, fun a ha => ?_⟩
  · split <;> rfl
  · split
    · exact State.rd_bump_other _ _ a (by simpa using ha)
    · rfl

/-- The open rows after a sample: those of its period hold it, the others are as before (R432). -/
theorem State.mem_gstStore_live {s : State} {pc : BitVec 32} {ch : Nat} {v : BitVec 32} {held : Bool} {r : GstPer}
    (hr : r ∈ (s.gstStore pc ch v held).gst.live) :
    (r.pc = pc ∧ Sparse.get (fun _ => none) r.row ch = some (v, held)) ∨ (r.pc ≠ pc ∧ r ∈ s.gst.live) := by
  obtain ⟨⟨again, hgst⟩, -⟩ := s.gstStore_spec pc ch v held
  rw [hgst] at hr
  obtain ⟨x, hx, rfl⟩ := List.mem_map.mp hr
  split
  · next hpc => exact .inl ⟨hpc, x.stored_row ch v held again⟩
  · next hpc => exact .inr ⟨hpc, hx⟩

/-- A late word counts, and leaves what the rows hold (R432). -/
theorem State.gstLate_spec (s : State) (pc : BitVec 32) :
    (s.gstLate pc).gst.live.map (·.row) = s.gst.live.map (·.row) ∧ (s.gstLate pc).regs = (s.bump Reg.GST_CNT_LATE).regs := by
  unfold State.gstLate
  extract_lets s1 held note
  have hnote : ∀ r : GstPer, (note r).row = r.row := fun r => by
    change (if r.pc = pc then { r with late := r.late + 1 } else r).row = _
    split <;> rfl
  split
  · exact ⟨rfl, rfl⟩
  · exact ⟨by simp [List.map_map, Function.comp_def, hnote, s1], rfl⟩

theorem exec_traceWord_untraced (word : BitVec 64) {s : State} (hpow : s.powered 7 = true)
    (hsrc : s.gstSrc (fieldOf word 16 6) ≠ 1) : exec (.traceWord word) s = .next (s.bump Reg.GST_CNT_LATE) := by
  change execTraceWord word s = _
  simp [execTraceWord, hpow, hsrc]

theorem exec_traceWord_traced (word : BitVec 64) {pc : BitVec 32} {s : State} (hpow : s.powered 7 = true)
    (hcap : s.gst.captures = true) (hsrc : s.gstSrc (fieldOf word 16 6) = 1)
    (hpc : pc = s.tb.pc + BitVec.ofInt 32 (timeDiff (BitVec.ofNat 16 (fieldOf word 0 16)) (s.tb.pc.setWidth 16))) :
    exec (.traceWord word) s = .next (if (s.gst.live.any fun r => r.pc == pc && s.rowOpen r) = true then
        s.gstStore pc (fieldOf word 16 6) (BitVec.ofNat 32 (fieldOf word 32 32)) (word.getLsbD 31)
      else if pcLe pc s.tb.pc = true then s.gstLate pc else s) := by
  change execTraceWord word s = _
  simp [execTraceWord, hpow, hsrc, hcap, hpc]

/-! ## The close and the deadlines of the records (R429, R432, R437, R438) -/

theorem exec_traceRowClose {r : GstPer} {s : State} (h : s.gstClosing = some r) :
    exec .traceRowClose s = .next ((s.advanceTo (s.tickAt 16)).gstClose r) := by
  change execTraceRowClose s = _
  rw [execTraceRowClose, h]

/-- The record of a period was not complete at its deadline: its trace row, or its plane record (R438). -/
def GstPer.faulted (pc : BitVec 32) (trace : Bool) (r : GstPer) : GstPer :=
  if r.pc = pc then (if trace then { r with trFault := true } else { r with plFault := true }) else r

/-- The recorder marks the record of a period and notes WRITE_FAULT (R438). -/
def State.gstFaulted (s : State) (pc : BitVec 32) (trace : Bool) : State :=
  { s with gst := { s.gst with
    live := s.gst.live.map (GstPer.faulted pc trace), hist := s.gst.hist.map (GstPer.faulted pc trace) } }.setBit Reg.GST_EVT 9

theorem State.gstFaulted_bit (s : State) (pc : BitVec 32) (trace : Bool) : (s.gstFaulted pc trace).bitOf Reg.GST_EVT 9 = true :=
  State.bitOf_setBit_same _ _ (by decide)

theorem State.gstFaulted_regsBut (s : State) (pc : BitVec 32) (trace : Bool) : regsBut s (s.gstFaulted pc trace) [Reg.GST_EVT] :=
  fun a ha => State.rd_setBit_other _ _ a _ (by simpa using ha)

theorem exec_recordDeadline {trace : Bool} {pc : BitVec 32} {s : State} (hpc : pc = if trace then s.tb.pc - 2 else s.tb.pc - 1)
    (hfind : (s.gst.find pc).isSome = true) (hon : trace = true ∨ s.gst.planeOn = true) :
    exec (.recordDeadline trace) s = .next ((s.gstFaulted pc trace).raise 240) := by
  obtain ⟨r, hr⟩ := Option.isSome_iff_exists.mp hfind
  change execRecordDeadline trace s = _
  simp only [execRecordDeadline, ← hpc, hr]
  exact if_neg fun ⟨htrace, hplane⟩ => by simp [htrace, hplane] at hon

/-! ## FIRE of the partner (R462, R463) -/

theorem State.gstRemoteFire_armed {s : State} (hst : s.gst.st = .armed) (hhold : s.gstHoldoff = false) (t : BitVec 32)
    (vt : BitVec 64) : s.gstRemoteFire t vt = s.gstTrigger t vt 0x21
      (if pcLe (t + BitVec.ofNat 32 s.gstPost) s.gstNewest = true then s.gstNewest else t + BitVec.ofNat 32 s.gstPost) true := by
  simp only [State.gstRemoteFire, hst, hhold, Bool.false_eq_true, if_false]

theorem State.gstRemoteFire_earlier {s : State} {t old : BitVec 32} (hst : s.gst.st = .triggered) (htrig : s.gst.trig = some old)
    (hne : t ≠ old) (hle : pcLe t old = true) (vt : BitVec 64) : s.gstRemoteFire t vt = s.gstTrigger t vt 0x21
      (if pcLe (t + BitVec.ofNat 32 s.gstPost) s.gstNewest = true then s.gstNewest else t + BitVec.ofNat 32 s.gstPost) true := by
  simp only [State.gstRemoteFire, hst, htrig]
  exact if_pos ⟨hne, hle⟩

theorem Gst.captures_iff (g : Gst) : g.captures = true ↔ g.st = .armed ∨ g.st = .triggered := by simp [Gst.captures]

section
variable {vt : BitVec 64} {s : State} (hopen : s.open .gst = true) (hshare : s.gstShareRx = true) (htwin : s.twinEn = true)
include hopen hshare htwin

theorem exec_gustFireReceive_named {q : BitVec 32 × BitVec 64} (hq : s.gstNamed vt = some q) (hcap : s.gst.captures = true) :
    exec (.gustFireReceive vt) s = .next (s.gstRemoteFire q.1 q.2) := by
  change execGustFireReceive vt s = _
  simp [execGustFireReceive, hopen, hshare, htwin, hq, hcap]

theorem exec_gustFireReceive_older {q : BitVec 32 × BitVec 64} (hnamed : s.gstNamed vt = none) (hq : s.gstOlder vt = some q)
    (hst : s.gst.st = .triggered) : exec (.gustFireReceive vt) s = .next (s.gstRemoteFire q.1 q.2) := by
  change execGustFireReceive vt s = _
  simp [execGustFireReceive, hopen, hshare, htwin, hnamed, hq, hst]

theorem exec_gustFireReceive_ignored (hnamed : s.gstNamed vt = none) (h : s.gstOlder vt = none ∨ s.gst.st ≠ .triggered) :
    exec (.gustFireReceive vt) s = .next (s.setBit Reg.GST_EVT 8) := by
  change execGustFireReceive vt s = _
  cases holder : s.gstOlder vt with
  | none => simp [execGustFireReceive, hopen, hshare, htwin, hnamed, holder]
  | some q =>
    have hst : s.gst.st ≠ .triggered := h.resolve_left (by simp [holder])
    simp [execGustFireReceive, hopen, hshare, htwin, hnamed, holder, hst]

end

/-! ## An ARM takes effect (R442, R558) -/

theorem exec_gustArmEffect {pc : BitVec 32} {s : State} (harm : s.gst.armAt = some pc) (hrun : s.tb.run = true)
    (hpc : pc ≠ s.tb.pc) (hin : s.inPer = 0) : exec .gustArmEffect s =
      .next ((({ s with gst := s.gstFresh }.setBit Reg.GST_EVT 0).clearAll
        [Reg.GST_TRIG_PC, Reg.GST_TRIG_VT_LO, Reg.GST_TRIG_VT_HI, Reg.GST_TRIG_SRC]).draftCancel 0x36) := by
  change execGustArmEffect s = _
  simp [execGustArmEffect, harm, hrun, hpc, hin]

/-- A set that waits and holds a recorder setup is cancelled, and with it the entries that its COMMIT brought (R392, R558). -/
theorem State.draftCancel_recs_flt {s : State} (hst : s.drf.st = .pending) (hrecs : s.drf.set.recs.isSome = true) :
    (s.draftCancel 0x36).flt = s.unclass.flt := by
  unfold State.draftCancel
  extract_lets d holds
  rw [if_pos ⟨.inr hst, hrecs⟩]
  rfl

/-- Where one source alone is listed and has taken an entry of that COMMIT, it has the one before again (R392). -/
theorem State.draftCancel_recs_src {s : State} {n : Nat} {x : Src} {old : FltEntry} (hst : s.drf.st = .pending)
    (hrecs : s.drf.set.recs.isSome = true) (hsrcs : s.flt.srcs = [(n, x)]) (hwas : x.was = some (s.now, old)) :
    (s.draftCancel 0x36).src n = { x with entry := old, was := none } := by
  rw [State.src_congr (congrArg Flt.srcs (State.draftCancel_recs_flt hst hrecs)), State.unclass_single hsrcs hwas,
    State.src_setSrc_same]

/-- The first tick of period 1, with an ARM accepted in the period before. A COMMIT named this boundary for a set with a recorder
setup and a fault table, and the event of FS0 that `commitTick` holds has been taken under the entry of that table (R392). -/
def armEffectTick : State :=
  { commitTick with
    sys := { pdOn := 0x83 }, tb := { run := true, placed := true, pc := 1, period := 400, nextB := 400 }
    drf := { st := .pending, pendAt := some 1, set := { recs := some [], flt := some { entries := [{ base := 0 }] } } }
    gst := { armAt := some 0 } }

/-- The event of FS0 makes the sources of `armEffectTick` of a collector that has had none. -/
theorem armEffectTick_srcs : ({ armEffectTick with flt := {} }.collect 0 0 false).flt.srcs = armEffectTick.flt.srcs := by decide

end Sys2Proof.Machine

namespace Sys2Proof.Recorder

open Sys2Proof.Machine Sys2Proof.Safety

/-- Refutes O40, by its clause that an ARM's effect leaves the collector: in `armEffectTick` the recorder leaves IDLE, which
cancels the set whose COMMIT is due in that tick (R558), so FS0 has its entry of before again (R392). -/
theorem not_gustCommands : ¬ Obligations.GustCommands := by
  rintro ⟨-, heffect, -⟩
  have hexec := exec_gustArmEffect (pc := 0) (s := armEffectTick) rfl rfl (by decide) (by decide)
  obtain ⟨t, ht, -, -, -, -, -, -, -, hflt⟩ := heffect 0 armEffectTick rfl rfl (by decide) (by decide)
  rw [hexec, Host.Outcome.next.injEq] at ht
  subst ht
  have hsrc := (State.draftCancel_recs_src (n := 0) rfl rfl rfl rfl).symm.trans (State.src_congr (congrArg Flt.srcs hflt) 0)
  exact absurd (congrArg Src.was hsrc) (by decide)

/-- Settles O41: the row of the word's period takes it or counts it as late, a deadline marks the record of its period, and a FIRE
acts by the period it names and the recorder's state. -/
theorem gustRowsFillAndClose : Obligations.GustRowsFillAndClose := by
  refine ⟨fun word s hpow hsrc => exec_traceWord_untraced word hpow hsrc, fun word pc s hpow hcap hpc =>
    ⟨fun hsrc hrow => ?_, fun hsrc hrow hle => ?_⟩, fun r s h => exec_traceRowClose h, fun pc s =>
    ⟨fun hpc hfind => ?_, fun hpc hfind hon => ?_⟩, fun vt s hopen hshare htwin =>
    ⟨fun q hq hst hhold => ?_, fun q old hq hst htrig hne hle => ?_, fun hnamed h => ?_⟩⟩
  · obtain ⟨⟨_, hgst⟩, hregs⟩ := s.gstStore_spec pc (fieldOf word 16 6) (BitVec.ofNat 32 (fieldOf word 32 32)) (word.getLsbD 31)
    refine ⟨_, (exec_traceWord_traced word hpow hcap hsrc hpc).trans (congrArg _ (if_pos hrow)), fun r hr hrpc => ?_,
      fun r hr hrpc => ?_, by rw [hgst], hregs⟩
    · exact ((State.mem_gstStore_live hr).resolve_right fun h => h.1 hrpc).2
    · exact ((State.mem_gstStore_live hr).resolve_left fun h => hrpc h.1).2
  · obtain ⟨hrows, hregs⟩ := s.gstLate_spec pc
    have hrd : ∀ a, (s.gstLate pc).rd a = (s.bump Reg.GST_CNT_LATE).rd a := fun a => by rw [State.rd, hregs, State.rd]
    refine ⟨_, (exec_traceWord_traced word hpow hcap hsrc hpc).trans (congrArg _ ((if_neg (by simp [hrow])).trans (if_pos hle))),
      hrows, fun a ha => ?_, ?_⟩
    · rw [hrd, State.rd_bump_other _ _ _ (by simpa using ha)]
    · rw [State.rdNat, hrd, ← State.rdNat, State.rdNat_bump]
  · exact ⟨s.gstFaulted pc true, rfl, rfl, s.gstFaulted_bit pc true, s.gstFaulted_regsBut pc true,
      exec_recordDeadline hpc hfind (.inl rfl)⟩
  · exact ⟨s.gstFaulted pc false, rfl, rfl, s.gstFaulted_bit pc false, s.gstFaulted_regsBut pc false,
      exec_recordDeadline hpc hfind (.inr hon)⟩
  · rw [exec_gustFireReceive_named hopen hshare htwin hq ((Gst.captures_iff _).mpr (.inl hst)), State.gstRemoteFire_armed hst hhold]
  · have hfire : exec (.gustFireReceive vt) s = .next (s.gstRemoteFire q.1 q.2) := by
      obtain hq | ⟨hnamed, hq⟩ := hq
      · exact exec_gustFireReceive_named hopen hshare htwin hq ((Gst.captures_iff _).mpr (.inr hst))
      · exact exec_gustFireReceive_older hopen hshare htwin hnamed hq hst
    rw [hfire, State.gstRemoteFire_earlier hst htrig hne hle]
  · exact exec_gustFireReceive_ignored hopen hshare htwin hnamed h

end Sys2Proof.Recorder
end

section
/-! The twin's shared operations (R469 to R516): what a message in or out, a change of the lease state, the power of the engines and
passing time change, and what they leave as it was. One rule for each. -/

namespace Sys2Proof.Machine

open Sys2Proof.Safety

/-! ## Time -/

/-- Everything that moving time on does: VT, the reference and network time go on. -/
theorem State.advanceTo_eq (s : State) (t : BitVec 64) : ∃ v u x,
    s.advanceTo t = { s with tb := { s.tb with vt := v }, sys := { s.sys with up := u }, net := x } := by
  cases h : s.powered 9 <;> simp only [State.advanceTo, State.elapse, h]
  · exact ⟨_, _, _, rfl⟩
  · exact ⟨_, _, _, rfl⟩

theorem State.dueAgain_eq (s : State) (last : Option (BitVec 64)) (n : Nat) : ∃ v u x,
    s.dueAgain last n = { s with tb := { s.tb with vt := v }, sys := { s.sys with up := u }, net := x } := by
  cases last with
  | none => exact ⟨_, _, _, rfl⟩
  | some t => exact s.advanceTo_eq _

/-- Once VT counts, time moves on to the tick named where that lies ahead. -/
theorem State.now_advanceTo {s : State} (h : s.sys.going = true) (t : BitVec 64) :
    (s.advanceTo t).now = if 0 ≤ timeDiff t s.now then t else s.now := by
  obtain ⟨-, hvt, hrest, -⟩ := s.elapse_spec (ahead s.now t)
  have htwn : (s.elapse (ahead s.now t)).twn = s.twn := (congrArg State.twn hrest :)
  have hnow : (s.advanceTo t).now = s.now + BitVec.ofNat 64 (ahead s.now t) := by
    rw [State.advanceTo, State.now, hvt, if_pos h, htwn, State.now, add_right_comm]
  rw [hnow, ahead, timeDiff]
  split
  · next hpos =>
    have hdiff : BitVec.ofNat 64 (t - s.now).toInt.toNat = t - s.now := by
      rw [← BitVec.ofInt_natCast, Int.toNat_of_nonneg hpos, BitVec.ofInt_toInt]
    rw [hdiff, add_sub_cancel]
  · next hneg =>
    rw [Int.toNat_of_nonpos (not_le.mp hneg).le]
    exact BitVec.add_zero _

/-! ## Messages and transfers to the partner (R478 to R482) -/

theorem State.lineNote_x13 (s : State) : ∃ l, s.lineNote 12 = { s with twn := { s.twn with line := l } } := by
  unfold State.lineNote
  extract_lets x
  split
  · exact ⟨_, rfl⟩
  · exact ⟨_, rfl⟩

/-- Everything that taking up a transfer does. -/
theorem State.startXfer_eq (s : State) (f : Option Xfer) : ∃ l,
    s.startXfer f = { s with twn := { s.twn with xfer := f, line := l } } := by
  obtain ⟨l, h⟩ := s.lineNote_x13
  exact ⟨_, by rw [State.startXfer, h]⟩

/-- Everything that sending a message does: it is the latest sent, and a GUST block may go later. -/
theorem State.putMsg_eq (s : State) (m : TwMsg) : ∃ l g,
    s.putMsg m = { s with twn := { s.twn with
      line := l, gust := g, sent := (m :: s.twn.sent).take 16, msgSeq := s.twn.msgSeq + 1 } } := by
  obtain ⟨l, h⟩ := s.lineNote_x13
  exact ⟨_, _, by rw [State.putMsg, h]⟩

theorem State.sendMsg_eq (s : State) (op : BitVec 8) (arg : BitVec 64) : ∃ l g,
    s.sendMsg op arg = { s with twn := { s.twn with
      line := l, gust := g, sent := (s.mkMsg op arg s.msgSlot :: s.twn.sent).take 16, msgSeq := s.twn.msgSeq + 1 } } :=
  s.putMsg_eq _

/-! ## A message of the partner (R475, R480, R482) -/

/-- A message taken changes the phase measured, its register and the number of the next free value. -/
theorem State.msgTake_eq (s : State) (m : TwMsgIn) : ∃ r n ok,
    s.msgTake m = { s with regs := r, free := n, twn := { s.twn with phaseOk := ok } } ∧
      ∀ a, a ≠ Reg.TWN_PHASE → (s.msgTake m).rd a = s.rd a := by
  unfold State.msgTake
  split
  · exact ⟨_, _, _, rfl, fun a _ => rfl⟩
  · exact ⟨_, _, _, rfl, fun a ha => State.rd_wr_other _ _ _ _ ha⟩

theorem State.onMsg_taken {s : State} {m : TwMsgIn} (hup : s.twinUp = true) (hpair : pairOk m.epoch m.epochC = true)
    (f : State → State) : s.onMsg m f = .next (f (s.msgTake m)) := by
  simp [State.onMsg, hup, hpair]

/-! ## The lease state (R495) -/

/-- Everything that a change of the lease state does. -/
theorem State.setLease_eq {s : State} {l : LeaseSt} (h : s.twn.lease ≠ l) : ∃ ln b,
    s.setLease l = State.setBit { s with twn := { s.twn with xfer := none, line := ln, lease := l, firstEmit := b } } Reg.TWN_EVT 0 := by
  obtain ⟨ln, hx⟩ := s.startXfer_eq none
  exact ⟨ln, _, by rw [State.setLease, if_neg h, hx]⟩

/-- What putting the lease state does, where the module may be in it already. -/
theorem State.setLease_spec (s : State) (l : LeaseSt) :
    (∃ x ln b, (s.setLease l).twn = { s.twn with xfer := x, line := ln, lease := l, firstEmit := b }) ∧
      { s.setLease l with twn := s.twn, regs := s.regs, setAt := s.setAt } = s ∧ regsBut s (s.setLease l) [Reg.TWN_EVT] := by
  by_cases h : s.twn.lease = l
  · rw [State.setLease, if_pos h]
    exact ⟨⟨_, _, _, by rw [← h]⟩, rfl, fun _ _ => rfl⟩
  · obtain ⟨ln, b, hl⟩ := State.setLease_eq h
    rw [hl]
    exact ⟨⟨_, _, _, rfl⟩, rfl, fun a ha => State.rd_setBit_other _ _ _ _ (by simpa using ha)⟩

/-- An event of the twin that shows stays. -/
theorem State.bitOf_setLease {s : State} {i : Nat} (l : LeaseSt) (hi : i < 32) (h : s.bitOf Reg.TWN_EVT i = true) :
    (s.setLease l).bitOf Reg.TWN_EVT i = true := by
  by_cases hl : s.twn.lease = l
  · rwa [State.setLease, if_pos hl]
  · obtain ⟨ln, b, hset⟩ := State.setLease_eq hl
    rw [hset, State.bitOf_setBit _ _ _ _ hi]
    exact Bool.or_eq_true_iff.mpr (.inl h)

/-! ## Loops -/

/-- What no turn of a loop changes, the loop does not. -/
theorem State.foldl_view {α β : Type} (v : State → β) (f : State → α → State) (h : ∀ (t : State) (a : α), v (f t a) = v t)
    (l : List α) (s : State) : v (l.foldl f s) = v s := by
  induction l generalizing s with
  | nil => rfl
  | cons a r ih => exact (ih (f s a)).trans (h s a)

/-- From `s` to `t` the arm ports alone have changed. -/
def State.PortsMoved (s t : State) : Prop := ∃ p, t = { s with ports := p }

theorem State.PortsMoved.refl (s : State) : s.PortsMoved s := ⟨s.ports, rfl⟩

theorem State.PortsMoved.foldl {α : Type} (f : State → α → State) (h : ∀ (t : State) (a : α), t.PortsMoved (f t a)) (l : List α)
    (s : State) :
    s.PortsMoved (l.foldl f s) := by
  induction l generalizing s with
  | nil => exact .refl s
  | cons a r ih =>
    obtain ⟨p, hp⟩ := h s a
    obtain ⟨q, hq⟩ := ih (f s a)
    exact ⟨q, by rw [List.foldl_cons, hq, hp]⟩

theorem State.calStart_portsMoved (s : State) (n : Nat) : s.PortsMoved (s.calStart n) := by
  unfold State.calStart
  extract_lets x
  split <;> exact ⟨_, rfl⟩

theorem State.startTrees_portsMoved (s : State) : s.PortsMoved s.startTrees := by
  refine .foldl _ (fun t n => ?_) _ s
  split
  · exact t.calStart_portsMoved n
  · exact .refl t

theorem State.stopFrames_portsMoved (s : State) : s.PortsMoved s.stopFrames := .foldl _ (fun _ _ => ⟨_, rfl⟩) _ s

/-! ## LEASE messages (R489, R490, R493) -/

/-- A LEASE message: RENEW, QUERY or CLAIM, with its epoch where it names one. -/
def leaseMsg (kind : Nat) (epoch : Option (BitVec 16)) : Ctrl :=
  { ownCtrl 0x09 allDevices (BitVec.ofNat 64 (kind * 2 ^ 62)) with epoch := epoch }

/-- One port's share of a LEASE message. -/
def State.leaseTo (kind : Nat) (epoch : Option (BitVec 16)) (s : State) (n : Nat) : State :=
  if (s.lane n).inData then s.queueCtrl n (leaseMsg kind epoch) else s

theorem State.sendLease_eq (s : State) (kind : Nat) (epoch : Option (BitVec 16)) :
    s.sendLease kind epoch = s.portsUsed.foldl (State.leaseTo kind epoch) s := rfl

theorem State.leaseTo_portsMoved (kind : Nat) (epoch : Option (BitVec 16)) (s : State) (n : Nat) :
    s.PortsMoved (s.leaseTo kind epoch n) := by
  unfold State.leaseTo
  split
  · exact ⟨_, rfl⟩
  · exact .refl s

theorem State.sendLease_portsMoved (s : State) (kind : Nat) (epoch : Option (BitVec 16)) :
    s.PortsMoved (s.sendLease kind epoch) := .foldl _ (State.leaseTo_portsMoved kind epoch) _ s

theorem State.port_leaseTo_other (kind : Nat) (epoch : Option (BitVec 16)) (s : State) {n m : Nat} (h : m ≠ n) :
    (s.leaseTo kind epoch n).port m = s.port m := by
  unfold State.leaseTo
  split
  · exact State.port_setPort_other _ _ _ _ h
  · rfl

theorem State.port_leaseTo_same (kind : Nat) (epoch : Option (BitVec 16)) {s : State} {n : Nat} (h : (s.lane n).inData = true) :
    ((s.leaseTo kind epoch n).port n).ctrl = (s.port n).ctrl ++ [leaseMsg kind epoch] := by
  rw [State.leaseTo, if_pos h, State.queueCtrl, State.port_setPort_same]

theorem State.mem_portsUsed {s : State} {n : Nat} : n ∈ s.portsUsed ↔ n < 12 ∧ s.inUse n = true := by
  rw [State.portsUsed, List.mem_filter, List.mem_range]

/-- On each port of the list that is in DATA the message joins those that wait. -/
theorem State.port_foldl_leaseTo (kind : Nat) (epoch : Option (BitVec 16)) {n : Nat} (l : List Nat) (s : State)
    (hl : l.Nodup) (h : (s.lane n).inData = true) : ((l.foldl (State.leaseTo kind epoch) s).port n).ctrl =
      if n ∈ l then (s.port n).ctrl ++ [leaseMsg kind epoch] else (s.port n).ctrl := by
  induction l generalizing s with
  | nil => rfl
  | cons a r ih =>
    obtain ⟨ha, hr⟩ := List.nodup_cons.mp hl
    have hlane : ((s.leaseTo kind epoch a).lane n).inData = true := by
      obtain ⟨p, hp⟩ := State.leaseTo_portsMoved kind epoch s a
      rw [hp]
      exact h
    rw [List.foldl_cons, ih _ hr hlane]
    by_cases hn : n = a
    · subst hn
      rw [if_neg ha, if_pos List.mem_cons_self, State.port_leaseTo_same _ _ h]
    · rw [State.port_leaseTo_other _ _ _ hn]
      simp [hn]

/-- A LEASE message waits to go out on a port in use and in DATA. -/
theorem State.port_sendLease {s : State} (kind : Nat) (epoch : Option (BitVec 16)) {p : Fin 12} (huse : s.inUse p = true)
    (hdata : (s.lane p).inData = true) :
    ((s.sendLease kind epoch).port p).ctrl = (s.port p).ctrl ++ [leaseMsg kind epoch] := by
  have hnodup : s.portsUsed.Nodup := List.nodup_range.filter _
  rw [State.sendLease_eq, State.port_foldl_leaseTo _ _ _ _ hnodup hdata,
    if_pos (State.mem_portsUsed.mpr ⟨p.isLt, huse⟩)]

end Sys2Proof.Machine
end

section
/-! The power of the engines (R495, R499, R502), the epoch (R491 to R493), the module's health (R496, R497) and the end of a claim
that fails (R505): what each changes of the twin and of the registers, and what it leaves. -/

namespace Sys2Proof.Machine

open Sys2Proof.Safety

/-! ## The engines' domains (R63, R66, R858, R859) -/

/-- Is a domain one of the engines'? (R63) -/
def isEngine (d : Nat) : Prop := d = 2 ∨ d = 3 ∨ d = 4

/-- Does an address lie outside the windows of the engines? (R857) -/
def outsideEngines (a : Nat) : Prop := ∀ b ∈ domainBlks 2 ++ domainBlks 3 ++ domainBlks 4, a < b.range.1 ∨ b.range.2 ≤ a

theorem outsideEngines_of_lt {a : Nat} (h : a < 0x20400000) : outsideEngines a := by
  have hlow : ∀ b ∈ domainBlks 2 ++ domainBlks 3 ++ domainBlks 4, 0x20400000 ≤ b.range.1 := by decide
  exact fun b hb => .inl (h.trans_le (hlow b hb))

theorem outsideEngines.outside {a d : Nat} (h : outsideEngines a) (hd : isEngine d) :
    ∀ b ∈ domainBlks d, a < b.range.1 ∨ b.range.2 ≤ a := fun b hb => by
  refine h b ?_
  rcases hd with rfl | rfl | rfl <;> simp [hb]

theorem State.rd_resetWindows {a : Nat} (l : List Blk) (s : State) (h : ∀ b ∈ l, a < b.range.1 ∨ b.range.2 ≤ a) :
    (l.foldl State.resetWindow s).rd a = s.rd a := by
  induction l generalizing s with
  | nil => rfl
  | cons b r ih =>
    obtain ⟨hb, hr⟩ := List.forall_mem_cons.mp h
    exact (ih _ hr).trans (Sparse.get_clearRange_other _ _ hb)

/-- What the engines' power changes is neither the twin nor what else decides about power, and no register outside their
windows. -/
structure State.EnginesOnly (s t : State) : Prop where
  twn : t.twn = s.twn
  cfg : t.sys.cfg = s.sys.cfg
  mayPower : t.mayPower = s.mayPower
  rd : ∀ a, outsideEngines a → t.rd a = s.rd a

theorem State.EnginesOnly.refl (s : State) : s.EnginesOnly s := ⟨rfl, rfl, rfl, fun _ _ => rfl⟩

theorem State.EnginesOnly.trans {s t u : State} (h : s.EnginesOnly t) (k : t.EnginesOnly u) : s.EnginesOnly u :=
  ⟨k.twn.trans h.twn, k.cfg.trans h.cfg, k.mayPower.trans h.mayPower, fun a ha => (k.rd a ha).trans (h.rd a ha)⟩

/-- A domain whose blocks have lost their state and registers. -/
def State.emptied (s : State) (d : Nat) : State := (domainBlks d).foldl State.resetWindow (s.loseBlocks d)

theorem State.emptied_eq (s : State) {d : Nat} (hd : isEngine d) : ∃ r h as ls x,
    s.emptied d = { s with regs := r, held := h, aes := as, les := ls, isl := x } ∧
      ∀ a, outsideEngines a → (s.emptied d).rd a = s.rd a := by
  have hlose : (s.loseBlocks d).regs = s.regs := by rcases hd with rfl | rfl | rfl <;> rfl
  have hrd : ∀ a, outsideEngines a → (s.emptied d).rd a = s.rd a := fun a ha =>
    (State.rd_resetWindows _ _ (ha.outside hd)).trans (by rw [State.rd, hlose, State.rd])
  rcases hd with rfl | rfl | rfl <;> exact ⟨_, _, _, _, _, rfl, hrd⟩

theorem getLsbD_domainBit {d : Nat} (hd : isEngine d) (e : Nat) : ((1 : BitVec 14) <<< d).getLsbD e = decide (d = e) := by
  have hlt : d < 14 := by rcases hd with rfl | rfl | rfl <;> decide
  exact (BitVec.getLsbD_twoPow d e).trans (by simp [hlt])

/-- Everything that switching on an engines' domain does that was off. -/
theorem State.domainOn_eq {s : State} {d : Nat} (hd : isEngine d) (hoff : s.powered d = false) (hmay : s.mayPower = true) :
    ∃ c, s.domainOn d = { s.emptied d with
      sys := { (s.emptied d).sys with pdOn := (s.emptied d).sys.pdOn ||| ((1 : BitVec 14) <<< d) }
      tb := { (s.emptied d).tb with chans := c } } := by
  have hlanes : lanesOf d = [] := by rcases hd with rfl | rfl | rfl <;> rfl
  have hmem : d ≠ 8 := by rcases hd with rfl | rfl | rfl <;> decide
  simp only [State.domainOn, hoff, hmay, hlanes, List.foldl_nil, if_neg hmem]
  exact ⟨_, rfl⟩

/-- A domain that is on, or that may not be switched on, stays as it is. -/
theorem State.domainOn_rests {s : State} {d : Nat} (h : s.powered d = true ∨ s.mayPower = false) : s.domainOn d = s := if_pos h

theorem State.domainOn_enginesOnly (s : State) {d : Nat} (hd : isEngine d) : s.EnginesOnly (s.domainOn d) := by
  by_cases h : s.powered d = true ∨ s.mayPower = false
  · rw [State.domainOn_rests h]
    exact .refl s
  · simp only [not_or, Bool.not_eq_true, Bool.not_eq_false] at h
    obtain ⟨r, hl, as, ls, x, hs, hrd⟩ := s.emptied_eq hd
    obtain ⟨c, hon⟩ := State.domainOn_eq hd h.1 h.2
    have hone : (s.sys.pdOn ||| ((1 : BitVec 14) <<< d)).getLsbD 1 = s.sys.pdOn.getLsbD 1 := by
      have hd1 : d ≠ 1 := by rcases hd with rfl | rfl | rfl <;> decide
      simp only [BitVec.getLsbD_or, getLsbD_domainBit hd, hd1, decide_false, Bool.or_false]
    rw [hon]
    refine ⟨by rw [hs], by rw [hs], ?_, hrd⟩
    simp only [hs, State.mayPower, State.powered, hone]

theorem State.powered_domainOn (s : State) {d : Nat} (hd : isEngine d) (e : Nat) :
    (s.domainOn d).powered e = (s.powered e || (s.mayPower && decide (d = e))) := by
  by_cases h : s.powered d = true ∨ s.mayPower = false
  · rw [State.domainOn_rests h]
    by_cases he : d = e
    · subst he
      rcases h with h | h <;> simp [h]
    · simp [he]
  · simp only [not_or, Bool.not_eq_true, Bool.not_eq_false] at h
    obtain ⟨r, hl, as, ls, x, hs, -⟩ := s.emptied_eq hd
    obtain ⟨c, hon⟩ := State.domainOn_eq hd h.1 h.2
    rw [hon, h.2, Bool.true_and, ← getLsbD_domainBit hd e, State.powered, hs]
    exact BitVec.getLsbD_or

/-- A domain that the image uses is switched on (R502, R578). -/
def State.useDomain (s : State) (d : Nat) : State := if s.sys.cfg.dev.pdUse.getLsbD d then s.domainOn d else s

theorem State.enginesSwitch_eq (s : State) : s.enginesSwitch = ((s.useDomain 2).useDomain 3).useDomain 4 := rfl

theorem State.useDomain_enginesOnly (s : State) {d : Nat} (hd : isEngine d) : s.EnginesOnly (s.useDomain d) := by
  unfold State.useDomain
  split
  · exact s.domainOn_enginesOnly hd
  · exact .refl s

theorem State.powered_useDomain (s : State) {d : Nat} (hd : isEngine d) (e : Nat) : (s.useDomain d).powered e =
    (s.powered e || (s.sys.cfg.dev.pdUse.getLsbD d && s.mayPower && decide (d = e))) := by
  unfold State.useDomain
  split
  · next h => rw [s.powered_domainOn hd, h, Bool.true_and]
  · next h => simp [h]

/-- What switching on the engines' domains that the image uses does, and leaves. -/
theorem State.enginesSwitch_spec (s : State) : s.EnginesOnly s.enginesSwitch ∧
    (s.mayPower = true → ∀ d, d ∈ [2, 3, 4] → s.sys.cfg.dev.pdUse.getLsbD d = true → s.enginesSwitch.powered d = true) := by
  have h2 := s.useDomain_enginesOnly (.inl rfl)
  have h3 := h2.trans (State.useDomain_enginesOnly _ (.inr (.inl rfl)))
  have h4 := h3.trans (State.useDomain_enginesOnly _ (.inr (.inr rfl)))
  rw [State.enginesSwitch_eq]
  refine ⟨h4, fun hmay d hd huse => ?_⟩
  rw [State.powered_useDomain _ (.inr (.inr rfl)), State.powered_useDomain _ (.inr (.inl rfl)),
    State.powered_useDomain _ (.inl rfl), h3.cfg, h3.mayPower, h2.cfg, h2.mayPower, hmay]
  simp only [List.mem_cons, List.not_mem_nil, or_false] at hd
  rcases hd with rfl | rfl | rfl <;> simp [huse]

/-! ## The engines lose power (R495, R499) -/

theorem State.domainOff_eq (s : State) (d : Nat) : s.domainOff d = s ∧ s.powered d = false ∨ ∃ c p q,
    s.domainOff d = { s.emptied d with
      sys := { (s.emptied d).sys with pdOn := (s.emptied d).sys.pdOn &&& ~~~ ((1 : BitVec 14) <<< d), rail := p, loaded := q }
      tb := c } := by
  unfold State.domainOff
  split
  · exact .inr ⟨_, _, _, rfl⟩
  · next h => exact .inl ⟨rfl, by simpa using h⟩

/-- Switching off an engines' domain leaves the twin and every register outside the engines' windows; it turns no other domain
on. -/
theorem State.domainOff_engine (s : State) {d : Nat} (hd : isEngine d) : (s.domainOff d).twn = s.twn ∧
    (∀ a, outsideEngines a → (s.domainOff d).rd a = s.rd a) ∧
    ∀ e, (s.domainOff d).powered e = (s.powered e && !decide (d = e)) := by
  obtain ⟨r, hl, as, ls, x, hs, hrd⟩ := s.emptied_eq hd
  obtain ⟨hoff, hp⟩ | ⟨c, p, q, hoff⟩ := s.domainOff_eq d
  · rw [hoff]
    refine ⟨rfl, fun _ _ => rfl, fun e => ?_⟩
    by_cases he : d = e
    · simp [← he, hp]
    · simp [he]
  · rw [hoff]
    refine ⟨by rw [hs], hrd, fun e => ?_⟩
    rw [State.powered, hs]
    change (s.sys.pdOn &&& _).getLsbD e = (s.sys.pdOn.getLsbD e && _)
    rw [BitVec.getLsbD_and, BitVec.getLsbD_not, getLsbD_domainBit hd]
    by_cases he : e < 14
    · simp [he]
    · simp [BitVec.getLsbD_of_ge _ _ (Nat.le_of_not_lt he)]

theorem State.enginesOff_spec (s : State) : s.enginesOff.twn = s.twn ∧
    (∀ a, outsideEngines a → s.enginesOff.rd a = s.rd a) ∧ s.enginesOff.powered 2 = false := by
  obtain ⟨htwn2, hrd2, hon2⟩ := s.domainOff_engine (d := 2) (.inl rfl)
  obtain ⟨htwn3, hrd3, hon3⟩ := (s.domainOff 2).domainOff_engine (d := 3) (.inr (.inl rfl))
  obtain ⟨htwn4, hrd4, hon4⟩ := ((s.domainOff 2).domainOff 3).domainOff_engine (d := 4) (.inr (.inr rfl))
  unfold State.enginesOff
  exact ⟨htwn4.trans (htwn3.trans htwn2), fun a ha => (hrd4 a ha).trans ((hrd3 a ha).trans (hrd2 a ha)),
    by simp [hon4, hon3, hon2]⟩

/-! ## The epoch (R491 to R493, R515) -/

theorem State.epoch_wrPair (s : State) (e m : BitVec 16) :
    (s.wrPair Reg.TWN_EPOCH (BitVec.ofNat 32 (m.toNat * 65536 + e.toNat))).epoch = e := by
  obtain ⟨hval, hcomp⟩ := State.rd_wrPair_same s Reg.TWN_EPOCH (BitVec.ofNat 32 (m.toNat * 65536 + e.toNat))
  have hword : (BitVec.ofNat 32 (m.toNat * 65536 + e.toNat)).setWidth 16 = e := by
    apply BitVec.eq_of_toNat_eq
    simp only [BitVec.toNat_setWidth, BitVec.toNat_ofNat]
    omega
  simp only [State.epoch, State.paired, hval, hcomp, if_pos, hword]

/-- What putting the epoch does: the epoch register and the key's copy take it. -/
theorem State.setEpochs_spec (s : State) (e m : BitVec 16) : (s.setEpochs e m).epoch = e ∧ (s.setEpochs e m).key.epoch = e ∧
    { s.setEpochs e m with regs := s.regs, key := s.key } = s := by
  unfold State.setEpochs
  split
  · next h => exact ⟨State.epoch_wrPair _ e m, h, rfl⟩
  · exact ⟨State.epoch_wrPair _ e m, rfl, rfl⟩

/-- Everything that learning an epoch does, and that an epoch not known, or a later one, is the epoch in effect afterwards. -/
theorem State.learnEpoch_spec (s : State) (e : BitVec 16) :
    (∃ r k b, s.learnEpoch e = { s with regs := r, key := k, twn := { s.twn with epochKnown := b } }) ∧
      ((s.twn.epochKnown = false ∨ 0 < timeDiff e s.epoch) →
        (s.learnEpoch e).epoch = e ∧ (s.learnEpoch e).twn.epochKnown = true) := by
  obtain ⟨hepoch, -, hrest⟩ := s.setEpochs_spec e s.eMax
  have hset : s.setEpochs e s.eMax =
      { s with regs := (s.setEpochs e s.eMax).regs, key := (s.setEpochs e s.eMax).key } :=
    (congrArg (fun u : State => { u with regs := (s.setEpochs e s.eMax).regs, key := (s.setEpochs e s.eMax).key }) hrest :)
  have htwn : (s.setEpochs e s.eMax).twn = s.twn := (congrArg State.twn hrest :)
  unfold State.learnEpoch
  split
  · next hknown =>
    split
    · exact ⟨⟨_, _, _, hset⟩, fun _ => ⟨hepoch, by rw [htwn, hknown]⟩⟩
    · next hlate => exact ⟨⟨_, _, _, rfl⟩, fun h => absurd h (by simp [hknown, hlate])⟩
  · exact ⟨⟨_, _, _, by rw [hset]⟩, fun _ => ⟨hepoch, rfl⟩⟩

/-! ## The count of T_RECLAIM (R496, R497) -/

/-- Outside WARM a look at the module's health changes the count of T_RECLAIM alone. -/
theorem State.noteHealth_eq {s : State} (h : s.twn.lease ≠ .warm) : ∃ x b,
    s.noteHealth = { s with twn := { s.twn with healthyAt := x, mustHeal := b } } := by
  unfold State.noteHealth
  split
  · split
    · split <;> exact ⟨_, _, rfl⟩
    · exact ⟨_, _, rfl⟩
  · exact ⟨_, _, if_neg h⟩

/-! ## Standing down, and a claim that fails (R495, R505, R513) -/

theorem noMarks_congr {s t : State} (h : ∀ k, k < 8 → t.rd (Reg.TWN_SURR_MASK k) = s.rd (Reg.TWN_SURR_MASK k))
    (hm : noMarks s) : noMarks t := fun k hk => (h k hk).trans (hm k hk)

theorem TWN_SURR_MASK_ne (k : Nat) : Reg.TWN_SURR_MASK k ≠ Reg.TWN_EVT ∧ Reg.TWN_SURR_MASK k ≠ Reg.TWN_RES ∧
    Reg.TWN_SURR_MASK k ≠ Reg.TWN_PHASE := by
  unfold Reg.TWN_SURR_MASK Reg.TWN_EVT Reg.TWN_RES Reg.TWN_PHASE
  omega

/-- Outside WARM no handover is dropped. -/
theorem State.dropHand_eq {s : State} (h : s.twn.lease ≠ .warm) : s.dropHand = s := if_neg fun hw => h hw.1

/-- What dropping a handover leaves: the twin, and each register but the result, the events and those of the collector. -/
theorem State.dropHand_spec (s : State) : s.dropHand.twn = s.twn ∧
    ∀ a, eventReg a = false → a ≠ Reg.TWN_EVT → a ≠ Reg.TWN_RES → s.dropHand.rd a = s.rd a := by
  unfold State.dropHand
  split
  · have hbeside := ((s.twnResult 0x21).setBit Reg.TWN_EVT 7).collect_beside 203 s.now false
    obtain ⟨-, -, -, -, htwn⟩ := State.fields_of_beside hbeside
    refine ⟨htwn, fun a ha hevt hres => ?_⟩
    rw [State.rd_of_beside hbeside ha, State.rd_setBit_other _ _ _ _ hevt]
    exact State.rd_setField_other _ _ _ _ _ _ hres
  · exact ⟨rfl, fun _ _ _ _ => rfl⟩

/-- A module that gives up is in ZEPHYR, and its engines are off. -/
theorem State.standDown_spec {s : State} (h : s.twn.lease ≠ .warm) : s.standDown.twn.lease = .zephyr ∧
    s.standDown.twn.hand = none ∧ s.standDown.powered 2 = false ∧
    (∀ i, i < 32 → s.bitOf Reg.TWN_EVT i = true → s.standDown.bitOf Reg.TWN_EVT i = true) ∧
    ∀ a, outsideEngines a → a ≠ Reg.TWN_EVT → s.standDown.rd a = s.rd a := by
  obtain ⟨p, hp⟩ := s.stopFrames_portsMoved
  obtain ⟨⟨x, ln, b, hlease⟩, -, hregs⟩ := s.stopFrames.setLease_spec .zephyr
  obtain ⟨htwn, hrd, hoff⟩ := (s.stopFrames.setLease .zephyr).enginesOff_spec
  rw [State.standDown, State.dropHand_eq h]
  refine ⟨?_, rfl, hoff, fun i hi hbit => ?_, fun a ha hevt => ?_⟩
  · change (s.stopFrames.setLease .zephyr).enginesOff.twn.lease = _
    rw [htwn, hlease]
  · change (s.stopFrames.setLease .zephyr).enginesOff.bitOf _ i = _
    rw [State.bitOf, hrd _ (outsideEngines_of_lt (by decide))]
    exact State.bitOf_setLease _ hi (by rw [hp]; exact hbit)
  · change (s.stopFrames.setLease .zephyr).enginesOff.rd a = _
    rw [hrd a ha, hregs a (by simpa using hevt), hp]
    rfl

/-- A claim fails: FAILED with its result code. -/
theorem State.twnFail_spec {s : State} {c : Nat} (hc : c < 256) (hm : noMarks s) : (s.twnFail c).twn.lease = .failed ∧
    (s.twnFail c).twn.claim = none ∧ (s.twnFail c).field Reg.TWN_RES 24 8 = c ∧ (s.twnFail c).bitOf Reg.TWN_EVT 1 = true := by
  obtain ⟨-, hdrop⟩ := s.dropHand_spec
  obtain ⟨p, hp⟩ := s.dropHand.stopFrames_portsMoved
  obtain ⟨⟨x, ln, b, hlease⟩, -, hregs⟩ := s.dropHand.stopFrames.setLease_spec .failed
  unfold State.twnFail
  extract_lets s1
  have hrd : ∀ k, k < 8 → s1.rd (Reg.TWN_SURR_MASK k) = s.rd (Reg.TWN_SURR_MASK k) := fun k hk => by
    obtain ⟨hevt, hres, -⟩ := TWN_SURR_MASK_ne k
    calc s1.rd (Reg.TWN_SURR_MASK k)
        = ((s.dropHand.stopFrames.setLease .failed).twnResult c).rd (Reg.TWN_SURR_MASK k) := State.rd_setBit_other _ _ _ _ hevt
      _ = (s.dropHand.stopFrames.setLease .failed).rd (Reg.TWN_SURR_MASK k) := State.rd_setField_other _ _ _ _ _ _ hres
      _ = s.dropHand.stopFrames.rd (Reg.TWN_SURR_MASK k) := hregs _ (by simpa using hevt)
      _ = s.dropHand.rd (Reg.TWN_SURR_MASK k) := by rw [hp]; rfl
      _ = s.rd (Reg.TWN_SURR_MASK k) := hdrop _ (eventReg_TWN_SURR_MASK hk) hevt hres
  have hbeside := State.raise_beside { s1 with twn := { s1.twn with claim := none, hand := none, computeFrom := none } }
    (n := 200) (by decide) (noMarks_congr hrd hm)
  obtain ⟨-, -, -, -, htwn⟩ := State.fields_of_beside hbeside
  have hres : s1.field Reg.TWN_RES 24 8 = c := by
    rw [State.field, State.rd_setBit_other _ _ _ _ (by decide)]
    exact (State.field_setField_same _ _ _ (by decide)).trans (Nat.mod_eq_of_lt hc)
  refine ⟨?_, by rw [htwn], ?_, ?_⟩
  · rw [htwn]
    exact congrArg Twn.lease hlease
  · rw [State.field, State.rd_of_beside hbeside (by decide)]
    exact hres
  · rw [State.bitOf, State.rd_of_beside hbeside (by decide)]
    exact State.bitOf_setBit_same _ _ (by decide)

end Sys2Proof.Machine
end

section
/-! The messages of the partner (R471 to R475, R480, R491 to R499, R507 to R513): what each makes of the module. -/

namespace Sys2Proof.Machine

open Sys2Proof.Safety

theorem State.epoch_congr {s t : State} (hval : t.rd Reg.TWN_EPOCH = s.rd Reg.TWN_EPOCH)
    (hcomp : t.rd (Reg.TWN_EPOCH + 4) = s.rd (Reg.TWN_EPOCH + 4)) (hkey : t.key = s.key) : t.epoch = s.epoch := by
  simp only [State.epoch, State.paired, hval, hcomp, hkey]

theorem State.msgTake_regsBut (s : State) (m : TwMsgIn) : regsBut s (s.msgTake m) [Reg.TWN_PHASE] := by
  obtain ⟨r, n, ok, -, hrd⟩ := s.msgTake_eq m
  exact fun a ha => hrd a (by simpa using ha)

theorem State.epoch_msgTake (s : State) (m : TwMsgIn) : (s.msgTake m).epoch = s.epoch := by
  obtain ⟨r, n, ok, htake, hrd⟩ := s.msgTake_eq m
  exact State.epoch_congr (hrd _ (by decide)) (hrd _ (by decide)) (by rw [htake])

/-- A lease view that lasts `n` ticks from now (R491). -/
def State.viewFor (s : State) (n : Nat) : State :=
  { s with twn := { s.twn with viewTo := some (s.now + BitVec.ofNat 64 n) } }

/-- The view is over at a module in ZEPHYR that may claim: the engines' domains go on, and the power step begins (R500, R502). -/
theorem State.viewEnds_eq {s : State} (hlease : s.twn.lease = .zephyr) (hheal : s.twn.mustHeal = false)
    (hclaim : s.twn.claim = none) : s.viewEnds = (State.enginesSwitch { s with twn := { s.twn with viewTo := none } }).setClaim
      (some { step := .power, stepAt := s.now, began := s.now }) := by
  simp only [State.viewEnds, hlease, hheal, hclaim, reduceCtorEq, if_false, Option.isNone_none, and_self, if_true]
  rfl

/-- What the end of the view does to such a module, and the registers that it leaves. -/
theorem State.viewEnds_spec {s : State} (hlease : s.twn.lease = .zephyr) (hheal : s.twn.mustHeal = false)
    (hclaim : s.twn.claim = none) : s.viewEnds.twn.viewTo = none ∧
      s.viewEnds.twn.claim = some { step := .power, stepAt := s.now, began := s.now } ∧
      (s.mayPower = true → ∀ d, d ∈ [2, 3, 4] → s.sys.cfg.dev.pdUse.getLsbD d = true → s.viewEnds.powered d = true) ∧
      ∀ a, outsideEngines a → s.viewEnds.rd a = s.rd a := by
  obtain ⟨⟨htwn, -, -, hrd⟩, hon⟩ := State.enginesSwitch_spec { s with twn := { s.twn with viewTo := none } }
  rw [State.viewEnds_eq hlease hheal hclaim]
  exact ⟨congrArg Twn.viewTo htwn, rfl, hon, hrd⟩

/-- A duty offers the lease: HANDOVER goes out with the period h, and HANDING begins (R495, R507). -/
def State.offersHandover (s : State) : State :=
  let t := (s.sendMsg 0x05 (BitVec.ofNat 64 s.handPeriod.toNat)).setLease .handing
  { t with twn := { t.twn with hand := some { h := s.handPeriod, began := t.now } } }

theorem State.offersHandover_spec {s : State} (h : s.twn.lease ≠ .handing) : s.offersHandover.twn.lease = .handing ∧
    s.offersHandover.twn.hand = some { h := s.handPeriod, began := s.now } ∧
    (∃ o, s.offersHandover.twn.sent.head? = some o ∧ o.op = 0x05 ∧ o.arg = BitVec.ofNat 64 s.handPeriod.toNat) ∧
    regsBut s s.offersHandover [Reg.TWN_EVT] := by
  obtain ⟨l, g, hsend⟩ := s.sendMsg_eq 0x05 (BitVec.ofNat 64 s.handPeriod.toNat)
  obtain ⟨ln, b, hset⟩ := State.setLease_eq (s := s.sendMsg 0x05 (BitVec.ofNat 64 s.handPeriod.toNat)) (l := .handing)
    (by rw [hsend]; exact h)
  rw [State.offersHandover, hset, hsend]
  exact ⟨rfl, rfl, ⟨_, rfl, rfl, rfl⟩, fun a ha => State.rd_setBit_other _ _ _ _ (by simpa using ha)⟩

section
variable {m : TwMsgIn} {s : State} (hup : s.twinUp = true) (hpair : pairOk m.epoch m.epochC = true)
include hup hpair

/-- RENEW at a module without the lease and without a claim (R491, R493). -/
theorem exec_renew (hholds : s.holds = false) (hclaim : s.twn.claim = none) : exec (.renew m) s =
    .next (((s.msgTake m).learnEpoch m.epoch).viewFor (us (fieldOf m.arg 0 16))).startTrees := by
  obtain ⟨r, n, ok, htake, -⟩ := s.msgTake_eq m
  obtain ⟨⟨r', k, b, hlearn⟩, -⟩ := (s.msgTake m).learnEpoch_spec m.epoch
  have hholds' : ((s.msgTake m).learnEpoch m.epoch).holds = false := by rw [hlearn, htake]; exact hholds
  have hclaim' : ((s.msgTake m).learnEpoch m.epoch).twn.claim = none := by rw [hlearn, htake]; exact hclaim
  change execRenew m s = _
  rw [execRenew, State.onMsg_taken hup hpair]
  simp only [hholds', hclaim', State.dropClaim, Bool.false_eq_true, if_false, State.viewFor]

/-- STATUS of a partner that has not failed, at a duty that knows the epoch (R480). -/
theorem exec_status_duty (hlease : s.twn.lease = .duty) (hfail : fieldOf m.arg 0 4 ≠ 6) (hknown : s.twn.epochKnown = true) :
    exec (.status m .none) s = .next { s.msgTake m with
      twn := { (s.msgTake m).twn with partner := some (partnerOf m.arg (s.msgTake m).now) } } := by
  obtain ⟨r, n, ok, htake, -⟩ := s.msgTake_eq m
  change execStatus m .none s = _
  rw [execStatus, State.onMsg_taken hup hpair, htake]
  simp [partnerOf, hfail, hknown, hlease, State.statusClash]

theorem exec_surrender (hholds : s.holds = false) : exec (.surrender m) s = .next (s.msgTake m).viewEnds := by
  obtain ⟨r, n, ok, htake, -⟩ := s.msgTake_eq m
  have hholds' : ¬ (s.msgTake m).holds = true := by rw [htake]; exact Bool.not_eq_true _ ▸ hholds
  change execSurrender m s = _
  rw [execSurrender, State.onMsg_taken hup hpair, if_neg hholds']

theorem exec_reclaim (hduty : s.duty = true) (hsec : s.twn.secondary = true) (hrun : s.tb.run = true) :
    exec (.reclaim m) s = .next (s.msgTake m).offersHandover := by
  obtain ⟨r, n, ok, htake, -⟩ := s.msgTake_eq m
  have hmay : ((s.msgTake m).duty && (s.msgTake m).twn.secondary && (s.msgTake m).tb.run) = true := by
    rw [htake, Bool.and_eq_true, Bool.and_eq_true]
    exact ⟨⟨hduty, hsec⟩, hrun⟩
  change execReclaim m s = _
  rw [execReclaim, State.onMsg_taken hup hpair, if_pos hmay]
  rfl

theorem exec_handover (hlease : s.twn.lease = .warm) : exec (.handover m) s = .next { s.msgTake m with
    twn := { (s.msgTake m).twn with
      hand := some { h := BitVec.ofNat 32 (fieldOf m.arg 0 32), began := (s.msgTake m).now } } } := by
  obtain ⟨r, n, ok, htake, -⟩ := s.msgTake_eq m
  have hlease' : (s.msgTake m).twn.lease = .warm := by rw [htake]; exact hlease
  change execHandover m s = _
  rw [execHandover, State.onMsg_taken hup hpair, if_pos hlease']

theorem exec_echo : exec (.echo m) s =
    .next ((s.msgTake m).putMsg ((s.msgTake m).mkMsg 0x09 (s.msgTake m).now ((s.msgTake m).now + 256))) := by
  change execEcho m s = _
  rw [execEcho, State.onMsg_taken hup hpair]

/-! ### What the messages do -/

/-- RENEW makes the view last L of the message from now, and its epoch is learned (R491, R493). -/
theorem answers_renew (hholds : s.holds = false) (hclaim : s.twn.claim = none) : answers (.renew m) s fun t =>
    t.twn.viewTo = some (s.now + BitVec.ofNat 64 (us (fieldOf m.arg 0 16))) ∧ t.twn.lease = s.twn.lease ∧
      ((s.twn.epochKnown = false ∨ 0 < timeDiff m.epoch s.epoch) → t.epoch = m.epoch ∧ t.twn.epochKnown = true) := by
  obtain ⟨r, n, ok, htake, -⟩ := s.msgTake_eq m
  obtain ⟨⟨r', k, b, hlearn⟩, hepoch⟩ := (s.msgTake m).learnEpoch_spec m.epoch
  obtain ⟨p, hp⟩ := (((s.msgTake m).learnEpoch m.epoch).viewFor (us (fieldOf m.arg 0 16))).startTrees_portsMoved
  have hknown : (s.msgTake m).twn.epochKnown = s.twn.epochKnown := by rw [htake]
  rw [s.epoch_msgTake m, hknown] at hepoch
  refine ⟨_, exec_renew hup hpair hholds hclaim, ?_⟩
  rw [hp]
  refine ⟨?_, ?_, hepoch⟩
  · rw [hlearn, htake]; rfl
  · rw [hlearn, htake]; rfl

/-- SURRENDER in ZEPHYR ends the view and begins a claim (R491, R500, R502). -/
theorem answers_surrender (hlease : s.twn.lease = .zephyr) (hheal : s.twn.mustHeal = false) (hclaim : s.twn.claim = none) :
    answers (.surrender m) s fun t => t.twn.viewTo = none ∧
      t.twn.claim = some { step := .power, stepAt := s.now, began := s.now } ∧
      (s.mayPower = true → ∀ d, d ∈ [2, 3, 4] → s.sys.cfg.dev.pdUse.getLsbD d = true → t.powered d = true) ∧
      ∀ a, a ≠ Reg.TWN_PHASE → outsideEngines a → t.rd a = s.rd a := by
  obtain ⟨r, n, ok, htake, hrd⟩ := s.msgTake_eq m
  have hholds : s.holds = false := by simp [State.holds, hlease]
  obtain ⟨hview, hstep, hon, hrest⟩ := State.viewEnds_spec (s := s.msgTake m) (by rw [htake]; exact hlease)
    (by rw [htake]; exact hheal) (by rw [htake]; exact hclaim)
  refine ⟨_, exec_surrender hup hpair hholds, hview, ?_, ?_, fun a hne ha => (hrest a ha).trans (hrd a hne)⟩
  · rw [hstep, htake]; rfl
  · rw [htake] at hon ⊢
    exact hon

/-- RECLAIM at a duty secondary is answered by HANDOVER, and HANDING begins (R495, R507). -/
theorem answers_reclaim (hduty : s.duty = true) (hsec : s.twn.secondary = true) (hrun : s.tb.run = true) :
    answers (.reclaim m) s fun t => t.twn.lease = .handing ∧ t.twn.hand = some { h := s.handPeriod, began := s.now } ∧
      (∃ o, t.twn.sent.head? = some o ∧ o.op = 0x05 ∧ o.arg = BitVec.ofNat 64 s.handPeriod.toNat) ∧
      regsBut s t [Reg.TWN_PHASE, Reg.TWN_EVT] := by
  obtain ⟨r, n, ok, htake, hrd⟩ := s.msgTake_eq m
  have hlease : (s.msgTake m).twn.lease ≠ .handing := by
    rw [htake]
    intro h
    simp [State.duty, show s.twn.lease = .handing from h] at hduty
  obtain ⟨hhanding, hhand, hsent, hrest⟩ := State.offersHandover_spec hlease
  have hper : (s.msgTake m).handPeriod = s.handPeriod := by rw [htake]; rfl
  have hnow : (s.msgTake m).now = s.now := by rw [htake]; rfl
  rw [hper] at hhand hsent
  rw [hnow] at hhand
  refine ⟨_, exec_reclaim hup hpair hduty hsec hrun, hhanding, hhand, hsent, fun a ha => ?_⟩
  simp only [List.mem_cons, List.not_mem_nil, or_false, not_or] at ha
  exact (hrest a (by simpa using ha.2)).trans (hrd a ha.1)

/-- ECHO is answered 256 ticks after its arrival (R474). -/
theorem answers_echo : answers (.echo m) s fun t => t.twn.msgSeq = s.twn.msgSeq + 1 ∧
    (∃ o, t.twn.sent.head? = some o ∧ o.op = 0x09 ∧ o.arg = s.now ∧ o.vt = s.now + 256) ∧ regsBut s t [Reg.TWN_PHASE] := by
  obtain ⟨r, n, ok, htake, -⟩ := s.msgTake_eq m
  obtain ⟨l, g, hput⟩ := (s.msgTake m).putMsg_eq ((s.msgTake m).mkMsg 0x09 (s.msgTake m).now ((s.msgTake m).now + 256))
  refine ⟨_, exec_echo hup hpair, ?_⟩
  rw [hput]
  refine ⟨?_, ⟨_, rfl, rfl, ?_, ?_⟩, s.msgTake_regsBut m⟩
  · rw [htake]
  · rw [htake]; rfl
  · rw [htake]; rfl

end

/-! ## The answers of the primary in HANDING (R510, R511, R513) -/

/-- The takeback shows: its first period, the surrender's cause and the result. -/
def State.handedBack (s : State) (h : Hand) (first : BitVec 32) : State :=
  let t := (s.wr Reg.TWN_SURR 5).setBit Reg.TWN_EVT 6
  let code := if first = h.h then 0x02 else 0x03
  (t.wr Reg.TWN_RES (BitVec.ofNat 32 (code * 2 ^ 24 + t.usSince h.began))).wr Reg.TWN_TKO_PC first

theorem State.handedBack_spec (s : State) (h : Hand) (first : BitVec 32) : (s.handedBack h first).rd Reg.TWN_TKO_PC = first ∧
    (s.handedBack h first).bitOf Reg.TWN_EVT 6 = true ∧ (s.handedBack h first).twn = s.twn := by
  unfold State.handedBack
  extract_lets t code
  refine ⟨State.rd_wr_same _ _ _, ?_, (State.wr_twn _ _ _).trans (State.wr_twn _ _ _)⟩
  rw [State.bitOf, State.rd_wr_other _ _ _ _ (by decide), State.rd_wr_other _ _ _ _ (by decide)]
  exact State.bitOf_setBit_same _ _ (by decide)

/-- The secondary resumes as duty (R511). -/
def State.resumed (s : State) (h : Hand) : State :=
  let q := s.periodAfter 16
  let t := s.setLease .duty
  { t with twn := { t.twn with
    hand := none, computeFrom := if timeDiff s.tb.pc h.h < 0 ∧ q = s.tb.pc + 1 then none else some q } }

section
variable {m : TwMsgIn} {h : Hand} {s : State} (hup : s.twinUp = true) (hpair : pairOk m.epoch m.epochC = true)
  (hlease : s.twn.lease = .handing) (hhand : s.twn.hand = some h)
include hup hpair hlease hhand

theorem exec_ack : exec (.ack m) s =
    .next ((s.msgTake m).handedBack h (BitVec.ofNat 32 (fieldOf m.arg 0 32))).standDown := by
  obtain ⟨r, n, ok, htake, -⟩ := s.msgTake_eq m
  have hlease' : (s.msgTake m).twn.lease = .handing := by rw [htake]; exact hlease
  have hhand' : (s.msgTake m).twn.hand = some h := by rw [htake]; exact hhand
  change execAck m s = _
  rw [execAck, State.onMsg_taken hup hpair, hlease', hhand']
  rfl

theorem exec_nak : exec (.nak m) s = .next (((s.msgTake m).resumed h).handFail 0x20).retestPorts := by
  obtain ⟨r, n, ok, htake, -⟩ := s.msgTake_eq m
  have hlease' : (s.msgTake m).twn.lease = .handing := by rw [htake]; exact hlease
  have hhand' : (s.msgTake m).twn.hand = some h := by rw [htake]; exact hhand
  change execNak m s = _
  rw [execNak, State.onMsg_taken hup hpair, hlease', hhand']
  rfl

end

theorem State.portsTrained_congr {s t : State} (hlanes : t.lanes = s.lanes) (hsec : t.sec = s.sec) :
    t.portsTrained = s.portsTrained := by
  have huse : t.inUse = s.inUse := funext fun n => by rw [State.inUse, hsec, State.inUse]
  simp only [State.portsTrained, State.portsUsed, State.lane, hlanes, huse]

/-- Where every port in use is trained, the surrender condition of the ports is not met (R498). -/
theorem State.retestPorts_trained {s : State} (h : s.portsTrained = true) : s.retestPorts = s := by
  have hnone : (s.portsUsed.find? fun n => !(s.lane n).inData) = none := by
    rw [List.find?_eq_none]
    intro n hn
    simpa using List.all_eq_true.mp h n hn
  rw [State.retestPorts, hnone]

/-- What a handover that fails leaves, with no source marked, and what it shows. -/
theorem State.handFail_spec {s : State} {c : Nat} (hc : c < 256) (hm : noMarks s) : (s.handFail c).twn = s.twn ∧
    (s.handFail c).lanes = s.lanes ∧ (s.handFail c).sec = s.sec ∧ (s.handFail c).field Reg.TWN_RES 24 8 = c ∧
    (s.handFail c).bitOf Reg.TWN_EVT 7 = true := by
  have hmarks : noMarks ((s.twnResult c).setBit Reg.TWN_EVT 7) := by
    refine noMarks_congr (fun k hk => ?_) hm
    obtain ⟨hevt, hres, -⟩ := TWN_SURR_MASK_ne k
    exact (State.rd_setBit_other _ _ _ _ hevt).trans (State.rd_setField_other _ _ _ _ _ _ hres)
  have hbeside := ((s.twnResult c).setBit Reg.TWN_EVT 7).raise_beside (n := 203) (by decide) hmarks
  obtain ⟨-, hlanes, -, -, htwn⟩ := State.fields_of_beside hbeside
  refine ⟨htwn, hlanes, State.sec_of_course (State.raise_course _ 203), ?_, ?_⟩
  · rw [State.handFail, State.field, State.rd_of_beside hbeside (by decide), State.rd_setBit_other _ _ _ _ (by decide)]
    exact (State.field_setField_same _ _ _ (by decide)).trans (Nat.mod_eq_of_lt hc)
  · rw [State.handFail, State.bitOf, State.rd_of_beside hbeside (by decide)]
    exact State.bitOf_setBit_same _ _ (by decide)

theorem State.resumed_spec {s : State} (h : Hand) (hlease : s.twn.lease ≠ .duty) : (s.resumed h).twn.lease = .duty ∧
    (s.resumed h).twn.hand = none ∧ (s.resumed h).lanes = s.lanes ∧ (s.resumed h).sec = s.sec ∧
    regsBut s (s.resumed h) [Reg.TWN_EVT] := by
  obtain ⟨ln, b, hset⟩ := State.setLease_eq hlease
  rw [State.resumed, hset]
  exact ⟨rfl, rfl, rfl, rfl, fun a ha => State.rd_setBit_other _ _ _ _ (by simpa using ha)⟩

section
variable {m : TwMsgIn} {h : Hand} {s : State} (hup : s.twinUp = true) (hpair : pairOk m.epoch m.epochC = true)
  (hlease : s.twn.lease = .handing) (hhand : s.twn.hand = some h)
include hup hpair hlease hhand

/-- ACK ends HANDING in ZEPHYR, and the takeback shows (R495, R510). -/
theorem answers_ack : answers (.ack m) s fun t => t.twn.lease = .zephyr ∧ t.twn.hand = none ∧
    t.rd Reg.TWN_TKO_PC = BitVec.ofNat 32 (fieldOf m.arg 0 32) ∧ t.bitOf Reg.TWN_EVT 6 = true ∧ t.powered 2 = false := by
  obtain ⟨r, n, ok, htake, -⟩ := s.msgTake_eq m
  obtain ⟨hshow, hevt, htwn⟩ := (s.msgTake m).handedBack_spec h (BitVec.ofNat 32 (fieldOf m.arg 0 32))
  have hwarm : ((s.msgTake m).handedBack h (BitVec.ofNat 32 (fieldOf m.arg 0 32))).twn.lease ≠ .warm := by
    rw [htwn, htake]
    intro hw
    exact nomatch hlease.symm.trans hw
  obtain ⟨hzephyr, hnone, hoff, hbit, hrd⟩ := State.standDown_spec hwarm
  refine ⟨_, exec_ack hup hpair hlease hhand, hzephyr, hnone, ?_, hbit 6 (by decide) hevt, hoff⟩
  rw [hrd _ (outsideEngines_of_lt (by decide)) (by decide), hshow]

/-- NAK with the ports in DATA resumes DUTY, and the failed handover shows (R511, R513). -/
theorem answers_nak (hm : noMarks s) (htrained : s.portsTrained = true) : answers (.nak m) s fun t =>
    t.twn.lease = .duty ∧ t.twn.hand = none ∧ t.field Reg.TWN_RES 24 8 = 0x20 ∧ t.bitOf Reg.TWN_EVT 7 = true := by
  obtain ⟨r, n, ok, htake, hrd⟩ := s.msgTake_eq m
  obtain ⟨hduty, hnone, hlanes, hsec, hrest⟩ := State.resumed_spec (s := s.msgTake m) h
    (by rw [htake]; exact fun hd => nomatch hlease.symm.trans hd)
  have hmarks : noMarks ((s.msgTake m).resumed h) := by
    refine noMarks_congr (fun k hk => ?_) hm
    obtain ⟨hevt, -, hphase⟩ := TWN_SURR_MASK_ne k
    exact (hrest _ (by simpa using hevt)).trans (hrd _ hphase)
  obtain ⟨htwn, hlanes', hsec', hres, hbit⟩ := State.handFail_spec (c := 0x20) (by decide) hmarks
  have htrained' : (((s.msgTake m).resumed h).handFail 0x20).portsTrained = true := by
    have hsame : (((s.msgTake m).resumed h).handFail 0x20).portsTrained = s.portsTrained := by
      refine State.portsTrained_congr (hlanes'.trans (hlanes.trans ?_)) (hsec'.trans (hsec.trans ?_))
      · rw [htake]
      · rw [htake]; rfl
    rw [hsame, htrained]
  refine ⟨_, exec_nak hup hpair hlease hhand, ?_⟩
  rw [State.retestPorts_trained htrained']
  exact ⟨by rw [htwn, hduty], by rw [htwn, hnone], hres, hbit⟩

end

/-! ## ECHO_RESP (R472, R474) -/

/-- An ECHO outstanding, and the registers. -/
def State.echoView (s : State) : Option Nat × Sparse Word := (s.twn.echoAt, s.regs)

theorem State.lineNote_echoView (s : State) (p : Nat) : (s.lineNote p).echoView = s.echoView := by
  unfold State.lineNote State.setLine
  extract_lets x
  split
  · split <;> rfl
  · rfl

/-- What setting VT_OFS does to the offset, and what it leaves: an ECHO outstanding, and each register but the two that show it. -/
theorem State.setOfs_spec (s : State) (d : BitVec 64) : (s.setOfs d).twn.ofsSet = true ∧ (s.setOfs d).twn.vtOfs = d ∧
    (s.setOfs d).twn.echoAt = s.twn.echoAt ∧
    ∀ a, a ≠ Reg.TWN_VT_OFS_LO → a ≠ Reg.TWN_VT_OFS_HI → (s.setOfs d).rd a = s.rd a := by
  unfold State.setOfs
  extract_lets u0 shift t tw conv mods slot iso0 iso flt adc s0 s3 s2 s1
  have hu0 : u0.echoView = s.echoView := State.foldl_view State.echoView State.lineNote State.lineNote_echoView _ s
  clear_value u0
  have hs3 : (s3.twn, s3.regs) = (tw, u0.regs) := by
    refine State.foldl_view (fun u => (u.twn, u.regs)) _ (fun u e => ?_) _ s0
    rfl
  have hs2 : (s2.twn, s2.regs) = (s3.twn, s3.regs) := by
    refine State.foldl_view (fun u => (u.twn, u.regs)) _ (fun u e => ?_) _ s3
    rfl
  have hs1 : (s1.twn, s1.regs) = (s2.twn, s2.regs) := by
    refine State.foldl_view (fun u => (u.twn, u.regs)) _ (fun u e => ?_) _ s2
    rfl
  obtain ⟨htwn, hregs⟩ := Prod.ext_iff.mp (hs1.trans (hs2.trans hs3))
  obtain ⟨hecho, hregs0⟩ := Prod.ext_iff.mp hu0
  refine ⟨congrArg Twn.ofsSet htwn, congrArg Twn.vtOfs htwn, (congrArg Twn.echoAt htwn).trans hecho, fun a hlo hhi => ?_⟩
  rw [State.rd_wr_other _ _ _ _ hhi, State.rd_wr_other _ _ _ _ hlo]
  exact congrArg (fun r => Sparse.get Reg.resetAt r a) (hregs.trans hregs0)

/-- The delay of the link shows, and no ECHO is outstanding (R474). -/
def State.delayMeasured (s : State) (twice : Int) : State :=
  State.wr { s with twn := { s.twn with echoAt := none } } Reg.TWN_DELAY (BitVec.ofNat 32 (min (twice / 2).toNat 0xFFFFFF))

theorem exec_echoResp {m : TwMsgIn} {ui : Fin 32} {t1 : Nat} {twice : Int} {s : State} (hup : s.twinUp = true)
    (hpair : pairOk m.epoch m.epochC = true) (hecho : s.twn.echoAt = some t1)
    (htwice : twice = (32 * (s.tb.vt.toNat : Int) + (ui : Nat) - t1) - 32 * timeDiff m.vt m.arg) :
    exec (.echoResp m ui) s = .next (if s.twn.ofsSet ∨ s.tb.run then (s.msgTake m).delayMeasured twice
      else ((s.msgTake m).delayMeasured twice).setOfs
        (BitVec.ofInt 64 ((64 * (m.arg.toNat : Int) - 2 * t1 - twice) / 64))) := by
  obtain ⟨r, n, ok, htake, -⟩ := s.msgTake_eq m
  have hecho' : (s.msgTake m).twn.echoAt = some t1 := by rw [htake]; exact hecho
  have hvt : (s.msgTake m).tb.vt = s.tb.vt := by rw [htake]
  have hset : ((s.msgTake m).delayMeasured twice).twn.ofsSet = s.twn.ofsSet := by rw [htake]; rfl
  have hrun : ((s.msgTake m).delayMeasured twice).tb.run = s.tb.run := by rw [htake]; rfl
  change execEchoResp m ui s = _
  rw [execEchoResp, State.onMsg_taken hup hpair, hecho', ← hset, ← hrun]
  simp only [hvt, ← htwice]
  rfl

/-- ECHO_RESP measures the delay of the link, and sets VT_OFS where it was unset and no periods run (R472, R474). -/
theorem answers_echoResp {m : TwMsgIn} {ui : Fin 32} {t1 : Nat} {twice : Int} {s : State} (hup : s.twinUp = true)
    (hpair : pairOk m.epoch m.epochC = true) (hecho : s.twn.echoAt = some t1)
    (htwice : twice = (32 * (s.tb.vt.toNat : Int) + (ui : Nat) - t1) - 32 * timeDiff m.vt m.arg) :
    answers (.echoResp m ui) s fun t => t.twn.echoAt = none ∧
      t.rd Reg.TWN_DELAY = BitVec.ofNat 32 (min (twice / 2).toNat 0xFFFFFF) ∧
      (s.twn.ofsSet = false → s.tb.run = false → t.twn.ofsSet = true ∧
        t.twn.vtOfs = BitVec.ofInt 64 ((64 * (m.arg.toNat : Int) - 2 * t1 - twice) / 64)) ∧
      (s.twn.ofsSet = true ∨ s.tb.run = true → t.twn.vtOfs = s.twn.vtOfs) := by
  obtain ⟨r, n, ok, htake, -⟩ := s.msgTake_eq m
  refine ⟨_, exec_echoResp hup hpair hecho htwice, ?_⟩
  by_cases h : s.twn.ofsSet = true ∨ s.tb.run = true
  · rw [if_pos h]
    refine ⟨rfl, State.rd_wr_same _ _ _, fun hset hrun => ?_, fun _ => ?_⟩
    · simp [hset, hrun] at h
    · rw [htake]; rfl
  · obtain ⟨hset, hofs, hnone, hrd⟩ := ((s.msgTake m).delayMeasured twice).setOfs_spec
      (BitVec.ofInt 64 ((64 * (m.arg.toNat : Int) - 2 * t1 - twice) / 64))
    rw [if_neg h]
    refine ⟨hnone, ?_, fun _ _ => ⟨hset, hofs⟩, fun h' => absurd h' h⟩
    rw [hrd _ (by decide) (by decide)]
    exact State.rd_wr_same _ _ _

end Sys2Proof.Machine

namespace Sys2Proof.Twin

open Sys2Proof.Machine Sys2Proof.Safety

/-- Settles O42, by what taking a message leaves of the module, and by what each message then makes of it. -/
theorem partnerMessagesDoTheirWork : Obligations.PartnerMessagesDoTheirWork := by
  refine ⟨fun m s hup hpair => ⟨answers_renew hup hpair, fun hlease hfail hknown => ?_, answers_surrender hup hpair,
    answers_reclaim hup hpair, fun hlease => ?_, answers_echo hup hpair⟩,
    fun m h s hup hpair hlease hhand => ⟨answers_ack hup hpair hlease hhand, answers_nak hup hpair hlease hhand⟩,
    fun m ui t1 twice s hup hpair hecho htwice => answers_echoResp hup hpair hecho htwice⟩
  · obtain ⟨r, n, ok, htake, -⟩ := s.msgTake_eq m
    exact ⟨_, exec_status_duty hup hpair hlease hfail hknown, by rw [htake]; rfl, by rw [htake]; exact hlease,
      s.msgTake_regsBut m⟩
  · obtain ⟨r, n, ok, htake, -⟩ := s.msgTake_eq m
    exact ⟨_, exec_handover hup hpair hlease, by rw [htake]; rfl, by rw [htake]; exact hlease, s.msgTake_regsBut m⟩

end Sys2Proof.Twin
end

section
/-! What the module sends to its partner and on the arm ports when it is due (R473, R474, R480, R483 to R485, R489 to R494, R500,
R508). -/

namespace Sys2Proof.Machine

open Sys2Proof.Safety

/-! ## What an event in the collector leaves of the twin port (R470, R482) -/

section
variable {s t : State} (h : t.beside = s.beside)
include h

theorem State.sec_of_beside : t.sec = s.sec :=
  congrArg (fun v : State × (Nat → Word) => v.1.sch.cur.getD {}) h

theorem State.twinUp_of_beside : t.twinUp = s.twinUp := by
  have hpd : t.sys.pdOn = s.sys.pdOn := (congrArg (fun v : State × (Nat → Word) => v.1.sys.pdOn) h :)
  have hpower : t.open .twn = s.open .twn := by rw [State.open, State.powered, hpd, State.open, State.powered]
  obtain ⟨-, hlanes, -, -, -⟩ := State.fields_of_beside h
  rw [State.twinUp, State.twinUp, hpower, State.twinEn, State.bitOf, State.rd_of_beside h (by decide), State.lane, hlanes,
    State.twinEn, State.bitOf, State.lane]

end

theorem State.raiseIf_beside {s : State} (c : Bool) {n : Nat} (hn : n < 256) (hm : noMarks s) :
    (s.raiseIf c n).beside = s.beside := by
  cases c
  · rfl
  · exact s.raise_beside hn hm

/-- The audit of the lease raises at most FS195 and FS201 (R494). -/
theorem State.leaseAudit_beside {s : State} (hm : noMarks s) : s.leaseAudit.beside = s.beside := by
  unfold State.leaseAudit
  extract_lets seen
  have hfirst := State.raiseIf_beside (s.wrongWitness || s.rival) (n := 195) (by decide) hm
  exact (State.raiseIf_beside _ (by decide) (noMarks_of_beside hfirst hm)).trans hfirst

/-! ## RENEW_SEND (R489, R490, R494) -/

/-- The lease is renewed: RENEW goes out on X13 and a LEASE message on the arm ports; `mark` is the tick at which it was due. -/
def State.renews (s : State) (mark : BitVec 64) : State :=
  let t := (s.sendMsg 0x01 (BitVec.ofNat 64 ((if s.flt.latch then 65536 else 0) + s.field Reg.TWN_CFG 16 16))).sendLease 0 none
  { t with twn := { t.twn with renewAt := some mark } }

theorem fieldOf_low16 {x f : Nat} (hx : x = 0 ∨ x = 65536) (hf : f < 65536) : fieldOf (BitVec.ofNat 64 (x + f)) 0 16 = f := by
  rw [fieldOf, BitVec.toNat_ofNat]
  omega

theorem State.renews_spec (s : State) (mark : BitVec 64) : (s.renews mark).twn.lease = s.twn.lease ∧
    (s.renews mark).twn.renewAt = some mark ∧ (s.renews mark).twn.dutyAt = s.twn.dutyAt ∧
    (∃ o, (s.renews mark).twn.sent.head? = some o ∧ o.op = 0x01 ∧ fieldOf o.arg 0 16 = s.field Reg.TWN_CFG 16 16) ∧
    ∀ p : Fin 12, s.inUse p = true → (s.lane p).inData = true →
      ((s.renews mark).port p).ctrl = (s.port p).ctrl ++ [leaseMsg 0 none] := by
  obtain ⟨l, g, hsend⟩ := s.sendMsg_eq 0x01 (BitVec.ofNat 64 ((if s.flt.latch then 65536 else 0) + s.field Reg.TWN_CFG 16 16))
  have hports : ∀ p : Fin 12, s.inUse p = true → (s.lane p).inData = true →
      ((s.renews mark).port p).ctrl = (s.port p).ctrl ++ [leaseMsg 0 none] := fun p huse hdata => by
    change ((State.sendLease _ 0 none).port p).ctrl = _
    rw [hsend]
    exact State.port_sendLease 0 none huse hdata
  obtain ⟨q, hq⟩ := State.sendLease_portsMoved (s.sendMsg 0x01 (BitVec.ofNat 64
    ((if s.flt.latch then 65536 else 0) + s.field Reg.TWN_CFG 16 16))) 0 none
  have harg : fieldOf (BitVec.ofNat 64 ((if s.flt.latch then 65536 else 0) + s.field Reg.TWN_CFG 16 16)) 0 16 =
      s.field Reg.TWN_CFG 16 16 := by
    refine fieldOf_low16 ?_ (Nat.mod_lt _ (by decide))
    split
    · exact .inr rfl
    · exact .inl rfl
  refine ⟨?_, rfl, ?_, ?_, hports⟩ <;> rw [State.renews, hq, hsend]
  exact ⟨_, rfl, rfl, harg⟩

theorem exec_renewSend {s s1 : State} (hs1 : s1 = s.dueAgain s.twn.renewAt (s.leaseTicks / 4)) (hduty : s.duty = true)
    (hm : noMarks s) (hup : s.twinUp = true) : exec .renewSend s =
      .next (s1.leaseAudit.renews (s1.dueMark s.twn.renewAt (s.leaseTicks / 4))) := by
  obtain ⟨v, u, x, hdue⟩ := s.dueAgain_eq s.twn.renewAt (s.leaseTicks / 4)
  have hbeside := State.leaseAudit_beside (s := s1) (by rw [hs1, hdue]; exact hm)
  obtain ⟨-, -, -, -, htwn⟩ := State.fields_of_beside hbeside
  have hduty1 : ¬ s1.leaseAudit.duty = false := by
    rw [State.duty, htwn, hs1, hdue]
    simpa [State.duty] using hduty
  have hup1 : s1.leaseAudit.twinUp = true := by
    rw [State.twinUp_of_beside hbeside, hs1, hdue]
    exact hup
  change execRenewSend s = _
  rw [execRenewSend, if_neg (by simp [hduty]), ← hs1, if_neg hduty1]
  simp only [hup1, if_true]
  rfl

theorem answers_renewSend {s s1 : State} (hs1 : s1 = s.dueAgain s.twn.renewAt (s.leaseTicks / 4)) (hduty : s.duty = true)
    (hm : noMarks s) (hup : s.twinUp = true) : answers .renewSend s fun t =>
      t.twn.lease = .duty ∧ t.twn.renewAt = some (s1.dueMark s.twn.renewAt (s.leaseTicks / 4)) ∧ t.twn.dutyAt = s.twn.dutyAt ∧
      (∃ o, t.twn.sent.head? = some o ∧ o.op = 0x01 ∧ fieldOf o.arg 0 16 = s.field Reg.TWN_CFG 16 16) ∧
      ∀ p : Fin 12, s.inUse p = true → (s.lane p).inData = true →
        ∃ c, (t.port p).ctrl = (s.port p).ctrl ++ [c] ∧ c.op = 0x09 := by
  obtain ⟨v, u, x, hdue⟩ := s.dueAgain_eq s.twn.renewAt (s.leaseTicks / 4)
  have hbeside := State.leaseAudit_beside (s := s1) (by rw [hs1, hdue]; exact hm)
  obtain ⟨-, hlanes, hports, -, htwn⟩ := State.fields_of_beside hbeside
  obtain ⟨hlease, hrenew, hdutyAt, hsent, hctrl⟩ :=
    s1.leaseAudit.renews_spec (s1.dueMark s.twn.renewAt (s.leaseTicks / 4))
  have hcfg : s1.leaseAudit.field Reg.TWN_CFG 16 16 = s.field Reg.TWN_CFG 16 16 := by
    rw [State.field, State.rd_of_beside hbeside (by decide), hs1, hdue]
    rfl
  rw [hcfg] at hsent
  refine ⟨_, exec_renewSend hs1 hduty hm hup, ?_, hrenew, ?_, hsent, fun p huse hdata => ?_⟩
  · rw [hlease, htwn, hs1, hdue]
    simpa [State.duty] using hduty
  · rw [hdutyAt, htwn, hs1, hdue]
  · refine ⟨leaseMsg 0 none, (hctrl p ?_ ?_).trans ?_, rfl⟩
    · rw [State.inUse, State.sec_of_beside hbeside, hs1, hdue]
      exact huse
    · rw [State.lane, hlanes, hs1, hdue]
      exact hdata
    · rw [State.port, hports, hs1, hdue]
      rfl

/-! ## STATUS_SEND (R480) -/

/-- What STATUS says of the module. -/
def State.statusArg (s : State) : Nat :=
  s.field Reg.TWN_RES 24 8 * 256 + (if s.timeOwner then 64 else 0) + (if s.aligned then 32 else 0) +
    (if s.healthy then 16 else 0) + s.twn.lease.code

theorem LeaseSt.code_lt (l : LeaseSt) : l.code < 16 := by cases l <;> decide

theorem State.statusArg_lease (s : State) : fieldOf (BitVec.ofNat 64 s.statusArg) 0 4 = s.twn.lease.code := by
  have hcode := s.twn.lease.code_lt
  rw [fieldOf, BitVec.toNat_ofNat, State.statusArg]
  split <;> split <;> split <;> omega

theorem State.statusArg_healthy (s : State) : (BitVec.ofNat 64 s.statusArg).getLsbD 4 = s.healthy := by
  have hcode := s.twn.lease.code_lt
  rw [BitVec.getLsbD_ofNat, Nat.testBit_eq_decide_div_mod_eq, State.statusArg]
  cases s.healthy <;> simp <;> split <;> split <;> omega

/-- The module's STATUS has been due at `mark`, and its health is looked at. -/
def State.statusDue (s : State) (mark : BitVec 64) : State := { s with twn := { s.twn with statusAt := some mark } }.noteHealth

theorem exec_statusSend {s s1 : State} (hs1 : s1 = s.dueAgain s.twn.statusAt (8 * s.sec.p)) (hup : s.twinUp = true) :
    exec .statusSend s = .next ((s1.statusDue (s1.dueMark s.twn.statusAt (8 * s.sec.p))).sendMsg 0x02
      (BitVec.ofNat 64 (s1.statusDue (s1.dueMark s.twn.statusAt (8 * s.sec.p))).statusArg)) := by
  change execStatusSend s = _
  rw [execStatusSend, if_neg (by simp [hup]), ← hs1]
  rfl

theorem State.statusDue_eq {s : State} (mark : BitVec 64) (h : s.twn.lease ≠ .warm) : ∃ y b, s.statusDue mark =
    { s with twn := { s.twn with statusAt := some mark, healthyAt := y, mustHeal := b } } :=
  State.noteHealth_eq (s := { s with twn := { s.twn with statusAt := some mark } }) h

theorem answers_statusSend {s s1 : State} (hs1 : s1 = s.dueAgain s.twn.statusAt (8 * s.sec.p)) (hup : s.twinUp = true)
    (hwarm : s.twn.lease ≠ .warm) : answers .statusSend s fun t =>
      (∃ o, t.twn.sent.head? = some o ∧ o.op = 0x02 ∧ fieldOf o.arg 0 4 = s.twn.lease.code ∧ o.arg.getLsbD 4 = s.healthy) ∧
      t.twn.statusAt = some (s1.dueMark s.twn.statusAt (8 * s.sec.p)) ∧ t.twn.lease = s.twn.lease ∧ t.regs = s.regs := by
  obtain ⟨v, u, x, hdue⟩ := s.dueAgain_eq s.twn.statusAt (8 * s.sec.p)
  refine ⟨_, exec_statusSend hs1 hup, ?_⟩
  generalize s1.dueMark s.twn.statusAt (8 * s.sec.p) = mark
  obtain ⟨y, b, hstatus⟩ := State.statusDue_eq (s := s1) mark (by rw [hs1, hdue]; exact hwarm)
  obtain ⟨l, g, hsend⟩ := (s1.statusDue mark).sendMsg_eq 0x02 (BitVec.ofNat 64 (s1.statusDue mark).statusArg)
  rw [hsend]
  refine ⟨⟨_, rfl, rfl, (s1.statusDue mark).statusArg_lease.trans ?_, (s1.statusDue mark).statusArg_healthy.trans ?_⟩, ?_, ?_, ?_⟩
    <;> rw [hstatus, hs1, hdue]
  rfl

/-! ## When a message is due (R480, R489, R493, R500) -/

theorem State.dueMark_grid (s : State) (t0 : BitVec 64) (n : Nat) :
    ∃ k, s.dueMark (some t0) n = t0 + BitVec.ofNat 64 (k * n) ∧ k * n ≤ (s.now - t0).toNat :=
  ⟨(s.now - t0).toNat / n, rfl, Nat.div_mul_le_self _ n⟩

/-! ## TWIN_ECHO_SEND (R473, R474) -/

theorem exec_twinEchoSend {s : State} (hup : s.twinUp = true) (howner : s.timeOwner = false) (hofs : s.twn.ofsSet = false) :
    exec .twinEchoSend s = .next s.sendEcho := by
  change execTwinEchoSend s = _
  exact if_pos (by simp [hup, howner, hofs])

/-! ## LEASE_QUERY_SEND (R490, R493, R500) -/

theorem State.initClaim_claiming {s : State} (h : s.twn.lease = .claiming) : s.initClaim = s := by
  simp [State.initClaim, h]

/-- How far time moves on does not depend on the twin but for VT_OFS. -/
theorem State.dueAgain_withTwn (s : State) (last : Option (BitVec 64)) (n : Nat) {w : Twn} (h : w.vtOfs = s.twn.vtOfs) :
    State.dueAgain { s with twn := w } last n = { s.dueAgain last n with twn := w } := by
  have hnow : State.now { s with twn := w } = s.now := congrArg (s.tb.vt + ·) h
  cases last with
  | none => rfl
  | some t =>
    have hpower : State.powered { s with twn := w } 9 = s.powered 9 := rfl
    rw [State.dueAgain, State.dueAgain, State.advanceTo, State.advanceTo, hnow]
    cases hp : s.powered 9 <;> simp only [State.elapse, hpower, hp] <;> rfl

theorem State.dueMark_congr {s t : State} (h : t.now = s.now) (last : Option (BitVec 64)) (n : Nat) :
    t.dueMark last n = s.dueMark last n := by
  simp only [State.dueMark, h]

/-- In CLAIMING, before the CLAIM of a claim from INIT, QUERY goes out (R493). -/
theorem exec_leaseQuerySend {c : Claim} {s s1 : State} (hs1 : s1 = s.dueAgain s.twn.queryAt (2 * s.sec.p))
    (hlease : s.twn.lease = .claiming) (hclaim : s.twn.claim = some c) (hstep : c.step = .rule) (hinit : c.fromInit = true) :
    ∃ x b e, exec .leaseQuerySend s = .next (State.sendLease { s1 with twn := { s.twn with
      healthyAt := x, mustHeal := b, queryAt := some (s1.dueMark s.twn.queryAt (2 * s.sec.p)) } } 1 e) := by
  obtain ⟨v, u, net, hmove⟩ := s.dueAgain_eq s.twn.queryAt (2 * s.sec.p)
  obtain ⟨x0, b0, hfirst⟩ := State.noteHealth_eq (s := s) (by simp [hlease])
  have hdue : s.noteHealth.dueAgain s.noteHealth.twn.queryAt (2 * s.noteHealth.sec.p) =
      { s1 with twn := { s.twn with healthyAt := x0, mustHeal := b0 } } := by
    rw [hfirst, hs1]
    exact s.dueAgain_withTwn _ _ rfl
  obtain ⟨x, b, hagain⟩ := State.noteHealth_eq (s := { s1 with twn := { s.twn with healthyAt := x0, mustHeal := b0 } })
    (by simp [hlease])
  have hasks : s.noteHealth.asks = true := by
    rw [hfirst]
    simp [State.asks, hlease, hclaim, hinit]
  change ∃ x b e, execLeaseQuerySend s = _
  unfold execLeaseQuerySend
  extract_lets t0 t1 w t u' v'
  have ht0 : t0 = s.noteHealth := congrArg State.noteHealth (State.initClaim_claiming hlease)
  have ht1 : t1 = { s1 with twn := { s.twn with healthyAt := x, mustHeal := b } } := by
    change (t0.dueAgain t0.twn.queryAt (2 * t0.sec.p)).noteHealth = _
    rw [ht0, hdue, hagain]
  have hmark : t1.dueMark t0.twn.queryAt (2 * t0.sec.p) = s1.dueMark s.twn.queryAt (2 * s.sec.p) := by
    rw [ht0, hfirst]
    refine State.dueMark_congr ?_ _ _
    rw [ht1, hs1, hmove]
    rfl
  have ht : t = { s1 with twn := { s.twn with
      healthyAt := x, mustHeal := b, queryAt := some (s1.dueMark s.twn.queryAt (2 * s.sec.p)) } } := by
    change { t1 with twn := { t1.twn with queryAt := some (t1.dueMark t0.twn.queryAt (2 * t0.sec.p)) } } = _
    rw [hmark, ht1]
  have hu : u' = t := if_neg (by rw [ht]; simp [hlease])
  have hv : v' = t := by
    change (match u'.twn.claim with | some c => _ | none => _) = _
    rw [hu, ht]
    simp [hclaim, hstep]
  rw [if_pos (by rw [ht0]; exact hasks), hv, ht]
  exact ⟨_, _, _, rfl⟩

theorem exec_leaseQuerySend_silent {c : Claim} {s : State} (hlease : s.twn.lease = .claiming) (hclaim : s.twn.claim = some c)
    (hinit : c.fromInit = false) : exec .leaseQuerySend s = .next s.noteHealth := by
  obtain ⟨x, b, hnote⟩ := State.noteHealth_eq (s := s) (by simp [hlease])
  have hasks : s.noteHealth.asks = false := by
    rw [hnote]
    simp [State.asks, hlease, hclaim, hinit]
  change execLeaseQuerySend s = _
  rw [execLeaseQuerySend, State.initClaim_claiming hlease]
  simp only [hasks, Bool.false_eq_true, if_false]

theorem answers_leaseQuerySend {c : Claim} {s s1 : State} (hs1 : s1 = s.dueAgain s.twn.queryAt (2 * s.sec.p))
    (hlease : s.twn.lease = .claiming) (hclaim : s.twn.claim = some c) (hstep : c.step = .rule) (hinit : c.fromInit = true) :
    answers .leaseQuerySend s fun t => t.twn.claim = some c ∧
      t.twn.queryAt = some (s1.dueMark s.twn.queryAt (2 * s.sec.p)) ∧ t.regs = s.regs ∧
      ∀ p : Fin 12, s.inUse p = true → (s.lane p).inData = true →
        ∃ q, (t.port p).ctrl = (s.port p).ctrl ++ [q] ∧ q.op = 0x09 := by
  obtain ⟨v, u, net, hdue⟩ := s.dueAgain_eq s.twn.queryAt (2 * s.sec.p)
  obtain ⟨x, b, e, hexec⟩ := exec_leaseQuerySend hs1 hlease hclaim hstep hinit
  refine ⟨_, hexec, ?_⟩
  generalize s1.dueMark s.twn.queryAt (2 * s.sec.p) = mark
  rw [hs1, hdue]
  obtain ⟨q, hq⟩ := State.sendLease_portsMoved { s with
    tb := { s.tb with vt := v }, sys := { s.sys with up := u }, net := net
    twn := { s.twn with healthyAt := x, mustHeal := b, queryAt := some mark } } 1 e
  refine ⟨?_, ?_, ?_, fun p huse hdata => ⟨leaseMsg 1 e, State.port_sendLease 1 e huse hdata, rfl⟩⟩ <;> rw [hq]
  exact hclaim

/-- A claim from ZEPHYR asks nobody (R493). -/
theorem answers_leaseQuerySend_silent {c : Claim} {s : State} (hlease : s.twn.lease = .claiming)
    (hclaim : s.twn.claim = some c) (hinit : c.fromInit = false) : answers .leaseQuerySend s fun t =>
      t.ports = s.ports ∧ t.regs = s.regs ∧ t.twn.claim = some c := by
  obtain ⟨x, b, hnote⟩ := State.noteHealth_eq (s := s) (by simp [hlease])
  refine ⟨_, exec_leaseQuerySend_silent hlease hclaim hinit, ?_⟩
  rw [hnote]
  exact ⟨rfl, rfl, hclaim⟩

/-! ## CHECKPOINT_CAPTURE (R483 to R485) -/

/-- A checkpoint is captured and taken up by X13; `part` is the Eddy part that goes next. -/
def State.ckptTaken (s : State) (b : List Byte) (part : Nat) : State :=
  State.startXfer { s with twn := { s.twn with
    ckptAt := some s.now, ckptNo := s.twn.ckptNo + 1, ckptPart := part, ckptOut := b } }
    (some { live := false, no := s.twn.ckptNo + 1, bytes := b })

theorem State.ckptTaken_eq (s : State) (b : List Byte) (part : Nat) : ∃ x l, s.ckptTaken b part = { s with twn := { s.twn with
    ckptAt := some s.now, ckptNo := s.twn.ckptNo + 1, ckptPart := part, ckptOut := b, xfer := x, line := l } } := by
  obtain ⟨l, h⟩ := State.startXfer_eq { s with twn := { s.twn with
    ckptAt := some s.now, ckptNo := s.twn.ckptNo + 1, ckptPart := part, ckptOut := b } }
    (some { live := false, no := s.twn.ckptNo + 1, bytes := b })
  exact ⟨_, l, h⟩

theorem State.ckptCount_spec (s : State) (pc : BitVec 32) (len : Nat) : (s.ckptCount pc len).rd Reg.TWN_CKPT_PC = pc ∧
    regsBut s (s.ckptCount pc len) [Reg.TWN_CKPT_PC, Reg.TWN_CKPT_CNT, Reg.TWN_CKPT_LEN] ∧ (s.ckptCount pc len).twn = s.twn ∧
    { s.ckptCount pc len with regs := s.regs } = s := by
  refine ⟨?_, fun a ha => ?_, (State.wr_twn _ _ _).trans ((State.wr_twn _ _ _).trans (State.wr_twn _ _ _)), rfl⟩
  · rw [State.ckptCount, State.rd_wr_other _ _ _ _ (by decide), State.rd_addField_other _ _ _ _ _ _ (by decide),
      State.rd_wr_same]
  · simp only [List.mem_cons, List.not_mem_nil, or_false, not_or] at ha
    obtain ⟨hpc, hcnt, hlen⟩ := ha
    rw [State.ckptCount, State.rd_wr_other _ _ _ _ hlen, State.rd_addField_other _ _ _ _ _ _ hcnt,
      State.rd_wr_other _ _ _ _ hpc]

theorem exec_checkpointCapture {s : State} (hduty : s.duty = true) (htwin : s.twinEn = true) (hrun : s.tb.run = true)
    (hper : s.inPer = 0) (hfirst : s.twn.ckptAt = none) : ∃ b part n, exec .checkpointCapture s =
      .next (if s.twinUp then (s.ckptTaken b part).ckptCount s.tb.pc n else s.ckptTaken b part) := by
  change ∃ b part n, execCheckpointCapture s = _
  unfold execCheckpointCapture
  extract_lets due fast part b w s1
  have hdue : due = true := by
    unfold due
    rw [hfirst]
  rw [if_pos (by simp [hduty, htwin, hrun, hper, hdue])]
  exact ⟨b, part + 1, fast.length, rfl⟩

theorem answers_checkpointCapture {s : State} (hduty : s.duty = true) (htwin : s.twinEn = true) (hrun : s.tb.run = true)
    (hper : s.inPer = 0) (hfirst : s.twn.ckptAt = none) : answers .checkpointCapture s fun t =>
      t.twn.ckptAt = some s.now ∧ t.twn.ckptNo = s.twn.ckptNo + 1 ∧
      (s.twinUp = true → t.rd Reg.TWN_CKPT_PC = s.tb.pc) ∧ (s.twinUp = false → t.regs = s.regs) ∧
      regsBut s t [Reg.TWN_CKPT_PC, Reg.TWN_CKPT_CNT, Reg.TWN_CKPT_LEN] ∧ { t with twn := s.twn, regs := s.regs } = s := by
  obtain ⟨b, part, n, hexec⟩ := exec_checkpointCapture hduty htwin hrun hper hfirst
  obtain ⟨x, l, htaken⟩ := s.ckptTaken_eq b part
  refine ⟨_, hexec, ?_⟩
  cases hup : s.twinUp
  · rw [if_neg (by decide), htaken]
    exact ⟨rfl, rfl, nofun, fun _ => rfl, fun _ _ => rfl, rfl⟩
  · obtain ⟨hpc, hregs, htwn, hrest⟩ := (s.ckptTaken b part).ckptCount_spec s.tb.pc n
    rw [if_pos rfl]
    refine ⟨by rw [htwn, htaken], by rw [htwn, htaken], fun _ => hpc, nofun, fun a ha => (hregs a ha).trans ?_, ?_⟩
    · rw [htaken]; rfl
    · rw [htaken] at hrest ⊢
      exact congrArg (fun u : State => { u with twn := s.twn }) hrest

/-! ## LIVE_CAPTURE (R508) -/

/-- The LIVE transfer of a handover is captured and taken up by X13. -/
def State.liveTaken (s : State) (h : Hand) (b : List Byte) : State :=
  State.startXfer { s with twn := { s.twn with handNo := s.twn.handNo + 1, hand := some { h with live := b, captured := true } } }
    (some { live := true, no := s.twn.handNo + 1, bytes := b })

theorem exec_liveCapture {h : Hand} {s : State} (hlease : s.twn.lease = .handing) (hhand : s.twn.hand = some h)
    (hcap : h.captured = false) (hpc : s.tb.pc = h.h - 1) : ∃ b,
      exec .liveCapture s = .next ((s.advanceTo (s.tickAt s.sec.eStart)).liveTaken h b) := by
  change ∃ b, execLiveCapture s = _
  refine ⟨(s.advanceTo (s.tickAt s.sec.eStart)).liveBytes h.h, ?_⟩
  simp only [execLiveCapture, hlease, hhand, hcap, hpc, and_self, if_true]
  rfl

theorem answers_liveCapture {h : Hand} {s : State} (hlease : s.twn.lease = .handing) (hhand : s.twn.hand = some h)
    (hcap : h.captured = false) (hpc : s.tb.pc = h.h - 1) : answers .liveCapture s fun t =>
      (∃ l, t.twn.hand = some { h with live := l, captured := true }) ∧ t.twn.handNo = s.twn.handNo + 1 ∧
      t.twn.lease = .handing ∧ t.regs = s.regs := by
  obtain ⟨b, hexec⟩ := exec_liveCapture hlease hhand hcap hpc
  obtain ⟨v, u, x, hmove⟩ := s.advanceTo_eq (s.tickAt s.sec.eStart)
  refine ⟨_, hexec, ?_⟩
  rw [hmove]
  obtain ⟨l, hx⟩ := State.startXfer_eq { s with
    tb := { s.tb with vt := v }, sys := { s.sys with up := u }, net := x
    twn := { s.twn with handNo := s.twn.handNo + 1, hand := some { h with live := b, captured := true } } }
    (some { live := true, no := s.twn.handNo + 1, bytes := b })
  rw [State.liveTaken, hx]
  exact ⟨⟨b, rfl⟩, rfl, hlease, rfl⟩

end Sys2Proof.Machine

namespace Sys2Proof.Twin

open Sys2Proof.Machine Sys2Proof.Safety

/-- Settles O43, by what each sending makes of the twin and of the ports, at the time to which it moves on. -/
theorem twinSendsWhenDue : Obligations.TwinSendsWhenDue := by
  refine ⟨fun s s1 hs1 hduty hm hup => answers_renewSend hs1 hduty hm hup,
    fun s s1 hs1 hup hwarm => answers_statusSend hs1 hup hwarm,
    fun t0 n s hgo => ⟨rfl, State.now_advanceTo hgo _, s.dueMark_grid t0 n⟩, fun s hup howner hofs => ?_,
    fun c s s1 hs1 hlease hclaim hstep => ⟨fun hinit => answers_leaseQuerySend hs1 hlease hclaim hstep hinit,
      fun hinit => answers_leaseQuerySend_silent hlease hclaim hinit⟩,
    fun s hduty htwin hrun hper hfirst => answers_checkpointCapture hduty htwin hrun hper hfirst,
    fun h s hlease hhand hcap hpc => answers_liveCapture hlease hhand hcap hpc⟩
  obtain ⟨l, g, hsend⟩ := s.sendMsg_eq 0x08 0
  refine ⟨_, exec_twinEchoSend hup howner hofs, ?_⟩
  rw [State.sendEcho, hsend]
  exact ⟨⟨_, rfl, rfl, rfl⟩, rfl, rfl, rfl⟩

end Sys2Proof.Twin
end

section
/-! A claim, step by step (R491 to R506): what the loading of the engines and a restore leave of the twin, and what each event makes
of the claim. -/

namespace Sys2Proof.Machine

open Sys2Proof.Safety

/-! ## Loading the engines, and a restore, leave the twin (R342, R502, R504, R506) -/

@[simp] theorem State.twn_ite (c : Prop) [Decidable c] (s t : State) : (if c then s else t).twn = if c then s.twn else t.twn :=
  apply_ite State.twn c s t

theorem State.twn_foldl {α : Type} (f : State → α → State) (h : ∀ (t : State) (a : α), (f t a).twn = t.twn) (l : List α)
    (s : State) : (l.foldl f s).twn = s.twn := State.foldl_view State.twn f h l s

@[simp] theorem State.loadCues_twn (s : State) : s.loadCues.twn = s.twn := by
  unfold State.loadCues
  split
  · refine State.twn_foldl _ (fun t e => ?_) _ s
    rfl
  · rfl

@[simp] theorem State.applyLe_twn (s : State) (t : ParTables) : (s.applyLe t).twn = s.twn :=
  State.twn_foldl _ (fun u e => u.setLe_twn e _) _ s

/-- The loop island's parameters, as they are loaded when its domain is switched on. -/
@[simp] theorem State.applyIsland_twn (s : State) (t : ParTables) (p : Nat) (par samePer : Bool) :
    (s.applyIsland t p false par samePer).twn = s.twn := by
  unfold State.applyIsland
  extract_lets eddy mem isl0 s1 s2 s3 s4
  have hs2 : s2.twn = s1.twn := by
    unfold s2
    refine State.twn_foldl _ (fun u q => ?_) _ s1
    exact u.wr_twn q.2 _
  have hs4 : s4.twn = s3.twn := by
    unfold s4
    refine State.twn_foldl _ (fun u q => ?_) _ s3
    exact u.wrPair_twn (Reg.LE_MCORR q.1) q.2
  rw [if_neg (by decide), hs4, State.setField_twn, hs2]

@[simp] theorem State.applyAe_twn (s : State) (n : Nat) (t : ParTables) : (s.applyAe n t).twn = s.twn := by
  unfold State.applyAe
  split <;> rfl

@[simp] theorem State.aeCensus_twn (s : State) (n : Nat) : (s.aeCensus n).twn = s.twn := by
  unfold State.aeCensus
  split <;> rfl

@[simp] theorem State.loadArms_twn (s : State) (d : Nat) : (s.loadArms d).twn = s.twn := by
  simp [State.loadArms, State.twn_foldl]

@[simp] theorem State.loadLoops_twn (s : State) : s.loadLoops.twn = s.twn := by
  simp [State.loadLoops]

@[simp] theorem State.loadDomain_twn (s : State) (d : Nat) : (s.loadDomain d).twn = s.twn := by
  unfold State.loadDomain
  split
  · split <;> simp
  · rfl

@[simp] theorem State.loadEngines_twn (s : State) : s.loadEngines.twn = s.twn :=
  State.twn_foldl _ State.loadDomain_twn _ s

@[simp] theorem State.enginesOn_twn (s : State) : s.enginesOn.twn = s.twn := by
  have hstep : ∀ (t : State) (d : Nat), isEngine d → (if t.sys.cfg.dev.pdUse.getLsbD d then
      { t.domainOn d with sys := { (t.domainOn d).sys with rail := (t.domainOn d).sys.rail ||| ((1 : BitVec 14) <<< d) } }
      else t).twn = t.twn := fun t d hd => by
    split
    · exact (t.domainOn_enginesOnly hd).twn
    · rfl
  rw [State.enginesOn, State.loadEngines_twn]
  exact (hstep _ 4 (.inr (.inr rfl))).trans ((hstep _ 3 (.inr (.inl rfl))).trans (hstep s 2 (.inl rfl)))

theorem State.writeSlots_twn (s : State) (l : List (Nat × Nat)) (b : List Byte) (off : Nat) :
    (s.writeSlots l b off).twn = s.twn := by
  refine State.twn_foldl _ (fun t q => ?_) _ s
  rfl

theorem State.armsFromCkpt_twn (s : State) (b : List Byte) (off : Nat) (tracked : Bool) :
    (s.armsFromCkpt b off tracked).twn = s.twn := by
  unfold State.armsFromCkpt
  exact List.foldlRecOn (motive := fun m : State × Nat => m.1.twn = s.twn) _ _ rfl fun m hm n _ => hm

@[simp] theorem State.restoreFrom_twn (s : State) (b : List Byte) (tracked : Bool) : (s.restoreFrom b tracked).twn = s.twn := by
  unfold State.restoreFrom
  extract_lets ord isl0 s1 sl
  rw [State.armsFromCkpt_twn, State.writeSlots_twn]

@[simp] theorem State.resumePrev_twn (s : State) : s.resumePrev.twn = s.twn := by
  refine State.twn_foldl _ (fun t n => ?_) _ s
  split <;> rfl

/-! ## The CLAIM (R490, R492, R502) -/

/-- A claim whose CLAIM goes out now with an epoch. -/
def Claim.sentAt (c : Claim) (t : BitVec 64) (e : BitVec 16) : Claim :=
  { c with step := .sent, stepAt := t, epoch := e, epochC := ~~~ e, confirmed := 0 }

theorem State.sendClaim_spec (s : State) (c : Claim) (e : BitVec 16) :
    (s.sendClaim c e).twn = { s.twn with claim := some (c.sentAt s.now e) } ∧ (s.sendClaim c e).regs = s.regs ∧
    (s.sendClaim c e).key = s.key ∧
    ∀ p : Fin 12, s.inUse p = true → (s.lane p).inData = true →
      ((s.sendClaim c e).port p).ctrl = (s.port p).ctrl ++ [leaseMsg 2 (some e)] := by
  obtain ⟨q, hq⟩ := s.sendLease_portsMoved 2 (some e)
  refine ⟨?_, ?_, ?_, fun p huse hdata => ?_⟩
  · rw [State.sendClaim, hq]; rfl
  · rw [State.sendClaim, hq]; rfl
  · rw [State.sendClaim, hq]; rfl
  · exact State.port_sendLease 2 (some e) huse hdata

/-- Every port in use is ready for the CLAIM. -/
def State.portsClaim (s : State) (c : Claim) : Prop :=
  ∀ p, p < 12 → s.inUse p = true → (s.lane p).inData = true ∧ (c.fromInit = true ∨ (s.port p).censusOk = true)

theorem State.claimNow_ready {s : State} {c : Claim} (h : s.portsClaim c) : s.claimNow c = s.sendClaim c (s.highEpoch + 1) := by
  have hgood : (s.portsUsed.any fun n => !(s.lane n).inData || (!c.fromInit && !(s.port n).censusOk)) = false := by
    refine List.any_eq_false.mpr fun n hn => ?_
    obtain ⟨hlt, huse⟩ := State.mem_portsUsed.mp hn
    obtain ⟨hdata, hok⟩ := h n hlt huse
    rcases hok with hok | hok <;> simp [hdata, hok]
  simp only [State.claimNow, hgood, Bool.false_eq_true, if_false]

/-! ## The steps of a claim (R491 to R506) -/

theorem exec_leaseViewExpiry {t0 : BitVec 64} {s : State} (hview : s.twn.viewTo = some t0) (hholds : s.holds = false) :
    exec .leaseViewExpiry s = .next (s.advanceTo t0).viewEnds := by
  change execLeaseViewExpiry s = _
  simp only [execLeaseViewExpiry, hview, hholds, Bool.false_eq_true, if_false]

section
variable {c : Claim} {s : State} (hclaim : s.twn.claim = some c)
include hclaim

theorem exec_enginePowerUpDone (ok : Bool) (hstep : c.step = .power) : exec (.enginePowerUpDone ok) s =
    .next (if ok then s.enginesOn.setClaim (some { c with step := .restore, stepAt := s.now }) else s.twnFail 0x14) := by
  change execEnginePowerUpDone ok s = _
  simp only [execEnginePowerUpDone, hclaim, hstep, if_true]

theorem exec_restoreDone {b : List Byte} (hstep : c.step = .restore) (hheld : s.restorable = some b) : exec .restoreDone s =
    .next ((s.restoreFrom b false).resumePrev.setClaim (some { c with step := .rule, stepAt := s.now })) := by
  change execRestoreDone s = _
  simp only [execRestoreDone, hclaim, hstep, hheld, if_true]

theorem exec_restoreDone_none (hstep : c.step = .restore) (hheld : s.restorable = none) :
    exec .restoreDone s = .next (s.twnFail 0x11) := by
  change execRestoreDone s = _
  simp only [execRestoreDone, hclaim, hstep, hheld, if_true]

/-- The bound of a step in microseconds, and its result code (R502, R505). -/
def ClaimStep.bound (x : ClaimStep) : Nat × Nat :=
  match x with
  | .power => (80, 0x10) | .restore => (120, 0x11) | _ => (40, 0x12)

theorem exec_claimStepTimeout (hinit : c.fromInit = false) (hstep : c.step = .power ∨ c.step = .restore ∨ c.step = .sent) :
    exec .claimStepTimeout s =
      .next ((s.advanceTo (c.stepAt + BitVec.ofNat 64 (us c.step.bound.1))).twnFail c.step.bound.2) := by
  change execClaimStepTimeout s = _
  rcases hstep with h | h | h <;> simp [execClaimStepTimeout, hclaim, hinit, h, ClaimStep.bound]

theorem exec_claimConfirmTimeout (hinit : c.fromInit = true) (hstep : c.step = .sent) : exec .claimConfirmTimeout s =
    .next (if c.tries < 256
      then (s.advanceTo (c.stepAt + BitVec.ofNat 64 (4 * s.per))).sendClaim { c with tries := c.tries + 1 } (c.epoch + 0x0100)
      else (s.advanceTo (c.stepAt + BitVec.ofNat 64 (4 * s.per))).twnFail 0x17) := by
  change execClaimConfirmTimeout s = _
  simp only [execClaimConfirmTimeout, hclaim, hinit, hstep, and_self, if_true]

end

section
variable {c : Claim} {s : State} (hlease : s.twn.lease = .claiming) (hclaim : s.twn.claim = some c)
include hlease hclaim

theorem exec_claimSend {m : BitVec 64} (hmet : c.metAt = some m) (hstep : c.step = .rule)
    (hsince : s.since m s.claimDelay = true) : exec .claimSend s = .next (s.claimNow c) := by
  have hmay : s.claimMay c = true := by
    rw [State.claimMay, hmet]
    cases s.twinEn
    · rfl
    · exact hsince
  change execClaimSend s = _
  simp only [execClaimSend, hlease, hclaim, hstep, hmay, and_self, if_true]

theorem exec_claimDelayExpiry {m : BitVec 64} (hmet : c.metAt = some m) (hstep : c.step = .rule) (hdelay : 0 < s.claimDelay) :
    exec .claimDelayExpiry s = .next ((s.advanceTo (m + BitVec.ofNat 64 s.claimDelay)).claimNow c) := by
  change execClaimDelayExpiry s = _
  simp only [execClaimDelayExpiry, hlease, hclaim, hmet, hstep, hdelay, and_self, if_true]

theorem exec_epochLearnTimeout (hstep : c.step = .learn) (hknown : s.twn.epochKnown = false) : ∃ t : State,
    t = s.advanceTo (s.twn.quietFrom + BitVec.ofNat 64 (us 2000)) ∧
      exec .epochLearnTimeout s = .next ((t.learnEpoch t.key.epoch).sendClaim c (t.key.epoch + 1)) := by
  refine ⟨_, rfl, ?_⟩
  change execEpochLearnTimeout s = _
  simp only [execEpochLearnTimeout, hlease, hclaim, hstep, hknown, and_self, if_true]

end

/-! ## What the steps make of the claim -/

theorem answers_leaseViewExpiry {t0 : BitVec 64} {s : State} (hview : s.twn.viewTo = some t0) (hlease : s.twn.lease = .zephyr)
    (hheal : s.twn.mustHeal = false) (hclaim : s.twn.claim = none) : answers .leaseViewExpiry s fun t => t.twn.viewTo = none ∧
      (s.mayPower = true → ∀ d, d ∈ [2, 3, 4] → s.sys.cfg.dev.pdUse.getLsbD d = true → t.powered d = true) ∧
      (∀ a, outsideEngines a → t.rd a = s.rd a) ∧
      t.twn.claim = some { step := .power, stepAt := (s.advanceTo t0).now, began := (s.advanceTo t0).now } := by
  obtain ⟨v, u, x, hmove⟩ := s.advanceTo_eq t0
  obtain ⟨hnone, hstep, hon, hrd⟩ := State.viewEnds_spec (s := s.advanceTo t0) (by rw [hmove]; exact hlease)
    (by rw [hmove]; exact hheal) (by rw [hmove]; exact hclaim)
  refine ⟨_, exec_leaseViewExpiry hview (by simp [State.holds, hlease]), hnone, ?_, fun a ha => (hrd a ha).trans ?_, hstep⟩
  · rw [hmove] at hon ⊢
    exact hon
  · rw [hmove]; rfl

section
variable {c : Claim} {s : State} (hclaim : s.twn.claim = some c)
include hclaim

theorem answers_enginePowerUpDone (hm : noMarks s) (hstep : c.step = .power) :
    (answers (.enginePowerUpDone true) s fun t => t.twn.claim = some { c with step := .restore, stepAt := s.now }) ∧
      answers (.enginePowerUpDone false) s fun t => t.twn.lease = .failed ∧ t.twn.claim = none ∧
        t.field Reg.TWN_RES 24 8 = 0x14 := by
  obtain ⟨hfailed, hnone, hres, -⟩ := State.twnFail_spec (c := 0x14) (by decide) hm
  exact ⟨⟨_, exec_enginePowerUpDone hclaim true hstep, rfl⟩,
    ⟨_, exec_enginePowerUpDone hclaim false hstep, hfailed, hnone, hres⟩⟩

theorem answers_restoreDone (hm : noMarks s) (hstep : c.step = .restore) :
    (s.restorable.isSome = true → answers .restoreDone s fun t => t.twn.claim = some { c with step := .rule, stepAt := s.now }) ∧
      (s.restorable = none → answers .restoreDone s fun t => t.twn.lease = .failed ∧ t.twn.claim = none ∧
        t.field Reg.TWN_RES 24 8 = 0x11) := by
  refine ⟨fun hsome => ?_, fun hnone => ?_⟩
  · obtain ⟨b, hb⟩ := Option.isSome_iff_exists.mp hsome
    exact ⟨_, exec_restoreDone hclaim hstep hb, rfl⟩
  · obtain ⟨hfailed, hgone, hres, -⟩ := State.twnFail_spec (c := 0x11) (by decide) hm
    exact ⟨_, exec_restoreDone_none hclaim hstep hnone, hfailed, hgone, hres⟩

theorem answers_claimStepTimeout (hm : noMarks s) (hinit : c.fromInit = false)
    (hstep : c.step = .power ∨ c.step = .restore ∨ c.step = .sent) : answers .claimStepTimeout s fun t =>
      t.twn.lease = .failed ∧ t.twn.claim = none ∧ t.bitOf Reg.TWN_EVT 1 = true ∧
      t.field Reg.TWN_RES 24 8 = (match c.step with | .power => 0x10 | .restore => 0x11 | _ => 0x12) := by
  obtain ⟨v, u, x, hmove⟩ := s.advanceTo_eq (c.stepAt + BitVec.ofNat 64 (us c.step.bound.1))
  have hcode : c.step.bound.2 < 256 := by cases c.step <;> decide
  obtain ⟨hfailed, hnone, hres, hbit⟩ := State.twnFail_spec
    (s := s.advanceTo (c.stepAt + BitVec.ofNat 64 (us c.step.bound.1))) hcode (by rw [hmove]; exact hm)
  refine ⟨_, exec_claimStepTimeout hclaim hinit hstep, hfailed, hnone, hbit, hres.trans ?_⟩
  cases c.step <;> rfl

theorem answers_claimConfirmTimeout (hm : noMarks s) (hinit : c.fromInit = true) (hstep : c.step = .sent) :
    (c.tries < 256 → answers .claimConfirmTimeout s fun t => ∃ d, t.twn.claim = some d ∧ d.step = .sent ∧
        d.tries = c.tries + 1 ∧ d.epoch = c.epoch + 0x0100) ∧
      (256 ≤ c.tries → answers .claimConfirmTimeout s fun t => t.twn.lease = .failed ∧ t.field Reg.TWN_RES 24 8 = 0x17) := by
  obtain ⟨v, u, x, hmove⟩ := s.advanceTo_eq (c.stepAt + BitVec.ofNat 64 (4 * s.per))
  have hexec := exec_claimConfirmTimeout hclaim hinit hstep
  refine ⟨fun hlt => ?_, fun hge => ?_⟩
  · rw [if_pos hlt] at hexec
    exact ⟨_, hexec, _, rfl, rfl, rfl, rfl⟩
  · obtain ⟨hfailed, -, hres, -⟩ := State.twnFail_spec (s := s.advanceTo (c.stepAt + BitVec.ofNat 64 (4 * s.per)))
      (c := 0x17) (by decide) (by rw [hmove]; exact hm)
    rw [if_neg (Nat.not_lt.mpr hge)] at hexec
    exact ⟨_, hexec, hfailed, hres⟩

end

section
variable {c : Claim} {s : State} (hlease : s.twn.lease = .claiming) (hclaim : s.twn.claim = some c)
include hlease hclaim

theorem answers_claimSend {m : BitVec 64} (hmet : c.metAt = some m) (hstep : c.step = .rule) (hports : s.portsClaim c)
    (hsince : s.since m s.claimDelay = true) : answers .claimSend s fun t =>
      t.twn.claim = some (c.sentAt s.now (s.highEpoch + 1)) ∧
      ∀ p : Fin 12, s.inUse p = true → ∃ q, (t.port p).ctrl = (s.port p).ctrl ++ [q] ∧ q.op = 0x09 ∧
        q.epoch = some (s.highEpoch + 1) := by
  obtain ⟨htwn, -, -, hctrl⟩ := s.sendClaim_spec c (s.highEpoch + 1)
  refine ⟨_, (exec_claimSend hlease hclaim hmet hstep hsince).trans (congrArg _ (State.claimNow_ready hports)), ?_,
    fun p huse => ⟨leaseMsg 2 (some (s.highEpoch + 1)), hctrl p huse (hports p p.isLt huse).1, rfl, rfl⟩⟩
  rw [htwn]

theorem answers_claimDelayExpiry {m : BitVec 64} (hmet : c.metAt = some m) (hstep : c.step = .rule) (hports : s.portsClaim c)
    (hdelay : 0 < s.claimDelay) : answers .claimDelayExpiry s fun t => ∃ d, t.twn.claim = some d ∧ d.step = .sent ∧
      d.epoch = s.highEpoch + 1 := by
  obtain ⟨v, u, x, hmove⟩ := s.advanceTo_eq (m + BitVec.ofNat 64 s.claimDelay)
  have hready := State.claimNow_ready (s := s.advanceTo (m + BitVec.ofNat 64 s.claimDelay)) (c := c)
    (by rw [hmove]; exact hports)
  refine ⟨_, (exec_claimDelayExpiry hlease hclaim hmet hstep hdelay).trans (congrArg _ hready), _, rfl, rfl, ?_⟩
  rw [hmove]; rfl

theorem answers_epochLearnTimeout (hstep : c.step = .learn) (hknown : s.twn.epochKnown = false) :
    answers .epochLearnTimeout s fun t => t.twn.epochKnown = true ∧ t.epoch = s.key.epoch ∧ ∃ d, t.twn.claim = some d ∧
      d.step = .sent ∧ d.epoch = s.key.epoch + 1 := by
  obtain ⟨t, ht, hexec⟩ := exec_epochLearnTimeout hlease hclaim hstep hknown
  obtain ⟨v, u, x, hmove⟩ := s.advanceTo_eq (s.twn.quietFrom + BitVec.ofNat 64 (us 2000))
  have hkey : t.key = s.key := by rw [ht, hmove]
  obtain ⟨-, hlearn⟩ := t.learnEpoch_spec t.key.epoch
  obtain ⟨hepoch, hnow⟩ := hlearn (.inl (by rw [ht, hmove]; exact hknown))
  obtain ⟨htwn, hregs, hkept, -⟩ := (t.learnEpoch t.key.epoch).sendClaim_spec c (t.key.epoch + 1)
  refine ⟨_, hexec, ?_, ?_, _, congrArg Twn.claim htwn, rfl, by rw [hkey]; rfl⟩
  · rw [htwn, ← hnow]
  · rw [State.epoch_congr (by rw [State.rd, hregs, State.rd]) (by rw [State.rd, hregs, State.rd]) hkept, hepoch, hkey]

end

/-! ## PARTNER_TIMEOUT (R473) -/

theorem exec_partnerTimeout {s : State} (hlease : s.twn.lease = .init) (hstage : 4 ≤ s.sys.stage) (hofs : s.twn.ofsSet = false)
    (hpartner : s.twn.partner = none) : exec .partnerTimeout s =
      .next { s.advanceTo (s.twn.initAt + BitVec.ofNat 64 (us 100000)) with
        twn := { (s.advanceTo (s.twn.initAt + BitVec.ofNat 64 (us 100000))).twn with ofsSet := true, owner := true } } := by
  change execPartnerTimeout s = _
  rw [execPartnerTimeout, if_pos ⟨hlease, hstage, hofs, by rw [hpartner]; rfl⟩]

/-! ## RECLAIM_HEALTH_TIMER (R495 to R497, R506) -/

/-- A primary that enters WARM asks for the lease with RECLAIM. -/
theorem State.enterWarm_spec (s : State) : s.enterWarm.twn.lease = .warm ∧ s.enterWarm.twn.mustHeal = s.twn.mustHeal ∧
    ∃ o, s.enterWarm.twn.sent.head? = some o ∧ o.op = 0x04 := by
  obtain ⟨⟨x, ln, b, hlease⟩, -⟩ := s.setLease_spec .warm
  unfold State.enterWarm
  extract_lets t u
  have htwn : u.twn = (s.setLease .warm).twn := by
    have ht : t.twn = (s.setLease .warm).twn := State.enginesOn_twn _
    unfold u
    split
    · rw [State.resumePrev_twn, State.restoreFrom_twn, ht]
    · exact ht
  obtain ⟨l, g, hsend⟩ := u.sendMsg_eq 0x04 0
  rw [hsend, htwn, hlease]
  exact ⟨rfl, rfl, _, rfl, rfl⟩

/-- Once the module has been healthy for T_RECLAIM it need not heal before it claims (R497). -/
theorem State.noteHealth_healed {h : BitVec 64} {s : State} (hok : s.healthy = true) (hat : s.twn.healthyAt = some h)
    (hsince : s.since h s.reclaimTicks = true) : s.noteHealth = { s with twn := { s.twn with mustHeal := false } } := by
  simp only [State.noteHealth, hok, hat, hsince, if_true]

theorem exec_reclaimHealthTimer {h : BitVec 64} {p : Partner} {s s1 : State} (hok : s.healthy = true)
    (hat : s.twn.healthyAt = some h) (hs1 : s1 = s.advanceTo (h + BitVec.ofNat 64 s.reclaimTicks))
    (hsince : s1.since h s1.reclaimTicks = true) (hlease : s.twn.lease = .zephyr) (htwin : s.twinEn = true)
    (hprimary : s.twn.secondary = false) (hpartner : s.twn.partner = some p) (hduty : p.lease = 3)
    (hauto : s.bitOf Reg.TWN_CFG 2 = true) : exec (.reclaimHealthTimer true) s =
      .next (State.enterWarm { s1 with twn := { s1.twn with mustHeal := false } }) := by
  obtain ⟨v, u, x, hmove⟩ := s.advanceTo_eq (h + BitVec.ofNat 64 s.reclaimTicks)
  have hnote : s1.noteHealth = { s1 with twn := { s1.twn with mustHeal := false } } := by
    refine State.noteHealth_healed (h := h) ?_ ?_ hsince <;> rw [hs1, hmove]
    · exact hok
    · exact hat
  have hmay : s1.noteHealth.twn.lease = .zephyr ∧ s1.noteHealth.twinEn = true ∧ s1.noteHealth.twn.secondary = false ∧
      (s1.noteHealth.twn.partner.map (·.lease)) = some 3 ∧ s1.noteHealth.bitOf Reg.TWN_CFG 2 = true := by
    rw [hnote, hs1, hmove]
    exact ⟨hlease, htwin, hprimary, by simp [hpartner, hduty], hauto⟩
  change execReclaimHealthTimer true s = _
  simp only [execReclaimHealthTimer, hok, hat, ← hs1]
  rw [if_pos hmay, hnote]
  rfl

end Sys2Proof.Machine

namespace Sys2Proof.Twin

open Sys2Proof.Machine Sys2Proof.Safety

/-- Settles O44, by what each event makes of the claim at the step it stands at, at the time to which it moves on. -/
theorem claimGoesStepByStep : Obligations.ClaimGoesStepByStep := by
  refine ⟨fun t0 s hview hlease hheal hclaim => answers_leaseViewExpiry hview hlease hheal hclaim,
    fun c s hclaim hm => ⟨answers_enginePowerUpDone hclaim hm, answers_restoreDone hclaim hm,
      answers_claimStepTimeout hclaim hm, answers_claimConfirmTimeout hclaim hm⟩,
    fun c m s hlease hclaim hmet hstep hports => ⟨answers_claimSend hlease hclaim hmet hstep hports,
      answers_claimDelayExpiry hlease hclaim hmet hstep hports⟩,
    fun c s hlease hclaim hstep hknown => answers_epochLearnTimeout hlease hclaim hstep hknown,
    fun s hlease hstage hofs hpartner => ⟨_, exec_partnerTimeout hlease hstage hofs hpartner, ?_⟩,
    fun h p s s1 hok hat hs1 hsince hlease htwin hprimary hpartner hduty hauto =>
      ⟨_, exec_reclaimHealthTimer hok hat hs1 hsince hlease htwin hprimary hpartner hduty hauto, State.enterWarm_spec _⟩⟩
  obtain ⟨v, u, x, hmove⟩ := s.advanceTo_eq (s.twn.initAt + BitVec.ofNat 64 (us 100000))
  rw [hmove]
  exact ⟨rfl, rfl, hlease, rfl⟩

end Sys2Proof.Twin
end

section
/-! Every well-formed command is answered (R518, R543): what each meaning answers, by the decisions it takes. -/

namespace Sys2Proof.Machine

open Sys2Proof.Safety

theorem goesOn_next {t : State} : goesOn (.next t) := ⟨t, rfl⟩

/-- A decision between two answers is an answer. -/
theorem goesOn_ite {c : Prop} [Decidable c] {a b : Res} (h : goesOn a) (k : goesOn b) : goesOn (if c then a else b) := by
  split
  · exact h
  · exact k

theorem goesOn_else {c : Prop} [Decidable c] {t : State} {b : Res} (k : goesOn b) : goesOn (if c then .next t else b) :=
  goesOn_ite goesOn_next k

theorem goesOn_either {c : Prop} [Decidable c] {t u : State} : goesOn (if c then .next t else .next u) :=
  goesOn_else goesOn_next

/-! ## The meanings that decide by what they find in the state or in an operand -/

section
variable (s : State)

theorem execRegisterWrite_goesOn (w : Initiator) (a : BitVec 64) (v : BusVal) : goesOn (execRegisterWrite w a v s) := by
  unfold execRegisterWrite
  extract_lets n ok
  split
  · exact goesOn_either
  · exact goesOn_next
  · exact goesOn_else (goesOn_either)

theorem execEmitStart_goesOn (p : Fin 12) : goesOn (execEmitStart p s) := by
  unfold execEmitStart
  extract_lets s1 x
  refine goesOn_else ?_
  split
  · exact goesOn_next
  · exact goesOn_either

theorem execWordReceive_goesOn (src dst : Fin 34) : goesOn (execWordReceive src dst s) := by
  unfold execWordReceive
  extract_lets k c
  split
  · exact goesOn_next
  · exact goesOn_either

theorem execTrainingStageDone_goesOn (p : Fin 13) (st : LaneSt) (m : StageMeas) : goesOn (execTrainingStageDone p st m s) := by
  unfold execTrainingStageDone
  split <;> exact goesOn_next

theorem execPrbsCheck_goesOn (l : DataLane) (group : BitVec 2) : goesOn (execPrbsCheck l group s) := by
  unfold execPrbsCheck
  extract_lets p x c
  split <;> exact goesOn_next

theorem execLolAssert_goesOn (p : Fin 13) (cause : LolCause) : goesOn (execLolAssert p cause s) := by
  unfold execLolAssert
  refine goesOn_else ?_
  split <;> exact goesOn_next

theorem execEchoResponse_goesOn (p : Fin 12) (target : BitVec 24) (seq : BitVec 8) (ui : Fin 32) :
    goesOn (execEchoResponse p target seq ui s) := by
  unfold execEchoResponse
  extract_lets x d
  split <;> exact goesOn_next

theorem execBarrierResponse_goesOn (p : Fin 12) (id nack : BitVec 8) : goesOn (execBarrierResponse p id nack s) := by
  unfold execBarrierResponse
  split
  · exact goesOn_next
  · exact goesOn_either

theorem execCtrlBlockSend_goesOn (p : Fin 12) : goesOn (execCtrlBlockSend p s) := by
  unfold execCtrlBlockSend
  extract_lets x t
  split
  · exact goesOn_next
  · exact goesOn_else (goesOn_either)

theorem execEchoTimeout_goesOn (p : Fin 12) : goesOn (execEchoTimeout p s) := by
  unfold execEchoTimeout
  extract_lets x late
  split
  · exact goesOn_next
  · exact goesOn_either

theorem execBarrierTimeout_goesOn (p : Fin 12) : goesOn (execBarrierTimeout p s) := by
  unfold execBarrierTimeout
  split <;> exact goesOn_next

theorem execLevelOrderReceive_goesOn (dst : LevelDst) (pcLo : BitVec 16) (lam lamC cur curC : Option Word) :
    goesOn (execLevelOrderReceive dst pcLo lam lamC cur curC s) := by
  unfold execLevelOrderReceive
  refine goesOn_else ?_
  split <;> exact goesOn_next

theorem execCueStart_goesOn (e : Fin 4) (i : Fin 2048) (dmg : CueDamage) : goesOn (execCueStart e i dmg s) := by
  unfold execCueStart
  split
  · exact goesOn_next
  · split
    · exact goesOn_next
    · exact goesOn_else (goesOn_else (goesOn_else (goesOn_either)))

theorem execTransferReceive_goesOn (w : BitVec 64) (vals comps : List Word) (held : List Bool) (damage : List Nat) :
    goesOn (execTransferReceive w vals comps held damage s) := by
  unfold execTransferReceive
  split
  · exact goesOn_next
  · exact goesOn_either

theorem execCreditWaitTimeout_goesOn (src dst : Fin 34) : goesOn (execCreditWaitTimeout src dst s) := by
  unfold execCreditWaitTimeout
  split <;> exact goesOn_next

theorem execFaultEvent_goesOn (word : BitVec 64) (damage : Option FltDamage) : goesOn (execFaultEvent word damage s) := by
  unfold execFaultEvent
  split <;> exact goesOn_next

theorem execLullExpiry_goesOn (n : Fin 256) : goesOn (execLullExpiry n s) := by
  unfold execLullExpiry
  extract_lets x
  split <;> exact goesOn_next

theorem execInjectionFire_goesOn : goesOn (execInjectionFire s) := by
  unfold execInjectionFire
  split
  · exact goesOn_next
  · exact goesOn_either

theorem execGustArmEffect_goesOn : goesOn (execGustArmEffect s) := by
  unfold execGustArmEffect
  split
  · exact goesOn_next
  · exact goesOn_either

theorem execTraceRowClose_goesOn : goesOn (execTraceRowClose s) := by
  unfold execTraceRowClose
  split <;> exact goesOn_next

theorem execRecordDeadline_goesOn (trace : Bool) : goesOn (execRecordDeadline trace s) := by
  unfold execRecordDeadline
  extract_lets pc mark
  split
  · exact goesOn_next
  · exact goesOn_either

theorem execGustFireReceive_goesOn (vt : BitVec 64) : goesOn (execGustFireReceive vt s) := by
  unfold execGustFireReceive
  refine goesOn_else ?_
  split <;> exact goesOn_next

theorem execLeaseViewExpiry_goesOn : goesOn (execLeaseViewExpiry s) := by
  unfold execLeaseViewExpiry
  split <;> exact goesOn_next

theorem execClaimDelayExpiry_goesOn : goesOn (execClaimDelayExpiry s) := by
  unfold execClaimDelayExpiry
  split
  · split
    · exact goesOn_either
    · exact goesOn_next
  · exact goesOn_next

theorem execClaimSend_goesOn : goesOn (execClaimSend s) := by
  unfold execClaimSend
  split
  · exact goesOn_either
  · exact goesOn_next

theorem execEnginePowerUpDone_goesOn (testOk : Bool) : goesOn (execEnginePowerUpDone testOk s) := by
  unfold execEnginePowerUpDone
  split
  · exact goesOn_either
  · exact goesOn_next

theorem execRestoreDone_goesOn : goesOn (execRestoreDone s) := by
  unfold execRestoreDone
  split
  · refine goesOn_ite ?_ goesOn_next
    split <;> exact goesOn_next
  · exact goesOn_next

theorem execClaimStepTimeout_goesOn : goesOn (execClaimStepTimeout s) := by
  unfold execClaimStepTimeout
  split
  · refine goesOn_else ?_
    split <;> exact goesOn_next
  · exact goesOn_next

theorem execEpochLearnTimeout_goesOn : goesOn (execEpochLearnTimeout s) := by
  unfold execEpochLearnTimeout
  split
  · exact goesOn_either
  · exact goesOn_next

theorem execClaimConfirmTimeout_goesOn : goesOn (execClaimConfirmTimeout s) := by
  unfold execClaimConfirmTimeout
  split
  · exact goesOn_either
  · exact goesOn_next

theorem execReclaimHealthTimer_goesOn (testOk : Bool) : goesOn (execReclaimHealthTimer testOk s) := by
  unfold execReclaimHealthTimer
  split
  · exact goesOn_either
  · exact goesOn_next

theorem execLiveCapture_goesOn : goesOn (execLiveCapture s) := by
  unfold execLiveCapture
  split
  · exact goesOn_either
  · exact goesOn_next

theorem execLiveReceive_goesOn (bytes : List (BitVec 8)) : goesOn (execLiveReceive bytes s) := by
  unfold execLiveReceive
  split
  · exact goesOn_else (goesOn_else (goesOn_else (goesOn_either)))
  · exact goesOn_next

theorem execLiveDeadline_goesOn : goesOn (execLiveDeadline s) := by
  unfold execLiveDeadline
  split <;> exact goesOn_next

theorem execHandingTimeout_goesOn : goesOn (execHandingTimeout s) := by
  unfold execHandingTimeout
  split <;> exact goesOn_next

theorem execImageCheck_goesOn : goesOn (execImageCheck s) := by
  unfold execImageCheck
  extract_lets s1 a
  refine goesOn_else (goesOn_else (goesOn_else ?_))
  split
  · exact goesOn_next
  · extract_lets s2 b
    split <;> exact goesOn_next

theorem execDomainSelfTestDone_goesOn (pass : Bool) : goesOn (execDomainSelfTestDone pass s) := by
  unfold execDomainSelfTestDone
  refine goesOn_else (goesOn_else ?_)
  split <;> exact goesOn_next

theorem execFirstBoundaryPlace_goesOn : goesOn (execFirstBoundaryPlace s) := by
  unfold execFirstBoundaryPlace
  refine goesOn_else (goesOn_else (goesOn_else (goesOn_else ?_)))
  split <;> exact goesOn_next

theorem execKeyCommandDone_goesOn (ok : Bool) : goesOn (execKeyCommandDone ok s) := by
  unfold execKeyCommandDone
  split
  · exact goesOn_next
  · exact goesOn_else (goesOn_either)

theorem execCheckDone_goesOn : goesOn (execCheckDone s) := by
  unfold execCheckDone
  refine goesOn_else ?_
  cases s.draftVerdict <;> exact goesOn_next

theorem execShed_goesOn : goesOn (execShed s) := by
  unfold execShed
  split <;> exact goesOn_next

theorem execShedFeedReturn_goesOn : goesOn (execShedFeedReturn s) := by
  unfold execShedFeedReturn
  split <;> exact goesOn_next

theorem execPmRecordStart_goesOn (v : BitVec 16) : goesOn (execPmRecordStart v s) := by
  unfold execPmRecordStart
  split
  · exact goesOn_else (goesOn_either)
  · exact goesOn_next

theorem execPmRecordDone_goesOn (ok : Bool) : goesOn (execPmRecordDone ok s) := by
  unfold execPmRecordDone
  split
  · exact goesOn_next
  · exact goesOn_either

theorem execTempCutoff_goesOn (i : Fin 5) : goesOn (execTempCutoff i s) := by
  unfold execTempCutoff
  split
  · exact goesOn_next
  · exact goesOn_either

theorem execPrpPathTimeout_goesOn (p : Fin 2) : goesOn (execPrpPathTimeout p s) := by
  unfold execPrpPathTimeout
  split
  · exact goesOn_either
  · exact goesOn_next

theorem execOrderMessage_goesOn (c : OrdCopy) (ip : BitVec 32) (d : List (BitVec 8)) : goesOn (execOrderMessage c ip d s) := by
  unfold execOrderMessage
  refine goesOn_else ?_
  split
  · exact goesOn_either
  · exact goesOn_next

theorem execOrderApply_goesOn : goesOn (execOrderApply s) := by
  unfold execOrderApply
  split <;> exact goesOn_next

theorem execOrderLifetimeExpiry_goesOn : goesOn (execOrderLifetimeExpiry s) := by
  unfold execOrderLifetimeExpiry
  split <;> exact goesOn_next

theorem execLaunchFrameSend_goesOn (p : Fin 2) : goesOn (execLaunchFrameSend p s) := by
  unfold execLaunchFrameSend
  refine goesOn_else ?_
  split <;> exact goesOn_next

theorem execFrameTransmitDone_goesOn (p : Fin 3) : goesOn (execFrameTransmitDone p s) := by
  unfold execFrameTransmitDone
  refine goesOn_else (goesOn_else ?_)
  split
  · exact goesOn_either
  · exact goesOn_next

theorem execServoUpdateTimeout_goesOn : goesOn (execServoUpdateTimeout s) := by
  unfold execServoUpdateTimeout
  split
  · exact goesOn_either
  · exact goesOn_next

theorem execTxtsPop_goesOn (p : Fin 2) : goesOn (execTxtsPop p s) := by
  unfold execTxtsPop
  refine goesOn_ite ?_ goesOn_next
  split <;> exact goesOn_next

theorem execDescriptorReturn_goesOn (n : Fin 16) (e : DmaEnd) (then_ : DmaThen) :
    goesOn (execDescriptorReturn n e then_ s) := by
  unfold execDescriptorReturn
  split
  · exact goesOn_next
  · exact goesOn_else (goesOn_either)

theorem execOffPulseVerdict_goesOn (c : Fin 2) (pass : Bool) : goesOn (execOffPulseVerdict c pass s) := by
  unfold execOffPulseVerdict
  extract_lets x
  split
  · exact goesOn_next
  · exact goesOn_either

theorem execDischargeTimer_goesOn (c : Fin 2) : goesOn (execDischargeTimer c s) := by
  unfold execDischargeTimer
  extract_lets x
  split
  · exact goesOn_next
  · exact goesOn_either

theorem execAdcSlotEnd_goesOn (m : Fin 4) (raw : BitVec 32) : goesOn (execAdcSlotEnd m raw s) := by
  unfold execAdcSlotEnd
  extract_lets x
  refine goesOn_else ?_
  split <;> exact goesOn_next

theorem execKeyInsert_goesOn (content : Memory) (h : keyContentOk content = true) : goesOn (execKeyInsert content s) := by
  unfold execKeyInsert
  rw [h]
  exact goesOn_either

theorem exec_keyInsert_illFormed {content : Memory} (h : keyContentOk content = false) :
    exec (.keyInsert content) s = if s.key.present then .next s else .fault .illFormed := by
  change execKeyInsert content s = _
  rw [execKeyInsert, if_pos h]

end

/-! ## Every command -/

/-- A command whose operands have the shapes of the spec is answered by a next state, whatever the state. -/
theorem exec_goesOn (c : Instr) (s : State) (h : c.wellFormed = true) : goesOn (exec c s) := by
  cases c
  case registerWrite w a v => exact execRegisterWrite_goesOn s w a v
  case emitStart p => exact execEmitStart_goesOn s p
  case wordReceive src dst => exact execWordReceive_goesOn s src dst
  case trainingStageDone p st m => exact execTrainingStageDone_goesOn s p st m
  case prbsCheck l group => exact execPrbsCheck_goesOn s l group
  case lolAssert p cause => exact execLolAssert_goesOn s p cause
  case echoResponse p target seq ui => exact execEchoResponse_goesOn s p target seq ui
  case barrierResponse p id nack => exact execBarrierResponse_goesOn s p id nack
  case ctrlBlockSend p => exact execCtrlBlockSend_goesOn s p
  case echoTimeout p => exact execEchoTimeout_goesOn s p
  case barrierTimeout p => exact execBarrierTimeout_goesOn s p
  case levelOrderReceive dst pcLo lam lamC cur curC => exact execLevelOrderReceive_goesOn s dst pcLo lam lamC cur curC
  case cueStart e j dmg => exact execCueStart_goesOn s e j dmg
  case transferReceive w vals comps held damage => exact execTransferReceive_goesOn s w vals comps held damage
  case creditWaitTimeout src dst => exact execCreditWaitTimeout_goesOn s src dst
  case faultEvent word damage => exact execFaultEvent_goesOn s word damage
  case lullExpiry n => exact execLullExpiry_goesOn s n
  case injectionFire => exact execInjectionFire_goesOn s
  case gustArmEffect => exact execGustArmEffect_goesOn s
  case traceRowClose => exact execTraceRowClose_goesOn s
  case recordDeadline trace => exact execRecordDeadline_goesOn s trace
  case gustFireReceive vt => exact execGustFireReceive_goesOn s vt
  case leaseViewExpiry => exact execLeaseViewExpiry_goesOn s
  case claimDelayExpiry => exact execClaimDelayExpiry_goesOn s
  case claimSend => exact execClaimSend_goesOn s
  case enginePowerUpDone testOk => exact execEnginePowerUpDone_goesOn s testOk
  case restoreDone => exact execRestoreDone_goesOn s
  case claimStepTimeout => exact execClaimStepTimeout_goesOn s
  case epochLearnTimeout => exact execEpochLearnTimeout_goesOn s
  case claimConfirmTimeout => exact execClaimConfirmTimeout_goesOn s
  case reclaimHealthTimer testOk => exact execReclaimHealthTimer_goesOn s testOk
  case liveCapture => exact execLiveCapture_goesOn s
  case liveReceive bytes => exact execLiveReceive_goesOn s bytes
  case liveDeadline => exact execLiveDeadline_goesOn s
  case handingTimeout => exact execHandingTimeout_goesOn s
  case imageCheck => exact execImageCheck_goesOn s
  case domainSelfTestDone pass => exact execDomainSelfTestDone_goesOn s pass
  case firstBoundaryPlace => exact execFirstBoundaryPlace_goesOn s
  case keyCommandDone ok => exact execKeyCommandDone_goesOn s ok
  case checkDone => exact execCheckDone_goesOn s
  case shed => exact execShed_goesOn s
  case shedFeedReturn => exact execShedFeedReturn_goesOn s
  case pmRecordStart v => exact execPmRecordStart_goesOn s v
  case pmRecordDone ok => exact execPmRecordDone_goesOn s ok
  case tempCutoff j => exact execTempCutoff_goesOn s j
  case prpPathTimeout p => exact execPrpPathTimeout_goesOn s p
  case orderMessage c ip d => exact execOrderMessage_goesOn s c ip d
  case orderApply => exact execOrderApply_goesOn s
  case orderLifetimeExpiry => exact execOrderLifetimeExpiry_goesOn s
  case launchFrameSend p => exact execLaunchFrameSend_goesOn s p
  case frameTransmitDone p => exact execFrameTransmitDone_goesOn s p
  case servoUpdateTimeout => exact execServoUpdateTimeout_goesOn s
  case txtsPop p => exact execTxtsPop_goesOn s p
  case descriptorReturn n e after => exact execDescriptorReturn_goesOn s n e after
  case offPulseVerdict c pass => exact execOffPulseVerdict_goesOn s c pass
  case dischargeTimer c => exact execDischargeTimer_goesOn s c
  case adcSlotEnd m raw => exact execAdcSlotEnd_goesOn s m raw
  case keyInsert content => exact execKeyInsert_goesOn s content h
  case tbVtLoRead | timebaseLockLost | periodBoundary | intakeEnd | marginStart | energyWindowEnd | domainPowerOn
      | trainingStageTimeout | upDataStart | losDeassert | autoRetrainTimer | commandsResume | upBlockReceive
      | censusResponse | snapshotResponse | censusTimeout | censusRetry | recalRound | portDueTick | swWindowEnd
      | statusSend | twinEchoSend | partnerTimeout | checkpointCapture | checkpointTimeout | leaseQuerySend
      | startStageBound | bankCharged | keyRemove | draftCommitBoundary | feedInRange | feedsLost | rideEnd | tempMeasure
      | linkDown | linkUp | prpSupervisionSend | netNtLoRead | watchdogExpiry | debugHalt | mtimecmpMatch | plicClaim
      | safetySample | tripRequestLine | crossLinkExchange | crossCheckFail | offPulseTest | switchBankRead
      | safetyBlockLine | safetyChannelPowerUp | fieldInputChange | outputOverload | fieldSupplyLow | fieldSupplyRecover
      | downFrameSend | upFrameLost | fieldDownFrameReceive | fieldDownFrameLost | calDone | jatMatch | adcResRead
      | ssiReadDone | pwmReload | pwmOffEdge | canFrameReceive | canFrameSent | canRecovered | debugResume
      | fieldUpFrameSend | outputAbove5vWhileOff => exact goesOn_either
  case wordSend | creditReturn | freqCheck | rptBlockReceive | witnessReceive | selectStart | counterAreaWrite | renewSend
      | checkpointReceive | feedOutOfRange | frameReceive | statusBuild | railOutOfRange => exact goesOn_else (goesOn_either)
  case rankStart | placeStart | traceWord | readyBlocked | canFrameFail | canStateChange =>
    exact goesOn_else (goesOn_else (goesOn_either))
  case injRecordEnd => exact goesOn_ite (goesOn_either) goesOn_next
  case losAssert => exact goesOn_else (goesOn_else (goesOn_else (goesOn_else (goesOn_either))))
  case trainingFrame => exact goesOn_else (goesOn_else (goesOn_else (goesOn_either)))
  case busError | pairedValueWrite | pairedComplementWrite | pd0PowerUp | periodMarker | domainSwitch | domainPowerOff
      | prtTxEnable | prtTxDisable | trainReq | autoRetrainSet | testModeWrite | prtCntClr | echoRequest | snapRequest
      | barrierRequest | resetRequest | prtFrmCntClr | cellLatchOut | cellRelease | aeCntClr | prtAudClr | eddyClear
      | injStart | injStop | leCntClr | schCntClr | clearSource | clearAll | inject | deblock | blockRequest | fltCntClr
      | arm | stop | force | gustArmReceive | gstCntClr | renew | status | surrender | reclaim | handover | ack | nak
      | echo | echoResp | twnSurrenderCmd | twnRetry | twnAbortWarm | twnCntClr | keyRead | keyWrite | keyInvalidatePm
      | keyVerify | draftOpen | load | check | commit | abort | holdVoltageMeasure | netOrdRel | ringTailWrite | netNtAdj
      | ntStep | netNtOffset | netLatch | sfpDiagRead | netCntClr | watchdogKick | watchdogEnable | coreStart
      | plicComplete | create | ready | block | yield | prio | affinity | delete | dispatchAck | dmaStart | dmaStop
      | dmaAccessTimeout | arbModeWrite | memGrantClr | eccCorrected | eccUncorrectable | scrubPass | resetHeld
      | safetyPbChunk | upFrameReceive | fioResume | fioOvlClr | fioCntClr | safCntClr | adcStart | adcStop | adcCal | jgo
      | adcFactorWrite | shaftEdge | indexEdge | shfCntWrite | shfCfgWrite | ssiReq | ssiTmEnd | shfAbsCfgWrite
      | shfCntClr | loadAll | pwmEnWrite | pwmMinoffWrite | chopperArm | chopperDisarm | armPairWrite | pwmChopWrite
      | clockStop | canTxReq | canTxAbort | canRec | canStaleTest | canInit | canTimingWrite | canCntClr | pmpDenial
      | pd0PowerDown => exact goesOn_next

end Sys2Proof.Machine

namespace Sys2Proof.Startup

open Sys2Proof.Machine Sys2Proof.Safety

/-- Settles O6: a command is answered by the decisions of its meaning, and KEY_INSERT stops on a content that no key can have. -/
theorem everyWellFormedCommandIsAnswered : Obligations.EveryWellFormedCommandIsAnswered :=
  ⟨fun c s h => exec_goesOn c s h, fun _ s h => exec_keyInsert_illFormed s h⟩

end Sys2Proof.Startup
end

section
/-! The power of any domain (R63 to R67, R578): what a domain that goes off loses and leaves, and the commands of SYS_PD_CTL and of
the rails. -/

namespace Sys2Proof.Machine

open Sys2Proof.Safety

/-! ## A domain goes off (R65, R66, R858) -/

/-- From `s` to `t` a domain may have lost power and what it held: of the system block its bits alone, of the timebase its
channels and replicas, of the key no byte. -/
structure State.PowerMoved (s t : State) : Prop where
  sys : { t.sys with pdOn := s.sys.pdOn, rail := s.sys.rail, loaded := s.sys.loaded } = s.sys
  tb : { t.tb with chans := s.tb.chans, replica := s.tb.replica, marked := s.tb.marked } = s.tb
  mram : t.mram = s.mram

theorem State.PowerMoved.refl (s : State) : s.PowerMoved s := ⟨rfl, rfl, rfl⟩

theorem State.PowerMoved.trans {s t u : State} (h : s.PowerMoved t) (k : t.PowerMoved u) : s.PowerMoved u where
  sys := (congrArg (fun x : Sys => { x with pdOn := s.sys.pdOn, rail := s.sys.rail, loaded := s.sys.loaded }) k.sys).trans h.sys
  tb := (congrArg (fun x : Tb => { x with chans := s.tb.chans, replica := s.tb.replica, marked := s.tb.marked }) k.tb).trans h.tb
  mram := k.mram.trans h.mram

theorem State.resetWindows_eq (l : List Blk) (s : State) : ∃ r h, l.foldl State.resetWindow s = { s with regs := r, held := h } := by
  induction l generalizing s with
  | nil => exact ⟨_, _, rfl⟩
  | cons b l ih =>
    obtain ⟨r, h, heq⟩ := ih (s.resetWindow b)
    exact ⟨r, h, heq⟩

/-- What a domain's blocks lose is neither power, time nor the key. -/
theorem State.emptied_rest (s : State) (d : Nat) :
    (s.emptied d).sys = s.sys ∧ (s.emptied d).tb = s.tb ∧ (s.emptied d).mram = s.mram := by
  obtain ⟨r, h, heq⟩ := State.resetWindows_eq (domainBlks d) (s.loseBlocks d)
  rw [State.emptied, heq]
  unfold State.loseBlocks
  split <;> exact ⟨rfl, rfl, rfl⟩

theorem State.domainOff_on {s : State} {d : Nat} (h : s.powered d = true) : s.domainOff d = { s.emptied d with
    tb := { s.tb with chans := tidyChans (dropWords d s.tb.chans)
                      replica := s.tb.replica.filter fun e => islandDomain e.1 != d
                      marked := s.tb.marked.filter fun e => islandDomain e.1 != d }
    sys := { s.sys with pdOn := s.sys.pdOn &&& ~~~ ((1 : BitVec 14) <<< d)
                        rail := s.sys.rail &&& ~~~ ((1 : BitVec 14) <<< d)
                        loaded := s.sys.loaded &&& ~~~ ((1 : BitVec 14) <<< d) } } := by
  obtain ⟨hsys, htb, -⟩ := s.emptied_rest d
  rw [← hsys, ← htb]
  exact if_pos h

theorem State.domainOff_rests {s : State} {d : Nat} (h : s.powered d = false) : s.domainOff d = s := by
  simp [State.domainOff, h]

theorem State.domainOff_moved (s : State) (d : Nat) : s.PowerMoved (s.domainOff d) := by
  cases h : s.powered d
  · rw [State.domainOff_rests h]
    exact .refl s
  · rw [State.domainOff_on h]
    exact ⟨rfl, rfl, (s.emptied_rest d).2.2⟩

/-- The bits of the other domains stay when the bit of a domain is cleared. -/
theorem getLsbD_clearBit (x : BitVec 14) (d e : Nat) :
    (x &&& ~~~ ((1 : BitVec 14) <<< d)).getLsbD e = (x.getLsbD e && !decide (e = d)) := by
  have hbit : ((1 : BitVec 14) <<< d).getLsbD e = (decide (d < 14) && decide (d = e)) := BitVec.getLsbD_twoPow d e
  rw [BitVec.getLsbD_and, BitVec.getLsbD_not, hbit]
  by_cases he : e < 14
  · by_cases hd : e = d
    · simp [← hd, he]
    · simp [he, hd, Ne.symm hd]
  · simp [BitVec.getLsbD_of_ge _ _ (Nat.le_of_not_lt he)]

theorem State.powered_domainOff (s : State) (d e : Nat) :
    (s.domainOff d).powered e = (s.powered e && !decide (e = d)) := by
  cases h : s.powered d
  · rw [State.domainOff_rests h]
    by_cases he : e = d <;> simp [he, h]
  · rw [State.domainOff_on h]
    exact getLsbD_clearBit _ _ _

/-- Of the domains of a list that go off each has lost its power, and every other keeps its own. -/
theorem State.powered_domainsOff (l : List Nat) (s : State) (e : Nat) :
    (l.foldl State.domainOff s).powered e = (s.powered e && !decide (e ∈ l)) := by
  induction l generalizing s with
  | nil => simp
  | cons d l ih =>
    rw [List.foldl_cons, ih, s.powered_domainOff, Bool.and_assoc, ← Bool.not_or]
    simp

/-! ## SYS_PD_CTL (R578) -/

theorem State.switchBit_cases (s : State) (v : Word) (d : Nat) :
    (v.getLsbD d = s.powered d → s.switchBit v d = s) ∧
    (v.getLsbD d ≠ s.powered d → s.maySwitch d = false → s.switchBit v d = s.setBit Reg.SYS_EVT 2) ∧
    (s.powered d = false → v.getLsbD d = true → s.maySwitch d = true → s.switchBit v d = s.domainOn d) ∧
    (s.powered d = true → v.getLsbD d = false → s.maySwitch d = true → s.switchBit v d = s.domainOff d) := by
  unfold State.switchBit
  refine ⟨fun heq => if_pos heq, fun hne hmay => ?_, fun hp hv hmay => ?_, fun hp hv hmay => ?_⟩
  · rw [if_neg hne, if_pos hmay]
  · simp [hp, hv, hmay]
  · simp [hp, hv, hmay]

/-! ## The commands of the domains and their rails (R66, R375, R547, R578, R859) -/

theorem exec_domainPowerOff_refused {d : Fin 14} {s : State} (h : s.mayGoOff d = false) : exec (.domainPowerOff d) s = .next s := by
  change execDomainPowerOff d s = _
  simp [execDomainPowerOff, h]

theorem exec_domainPowerOff {d : Fin 14} {s : State} (h : s.mayGoOff d = true) :
    exec (.domainPowerOff d) s = .next (s.domainOff d) := by
  change execDomainPowerOff d s = _
  rw [execDomainPowerOff, if_pos h]

/-- The rail of a domain is good (SYS_PD_STAT). -/
def State.railGood (s : State) (d : Nat) : State := { s with sys := { s.sys with rail := s.sys.rail ||| ((1 : BitVec 14) <<< d) } }

theorem exec_domainPowerOn {d : Fin 14} {s : State} (hp : s.powered d = true) (hr : s.sys.rail.getLsbD d = false) :
    exec (.domainPowerOn d) s =
      .next (if d.val = 2 ∨ d.val = 3 ∨ d.val = 4 then (s.railGood d).loadEngines else s.railGood d) := by
  change execDomainPowerOn d s = _
  rw [execDomainPowerOn, if_neg (not_or.mpr ⟨by simp [hp], by simp only [hr]; decide⟩)]
  rfl

section
variable {d : Fin 14} {s : State} (hd : 2 ≤ d.val) (hp : s.powered d = true)
include hd hp

theorem execRailOutOfRange_of_powered : execRailOutOfRange d s =
    if s.sys.stage = 3 ∧ s.usesDomain d ∧ s.sys.rail.getLsbD d = false then .next (s.startFail 0x15)
    else .next (State.raise { s with sys := { s.sys with rail := s.sys.rail &&& ~~~ ((1 : BitVec 14) <<< d.val) } } 4) :=
  if_neg (by simp [hp]; omega)

theorem exec_railOutOfRange_running (hstage : s.sys.stage ≠ 3) : exec (.railOutOfRange d) s =
    .next (State.raise { s with sys := { s.sys with rail := s.sys.rail &&& ~~~ ((1 : BitVec 14) <<< d.val) } } 4) := by
  change execRailOutOfRange d s = _
  rw [execRailOutOfRange_of_powered hd hp, if_neg fun h => hstage h.1]

theorem exec_railOutOfRange_starting (hstage : s.sys.stage = 3) (huse : s.usesDomain d = true)
    (hr : s.sys.rail.getLsbD d = false) : exec (.railOutOfRange d) s = .next (s.startFail 0x15) := by
  change execRailOutOfRange d s = _
  rw [execRailOutOfRange_of_powered hd hp, if_pos ⟨hstage, huse, hr⟩]

end

end Sys2Proof.Machine

namespace Sys2Proof.Startup

open Sys2Proof.Machine Sys2Proof.Safety

/-- Settles O24: SYS_PD_CTL by the cases of one bit, a domain that goes off by what it leaves, and each rail by the stage. -/
theorem powerDomainsSwitch : Obligations.PowerDomainsSwitch := by
  refine ⟨fun v s h => s.via_of_open (b := .sys) (fun t => t.pdCtl v) h, fun v d s => s.switchBit_cases v d,
    fun d s h => exec_domainPowerOff_refused h, fun d s hmay hp => ⟨_, exec_domainPowerOff hmay, ?_⟩,
    fun d s hp hr => exec_domainPowerOn hp hr, fun d s hd hp hstage => exec_railOutOfRange_running hd hp hstage,
    fun d s hd hp hstage huse hr => exec_railOutOfRange_starting hd hp hstage huse hr⟩
  have hmoved := s.domainOff_moved d
  refine ⟨?_, ?_, fun e he => ?_, (congrArg Tb.vt hmoved.tb :), hmoved.mram⟩
  · simp [s.powered_domainOff]
  · rw [State.domainOff_on hp, getLsbD_clearBit]
    simp
  · simp [s.powered_domainOff, he]

end Sys2Proof.Startup
end

section
/-! Start-up stage by stage (R540 to R548, R564): what each event of it makes of the stage, its result and the power. -/

namespace Sys2Proof.Machine

open Sys2Proof.Safety

/-! ## A start-up that fails (R542, R547) -/

theorem mem_otherDomains {d : Nat} : d ∈ otherDomains ↔ 2 ≤ d ∧ d < 14 := by
  simp only [otherDomains, List.mem_map, List.mem_range]
  exact ⟨fun ⟨k, hk, he⟩ => by omega, fun h => ⟨d - 2, by omega, by omega⟩⟩

/-- What a start-up that fails leaves on and shows. -/
theorem State.startFail_spec (s : State) (code : Nat) : (s.startFail code).sys.stage = 7 ∧
    (s.startFail code).sys.result = code ∧ (s.startFail code).sys.ready = false ∧
    (∀ d, 2 ≤ d → d < 14 → (s.startFail code).powered d = false) ∧ (s.startFail code).powered 1 = s.powered 1 := by
  have hpow : ∀ d, (s.startFail code).powered d = (s.powered d && !decide (d ∈ otherDomains)) :=
    State.powered_domainsOff otherDomains s
  refine ⟨rfl, rfl, rfl, fun d hlo hhi => ?_, ?_⟩
  · simp [hpow, mem_otherDomains.mpr ⟨hlo, hhi⟩]
  · rw [hpow, decide_eq_false (by decide), Bool.not_false, Bool.and_true]

/-! ## BANK_CHARGED (R543, R564) -/

/-- The capacitance measured shows, and the bank counts as charged. -/
def State.bankShown (s : State) (c : BitVec 16) : State :=
  { s with sys := { s.sys with bankOk := true } }.wr Reg.SYS_HOLD_C (c.setWidth 32)

theorem exec_bankCharged {c : BitVec 16} {s : State} (hgoing : s.sys.going = true) (hc : 1200 ≤ c.toNat) :
    exec (.bankCharged c) s = .next (s.bankShown c).stageOneDone := by
  have hraise : (s.bankShown c).raiseIf (decide (c.toNat < 1200)) 3 = s.bankShown c := by
    rw [decide_eq_false (by omega)]
    rfl
  change execBankCharged c s = _
  rw [execBankCharged, if_neg (by simp [hgoing])]
  exact congrArg (fun t : State => Host.Outcome.next t.stageOneDone) hraise

theorem State.bankShown_done (s : State) (c : BitVec 16) : (s.bankShown c).stageOneDone =
    if s.sys.stage = 1 ∧ s.tb.lock = true then (s.bankShown c).setStage 2 else s.bankShown c := by
  simp [State.stageOneDone, State.bankShown]

/-! ## IMAGE_CHECK (R539 to R542) -/

/-- The result of the check is no fuse. -/
theorem State.fuses_wr_imgRes (s : State) (v : Word) : (s.wr Reg.SYS_IMG_RES v).fuses = s.fuses := by
  have hfuse : (s.wr Reg.SYS_IMG_RES v).rd Reg.KEY_FUSE = s.rd Reg.KEY_FUSE := State.rd_wr_other _ _ _ _ (by decide)
  have hkey : ∀ i, (s.wr Reg.SYS_IMG_RES v).rd (Reg.KEY_PUBKEY i) = s.rd (Reg.KEY_PUBKEY i) := fun i =>
    State.rd_wr_other _ _ _ _ (by unfold Reg.KEY_PUBKEY Reg.SYS_IMG_RES; omega)
  unfold State.fuses State.bitOf
  rw [hfuse]
  simp only [hkey]

theorem State.imageBytes_wr (s : State) (a : Nat) (v : Word) (b : Bool) : (s.wr a v).imageBytes b = s.imageBytes b := by
  simp only [State.imageBytes, State.wr_mram]

section
variable {s : State} (hgoing : s.sys.going = true) (hstage : s.sys.stage = 2)
include hgoing hstage

theorem exec_imageCheck_keyless (hkey : s.key.present = false) : exec .imageCheck s = .next (s.startFail 0x11) := by
  change execImageCheck s = _
  simp [execImageCheck, hgoing, hstage, hkey]

variable (hkey : s.key.present = true)
include hkey

theorem exec_imageCheck_badHeader (hheader : keyHeaderOk s.mram = false) : exec .imageCheck s = .next (s.startFail 0x12) := by
  change execImageCheck s = _
  simp [execImageCheck, hgoing, hstage, hkey, hheader]

theorem exec_imageCheck_passed (hheader : keyHeaderOk s.mram = true)
    (himg : imgCheck (s.readKey.imageBytes false) s.readKey.fuses = none) :
    exec .imageCheck s = .next ((s.readKey.wr Reg.SYS_IMG_RES 0).acceptImage false (s.readKey.imageBytes false)) := by
  have hcheck : imgCheck ((s.readKey.wr Reg.SYS_IMG_RES 0).imageBytes false) (s.readKey.wr Reg.SYS_IMG_RES 0).fuses = none := by
    rw [State.fuses_wr_imgRes, State.imageBytes_wr, himg]
  change execImageCheck s = _
  unfold execImageCheck
  extract_lets s1 a
  rw [if_neg (by simp [hgoing, hstage]), if_neg (by simp [hkey]), if_neg (by simp [hheader])]
  split
  · exact congrArg (fun img => Host.Outcome.next (s1.acceptImage false img)) (State.imageBytes_wr _ _ _ _)
  · next e he => exact nomatch hcheck.symm.trans he

end

/-! ## DOMAIN_SELF_TEST_DONE (R543, R546) -/

section
variable {s : State} (hstage : s.sys.stage = 3)
include hstage

theorem exec_domainSelfTestDone_failed : exec (.domainSelfTestDone false) s = .next (s.startFail 0x14) := by
  change execDomainSelfTestDone false s = _
  simp [execDomainSelfTestDone, hstage]

theorem exec_domainSelfTestDone_passed {c : Sections} (himg : s.sys.img = some c) :
    exec (.domainSelfTestDone true) s = .next (s.putInEffect c).beginPorts := by
  change execDomainSelfTestDone true s = _
  simp [execDomainSelfTestDone, hstage, himg]

end

/-! ## FIRST_BOUNDARY_PLACE (R473, R544) -/

theorem exec_firstBoundaryPlace {s : State} (hstage : s.sys.stage = 4) (hplaced : s.tb.placed = false)
    (hsch : s.sch.cur.isSome = true)
    (howner : s.twinEn = false ∨ (s.twn.ofsSet = false ∧ s.twn.partner.isSome = true ∧ s.timeOwner = true)) :
    exec .firstBoundaryPlace s = .next ({ s with twn := { s.twn with ofsSet := true, owner := true } }.placeOwn) := by
  have hmay : ¬ (s.sys.stage ≠ 4 ∨ s.tb.placed ∨ s.sch.cur.isNone) := by
    simp [hstage, hplaced, Option.isSome_iff_ne_none.mp hsch]
  change execFirstBoundaryPlace s = _
  rw [execFirstBoundaryPlace, if_neg hmay, if_pos howner]

/-! ## READY_BLOCKED (R495, R545) -/

theorem State.enginesOff_moved (s : State) : s.PowerMoved s.enginesOff :=
  ((s.domainOff_moved 2).trans (State.domainOff_moved _ 3)).trans (State.domainOff_moved _ 4)

/-- What a module that comes from INIT to ZEPHYR changes of its lease, and what it leaves of start-up. -/
theorem State.initZephyr_spec (s : State) : s.initZephyr.twn.lease = (if s.twn.lease = .init then .zephyr else s.twn.lease) ∧
    s.initZephyr.sys.stage = s.sys.stage ∧ s.initZephyr.sys.result = s.sys.result ∧ s.initZephyr.sys.up = s.sys.up := by
  unfold State.initZephyr
  split
  · obtain ⟨⟨x, ln, b, hlease⟩, hrest, -⟩ := s.setLease_spec .zephyr
    obtain ⟨htwn, -, -⟩ := (s.setLease .zephyr).enginesOff_spec
    have hsys : { (s.setLease .zephyr).enginesOff.sys with
        pdOn := (s.setLease .zephyr).sys.pdOn, rail := (s.setLease .zephyr).sys.rail, loaded := (s.setLease .zephyr).sys.loaded } = s.sys :=
      (s.setLease .zephyr).enginesOff_moved.sys.trans (congrArg State.sys hrest :)
    exact ⟨by rw [htwn, hlease], (congrArg Sys.stage hsys :), (congrArg Sys.result hsys :), (congrArg Sys.up hsys :)⟩
  · exact ⟨rfl, rfl, rfl, rfl⟩

/-- Stage 6 is reached: the result is 1, and the time since PD0's power-up shows (R543, R545). -/
def State.startDone (s : State) : State :=
  (State.wr { s.setStage 6 with sys := { (s.setStage 6).sys with result := 1, ready := true } } Reg.SYS_START_T
    (BitVec.ofNat 32 (s.sys.up / 200))).setBit Reg.SYS_EVT 0

section
variable {s : State} (hports : s.portsReady = true) (hlease : s.leaseReady = true)
include hports hlease

theorem exec_readyBlocked (hstage : s.sys.stage = 5) : exec .readyBlocked s = .next s.initZephyr.startDone := by
  change execReadyBlocked s = _
  simp only [execReadyBlocked, hports, hlease, hstage]
  rfl

theorem exec_readyBlocked_again (hstage : s.sys.stage = 6) : exec .readyBlocked s = .next s.initZephyr := by
  change execReadyBlocked s = _
  simp [execReadyBlocked, hports, hlease, hstage]

end

/-! ## START_STAGE_BOUND (R543, R547, R548) -/

theorem exec_startStageBound {s : State} (hgoing : s.sys.going = true) (hstage : 1 ≤ s.sys.stage ∧ s.sys.stage ≤ 5) :
    exec .startStageBound s = .next (s.elapse (s.sys.stageUp + stageBound s.sys.stage - s.sys.up)).boundResult := by
  change execStartStageBound s = _
  rw [execStartStageBound, if_neg]
  rintro (h | h | h)
  · simp [hgoing] at h
  · omega
  · omega

/-- The passing of time leaves the stage, the key and the registers. -/
theorem State.elapse_start (s : State) (n : Nat) : (s.elapse n).sys.stage = s.sys.stage ∧ (s.elapse n).key = s.key ∧
    (s.elapse n).regs = s.regs := by
  obtain ⟨-, -, hrest, -, hsys, -⟩ := s.elapse_spec n
  exact ⟨(congrArg Sys.stage hsys :), (congrArg State.key hrest :), s.elapse_regs n⟩

/-- What the bound of each stage makes of start-up. -/
theorem State.boundResult_cases (s : State) :
    (s.sys.stage = 1 → s.boundResult = s.startFail 0x10) ∧
    (s.sys.stage = 2 → s.boundResult = s.startFail (if s.key.present then 0x12 else 0x11)) ∧
    (s.sys.stage = 4 → s.boundResult = { s with sys := { s.sys with result := 0x20 } }) ∧
    (s.sys.stage = 5 → s.boundResult = { s with sys := { s.sys with result := 0x21 } }) := by
  refine ⟨fun h => ?_, fun h => ?_, fun h => ?_, fun h => ?_⟩ <;> simp only [State.boundResult, h]

end Sys2Proof.Machine

namespace Sys2Proof.Startup

open Sys2Proof.Machine Sys2Proof.Safety

section
variable {s : State} (hgoing : s.sys.going = true)
include hgoing

theorem answers_bankCharged {c : BitVec 16} (hc : 1200 ≤ c.toNat) : answers (.bankCharged c) s fun t =>
    t.rd Reg.SYS_HOLD_C = c.setWidth 32 ∧ t.sys.bankOk = true ∧ regsBut s t [Reg.SYS_HOLD_C] ∧
    (s.sys.stage = 1 → s.tb.lock = true → t.sys.stage = 2 ∧ t.sys.result = 0) ∧
    (¬ (s.sys.stage = 1 ∧ s.tb.lock = true) → t.sys.stage = s.sys.stage) ∧ { t with sys := s.sys, regs := s.regs } = s := by
  have hothers : regsBut s (s.bankShown c) [Reg.SYS_HOLD_C] := fun a ha => State.rd_wr_other _ _ _ _ (by simpa using ha)
  refine ⟨_, exec_bankCharged hgoing hc, ?_⟩
  rw [State.bankShown_done]
  split
  · next h => exact ⟨State.rd_wr_same _ _ _, rfl, hothers, fun _ _ => ⟨rfl, rfl⟩, fun hn => absurd h hn, rfl⟩
  · next h => exact ⟨State.rd_wr_same _ _ _, rfl, hothers, fun h1 hl => absurd ⟨h1, hl⟩ h, fun _ => rfl, rfl⟩

theorem answers_startStageBound :
    (s.sys.stage = 1 → answers .startStageBound s fun t => t.sys.stage = 7 ∧ t.sys.result = 0x10) ∧
    (s.sys.stage = 2 → answers .startStageBound s fun t => t.sys.stage = 7 ∧
      t.sys.result = if s.key.present then 0x12 else 0x11) ∧
    (s.sys.stage = 4 → answers .startStageBound s fun t => t.sys.stage = 4 ∧ t.sys.result = 0x20 ∧ t.regs = s.regs) ∧
    (s.sys.stage = 5 → answers .startStageBound s fun t => t.sys.stage = 5 ∧ t.sys.result = 0x21 ∧ t.regs = s.regs) := by
  obtain ⟨hst, hkey, hregs⟩ := s.elapse_start (s.sys.stageUp + stageBound s.sys.stage - s.sys.up)
  obtain ⟨hone, htwo, hfour, hfive⟩ :=
    (s.elapse (s.sys.stageUp + stageBound s.sys.stage - s.sys.up)).boundResult_cases
  refine ⟨fun h => ⟨_, exec_startStageBound hgoing (by omega), ?_⟩, fun h => ⟨_, exec_startStageBound hgoing (by omega), ?_⟩,
    fun h => ⟨_, exec_startStageBound hgoing (by omega), ?_⟩, fun h => ⟨_, exec_startStageBound hgoing (by omega), ?_⟩⟩
  · rw [hone (hst.trans h)]
    exact ⟨rfl, rfl⟩
  · rw [htwo (hst.trans h), hkey]
    exact ⟨rfl, rfl⟩
  · rw [hfour (hst.trans h)]
    exact ⟨hst.trans h, rfl, hregs⟩
  · rw [hfive (hst.trans h)]
    exact ⟨hst.trans h, rfl, hregs⟩

end

/-- Settles O46: each event of start-up by the stage it is taken in and by what it finds. -/
theorem startUpGoesByStages : Obligations.StartUpGoesByStages := by
  refine ⟨fun c s hgoing hc => answers_bankCharged hgoing hc, fun s hgoing hstage =>
    ⟨fun hkey => ⟨_, exec_imageCheck_keyless hgoing hstage hkey, s.startFail_spec 0x11⟩,
      fun hkey hheader => ⟨_, exec_imageCheck_badHeader hgoing hstage hkey hheader, ?_⟩,
      fun hkey hheader himg => exec_imageCheck_passed hgoing hstage hkey hheader himg⟩,
    fun s hstage => ⟨⟨_, exec_domainSelfTestDone_failed hstage, rfl, rfl, rfl⟩,
      fun c himg => exec_domainSelfTestDone_passed hstage himg⟩,
    fun s hstage hplaced hsch howner => ⟨_, exec_firstBoundaryPlace hstage hplaced hsch howner,
      rfl, rfl, rfl, rfl, rfl, rfl, rfl, rfl⟩,
    fun s hstage hports hlease => ⟨_, exec_readyBlocked hports hlease hstage, rfl, rfl, rfl, ?_, ?_, ?_⟩,
    fun s hstage hports hlease => ⟨_, exec_readyBlocked_again hports hlease hstage, ?_⟩,
    fun s hgoing => answers_startStageBound hgoing⟩
  · obtain ⟨hstage, hresult, -, hoff, -⟩ := s.startFail_spec 0x12
    exact ⟨hstage, hresult, hoff⟩
  · exact State.bitOf_setBit_same _ _ (by decide)
  · rw [State.startDone, State.rd_setBit_other _ _ _ _ (by decide), State.rd_wr_same, s.initZephyr_spec.2.2.2]
  · exact s.initZephyr_spec.1
  · obtain ⟨htwn, hst, hresult, -⟩ := s.initZephyr_spec
    exact ⟨hst.trans hstage, hresult, htwn⟩

end Sys2Proof.Startup
end

section
/-! What an event in the collector leaves of the post-mortem record (R569, R574, R575): whether one is being written, and which is the
newest on the key. One rule for each shared operation. -/

namespace Sys2Proof.Machine

open Sys2Proof.Safety

/-- Is a record being written, and which is the newest on the key? -/
def State.recording (s : State) : Bool × Option (BitVec 32 × Nat) := (s.sys.pm.isSome, s.key.pmNew)

/-- What the view leaves out may change. -/
theorem State.recording_with (s : State) (regs setAt flt isl gst adc pwm saf free) :
    State.recording { s with regs := regs, setAt := setAt, flt := flt, isl := isl, gst := gst, adc := adc, pwm := pwm, saf := saf,
                             free := free } = s.recording := rfl

@[simp] theorem State.recording_ite (c : Prop) [Decidable c] (s t : State) :
    (if c then s else t).recording = if c then s.recording else t.recording := apply_ite State.recording c s t

/-! ## Registers and the parts that react -/

section
variable (s : State)

@[simp] theorem State.wr_recording (a : Nat) (v : Word) : (s.wr a v).recording = s.recording := rfl
@[simp] theorem State.setBit_recording (a i : Nat) : (s.setBit a i).recording = s.recording := rfl
@[simp] theorem State.clrBit_recording (a i : Nat) : (s.clrBit a i).recording = s.recording := rfl
@[simp] theorem State.bump_recording (a : Nat) : (s.bump a).recording = s.recording := rfl
@[simp] theorem State.setBitIf_recording (c : Bool) (a i : Nat) : (s.setBitIf c a i).recording = s.recording := by
  simp [State.setBitIf]
@[simp] theorem State.lifeUp_recording (i : Nat) : (s.lifeUp i).recording = s.recording := rfl
@[simp] theorem State.keyDue_recording : s.keyDue.recording = s.recording := rfl
@[simp] theorem State.setSrc_recording (n : Nat) (x : Src) : (s.setSrc n x).recording = s.recording := rfl
@[simp] theorem State.reclass_recording (n : Nat) (e : FltEntry) : (s.reclass n e).recording = s.recording := rfl
@[simp] theorem State.setLatch_recording (b : Bool) (t : BitVec 64) : (s.setLatch b t).recording = s.recording := rfl
@[simp] theorem State.setPwmCh_recording (n : Nat) (x : PwmCh) : (s.setPwmCh n x).recording = s.recording := rfl
@[simp] theorem State.lockedNow_recording : s.lockedNow.recording = s.recording := rfl
@[simp] theorem State.collide_recording (n : Nat) : (s.collide n).recording = s.recording := rfl

theorem State.adcInject_recording (m : Nat) (t : BitVec 64) : (s.adcInject m t).recording = s.recording := by
  unfold State.adcInject
  split <;> rfl

@[simp] theorem State.adcTrigger_recording (t : BitVec 64) : (s.adcTrigger t).recording = s.recording := by
  unfold State.adcTrigger
  split
  · rfl
  · exact State.foldl_view _ _ (fun u m => State.adcInject_recording u m _) _ _

@[simp] theorem State.eventHook_recording (n : Nat) (t : BitVec 64) : (s.eventHook n t).recording = s.recording := by
  simp [State.eventHook, State.adcEvent, State.recording_with]

@[simp] theorem State.blockBegins_recording : s.blockBegins.recording = s.recording := by
  simp [State.blockBegins, State.injAbort, State.recording_with]

/-- A cause waits, or joins the record being written: none begins and none ends (R569, R575). -/
@[simp] theorem State.pmCause_recording (c : Nat) : (s.pmCause c).recording = s.recording := by
  unfold State.pmCause
  split
  · next r h => simp [State.recording, h]
  · rfl

theorem State.pwmCycle_recording (n : Nat) (t : BitVec 64) : (s.pwmCycle n t).recording = s.recording := by
  have htake : (s.pwmTake n).recording = s.recording := by
    unfold State.pwmTake
    split
    · rfl
    · exact State.setBitIf_recording _ _ _ _
  simp [State.pwmCycle, htake]

@[simp] theorem State.tripOn_recording : s.tripOn.recording = s.recording := by
  unfold State.tripOn State.pwmTrip
  rw [State.foldl_view _ _ fun t n => State.pwmCycle_recording t n _]
  exact State.setBitIf_recording _ _ _ _

@[simp] theorem State.tripBegins_recording : s.tripBegins.recording = s.recording := by simp [State.tripBegins]

@[simp] theorem State.tripEnds_recording : s.tripEnds.recording = s.recording := by
  unfold State.tripEnds State.pwmTripEnds
  extract_lets s1
  split
  · exact State.foldl_view _ _ (fun t n => State.pwmCycle_recording t n _) _ _
  · exact State.foldl_view _ _ (fun t n => State.setPwmCh_recording t n _) _ _

/-! ## An event -/

@[simp] theorem State.settle_recording (b : State) (t : BitVec 64) : (State.settle b s t).recording = s.recording := by
  simp [State.settle]

@[simp] theorem State.noteEvent_recording (n : Nat) (t : BitVec 64) : (s.noteEvent n t).recording = s.recording := by
  simp [State.noteEvent, State.setSticky, State.recording_with]

@[simp] theorem State.takeEvent_recording (n : Nat) (t : BitVec 64) (inj : Bool) :
    (s.takeEvent n t inj).recording = s.recording := by
  simp [State.takeEvent]

@[simp] theorem State.takeUnder_recording (n : Nat) (t : BitVec 64) (inj : Bool) :
    (s.takeUnder n t inj).recording = s.recording := by
  unfold State.takeUnder
  extract_lets x
  split <;> simp

@[simp] theorem State.undo_recording (n : Nat) (t : BitVec 64) : (s.undo n t).recording = s.recording := by
  unfold State.undo
  extract_lets x
  split <;> simp

@[simp] theorem State.clearAt_recording (n : Nat) (t : BitVec 64) : (s.clearAt n t).recording = s.recording := by
  simp [State.clearAt, State.recDue]

@[simp] theorem State.collect_recording (n : Nat) (t : BitVec 64) (inj : Bool) : (s.collect n t inj).recording = s.recording := by
  unfold State.collect
  extract_lets k s0 u hit s1
  have hs0 : s0.recording = s.recording := by
    unfold s0
    split <;> simp
  have hs1 : s1.recording = s.recording := by rw [State.takeUnder_recording, State.undo_recording, hs0]
  split
  · simp
  · split <;> simp [hs0, hs1]

end

/-- A source raised that no mark makes the duty surrender for, or none. -/
theorem State.raiseIf_recording {s : State} (c : Bool) {n : Nat} (hn : n < 256) (hm : noMarks s) :
    (s.raiseIf c n).recording = s.recording := by
  cases c
  · rfl
  · exact (congrArg State.recording (State.raise_unmarked hn hm)).trans (s.collect_recording n _ _)

end Sys2Proof.Machine
end

section
/-! Post-mortem records and temperatures (R563, R565, R569 to R576, R848 to R851): a measurement of the bank, the start and the end of
a record, the sensors and the cut-off. -/

namespace Sys2Proof.Machine

open Sys2Proof.Safety

/-- An event leaves the shed and the key's bytes. -/
theorem State.shed_of_beside {s t : State} (h : t.beside = s.beside) : t.sys.shed = s.sys.shed ∧ t.mram = s.mram := by
  have hfst := congrArg Prod.fst h
  exact ⟨(congrArg (fun u : State => u.sys.shed) hfst :), (congrArg State.mram hfst :)⟩

/-! ## The bank is measured (R563, R565) -/

/-- What a measurement shows: voltage, energies, and whether the usable energy is below the one required. -/
def State.holdShown (s : State) (volts energies : Word) (low : Bool) : State :=
  let s1 := (s.wr Reg.SYS_HOLD_V volts).wr Reg.SYS_HOLD_E energies
  { s1 with sys := { s1.sys with holdLow := low } }

/-- The usable energy and the one required, in SYS_HOLD_E. -/
def State.holdWord (s : State) (v : BitVec 16) : Word := statWord [(min (s.usableAt v) 0xFFFF, 16), (s.eReq, 0)]

/-- Beside what it shows a measurement raises at most FS3. -/
theorem State.holdMeasure_eq (s : State) (v : BitVec 16) : ∃ low c,
    s.holdMeasure v = (s.holdShown (v.setWidth 32) (s.holdWord v) low).raiseIf c 3 := ⟨_, _, rfl⟩

theorem State.rd_holdShown_other (s : State) (volts energies : Word) (low : Bool) {a : Nat} (hv : a ≠ Reg.SYS_HOLD_V)
    (he : a ≠ Reg.SYS_HOLD_E) : (s.holdShown volts energies low).rd a = s.rd a :=
  (State.rd_wr_other _ _ _ _ he).trans (State.rd_wr_other _ _ _ _ hv)

/-- A measurement leaves the record, the shed and the key. -/
theorem State.holdShown_rest (s : State) (volts energies : Word) (low : Bool) :
    (s.holdShown volts energies low).recording = s.recording ∧ (s.holdShown volts energies low).sys.shed = s.sys.shed ∧
      (s.holdShown volts energies low).mram = s.mram := ⟨rfl, rfl, rfl⟩

theorem State.rd_holdShown_energies (s : State) (volts energies : Word) (low : Bool) :
    (s.holdShown volts energies low).rd Reg.SYS_HOLD_E = energies := State.rd_wr_same _ _ _

/-- The upper half of SYS_HOLD_E is at least the energy put there. -/
theorem le_fieldOf_statWord {e q : Nat} (he : e < 65536) (hq : q < 2 ^ 32) : e ≤ fieldOf (statWord [(e, 16), (q, 0)]) 16 16 := by
  have hword : (statWord [(e, 16), (q, 0)]).toNat = e * 2 ^ 16 ||| q := by
    have he' : e * 2 ^ 16 % 2 ^ 32 = e * 2 ^ 16 := Nat.mod_eq_of_lt (by omega)
    have hq' : q * 2 ^ 0 % 2 ^ 32 = q := by rw [pow_zero, mul_one, Nat.mod_eq_of_lt hq]
    simp only [statWord, putField, List.foldl_cons, List.foldl_nil, BitVec.toNat_or, BitVec.toNat_ofNat, he', hq']
    simp
  have hlt : (statWord [(e, 16), (q, 0)]).toNat / 2 ^ 16 < 2 ^ 16 := by omega
  rw [fieldOf, Nat.mod_eq_of_lt hlt, hword, ← Nat.shiftRight_eq_div_pow, Nat.shiftRight_or_distrib,
    Nat.shiftRight_eq_div_pow, Nat.mul_div_cancel _ (by decide)]
  exact Nat.left_le_or

theorem State.eReq_lt (s : State) : s.eReq < 2 ^ 32 := by
  have h : s.field Reg.SYS_HOLD_CFG 16 16 < 2 ^ 16 := Nat.mod_lt _ (by decide)
  unfold State.eReq ePm
  omega

theorem State.le_fieldOf_holdWord {s : State} {v : BitVec 16} (h : 10 ≤ s.usableAt v) : 10 ≤ fieldOf (s.holdWord v) 16 16 :=
  (le_min h (by decide)).trans (le_fieldOf_statWord (Nat.lt_succ_of_le (min_le_right _ _)) s.eReq_lt)

/-- What a measurement leaves, and that it shows an energy that is enough for a marker, where no mark makes the duty surrender. -/
theorem State.holdMeasure_rest {s : State} (hm : noMarks s) (v : BitVec 16) :
    (s.holdMeasure v).recording = s.recording ∧ (s.holdMeasure v).sys.shed = s.sys.shed ∧ (s.holdMeasure v).mram = s.mram ∧
      (10 ≤ s.usableAt v → 10 ≤ (s.holdMeasure v).eUsable) ∧ (s.holdMeasure v).eReq = s.eReq := by
  obtain ⟨low, c, h⟩ := s.holdMeasure_eq v
  obtain ⟨hrec, hshed, hmram⟩ := s.holdShown_rest (v.setWidth 32) (s.holdWord v) low
  have hrd := fun a => s.rd_holdShown_other (v.setWidth 32) (s.holdWord v) low (a := a)
  have henergies := s.rd_holdShown_energies (v.setWidth 32) (s.holdWord v) low
  rw [h]
  generalize s.holdShown (v.setWidth 32) (s.holdWord v) low = u at *
  have hmarks : noMarks u := noMarks_congr (fun k _ => hrd _ (by unfold Reg.TWN_SURR_MASK Reg.SYS_HOLD_V; omega)
    (by unfold Reg.TWN_SURR_MASK Reg.SYS_HOLD_E; omega)) hm
  have hbeside := State.raiseIf_beside c (n := 3) (by decide) hmarks
  obtain ⟨hshed3, hmram3⟩ := State.shed_of_beside hbeside
  have hreq : (u.raiseIf c 3).rd Reg.SYS_HOLD_CFG = s.rd Reg.SYS_HOLD_CFG :=
    (State.rd_of_beside hbeside (by decide)).trans (hrd _ (by decide) (by decide))
  refine ⟨(State.raiseIf_recording c (by decide) hmarks).trans hrec, hshed3.trans hshed, hmram3.trans hmram, fun henergy => ?_,
    congrArg (fun w => ePm + fieldOf w 16 16) hreq⟩
  rw [State.eUsable, State.field, State.rd_of_beside hbeside (by decide), henergies]
  exact State.le_fieldOf_holdWord henergy

/-! ## The end of a shed (R567, R568) -/

theorem State.shedEnds_none {s : State} (h : s.sys.shed = .none) : s.shedEnds = s := by simp [State.shedEnds, h]

/-! ## PM_RECORD_START (R523, R569 to R572) -/

/-- A cause leaves the list of those that are due, and the bank is measured for its record. -/
def State.pmMeasured (s : State) (rest : List PmDue) (v : BitVec 16) : State :=
  State.holdMeasure { s with sys := { s.sys with pmDue := rest } } v

theorem State.pmMeasured_rest {s : State} (hm : noMarks s) (rest : List PmDue) (v : BitVec 16) :
    (s.pmMeasured rest v).recording = s.recording ∧ (s.pmMeasured rest v).sys.shed = s.sys.shed ∧
      (s.pmMeasured rest v).mram = s.mram ∧ (10 ≤ s.usableAt v → 10 ≤ (s.pmMeasured rest v).eUsable) ∧
      (s.pmMeasured rest v).eReq = s.eReq :=
  State.holdMeasure_rest (s := { s with sys := { s.sys with pmDue := rest } }) hm v

section
variable {s : State} {d : PmDue} {rest : List PmDue} (hdue : s.sys.pmDue = d :: rest) (hpm : s.sys.pm = none)
include hdue hpm

/-- The measured state goes by a name of its own, so that nothing compares it with what it is made of. -/
theorem exec_pmRecordStart (v : BitVec 16) {s1 : State} (hs1 : s1 = s.pmMeasured rest v) : exec (.pmRecordStart v) s =
    if s.key.present = false ∨ s.key.foreign then .next (s1.setBit Reg.SYS_EVT 6).shedEnds
    else if s1.eUsable < 10 then .next (State.shedEnds { s1 with sys := { s1.sys with pmLost := true } })
    else .next (s1.pmBegin d) := by
  change execPmRecordStart v s = _
  unfold execPmRecordStart
  split
  · next hcons _ =>
    obtain ⟨rfl, rfl⟩ := List.cons.inj (hdue.symm.trans hcons)
    rw [hs1, State.pmMeasured]
  · next hno => exact absurd hpm (hno _ _ hdue)

variable (hm : noMarks s)
include hm

theorem answers_pmRecordStart_keyless (hshed : s.sys.shed = .none) (v : BitVec 16)
    (hkey : s.key.present = false ∨ s.key.foreign = true) :
    answers (.pmRecordStart v) s fun t => t.sys.pm = none ∧ t.bitOf Reg.SYS_EVT 6 = true ∧ t.mram = s.mram := by
  obtain ⟨hrec, hshed1, hmram, -, -⟩ := State.pmMeasured_rest hm rest v
  obtain ⟨s1, hs1⟩ : ∃ s1, s1 = s.pmMeasured rest v := ⟨_, rfl⟩
  rw [← hs1] at hrec hshed1 hmram
  have hnone : s1.sys.pm.isSome = false := (congrArg Prod.fst hrec).trans (congrArg Option.isSome hpm)
  refine ⟨s1.setBit Reg.SYS_EVT 6, ?_, by simpa using hnone, State.bitOf_setBit_same _ _ (by decide), hmram⟩
  rw [exec_pmRecordStart hdue hpm v hs1, if_pos hkey, State.shedEnds_none (s := s1.setBit Reg.SYS_EVT 6) (hshed1.trans hshed)]

theorem answers_pmRecordStart (v : BitVec 16) (hkey : s.key.present = true) (hown : s.key.foreign = false)
    (henergy : 10 ≤ s.usableAt v) : answers (.pmRecordStart v) s fun t =>
      (∃ r, t.sys.pm = some r ∧ r.first = d ∧ r.cause = (1 : BitVec 3) <<< d.cause ∧ r.eReq = s.eReq) ∧ t.mram = s.mram := by
  obtain ⟨-, -, hmram, husable, hreq⟩ := State.pmMeasured_rest hm rest v
  obtain ⟨s1, hs1⟩ : ∃ s1, s1 = s.pmMeasured rest v := ⟨_, rfl⟩
  rw [← hs1] at hmram husable hreq
  refine ⟨s1.pmBegin d, ?_, ⟨_, rfl, rfl, rfl, hreq⟩, hmram⟩
  rw [exec_pmRecordStart hdue hpm v hs1, if_neg (by simp [hkey, hown]), if_neg (not_lt.mpr (husable henergy))]

end

/-! ## PM_RECORD_DONE (R570, R574, R576) -/

/-- A record stands on the key, body and header, and is the newest of the valid ones. -/
def State.recordKept (s : State) (r : PmRec) (body header : List Byte) (count : Nat) : State :=
  let s1 := (s.keyPut (keySlotAt r.slot + 512) body).keyPut (keySlotAt r.slot) header
  (State.lifeUp { s1 with key := { s1.key with pmNew := some (r.seq, r.slot), pmCount := count } } 4).setBit Reg.SYS_EVT 5

theorem State.recordKept_spec (s : State) (r : PmRec) (body header : List Byte) (count : Nat) :
    (s.recordKept r body header count).sys = s.sys ∧ (s.recordKept r body header count).key.pmNew = some (r.seq, r.slot) ∧
    (s.recordKept r body header count).bitOf Reg.SYS_EVT 5 = true ∧
    ∀ a, a ≠ Reg.SYS_EVT → (s.recordKept r body header count).rd a = s.rd a :=
  ⟨rfl, rfl, State.bitOf_setBit_same _ _ (by decide), fun _ ha => State.rd_setBit_other _ _ _ _ ha⟩

/-- Beside the record that is kept at most FS253 is raised. -/
theorem State.pmWritten_eq (s : State) (r : PmRec) : ∃ body header count c,
    s.pmWritten r = (s.recordKept r body header count).raiseIf c 253 := ⟨_, _, _, _, rfl⟩

theorem length_freeBytes (i n : Nat) : (freeBytes i n).length = n := by
  induction n generalizing i with
  | zero => rfl
  | succ n ih => exact congrArg (· + 1) (ih (i + 1))

/-- A failed write touches no byte outside its stretch. -/
theorem State.keyTorn_other (s : State) {a n b : Nat} (h : b < a ∨ a + n ≤ b) : (s.keyTorn a n).mram.byte b = s.mram.byte b :=
  Memory.byte_write_other _ _ _ _ (by rwa [length_freeBytes])

/-- The record in progress ends with its slot overwritten in part. -/
def State.recordTorn (s : State) (r : PmRec) : State :=
  State.keyTorn { s with sys := { s.sys with pm := none } } (keySlotAt r.slot) (512 + r.body.length)

section
variable {s : State} {r : PmRec} (hpm : s.sys.pm = some r) (hkey : s.key.present = true)
include hpm hkey

theorem exec_pmRecordDone_written : exec (.pmRecordDone true) s =
    .next (State.pmWritten { s with sys := { s.sys with pm := none } } r).shedEnds := by
  change execPmRecordDone true s = _
  unfold execPmRecordDone
  split
  · next h => exact nomatch h.symm.trans hpm
  · next h =>
    obtain rfl := Option.some.inj (h.symm.trans hpm)
    exact if_pos ⟨rfl, hkey⟩

theorem exec_pmRecordDone_failed : exec (.pmRecordDone false) s = .next ((s.recordTorn r).raise 254).shedEnds := by
  change execPmRecordDone false s = _
  unfold execPmRecordDone
  split
  · next h => exact nomatch h.symm.trans hpm
  · next h =>
    obtain rfl := Option.some.inj (h.symm.trans hpm)
    rw [if_neg (by simp), if_pos hkey]
    rfl

theorem answers_pmRecordDone (hshed : s.sys.shed = .none) (hm : noMarks s) : answers (.pmRecordDone true) s fun t =>
    t.sys.pm = none ∧ t.key.pmNew = some (r.seq, r.slot) ∧ t.bitOf Reg.SYS_EVT 5 = true := by
  obtain ⟨body, header, count, c, hwritten⟩ := State.pmWritten_eq { s with sys := { s.sys with pm := none } } r
  obtain ⟨hsys, hnew, hbit, hrd⟩ := State.recordKept_spec { s with sys := { s.sys with pm := none } } r body header count
  generalize State.recordKept _ r body header count = u at *
  have hmarks : noMarks u :=
    noMarks_congr (fun k _ => hrd _ (by unfold Reg.TWN_SURR_MASK Reg.SYS_EVT; omega)) hm
  have hbeside := State.raiseIf_beside c (n := 253) (by decide) hmarks
  have hrec := State.raiseIf_recording c (n := 253) (by decide) hmarks
  have hshed' : (u.raiseIf c 253).sys.shed = .none :=
    (State.shed_of_beside hbeside).1.trans ((congrArg Sys.shed hsys).trans hshed)
  have hnone : (u.raiseIf c 253).sys.pm.isSome = false :=
    (congrArg Prod.fst hrec).trans (congrArg (fun x : Sys => x.pm.isSome) hsys)
  refine ⟨u.raiseIf c 253, ?_, by simpa using hnone, (congrArg Prod.snd hrec).trans hnew, ?_⟩
  · rw [exec_pmRecordDone_written hpm hkey, hwritten, State.shedEnds_none hshed']
  · rw [State.bitOf, State.rd_of_beside hbeside (by decide)]
    exact hbit

end

/-! ## TEMP_MEASURE (R848, R849, R851) -/

theorem State.powered_tempTake (s : State) (i : Nat) (v : BitVec 16) (d : Nat) : (s.tempTake i v).powered d = s.powered d := by
  unfold State.tempTake
  split <;> rfl

/-- What a sensor shows: its own register takes the reading, or the mark of a sensor without power. -/
theorem State.rd_tempTake (s : State) (i : Nat) (v : BitVec 16) (a : Nat) : (s.tempTake i v).rd a =
    if a = Reg.SYS_TEMP_S i then (if s.powered (tempDomain i) then v.setWidth 32 else 0x8000) else s.rd a := by
  unfold State.tempTake
  split <;> exact State.rd_wr _ _ _ _

theorem State.rd_tempShow (s : State) {a : Nat} (htemp : a ≠ Reg.SYS_TEMP) (hmax : a ≠ Reg.SYS_TEMP_MAX) :
    s.tempShow.rd a = s.rd a := by
  unfold State.tempShow
  extract_lets word s1
  have hs1 : s1.rd a = s.rd a := by
    unfold s1
    split <;> exact State.rd_wr_other _ _ _ _ htemp
  refine (State.foldl_view (fun t : State => t.rd a) _ (fun t i => ?_) _ s1).trans hs1
  dsimp only
  split
  · split
    · exact State.rd_wr_other _ _ _ _ hmax
    · rfl
  · rfl

theorem eventReg_SYS_TEMP_S {i : Nat} (h : i < 5) : eventReg (Reg.SYS_TEMP_S i) = false := by
  refine decide_eq_false ?_
  unfold Reg.SYS_TEMP_S Reg.LE_INJ_CTL Reg.ADC_EVT
  omega

/-- The five sensors are read one after the other. -/
def State.tempsTaken (s : State) (t0 t1 t2 t3 t4 : BitVec 16) : State :=
  ((((s.tempTake 0 t0).tempTake 1 t1).tempTake 2 t2).tempTake 3 t3).tempTake 4 t4

/-- Beside what they show the sensors raise at most FS5 and FS6. -/
theorem exec_tempMeasure {s : State} (hgoing : s.sys.going = true) (t0 t1 t2 t3 t4 : BitVec 16) : ∃ c e,
    exec (.tempMeasure t0 t1 t2 t3 t4) s = .next (((s.tempsTaken t0 t1 t2 t3 t4).tempShow.raiseIf c 5).raiseIf e 6) :=
  ⟨_, _, if_neg (by simp [hgoing])⟩

theorem State.tempMeasured_beside {s : State} (hm : noMarks s) (t0 t1 t2 t3 t4 : BitVec 16) (c e : Bool) :
    (((s.tempsTaken t0 t1 t2 t3 t4).tempShow.raiseIf c 5).raiseIf e 6).beside = (s.tempsTaken t0 t1 t2 t3 t4).tempShow.beside := by
  have hmarks : noMarks (s.tempsTaken t0 t1 t2 t3 t4).tempShow := by
    refine noMarks_congr (fun k _ => ?_) hm
    have hsensor : ∀ i, i < 5 → Reg.TWN_SURR_MASK k ≠ Reg.SYS_TEMP_S i := fun i hi => by
      unfold Reg.TWN_SURR_MASK Reg.SYS_TEMP_S
      omega
    rw [State.rd_tempShow _ (by unfold Reg.TWN_SURR_MASK Reg.SYS_TEMP; omega)
      (by unfold Reg.TWN_SURR_MASK Reg.SYS_TEMP_MAX; omega)]
    simp [State.tempsTaken, State.rd_tempTake, hsensor]
  have hfirst := State.raiseIf_beside c (n := 5) (by decide) hmarks
  exact (State.raiseIf_beside e (by decide) (noMarks_of_beside hfirst hmarks)).trans hfirst

/-! ## TEMP_CUTOFF (R850) -/

/-- Every domain but PD0 goes off, and stays so (R850). -/
def State.cutOff (s : State) : State :=
  let s1 := (otherDomains ++ [1]).foldl State.domainOff s
  { s1 with sys := { s1.sys with cutOff := true } }

theorem exec_tempCutoff {s : State} {i : Fin 5} {x : Int} (htemp : s.tempOf i = some x) (hx : (tempLevels i).2.2 < x) :
    exec (.tempCutoff i) s = .next s.cutOff := by
  change execTempCutoff i s = _
  simp only [execTempCutoff, htemp, if_pos hx]
  rfl

theorem State.powered_cutOff (s : State) (d : Nat) :
    s.cutOff.powered d = (s.powered d && !decide (d ∈ otherDomains ++ [1])) := State.powered_domainsOff _ s d

end Sys2Proof.Machine

namespace Sys2Proof.Startup

open Sys2Proof.Machine Sys2Proof.Safety

/-- Settles O50: a record by the key and the energy it finds, the sensors one after the other, and the cut-off by the domains. -/
theorem recordsAndTemperatures : Obligations.RecordsAndTemperatures := by
  refine ⟨fun v d rest s hdue hpm hshed hm => ⟨answers_pmRecordStart_keyless hdue hpm hm hshed v,
      answers_pmRecordStart hdue hpm hm v⟩,
    fun r s hpm hshed hkey => ⟨answers_pmRecordDone hpm hkey hshed, s.recordTorn r, rfl, rfl, hshed, fun a ha => State.keyTorn_other _ ha,
      exec_pmRecordDone_failed hpm hkey⟩,
    fun t0 t1 t2 t3 t4 s hgoing hm => ?_, fun i x s htemp hx => ⟨_, exec_tempCutoff htemp hx, rfl, ?_, fun d hlo hhi => ?_⟩⟩
  · obtain ⟨c, e, hexec⟩ := exec_tempMeasure hgoing t0 t1 t2 t3 t4
    have hrd : ∀ i, i < 5 → ((((s.tempsTaken t0 t1 t2 t3 t4).tempShow.raiseIf c 5).raiseIf e 6).rd (Reg.SYS_TEMP_S i)) =
        (s.tempsTaken t0 t1 t2 t3 t4).rd (Reg.SYS_TEMP_S i) := fun i hi => by
      rw [State.rd_of_beside (State.tempMeasured_beside hm t0 t1 t2 t3 t4 c e) (eventReg_SYS_TEMP_S hi),
        State.rd_tempShow _ (by unfold Reg.SYS_TEMP_S Reg.SYS_TEMP; omega) (by unfold Reg.SYS_TEMP_S Reg.SYS_TEMP_MAX; omega)]
    refine ⟨_, hexec, ?_, ?_, ?_, ?_, ?_⟩ <;> rw [hrd _ (by decide)] <;>
      simp [State.tempsTaken, State.rd_tempTake, State.powered_tempTake, tempDomain, Reg.SYS_TEMP_S]
  · rw [State.powered_cutOff, decide_eq_false (by decide), Bool.not_false, Bool.and_true]
  · have hmem : d ∈ otherDomains ++ [1] := by
      rw [List.mem_append, mem_otherDomains, List.mem_singleton]
      omega
    simp [State.powered_cutOff, hmem]

end Sys2Proof.Startup
end

section
/-! A feed that returns after a shed while a record is being written (R568, R571, R574): the power-on reset cuts the record off, so
the key does not stay as it was. -/

namespace Sys2Proof.Machine

/-- The byte at which a write begins is the first one written. -/
theorem Memory.byte_write_first (m : Memory) (a : Nat) (b : Byte) (l : List Byte) : (m.write a (b :: l)).byte a = b := by
  rw [Memory.write, Memory.byte_write_other _ _ _ _ (.inl (Nat.lt_succ_self a)), Memory.byte_put, if_pos rfl]

/-- The first byte that a failed write leaves on the key is the next free value (R570). -/
theorem State.keyTorn_first (s : State) (a n : Nat) : (s.keyTorn a (n + 1)).mram.byte a = s.fresh.setWidth 8 :=
  Memory.byte_write_first _ _ _ _

theorem exec_shedFeedReturn_off {s : State} (h : s.sys.shed = .off) : exec .shedFeedReturn s = .next s.powerReset := by
  change execShedFeedReturn s = _
  rw [execShedFeedReturn, h]

/-- A restart in the course of a record overwrites its slot from the first byte on (R568, R574). -/
theorem State.powerReset_slot {s : State} {r : PmRec} (hpm : s.sys.pm = some r) (hkey : s.key.present = true) :
    s.powerReset.mram.byte (keySlotAt r.slot) = s.fresh.setWidth 8 := by
  obtain ⟨-, -, -, -, -, -, -, hmram, -⟩ := s.pd0Down.pd0Up_spec s.twn.secondary
  rw [State.powerReset, hmram, s.pd0Down_mram_torn hpm hkey, Nat.add_comm]
  exact s.keyTorn_first _ _

/-- A trip that came while the record of the power loss was written: its record waits while the shed ends (R569, R571). -/
def tripDue : PmDue := { cause := 1, at_ := 0, nt := 0, pc := 0, epoch := 0, lease := 0, feeds := 0, snap := [] }

/-- The module after step 4 of a shed, with a key of which one byte of slot 0 differs from the first free value, and with a cause
that still waits for its record. -/
def afterShed : State :=
  { sys := { pdOn := 1, going := true, shed := .off, pmDue := [tripDue] }
    key := { present := true, pmNew := some (0, 15) }
    mram := Memory.put [] (keySlotAt 0) (~~~ (Config.freeWord 0).setWidth 8)
    regs := [(Reg.SYS_HOLD_C, 1400)] }

/-- `afterShed` while the record of that trip is written to slot 0. -/
def recordAfterShed : State :=
  { afterShed with sys := { afterShed.sys with
      pmDue := []
      pm := some { first := tripDue, cause := 2, flags := 0, slot := 0, seq := 1, eUsable := 2310, eReq := 113 } } }

theorem afterShed_begins : ∃ t, exec (.pmRecordStart 7000) afterShed = .next t ∧ t.sys.shed = .off ∧
    t.sys.pm.isSome = true := by
  refine ⟨_, rfl, ?_, ?_⟩ <;> decide

end Sys2Proof.Machine

namespace Sys2Proof.Startup

open Sys2Proof.Machine Sys2Proof.Safety

/-- Refutes O49, by its clause that a restart leaves the key: in `recordAfterShed` a record is being written, which the reset of
R568 cuts off, so the first byte of its slot is a free value (R574). -/
theorem not_feedsBankAndShed : ¬ Obligations.FeedsBankAndShed := by
  rintro ⟨-, -, -, -, -, -, hreturn⟩
  obtain ⟨-, hoff⟩ := hreturn recordAfterShed
  obtain ⟨t, hexec, -, -, -, -, hmram, -⟩ := hoff rfl
  rw [exec_shedFeedReturn_off rfl, Host.Outcome.next.injEq] at hexec
  subst hexec
  have hslot := State.powerReset_slot (s := recordAfterShed) rfl rfl
  rw [hmram] at hslot
  have hbefore : recordAfterShed.mram.byte (keySlotAt 0) = ~~~ recordAfterShed.fresh.setWidth 8 :=
    (Memory.byte_put _ _ _ _).trans (if_pos rfl)
  exact absurd (congrArg (BitVec.getLsbD · 0) (hslot.symm.trans hbefore)) (by simp)

end Sys2Proof.Startup
end

section
/-! What an event in the collector and a surrender of the lease leave of the station network (R498, R499): its typed state, its
setup and its registers. One rule for each shared operation. -/

namespace Sys2Proof.Machine

open Sys2Proof.Safety

/-- Is an address that of a register of the station network? (R857) -/
def netReg (a : Nat) : Prop := 0x200A0000 ≤ a ∧ a < 0x200B0000

theorem netReg.ne_twin {a : Nat} (h : netReg a) : a ≠ Reg.TWN_EVT ∧ a ≠ Reg.TWN_RES ∧ a ≠ Reg.TWN_SURR := by
  unfold netReg at h
  refine ⟨?_, ?_, ?_⟩ <;> rintro rfl <;> simp [Reg.TWN_EVT, Reg.TWN_RES, Reg.TWN_SURR] at h

theorem netReg.not_eventReg {a : Nat} (h : netReg a) : eventReg a = false := by
  unfold netReg at h
  refine decide_eq_false ?_
  unfold Reg.LE_INJ_CTL Reg.ADC_EVT
  omega

/-- From `s` to `t` the network rests: its typed state, the image's sections and its registers stay. -/
structure State.NetRests (s t : State) : Prop where
  net : t.net = s.net
  cfg : t.sys.cfg = s.sys.cfg
  rd : ∀ a, netReg a → t.rd a = s.rd a

namespace State.NetRests

theorem refl (s : State) : s.NetRests s := ⟨rfl, rfl, fun _ _ => rfl⟩

theorem trans {s t u : State} (h : s.NetRests t) (k : t.NetRests u) : s.NetRests u :=
  ⟨k.net.trans h.net, k.cfg.trans h.cfg, fun a ha => (k.rd a ha).trans (h.rd a ha)⟩

theorem of_beside {s t : State} (h : t.beside = s.beside) : s.NetRests t :=
  ⟨(congrArg (fun v => v.1.net) h :), (congrArg (fun v => v.1.sys.cfg) h :),
    fun _ ha => State.rd_of_beside h ha.not_eventReg⟩

theorem bitOf {s t : State} (h : s.NetRests t) {a : Nat} (ha : netReg a) (i : Nat) : t.bitOf a i = s.bitOf a i := by
  rw [State.bitOf, h.rd a ha, State.bitOf]

theorem prpMode {s t : State} (h : s.NetRests t) : t.prpMode = s.prpMode := by
  rw [State.prpMode, State.netByte, h.cfg, State.prpMode, State.netByte]

end State.NetRests

section
variable (s : State)

theorem State.collect_netRests (n : Nat) (t : BitVec 64) (inj : Bool) : s.NetRests (s.collect n t inj) :=
  .of_beside (s.collect_beside n t inj)

theorem State.wr_netRests {a : Nat} (v : Word) (h : ¬ netReg a) : s.NetRests (s.wr a v) :=
  ⟨rfl, rfl, fun _ hb => State.rd_wr_other _ _ _ _ fun e => h (e ▸ hb)⟩

theorem State.setBit_netRests {a : Nat} (i : Nat) (h : ¬ netReg a) : s.NetRests (s.setBit a i) :=
  ⟨rfl, rfl, fun _ hb => State.rd_setBit_other _ _ _ _ fun e => h (e ▸ hb)⟩

theorem State.stopFrames_netRests : s.NetRests s.stopFrames := by
  obtain ⟨p, hp⟩ := s.stopFrames_portsMoved
  rw [hp]
  exact ⟨rfl, rfl, fun _ _ => rfl⟩

theorem State.sendMsg_netRests (op : BitVec 8) (arg : BitVec 64) : s.NetRests (s.sendMsg op arg) := by
  obtain ⟨l, g, h⟩ := s.sendMsg_eq op arg
  rw [h]
  exact ⟨rfl, rfl, fun _ _ => rfl⟩

theorem State.setLease_netRests (l : LeaseSt) : s.NetRests (s.setLease l) := by
  obtain ⟨-, hrest, hregs⟩ := s.setLease_spec l
  exact ⟨(congrArg State.net hrest :), (congrArg (fun t : State => t.sys.cfg) hrest :),
    fun a ha => hregs a (by simpa using ha.ne_twin.1)⟩

/-- The engines' windows lie beyond the network's (R857), and their blocks hold none of its state. -/
theorem State.domainOff_netRests {d : Nat} (hd : isEngine d) : s.NetRests (s.domainOff d) := by
  obtain ⟨-, hrd, -⟩ := s.domainOff_engine hd
  have hregs : ∀ a, netReg a → (s.domainOff d).rd a = s.rd a := fun a ha =>
    hrd a (outsideEngines_of_lt (ha.2.trans (by decide)))
  obtain ⟨r, hl, as, ls, x, hs, -⟩ := s.emptied_eq hd
  obtain ⟨hoff, -⟩ | ⟨c, p, q, hoff⟩ := s.domainOff_eq d
  · rw [hoff]
    exact .refl s
  · exact ⟨by rw [hoff, hs], by rw [hoff, hs], hregs⟩

theorem State.enginesOff_netRests : s.NetRests s.enginesOff :=
  ((s.domainOff_netRests (.inl rfl)).trans (State.domainOff_netRests _ (.inr (.inl rfl)))).trans
    (State.domainOff_netRests _ (.inr (.inr rfl)))

theorem State.dropHand_netRests : s.NetRests s.dropHand := by
  unfold State.dropHand State.twnResult State.setField
  split
  · exact ((s.wr_netRests _ (fun h => h.ne_twin.2.1 rfl)).trans (State.setBit_netRests _ _ (fun h => h.ne_twin.1 rfl))).trans
      (State.collect_netRests _ _ _ _)
  · exact .refl s

theorem State.standDown_netRests : s.NetRests s.standDown :=
  (((s.dropHand_netRests.trans (State.stopFrames_netRests _)).trans (State.setLease_netRests _ _)).trans
    (State.enginesOff_netRests _)).trans ⟨rfl, rfl, fun _ _ => rfl⟩

theorem State.ill_netRests : s.NetRests s.ill := by
  have hcount : s.NetRests { s with twn := { s.twn with healthyAt := none } } := ⟨rfl, rfl, fun _ _ => rfl⟩
  unfold State.ill
  dsimp only
  split
  · exact hcount.trans (State.standDown_netRests _)
  · exact hcount

theorem State.surrender_netRests (why what : Nat) : s.NetRests (s.surrender why what) := by
  unfold State.surrender
  extract_lets s1 s2 x s3
  have h1 : s.NetRests s1 := (s.stopFrames_netRests.trans (State.sendMsg_netRests _ _ _)).trans
    (State.wr_netRests _ _ fun h => h.ne_twin.2.2 rfl)
  have h2 : s1.NetRests s2 := (s1.collect_netRests 196 s1.now false).trans
    (State.setBit_netRests _ _ fun h => h.ne_twin.1 rfl)
  have h3 : s2.NetRests s3 := ⟨rfl, rfl, fun _ _ => rfl⟩
  exact (((h1.trans h2).trans h3).trans (s3.setLease_netRests _)).trans (State.enginesOff_netRests _)

/-- An event of a fault source, with everything that follows from it, leaves the network as it was. -/
theorem State.raise_netRests (n : Nat) : s.NetRests (s.raise n) := by
  refine (s.collect_netRests n s.now false).trans ?_
  unfold State.raise State.maskSurrender
  split
  · exact State.surrender_netRests _ _ _
  · split
    · exact State.ill_netRests _
    · exact .refl _

theorem State.raiseIf_netRests (c : Bool) (n : Nat) : s.NetRests (s.raiseIf c n) := by
  unfold State.raiseIf
  split
  · exact s.raise_netRests n
  · exact .refl s

end

end Sys2Proof.Machine
end

section
/-! What the rules of the network use throughout (R583 to R626): the passing of time, fields and bits of its registers, its rings,
and NT_LOCKED. -/

namespace Sys2Proof.Machine

open Sys2Proof.Safety

/-! ## The passing of time (R23, R593) -/

/-- From `s` to `t` time may have gone by: VT, the reference and network time have moved on, and nothing else. -/
def State.Waited (s t : State) : Prop := ∃ v u n p c, t = { s with
  tb := { s.tb with vt := v }, sys := { s.sys with up := u }, net := { s.net with nt := n, ph := p, cyc := c } }

theorem State.Waited.refl (s : State) : s.Waited s := ⟨_, _, _, _, _, rfl⟩

theorem State.elapse_waited (s : State) (n : Nat) : s.Waited (s.elapse n) := by
  unfold State.elapse
  extract_lets s1
  split <;> exact ⟨_, _, _, _, _, rfl⟩

theorem State.toNt_waited (s : State) (t : BitVec 32) : s.Waited (s.toNt t) := by
  unfold State.toNt
  extract_lets d
  split
  · exact s.elapse_waited _
  · exact .refl s

/-! ## Fields and bits of a register -/

/-- A write of one field leaves the fields beside it. -/
theorem State.field_setField_other (s : State) (a v : Nat) {lo n lo' n' : Nat} (hn : lo' + n' ≤ 32)
    (h : lo' + n' ≤ lo ∨ lo + n ≤ lo') : (s.setField a lo n v).field a lo' n' = s.field a lo' n' := by
  have hbits : ((s.rd a &&& ~~~ putField (2 ^ n - 1) lo) ||| putField (v % 2 ^ n) lo).extractLsb' lo' n' =
      (s.rd a).extractLsb' lo' n' := by
    refine BitVec.eq_of_getLsbD_eq fun i hi => ?_
    have hlt : lo' + i < 32 := by omega
    have hmask : ∀ m, m < 2 ^ n → (putField m lo).getLsbD (lo' + i) = false := fun m hm => by
      rw [getLsbD_putField]
      by_cases hlo : lo ≤ lo' + i
      · have hge : 2 ^ n ≤ 2 ^ (lo' + i - lo) := Nat.pow_le_pow_right (by decide) (by omega)
        simp [Nat.testBit_lt_two_pow (hm.trans_le hge)]
      · simp [hlo]
    have hones := hmask (2 ^ n - 1) (Nat.sub_lt (Nat.two_pow_pos n) Nat.one_pos)
    have hval := hmask (v % 2 ^ n) (Nat.mod_lt _ (Nat.two_pow_pos n))
    simp only [BitVec.getLsbD_extractLsb', BitVec.getLsbD_or, BitVec.getLsbD_and, BitVec.getLsbD_not, hones, hval, hlt]
    simp
  rw [State.field, State.setField, State.rd_wr_same, fieldOf_eq_extractLsb', hbits, ← fieldOf_eq_extractLsb', State.field]

theorem State.field_addField_same (s : State) (a k : Nat) {lo n : Nat} (h : lo + n ≤ 32) :
    (s.addField a lo n k).field a lo n = satAdd (s.field a lo n) k (2 ^ n - 1) := by
  refine (s.field_setField_same a _ h).trans (Nat.mod_eq_of_lt ?_)
  exact (min_le_right _ _).trans_lt (Nat.sub_lt (Nat.two_pow_pos n) Nat.one_pos)

theorem State.field_lt (s : State) (a lo n : Nat) : s.field a lo n < 2 ^ n := Nat.mod_lt _ (Nat.two_pow_pos n)

theorem State.field_congr {s t : State} {a : Nat} (h : t.rd a = s.rd a) (lo n : Nat) : t.field a lo n = s.field a lo n := by
  rw [State.field, h, State.field]

theorem State.bitOf_congr {s t : State} {a : Nat} (h : t.rd a = s.rd a) (i : Nat) : t.bitOf a i = s.bitOf a i := by
  rw [State.bitOf, h, State.bitOf]

theorem State.setBitIf_regsBut (s : State) (c : Bool) (a i : Nat) : regsBut s (s.setBitIf c a i) [a] := by
  unfold State.setBitIf
  split
  · exact (State.setBits_onlyRegs s a _).2.1
  · exact fun _ _ => rfl

theorem State.setBitIf_rest (s : State) (c : Bool) (a i : Nat) :
    { s.setBitIf c a i with regs := s.regs, setAt := s.setAt } = s := by
  unfold State.setBitIf
  split <;> rfl

theorem State.setBitIf_net (s : State) (c : Bool) (a i : Nat) : (s.setBitIf c a i).net = s.net :=
  (congrArg State.net (s.setBitIf_rest c a i) :)

/-- Clearing one bit of a word leaves the others. -/
theorem getLsbD_and_not_one_shiftLeft {w : Nat} (x : BitVec w) (d e : Nat) :
    (x &&& ~~~ ((1 : BitVec w) <<< d)).getLsbD e = (x.getLsbD e && !decide (e = d)) := by
  have hbit : ((1 : BitVec w) <<< d).getLsbD e = (decide (d < w) && decide (d = e)) := BitVec.getLsbD_twoPow d e
  rw [BitVec.getLsbD_and, BitVec.getLsbD_not, hbit]
  by_cases he : e < w
  · by_cases hd : e = d
    · simp [← hd, he]
    · simp [he, hd, Ne.symm hd]
  · simp [BitVec.getLsbD_of_ge _ _ (Nat.le_of_not_lt he)]

/-! ## The rings (R603, R604) -/

/-- Everything that the completion of a descriptor does: bytes are written, and the head of its ring moves on. -/
theorem State.descDone_spec {s : State} {p r : Nat} (i len flags : Nat) (time : BitVec 32) (hsize : 0 < s.ringSize p r) :
    (s.descDone p r i len flags time).ringHead p r = (i + 1) % s.ringSize p r ∧
      regsBut s (s.descDone p r i len flags time) [Reg.NET_RING_PTR p r] ∧
      { s.descDone p r i len flags time with ram := s.ram, regs := s.regs } = s := by
  refine ⟨?_, fun a ha => State.rd_setField_other _ _ _ _ _ _ (by simpa using ha), rfl⟩
  have hlt : s.ringSize p r < 2 ^ 10 := s.field_lt _ _ _
  have hmod := Nat.mod_lt (i + 1) hsize
  refine (State.field_setField_same _ _ _ (by decide)).trans ?_
  rw [max_eq_right (Nat.one_le_of_lt hsize), Nat.mod_eq_of_lt (hmod.trans hlt)]

theorem State.ringSize_pos_of_headDesc {s : State} {p r i : Nat} {d : Desc} (h : s.headDesc p r = some (i, d)) :
    0 < s.ringSize p r := by
  unfold State.headDesc at h
  dsimp only at h
  split at h
  · next hc =>
    obtain ⟨hon, -⟩ := hc
    simp only [State.ringOn, Bool.and_eq_true, decide_eq_true_eq] at hon
    exact hon.1
  · cases h

/-- A frame that finds no descriptor is lost. -/
theorem State.ringDeliver_none {s : State} {q : Nat} (f : List Byte) (ts : BitVec 32) (onB : Bool)
    (h : s.headDesc q 0 = none) : s.ringDeliver q f ts onB = s := by
  simp [State.ringDeliver, h]

/-- A frame completes the descriptor at the head of its ring, whether its buffer holds the frame or not. -/
theorem State.ringDeliver_spec {s : State} {q i : Nat} {d : Desc} (f : List Byte) (ts : BitVec 32) (onB : Bool)
    (h : s.headDesc q 0 = some (i, d)) : (s.ringDeliver q f ts onB).ringHead q 0 = (i + 1) % s.ringSize q 0 ∧
      regsBut s (s.ringDeliver q f ts onB) [Reg.NET_RING_PTR q 0] ∧
      { s.ringDeliver q f ts onB with ram := s.ram, regs := s.regs } = s := by
  have hsize := State.ringSize_pos_of_headDesc h
  simp only [State.ringDeliver, h]
  split
  · exact State.descDone_spec _ _ _ _ hsize
  · obtain ⟨hptr, hregs, hrest⟩ := State.descDone_spec (s := s.ramWrite d.addr f) (p := q) (r := 0) i f.length
      (doneFlags d false false ((ptpAt f).isSome && q != 2) onB) ts hsize
    exact ⟨hptr, hregs, congrArg (fun t : State => { t with ram := s.ram }) hrest⟩

/-! ## NT_LOCKED (R597) -/

/-- The loss of the lock leaves the rest of the network's state and its registers but the events. -/
theorem State.ntUnlock_spec (s : State) : s.ntUnlock.net = { s.net with locked := false, inBand := 0 } ∧
    ∀ i, i < 32 → s.bitOf Reg.NET_EVT i = true → s.ntUnlock.bitOf Reg.NET_EVT i = true := by
  unfold State.ntUnlock
  split
  · have hrests := State.raise_netRests
      (State.setBit { s with net := { s.net with locked := false, inBand := 0 } } Reg.NET_EVT 1) 211
    refine ⟨hrests.net, fun i hi hbit => ?_⟩
    rw [hrests.bitOf (by unfold netReg; decide), State.bitOf_setBit _ _ _ _ hi]
    exact Bool.or_eq_true_iff.mpr (.inl hbit)
  · next hlocked =>
    exact ⟨by rw [← Bool.eq_false_iff.mpr hlocked], fun i _ hbit => hbit⟩

end Sys2Proof.Machine
end

section
/-! Links, frames and PRP (R583 to R592, R604): one rule for each command of the network's ports. -/

namespace Sys2Proof.Machine

open Sys2Proof.Safety

/-! ## Links (R585, R592) -/

/-- The state with a link gone, before the fault sources hear of it (R585). -/
def State.linkLost (s : State) (p : Nat) : State :=
  State.setBit { s with net := { s.net with link := s.net.link &&& ~~~ ((1 : BitVec 3) <<< p) } } Reg.NET_EVT 0

theorem State.linkLost_spec (s : State) (p : Nat) : (s.linkLost p).net.link.getLsbD p = false ∧
    (s.linkLost p).bitOf Reg.NET_EVT 0 = true ∧ regsBut s (s.linkLost p) [Reg.NET_EVT] ∧
    ∀ q, q ≠ p → (s.linkLost p).net.link.getLsbD q = s.net.link.getLsbD q := by
  refine ⟨?_, State.bitOf_setBit_same _ _ (by decide), fun a ha => State.rd_setBit_other _ _ _ _ (by simpa using ha),
    fun q hq => ?_⟩
  · exact (getLsbD_and_not_one_shiftLeft _ _ _).trans (by simp)
  · exact (getLsbD_and_not_one_shiftLeft _ _ _).trans (by simp [hq])

/-- Without PRP the loss of a link on NET A or NET B raises its source, and nothing more. -/
theorem exec_linkDown {p : Fin 3} {s : State} (hopen : s.open .net = true) (hlink : s.net.link.getLsbD p = true)
    (hmode : s.prpMode = false) : exec (.linkDown p) s = .next (
      if p.val < 2 then (s.linkLost p).raise (208 + p) else s.linkLost p) := by
  have hmode2 : ((s.linkLost p).raiseIf (decide (p.val < 2)) (208 + p)).prpMode = false :=
    (State.raiseIf_netRests _ _ _).prpMode.trans hmode
  have hgood : ¬ (s.open .net = false ∨ s.net.link.getLsbD p = false) := by
    rw [hopen, hlink]
    decide
  change execLinkDown p s = _
  rw [execLinkDown, if_neg hgood]
  refine congrArg Host.Outcome.next ((if_neg fun h => Bool.false_ne_true (hmode2.symm.trans h.1)).trans ?_)
  by_cases hp : p.val < 2 <;> simp only [hp, decide_true, decide_false] <;> rfl

theorem answers_linkUp {p : Fin 3} {s : State} (hopen : s.open .net = true) (hlink : s.net.link.getLsbD p = false) :
    answers (.linkUp p) s fun t => t.net.link.getLsbD p = true ∧ t.bitOf Reg.NET_EVT 0 = true ∧
      regsBut s t [Reg.NET_EVT] ∧ { t with net := s.net, regs := s.regs, setAt := s.setAt } = s := by
  have hbit : (s.net.link ||| ((1 : BitVec 3) <<< (p : Nat))).getLsbD p = true := by
    have hone : ((1 : BitVec 3) <<< (p : Nat)).getLsbD p = _ := BitVec.getLsbD_twoPow _ _
    rw [BitVec.getLsbD_or, hone]
    simp
  have hregs : regsBut s (s.setBit Reg.NET_EVT 0) [Reg.NET_EVT] := (State.setBits_onlyRegs s _ _).2.1
  have hevt : (s.setBit Reg.NET_EVT 0).bitOf Reg.NET_EVT 0 = true := State.bitOf_setBit_same _ _ (by decide)
  have hgood : ¬ (s.open .net = false ∨ s.net.link.getLsbD p = true) := by
    rw [hopen, hlink]
    decide
  change ∃ t, execLinkUp p s = .next t ∧ _
  rw [execLinkUp, if_neg hgood]
  refine ⟨_, rfl, ?_⟩
  extract_lets s1 recent
  split <;> exact ⟨hbit, hevt, hregs, rfl⟩

/-! ## Frames (R587, R604) -/

/-- Without PRP a frame that is no order goes to the receive ring of its port. -/
theorem exec_frameReceive_plain {p : Fin 3} {f : List (BitVec 8)} {s : State} (hopen : s.open .net = true)
    (hlink : s.net.link.getLsbD p = true) (hmin : 14 ≤ f.length) (hmax : f.length ≤ 1518) (hmode : s.prpMode = false)
    (horder : s.isOrder p f = false) : ∃ ts onB, exec (.frameReceive p f) s = .next (s.ringDeliver p f ts onB) := by
  have hgood : ¬ (s.open .net = false ∨ s.net.link.getLsbD p = false ∨ f.length < 14 ∨ 1518 < f.length) := by
    simp [hopen, hlink, hmin, hmax]
  by_cases hp : (p : Nat) = 2
  · refine ⟨0, false, ?_⟩
    change execFrameReceive p f s = _
    rw [execFrameReceive, if_neg hgood, if_pos hp, hp]
  · refine ⟨(s.ingress p f.length).setWidth 32, p.val == 1, ?_⟩
    change execFrameReceive p f s = _
    rw [execFrameReceive, if_neg hgood, if_neg hp]
    simp [State.netFrame, hmode, horder]

/-! ## PRP (R588, R589, R592) -/

/-- A frame of the module goes out with its trailer on both paths. -/
theorem State.sentFrame_prp {s : State} (h : s.prpMode = true) (f : List Byte) : s.sentFrame 0 f = { s with net := { s.net with
    prpSeq := s.net.prpSeq + 1
    lastTx := Sparse.put (fun _ => []) (Sparse.put (fun _ => []) s.net.lastTx 0 (withTrailer f (s.net.prpSeq + 1) 0)) 1
      (withTrailer f (s.net.prpSeq + 1) 1) } } := by
  simp [State.sentFrame, h]

theorem lastTx_sentFrame_prp {s : State} (h : s.prpMode = true) (f : List Byte) {q : Nat} (hq : q < 2) :
    Sparse.get (fun _ => []) (s.sentFrame 0 f).net.lastTx q = withTrailer f (s.net.prpSeq + 1) q := by
  rw [State.sentFrame_prp h]
  obtain rfl | rfl : q = 0 ∨ q = 1 := by omega
  · exact (Sparse.get_put_other _ _ _ _ _ (by decide)).trans (Sparse.get_put_same _ _ _ _)
  · exact Sparse.get_put_same _ _ _ _

/-- The state once the next supervision frame is due (R592). -/
def State.supDue (s : State) : State :=
  match s.net.supAt with
  | some t => s.elapse (t + ms 2000 - s.sys.up)
  | none => s

theorem State.supDue_waited (s : State) : s.Waited s.supDue := by
  unfold State.supDue
  split
  · exact s.elapse_waited _
  · exact .refl s

theorem answers_prpSupervisionSend {s : State} (hopen : s.open .net = true) (hmode : s.prpMode = true) :
    answers .prpSupervisionSend s fun t => t.net.supSent = s.net.supSent + 1 ∧ t.net.supAt = some s.supDue.sys.up ∧
      t.net.prpSeq = s.net.prpSeq + 1 ∧ { t with net := s.supDue.net } = s.supDue ∧
      ∀ q, q < 2 → Sparse.get (fun _ => []) t.net.lastTx q = withTrailer s.supFrame (s.net.prpSeq + 1) q := by
  have hexec : exec .prpSupervisionSend s = .next { s.supDue.sentFrame 0 s.supDue.supFrame with
      net := { (s.supDue.sentFrame 0 s.supDue.supFrame).net with
        supSent := (s.supDue.sentFrame 0 s.supDue.supFrame).net.supSent + 1
        supAt := some (s.supDue.sentFrame 0 s.supDue.supFrame).sys.up } } := by
    change execPrpSupervisionSend s = _
    rw [execPrpSupervisionSend, if_pos ⟨hopen, hmode⟩]
    rfl
  have hlast := fun q => lastTx_sentFrame_prp (s := s.supDue) (q := q)
  have hsent := State.sentFrame_prp (s := s.supDue)
  obtain ⟨_, _, _, _, _, hdue⟩ := s.supDue_waited
  rw [hdue] at hexec hlast hsent ⊢
  refine ⟨_, hexec, ?_, ?_, ?_, ?_, fun q hq => hlast q hmode _ hq⟩
  all_goals rw [hsent hmode]

/-- A path that is reported lost is absent (R592). -/
theorem State.path_pathLost (s : State) (p : Nat) : (s.pathLost p).net.path.getLsbD p = false := by
  unfold State.pathLost
  split
  · rw [(State.raiseIf_netRests _ _ _).net]
    exact (getLsbD_and_not_one_shiftLeft _ _ _).trans (by simp)
  · next h => simpa using h

theorem answers_prpPathTimeout {p : Fin 2} {t0 : Nat} {s : State} (hopen : s.open .net = true) (hmode : s.prpMode = true)
    (hlast : Sparse.get (fun _ => none) s.net.trailerAt p = some t0) :
    answers (.prpPathTimeout p) s fun t => t.net.path.getLsbD p = false := by
  change ∃ t, execPrpPathTimeout p s = .next t ∧ _
  simp only [execPrpPathTimeout, hlast, hopen, hmode, and_self, if_true]
  exact ⟨_, rfl, State.path_pathLost _ _⟩

/-- A second copy is discarded and counted. -/
theorem State.prpTake_second {s : State} (p : Nat) {mac : BitVec 48} {seq : BitVec 16} (slot : Option Nat)
    (h : (s.prpLive.any fun e => e.mac == mac && e.seq == seq) = true) :
    (s.prpTake p mac seq slot).1.isSome = true ∧
      (s.prpTake p mac seq slot).2 = State.bump { s with net := { s.net with prpSeen := s.prpLive } } Reg.NET_PRP_DUP := by
  rw [← List.isSome_find?, Option.isSome_iff_exists] at h
  obtain ⟨e, he⟩ := h
  simp [State.prpTake, he]

/-- A first copy is taken. -/
theorem State.prpTake_first {s : State} (p : Nat) {mac : BitVec 48} {seq : BitVec 16} (slot : Option Nat)
    (h : (s.prpLive.any fun e => e.mac == mac && e.seq == seq) = false) : (s.prpTake p mac seq slot).1 = none := by
  rw [← List.isSome_find?, Option.isSome_eq_false_iff, Option.isNone_iff_eq_none] at h
  simp [State.prpTake, h]

end Sys2Proof.Machine
end

section
/-! Orders (R612 to R618): what an order datagram that passes the checks, or fails one, makes of the mailbox, and how a message
enters it, runs out and leaves. -/

namespace Sys2Proof.Machine

open Sys2Proof.Safety

/-! ## The mailbox (R616) -/

/-- A message that enters the mailbox reaches nothing but its buffers and the events. -/
theorem State.ordEnter_spec (s : State) (m : OrdMsg) : (∃ f b, (s.ordEnter m).net = { s.net with front := f, back := b }) ∧
    regsBut s (s.ordEnter m) [Reg.NET_EVT] := by
  unfold State.ordEnter
  split
  · exact ⟨⟨_, _, rfl⟩, fun _ _ => rfl⟩
  · exact ⟨⟨_, _, State.setBitIf_net _ _ _ _⟩, State.setBitIf_regsBut { s with net := { s.net with back := some m } } _ _ _⟩

theorem State.ordEnter_empty (s : State) (m : OrdMsg) (h : s.net.front = none) :
    s.ordEnter m = { s with net := { s.net with front := some m } } := by
  simp [State.ordEnter, h]

/-! ## A message is accepted (R614, R616, R617) -/

/-- The state once a message is counted, its sequence number shown and its lifetime begun (R614). -/
def State.ordCounted (s : State) (d : List Byte) : State :=
  (State.bump { s with net := { s.net with
    lastSeq := some (ordOf d).seq, lifeTo := some (s.sys.up + ms (beAt d 0x14 2)), expired := false } }
    Reg.NET_ORD_CNT).wr Reg.NET_ORD_LAST (ordOf d).seq

theorem State.rdNat_ordCounted (s : State) (d : List Byte) :
    (s.ordCounted d).rdNat Reg.NET_ORD_CNT = satInc (s.rdNat Reg.NET_ORD_CNT) 0xFFFFFFFF := by
  rw [State.rdNat, State.ordCounted, State.rd_wr_other _ _ _ _ (by decide), ← State.rdNat, State.rdNat_bump]
  rfl

/-- A message that applies at once enters the mailbox. -/
theorem State.ordAccept_now (s : State) {d : List Byte} (h : beAt d 6 2 / 2 % 2 = 0) :
    s.ordAccept d = (s.ordCounted d).ordEnter (ordOf d) := by
  simp only [State.ordAccept, h]
  rfl

/-- Held or entered, an accepted message reaches nothing further but the mailbox and the events. -/
theorem State.ordAccept_spec (s : State) (d : List Byte) :
    (∃ f b x, (s.ordAccept d).net = { (s.ordCounted d).net with front := f, back := b, held := x }) ∧
      regsBut (s.ordCounted d) (s.ordAccept d) [Reg.NET_EVT] := by
  have henter : ∀ m, (∃ f b x, ((s.ordCounted d).ordEnter m).net =
      { (s.ordCounted d).net with front := f, back := b, held := x }) ∧
      regsBut (s.ordCounted d) ((s.ordCounted d).ordEnter m) [Reg.NET_EVT] := fun m => by
    obtain ⟨⟨f, b, hnet⟩, hregs⟩ := (s.ordCounted d).ordEnter_spec m
    exact ⟨⟨f, b, _, hnet⟩, hregs⟩
  by_cases hlate : beAt d 6 2 / 2 % 2 = 1
  · simp only [State.ordAccept, hlate, if_true]
    split
    · exact ⟨⟨_, _, _, State.setBitIf_net _ _ _ _⟩, State.setBitIf_regsBut { s.ordCounted d with
        net := { (s.ordCounted d).net with held := some (ordOf d, BitVec.ofNat 32 (beAt d 0x18 4)) } } _ _ _⟩
    · exact henter _
  · rw [s.ordAccept_now (by omega)]
    exact henter _

/-! ## A refusal (R612) -/

theorem State.ordCheck_le (s : State) (ip : BitVec 32) (d : List Byte) : s.ordCheck ip d ≤ 9 := by
  unfold State.ordCheck
  extract_lets auth seq age
  split_ifs <;> decide

/-- A refusal shows its code and its event, whether it raises FS213 or not, and leaves the rest of the network's state. -/
theorem State.ordRefuse_spec (s : State) {code : Nat} (h : code < 256) : (s.ordRefuse code).field Reg.NET_ORD_REF 0 8 = code ∧
    (s.ordRefuse code).bitOf Reg.NET_EVT 5 = true ∧ (s.ordRefuse code).net = s.net := by
  have href : netReg Reg.NET_ORD_REF := by unfold netReg; decide
  have hevt : netReg Reg.NET_EVT := by unfold netReg; decide
  unfold State.ordRefuse
  extract_lets s1
  have hcode : s1.field Reg.NET_ORD_REF 0 8 = code := by
    calc s1.field Reg.NET_ORD_REF 0 8
        = ((s.setField Reg.NET_ORD_REF 0 8 code).addField Reg.NET_ORD_REF 16 16 1).field Reg.NET_ORD_REF 0 8 :=
          State.field_congr (State.rd_setBit_other _ _ _ _ (by decide)) _ _
      _ = (s.setField Reg.NET_ORD_REF 0 8 code).field Reg.NET_ORD_REF 0 8 :=
          State.field_setField_other _ _ _ (by decide) (by decide)
      _ = code := (State.field_setField_same _ _ _ (by decide)).trans (Nat.mod_eq_of_lt h)
  have hbit : s1.bitOf Reg.NET_EVT 5 = true := State.bitOf_setBit_same _ _ (by decide)
  split
  · have hrests := (s1.setBit Reg.NET_EVT 6).raise_netRests 213
    refine ⟨?_, ?_, hrests.net⟩
    · rw [State.field_congr (hrests.rd _ href), State.field_congr (State.rd_setBit_other _ _ _ _ (by decide)), hcode]
    · rw [hrests.bitOf hevt, State.bitOf_setBit _ _ _ _ (by decide), hbit, Bool.true_or]
  · exact ⟨hcode, hbit, rfl⟩

/-! ## ORDER_MESSAGE (R589, R612 to R617) -/

section
variable {c : OrdCopy} {ip : BitVec 32} {d : List (BitVec 8)} {s : State}

theorem State.orderIn_accepted (h : s.ordCheck ip d = 0) : s.orderIn ip d = s.ordAccept d := by
  simp [State.orderIn, h]

theorem State.orderIn_refused (h0 : s.ordCheck ip d ≠ 0) (h6 : s.ordCheck ip d ≠ 6) :
    s.orderIn ip d = s.ordRefuse (s.ordCheck ip d) := by
  simp [State.orderIn, h0, h6]

variable (hopen : s.open .net = true) (hlink : s.net.link.getLsbD c.port = true)
include hopen hlink

theorem orderMessage_comes : ¬ (s.open .net = false ∨ s.net.link.getLsbD c.port = false) := by
  rw [hopen, hlink]
  decide

/-- Without PRP, or without a trailer, a datagram goes to the checks. -/
theorem exec_orderMessage_plain (h : s.prpMode = false ∨ c.tag = none) :
    exec (.orderMessage c ip d) s = .next (s.orderIn ip d) := by
  change execOrderMessage c ip d s = _
  rw [execOrderMessage, if_neg (orderMessage_comes hopen hlink)]
  split
  · next hmode htag => simp [hmode, htag] at h
  · rfl

/-- On a PRP pair a datagram on its own path passes duplicate discard first. -/
theorem exec_orderMessage_prp {mac : BitVec 48} {seq : BitVec 16} {lan : BitVec 4} (hmode : s.prpMode = true)
    (htag : c.tag = some (mac, seq, lan)) (hlan : lan.toNat = 0xA + c.port.val) : exec (.orderMessage c ip d) s = .next (
      if ((s.pathSeen c.port).prpTake c.port mac seq none).1.isSome then ((s.pathSeen c.port).prpTake c.port mac seq none).2
      else ((s.pathSeen c.port).prpTake c.port mac seq none).2.orderIn ip d) := by
  change execOrderMessage c ip d s = _
  rw [execOrderMessage, if_neg (orderMessage_comes hopen hlink), hmode, htag]
  dsimp only
  rw [if_neg (not_not.mpr hlan)]

theorem answers_orderMessage_accepted (hplain : s.prpMode = false ∨ c.tag = none) (hcheck : s.ordCheck ip d = 0) :
    answers (.orderMessage c ip d) s fun t => t.net.lastSeq = some (BitVec.ofNat 32 (beAt d 0x0C 4)) ∧
      t.net.lifeTo = some (s.sys.up + ms (beAt d 0x14 2)) ∧ t.net.expired = false ∧
      t.rd Reg.NET_ORD_LAST = BitVec.ofNat 32 (beAt d 0x0C 4) ∧
      t.rdNat Reg.NET_ORD_CNT = satInc (s.rdNat Reg.NET_ORD_CNT) 0xFFFFFFFF ∧
      (beAt d 6 2 / 2 % 2 = 0 → s.net.front = none → t.net.front = some (ordOf d)) := by
  obtain ⟨⟨f, b, x, hnet⟩, hregs⟩ := s.ordAccept_spec d
  refine ⟨s.ordAccept d, by rw [exec_orderMessage_plain hopen hlink hplain, State.orderIn_accepted hcheck], by rw [hnet]; rfl,
    by rw [hnet]; rfl, by rw [hnet]; rfl, ?_, ?_, fun hnow hfront => ?_⟩
  · exact (hregs _ (by decide)).trans (State.rd_wr_same _ _ _)
  · rw [State.rdNat, hregs _ (by decide), ← State.rdNat, State.rdNat_ordCounted]
  · rw [s.ordAccept_now hnow, State.ordEnter_empty (s.ordCounted d) _ hfront]

theorem answers_orderMessage_refused (hplain : s.prpMode = false ∨ c.tag = none) (h0 : s.ordCheck ip d ≠ 0)
    (h6 : s.ordCheck ip d ≠ 6) : answers (.orderMessage c ip d) s fun t =>
      t.field Reg.NET_ORD_REF 0 8 = s.ordCheck ip d ∧ t.bitOf Reg.NET_EVT 5 = true ∧ t.net = s.net :=
  ⟨_, by rw [exec_orderMessage_plain hopen hlink hplain, State.orderIn_refused h0 h6],
    s.ordRefuse_spec ((s.ordCheck_le ip d).trans_lt (by decide))⟩

theorem answers_orderMessage_second {mac : BitVec 48} {seq : BitVec 16} {lan : BitVec 4} (hmode : s.prpMode = true)
    (htag : c.tag = some (mac, seq, lan)) (hlan : lan.toNat = 0xA + c.port.val)
    (hcame : (s.prpLive.any fun e => e.mac == mac && e.seq == seq) = true) : answers (.orderMessage c ip d) s fun t =>
      t.net.lastSeq = s.net.lastSeq ∧ t.net.front = s.net.front ∧ t.net.back = s.net.back ∧ t.net.held = s.net.held ∧
      t.rdNat Reg.NET_PRP_DUP = satInc (s.rdNat Reg.NET_PRP_DUP) 0xFFFFFFFF ∧ regsBut s t [Reg.NET_PRP_DUP] := by
  obtain ⟨hsome, htake⟩ := State.prpTake_second (s := s.pathSeen c.port) c.port none hcame
  have hexec : exec (.orderMessage c ip d) s = .next (State.bump { s.pathSeen c.port with
      net := { (s.pathSeen c.port).net with prpSeen := (s.pathSeen c.port).prpLive } } Reg.NET_PRP_DUP) := by
    rw [exec_orderMessage_prp hopen hlink hmode htag hlan, if_pos hsome, htake]
  exact ⟨_, hexec, rfl, rfl, rfl, rfl, State.rdNat_bump _ _, fun a ha => State.rd_bump_other _ _ _ (by simpa using ha)⟩

theorem exec_orderMessage_first {mac : BitVec 48} {seq : BitVec 16} {lan : BitVec 4} (hmode : s.prpMode = true)
    (htag : c.tag = some (mac, seq, lan)) (hlan : lan.toNat = 0xA + c.port.val)
    (hcame : (s.prpLive.any fun e => e.mac == mac && e.seq == seq) = false) :
    exec (.orderMessage c ip d) s = .next (((s.pathSeen c.port).prpTake c.port mac seq none).2.orderIn ip d) := by
  have hnone := State.prpTake_first (s := s.pathSeen c.port) c.port none hcame
  rw [exec_orderMessage_prp hopen hlink hmode htag hlan, hnone, if_neg (by decide)]

end

/-! ## A message takes effect, runs out and is released (R614 to R618) -/

theorem answers_orderApply {m : OrdMsg} {a : BitVec 32} {s : State} (hheld : s.net.held = some (m, a))
    (hfront : s.net.front = none) :
    answers .orderApply s fun t => t.net.front = some m ∧ t.net.held = none ∧ t.regs = s.regs := by
  obtain ⟨_, _, _, _, _, hwait⟩ := s.toNt_waited a
  have hregs : (s.toNt a).regs = s.regs := by rw [hwait]
  have hempty : (s.toNt a).net.front = none := by rw [hwait, hfront]
  have hexec : exec .orderApply s =
      .next { s.toNt a with net := { (s.toNt a).net with held := none, front := some m } } := by
    change execOrderApply s = _
    simp only [execOrderApply, hheld]
    exact congrArg Host.Outcome.next (State.ordEnter_empty _ m hempty)
  exact ⟨_, hexec, rfl, rfl, hregs⟩

/-- The state once the tick is over in which the lifetime of a message runs out (R614, R615). -/
def State.lifeOver (s : State) (a : Nat) : State :=
  { s.elapse (a + 1 - s.sys.up) with net := { (s.elapse (a + 1 - s.sys.up)).net with lifeTo := none, expired := true } }

theorem exec_orderLifetimeExpiry {a : Nat} {s : State} (h : s.net.lifeTo = some a) :
    exec .orderLifetimeExpiry s = .next ((s.lifeOver a).raise 212) := by
  change execOrderLifetimeExpiry s = _
  simp only [execOrderLifetimeExpiry, h]
  rfl

theorem State.lifeOver_up (s : State) (a : Nat) : (s.lifeOver a).sys.up = max (a + 1) s.sys.up := by
  obtain ⟨hup, -⟩ := s.elapse_spec (a + 1 - s.sys.up)
  refine hup.trans ?_
  omega

end Sys2Proof.Machine
end

section
/-! Status messages (R621, R622): the one that is in time is queued on the launch rings that send status; launch times that have
passed are skipped. -/

namespace Sys2Proof.Machine

open Sys2Proof.Safety

/-- One port's share of a status message that the state `u` forms: it joins the port's launch ring (R621). -/
def State.statusTo (u : State) (launch : BitVec 32) (t : State) (p : Nat) : State :=
  if (u.netByte 0x4B).testBit p && u.ringCarries p 2 then
    t.setLaunch p (t.launchQ p ++ [LaunchItem.status launch (u.statusFrame p launch)])
  else t

/-- The launch rings once a status message is queued on those that send status. -/
def State.statusQueued (s : State) (launch : BitVec 32) : State := (List.range 2).foldl (s.statusTo launch) s

theorem State.statusTo_rest (u : State) (launch : BitVec 32) (t : State) (p : Nat) :
    ∃ l, u.statusTo launch t p = { t with net := { t.net with launch := l } } := by
  unfold State.statusTo
  split <;> exact ⟨_, rfl⟩

theorem State.statusQueued_rest (s : State) (launch : BitVec 32) :
    ∃ l, s.statusQueued launch = { s with net := { s.net with launch := l } } := by
  obtain ⟨l, hl⟩ := s.statusTo_rest launch s 0
  obtain ⟨m, hm⟩ := s.statusTo_rest launch (s.statusTo launch s 0) 1
  refine ⟨m, ?_⟩
  change s.statusTo launch (s.statusTo launch s 0) 1 = _
  rw [hm, hl]

theorem State.launchQ_statusTo_other (u : State) (launch : BitVec 32) (t : State) {p q : Nat} (h : q ≠ p) :
    (u.statusTo launch t p).launchQ q = t.launchQ q := by
  unfold State.statusTo
  split
  · exact State.launchQ_setLaunch_other _ _ _ _ h
  · rfl

theorem State.launchQ_statusTo_same {u : State} (launch : BitVec 32) (t : State) {p : Nat}
    (hflag : (u.netByte 0x4B).testBit p = true) (hcarry : u.ringCarries p 2 = true) :
    (u.statusTo launch t p).launchQ p = t.launchQ p ++ [.status launch (u.statusFrame p launch)] := by
  rw [State.statusTo, hflag, hcarry]
  exact State.launchQ_setLaunch_same _ _ _

theorem State.launchQ_statusQueued {s : State} (launch : BitVec 32) {p : Nat} (hp : p < 2)
    (hflag : (s.netByte 0x4B).testBit p = true) (hcarry : s.ringCarries p 2 = true) :
    (s.statusQueued launch).launchQ p = s.launchQ p ++ [.status launch (s.statusFrame p launch)] := by
  change (s.statusTo launch (s.statusTo launch s 0) 1).launchQ p = _
  obtain rfl | rfl : p = 0 ∨ p = 1 := by omega
  · rw [State.launchQ_statusTo_other _ _ _ (by decide), State.launchQ_statusTo_same _ _ hflag hcarry]
  · rw [State.launchQ_statusTo_same _ _ hflag hcarry, State.launchQ_statusTo_other _ _ _ (by decide)]

/-- The state in which a status message is queued, and the next has the launch time after it. -/
def State.statusSet (s : State) (launch : BitVec 32) : State :=
  { s.statusQueued launch with net := { (s.statusQueued launch).net with
    statSeq := (s.statusQueued launch).net.statSeq + 1
    statNext := launch + BitVec.ofNat 32 (125 * (s.statusQueued launch).statPer) } }

theorem State.statusSet_spec (s : State) (launch : BitVec 32) : (s.statusSet launch).net.statSeq = s.net.statSeq + 1 ∧
    (s.statusSet launch).net.statNext = launch + BitVec.ofNat 32 (125 * s.statPer) ∧ (s.statusSet launch).regs = s.regs := by
  obtain ⟨l, h⟩ := s.statusQueued_rest launch
  rw [State.statusSet, h]
  exact ⟨rfl, rfl, rfl⟩

/-! ## STATUS_BUILD -/

/-- The time by which a status message is built before its launch, in counts of NT (R621). -/
def State.statLead (s : State) : BitVec 32 := BitVec.ofNat 32 (125 * s.netField 0x48 2)

/-- The state once the next status message is due to be built (R621). -/
def State.statDue (s : State) : State := s.toNt (s.net.statNext - s.statLead)

/-- The first launch time that has not passed (R622). -/
def State.statFirst (s : State) : BitVec 32 := s.net.statNext + BitVec.ofNat 32 (s.statSkips * 125 * s.statPer)

/-- The state once the launch times that have passed are counted (R622). -/
def State.statSkipped (s : State) : State :=
  if 0 < s.statSkips then ((s.addField Reg.NET_STAT_CNT 0 16 s.statSkips).setBit Reg.NET_EVT 4).raise 214 else s

theorem State.statSkipped_net (s : State) : s.statSkipped.net = s.net := by
  unfold State.statSkipped
  split
  · exact (State.raise_netRests _ _).net
  · rfl

theorem State.statDue_waited (s : State) : s.Waited s.statDue := s.toNt_waited _

theorem State.statDue_fields (s : State) : s.statDue.net.statNext = s.net.statNext ∧ s.statDue.net.statSeq = s.net.statSeq ∧
    s.statDue.net.launch = s.net.launch ∧ s.statDue.statPer = s.statPer ∧ s.statDue.regs = s.regs := by
  obtain ⟨_, _, _, _, _, h⟩ := s.statDue_waited
  rw [h]
  exact ⟨rfl, rfl, rfl, rfl, rfl⟩

section
variable {s : State} (hopen : s.open .net = true) (hper : s.statPer ≠ 0)
include hopen hper

theorem exec_statusBuild : exec .statusBuild s =
    if 0 < s.statDue.statSkips ∧ 0 < timeDiff (s.statDue.statFirst - s.statLead) s.statDue.statSkipped.ntLow then
      .next { s.statDue.statSkipped with net := { s.statDue.statSkipped.net with statNext := s.statDue.statFirst } }
    else .next (s.statDue.statSkipped.statusSet s.statDue.statFirst) := by
  change execStatusBuild s = _
  rw [execStatusBuild, if_neg (by simp [hopen, hper])]
  rfl

theorem answers_statusBuild_inTime (hskip : s.statDue.statSkips = 0) : answers .statusBuild s fun t =>
    t.net.statSeq = s.net.statSeq + 1 ∧ t.net.statNext = s.net.statNext + BitVec.ofNat 32 (125 * s.statPer) ∧
      t.regs = s.regs ∧ ∀ p, p < 2 → (s.netByte 0x4B).testBit p = true → s.ringCarries p 2 = true →
        t.launchQ p = s.launchQ p ++ [.status s.net.statNext (s.statusFrame p s.net.statNext)] := by
  obtain ⟨hnext, hseq, -, hstatPer, hregs⟩ := s.statDue_fields
  have hskipped : s.statDue.statSkipped = s.statDue := if_neg (by omega)
  have hfirst : s.statDue.statFirst = s.net.statNext := by simp [State.statFirst, hskip, hnext]
  have hexec : exec .statusBuild s = .next (s.statDue.statusSet s.net.statNext) := by
    rw [exec_statusBuild hopen hper, if_neg (by simp [hskip]), hskipped, hfirst]
  obtain ⟨htseq, htnext, htregs⟩ := s.statDue.statusSet_spec s.net.statNext
  refine ⟨_, hexec, htseq.trans (congrArg (· + 1) hseq), by rw [htnext, hstatPer], htregs.trans hregs,
    fun p hp hflag hcarry => ?_⟩
  obtain ⟨_, _, _, _, _, hwait⟩ := s.statDue_waited
  rw [hwait]
  exact State.launchQ_statusQueued s.net.statNext hp hflag hcarry

theorem answers_statusBuild_skips (hskip : 0 < s.statDue.statSkips)
    (hlater : 0 < timeDiff (s.statDue.statFirst - s.statLead) s.statDue.ntLow) : answers .statusBuild s fun t =>
      t.net.statNext = s.statDue.statFirst ∧ t.net.statSeq = s.net.statSeq ∧ t.net.launch = s.net.launch := by
  obtain ⟨-, hseq, hlaunch, -⟩ := s.statDue_fields
  have hnet := s.statDue.statSkipped_net
  have hexec := exec_statusBuild hopen hper
  rw [if_pos ⟨hskip, by rwa [State.ntLow, hnet]⟩] at hexec
  exact ⟨_, hexec, rfl, by rw [← hseq, ← hnet], by rw [← hlaunch, ← hnet]⟩

end

end Sys2Proof.Machine

namespace Sys2Proof.Network

open Sys2Proof.Machine Sys2Proof.Safety

/-- Settles O51, clause by clause: each command's rule, and that an event in the collector leaves the network as it was. -/
theorem networkLinksFramesAndOrders : Obligations.NetworkLinksFramesAndOrders := by
  refine ⟨fun p s hopen => ⟨fun hlink hmode => ?_, answers_linkUp hopen⟩,
    fun p f s hopen hlink hmin hmax hmode horder => ?_,
    fun p t0 s hopen hmode => ⟨?_, answers_prpPathTimeout hopen hmode⟩,
    fun c ip d s hopen hlink hplain => ⟨answers_orderMessage_accepted hopen hlink hplain,
      answers_orderMessage_refused hopen hlink hplain⟩,
    fun c ip d mac seq lan s hopen hlink hmode htag hlan => ⟨answers_orderMessage_second hopen hlink hmode htag hlan,
      exec_orderMessage_first hopen hlink hmode htag hlan⟩,
    fun m a s => answers_orderApply,
    fun a s hlife => ?_,
    fun s hopen => ⟨answers_of_via rfl hopen ⟨rfl, rfl⟩, answers_statusBuild_inTime hopen, ?_⟩⟩
  · obtain ⟨hgone, hevt, hregs, hothers⟩ := s.linkLost_spec p
    exact ⟨s.linkLost p, hgone, hevt, hregs, fun q _ hq => hothers q hq, exec_linkDown hopen hlink hmode⟩
  · obtain ⟨ts, onB, hexec⟩ := exec_frameReceive_plain hopen hlink hmin hmax hmode horder
    exact ⟨fun hnone => by rw [hexec, State.ringDeliver_none _ _ _ hnone],
      fun i d hhead => ⟨_, hexec, State.ringDeliver_spec _ _ _ hhead⟩⟩
  · rintro s1 rfl
    exact answers_prpSupervisionSend hopen hmode
  · exact ⟨s.lifeOver a, rfl, rfl, s.elapse_regs _, s.lifeOver_up a, exec_orderLifetimeExpiry hlife⟩
  · rintro s1 lead next rfl rfl hper hskip rfl hlater
    obtain ⟨hnext, -, -, hstatPer, -⟩ := s.statDue_fields
    have hfirst : s.statDue.statFirst =
        s.net.statNext + BitVec.ofNat 32 (s.statDue.statSkips * 125 * s.statPer) := by
      rw [State.statFirst, hnext, hstatPer]
    have hskips := answers_statusBuild_skips hopen hper hskip (by rw [hfirst]; exact hlater)
    rw [hfirst] at hskips
    exact hskips

end Sys2Proof.Network
end

section
/-! Network time (R593 to R598) and what is read of the network (R584, R601): ADJ, steps, the servo, the latches, diagnostics and
transmit timestamps. -/

namespace Sys2Proof.Machine

open Sys2Proof.Safety

/-! ## ADJ and steps (R593, R594) -/

theorem State.ntAdj_spec (s : State) (v : Word) :
    (s.ntAdj v).rd Reg.NET_NT_ADJ = BitVec.ofInt 32 (max (-4294967) (min 4294967 v.toInt)) ∧
      ((v.toInt < -4294967 ∨ 4294967 < v.toInt) → (s.ntAdj v).bitOf Reg.NET_EVT 2 = true) ∧
      regsBut s (s.ntAdj v) [Reg.NET_NT_ADJ, Reg.NET_EVT] ∧ (s.ntAdj v).net = s.net.marked (s.rd Reg.NET_NT_ADJ) ∧
      { s.ntAdj v with net := s.net, regs := s.regs, setAt := s.setAt } = s := by
  unfold State.ntAdj
  extract_lets x y s1
  have hevt := State.setBitIf_regsBut (s1.wr Reg.NET_NT_ADJ (BitVec.ofInt 32 y)) (decide (x ≠ y)) Reg.NET_EVT 2
  refine ⟨(hevt _ (by decide)).trans (State.rd_wr_same _ _ _), fun hout => ?_, fun a ha => ?_, State.setBitIf_net _ _ _ _, ?_⟩
  · have hne : x ≠ y := by omega
    rw [decide_eq_true hne]
    exact State.bitOf_setBit_same _ _ (by decide)
  · simp only [List.mem_cons, List.not_mem_nil, or_false, not_or] at ha
    exact (hevt a (by simpa using ha.2)).trans (State.rd_wr_other _ _ _ _ ha.1)
  · exact congrArg (fun t : State => { t with net := s.net, regs := s.regs, setAt := s.setAt })
      (State.setBitIf_rest (s1.wr Reg.NET_NT_ADJ (BitVec.ofInt 32 y)) (decide (x ≠ y)) Reg.NET_EVT 2)

/-- Everything that a step does to the network: NT moves by the signed value, its course before is kept, and the lock is lost. -/
theorem State.ntStepBy_net (s : State) (hi : Word) : (s.ntStepBy hi).net = { s.net.marked (s.rd Reg.NET_NT_ADJ) with
    nt := s.net.nt + ((hi ++ s.rd Reg.NET_NT_STEP_LO).setWidth 96 <<< 32), locked := false, inBand := 0 } := by
  rw [State.ntStepBy, (State.ntUnlock_spec _).1]
  rfl

theorem State.bitOf_with_net (s : State) (x : Net) (a i : Nat) : State.bitOf { s with net := x } a i = s.bitOf a i := rfl

theorem State.bitOf_ntStepBy (s : State) (hi : Word) : (s.ntStepBy hi).bitOf Reg.NET_EVT 3 = true := by
  rw [State.ntStepBy]
  refine (State.ntUnlock_spec _).2 3 (by decide) ((State.bitOf_with_net _ _ _ _).trans ?_)
  exact State.bitOf_setBit_same _ _ (by decide)

/-! ## The servo (R597) -/

theorem State.ntOffset_inBand {s : State} {v : Word} (h : v.toInt.natAbs ≤ s.netField 0x58 4) :
    (s.ntOffset v).net.inBand = satInc s.net.inBand 255 ∧
      (s.netByte 0x5C ≤ satInc s.net.inBand 255 → (s.ntOffset v).net.locked = true) ∧
      (s.ntOffset v).rd Reg.NET_NT_OFFSET = v ∧ (s.ntOffset v).net.servoAt = some s.sys.up ∧
      regsBut s (s.ntOffset v) [Reg.NET_NT_OFFSET] := by
  rw [State.ntOffset, if_pos h]
  refine ⟨rfl, fun hn => ?_, State.rd_wr_same _ _ _, rfl, fun a ha => State.rd_wr_other _ _ _ _ (by simpa using ha)⟩
  exact Bool.or_eq_true_iff.mpr (.inr (decide_eq_true hn))

theorem State.ntOffset_outOfBand {s : State} {v : Word} (h : s.netField 0x58 4 < v.toInt.natAbs) :
    (s.ntOffset v).net.inBand = 0 ∧ (s.ntOffset v).net.locked = false := by
  rw [State.ntOffset, if_neg (Nat.not_le.mpr h), (State.ntUnlock_spec _).1]
  exact ⟨rfl, rfl⟩

theorem answers_servoUpdateTimeout {a : Nat} {s : State} (hopen : s.open .net = true) (hservo : s.net.servoAt = some a) :
    answers .servoUpdateTimeout s fun t => t.net.locked = false ∧ t.net.inBand = 0 ∧ t.net.servoAt = none := by
  change ∃ t, execServoUpdateTimeout s = .next t ∧ _
  simp only [execServoUpdateTimeout, hservo, hopen, if_true]
  refine ⟨_, rfl, ?_⟩
  rw [(State.ntUnlock_spec _).1]
  exact ⟨rfl, rfl, rfl⟩

/-! ## The latches (R595, R596) -/

theorem State.netLatchNow_spec (s : State) : s.netLatchNow.rd Reg.NET_LATCH_NT_LO = s.net.count.setWidth 32 ∧
    s.netLatchNow.rd Reg.NET_LATCH_VT_LO = s.now.setWidth 32 ∧
    onlyRegs s s.netLatchNow [Reg.NET_LATCH_NT_LO, Reg.NET_LATCH_NT_HI, Reg.NET_LATCH_VT_LO, Reg.NET_LATCH_VT_HI] := by
  refine ⟨?_, ?_, ?_⟩
  · rw [State.netLatchNow, State.rd_wr_other _ _ _ _ (by decide), State.rd_wr_other _ _ _ _ (by decide),
      State.rd_wr_other _ _ _ _ (by decide), State.rd_wr_same]
  · rw [State.netLatchNow, State.rd_wr_other _ _ _ _ (by decide), State.rd_wr_same]
  · exact onlyRegs_trans (onlyRegs_trans (onlyRegs_trans (s.wr_onlyRegs _ _) (State.wr_onlyRegs _ _ _))
      (State.wr_onlyRegs _ _ _)) (State.wr_onlyRegs _ _ _)

theorem answers_netNtLoRead {s : State} (hopen : s.open .net = true) :
    answers .netNtLoRead s fun t => t.bus.data = s.net.count.setWidth 32 ∧
      t.rd Reg.NET_NT_HI = BitVec.ofNat 32 (s.net.count.toNat / 2 ^ 32) ∧ regsBut s t [Reg.NET_NT_HI] := by
  change ∃ t, execNetNtLoRead s = .next t ∧ _
  rw [execNetNtLoRead, if_pos hopen]
  exact ⟨_, rfl, rfl, State.rd_wr_same _ _ _, fun a ha => State.rd_wr_other _ _ _ _ (by simpa using ha)⟩

/-! ## Diagnostics and transmit timestamps (R584, R601) -/

/-- Two halves make a word. -/
theorem ofNat_halves (hi lo : BitVec 16) : BitVec.ofNat 32 (hi.toNat * 65536 + lo.toNat) = hi ++ lo := by
  apply BitVec.eq_of_toNat_eq
  have hlo : lo.toNat < 2 ^ 16 := lo.isLt
  rw [BitVec.toNat_append, Nat.shiftLeft_eq, Nat.mul_comm hi.toNat, ← Nat.two_pow_add_eq_or_of_lt hlo, BitVec.toNat_ofNat]
  omega

section
variable {p : Fin 2} {s : State} (hopen : s.open .net = true)
include hopen

theorem answers_sfpDiagRead {rx tx : BitVec 16} : answers (.sfpDiagRead p rx tx) s fun t =>
    t.rd (Reg.NET_SFP p) = rx ++ tx ∧ onlyRegs s t [Reg.NET_SFP p] :=
  answers_of_via (f := fun t => t.wr (Reg.NET_SFP p) (BitVec.ofNat 32 (rx.toNat * 65536 + tx.toNat))) rfl hopen
    ⟨(State.rd_wr_same _ _ _).trans (ofNat_halves rx tx), s.wr_onlyRegs _ _⟩

theorem answers_txtsPop_none (h : Sparse.get (fun _ => []) s.net.txts p = []) :
    answers (.txtsPop p) s fun t => t.bus.data = 0 ∧ t.regs = s.regs := by
  change ∃ t, execTxtsPop p s = .next t ∧ _
  rw [execTxtsPop, if_pos hopen, h]
  exact ⟨_, rfl, rfl, rfl⟩

theorem answers_txtsPop {e : BitVec 4 × BitVec 16 × BitVec 32} {r : List (BitVec 4 × BitVec 16 × BitVec 32)}
    (h : Sparse.get (fun _ => []) s.net.txts p = e :: r) : answers (.txtsPop p) s fun t =>
      t.bus.data = bitIf true 31 ||| putField e.1.toNat 16 ||| BitVec.ofNat 32 e.2.1.toNat ∧
      t.rd (Reg.NET_TXTS_NT p) = e.2.2 ∧ Sparse.get (fun _ => []) t.net.txts p = r ∧ regsBut s t [Reg.NET_TXTS_NT p] := by
  change ∃ t, execTxtsPop p s = .next t ∧ _
  rw [execTxtsPop, if_pos hopen, h]
  exact ⟨_, rfl, rfl, State.rd_wr_same _ _ _, Sparse.get_put_same _ _ _ _,
    fun a ha => State.rd_wr_other _ _ _ _ (by simpa using ha)⟩

end

end Sys2Proof.Machine
end

section
/-! Transmission (R603 to R608, R621): the tails of the rings, GUARD, the launch rings, and the end of a status message's frame. -/

namespace Sys2Proof.Machine

open Sys2Proof.Safety

/-! ## Ring 1 on an idle port (R604, R607) -/

/-- A start on a port reaches nothing but its frame of ring 1. -/
theorem State.txStart_rest (s : State) (p : Nat) : ∃ x, s.txStart p = { s with net := { s.net with ring1 := x } } := by
  unfold State.txStart
  split
  · split <;> exact ⟨_, rfl⟩
  · exact ⟨_, rfl⟩

theorem State.idle_of_txEnds_none {s : State} {p : Nat} (h : s.txEnds p = none) : s.sendingOn p = none ∧ s.ring1On p = none := by
  unfold State.txEnds at h
  split at h
  · cases h
  · cases h
  · next hsend hring => exact ⟨hsend, hring⟩

theorem State.ring1On_txStart {s : State} {p i : Nat} {d : Desc} (hidle : s.txEnds p = none)
    (hhead : s.headDesc p 1 = some (i, d)) :
    (s.txStart p).ring1On p = if s.guardOk p d.len s.net.count then some (i, s.net.count + 8) else none := by
  obtain ⟨hsend, hring⟩ := State.idle_of_txEnds_none hidle
  simp only [State.txStart, hsend, hring, hhead]
  split
  · exact State.ring1On_setRing1_same _ _ _
  · exact hring

/-- With GUARD = 1 a frame may start when it ends, with its gap, before LAUNCH of the head of the launch ring. -/
theorem State.guardOk_iff {s : State} {p : Nat} {x : LaunchItem} {rest : List LaunchItem} (len : Nat) (nt : BitVec 64)
    (hp : p < 2) (hq : s.launchQ p = x :: rest) (hguard : s.bitOf (Reg.NET_PORT_CTL p) 1 = true) :
    s.guardOk p len nt = true ↔
      0 < timeDiff (s.launchOf p x) ((nt + BitVec.ofNat 64 (s.wireLen p len + 24)).setWidth 32) := by
  simp [State.guardOk, hp, hguard, hq]

/-! ## The tail of a ring (R604, R605, R607) -/

section
variable (s : State) (p r : Nat)

/-- The other registers of the rings, and the ports' control, are not the pointers of a ring. -/
theorem ne_NET_RING_PTR : Reg.NET_RING_SIZE p r ≠ Reg.NET_RING_PTR p r ∧ Reg.NET_RING_BASE_LO p 2 ≠ Reg.NET_RING_PTR p r ∧
    Reg.NET_RING_BASE_HI p 2 ≠ Reg.NET_RING_PTR p r ∧ (p < 2 → Reg.NET_PORT_CTL p ≠ Reg.NET_RING_PTR p r) := by
  unfold Reg.NET_RING_SIZE Reg.NET_RING_BASE_LO Reg.NET_RING_BASE_HI Reg.NET_PORT_CTL Reg.NET_RING_PTR
  omega

/-- The state once the tail of a ring has moved. -/
def State.tailMoved (tail : Nat) : State := s.setField (Reg.NET_RING_PTR p r) 0 10 tail

theorem State.rd_tailMoved_other (tail : Nat) {a : Nat} (h : a ≠ Reg.NET_RING_PTR p r) : (s.tailMoved p r tail).rd a = s.rd a :=
  State.rd_setField_other _ _ _ _ _ _ h

/-- Where the launch ring's descriptors lie does not hang on a tail. -/
theorem State.launchOf_tailMoved (tail : Nat) (x : LaunchItem) : (s.tailMoved p r tail).launchOf p x = s.launchOf p x := by
  obtain ⟨-, hlo, hhi, -⟩ := ne_NET_RING_PTR p r
  cases x with
  | desc i =>
    have hat : (s.tailMoved p r tail).descAt p 2 i = s.descAt p 2 i := by
      rw [State.descAt, State.rdNat, s.rd_tailMoved_other p r _ hlo, State.field_congr (s.rd_tailMoved_other p r _ hhi)]
      rfl
    simp only [State.launchOf, State.desc, hat]
    rfl
  | status l b => rfl

theorem State.guardOk_tailMoved (tail len : Nat) (nt : BitVec 64) :
    (s.tailMoved p r tail).guardOk p len nt = s.guardOk p len nt := by
  obtain ⟨-, -, -, hctl⟩ := ne_NET_RING_PTR p r
  have hbit : (decide (p < 2) && (s.tailMoved p r tail).bitOf (Reg.NET_PORT_CTL p) 1) =
      (decide (p < 2) && s.bitOf (Reg.NET_PORT_CTL p) 1) := by
    by_cases hp : p < 2
    · rw [State.bitOf_congr (s.rd_tailMoved_other p r _ (hctl hp))]
    · simp [hp]
  have hlaunch := s.launchOf_tailMoved p r tail
  have hq : (s.tailMoved p r tail).launchQ p = s.launchQ p := rfl
  have hlen : (s.tailMoved p r tail).wireLen p len = s.wireLen p len := rfl
  simp only [State.guardOk, hbit, hlaunch, hq, hlen]

/-- Of a tail written the pointer shows, and the head stays. -/
theorem State.tailMoved_spec (tail : BitVec 10) : (s.tailMoved p r tail.toNat).ringTail p r = tail.toNat ∧
    (s.tailMoved p r tail.toNat).ringHead p r = s.ringHead p r ∧
    regsBut s (s.tailMoved p r tail.toNat) [Reg.NET_RING_PTR p r] :=
  ⟨(State.field_setField_same _ _ _ (by decide)).trans (Nat.mod_eq_of_lt tail.isLt),
    State.field_setField_other _ _ _ (by decide) (by decide), fun _ ha => s.rd_tailMoved_other p r _ (by simpa using ha)⟩

theorem State.ringTailWrite_eq (tail : Nat) : s.ringTailWrite p r tail =
    if r = 2 ∧ p < 2 ∧ s.ringCarries p 2 then (s.tailMoved p r tail).setLaunch p
      (s.launchQ p ++ (ringSpan 1024 (s.ringTail p r) tail ((s.tailMoved p r tail).ringSize p r)).map .desc)
    else if r = 1 then (s.tailMoved p r tail).txStart p else s.tailMoved p r tail := rfl

/-- A tail written reaches nothing further but the network's typed state. -/
theorem State.ringTailWrite_rest (tail : Nat) : ∃ x, s.ringTailWrite p r tail = { s.tailMoved p r tail with net := x } := by
  rw [s.ringTailWrite_eq]
  split
  · exact ⟨_, rfl⟩
  · split
    · obtain ⟨x, h⟩ := (s.tailMoved p r tail).txStart_rest p
      exact ⟨_, h⟩
    · exact ⟨_, rfl⟩

/-- On a launch ring that carries traffic the new descriptors are queued. -/
theorem State.launchQ_ringTailWrite (tail : Nat) (hp : p < 2) (hcarry : s.ringCarries p 2 = true) :
    (s.ringTailWrite p 2 tail).launchQ p =
      s.launchQ p ++ (ringSpan 1024 (s.ringTail p 2) tail (s.ringSize p 2)).map .desc := by
  obtain ⟨hsize, -⟩ := ne_NET_RING_PTR p 2
  have hkept : (s.tailMoved p 2 tail).ringSize p 2 = s.ringSize p 2 := State.field_congr (s.rd_tailMoved_other p 2 _ hsize) _ _
  rw [s.ringTailWrite_eq, if_pos ⟨rfl, hp, hcarry⟩, hkept]
  exact State.launchQ_setLaunch_same _ _ _

/-- A receive ring, and a launch ring that carries no traffic, take a tail alone. -/
theorem State.ringTailWrite_rests (tail : Nat) (h : r = 0 ∨ (r = 2 ∧ s.ringCarries p 2 = false)) :
    (s.ringTailWrite p r tail).net = s.net := by
  have hrest : s.ringTailWrite p r tail = s.tailMoved p r tail := by
    rw [s.ringTailWrite_eq, if_neg, if_neg]
    · omega
    · rcases h with rfl | ⟨rfl, hcarry⟩
      · omega
      · simp [hcarry]
  rw [hrest]
  rfl

theorem State.ringTailWrite_one (tail : Nat) : s.ringTailWrite p 1 tail = (s.tailMoved p 1 tail).txStart p := by
  rw [s.ringTailWrite_eq, if_neg (by omega), if_pos rfl]

theorem State.ringTailWrite_one_net (tail : Nat) :
    (s.ringTailWrite p 1 tail).net = { s.net with ring1 := (s.ringTailWrite p 1 tail).net.ring1 } := by
  obtain ⟨x, h⟩ := (s.tailMoved p 1 tail).txStart_rest p
  rw [s.ringTailWrite_one, h]
  rfl

theorem State.ring1On_ringTailWrite (tail : Nat) (hidle : s.txEnds p = none) {i : Nat} {d : Desc}
    (hhead : (s.tailMoved p 1 tail).headDesc p 1 = some (i, d)) : (s.ringTailWrite p 1 tail).ring1On p =
      if s.guardOk p d.len s.net.count then some (i, s.net.count + 8) else none := by
  have hidle1 : (s.tailMoved p 1 tail).txEnds p = none := by
    obtain ⟨hsend, hring⟩ := State.idle_of_txEnds_none hidle
    have hsend1 : (s.tailMoved p 1 tail).sendingOn p = none := hsend
    have hring1 : (s.tailMoved p 1 tail).ring1On p = none := hring
    simp [State.txEnds, hsend1, hring1]
  rw [s.ringTailWrite_one, State.ring1On_txStart hidle1 hhead, s.guardOk_tailMoved]
  rfl

end

/-! ## LAUNCH_FRAME_SEND (R604 to R607) -/

theorem State.launchTurn_idle {s : State} {p : Nat} {x : LaunchItem} (h : (s.toNt (s.launchOf p x)).txEnds p = none) :
    s.launchTurn p x = s.toNt (s.launchOf p x) := by
  simp [State.launchTurn, h]

/-- The state once the head of a launch ring is in transmission. -/
def State.launched (s : State) (p : Nat) (x : LaunchItem) (rest : List LaunchItem) : State :=
  { s.setLaunch p rest with net := { (s.setLaunch p rest).net with
    sending := Sparse.put (fun _ => none) (s.setLaunch p rest).net.sending p (some (x, s.net.count)) } }

theorem State.launchQ_launched (s : State) (p : Nat) (x : LaunchItem) (rest : List LaunchItem) :
    (s.launched p x rest).launchQ p = rest := State.launchQ_setLaunch_same s p rest

theorem State.sendingOn_launched (s : State) (p : Nat) (x : LaunchItem) (rest : List LaunchItem) :
    (s.launched p x rest).sendingOn p = some (x, s.net.count) :=
  Sparse.get_put_same (fun _ => none) s.net.sending p (some (x, s.net.count))

theorem State.launched_rest (s : State) (p : Nat) (x : LaunchItem) (rest : List LaunchItem) :
    (s.launched p x rest).regs = s.regs ∧ (s.launched p x rest).ram = s.ram := ⟨rfl, rfl⟩

/-- A head in time is in transmission. -/
theorem State.launchHead_inTime {s : State} {p : Nat} {x : LaunchItem} (rest : List LaunchItem)
    (htime : timeDiff (s.launchTurn p x).ntLow ((s.launchTurn p x).launchOf p x) ≤
      (s.launchTurn p x).field (Reg.NET_LATE_WIN p) 0 16) :
    s.launchHead p x rest = (s.launchTurn p x).launched p x rest := by
  rw [State.launchHead, if_neg (not_lt.mpr htime)]
  rfl

section
variable {p : Fin 2} {x : LaunchItem} {rest : List LaunchItem} {s : State} (hopen : s.open .net = true)
  (hq : s.launchQ p = x :: rest) (hmay : s.launchMay p x = true)
include hopen hq hmay

theorem exec_launchFrameSend : exec (.launchFrameSend p) s = .next (s.launchHead p x rest) := by
  change execLaunchFrameSend p s = _
  rw [execLaunchFrameSend, if_neg (by simp [hopen]), hq]
  simp only [hmay, if_true]

theorem answers_launchFrameSend (hregs : (s.launchTurn p x).regs = s.regs)
    (htime : timeDiff (s.launchTurn p x).ntLow ((s.launchTurn p x).launchOf p x) ≤
      (s.launchTurn p x).field (Reg.NET_LATE_WIN p) 0 16) : answers (.launchFrameSend p) s fun t => t.launchQ p = rest ∧
      Sparse.get (fun _ => none) t.net.sending p = some (x, (s.launchTurn p x).net.count) ∧ t.regs = s.regs ∧
      t.ram = (s.launchTurn p x).ram := by
  refine ⟨_, exec_launchFrameSend hopen hq hmay, ?_⟩
  obtain ⟨hlregs, hlram⟩ := (s.launchTurn p x).launched_rest p x rest
  rw [State.launchHead_inTime rest htime]
  exact ⟨State.launchQ_launched _ _ _ _, State.sendingOn_launched _ _ _ _, hlregs.trans hregs, hlram⟩

end

/-- The state once a head that came up late is dropped and counted, before FS214 is raised (R606). -/
def State.lateDropped (s : State) (p : Nat) (rest : List LaunchItem) : State :=
  ((s.setLaunch p rest).bump Reg.NET_LATE_CNT).setBit Reg.NET_EVT 4

theorem State.launchQ_lateDropped (s : State) (p : Nat) (rest : List LaunchItem) : (s.lateDropped p rest).launchQ p = rest :=
  State.launchQ_setLaunch_same s p rest

theorem State.rdNat_lateDropped (s : State) (p : Nat) (rest : List LaunchItem) :
    (s.lateDropped p rest).rdNat Reg.NET_LATE_CNT = satInc (s.rdNat Reg.NET_LATE_CNT) 0xFFFFFFFF := by
  rw [State.rdNat, State.lateDropped, State.rd_setBit_other _ _ _ _ (by decide), ← State.rdNat, State.rdNat_bump]
  rfl

/-- A status message that comes up late is dropped. -/
theorem State.launchHead_late {s : State} {p : Nat} {l : BitVec 32} {b : List (BitVec 8)} (rest : List LaunchItem)
    (hlate : (s.launchTurn p (.status l b)).field (Reg.NET_LATE_WIN p) 0 16 <
      timeDiff (s.launchTurn p (.status l b)).ntLow ((s.launchTurn p (.status l b)).launchOf p (.status l b))) :
    s.launchHead p (.status l b) rest = (((s.launchTurn p (.status l b)).lateDropped p rest).raise 214).txStart p := by
  rw [State.launchHead, if_pos hlate]
  rfl

/-! ## FRAME_TRANSMIT_DONE of a status message (R588, R621) -/

/-- A frame that has left reaches nothing but what the ports have sent. -/
theorem State.sentFrame_rest (s : State) (p : Nat) (f : List Byte) :
    ∃ n x, s.sentFrame p f = { s with net := { s.net with prpSeq := n, lastTx := x } } := by
  unfold State.sentFrame
  dsimp only
  split <;> exact ⟨_, _, rfl⟩

/-- A port has sent the frame, on NET A of a PRP pair with its trailer. -/
theorem lastTx_sentFrame (s : State) (p : Nat) (f : List Byte) : Sparse.get (fun _ => []) (s.sentFrame p f).net.lastTx p =
    if s.prpMode ∧ p = 0 then withTrailer f (s.net.prpSeq + 1) 0 else f := by
  by_cases h : s.prpMode = true ∧ p = 0
  · obtain ⟨hmode, rfl⟩ := h
    rw [lastTx_sentFrame_prp hmode f (by decide), if_pos ⟨hmode, rfl⟩]
  · simp only [State.sentFrame, if_neg h]
    exact Sparse.get_put_same _ _ _ _

/-- A status message that has left counts, unless it has counted. -/
theorem State.statusSent_spec (s : State) (l : BitVec 32) : (∃ x, (s.statusSent l).net = { s.net with statSent := x }) ∧
    regsBut s (s.statusSent l) [Reg.NET_STAT_CNT] ∧ (s.statusSent l).ram = s.ram ∧
    (s.statusSent l).field Reg.NET_STAT_CNT 16 16 = (if s.net.statSent.contains l then s.field Reg.NET_STAT_CNT 16 16
      else min (s.field Reg.NET_STAT_CNT 16 16 + 1) 65535) := by
  unfold State.statusSent
  split
  · exact ⟨⟨_, rfl⟩, fun _ _ => rfl, rfl, rfl⟩
  · exact ⟨⟨_, rfl⟩, fun a ha => State.rd_addField_other _ _ _ _ _ _ (by simpa using ha), rfl,
      State.field_addField_same _ _ _ (by decide)⟩

/-- The port rests: no launch frame is in transmission (R605). -/
def State.sendingEnded (s : State) (p : Nat) : State :=
  { s with net := { s.net with sending := Sparse.put (fun _ => none) s.net.sending p none } }

theorem State.sendingOn_sendingEnded (s : State) (p : Nat) : (s.sendingEnded p).sendingOn p = none :=
  Sparse.get_put_same (fun _ => none) s.net.sending p none

theorem exec_frameTransmitDone_status {p : Fin 3} {l : BitVec 32} {b : List (BitVec 8)} {nt : BitVec 64} {s : State}
    (hopen : s.open .net = true) (hsend : s.sendingOn p = some (.status l b, nt)) : exec (.frameTransmitDone p) s =
      .next ((((s.sendingEnded p).sentFrame p b).statusSent l).txStart p) := by
  have hbusy : (s.txEnds p).isSome = true := by simp [State.txEnds, hsend]
  change execFrameTransmitDone p s = _
  rw [execFrameTransmitDone, if_neg (by simp [hopen]), if_pos hbusy, State.frameEnd, hsend]
  rfl

theorem answers_frameTransmitDone_status {p : Fin 3} {l : BitVec 32} {b : List (BitVec 8)} {nt : BitVec 64} {s : State}
    (hopen : s.open .net = true) (hsend : s.sendingOn p = some (.status l b, nt)) : answers (.frameTransmitDone p) s fun t =>
      Sparse.get (fun _ => none) t.net.sending p = none ∧ t.ram = s.ram ∧ regsBut s t [Reg.NET_STAT_CNT] ∧
      t.net.launch = s.net.launch ∧
      t.field Reg.NET_STAT_CNT 16 16 = (if s.net.statSent.contains l then s.field Reg.NET_STAT_CNT 16 16
        else min (s.field Reg.NET_STAT_CNT 16 16 + 1) 65535) ∧
      (p.val < 2 → Sparse.get (fun _ => []) t.net.lastTx p =
        if s.prpMode ∧ p.val = 0 then withTrailer b (s.net.prpSeq + 1) 0 else b) := by
  have hlast : Sparse.get _ _ _ = _ := lastTx_sentFrame (s.sendingEnded p) p b
  obtain ⟨n, x, hframe⟩ := (s.sendingEnded p).sentFrame_rest p b
  obtain ⟨⟨y, hnet⟩, hregs, hram, hcount⟩ := ((s.sendingEnded p).sentFrame p b).statusSent_spec l
  obtain ⟨z, hstart⟩ := (((s.sendingEnded p).sentFrame p b).statusSent l).txStart_rest p
  refine ⟨_, exec_frameTransmitDone_status hopen hsend, ?_⟩
  rw [hframe] at hlast hnet hregs hram hcount hstart ⊢
  rw [hstart]
  refine ⟨?_, hram, hregs, ?_, hcount, fun _ => ?_⟩
  · dsimp only
    rw [hnet]
    exact s.sendingOn_sendingEnded p
  · dsimp only
    rw [hnet]
    rfl
  · dsimp only
    rw [hnet]
    exact hlast

end Sys2Proof.Machine

namespace Sys2Proof.Network

open Sys2Proof.Machine Sys2Proof.Safety

/-- Settles O52, clause by clause: each command's rule, where an event in the collector leaves the network as it was. -/
theorem networkTimeRingsAndTimestamps : Obligations.NetworkTimeRingsAndTimestamps := by
  refine ⟨fun v s hopen => ⟨answers_of_via (f := fun t => t.ntAdj v) rfl hopen (s.ntAdj_spec v),
      answers_of_via (f := fun t => t.ntStepBy v) rfl hopen ?_,
      fun hband => answers_of_via (f := fun t => t.ntOffset v) rfl hopen (State.ntOffset_inBand hband),
      fun hband => answers_of_via (f := fun t => t.ntOffset v) rfl hopen (State.ntOffset_outOfBand hband),
      answers_of_via rfl hopen s.netLatchNow_spec, answers_netNtLoRead hopen⟩,
    fun p rx tx s hopen => ⟨answers_sfpDiagRead hopen, answers_txtsPop_none hopen,
      fun e r => answers_txtsPop hopen⟩,
    fun p r tail s hopen => answers_of_via (f := fun t => t.ringTailWrite p r tail.toNat) rfl hopen ?_,
    fun p len x rest s hq hguard => State.guardOk_iff len s.net.count p.isLt hq hguard,
    fun a s hopen hservo => answers_servoUpdateTimeout hopen hservo,
    fun p x rest s s1 hopen hq hmay hturn _ hregs => ?_,
    fun p x s => State.launchTurn_idle,
    fun p l b nt s hopen hsend => answers_frameTransmitDone_status hopen hsend⟩
  · have hnet := s.ntStepBy_net v
    exact ⟨by rw [hnet], by rw [hnet], s.bitOf_ntStepBy v⟩
  · obtain ⟨htail, hhead, hregs⟩ := s.tailMoved_spec p r tail
    obtain ⟨x, hrest⟩ := s.ringTailWrite_rest p r tail.toNat
    refine ⟨by rw [hrest]; exact htail, by rw [hrest]; exact hhead, by rw [hrest]; exact hregs, by rw [hrest]; rfl,
      fun hr hp hcarry => ?_, s.ringTailWrite_rests p r tail.toNat, fun hr => ?_⟩
    · rw [hr]
      exact s.launchQ_ringTailWrite p tail.toNat hp hcarry
    · rw [hr]
      exact ⟨s.ringTailWrite_one_net p tail.toNat, fun hidle i d => s.ring1On_ringTailWrite p tail.toNat hidle⟩
  · subst hturn
    refine ⟨answers_launchFrameSend hopen hq hmay hregs, ?_⟩
    rintro l b rfl hlate
    refine ⟨(s.launchTurn p (.status l b)).lateDropped p rest, State.launchQ_lateDropped _ _ _, ?_, ?_⟩
    · rw [State.rdNat_lateDropped, State.rdNat, State.rd, hregs]
      rfl
    · rw [exec_launchFrameSend hopen hq hmay, State.launchHead_late rest hlate]

end Sys2Proof.Network
end

section
/-! Steps, reset and unpowered windows (R857, R858, R860): the command at the front of the queue, the state after reset, and
what a command or a read finds in a window whose domain is off. -/

namespace Sys2Proof.Machine

open Sys2Proof.Safety

theorem next_of_closed {s t : State} {b : Blk} (hclosed : s.open b = false) :
    (Host.Outcome.next (if s.open b then t else s) : Res) = .next s := by
  rw [if_neg (ne_true_of_eq_false hclosed)]

/-- Each command of a window goes through that window. -/
theorem exec_of_closed {c : Instr} {b : Blk} {s : State} (hwin : Safety.windowOf c = some b) (hclosed : s.open b = false) :
    exec c s = .next s := by
  cases c <;> cases hwin <;> exact next_of_closed hclosed

theorem State.readReg_of_closed {s : State} {a off : Nat} {b : Blk} (hwin : windowOf a = some (b, off))
    (hclosed : s.open b = false) : s.readReg a = 0 := by
  unfold State.readReg
  rw [hwin]
  exact if_pos hclosed

end Sys2Proof.Machine

namespace Sys2Proof.Steps

open Sys2Proof.Machine Sys2Proof.Safety

/-- Settles O1, by the definition of a step. -/
theorem stepRunsTheFrontCommand : Obligations.StepRunsTheFrontCommand := fun _ _ _ => rfl

/-- Settles O5: the tables are empty at reset, and an unlisted register reads its reset value. -/
theorem resetTablesAreCanonical : Obligations.ResetTablesAreCanonical :=
  ⟨rfl, rfl, fun _ => rfl, rfl, rfl, rfl, rfl, rfl, rfl⟩

/-- Settles O7: a closed window drops its commands, and its registers read as zero. -/
theorem unpoweredWindowIgnoresCommands : Obligations.UnpoweredWindowIgnoresCommands :=
  ⟨fun _ _ _ => exec_of_closed, fun _ _ _ _ => State.readReg_of_closed⟩

end Sys2Proof.Steps
end

section
/-! What the operations of the collector, the lease, the converter, the PWM generator and the dispatcher keep: the
canonical form of the tables, and the commands that wait. -/

namespace Sys2Proof.Machine

open Sys2Proof.Safety

/-- The change `k` after the changes `h`: what a nest of updates keeps, from the outermost one inwards. -/
theorem Keeps.after {s t u : State} (k : Keeps t u) (h : Keeps s t) : Keeps s u := h.trans k

/-- Other values for any parts but the tables and the queue. -/
theorem Keeps.parts {s t : State} {setAt held sys tb lanes ports aes les isl sch flt gst twn key drf net dsp dma mem saf fio iso
    adc shfs pwm cans bus free} (h : Keeps s t) :
    Keeps s ⟨t.regs, setAt, held, sys, tb, lanes, ports, aes, les, isl, sch, flt, gst, twn, key, drf, net, dsp, dma, mem, saf,
      fio, iso, adc, shfs, pwm, cans, t.ram, t.mram, bus, free, t.pending⟩ :=
  h.same rfl rfl rfl rfl

theorem Keeps.iteFst {α : Type} {s : State} {c : Prop} [Decidable c] {p q : State × α} (h : Keeps s p.1) (k : Keeps s q.1) :
    Keeps s (if c then p else q).1 := by
  split <;> assumption

theorem Keeps.iteSnd {α : Type} {s : State} {c : Prop} [Decidable c] {p q : α × State} (h : Keeps s p.2) (k : Keeps s q.2) :
    Keeps s (if c then p else q).2 := by
  split <;> assumption

theorem Keeps.foldlFst {α β : Type} (l : List α) (f : State × β → α → State × β) (h : ∀ m a, Keeps m.1 (f m a).1)
    (m : State × β) : Keeps m.1 (l.foldl f m).1 := by
  induction l generalizing m with
  | nil => exact .refl m.1
  | cons a r ih => exact .after (ih (f m a)) (h m a)

/-- Another key in the slot, with a content in canonical form. -/
theorem Keeps.key {s : State} {m : Memory} {k : Key} (hm : Memory.wf m = true) : Keeps s { s with mram := m, key := k } := by
  refine ⟨fun h => ?_, rfl⟩
  simp only [tablesOk, Bool.and_eq_true] at h ⊢
  exact ⟨h.1, hm⟩

theorem keeps_of_ite_some {s t u : State} {c : Prop} [Decidable c] (h : Keeps s u)
    (hc : (if c then some u else none) = some t) : Keeps s t := by
  rwa [← Option.some.inj (Option.ite_none_right_eq_some.1 hc).2]

/-- A command that answers a next state keeps the tables canonical and the commands that wait. -/
structure AnswerKeeps (s : State) (r : Res) : Prop where
  keeps : ∀ t, r = .next t → Keeps s t

theorem AnswerKeeps.next {s t : State} (h : Keeps s t) : AnswerKeeps s (.next t) := by
  refine ⟨?_⟩
  rintro _ ⟨⟩
  exact h

theorem AnswerKeeps.fault {s : State} {f : Fault} : AnswerKeeps s (.fault f) := ⟨fun _ h => nomatch h⟩

theorem AnswerKeeps.ite {s : State} {c : Prop} [Decidable c] {a b : Res} (h : AnswerKeeps s a) (k : AnswerKeeps s b) :
    AnswerKeeps s (if c then a else b) := by
  split <;> assumption

/-- A command through a window keeps what its effect keeps. -/
theorem AnswerKeeps.via {s : State} {b : Blk} {f : State → State} (h : ∀ t, Keeps t (f t)) : AnswerKeeps s (s.via b f) :=
  .next (Keeps.ite (h s) (Keeps.refl s))

/-! ## The register file -/

theorem State.setBits_keeps (s : State) (a : Nat) (m : Word) : Keeps s (s.setBits a m) := .parts (State.wr_keeps s a _)

/-! ## The precision ΣΔ converter (R747 to R764) -/

theorem State.adcRefuse_keeps (s : State) : Keeps s s.adcRefuse := State.setBit_keeps s _ _
theorem State.adcOverrun_keeps (s : State) : Keeps s s.adcOverrun := State.setBit_keeps s _ _

theorem State.adcRound_keeps (s : State) (at_ : BitVec 64) : Keeps s (s.adcRound at_) := by
  unfold State.adcRound
  extract_lets s1
  have h1 : Keeps s s1 := by
    unfold s1
    refine .foldl _ _ (fun t m => ?_) _
    extract_lets x
    split <;> exact State.setAdcMod_keeps t m _
  exact .parts h1

theorem State.adcStart_keeps (s : State) : Keeps s s.adcStart :=
  .ite (State.adcRefuse_keeps s) (.after (State.adcRound_keeps _ _) (.parts (.refl s)))
theorem State.adcStop_keeps (s : State) : Keeps s s.adcStop :=
  .ite (State.adcRefuse_keeps s) (.after (State.setBit_keeps _ _ _) (.parts (.refl s)))
theorem State.adcCal_keeps (s : State) : Keeps s s.adcCal := .ite (State.adcRefuse_keeps s) (.parts (.refl s))
theorem State.adcEvent_keeps (s : State) (src : Nat) : Keeps s (s.adcEvent src) :=
  .ite (State.adcTrigger_keeps s _) (.refl s)
theorem State.adcJgo_keeps (s : State) : Keeps s s.adcJgo := .ite (State.adcTrigger_keeps s _) (.refl s)

theorem State.adcJctl_keeps (s : State) (v : Word) : Keeps s (s.adcJctl v) := by
  unfold State.adcJctl
  extract_lets w s1
  have h1 : Keeps s s1 := .ite (.refl s) (.ite (State.adcRefuse_keeps s) (State.wr_keeps s _ w))
  exact .ite (.after (State.adcJgo_keeps s1) h1) h1

theorem State.adcCtl_keeps (s : State) (v : Word) : Keeps s (s.adcCtl v) := by
  unfold State.adcCtl
  extract_lets w s1 s2 s3
  have h1 : Keeps s s1 := .ite (.refl s) (.ite (State.adcRefuse_keeps s) (State.wr_keeps s _ w))
  have h2 : Keeps s s2 := .ite (.after (State.adcStop_keeps s1) h1) h1
  have h3 : Keeps s s3 := .ite (.after (State.adcStart_keeps s2) h2) h2
  exact .ite (.after (State.adcCal_keeps s3) h3) h3

theorem State.adcSeqWrite_keeps (s : State) (a : Nat) (v : Word) (inj : Bool) : Keeps s (s.adcSeqWrite a v inj) :=
  .ite (State.adcRefuse_keeps s) (State.wr_keeps s a _)
theorem State.adcFactor_keeps (s : State) (m : Nat) (gain : Bool) (v : Word) : Keeps s (s.adcFactor m gain v) :=
  .ite (State.adcRefuse_keeps s) (.after (State.wr_keeps _ _ v) (.parts (.refl s)))

theorem State.adcResult_keeps (s : State) (m : Nat) (raw : Int) (a slot round : Nat) (at_ : BitVec 64) :
    Keeps s (s.adcResult m raw a slot round at_) := by
  unfold State.adcResult
  extract_lets code s1
  have h1 : Keeps s s1 := .after (State.setBitIf_keeps _ _ _ _) (.after (State.wr_keeps _ a _) (State.tick1_keeps s))
  exact .parts h1

theorem State.adcInjDone_keeps (s : State) (m : Nat) (c : AdcConv) (raw : Int) : Keeps s (s.adcInjDone m c raw) := by
  unfold State.adcInjDone
  extract_lets x s1 x1 s2
  have h1 : Keeps s s1 := State.adcResult_keeps s m raw _ _ _ _
  have h2 : Keeps s s2 := .after (State.setAdcMod_keeps s1 m x1) h1
  exact .ite (.after (State.setBit_keeps _ _ _) (.parts h2)) h2

theorem State.adcRegDone_keeps (s : State) (m : Nat) (c : AdcConv) (raw : Int) : Keeps s (s.adcRegDone m c raw) := by
  unfold State.adcRegDone
  extract_lets x n ends s1 x1 s2 _ s3 s4
  have h1 : Keeps s s1 := .after (State.setBit_keeps _ _ n) (State.adcResult_keeps s m raw _ n _ _)
  have h2 : Keeps s s2 := .after (State.setAdcMod_keeps s1 m x1) h1
  have h3 : Keeps s s3 := .parts h2
  have h4 : Keeps s s4 := .after (State.setBit_keeps _ _ _) (.after (State.wr_keeps s3 _ _) h3)
  exact .ite (.ite (.after (State.adcRound_keeps s4 ends) h4) (.parts h4)) h3

/-! ## The PWM generator (R784 to R801) -/

theorem State.pwmTrip_keeps (s : State) : Keeps s s.pwmTrip := by
  unfold State.pwmTrip
  extract_lets _ s1
  have h1 : Keeps s s1 := .after (State.setBitIf_keeps _ _ _ _) (.parts (.refl s))
  exact .after (.foldl _ _ (fun t n => State.pwmCycle_keeps t n _) _) h1

theorem State.pwmCalm_keeps (s : State) : Keeps s s.pwmCalm :=
  .ite (.after (State.setBit_keeps _ _ _) (.foldl _ _ (fun t n => .ite (State.setPwmCh_keeps t n _) (.refl t)) _))
    (.refl s)

theorem State.pwmOff_keeps (s : State) (n : Nat) : Keeps s (s.pwmOff n) := by
  unfold State.pwmOff
  extract_lets s1
  have h1 : Keeps s s1 := State.pwmTake_keeps s n
  exact .after (State.clrBit_keeps _ _ n) (.after (State.setPwmCh_keeps s1 n _) h1)

theorem State.pwmRefuse_keeps (s : State) (n code : Nat) : Keeps s (s.pwmRefuse n code) :=
  .after (State.setBit_keeps _ _ _) (State.wr_keeps s _ _)
theorem State.pwmStart_keeps (s : State) (n : Nat) : Keeps s (s.pwmStart n) :=
  .ite (State.pwmRefuse_keeps s n _) (.after (State.setBit_keeps _ _ n) (State.setPwmCh_keeps s n _))
theorem State.pwmEnWrite_keeps (s : State) (v : BitVec 16) : Keeps s (s.pwmEnWrite v) :=
  .foldl _ _ (fun t n => .ite (.refl t) (.ite (State.pwmStart_keeps t n) (State.pwmOff_keeps t n))) _

theorem State.pwmLoadAll_keeps (s : State) : Keeps s s.pwmLoadAll := by
  unfold State.pwmLoadAll
  split
  · exact State.pwmRefuse_keeps s _ _
  · extract_lets s1
    have h1 : Keeps s s1 := by
      unfold s1
      refine .after (.foldl _ _ (fun t n => ?_) _) (State.wr_keeps s _ _)
      extract_lets p
      exact .ite (State.setPwmCh_keeps t n _) (.after (State.wr_keeps _ _ _) (State.wr_keeps t _ _))
    exact .after (State.setBitIf_keeps s1 _ _ _) h1

theorem State.pwmMinOffWrite_keeps (s : State) (n : Nat) (v : BitVec 16) : Keeps s (s.pwmMinOffWrite n v) :=
  .ite (State.setBit_keeps s _ _) (State.wr_keeps s _ _)

theorem State.pwmArmPair_keeps (s : State) (n : Nat) (isT : Bool) (v : Word) : Keeps s (s.pwmArmPair n isT v) := by
  unfold State.pwmArmPair
  extract_lets w per t
  exact .ite (State.setBit_keeps s _ _) (State.wr_keeps s _ w)

theorem State.pwmChopWrite_keeps (s : State) (v : BitVec 16) : Keeps s (s.pwmChopWrite v) :=
  .ite (.refl s) (State.wr_keeps s _ _)
theorem State.pwmArm_keeps (s : State) (v : Word) : Keeps s (s.pwmArm v) :=
  .ite (State.wrPair_keeps s _ v) (State.setBit_keeps s _ _)

theorem State.pwmCtl_keeps (s : State) (v : Word) : Keeps s (s.pwmCtl v) := by
  unfold State.pwmCtl
  extract_lets was s1 s2
  have h1 : Keeps s s1 := State.wr_keeps s _ _
  have h2 : Keeps s s2 := .ite (.after (State.pwmCalm_keeps s1) h1) h1
  exact .ite (.after (State.pwmLoadAll_keeps s2) h2) h2

/-! ## What other blocks do at once when the collector takes an event or the reaction changes -/

theorem State.injAbort_keeps (s : State) : Keeps s s.injAbort :=
  .ite (.after (State.clrBit_keeps _ _ _) (.after (State.clrBit_keeps _ _ _) (.parts (.refl s)))) (.refl s)

theorem State.unclass_keeps (s : State) : Keeps s s.unclass := by
  unfold State.unclass
  refine .foldl _ _ (fun u e => ?_) _
  split
  · exact .ite (State.setSrc_keeps u _ _) (.refl u)
  · exact .refl u

theorem State.draftCancel_keeps (s : State) (code : Nat) : Keeps s (s.draftCancel code) := by
  unfold State.draftCancel
  extract_lets d holds u
  have hU : Keeps s u := State.unclass_keeps s
  exact .ite (.after (State.setBit_keeps _ _ _) (.after (State.wr_keeps _ _ _) (.parts hU))) (.refl s)

/-! ## The fault collector -/

theorem State.reclass_keeps (s : State) (n : Nat) (e : FltEntry) : Keeps s (s.reclass n e) := State.setSrc_keeps s n _
theorem State.clearSrc_keeps (s : State) (n : Nat) : Keeps s (s.clearSrc n) := State.clearAt_keeps s n _

/-! ## What a port sends at the present tick -/

theorem State.setLine_keeps (s : State) (p : Nat) (l : LineAt) : Keeps s (s.setLine p l) :=
  .ite (State.setPort_keeps s p _) (.parts (.refl s))

/-! ## The lease states, twin messages and the surrender of the lease (R480, R495 to R499) -/

theorem State.setEpochs_keeps (s : State) (e m : BitVec 16) : Keeps s (s.setEpochs e m) := by
  unfold State.setEpochs
  extract_lets u _ s1
  have hU : Keeps s u := State.keyDue_keeps s
  have h1 : Keeps s s1 := .ite (.refl s) (.parts hU)
  exact .after (State.wrPair_keeps s1 _ _) h1

theorem State.twnResult_keeps (s : State) (c : Nat) : Keeps s (s.twnResult c) := State.setField_keeps s _ _ _ c

theorem State.putMsg_keeps (s : State) (m : TwMsg) : Keeps s (s.putMsg m) := by
  unfold State.putMsg
  extract_lets s1 gust
  have h1 : Keeps s s1 := State.lineNote_keeps s _
  exact .parts h1

theorem State.sendEcho_keeps (s : State) : Keeps s s.sendEcho := by
  unfold State.sendEcho
  extract_lets s1
  have h1 : Keeps s s1 := State.sendMsg_keeps s _ _
  exact .parts h1

theorem State.sendGust_keeps (s : State) (kind : Nat) (vt : BitVec 64) : Keeps s (s.sendGust kind vt) := by
  unfold State.sendGust
  extract_lets s1 at_
  have h1 : Keeps s s1 := State.lineNote_keeps s _
  exact .parts h1

theorem State.integrity_keeps (s : State) (island : Nat) : Keeps s (s.integrity island) := by
  unfold State.integrity
  extract_lets s1
  have h1 : Keeps s s1 := .ite (State.setBit_keeps s _ _) (.refl s)
  exact .after (State.raise_keeps s1 _) h1

/-! ## The commands of the fault collector (07_fault_collection.md) -/

theorem State.sourceBreak_keeps (s : State) (n : Nat) (tick : BitVec 64) : Keeps s (s.sourceBreak n tick) := by
  unfold State.sourceBreak
  refine .ite (.refl s) ?_
  extract_lets s1 s2
  have h1 : Keeps s s1 := State.setSrc_keeps s n _
  have h2 : Keeps s s2 := .after (State.settle_keeps s s1 tick) h1
  exact .after (State.maskSurrender_keeps s _ n) (.ite (.after (State.setLatch_keeps s2 _ _) h2) h2)

theorem State.counterBreak_keeps {s t : State} (h : Keeps s t) (c : Nat) (stays : Bool) :
    Keeps s (State.counterBreak s t c stays) := by
  unfold State.counterBreak
  exact .after (State.raise_keeps _ _) (.parts (.after (State.wr_keeps _ _ _) h))

theorem execFaultEvent_keeps (word : BitVec 64) (damage : Option FltDamage) (s : State) :
    AnswerKeeps s (execFaultEvent word damage s) := by
  unfold execFaultEvent
  extract_lets src tick take
  have hTake : ∀ t, Keeps t (take t) := fun t =>
    .after (State.maskSurrender_keeps t _ _) (State.collect_keeps t src tick _)
  split
  · exact .next (hTake s)
  · exact .next (.after (State.raise_keeps _ _) (.after (hTake _) (State.sourceBreak_keeps s _ tick)))
  · exact .next (State.counterBreak_keeps (hTake s) _ _)

theorem execLullExpiry_keeps (n : Fin 256) (s : State) : AnswerKeeps s (execLullExpiry n s) := by
  unfold execLullExpiry
  extract_lets x locks x1 x2
  split
  · extract_lets s1 s2 s3
    have h1 : Keeps s s1 := State.advanceTo_keeps s _
    have h2 : Keeps s s2 := .after (State.setSrc_keeps s1 _ x2) h1
    have h3 : Keeps s s3 := .after (State.settle_keeps s1 _ _) (.ite (.after (State.lockedNow_keeps s2) h2) h2)
    exact .next (.after (State.recDue_keeps _ _ _) (.after (State.setSrc_keeps s3 _ _) h3))
  · exact .next (.refl s)

theorem State.clearOne_keeps (s : State) (n : Nat) : Keeps s (s.clearOne n) := by
  unfold State.clearOne
  extract_lets x
  exact .ite (.after (State.raise_keeps _ _) (State.setBit_keeps s _ _))
    (.ite (State.setBit_keeps s _ _) (State.clearSrc_keeps s n))

theorem State.clearEvery_keeps (s : State) : Keeps s s.clearEvery := by
  unfold State.clearEvery
  refine .foldl _ _ (fun t n => ?_) _
  extract_lets x
  exact .ite (.refl t) (.ite (State.setBit_keeps t _ _)
    (.ite (.refl t) (.ite (State.setBit_keeps t _ _) (State.clearSrc_keeps t n))))

theorem State.fltClear_keeps (s : State) (v : Word) : Keeps s (s.fltClear v) := by
  unfold State.fltClear
  split
  · exact State.clearOne_keeps s _
  · exact State.clearEvery_keeps s
  · exact State.setBit_keeps s _ _
  · exact .refl s

theorem State.fltInj_keeps (s : State) (v : Word) : Keeps s (s.fltInj v) := by
  unfold State.fltInj
  extract_lets n at_
  exact .ite (.refl s) (.ite (State.setBit_keeps s _ _) (.after (State.wr_keeps _ _ _) (.parts (.refl s))))

theorem State.awaitDeblock_keeps (s : State) : Keeps s s.awaitDeblock :=
  .foldl _ _ (fun t n => .ite (State.setPort_keeps t n _) (.refl t)) _

theorem State.deblockNow_keeps (s : State) : Keeps s s.deblockNow := by
  unfold State.deblockNow
  extract_lets s1
  have h1 : Keeps s s1 := State.setLatch_keeps s _ _
  exact .after (State.draftCancel_keeps _ _) (.after (State.awaitDeblock_keeps _)
    (.after (State.setBitIf_keeps s1 _ _ _) h1))

theorem State.fltConv_keeps (s : State) (v : Word) : Keeps s (s.fltConv v) := by
  unfold State.fltConv
  split
  · exact .ite (State.deblockNow_keeps s) (State.setBit_keeps s _ _)
  · exact State.blockNow_keeps s
  · exact State.setBit_keeps s _ _
  · exact .refl s

theorem execClearSource_keeps (n : Fin 256) (s : State) : AnswerKeeps s (execClearSource n s) :=
  .via (fun t => .after (State.fltClear_keeps _ _) (State.wrPair_keeps t _ _))
theorem execClearAll_keeps (s : State) : AnswerKeeps s (execClearAll s) :=
  .via (fun t => .after (State.fltClear_keeps _ _) (State.wrPair_keeps t _ _))
theorem execInject_keeps (n : Fin 256) (s : State) : AnswerKeeps s (execInject n s) :=
  .via (fun t => .after (State.fltInj_keeps _ _) (State.wrPair_keeps t _ _))
theorem State.injDone_keeps (s : State) (n : Nat) : Keeps s (s.injDone n) :=
  .after (State.setBit_keeps _ _ _) (.after (State.wr_keeps _ _ _) (.parts (.refl s)))

theorem execInjectionFire_keeps (s : State) : AnswerKeeps s (execInjectionFire s) := by
  unfold execInjectionFire
  split
  · exact .next (.refl s)
  · extract_lets s1 x _ s2
    have h1 : Keeps s s1 := State.advanceTo_keeps s _
    have h2 : Keeps s s2 := .parts h1
    exact .ite (.next (.after (State.collide_keeps s1 _) h1))
      (.next (.after (State.injDone_keeps _ _)
      (.after (State.maskSurrender_keeps s2 _ _) (.after (State.collect_keeps s2 _ _ _) h2))))

theorem execDeblock_keeps (s : State) : AnswerKeeps s (execDeblock s) :=
  .via (fun t => .after (State.fltConv_keeps _ _) (State.wrPair_keeps t _ _))
theorem execBlockRequest_keeps (s : State) : AnswerKeeps s (execBlockRequest s) :=
  .via (fun t => .after (State.fltConv_keeps _ _) (State.wrPair_keeps t _ _))
theorem State.fltCntClr_keeps (s : State) : Keeps s s.fltCntClr := .after (State.clearAll_keeps _ _) (.parts (.refl s))
theorem execFltCntClr_keeps (s : State) : AnswerKeeps s (execFltCntClr s) := .via State.fltCntClr_keeps

/-! ## The thread dispatcher and its trace (R644 to R651) -/

theorem State.busWrite_keeps (s : State) (a : Nat) (l : List Byte) : Keeps s (s.busWrite a l) := by
  induction l generalizing s a with
  | nil => exact .refl s
  | cons b r ih => exact .after (ih _ _) (.ite (State.ramWrite_keeps s a [b]) (.refl s))

theorem State.setWaiting_keeps (s : State) (p : Nat) (l : List (BitVec 7)) : Keeps s (s.setWaiting p l) :=
  .parts (.refl s)
theorem State.unwait_keeps (s : State) (t : BitVec 7) : Keeps s (s.unwait t) := .parts (.refl s)

theorem State.waitTail_keeps (s : State) (t : BitVec 7) : Keeps s (s.waitTail t) := by
  unfold State.waitTail
  extract_lets p
  exact State.setWaiting_keeps s p _

theorem State.waitHead_keeps (s : State) (t : BitVec 7) : Keeps s (s.waitHead t) := by
  unfold State.waitHead
  extract_lets p
  exact State.setWaiting_keeps s p _

theorem State.trPut_keeps (s : State) (v : BitVec 64) : Keeps s (s.trPut v) := by
  unfold State.trPut
  extract_lets h
  exact .after (State.setField_keeps _ _ _ _ _) (State.busWrite_keeps s _ _)

theorem State.trLose_keeps (s : State) : Keeps s s.trLose := by
  unfold State.trLose
  extract_lets _ s1
  have h1 : Keeps s s1 := .parts (.refl s)
  exact .after (State.setBit_keeps _ _ _) (.after (State.bump_keeps s1 _) h1)

theorem State.trRecord_keeps (s : State) (v : BitVec 64) : Keeps s (s.trRecord v) := by
  unfold State.trRecord
  refine .ite (.refl s) ?_
  refine .ite (State.trLose_keeps s) ?_
  refine .ite (State.trPut_keeps s v) ?_
  extract_lets w u _ s1
  have hU : Keeps s u := State.trPut_keeps s w
  have h1 : Keeps s s1 := .parts hU
  exact .ite (.after (State.trPut_keeps s1 v) h1) (.after (State.trLose_keeps s1) h1)

theorem State.trace_keeps (s : State) (kind core : Nat) (t t2 : Option (BitVec 7)) :
    Keeps s (s.trace kind core t t2) := by
  unfold State.trace
  refine .ite (.refl s) ?_
  extract_lets f tid prio tid2
  exact .after (State.trRecord_keeps _ _) (State.tick1_keeps s)

theorem State.runsOn_keeps (s : State) (c : Nat) (t : Option (BitVec 7)) : Keeps s (s.runsOn c t) := by
  unfold State.runsOn
  split
  · exact .ite (State.setThr_keeps s _ _) (.refl s)
  · exact .refl s

theorem State.setNext_keeps (s : State) (c : Nat) (t : Option (BitVec 7)) (kind : Nat) : Keeps s (s.setNext c t kind) :=
  .ite (State.runsOn_keeps s c t) (.after (State.runsOn_keeps _ c t)
    (.after (State.trace_keeps _ kind c t _) (State.wr_keeps s _ _)))

theorem State.placeIn_keeps (s : State) (fuel : Nat) (t : BitVec 7) (head : Bool) :
    Keeps s (s.placeIn fuel t head) := by
  induction fuel generalizing s t head with
  | zero => exact .refl s
  | succ fuel ih =>
    unfold State.placeIn
    split
    · exact .ite (State.waitHead_keeps s t) (State.waitTail_keeps s t)
    · split
      · exact State.setNext_keeps s _ _ _
      · extract_lets s1
        have h1 : Keeps s s1 := State.setNext_keeps s _ _ _
        exact .ite h1 (.after (ih _ _ _) (.after (State.setThr_keeps s1 _ _) h1))

theorem State.place_keeps (s : State) (t : BitVec 7) (head : Bool) : Keeps s (s.place t head) :=
  State.placeIn_keeps s _ t head

theorem State.freeCore_keeps (s : State) (c : Nat) : Keeps s (s.freeCore c) := by
  unfold State.freeCore
  split
  · exact .after (State.setNext_keeps _ c _ _) (State.unwait_keeps s _)
  · exact State.setNext_keeps s c _ _

theorem State.dspRefuse_keeps (s : State) (c code : Nat) (t : BitVec 7) : Keeps s (s.dspRefuse c code t) :=
  .after (State.trace_keeps _ _ c _ _) (.after (State.setBit_keeps _ _ _) (State.wr_keeps s _ _))
theorem State.dspDone_keeps (s : State) (c : Nat) : Keeps s (s.dspDone c) := State.wr_keeps s _ _

theorem State.thrCreate_keeps (s : State) (c : Nat) (t : BitVec 7) (prio : BitVec 5) (aff : BitVec 8) :
    Keeps s (s.thrCreate c t prio aff) :=
  .ite (State.dspRefuse_keeps s c _ t) (.ite (State.dspRefuse_keeps s c _ t)
    (.after (State.trace_keeps _ _ c _ _) (.after (State.setThr_keeps _ t _) (State.dspDone_keeps s c))))

theorem State.thrReady_keeps (s : State) (c : Nat) (t : BitVec 7) : Keeps s (s.thrReady c t) :=
  .ite (State.dspRefuse_keeps s c _ t) (.after (State.place_keeps _ t _)
    (.after (State.trace_keeps _ _ c _ _) (.after (State.setThr_keeps _ t _) (State.dspDone_keeps s c))))

theorem State.thrBlock_keeps (s : State) (c : Nat) (t : BitVec 7) : Keeps s (s.thrBlock c t) := by
  unfold State.thrBlock
  refine .ite (State.dspRefuse_keeps s c _ t) ?_
  extract_lets _ s1
  have h1 : Keeps s s1 := .after (State.trace_keeps _ _ c _ _)
    (.after (State.setThr_keeps _ t _) (.after (State.unwait_keeps _ t) (State.dspDone_keeps s c)))
  split
  · exact .after (State.freeCore_keeps s1 _) h1
  · exact h1

theorem State.thrYield_keeps (s : State) (c : Nat) (given : BitVec 7) : Keeps s (s.thrYield c given) := by
  unfold State.thrYield
  split
  · exact State.dspRefuse_keeps s c _ given
  · refine .ite (State.dspRefuse_keeps s c _ _) ?_
    extract_lets _ s1
    have h1 : Keeps s s1 := .after (State.trace_keeps _ _ c _ _)
      (.after (State.waitTail_keeps _ _) (.after (State.setThr_keeps _ _ _) (State.dspDone_keeps s c)))
    exact .ite (.after (State.freeCore_keeps s1 c) h1) h1

theorem State.thrPrio_keeps (s : State) (c : Nat) (t : BitVec 7) (prio : BitVec 5) : Keeps s (s.thrPrio c t prio) := by
  unfold State.thrPrio
  refine .ite (State.dspRefuse_keeps s c _ t) ?_
  extract_lets queued _ s1
  have h1 : Keeps s s1 := .after (State.trace_keeps _ _ c _ _)
    (.after (State.setThr_keeps _ t _) (.after (State.unwait_keeps _ t) (State.dspDone_keeps s c)))
  split
  · refine .ite h1 ?_
    refine .ite h1 ?_
    extract_lets s2
    have h2 : Keeps s s2 := .after (State.place_keeps _ t _) (.after (State.setNext_keeps s1 _ _ _) h1)
    exact .ite (.after (State.freeCore_keeps s2 _) h2) h2
  · exact .ite (.after (State.waitTail_keeps s1 t) h1) h1

theorem State.thrAffinity_keeps (s : State) (c : Nat) (t : BitVec 7) (aff : BitVec 8) :
    Keeps s (s.thrAffinity c t aff) :=
  .ite (State.dspRefuse_keeps s c _ t) (.ite (State.dspRefuse_keeps s c _ t)
    (.after (State.trace_keeps _ _ c _ _) (.after (State.setThr_keeps _ t _) (State.dspDone_keeps s c))))

theorem State.thrDelete_keeps (s : State) (c : Nat) (t : BitVec 7) : Keeps s (s.thrDelete c t) :=
  .ite (State.dspRefuse_keeps s c _ t) (.after (State.trace_keeps _ _ c _ _)
    (.after (State.setThr_keeps _ t _) (State.dspDone_keeps s c)))

theorem State.thrAck_keeps (s : State) (c : Nat) (t : BitVec 7) (idle : Bool) : Keeps s (s.thrAck c t idle) := by
  unfold State.thrAck
  extract_lets want old s1 s2 s3
  have h1 : Keeps s s1 := .after (State.wr_keeps _ _ _) (State.dspDone_keeps s c)
  have h2 : Keeps s s2 := by
    unfold s2
    clear_value want
    split
    · exact .after (State.setThr_keeps s1 _ _) h1
    · exact h1
  have h3 : Keeps s s3 := .after (State.trace_keeps s2 _ c want old) h2
  refine .ite (State.dspRefuse_keeps s c _ t) ?_
  clear_value old
  split
  · exact .ite (.after (State.place_keeps _ _ _) (.after (State.setThr_keeps s3 _ _) h3)) h3
  · exact h3

theorem State.dspCmd_keeps (s : State) (c : Nat) (v : Word) : Keeps s (s.dspCmd c v) := by
  unfold State.dspCmd
  extract_lets t prio aff
  split
  · exact State.thrCreate_keeps s c t prio aff
  · exact State.thrReady_keeps s c t
  · exact State.thrBlock_keeps s c t
  · exact State.thrYield_keeps s c t
  · exact State.thrPrio_keeps s c t prio
  · exact State.thrAffinity_keeps s c t aff
  · exact State.thrDelete_keeps s c t
  · exact State.thrAck_keeps s c t _
  · exact State.dspRefuse_keeps s c _ t

end Sys2Proof.Machine
end

section
/-! What the operations of the arms, the schedule, the lanes and the recorder keep: the canonical form of the tables,
and the commands that wait. -/

namespace Sys2Proof.Machine

open Sys2Proof.Safety

/-! ## The cell table of an arm engine as the census and the parameters set it (R199, R202, R220, R227) -/

theorem State.aeCensus_keeps (s : State) (n : Nat) : Keeps s (s.aeCensus n) := by
  unfold State.aeCensus
  refine .ite ?_ (.refl s)
  extract_lets a cells
  exact State.setAe_keeps s n _

/-! ## The schedule contract while it runs -/

theorem State.noteSlack_keeps (s : State) (code idx : Nat) (slack : Int) : Keeps s (s.noteSlack code idx slack) := by
  unfold State.noteSlack
  extract_lets v _ s1
  have h1 : Keeps s s1 := .parts (.refl s)
  exact .ite (.after (State.wr_keeps _ _ _) (.after (State.setField_keeps s1 _ _ _ _) h1)) h1

theorem State.blockFrom_keeps (s : State) (t : BitVec 64) : Keeps s (s.blockFrom t) :=
  .after (State.setBitIf_keeps _ _ _ _) (State.setLatch_keeps s _ t)

theorem State.declareMiss_keeps (s : State) (code kind idx : Nat) (origins : List Nat) :
    Keeps s (s.declareMiss code kind idx origins) := by
  unfold State.declareMiss
  extract_lets s1 run u _ s2 s3 s4
  have h1 : Keeps s s1 := .after (State.wr_keeps _ _ _) (.after (State.wr_keeps _ _ _) (State.setBit_keeps s _ _))
  have hU : Keeps s u := .after (State.bump_keeps s1 _) h1
  have h2 : Keeps s s2 := .ite h1 (.parts hU)
  have h3 : Keeps s s3 := .after (State.setBitIf_keeps s2 _ _ _) h2
  have h4 : Keeps s s4 := .ite (.after (State.raise_keeps _ _) (.after (State.blockFrom_keeps s3 _) h3)) h3
  exact .after (.foldl _ _ State.raiseOnce_keeps _) h4

theorem State.missNotices_keeps (s : State) (affect : BitVec 12) : Keeps s (s.missNotices affect) :=
  .foldl _ _ (fun t n => .ite (State.setPort_keeps t n _) (.refl t)) _

theorem State.sendCues_keeps (s : State) (f : Xing → Bool) (lat : Nat) (pcLo : BitVec 16) :
    Keeps s (s.sendCues f lat pcLo) :=
  .foldl _ _ (fun t _ => .ite (.parts (.refl t)) (.refl t)) _

theorem State.noteCrossing_keeps (s : State) (i t : Nat) : Keeps s (s.noteCrossing i t) := by
  unfold State.noteCrossing
  extract_lets x most _ s1 s2
  have h1 : Keeps s s1 := .ite (.parts (.refl s)) (.refl s)
  have h2 : Keeps s s2 := .ite (.after (State.wr_keeps s1 _ _) h1) h1
  exact .ite (.after (State.raiseOnce_keeps _ _)
    (.after (State.setBit_keeps _ _ _) (.after (State.bump_keeps s2 _) h2))) h2

theorem State.noteStale_keeps (s : State) : Keeps s s.noteStale :=
  .after (State.raiseOnce_keeps _ _) (.after (State.setBit_keeps _ _ _) (State.bump_keeps s _))

theorem State.schCntClr_keeps (s : State) : Keeps s s.schCntClr := by
  unfold State.schCntClr
  extract_lets s1
  have h1 : Keeps s s1 := .after (State.wr_keeps _ _ _) (State.clearAll_keeps s _)
  exact .parts h1

/-! ## An arm engine's cell table from intake to boundary, its stages, and its registers that act -/

theorem State.aeIntake_keeps (s : State) (n : Nat) : Keeps s (s.aeIntake n) := by
  unfold State.aeIntake
  refine .ite ?_ (.refl s)
  extract_lets a reps warm taken b missing framed
  exact .after (State.wr_keeps _ _ _) (State.setAe_keeps s n b)

theorem State.takeLatches_keeps (s : State) (n : Nat) : Keeps s (s.takeLatches n) := by
  unfold State.takeLatches
  extract_lets a m past s1 s2
  have h1 : Keeps s s1 := State.setAe_keeps s n _
  have h2 : Keeps s s2 := .ite (.after (State.raiseOnce_keeps _ _) (.after (State.setBit_keeps s1 _ _) h1)) h1
  exact .ite (.after (State.raiseOnce_keeps _ _) (.after (State.setBit_keeps s2 _ _) h2)) h2

theorem State.aeOccupy_keeps (s : State) (n u len : Nat) : Keeps s (s.aeOccupy n u len) := by
  unfold State.aeOccupy
  extract_lets a
  exact State.setAe_keeps s n _

theorem State.handOver_keeps (s : State) (n : Nat) (h : Handover) (missed stop : Bool) (lat : Nat) :
    Keeps s (s.handOver n h missed stop lat) := by
  unfold State.handOver
  extract_lets a s1
  have h1 : Keeps s s1 := State.setAe_keeps s n _
  exact .after (State.sendCues_keeps s1 _ lat _) h1

theorem State.noteNoOrder_keeps (s : State) (n : Nat) : Keeps s (s.noteNoOrder n) :=
  .after (State.setBit_keeps _ _ _) (State.bump_keeps s _)
theorem State.aeIdle_keeps (s : State) (n : Nat) : Keeps s (s.aeIdle n) := State.setAe_keeps s n _
theorem State.aeMiss_keeps (s : State) (n kind stage : Nat) : Keeps s (s.aeMiss n kind stage) :=
  .after (State.aeIdle_keeps _ n) (.after (State.handOver_keeps _ n _ _ _ _) (State.declareMiss_keeps s _ kind stage _))
theorem State.aeResidue_keeps (s : State) (n : Nat) : Keeps s (s.aeResidue n) :=
  .after (State.aeIdle_keeps _ n) (.after (State.handOver_keeps _ n _ _ _ _) (State.integrity_keeps s _))

theorem State.rankStage_keeps (s : State) (n : Nat) (residue : Bool) : Keeps s (s.rankStage n residue) := by
  unfold State.rankStage
  extract_lets s1 a s2
  have h1 : Keeps s s1 := .after (State.aeOccupy_keeps _ n _ _) (State.takeLatches_keeps s n)
  have h2 : Keeps s s2 := .ite (.after (State.integrity_keeps s1 _) h1) h1
  exact .ite (.after (State.aeResidue_keeps s1 n) h1)
    (.after (State.sendCues_keeps _ _ _ _) (.after (State.setAe_keeps s2 n _) h2))

theorem execRankStart_keeps (n : Fin 12) (residue : Bool) (s : State) : AnswerKeeps s (execRankStart n residue s) := by
  unfold execRankStart
  refine .ite (.next (.refl s)) ?_
  extract_lets s1
  have h1 : Keeps s s1 := State.advanceTo_keeps s _
  exact .ite (.next (.after (State.aeMiss_keeps s1 _ _ _) h1))
    (.ite (.next (.after (State.aeMiss_keeps s1 _ _ _) h1)) (.next (.after (State.rankStage_keeps s1 _ residue) h1)))

theorem State.noteSelection_keeps (s : State) (n : Nat) (r : SelInfo) (high : Bool) :
    Keeps s (s.noteSelection n r high) := by
  unfold State.noteSelection
  extract_lets evt s1 s2 s3 s4 s5
  have h1 : Keeps s s1 := State.wr_keeps s _ _
  have h2 : Keeps s s2 := .ite (.after (State.raiseOnce_keeps _ _) (.after (State.setBit_keeps s1 evt _) h1)) h1
  have h3 : Keeps s s3 := .ite (.after (State.raiseOnce_keeps _ _) (.after (State.setBit_keeps s2 evt _) h2)) h2
  have h4 : Keeps s s4 := .ite (.after (State.setBit_keeps _ evt _) (.after (State.addField_keeps s3 _ _ _ _) h3)) h3
  have h5 : Keeps s s5 := .ite (.after (State.addField_keeps s4 _ _ _ _) h4) h4
  exact .ite (.after (State.raiseOnce_keeps _ _)
    (.after (State.setBit_keeps _ evt _) (.after (State.addField_keeps s5 _ _ _ _) h5))) h5

theorem State.selectWith_keeps (s : State) (n : Nat) (lam : BitVec 32) (rank : List Nat) :
    Keeps s (s.selectWith n lam rank) := by
  unfold State.selectWith
  extract_lets a neg s1 dir cells r high s2
  have h1 : Keeps s s1 := .ite (State.bump_keeps s _) (.refl s)
  have h2 : Keeps s s2 := .after (State.setAe_keeps s1 n _) h1
  exact .after (State.noteSelection_keeps s2 n r high) h2

theorem State.selectNone_keeps (s : State) (n : Nat) (missed : Bool) : Keeps s (s.selectNone n missed) := by
  unfold State.selectNone
  extract_lets s1
  have h1 : Keeps s s1 := .after (State.handOver_keeps _ n _ missed _ _) (State.noteNoOrder_keeps s n)
  exact .after (State.setAe_keeps s1 n _) h1

theorem State.placeOut_keeps (s : State) (n : Nat) (missed stop : Bool) (lat : Nat) :
    Keeps s (s.placeOut n missed stop lat) := by
  unfold State.placeOut
  split
  · extract_lets cells
    exact State.handOver_keeps s n _ missed stop lat
  · exact .refl s

theorem State.selectStage_keeps (s : State) (n : Nat) (residue : Bool) : Keeps s (s.selectStage n residue) := by
  unfold State.selectStage
  extract_lets s0 _ s1 a miss late _ s2
  have h0 : Keeps s s0 := State.takeLatches_keeps s n
  have h1 : Keeps s s1 := .after (State.aeOccupy_keeps _ n _ _) (.after (State.setAe_keeps s0 n _) h0)
  have hMiss : Keeps s miss := .after (State.declareMiss_keeps s1 _ _ _ _) h1
  have h2 : Keeps s s2 := .ite (.after (State.setAe_keeps miss n _) hMiss) h1
  refine .ite (.after (State.aeResidue_keeps s2 n) h2) ?_
  split
  · refine .ite ?_ (.after (State.selectNone_keeps s2 n _) h2)
    extract_lets s3
    have h3 : Keeps s s3 := .after (State.selectWith_keeps s2 n _ _) h2
    exact .ite (.after (State.placeOut_keeps s3 n _ _ _) h3) h3
  · exact .after (State.selectNone_keeps s2 n _) h2

theorem execSelectStart_keeps (n : Fin 12) (residue : Bool) (s : State) :
    AnswerKeeps s (execSelectStart n residue s) := by
  unfold execSelectStart
  refine .ite (.next (.refl s)) ?_
  extract_lets s1 s2
  have h1 : Keeps s s1 := State.advanceTo_keeps s _
  have h2 : Keeps s s2 := .after (State.declareMiss_keeps s1 _ _ _ _) h1
  exact .ite (.next (.after (State.selectNone_keeps _ _ _) (.after (State.setAe_keeps s2 _ _) h2)))
    (.next (.after (State.selectStage_keeps s1 _ residue) h1))

theorem State.placeStage_keeps (s : State) (n : Nat) (residue : Bool) : Keeps s (s.placeStage n residue) := by
  unfold State.placeStage
  extract_lets s1
  have h1 : Keeps s s1 := State.aeOccupy_keeps s n _ _
  exact .ite (.after (State.aeResidue_keeps s1 n) h1) (.after (State.placeOut_keeps s1 n _ _ _) h1)

theorem execPlaceStart_keeps (n : Fin 12) (residue : Bool) (s : State) :
    AnswerKeeps s (execPlaceStart n residue s) := by
  unfold execPlaceStart
  refine .ite (.next (.refl s)) ?_
  extract_lets s1
  have h1 : Keeps s s1 := State.advanceTo_keeps s _
  exact .ite (.next (.after (State.aeMiss_keeps s1 _ _ _) h1))
    (.ite (.next (.after (State.aeMiss_keeps s1 _ _ _) h1)) (.next (.after (State.placeStage_keeps s1 _ residue) h1)))

theorem State.orderToAe_keeps (s : State) (n : Nat) (lam i : Option (BitVec 32 × BitVec 32)) :
    Keeps s (s.orderToAe n lam i) := by
  unfold State.orderToAe
  extract_lets start s1 s2
  have h1 : Keeps s s1 := .ite (State.noteSlack_keeps s _ _ _) (.refl s)
  have h2 : Keeps s s2 := .ite h1 (.after (State.integrity_keeps s1 _) h1)
  exact .ite h1 (.after (State.setAe_keeps s2 n _) h2)

theorem State.orderToPort_keeps (s : State) (n : Nat) (lam : BitVec 32 × BitVec 32) :
    Keeps s (s.orderToPort n lam) := by
  unfold State.orderToPort
  extract_lets s1 s2
  have h1 : Keeps s s1 := State.noteSlack_keeps s _ _ _
  have h2 : Keeps s s2 := .ite h1 (.after (State.integrity_keeps s1 _) h1)
  exact .ite h1 (.after (State.setPort_keeps s2 n _) h2)

theorem execLevelOrderReceive_keeps (dst : LevelDst) (pcLo : BitVec 16) (lam lamC cur curC : Option Word) (s : State) :
    AnswerKeeps s (execLevelOrderReceive dst pcLo lam lamC cur curC s) := by
  unfold execLevelOrderReceive
  refine .ite (.next (.refl s)) ?_
  split
  · exact .next (.ite (State.orderToAe_keeps s _ _ _) (.refl s))
  · exact .next (.ite (State.orderToPort_keeps s _ _) (.refl s))
  · exact .next (.refl s)

theorem execSwWindowEnd_keeps (w : ArmWindow) (s : State) : AnswerKeeps s (execSwWindowEnd w s) := by
  unfold execSwWindowEnd
  extract_lets n a b a1 s1
  have h1 : Keeps s s1 := .ite (State.integrity_keeps s _) (.refl s)
  exact .ite (.next (.after (State.wr_keeps _ _ _) (.after (State.setAe_keeps s1 _ _) h1))) (.next (.refl s))

theorem State.aeCellCmd_keeps (s : State) (n : Nat) (v : Word) : Keeps s (s.aeCellCmd n v) := by
  unfold State.aeCellCmd
  extract_lets a act i
  exact .ite (.refl s) (.ite (State.setBit_keeps s _ _) (State.setAe_keeps s n _))

theorem execCellLatchOut_keeps (n : Fin 12) (i : Fin 1024) (s : State) : AnswerKeeps s (execCellLatchOut n i s) := by
  unfold execCellLatchOut
  extract_lets v
  exact .via (fun t => .after (State.aeCellCmd_keeps _ _ v) (State.wrPair_keeps t _ v))

theorem execCellRelease_keeps (n : Fin 12) (i : Fin 1024) (s : State) : AnswerKeeps s (execCellRelease n i s) := by
  unfold execCellRelease
  extract_lets v
  exact .via (fun t => .after (State.aeCellCmd_keeps _ _ v) (State.wrPair_keeps t _ v))

theorem State.aeCntClr_keeps (s : State) (n : Nat) : Keeps s (s.aeCntClr n) := State.clearAll_keeps s _
theorem execAeCntClr_keeps (n : Fin 12) (s : State) : AnswerKeeps s (execAeCntClr n s) :=
  .via (fun t => State.aeCntClr_keeps t _)

/-! ## The hub tree below an arm port -/

theorem State.queueCtrl_keeps (s : State) (n : Nat) (c : Ctrl) : Keeps s (s.queueCtrl n c) := by
  unfold State.queueCtrl
  extract_lets x
  exact State.setPort_keeps s n _

theorem State.calFail_keeps (s : State) (n code idx : Nat) : Keeps s (s.calFail n code idx) := by
  unfold State.calFail
  extract_lets _ s1
  have h1 : Keeps s s1 := State.setPort_keeps s n _
  exact .after (State.raise_keeps _ _) (.after (State.wr_keeps s1 _ _) h1)

theorem State.calStart_keeps (s : State) (n : Nat) : Keeps s (s.calStart n) := by
  unfold State.calStart
  extract_lets x
  exact .ite (.after (State.queueCtrl_keeps _ n _) (State.setPort_keeps s n _)) (State.setPort_keeps s n _)

theorem State.calEcho_keeps (s : State) (n : Nat) : Keeps s (s.calEcho n) := by
  unfold State.calEcho
  extract_lets x idle send
  have hSend : ∀ i, Keeps s (send i) := fun i => State.queueCtrl_keeps s n _
  split
  · refine .ite ?_ (.refl s)
    split
    · exact hSend _
    · exact .refl s
  · refine .ite ?_ (.refl s)
    split
    · exact hSend _
    · exact .refl s
  · exact .refl s

theorem State.calAlign_keeps (s : State) (n : Nat) : Keeps s (s.calAlign n) := by
  unfold State.calAlign
  extract_lets x al
  exact State.setPort_keeps s n _

theorem State.calFinish_keeps (s : State) (n : Nat) : Keeps s (s.calFinish n) := by
  unfold State.calFinish
  extract_lets x l
  split
  · exact State.calFail_keeps s n _ _
  · exact .ite (State.setPort_keeps s n _) (State.calFail_keeps s n _ _)

theorem State.recalNext_keeps (s : State) (n h : Nat) : Keeps s (s.recalNext n h) := by
  unfold State.recalNext
  extract_lets x l s1
  have h1 : Keeps s s1 := State.setPort_keeps s n _
  exact .ite (State.setPort_keeps s n _) (.after (State.raiseIf_keeps s1 _ _) h1)

theorem State.recalEcho_keeps (s : State) (n h d : Nat) : Keeps s (s.recalEcho n h d) := by
  unfold State.recalEcho
  extract_lets x l
  split
  · exact State.recalNext_keeps s n h
  · extract_lets change top x1 msg
    exact .ite (.after (State.recalNext_keeps _ n h) (.after (State.raise_keeps _ _) (State.setBit_keeps s _ _)))
      (.ite (State.recalNext_keeps s n h) (.after (State.recalNext_keeps _ n h)
      (.after (State.queueCtrl_keeps _ n msg) (State.setPort_keeps s n x1))))

theorem State.calEchoDone_keeps (s : State) (n : Nat) (d : Option Nat) : Keeps s (s.calEchoDone n d) := by
  unfold State.calEchoDone
  extract_lets _ x s1
  have h1 : Keeps s s1 := State.setPort_keeps s n x
  split
  · split
    · exact h1
    · extract_lets _ s2
      have h2 : Keeps s s2 := .after (State.setPort_keeps s1 n _) h1
      exact .ite h2 (.after (State.calAlign_keeps s2 n) h2)
  · exact .after (State.calFail_keeps s1 n _ _) h1
  · exact .after (State.recalEcho_keeps s1 n _ _) h1
  · exact .after (State.recalNext_keeps s1 n _) h1
  · exact h1

theorem State.noteAbsent_keeps (s : State) (n : Nat) (absent : List Nat) : Keeps s (s.noteAbsent n absent) :=
  .ite (.after (State.raiseOnce_keeps _ _) (State.setBit_keeps s _ _)) (.refl s)

theorem State.censusTaken_keeps (s : State) (n : Nat) (recs : List CensusRec) : Keeps s (s.censusTaken n recs) := by
  unfold State.censusTaken
  extract_lets par _ s1
  have h1 : Keeps s s1 := .after (State.wr_keeps _ _ _) (State.setPort_keeps s n _)
  split
  · exact .after (State.calFail_keeps _ n _ _) (.after (State.setPort_keeps s1 n _) h1)
  · extract_lets s2 s3
    have h2 : Keeps s s2 := .after (State.setPort_keeps s1 n _) h1
    have h3 : Keeps s s3 := .after (State.wr_keeps s2 _ _) h2
    exact .after (State.queueCtrl_keeps _ n _)
      (.after (State.noteAbsent_keeps _ n _) (.after (State.aeCensus_keeps s3 n) h3))

/-! ## The lanes of an arm port or of X13 -/

theorem State.advanceVt_keeps (s : State) (t : BitVec 64) : Keeps s (s.advanceVt t) := State.elapse_keeps s _
theorem State.laneRest_keeps (s : State) (p : Nat) (x : Lane) (st : LaneSt) : Keeps s (s.laneRest p x st) :=
  State.setLane_keeps s p _

theorem State.laneTrain_keeps (s : State) (p : Nat) : Keeps s (s.laneTrain p) := by
  unfold State.laneTrain
  extract_lets _ x
  exact .after (State.addField_keeps _ _ _ _ _) (.after (State.clrBit_keeps _ _ _) (State.setLane_keeps s p x))

theorem State.laneFail_keeps (s : State) (p : Nat) (code : BitVec 8) : Keeps s (s.laneFail p code) := by
  unfold State.laneFail
  extract_lets _ x
  exact .after (State.raise_keeps _ _) (.after (State.setBit_keeps _ _ _)
    (.after (State.addField_keeps _ _ _ _ _) (State.laneRest_keeps s p x _)))

theorem State.portSurrender_keeps (s : State) (p : Nat) : Keeps s (s.portSurrender p) :=
  .ite (State.surrender_keeps s _ p) (.refl s)

theorem State.leaveData_keeps (s : State) (p : Nat) : Keeps s (s.leaveData p) :=
  .ite (.after (State.ill_keeps _) (.after (State.portSurrender_keeps _ p)
    (.after (State.clrBit_keeps _ _ _) (State.setPort_keeps s p _)))) (State.ill_keeps s)

theorem State.portFault_keeps (s : State) (p i : Nat) : Keeps s (s.portFault p i) := by
  unfold State.portFault
  extract_lets x x1
  exact .after (State.leaveData_keeps _ p) (.after (State.raise_keeps _ _) (State.laneRest_keeps s p x1 _))

theorem State.notePhase_keeps (s : State) (p err : Nat) : Keeps s (s.notePhase p err) := State.setField_keeps s _ _ _ _

theorem State.loseLock_keeps (s : State) (p : Nat) (c : LolCause) : Keeps s (s.loseLock p c) := by
  unfold State.loseLock
  extract_lets x x1 s1 s2
  have h1 : Keeps s s1 := .after (State.setBitIf_keeps _ _ _ _) (State.setLane_keeps s p x1)
  have h2 : Keeps s s2 := .after (State.laneFail_keeps s1 p _) h1
  exact .ite (.after (State.portFault_keeps _ p _) (.after (State.addField_keeps s1 _ _ _ _) h1))
    (.ite (.after (State.raise_keeps _ _) (.after (State.setLane_keeps _ p _)
    (.after (State.addField_keeps s1 _ _ _ _) h1))) (.ite (.after (State.setLane_keeps s2 p _) h2) h1))

theorem State.laneNext_keeps (s : State) (p : Nat) : Keeps s (s.laneNext p) := by
  unfold State.laneNext
  extract_lets x y d
  exact State.setLane_keeps s p _

theorem State.laneTry_keeps (s : State) (p : Nat) : Keeps s (s.laneTry p) := by
  unfold State.laneTry
  extract_lets x
  exact .ite (State.laneNext_keeps s p) (.refl s)

theorem State.txOn_keeps (s : State) (p : Nat) : Keeps s (s.txOn p) := by
  unfold State.txOn
  extract_lets x s1
  have h1 : Keeps s s1 := State.laneRest_keeps s p x _
  exact .ite (.ite (.after (State.laneTrain_keeps s1 p) h1) h1) (.refl s)

theorem State.txOff_keeps (s : State) (p : Nat) : Keeps s (s.txOff p) := by
  unfold State.txOff
  extract_lets x s1
  have h1 : Keeps s s1 := State.laneRest_keeps s p _ _
  exact .ite (.refl s) (.ite (.after (State.leaveData_keeps s1 p) h1) h1)

theorem State.trainReq_keeps (s : State) (p : Nat) : Keeps s (s.trainReq p) := by
  unfold State.trainReq
  extract_lets x reg
  exact .ite (.ite (.after (State.laneTrain_keeps _ p) (State.leaveData_keeps s p))
    (.after (State.setBit_keeps _ _ _) (State.clrBit_keeps s reg _)))
    (.ite (State.clrBit_keeps s reg _) (.ite (State.setBit_keeps s reg _) (State.laneTrain_keeps s p)))

theorem State.laneCtl_keeps (s : State) (p : Nat) (v : Word) : Keeps s (s.laneCtl p v) := by
  unfold State.laneCtl
  extract_lets reg old x s1 s2 s3 s4
  have h1 : Keeps s s1 := State.wr_keeps s reg _
  have h2 : Keeps s s2 := .ite (.after (State.setLane_keeps s1 p _) h1) h1
  have h3 : Keeps s s3 := .ite (.after (State.txOff_keeps s2 p) h2) (.ite (.after (State.txOn_keeps s2 p) h2) h2)
  have h4 : Keeps s s4 := .ite (.after (State.laneTrain_keeps s3 p) h3) h3
  exact .ite (.after (State.trainReq_keeps s4 p) h4) h4

theorem State.setStage_keeps (s : State) (k : Nat) : Keeps s (s.setStage k) := .parts (.refl s)
theorem State.stageFourDone_keeps (s : State) : Keeps s s.stageFourDone := .ite (State.setStage_keeps s _) (.refl s)
theorem State.laneCntClr_keeps (s : State) (p : Nat) : Keeps s (s.laneCntClr p) := State.clearAll_keeps s _

/-! ## Sending control messages and taking their answers (R162 to R177, R187 to R192) -/

theorem State.ctlEnd_keeps (s : State) (n bit : Nat) : Keeps s (s.ctlEnd n bit) :=
  .after (State.setBit_keeps _ _ bit) (.after (State.clrBit_keeps _ _ _) (State.setPort_keeps s n _))

theorem State.ctrlOut_keeps (s : State) (n : Nat) (w : Ctrl) (rest : List Ctrl) : Keeps s (s.ctrlOut n w rest) := by
  unfold State.ctrlOut
  extract_lets c t s0 x x1 s1 out
  have h0 : Keeps s s0 := State.lineNote_keeps s n
  have h1 : Keeps s s1 := .ite (.after (State.clrBit_keeps _ _ _) (.after (State.setPort_keeps s0 n x1) h0))
    (.after (State.setPort_keeps s0 n x1) h0)
  split
  · exact .after (State.setPort_keeps s1 n _) h1
  · exact .ite (.after (State.calFinish_keeps s1 n) h1) h1
  · exact .after (State.setPort_keeps s1 n _) h1
  · exact .after (State.setPort_keeps s1 n _) h1
  · exact .after (State.ctlEnd_keeps _ n _) (.after (State.setPort_keeps s1 n _) h1)
  · exact .after (State.setPort_keeps s1 n _) h1
  · exact .after (State.ctlEnd_keeps s1 n _) h1
  · exact h1

theorem execCtrlBlockSend_keeps (p : Fin 12) (s : State) : AnswerKeeps s (execCtrlBlockSend p s) := by
  unfold execCtrlBlockSend
  extract_lets x t
  split
  · exact .next (.refl s)
  · exact .ite (.next (.refl s)) (.ite (.next (.after (State.ctlEnd_keeps _ _ _) (State.setPort_keeps s _ _)))
      (.next (.after (State.ctrlOut_keeps _ _ _ _) (State.advanceTo_keeps s t))))

theorem State.ctlReq_keeps (s : State) (n : Nat) (v : Word) : Keeps s (s.ctlReq n v) := by
  unfold State.ctlReq
  extract_lets op s1 c s2
  have h1 : Keeps s s1 := State.wr_keeps s _ _
  have h2 : Keeps s s2 := .ite (.after (State.clrBit_keeps s1 _ _) h1) h1
  exact .ite h1 (.ite (.after (State.setBit_keeps s1 _ _) h1)
    (.ite (.after (State.setBit_keeps s1 _ _) h1)
    (.ite (.after (State.setBit_keeps s1 _ _) h1)
    (.after (State.queueCtrl_keeps _ n c) (.after (State.setPort_keeps _ n _)
    (.after (State.setBit_keeps s2 _ _) h2))))))

theorem execEchoRequest_keeps (p : Fin 12) (s : State) : AnswerKeeps s (execEchoRequest p s) :=
  .via (fun t => State.ctlReq_keeps t _ _)
theorem execSnapRequest_keeps (p : Fin 12) (s : State) : AnswerKeeps s (execSnapRequest p s) :=
  .via (fun t => State.ctlReq_keeps t _ _)
theorem execBarrierRequest_keeps (p : Fin 12) (s : State) : AnswerKeeps s (execBarrierRequest p s) :=
  .via (fun t => State.ctlReq_keeps t _ _)
theorem execResetRequest_keeps (p : Fin 12) (s : State) : AnswerKeeps s (execResetRequest p s) :=
  .via (fun t => State.ctlReq_keeps t _ _)

theorem execEchoResponse_keeps (p : Fin 12) (target : BitVec 24) (seq : BitVec 8) (ui : Fin 32) (s : State) :
    AnswerKeeps s (execEchoResponse p target seq ui s) := by
  unfold execEchoResponse
  extract_lets x d
  split
  · exact .next (State.calEchoDone_keeps s _ _)
  · exact .next (.after (State.ctlEnd_keeps _ _ _) (.after (State.wr_keeps _ _ _) (State.setPort_keeps s _ _)))
  · exact .next (.refl s)

theorem execEchoTimeout_keeps (p : Fin 12) (s : State) : AnswerKeeps s (execEchoTimeout p s) := by
  unfold execEchoTimeout
  extract_lets x late
  have hLate : ∀ e, Keeps s (late e) := fun e => .after (State.setBit_keeps _ _ _) (State.advanceTo_keeps s _)
  split
  · exact .next (.refl s)
  · refine .ite ?_ (.next (.after (State.calEchoDone_keeps _ _ _) (hLate _)))
    extract_lets s1
    have h1 : Keeps s s1 := .after (State.clrBit_keeps _ _ _) (hLate _)
    exact .next (.after (State.setPort_keeps s1 _ _) h1)

theorem execCensusResponse_keeps (p : Fin 12) (recs : List CensusRec) (s : State) :
    AnswerKeeps s (execCensusResponse p recs s) :=
  .ite (.next (State.censusTaken_keeps s _ recs)) (.next (.refl s))

theorem execCensusTimeout_keeps (p : Fin 12) (s : State) : AnswerKeeps s (execCensusTimeout p s) := by
  unfold execCensusTimeout
  extract_lets x s1
  have h1 : Keeps s s1 := .after (State.wr_keeps _ _ _) (State.advanceTo_keeps s _)
  exact .ite (.next (.after (State.calFail_keeps _ _ _ _) (.after (State.setPort_keeps s1 _ _) h1))) (.next (.refl s))

theorem execCensusRetry_keeps (p : Fin 12) (s : State) : AnswerKeeps s (execCensusRetry p s) := by
  unfold execCensusRetry
  extract_lets x
  exact .ite (.next (.after (State.calStart_keeps _ _) (State.advanceTo_keeps s _))) (.next (.refl s))

theorem execBarrierResponse_keeps (p : Fin 12) (id nack : BitVec 8) (s : State) :
    AnswerKeeps s (execBarrierResponse p id nack s) := by
  unfold execBarrierResponse
  split
  · exact .next (.refl s)
  · exact .ite (.next (.after (State.ctlEnd_keeps _ _ _) (.after (State.wr_keeps _ _ _) (State.setPort_keeps s _ _))))
      (.next (.refl s))

theorem execBarrierTimeout_keeps (p : Fin 12) (s : State) : AnswerKeeps s (execBarrierTimeout p s) := by
  unfold execBarrierTimeout
  split
  · exact .next (.refl s)
  · extract_lets s1
    have h1 : Keeps s s1 := .after (State.setBit_keeps _ _ _) (State.advanceTo_keeps s _)
    exact .next (.after (State.setPort_keeps s1 _ _) h1)

theorem execSnapshotResponse_keeps (p : Fin 12) (index : BitVec 8) (body : BitVec 460) (s : State) :
    AnswerKeeps s (execSnapshotResponse p index body s) := by
  unfold execSnapshotResponse
  extract_lets x
  exact .ite (.next (State.setPort_keeps s _ _)) (.next (.refl s))

theorem execRecalRound_keeps (p : Fin 12) (s : State) : AnswerKeeps s (execRecalRound p s) := by
  unfold execRecalRound
  extract_lets x
  exact .ite (.next (.after (State.calEcho_keeps _ _) (State.setPort_keeps s _ _))) (.next (.refl s))

theorem State.frmCntClr_keeps (s : State) (n : Nat) : Keeps s (s.frmCntClr n) := State.clearAll_keeps s _
theorem execPrtFrmCntClr_keeps (p : Fin 12) (s : State) : AnswerKeeps s (execPrtFrmCntClr p s) :=
  .via (fun t => State.frmCntClr_keeps t _)

/-! ## The capture of the Gust recorder -/

theorem State.gstBegin_keeps (s : State) : Keeps s s.gstBegin := by
  unfold State.gstBegin
  extract_lets go
  exact .ite (.parts (.refl s)) (.refl s)

theorem State.gstPlane_keeps (s : State) (bad : List (Nat × Nat)) : Keeps s (s.gstPlane bad) := by
  unfold State.gstPlane
  split
  · exact .refl s
  · refine .ite ?_ (.refl s)
    extract_lets ports reps hits body miss _ s1 s2
    have h1 : Keeps s s1 := .parts (.refl s)
    have h2 : Keeps s s2 := .after (State.wr_keeps s1 _ _) h1
    exact .ite h2 (.after (State.integrity_keeps s2 _) h2)

theorem State.gstShowTrig_keeps (s : State) (t : BitVec 32) (vt : BitVec 64) (src : Nat) :
    Keeps s (s.gstShowTrig t vt src) :=
  .after (State.wr_keeps _ _ _) (.after (State.wr_keeps _ _ _) (.after (State.wr_keeps _ _ _) (State.wr_keeps s _ t)))

theorem State.gstTrigger_keeps (s : State) (t : BitVec 32) (vt : BitVec 64) (src : Nat) (last : BitVec 32)
    (remote : Bool) :
    Keeps s (s.gstTrigger t vt src last remote) := by
  unfold State.gstTrigger
  extract_lets entered _ s1
  have h1 : Keeps s s1 := .parts (.refl s)
  exact .after (State.gstShowTrig_keeps _ t vt src) (.after (State.setBitIf_keeps s1 entered _ _) h1)

theorem State.gstFire_keeps (s : State) (r : GstPer) (src : Nat) : Keeps s (s.gstFire r src) := by
  unfold State.gstFire
  refine .ite (.refl s) ?_
  refine .ite (State.setBit_keeps s _ _) ?_
  extract_lets s1
  have h1 : Keeps s s1 := State.gstTrigger_keeps s _ _ src _ _
  exact .ite (.after (State.sendGust_keeps s1 _ _) h1) h1

theorem State.gstEnd_keeps (s : State) : Keeps s s.gstEnd := .after (State.setBit_keeps _ _ _) (.parts (.refl s))

theorem State.gstCfgStop_keeps (s : State) : Keeps s s.gstCfgStop := by
  unfold State.gstCfgStop
  refine .ite ?_ (.refl s)
  extract_lets g s1
  have h1 : Keeps s s1 := .after (State.setBit_keeps _ _ _) (.parts (.refl s))
  exact .ite (.after (State.gstEnd_keeps s1) h1) h1

theorem State.gstMark_keeps (s : State) (sched p : Bool) : Keeps s (s.gstMark sched p) := by
  unfold State.gstMark
  extract_lets live
  exact .parts (.refl s)

end Sys2Proof.Machine
end

section
/-! What the report streams, the emit phase, the loop engines and the configuration keep: the canonical form of the
tables, and the commands that wait. -/

namespace Sys2Proof.Machine

open Sys2Proof.Safety

/-! ## Up blocks, the report stream and fast protection on it (R118 to R152, R263, R288 to R292) -/

theorem State.setCmpr_keeps (s : State) (i : Nat) (x : Cmpr) : Keeps s (s.setCmpr i x) := .parts (.refl s)

theorem State.cmpFire_keeps (s : State) (i : Nat) : Keeps s (s.cmpFire i) := by
  unfold State.cmpFire
  extract_lets s1
  have h1 : Keeps s s1 := .after (State.blockFrom_keeps _ _)
    (.after (State.setBit_keeps _ _ _) (State.setBit_keeps s _ _))
  exact .ite (.after (State.raise_keeps s1 _) h1) (.after (State.raiseOnce_keeps s1 _) h1)

theorem State.cmpSample_keeps (s : State) (uv : Bool) (i : Nat) (x : Option (BitVec 32)) :
    Keeps s (s.cmpSample uv i x) := by
  unfold State.cmpSample
  extract_lets c armed s1
  have h1 : Keeps s s1 := State.setCmpr_keeps s i _
  split
  · exact .ite (.after (State.raiseOnce_keeps _ _) (.after (State.setBit_keeps s1 _ _) h1)) h1
  · refine .ite (State.setCmpr_keeps s i _) ?_
    extract_lets run s1'
    have h1' : Keeps s s1' := State.setCmpr_keeps s i _
    exact .ite (.after (State.cmpFire_keeps s1' i) h1') h1'

theorem State.chanSample_keeps (s : State) (uv : Bool) (c : Nat) (raw : Option (BitVec 16)) :
    Keeps s (s.chanSample uv c raw) :=
  .foldl _ _ (fun t i => .ite (State.cmpSample_keeps t uv i _) (.refl t)) _

theorem State.nodeSample_keeps (s : State) (uv : Bool) (p i : Nat)
    (e : Option (BitVec 16 × BitVec 16 × BitVec 16 × BitVec 16)) :
    Keeps s (s.nodeSample uv p i e) := by
  unfold State.nodeSample
  extract_lets c
  split <;> exact .after (State.chanSample_keeps _ uv _ _)
    (.after (State.chanSample_keeps _ uv _ _) (.after (State.chanSample_keeps _ uv _ _)
    (State.chanSample_keeps s uv c _)))

theorem State.sendNodes_keeps (s : State) (p : Nat) (pc : BitVec 32) : Keeps s (s.sendNodes p pc) :=
  State.sendCues_keeps s _ _ _

theorem State.nodesIn_keeps (s : State) (p : Nat) (pc : BitVec 32) : Keeps s (s.nodesIn p pc) := by
  unfold State.nodesIn
  extract_lets uv u
  have hU : Keeps s u := by
    unfold u
    refine .foldl _ _ (fun t i => ?_) _
    extract_lets x key t1
    have hT1 : Keeps t t1 := State.setPort_keeps t p _
    split
    · exact .ite (.refl t) (.ite (.after (State.nodeSample_keeps t1 uv p i _) hT1) hT1)
    · exact .refl t
  exact .ite (.after (State.sendNodes_keeps u p pc) hU) hU

theorem State.rptTake_keeps (s : State) (p i : Nat) (pc : BitVec 32) (body : BitVec 460) :
    Keeps s (s.rptTake p i pc body) := by
  unfold State.rptTake
  extract_lets x s1
  have h1 : Keeps s s1 := State.setPort_keeps s p _
  exact .ite h1 (.after (State.nodesIn_keeps s1 p pc) h1)

theorem execRptBlockReceive_keeps (p : Fin 12) (tag : BitVec 12) (body : BitVec 460) (s : State) :
    AnswerKeeps s (execRptBlockReceive p tag body s) := by
  unfold execRptBlockReceive
  extract_lets pc
  exact .ite (.next (.refl s)) (.ite (.next (State.rptTake_keeps s _ _ pc body))
    (.next (.after (State.setBit_keeps _ _ _) (State.bump_keeps s _))))

theorem State.blockDisc_keeps (s : State) (p : Nat) : Keeps s (s.blockDisc p) :=
  .after (State.setBit_keeps _ _ _) (.after (State.bump_keeps _ _) (State.setPort_keeps s p _))

theorem execUpBlockReceive_keeps (p : Fin 13) (d : UpSymbols) (s : State) :
    AnswerKeeps s (execUpBlockReceive p d s) := by
  unfold execUpBlockReceive
  extract_lets v x block s1
  have h1 : Keeps s s1 := .after (State.setPort_keeps _ _ _) (State.setLane_keeps s _ _)
  exact .ite (.next (.refl s)) (.next (.ite h1 (.after (State.blockDisc_keeps s1 _) h1)))

theorem State.portIntake_keeps (s : State) (p : Nat) : Keeps s (s.portIntake p) := by
  unfold State.portIntake
  refine .ite ?_ (.refl s)
  extract_lets x c pc whole kept all got reps broken want miss nodes late absent mine s1 s1a s1b s2
  have h1 : Keeps s s1 := State.setPort_keeps s p _
  have h1a : Keeps s s1a := .after (State.sendCues_keeps s1 _ _ _) h1
  have h1b : Keeps s s1b := .ite h1a (.after (State.sendNodes_keeps s1a p pc) h1a)
  have h2 : Keeps s s2 := .ite (.after (State.integrity_keeps s1b _) h1b) h1b
  exact .ite (.after (.foldl _ _ (fun t i => State.nodeSample_keeps t _ p i _) _) h2) h2

theorem State.sumsBreak_keeps (s : State) (n : Nat) : Keeps s (s.sumsBreak n) := by
  unfold State.sumsBreak
  extract_lets x
  exact .parts (.refl s)

theorem execIntakeEnd_keeps (bad : IntakeDamage) (s : State) : AnswerKeeps s (execIntakeEnd bad s) := by
  unfold execIntakeEnd
  refine .ite (.next (.refl s)) ?_
  extract_lets s1 _ s2
  have h1 : Keeps s s1 := State.advanceTo_keeps s _
  have h2 : Keeps s s2 := .after (.foldl _ _ State.portIntake_keeps _) (.parts h1)
  exact .next (.after (.foldl _ _ (fun t _ => State.sumsBreak_keeps t _) _)
    (.after (State.gstPlane_keeps _ _) (.after (.foldl _ _ State.aeIntake_keeps _) h2)))

/-! ## What an arm port decides and sends -/

theorem State.portDeblock_keeps (s : State) (p : Nat) : Keeps s (s.portDeblock p) := by
  unfold State.portDeblock
  extract_lets x s1
  have h1 : Keeps s s1 := .after (State.wr_keeps _ _ _) (State.setPort_keeps s p _)
  exact .ite (.ite (.after (State.setAe_keeps s1 p _) h1) h1) (.refl s)

theorem State.withhold_keeps (s : State) (p : Nat) : Keeps s (s.withhold p) := by
  unfold State.withhold
  extract_lets s1 x
  have h1 : Keeps s s1 := State.addField_keeps s _ _ _ _
  split <;> exact .after (State.setBit_keeps _ _ _) (.after (State.setPort_keeps s1 p _) h1)

theorem State.portAudit_keeps (s : State) (p : Nat) (residue : Bool) : Keeps s (s.portAudit p residue) := by
  unfold State.portAudit
  extract_lets x r0 r s0 s1 _ s2
  have h0 : Keeps s s0 := .ite (State.integrity_keeps s _) (.refl s)
  have h1 : Keeps s s1 := .after (State.wr_keeps s0 _ _) h0
  have h2 : Keeps s s2 := .after (State.bump_keeps _ _) (.after (State.setBits_keeps s1 _ _) h1)
  split
  · exact .after (State.wr_keeps _ _ _) (.after (State.wr_keeps _ _ _) (.after (State.setPort_keeps s1 p _) h1))
  · exact .after (State.withhold_keeps _ p) (.after (State.raise_keeps s2 _) h2)

theorem State.portMisses_keeps (s : State) (p : Nat) : Keeps s (s.portMisses p).2 := by
  unfold State.portMisses
  extract_lets x noCmds noLam s1 s2 missed s3
  have h1 : Keeps s s1 := .ite (State.declareMiss_keeps s _ _ _ _) (.refl s)
  have h2 : Keeps s s2 := .ite (.after (State.declareMiss_keeps s1 _ _ _ _) h1) h1
  have h3 : Keeps s s3 := .after (State.raiseOnce_keeps _ _) (.after (State.addField_keeps s2 _ _ _ _) h2)
  exact .iteSnd (.parts h3) h2

theorem State.portDecide_keeps (s : State) (p : Nat) (residue : Bool) : Keeps s (s.portDecide p residue) := by
  unfold State.portDecide
  extract_lets m s1 _ s2
  have h1 : Keeps s s1 := State.portMisses_keeps s p
  have h2 : Keeps s s2 := .after (State.portDeblock_keeps s1 p) h1
  exact .ite (.after (State.setPort_keeps s1 p _) h1)
    (.ite (.after (State.withhold_keeps s2 p) h2) (.after (State.portAudit_keeps s2 p residue) h2))

theorem execPortDueTick_keeps (p : Fin 12) (residue : Bool) (s : State) :
    AnswerKeeps s (execPortDueTick p residue s) := by
  unfold execPortDueTick
  refine .ite (.next (.refl s)) ?_
  extract_lets s1 _ s2
  have h1 : Keeps s s1 := State.advanceTo_keeps s _
  have h2 : Keeps s s2 := .after (State.setPort_keeps s1 _ _) h1
  exact .next (.ite (.after (State.portDecide_keeps s2 _ residue) h2) h2)

theorem State.sendFrame_keeps (s : State) (p : Nat) (kind : SendKind) (cs : CmdSet) :
    Keeps s (s.sendFrame p kind cs) := by
  unfold State.sendFrame
  extract_lets s0 x f
  have h0 : Keeps s s0 := State.lineNote_keeps s p
  exact .after (State.setPort_keeps s0 p _) h0

theorem execMarginStart_keeps (p : Fin 12) (s : State) : AnswerKeeps s (execMarginStart p s) := by
  unfold execMarginStart
  refine .ite (.next (.refl s)) ?_
  extract_lets s1
  have h1 : Keeps s s1 := State.advanceTo_keeps s _
  exact .next (.after (State.setPort_keeps s1 _ _) h1)

theorem execCommandsResume_keeps (p : Fin 12) (s : State) : AnswerKeeps s (execCommandsResume p s) := by
  unfold execCommandsResume
  extract_lets x s1
  have h1 : Keeps s s1 := State.setPort_keeps s _ _
  exact .ite (.next (.ite (.after (State.setAe_keeps s1 _ _) h1) h1)) (.next (.refl s))

theorem execPrtAudClr_keeps (p : Fin 12) (s : State) : AnswerKeeps s (execPrtAudClr p s) :=
  .via (fun t => State.wr_keeps t _ _)

/-! ## The loop engines -/

theorem State.leSettle_keeps (s : State) (e : Nat) : Keeps s (s.leSettle e) := State.setLe_keeps s e _

theorem State.leIntegrity_keeps (s : State) (e : Nat) : Keeps s (s.leIntegrity e) :=
  .after (State.raise_keeps _ _) (.after (State.setBit_keeps _ _ _)
    (.after (State.setBit_keeps _ _ _) (State.bump_keeps s _)))

theorem State.leNumeric_keeps (s : State) (e : Nat) : Keeps s (s.leNumeric e) :=
  .after (State.raiseOnce_keeps _ _) (.after (State.setBit_keeps _ _ _) (State.bump_keeps s _))

theorem State.measMiss_keeps (s : State) (ch run : Nat) : Keeps s (s.measMiss ch run) := by
  unfold State.measMiss
  refine .ite (.refl s) ?_
  extract_lets _ s1
  have h1 : Keeps s s1 := .ite (.after (State.setBit_keeps _ _ _)
    (.after (State.setField_keeps _ _ _ _ ch) (.parts (.refl s)))) (.refl s)
  exact .after (State.raiseOnce_keeps s1 _) h1

theorem State.measIn_keeps (s : State) (e : Nat) (par st : List (BitVec 32)) : Keeps s (s.measIn e par st).2 := by
  unfold State.measIn
  extract_lets ch _ run s1
  have h1 : Keeps s s1 := .ite (.refl s) (State.leIntegrity_keeps s e)
  split
  · split
    · exact .parts (.refl s)
    · exact .after (State.measMiss_keeps s1 ch run) h1
  · exact State.measMiss_keeps s ch run

theorem State.lvlOut_keeps (s : State) (e : Nat) (a : LaneIn) : Keeps s (s.lvlOut e a).2 := by
  unfold State.lvlOut
  extract_lets n lim u v i cnt q r lam s1
  have h1 : Keeps s s1 := .ite (State.bump_keeps s _) (.refl s)
  exact .iteSnd (.refl s) (.iteSnd (State.leNumeric_keeps s e) (.parts h1))

theorem State.eddyRead_keeps (s : State) (e a : Nat) : Keeps s (s.eddyRead e a).2 := by
  unfold State.eddyRead
  extract_lets x
  exact .iteSnd (.refl s) (.after (State.raise_keeps _ _) (State.bump_keeps s _))

theorem State.eddyWrite_keeps (s : State) (a : Nat) (v : BitVec 32) : Keeps s (s.eddyWrite a v) := .parts (.refl s)

theorem State.eddyLearnAt_keeps (s : State) (e a : Nat) (c : EddyCh) (wgt er : BitVec 32) :
    Keeps s (s.eddyLearnAt e a c wgt er) := by
  unfold State.eddyLearnAt
  extract_lets r
  exact .after (State.eddyWrite_keeps _ a _) (State.eddyRead_keeps s e a)

theorem State.eddyRun_keeps (s : State) (e : Nat) (a : LaneIn) : Keeps s (s.eddyRun e a).2 := by
  unfold State.eddyRun
  extract_lets ch c er th w gate nb x r0 r i f b0 b1 y0 s1 past y s2 k g t1 t2 _ s3
  have h1 : Keeps s s1 := .after (State.eddyRead_keeps _ e _) (State.eddyRead_keeps s e _)
  have h2 : Keeps s s2 := .ite (.after (State.bump_keeps s1 _) h1) h1
  have hT1 : Keeps s t1 := .after (State.eddyLearnAt_keeps s2 e _ c _ _) h2
  have hT2 : Keeps s t2 := .after (State.eddyLearnAt_keeps t1 e _ c g _) hT1
  have h3 : Keeps s s3 := .ite (.parts hT2) h2
  exact .iteSnd (.refl s) (.iteSnd (.after (State.leNumeric_keeps s1 e) h1) h3)

theorem State.profRun_keeps (s : State) (a : LaneIn) (dt : BitVec 32) : Keeps s (s.profRun a dt).2 := by
  unfold State.profRun
  extract_lets ch c i hold r one arrived moving
  exact .ite (.refl s) (.parts (.refl s))

theorem State.statOut_keeps (s : State) (i : Nat) (v : BitVec 32) (held : Bool) : Keeps s (s.statOut i v held) :=
  .parts (.refl s)
theorem State.traceOut_keeps (s : State) (ch : Nat) (v : BitVec 32) (held : Bool) : Keeps s (s.traceOut ch v held) :=
  .parts (.refl s)

theorem State.laneRun_keeps (s : State) (e code : Nat) (a : LaneIn) : Keeps s (s.laneRun e code a).2 := by
  unfold State.laneRun
  extract_lets par st x n o f r
  split
  · exact State.measIn_keeps s e par st
  · exact .refl s
  · exact .iteSnd (.refl s) (State.leIntegrity_keeps s e)
  · exact State.lvlOut_keeps s e a
  · exact State.eddyRun_keeps s e a
  · exact State.profRun_keeps s a _
  · exact .refl s
  · exact State.traceOut_keeps s n x _
  · exact State.statOut_keeps s n x _
  · exact .ite (State.raiseOnce_keeps s _) (.refl s)
  · exact .refl s

theorem State.laneNumeric_keeps (s : State) (e : Nat) (r : LaneOut) : Keeps s (s.laneNumeric e r).2 :=
  .iteSnd (State.leNumeric_keeps s e) (.refl s)

theorem State.statKeep_keeps (s : State) (code n : Nat) : Keeps s (s.statKeep code n) := by
  unfold State.statKeep
  refine .ite ?_ (.refl s)
  split <;> exact State.statOut_keeps s n _ _

theorem State.measLate_keeps (s : State) (e code : Nat) (c : Cue) (l : Nat) (a : LaneIn) :
    Keeps s (s.measLate e code c l a) := by
  unfold State.measLate
  refine .ite ?_ (.refl s)
  extract_lets run v x _ s1
  have h1 : Keeps s s1 := State.setLe_keeps s e _
  exact .after (State.measMiss_keeps s1 _ run) h1

theorem State.laneStore_keeps (s : State) (e : Nat) (c : Cue) (sh : BlkShape) (l : Nat) (r : LaneOut) :
    Keeps s (s.laneStore e c sh l r) := by
  unfold State.laneStore
  extract_lets x done w y
  exact State.setLe_keeps s e _

theorem State.cueLane_keeps (s : State) (e : Nat) (c : Cue) (sh : BlkShape) (run residue : Bool) (l : Nat) :
    Keeps s (s.cueLane e c sh run residue l).2 := by
  unfold State.cueLane
  extract_lets a kept n r q
  exact .iteSnd (.after (State.laneStore_keeps _ e c sh l kept)
    (.after (State.statKeep_keeps _ _ n) (State.measLate_keeps s e _ c l a)))
    (.iteSnd (.after (State.laneStore_keeps _ e c sh l kept)
    (.after (State.statKeep_keeps _ _ n) (State.leIntegrity_keeps s e)))
    (.after (State.laneStore_keeps _ e c sh l _)
    (.ite (.after (State.laneNumeric_keeps _ e _) (State.laneRun_keeps s e _ a))
    (.after (State.statKeep_keeps _ _ n) (.after (State.laneNumeric_keeps _ e _) (State.laneRun_keeps s e _ a))))))

theorem State.cueLanes_keeps (s : State) (e : Nat) (c : Cue) (sh : BlkShape) (run residue : Bool) (k : Nat)
  (all : Bool) :
    Keeps s (s.cueLanes e c sh run residue k all).2 := by
  induction k generalizing s all with
  | zero => exact .refl s
  | succ k ih => exact .after (ih _ _) (State.cueLane_keeps s e c sh run residue _)

theorem State.cueOccupy_keeps (s : State) (e : Nat) (c : Cue) (sh : BlkShape) : Keeps s (s.cueOccupy e c sh) := by
  unfold State.cueOccupy
  extract_lets x t s1
  have h1 : Keeps s s1 := State.setLe_keeps s e _
  exact .ite (State.setLe_keeps s e _) (.ite (.parts h1) h1)

theorem State.cueSlack_keeps (s : State) (e i : Nat) (c : Cue) (sh : BlkShape) : Keeps s (s.cueSlack e i c sh) := by
  unfold State.cueSlack
  extract_lets x note s1 first
  have hNote : ∀ t at_, Keeps t (note t at_) := fun t at_ => State.noteSlack_keeps t _ i _
  have h1 : Keeps s s1 := by
    unfold s1
    refine .foldl _ _ (fun t j => ?_) _
    split
    · exact .foldl _ _ (fun u _ => .ite (hNote u _) (.refl u)) _
    · exact .refl t
  refine .ite ?_ ?_
  · refine .after (.foldl _ _ (fun t l => ?_) _) h1
    split
    · exact .ite (hNote t _) (.refl t)
    · exact .refl t
  · refine .ite ?_ h1
    refine .after (.foldl _ _ (fun t l => ?_) _) h1
    extract_lets k
    exact .ite (hNote t _) (.refl t)

theorem State.cueSend_keeps (s : State) (e : Nat) (c : Cue) (sh : BlkShape) : Keeps s (s.cueSend e c sh) := by
  unfold State.cueSend
  extract_lets pcLo
  split
  · extract_lets data w had
    exact .parts (.refl s)
  · exact .ite (.foldl _ _ (fun t _ => State.sendCues_keeps t _ _ pcLo) _) (.refl s)

theorem State.cueMiss_keeps (s : State) (e i kind : Nat) (c : Cue) (sh : BlkShape) :
    Keeps s (s.cueMiss e i kind c sh) := by
  unfold State.cueMiss
  extract_lets s1 s2 s3 r x t
  have h1 : Keeps s s1 := State.declareMiss_keeps s _ kind i _
  have h2 : Keeps s s2 := .ite (.after (State.addField_keeps s1 _ _ _ _) h1)
    (.after (State.addField_keeps s1 _ _ _ _) h1)
  have h3 : Keeps s s3 := .after (State.setBit_keeps _ _ _)
    (.after (State.missNotices_keeps _ _) (.after (State.setBitIf_keeps s2 _ _ _) h2))
  have hT : Keeps s t := .after (State.setLe_keeps _ e _) (.after (State.cueLanes_keeps s3 e c sh _ _ _ _) h3)
  exact .ite hT (.after (State.cueSend_keeps t e c sh) hT)

theorem State.cueBreak_keeps (s : State) (e i : Nat) : Keeps s (s.cueBreak e i) := by
  unfold State.cueBreak
  extract_lets x w
  exact State.setLe_keeps s e _

theorem State.cueRun_keeps (s : State) (e : Nat) (c : Cue) (sh : BlkShape) (residue : Bool) :
    Keeps s (s.cueRun e c sh residue) := by
  unfold State.cueRun
  extract_lets s1 r x s2
  have h1 : Keeps s s1 := State.cueOccupy_keeps s e c sh
  have h2 : Keeps s s2 := .after (State.setLe_keeps _ e _) (.after (State.cueLanes_keeps s1 e c sh _ residue _ _) h1)
  exact .after (State.cueSend_keeps s2 e c sh) h2

theorem execCueStart_keeps (e : Fin 4) (i : Fin 2048) (dmg : CueDamage) (s : State) :
    AnswerKeeps s (execCueStart e i dmg s) := by
  unfold execCueStart
  split
  · exact .next (.refl s)
  · split
    · exact .next (.refl s)
    · refine .ite (.next (.refl s)) ?_
      extract_lets s0 s1
      have h0 : Keeps s s0 := .after (State.cueSlack_keeps _ _ _ _ _)
        (.after (State.leSettle_keeps _ _) (State.advanceTo_keeps s _))
      have h1 : Keeps s s1 := .ite (.after (State.cueBreak_keeps s0 _ _) h0) h0
      exact .ite (.next (.after (State.cueMiss_keeps s1 _ _ _ _ _) h1))
        (.ite (.next (.after (State.cueMiss_keeps s1 _ _ _ _ _) h1))
        (.ite (.next (.after (State.cueMiss_keeps s1 _ _ _ _ _) h1))
        (.next (.after (State.cueRun_keeps s1 _ _ _ _) h1))))

/-! ## Putting the sections of a configuration into effect -/

theorem State.applyDev_keeps (s : State) (d : DevPar) : Keeps s (s.applyDev d) := by
  unfold State.applyDev
  extract_lets _ _ s1 s2
  have h1 : Keeps s s1 := .parts (.refl s)
  have h2 : Keeps s s2 := .after (State.wr_keeps _ _ _) (.after (State.wr_keeps s1 _ _) h1)
  exact .after (State.wr_keeps _ _ _) (.after (State.wr_keeps _ _ _) (.after (State.wr_keeps s2 _ _) h2))

theorem State.applyTopo_keeps (s : State) (t : Topo) : Keeps s (s.applyTopo t) := by
  unfold State.applyTopo
  extract_lets _ _ s1
  have h1 : Keeps s s1 := .parts (.refl s)
  exact .ite (.parts h1) h1

theorem State.applyLe_keeps (s : State) (t : ParTables) : Keeps s (s.applyLe t) := by
  unfold State.applyLe
  refine .foldl _ _ (fun u e => ?_) _
  extract_lets mem
  exact State.setLe_keeps u e _

theorem State.profLimit_keeps (s : State) (e : Nat) (c : Cue) (l : Nat) : Keeps s (s.profLimit e c l) := by
  unfold State.profLimit
  extract_lets x ch lim i hi lo v
  exact .ite (.after (State.bump_keeps _ _) (State.setLe_keeps s e _)) (.refl s)

theorem State.profLimits_keeps (s : State) : Keeps s s.profLimits :=
  .foldl _ _ (fun _ e => .foldl _ _ (fun u c => .ite (.foldl _ _ (fun w l => State.profLimit_keeps w e c l) _)
    (.refl u)) _) _

theorem State.applyIsland_keeps (s : State) (t : ParTables) (p : Nat) (commit par samePer : Bool) :
    Keeps s (s.applyIsland t p commit par samePer) := by
  unfold State.applyIsland
  extract_lets eddy mem _ s1 s2 s3 s4
  have h1 : Keeps s s1 := .parts (.refl s)
  have h2 : Keeps s s2 := .after (.foldl _ _ (fun u _ => State.wr_keeps u _ _) _) h1
  have h3 : Keeps s s3 := .after (State.setField_keeps s2 _ _ _ _) h2
  have h4 : Keeps s s4 := .after (.foldl _ _ (fun u _ => .parts (State.wrPair_keeps u _ _)) _) h3
  exact .ite (.after (State.profLimits_keeps s4) h4) h4

theorem State.applyAe_keeps (s : State) (n : Nat) (t : ParTables) : Keeps s (s.applyAe n t) := by
  unfold State.applyAe
  refine .ite ?_ (.refl s)
  extract_lets q a cells a1 same
  exact State.setAe_keeps s n _

theorem State.loadCues_keeps (s : State) : Keeps s s.loadCues :=
  .ite (.foldl _ _ (fun t e => State.setLe_keeps t e _) _) (.refl s)

theorem State.loadArms_keeps (s : State) (d : Nat) : Keeps s (s.loadArms d) := by
  unfold State.loadArms
  extract_lets t
  exact .foldl _ _ (fun u n => .ite (.after (State.aeCensus_keeps _ n)
    (.after (State.applyAe_keeps _ n t) (State.setAe_keeps u n _))) (.refl u)) _

theorem State.loadLoops_keeps (s : State) : Keeps s s.loadLoops := by
  unfold State.loadLoops
  extract_lets t s2
  have h2 : Keeps s s2 := .after (State.applyIsland_keeps _ t _ _ _ _)
    (.after (State.applyLe_keeps _ t) (State.loadCues_keeps s))
  exact .parts h2

theorem State.loadDomain_keeps (s : State) (d : Nat) : Keeps s (s.loadDomain d) := by
  unfold State.loadDomain
  refine .ite ?_ (.refl s)
  extract_lets s1
  have h1 : Keeps s s1 := .ite (State.loadLoops_keeps s) (State.loadArms_keeps s d)
  exact .parts h1

theorem State.loadEngines_keeps (s : State) : Keeps s s.loadEngines := .foldl _ _ State.loadDomain_keeps _

theorem State.applyFlt_keeps (s : State) (t : FltTable) (first : Bool) : Keeps s (s.applyFlt t first) := by
  unfold State.applyFlt
  extract_lets s1 word s2 s3 _ _ _ s4
  have h1 : Keeps s s1 := .foldl _ _ (fun u n => State.reclass_keeps u n _) _
  have h2 : Keeps s s2 := .after (.foldl _ _ (fun u _ => State.wr_keeps u _ _) _) h1
  have h3 : Keeps s s3 := .ite (.after (.foldl _ _ (fun u _ => State.wr_keeps u _ _) _) h2) h2
  have h4 : Keeps s s4 := .parts h3
  exact .after (State.settle_keeps s s4 _) h4

theorem State.recWrite_keeps (s : State) (e : Nat × Word) : Keeps s (s.recWrite e) := by
  unfold State.recWrite
  split
  · exact .ite (State.wr_keeps s _ _) (.refl s)
  · exact .refl s

theorem State.applyRecs_keeps (s : State) (l : List (Nat × Word)) : Keeps s (s.applyRecs l) :=
  .foldl _ _ State.recWrite_keeps _
theorem State.applySch_keeps (s : State) (c : SchSection) : Keeps s (s.applySch c) :=
  .after (State.loadCues_keeps _) (.after (State.wr_keeps _ _ _) (.after (State.wr_keeps _ _ _) (.parts (.refl s))))

theorem State.applyNet_keeps (s : State) (n : NetSetup) : Keeps s (s.applyNet n) := by
  unfold State.applyNet
  extract_lets _ _ s1 s2
  have h1 : Keeps s s1 := .parts (.refl s)
  have h2 : Keeps s s2 := .after (State.wr_keeps _ _ _) (.after (State.wr_keeps s1 _ _) h1)
  exact .ite (.parts h2) h1

theorem State.applySafety_keeps (s : State) (b : List Byte) : Keeps s (s.applySafety b) := .parts (.refl s)

theorem State.bootFirmware_keeps (s : State) (f : Nat × Nat × List Byte) : Keeps s (s.bootFirmware f) := by
  unfold State.bootFirmware
  extract_lets s1
  have h1 : Keeps s s1 := State.ramWrite_keeps s _ _
  exact .parts h1

theorem State.enginesOn_keeps (s : State) : Keeps s s.enginesOn := by
  unfold State.enginesOn
  refine .after (State.loadEngines_keeps _) ?_
  refine .foldl _ _ (fun t d => ?_) _
  refine .ite ?_ (.refl t)
  extract_lets u
  have hU : Keeps t u := State.domainOn_keeps t d
  exact .parts hU

/-! ## Checkpoints and LIVE transfers -/

theorem State.writeSlots_keeps (s : State) (l : List (Nat × Nat)) (b : List Byte) (off : Nat) :
    Keeps s (s.writeSlots l b off) := by
  unfold State.writeSlots
  refine .foldl _ _ (fun t q => ?_) _
  extract_lets v x
  exact State.setLe_keeps t _ _

theorem State.armsFromCkpt_keeps (s : State) (b : List Byte) (off : Nat) (tracked : Bool) :
    Keeps s (s.armsFromCkpt b off tracked) := by
  unfold State.armsFromCkpt
  refine Keeps.foldlFst _ _ (fun m n => ?_) (s, off)
  exact State.setAe_keeps m.1 n _

theorem State.restoreFrom_keeps (s : State) (b : List Byte) (tracked : Bool) : Keeps s (s.restoreFrom b tracked) := by
  unfold State.restoreFrom
  extract_lets ord _ s1 sl
  have h1 : Keeps s s1 := .parts (.refl s)
  exact .after (State.armsFromCkpt_keeps _ b _ tracked) (.after (State.writeSlots_keeps s1 sl b _) h1)

theorem State.writeLive_keeps (s : State) (b : List Byte) : Keeps s (s.writeLive b) := by
  unfold State.writeLive
  extract_lets live s1
  have h1 : Keeps s s1 := State.writeSlots_keeps s live b _
  refine .after ?_ h1
  refine Keeps.foldlFst _ _ (fun m n => ?_) (s1, _)
  exact State.setAe_keeps m.1 n _

end Sys2Proof.Machine
end

section
/-! What the operations of the twin, the key, the network, the shaft channels and start-up keep: the canonical form of
the tables, and the commands that wait. -/

namespace Sys2Proof.Machine

open Sys2Proof.Safety

/-! ## Health, claims, witnesses and the steps of a takeover or takeback (R471 to R475, R491 to R511) -/

theorem State.noteHealth_keeps (s : State) : Keeps s s.noteHealth := by
  unfold State.noteHealth
  refine .ite ?_ (State.ill_keeps s)
  split
  · exact .ite (.parts (.refl s)) (.refl s)
  · exact .parts (.refl s)

theorem State.twnFail_keeps (s : State) (code : Nat) : Keeps s (s.twnFail code) := by
  unfold State.twnFail
  extract_lets s1
  have h1 : Keeps s s1 := .after (State.setBit_keeps _ _ _)
    (.after (State.twnResult_keeps _ code) (.after (State.setLease_keeps _ _)
    (.after (State.stopFrames_keeps _) (State.dropHand_keeps s))))
  exact .after (State.raise_keeps _ _) (.parts h1)

theorem State.sendLease_keeps (s : State) (kind : Nat) (epoch : Option (BitVec 16)) :
    Keeps s (s.sendLease kind epoch) :=
  .foldl _ _ (fun t n => .ite (State.queueCtrl_keeps t n _) (.refl t)) _

theorem State.showVotes_keeps (s : State) : Keeps s s.showVotes := State.wr_keeps s _ _
theorem State.setClaim_keeps (s : State) (c : Option Claim) : Keeps s (s.setClaim c) := .parts (.refl s)
theorem State.enginesSwitch_keeps (s : State) : Keeps s s.enginesSwitch :=
  .foldl _ _ (fun t d => .ite (State.domainOn_keeps t d) (.refl t)) _

theorem State.viewEnds_keeps (s : State) : Keeps s s.viewEnds := by
  unfold State.viewEnds
  extract_lets _ s1 s2
  have h1 : Keeps s s1 := .parts (.refl s)
  have h2 : Keeps s s2 := .ite (.after (State.standDown_keeps s1) h1) h1
  exact .ite (.after (State.setClaim_keeps _ _) (.after (State.enginesSwitch_keeps s2) h2)) h2

theorem State.startTrees_keeps (s : State) : Keeps s s.startTrees :=
  .foldl _ _ (fun t n => .ite (State.calStart_keeps t n) (.refl t)) _
theorem State.learnEpoch_keeps (s : State) (e : BitVec 16) : Keeps s (s.learnEpoch e) :=
  .ite (.ite (State.setEpochs_keeps s e _) (.refl s)) (.parts (State.setEpochs_keeps s e _))

theorem State.initClaim_keeps (s : State) : Keeps s s.initClaim := by
  unfold State.initClaim
  extract_lets may s1
  have h1 : Keeps s s1 := State.setLease_keeps s _
  exact .ite (.parts h1) (.refl s)

theorem State.sendClaim_keeps (s : State) (c : Claim) (epoch : BitVec 16) : Keeps s (s.sendClaim c epoch) :=
  .after (State.setClaim_keeps _ _) (State.sendLease_keeps s _ _)

theorem State.claimNow_keeps (s : State) (c : Claim) : Keeps s (s.claimNow c) := by
  unfold State.claimNow
  extract_lets bad
  exact .ite (State.twnFail_keeps s _) (State.sendClaim_keeps s c _)

theorem State.becomeDuty_keeps (s : State) (epoch : BitVec 16) : Keeps s (s.becomeDuty epoch) := by
  unfold State.becomeDuty
  extract_lets s1
  have h1 : Keeps s s1 := .after (State.setLease_keeps _ _) (State.setEpochs_keeps s epoch _)
  exact .parts h1

theorem State.tookOver_keeps (s : State) (code bit : Nat) (began : BitVec 64) (first : BitVec 32) :
    Keeps s (s.tookOver code bit began first) := by
  unfold State.tookOver
  extract_lets s1
  have h1 : Keeps s s1 := .after (State.setBit_keeps _ _ bit) (.after (State.wr_keeps _ _ first) (State.wr_keeps s _ _))
  exact .after (State.raise_keeps _ _) (.parts h1)

theorem State.takeover_keeps (s : State) (c : Claim) : Keeps s (s.takeover c) := by
  unfold State.takeover
  extract_lets s1 _ s2
  have h1 : Keeps s s1 := .after (State.lifeUp_keeps _ _) (State.tookOver_keeps s _ _ _ _)
  have h2 : Keeps s s2 := .parts h1
  exact .ite (.after (State.deblockNow_keeps s2) h2) (.after (State.blockFrom_keeps s2 _) h2)

theorem State.claimDone_keeps (s : State) (c : Claim) : Keeps s (s.claimDone c) :=
  .ite (.after (State.startTrees_keeps _) (State.becomeDuty_keeps s _))
    (.after (State.takeover_keeps _ c) (State.becomeDuty_keeps s _))

theorem State.dropClaim_keeps (s : State) : Keeps s s.dropClaim := by
  unfold State.dropClaim
  split
  · exact .ite (.refl s) (State.standDown_keeps s)
  · exact .refl s

theorem State.confirm_keeps (s : State) (c : Claim) (p : Nat) (eMax : BitVec 16) : Keeps s (s.confirm c p eMax) := by
  unfold State.confirm
  refine .ite ?_ (.refl s)
  extract_lets c1
  exact .ite (State.claimDone_keeps s c1) (State.setClaim_keeps s _)

theorem State.takeRule_keeps (s : State) (c : Claim) : Keeps s (s.takeRule c) := by
  unfold State.takeRule
  extract_lets s1 s2
  have h1 : Keeps s s1 := State.showVotes_keeps s
  have h2 : Keeps s s2 := .ite (.after (State.setLease_keeps s1 _) h1) h1
  exact .ite (.after (State.setClaim_keeps s2 _) h2) h1

theorem State.witness_keeps (s : State) (p : Nat) (eMax : BitVec 16) : Keeps s (s.witness p eMax) := by
  unfold State.witness
  extract_lets higher s1 top s2
  have h1 : Keeps s s1 := State.setBitIf_keeps s higher _ _
  have h2 : Keeps s s2 := .after (State.wrPair_keeps s1 _ _) h1
  refine .ite (.ite (.after (State.surrender_keeps s2 _ p) h2) h2) ?_
  split
  · exact .ite (.after (State.confirm_keeps s2 _ p eMax) h2)
      (.ite (.after (State.takeRule_keeps _ _) (.after (State.learnEpoch_keeps s2 eMax) h2))
      (.ite (.after (State.dropClaim_keeps s2) h2)
      (.ite (.after (State.takeRule_keeps _ _) (.after (State.learnEpoch_keeps s2 eMax) h2))
      (.after (State.takeRule_keeps s2 _) h2))))
  · exact .ite (.after (State.showVotes_keeps s2) h2) h2

theorem State.msgTake_keeps (s : State) (m : TwMsgIn) : Keeps s (s.msgTake m) := by
  unfold State.msgTake
  refine .ite (.refl s) ?_
  extract_lets f trim s1
  have h1 : Keeps s s1 := .after (State.wr_keeps _ _ _) (State.tick1_keeps s)
  exact .parts h1

theorem State.onMsg_keeps (s : State) (m : TwMsgIn) {f : State → State} (h : ∀ t, Keeps t (f t)) :
    AnswerKeeps s (s.onMsg m f) :=
  .next (.ite (.refl s) (.ite (.after (h _) (State.msgTake_keeps s m)) (State.integrity_keeps s 5)))

theorem State.setOfs_keeps (s : State) (d : BitVec 64) : Keeps s (s.setOfs d) := by
  unfold State.setOfs
  extract_lets u0 shift t tw conv mods slot _ iso _ _ s0 s3 s2 s1
  have hU0 : Keeps s u0 := .foldl _ _ State.lineNote_keeps _
  have h0 : Keeps s s0 := .parts hU0
  have h3 : Keeps s s3 := .after (.foldl _ _ (fun u _ => State.setLane_keeps u _ _) _) h0
  have h2 : Keeps s s2 := .after (.foldl _ _ (fun u _ => State.setSrc_keeps u _ _) _) h3
  have h1 : Keeps s s1 := .after (.foldl _ _ (fun u _ => State.setPort_keeps u _ _) _) h2
  exact .after (State.wr_keeps _ _ _) (.after (State.wr_keeps s1 _ _) h1)

/-! ## The config key -/

theorem State.restoreRecs_keeps (s : State) (b : List Byte) : Keeps s (s.restoreRecs b) :=
  .foldl _ _ (fun t n => State.setSrc_keeps t n _) _

theorem State.loadCounters_keeps (s : State) : Keeps s s.loadCounters := by
  unfold State.loadCounters
  split
  · extract_lets _ k
    exact .after (State.restoreRecs_keeps _ _) (.parts (.refl s))
  · extract_lets _ k
    exact .after (State.setBit_keeps _ _ _) (.after (State.restoreRecs_keeps _ _) (.parts (.refl s)))

theorem State.keyTorn_keeps (s : State) (a n : Nat) : Keeps s (s.keyTorn a n) := .parts (State.keyPut_keeps s a _)

theorem State.pmScan_keeps (s : State) : Keeps s s.pmScan := by
  unfold State.pmScan
  extract_lets ok best
  exact .parts (.refl s)

theorem State.putImgRes_keeps (s : State) (b : Bool) (e : Option ImgErr) : Keeps s (s.putImgRes b e) := by
  unfold State.putImgRes
  extract_lets v
  exact State.setField_keeps s _ _ _ v

theorem State.noteSchedule_keeps (s : State) (img : List Byte) (e : Option ImgErr) :
    Keeps s (s.noteSchedule img e) := by
  unfold State.noteSchedule
  split
  · exact State.wr_keeps s _ _
  · exact .ite (.after (State.setBit_keeps _ _ _) (State.wr_keeps s _ _)) (.ite (State.wr_keeps s _ _) (.refl s))

theorem State.imageRefused_keeps (s : State) (b : Bool) (e : ImgErr) : Keeps s (s.imageRefused b e) := by
  unfold State.imageRefused
  extract_lets s1
  have h1 : Keeps s s1 := by
    unfold s1
    split
    · exact .after (State.raise_keeps _ _) (State.putImgRes_keeps s b _)
    · exact State.putImgRes_keeps s b _
  exact .ite h1 (.after (State.lifeUp_keeps _ _) (.after (State.raise_keeps s1 _) h1))

/-! ## The network island -/

theorem State.toNt_keeps (s : State) (t : BitVec 32) : Keeps s (s.toNt t) := by
  unfold State.toNt
  extract_lets d
  exact .ite (State.elapse_keeps s _) (.refl s)

theorem State.ntUnlock_keeps (s : State) : Keeps s s.ntUnlock :=
  .ite (.after (State.raise_keeps _ _) (.after (State.setBit_keeps _ _ _) (.parts (.refl s)))) (.parts (.refl s))

theorem State.netBoundary_keeps (s : State) : Keeps s s.netBoundary := by
  unfold State.netBoundary
  refine .ite ?_ (.refl s)
  extract_lets n first snap u
  have hU : Keeps s u := .after (State.wr_keeps _ _ _) (State.wr_keeps s _ _)
  exact .parts hU

theorem State.descDone_keeps (s : State) (p r i len flags : Nat) (time : BitVec 32) :
    Keeps s (s.descDone p r i len flags time) := by
  unfold State.descDone
  extract_lets s1
  have h1 : Keeps s s1 := State.ramWrite_keeps s _ _
  exact .after (State.setField_keeps s1 _ _ _ _) h1

theorem State.ringDeliver_keeps (s : State) (q : Nat) (f : List Byte) (ts : BitVec 32) (onB : Bool) :
    Keeps s (s.ringDeliver q f ts onB) := by
  unfold State.ringDeliver
  split
  · exact .refl s
  · extract_lets ptp
    exact .ite (State.descDone_keeps s q _ _ _ _ ts)
      (.after (State.descDone_keeps _ q _ _ _ _ ts) (State.ramWrite_keeps s _ f))

theorem State.pathSeen_keeps (s : State) (p : Nat) : Keeps s (s.pathSeen p) := .parts (.refl s)

theorem State.pathLost_keeps (s : State) (p : Nat) : Keeps s (s.pathLost p) := by
  unfold State.pathLost
  refine .ite ?_ (.refl s)
  extract_lets _ s1
  have h1 : Keeps s s1 := .parts (.refl s)
  exact .after (State.raiseIf_keeps s1 _ _) h1

theorem State.prpTake_keeps (s : State) (p : Nat) (mac : BitVec 48) (seq : BitVec 16) (slot : Option Nat) :
    Keeps s (s.prpTake p mac seq slot).2 := by
  unfold State.prpTake
  extract_lets live
  split
  · exact .after (State.bump_keeps _ _) (.parts (.refl s))
  · exact .parts (.refl s)

theorem State.prpInstead_keeps (s : State) (e : PrpSeen) (f : List Byte) (ts : BitVec 32) :
    Keeps s (s.prpInstead e f ts) := by
  unfold State.prpInstead
  split
  · exact State.ringDeliver_keeps s _ f ts _
  · extract_lets d t
    have hT : Keeps s t := .ite (State.ramWrite_keeps s _ f) (.refl s)
    exact .after (State.ramWrite_keeps t _ _) hT

theorem State.ordEnter_keeps (s : State) (m : OrdMsg) : Keeps s (s.ordEnter m) :=
  .ite (.parts (.refl s)) (.after (State.setBitIf_keeps _ _ _ _) (.parts (.refl s)))

theorem State.ordRefuse_keeps (s : State) (code : Nat) : Keeps s (s.ordRefuse code) := by
  unfold State.ordRefuse
  extract_lets s1
  have h1 : Keeps s s1 := .after (State.setBit_keeps _ _ _)
    (.after (State.addField_keeps _ _ _ _ _) (State.setField_keeps s _ _ _ code))
  exact .ite (.after (State.raise_keeps _ _) (.after (State.setBit_keeps s1 _ _) h1)) h1

theorem State.ordAccept_keeps (s : State) (d : List Byte) : Keeps s (s.ordAccept d) := by
  unfold State.ordAccept
  extract_lets m _ s1 s2 at_
  have h1 : Keeps s s1 := .parts (.refl s)
  have h2 : Keeps s s2 := .after (State.wr_keeps _ _ _) (.after (State.bump_keeps s1 _) h1)
  exact .ite (.ite (.after (State.setBitIf_keeps _ _ _ _) (.parts h2)) (.after (State.ordEnter_keeps s2 _) h2))
    (.after (State.ordEnter_keeps s2 m) h2)

theorem State.setRing1_keeps (s : State) (p : Nat) (x : Option (Nat × BitVec 64)) : Keeps s (s.setRing1 p x) :=
  .parts (.refl s)
theorem State.setLaunch_keeps (s : State) (p : Nat) (l : List LaunchItem) : Keeps s (s.setLaunch p l) :=
  .parts (.refl s)

theorem State.launchAgain_keeps (s : State) (was : Bool) : Keeps s (s.launchAgain was) := by
  unfold State.launchAgain
  refine .ite ?_ (.refl s)
  extract_lets q busy l
  exact State.setLaunch_keeps s _ _

theorem State.statusSent_keeps (s : State) (launch : BitVec 32) : Keeps s (s.statusSent launch) :=
  .ite (.refl s) (.after (State.addField_keeps _ _ _ _ _) (.parts (.refl s)))

theorem State.sentFrame_keeps (s : State) (p : Nat) (f : List Byte) : Keeps s (s.sentFrame p f) := by
  unfold State.sentFrame
  extract_lets put seq
  have hPut : ∀ t q b, Keeps t (put t q b) := fun t q b => .parts (.refl t)
  exact .ite (.after (hPut _ _ _) (.after (hPut _ _ _) (.parts (.refl s)))) (hPut s p f)

theorem State.txtsPush_keeps (s : State) (p : Nat) (f : List Byte) (ts : BitVec 64) : Keeps s (s.txtsPush p f ts) := by
  unfold State.txtsPush
  extract_lets l e l1
  exact .after (State.setBitIf_keeps _ _ _ _) (.parts (.refl s))

theorem State.txDone_keeps (s : State) (p r i : Nat) (point : BitVec 64) : Keeps s (s.txDone p r i point) := by
  unfold State.txDone
  extract_lets d f ts g s1
  have h1 : Keeps s s1 := .after (State.descDone_keeps _ p r i _ _ _) (State.sentFrame_keeps s p g)
  exact .ite (State.descDone_keeps s p r i _ _ _) (.ite (.after (State.txtsPush_keeps s1 p f ts) h1) h1)

theorem State.txStart_keeps (s : State) (p : Nat) : Keeps s (s.txStart p) := by
  unfold State.txStart
  split
  · exact .ite (State.setRing1_keeps s p _) (.refl s)
  · exact .refl s

theorem State.frameEnd_keeps (s : State) (p : Nat) : Keeps s (s.frameEnd p) := by
  unfold State.frameEnd
  split
  · extract_lets _ s1
    have h1 : Keeps s s1 := .parts (.refl s)
    split
    · exact .after (State.txDone_keeps s1 p _ _ _) h1
    · exact .after (State.statusSent_keeps _ _) (.after (State.sentFrame_keeps s1 p _) h1)
  · split
    · exact .after (State.txDone_keeps _ p _ _ _) (State.setRing1_keeps s p _)
    · exact .refl s

/-! ## The shaft channels (R765 to R778) -/

theorem State.shfCount_keeps (s : State) (ch : Nat) (up : Bool) : Keeps s (s.shfCount ch up) := by
  unfold State.shfCount
  extract_lets v x turned s1 s2
  have h1 : Keeps s s1 := .after (State.setShf_keeps _ ch _) (State.wr_keeps s _ _)
  have h2 : Keeps s s2 := .ite (.after (State.setBit_keeps s1 _ _) h1) (.ite (.after (State.setBit_keeps s1 _ _) h1) h1)
  exact .ite (.after (State.setBit_keeps _ _ _) (.after (State.addField_keeps s2 _ _ _ _) h2)) h2

theorem State.shfAB_keeps (s : State) (ch : Nat) (a b : Bool) : Keeps s (s.shfAB ch a b) := by
  unfold State.shfAB
  extract_lets x riseA riseB
  split
  · exact .ite (.after (State.setBit_keeps _ _ _) (State.addField_keeps s _ _ _ _))
      (.ite (.refl s) (State.shfCount_keeps s ch _))
  · exact .ite (State.shfCount_keeps s ch _) (.refl s)
  · exact .ite (.refl s) (.ite (State.shfCount_keeps s ch _) (.ite (State.shfCount_keeps s ch _) (.refl s)))
  · exact .refl s

theorem State.shfIndex_keeps (s : State) (ch : Nat) : Keeps s (s.shfIndex ch) := by
  unfold State.shfIndex
  extract_lets x v cpr idx want s1 e
  have h1 : Keeps s s1 := .after (State.setBit_keeps _ _ _) (State.wr_keeps s _ v)
  exact .ite (.refl s) (.ite (State.wr_keeps s _ v)
    (.ite (.after (State.setShf_keeps _ ch _) (State.wr_keeps s _ v))
    (.ite (State.wr_keeps s _ v) (.ite (.after (State.wr_keeps _ _ e) (.after (State.wr_keeps s1 _ _) h1)) h1))))

theorem State.shfSample_keeps (s : State) (ch : Nat) (a b z : Bool) : Keeps s (s.shfSample ch a b z) := by
  unfold State.shfSample
  extract_lets rise s1 _ s2
  have h1 : Keeps s s1 := State.shfAB_keeps s ch a b
  have h2 : Keeps s s2 := .after (State.setShf_keeps s1 ch _) h1
  exact .ite (.after (State.shfIndex_keeps s2 ch) h2) h2

theorem State.shfCntWrite_keeps (s : State) (ch : Nat) (v : Word) : Keeps s (s.shfCntWrite ch v) :=
  .after (State.setShf_keeps _ ch _) (State.wr_keeps s _ v)

theorem State.shfCfgWrite_keeps (s : State) (ch : Nat) (v : Word) : Keeps s (s.shfCfgWrite ch v) := by
  unfold State.shfCfgWrite
  refine .ite (State.setBit_keeps s _ _) ?_
  extract_lets leaves s1
  have h1 : Keeps s s1 := State.wr_keeps s _ _
  exact .ite (.after (State.setShf_keeps s1 ch _) h1) h1

theorem State.ssiReq_keeps (s : State) (ch : Nat) : Keeps s (s.ssiReq ch) :=
  .ite (State.setBit_keeps s _ _) (State.setShf_keeps s ch _)

theorem State.ssiBoundary_keeps (s : State) (ch : Nat) : Keeps s (s.ssiBoundary ch) := by
  unfold State.ssiBoundary
  extract_lets div
  exact .ite (.refl s) (.ite (.after (State.setBit_keeps _ _ _) (State.addField_keeps s _ _ _ _))
    (State.setShf_keeps s ch _))

theorem State.shfBoundary_keeps (s : State) : Keeps s s.shfBoundary :=
  .ite (.foldl _ _ (fun t ch => .after (State.ssiBoundary_keeps _ ch)
    (.after (State.wr_keeps _ _ _) (State.wr_keeps t _ _))) _) (.refl s)

theorem State.ssiWord_keeps (s : State) (ch : Nat) (vt bits : Word) (high : Bool) :
    Keeps s (s.ssiWord ch vt bits high) := by
  unfold State.ssiWord
  extract_lets n w s1
  have h1 : Keeps s s1 := State.wr_keeps s _ vt
  exact .ite (.after (State.setBit_keeps s1 _ _) h1)
    (.after (State.setBit_keeps _ _ _) (.after (State.wr_keeps s1 _ _) h1))

theorem State.absCfgWrite_keeps (s : State) (ch : Nat) (time : Bool) (v : Word) :
    Keeps s (s.absCfgWrite ch time v) := by
  unfold State.absCfgWrite
  extract_lets bad
  exact .ite (State.setBit_keeps s _ _) (.ite (State.wr_keeps s _ _) (State.wr_keeps s _ _))

theorem State.shfCntClr_keeps (s : State) (ch : Nat) : Keeps s (s.shfCntClr ch) := State.wr_keeps s _ _

/-! ## Start-up from PD0 power-up to "ready, blocked", its results, and the switching of power domains -/

theorem State.startFail_keeps (s : State) (code : Nat) : Keeps s (s.startFail code) := by
  unfold State.startFail
  extract_lets s1
  have h1 : Keeps s s1 := .foldl _ _ State.domainOff_keeps _
  exact .parts h1

theorem State.stageOneDone_keeps (s : State) : Keeps s s.stageOneDone := .ite (State.setStage_keeps s _) (.refl s)

theorem State.pd0Up_keeps (s : State) (secondary : Bool) : Keeps s (s.pd0Up secondary) := by
  unfold State.pd0Up
  extract_lets _ _ _ _ s1
  have h1 : Keeps s s1 := .parts (.refl s)
  exact .after (State.setBitIf_keeps _ _ _ _) (.after (State.setStage_keeps s1 _) h1)

theorem State.pd0Down_keeps (s : State) : Keeps s s.pd0Down := by
  unfold State.pd0Down
  extract_lets fuse s1 _ _ s2
  have h1 : Keeps State.reset s1 := .foldl _ _ (fun t a => State.wr_keeps t a _) _
  have h2 : Keeps s s2 := by
    refine ⟨fun h => ?_, rfl⟩
    have hreset := h1.1 rfl
    simp only [tablesOk, Bool.and_eq_true] at h hreset ⊢
    exact ⟨hreset.1, h.2⟩
  split
  · exact .ite (.after (State.keyTorn_keeps s2 _ _) h2) h2
  · exact h2

theorem execPd0PowerUp_keeps (secondary : Bool) (s : State) : AnswerKeeps s (execPd0PowerUp secondary s) :=
  .next (.ite (.refl s) (State.pd0Up_keeps s secondary))
theorem execTimebaseLockLost_keeps (s : State) : AnswerKeeps s (execTimebaseLockLost s) :=
  .ite (.next (.after (State.raise_keeps _ _) (.parts (.refl s)))) (.next (.refl s))

theorem execBankCharged_keeps (c : BitVec 16) (s : State) : AnswerKeeps s (execBankCharged c s) := by
  unfold execBankCharged
  refine .ite (.next (.refl s)) ?_
  extract_lets _ s1
  have h1 : Keeps s s1 := .after (State.raiseIf_keeps _ _ _) (.after (State.wr_keeps _ _ _) (.parts (.refl s)))
  exact .next (.after (State.stageOneDone_keeps s1) h1)

theorem State.readKey_keeps (s : State) : Keeps s s.readKey := by
  unfold State.readKey
  extract_lets id _ s1 s2 s3
  have h1 : Keeps s s1 := .parts (.refl s)
  have h2 : Keeps s s2 := .after (State.wr_keeps _ _ _) (.after (State.wr_keeps s1 _ _) h1)
  have h3 : Keeps s s3 := .after (State.pmScan_keeps _) (.after (State.loadCounters_keeps s2) h2)
  exact .ite h3 (.after (State.lifeUp_keeps s3 _) h3)

theorem State.acceptImage_keeps (s : State) (b : Bool) (img : List Byte) : Keeps s (s.acceptImage b img) := by
  unfold State.acceptImage
  extract_lets c use s1 _ _ s2 s3
  have h1 : Keeps s s1 := .after (State.setBitIf_keeps _ b _ _) (State.noteSchedule_keeps s img _)
  have h2 : Keeps s s2 := .parts h1
  have h3 : Keeps s s3 := .after (State.wr_keeps _ _ _) (.after (State.lifeUp_keeps s2 _) h2)
  exact .after (.foldl _ _ (fun t d => .ite (State.domainOn_keeps t d) (.refl t)) _)
    (.after (State.setStage_keeps s3 _) h3)

theorem execImageCheck_keeps (s : State) : AnswerKeeps s (execImageCheck s) := by
  unfold execImageCheck
  refine .ite (.next (.refl s)) ?_
  refine .ite (.next (State.startFail_keeps s _)) ?_
  refine .ite (.next (State.startFail_keeps s _)) ?_
  extract_lets s1 a
  have h1 : Keeps s s1 := .after (State.wr_keeps _ _ _) (State.readKey_keeps s)
  split
  · exact .next (.after (State.acceptImage_keeps s1 _ a) h1)
  · extract_lets s2 b
    have h2 : Keeps s s2 := .after (State.imageRefused_keeps _ _ _) (.after (State.noteSchedule_keeps s1 a _) h1)
    split
    · exact .next (.after (State.acceptImage_keeps s2 _ b) h2)
    · exact .next (.after (State.startFail_keeps _ _)
        (.after (State.imageRefused_keeps _ _ _) (.after (State.noteSchedule_keeps s2 b _) h2)))

theorem State.lockRestored_keeps (s : State) (n : Nat) : Keeps s (s.lockRestored n) := by
  unfold State.lockRestored
  extract_lets x
  exact .ite (.after (State.settle_keeps s _ _) (.after (State.lockedNow_keeps _) (State.setSrc_keeps s n _))) (.refl s)

theorem State.putInEffect_keeps (s : State) (c : Sections) : Keeps s (s.putInEffect c) := by
  unfold State.putInEffect
  extract_lets s1 s2 s3 s4 _ _ s5 s6 s7
  have h1 : Keeps s s1 := .after (State.applyDev_keeps _ _) (State.applyTopo_keeps s _)
  have h2 : Keeps s s2 := .after (State.applyFlt_keeps s1 _ _) h1
  have h3 : Keeps s s3 := .after (.foldl _ _ State.lockRestored_keeps _) h2
  have h4 : Keeps s s4 := .after (State.applySch_keeps _ _) (.after (State.applyRecs_keeps s3 _) h3)
  have h5 : Keeps s s5 := .after (State.loadEngines_keeps _) (.parts h4)
  have h6 : Keeps s s6 := .after (State.applySafety_keeps _ _) (.after (State.applyNet_keeps s5 _) h5)
  have h7 : Keeps s s7 := .after (State.bootFirmware_keeps s6 _) h6
  exact .after (State.wr_keeps _ _ _) (.parts h7)

theorem State.beginPorts_keeps (s : State) : Keeps s s.beginPorts := by
  unfold State.beginPorts
  extract_lets s1 _ s2 l
  have h1 : Keeps s s1 := State.setStage_keeps s _
  have h2 : Keeps s s2 := .parts h1
  exact .after (.foldl _ _ (fun t p => State.laneCtl_keeps t p _) _) h2

theorem execDomainSelfTestDone_keeps (pass : Bool) (s : State) : AnswerKeeps s (execDomainSelfTestDone pass s) := by
  unfold execDomainSelfTestDone
  refine .ite (.next (.refl s)) ?_
  refine .ite (.next (State.startFail_keeps s _)) ?_
  split
  · exact .next (.after (State.beginPorts_keeps _) (State.putInEffect_keeps s _))
  · exact .next (.refl s)

theorem State.placeOwn_keeps (s : State) : Keeps s s.placeOwn := .parts (.refl s)

theorem State.placeFrom_keeps (s : State) (b : List Byte) : Keeps s (s.placeFrom b) := by
  unfold State.placeFrom
  extract_lets p vt k
  exact .parts (.refl s)

theorem execFirstBoundaryPlace_keeps (s : State) : AnswerKeeps s (execFirstBoundaryPlace s) := by
  unfold execFirstBoundaryPlace
  refine .ite (.next (.refl s)) ?_
  refine .ite (.next (.after (State.placeOwn_keeps _) (.parts (.refl s)))) ?_
  refine .ite (.next (.refl s)) ?_
  refine .ite (.next (State.placeOwn_keeps s)) ?_
  split
  · exact .next (State.placeFrom_keeps s _)
  · exact .next (.refl s)

theorem State.initZephyr_keeps (s : State) : Keeps s s.initZephyr :=
  .ite (.after (State.enginesOff_keeps _) (State.setLease_keeps s _)) (.refl s)

theorem execReadyBlocked_keeps (s : State) : AnswerKeeps s (execReadyBlocked s) := by
  unfold execReadyBlocked
  refine .ite (.next (.refl s)) ?_
  refine .ite (.next (State.initZephyr_keeps s)) ?_
  refine .ite (.next (.refl s)) ?_
  extract_lets s1 s2 _ s3
  have h1 : Keeps s s1 := State.initZephyr_keeps s
  have h2 : Keeps s s2 := .after (State.setStage_keeps s1 _) h1
  have h3 : Keeps s s3 := .parts h2
  exact .next (.after (State.setBit_keeps _ _ _) (.after (State.wr_keeps s3 _ _) h3))

theorem State.boundResult_keeps (s : State) : Keeps s s.boundResult := by
  unfold State.boundResult
  split
  · exact State.startFail_keeps s _
  · exact State.startFail_keeps s _
  · exact State.startFail_keeps s _
  · exact .parts (.refl s)
  · exact .parts (.refl s)
  · exact .refl s

theorem execStartStageBound_keeps (s : State) : AnswerKeeps s (execStartStageBound s) :=
  .ite (.next (.refl s)) (.next (.after (State.boundResult_keeps _) (State.elapse_keeps s _)))
theorem State.switchBit_keeps (s : State) (v : Word) (d : Nat) : Keeps s (s.switchBit v d) :=
  .ite (.refl s) (.ite (State.setBit_keeps s _ _) (.ite (State.domainOn_keeps s d) (State.domainOff_keeps s d)))
theorem State.pdCtl_keeps (s : State) (v : Word) : Keeps s (s.pdCtl v) :=
  .foldl _ _ (fun t d => State.switchBit_keeps t v d) _
theorem execDomainSwitch_keeps (v : Word) (s : State) : AnswerKeeps s (execDomainSwitch v s) :=
  .via (fun t => State.pdCtl_keeps t v)

theorem execDomainPowerOn_keeps (d : Fin 14) (s : State) : AnswerKeeps s (execDomainPowerOn d s) := by
  unfold execDomainPowerOn
  refine .ite (.next (.refl s)) ?_
  extract_lets _ s1
  have h1 : Keeps s s1 := .parts (.refl s)
  exact .next (.ite (.after (State.loadEngines_keeps s1) h1) h1)

theorem execDomainPowerOff_keeps (d : Fin 14) (s : State) : AnswerKeeps s (execDomainPowerOff d s) :=
  .next (.ite (State.domainOff_keeps s _) (.refl s))

theorem execRailOutOfRange_keeps (d : Fin 14) (s : State) : AnswerKeeps s (execRailOutOfRange d s) :=
  .ite (.next (.refl s)) (.ite (.next (State.startFail_keeps s _))
    (.next (.after (State.raise_keeps _ _) (.parts (.refl s)))))

theorem execPd0PowerDown_keeps (s : State) : AnswerKeeps s (execPd0PowerDown s) :=
  .next (.ite (.refl s) (State.pd0Down_keeps s))

/-! ## What start-up, the twin and the peripherals do at a period boundary -/

theorem State.pairAudit_keeps (s : State) : Keeps s s.pairAudit := State.raiseIf_keeps s _ _

theorem State.otherBoundary_keeps (s : State) : Keeps s s.otherBoundary :=
  .after (State.shfBoundary_keeps _) (.after (State.netBoundary_keeps _)
    (.after (State.noteHealth_keeps _) (.after (State.initClaim_keeps _)
    (.after (State.stageFourDone_keeps _) (State.pairAudit_keeps s)))))

end Sys2Proof.Machine
end

section
/-! What injections, channels, the recorder, the period boundary, the Draft and the key commands keep: the canonical
form of the tables, and the commands that wait. -/

namespace Sys2Proof.Machine

open Sys2Proof.Safety

/-! ## Test-signal injection and frequency response (R306 to R311, R315, R317) -/

theorem State.setInj_keeps (s : State) (x : Injector) : Keeps s (s.setInj x) := .parts (.refl s)

theorem State.injStart_keeps (s : State) : Keeps s s.injStart := by
  unfold State.injStart
  refine .ite ?_ ?_
  · extract_lets _ x
    exact .after (State.clrBit_keeps _ _ _) (State.setInj_keeps s x)
  · extract_lets s1
    have h1 : Keeps s s1 := .after (State.clrBit_keeps _ _ _) (State.setBit_keeps s _ _)
    exact .ite (.after (State.setInj_keeps s1 _) h1) (.after (State.setInj_keeps s1 _) h1)

theorem State.injStop_keeps (s : State) : Keeps s s.injStop := .ite (State.injAbort_keeps s) (State.clrBit_keeps s _ _)
theorem execInjStart_keeps (mode : BitVec 2) (pt : BitVec 5) (s : State) : AnswerKeeps s (execInjStart mode pt s) :=
  .via (fun t => .after (State.injStart_keeps _) (.ite (.refl t) (State.wr_keeps t _ _)))
theorem execInjStop_keeps (s : State) : AnswerKeeps s (execInjStop s) := .via State.injStop_keeps

theorem State.injRead_keeps (s : State) : Keeps s s.injRead := by
  unfold State.injRead
  extract_lets x ab y
  exact .ite (State.setInj_keeps s _) (.refl s)

theorem State.injBoundary_keeps (s : State) : Keeps s s.injBoundary := by
  unfold State.injBoundary
  extract_lets x y z
  exact .ite (.ite (.refl s) (State.setInj_keeps s _)) (.ite (State.setInj_keeps s _) (State.setInj_keeps s _))

theorem execInjRecordEnd_keeps (s : State) : AnswerKeeps s (execInjRecordEnd s) := by
  unfold execInjRecordEnd
  extract_lets x y z
  exact .ite (.ite (.next (State.setInj_keeps s _))
    (.next (.after (State.clrBit_keeps _ _ _) (State.setInj_keeps s _)))) (.next (.refl s))

theorem State.takeoverEmit_keeps (s : State) : Keeps s s.takeoverEmit :=
  .ite (.after (State.pmCause_keeps _ _) (.parts (.refl s))) (.refl s)

theorem execEmitStart_keeps (p : Fin 12) (s : State) : AnswerKeeps s (execEmitStart p s) := by
  unfold execEmitStart
  refine .ite (.next (.refl s)) ?_
  extract_lets s1 x s2
  have h1 : Keeps s s1 := .after (State.injRead_keeps _) (State.advanceTo_keeps s _)
  have h2 : Keeps s s2 := .after (State.takeoverEmit_keeps s1) h1
  split
  · exact .next (.ite h1 (.after (State.setPort_keeps s1 _ _) h1))
  · exact .ite (.next (.after (State.setPort_keeps s1 _ _) h1))
      (.next (.ite (.after (State.sendFrame_keeps s2 _ _ _) h2) (.after (State.sendFrame_keeps s2 _ _ _) h2)))

theorem State.leCntClr_keeps (s : State) (e : Nat) : Keeps s (s.leCntClr e) := State.clearAll_keeps s _
theorem execLeCntClr_keeps (e : Fin 4) (s : State) : AnswerKeeps s (execLeCntClr e s) :=
  .via (fun t => State.leCntClr_keeps t _)

theorem State.eddyClear_keeps (s : State) (v : BitVec 16) : Keeps s (s.eddyClear v) := by
  unfold State.eddyClear
  extract_lets s1 new
  have h1 : Keeps s s1 := State.wr_keeps s _ _
  exact .parts h1

theorem execEddyClear_keeps (bits : BitVec 16) (s : State) : AnswerKeeps s (execEddyClear bits s) :=
  .via (fun t => State.eddyClear_keeps t bits)

/-! ## Handshake channels, tags, period markers, transfers and the credit audit -/

theorem execWordSend_keeps (src dst : Fin 34) (w : HWord) (s : State) : AnswerKeeps s (execWordSend src dst w s) := by
  unfold execWordSend
  extract_lets k c
  exact .ite (.next (.refl s)) (.ite (.next (State.setChan_keeps s k _)) (.next (State.setChan_keeps s k _)))

theorem execCreditWaitTimeout_keeps (src dst : Fin 34) (s : State) :
    AnswerKeeps s (execCreditWaitTimeout src dst s) := by
  unfold execCreditWaitTimeout
  split
  · exact .next (.after (State.raiseOnce_keeps _ _) (.after (State.setBit_keeps _ _ _) (State.advanceTo_keeps s _)))
  · exact .next (.refl s)

theorem execCreditReturn_keeps (src dst : Fin 34) (s : State) : AnswerKeeps s (execCreditReturn src dst s) := by
  unfold execCreditReturn
  extract_lets k c
  exact .ite (.next (.refl s)) (.ite (.next (State.raise_keeps s _)) (.next (State.setChan_keeps s k _)))

theorem State.creditAudit_keeps (s : State) : Keeps s s.creditAudit :=
  .foldl _ _ (fun t _ => .ite (State.raise_keeps t _) (.refl t)) _

theorem State.marker_keeps (s : State) (i : Nat) (vt : BitVec 16) : Keeps s (s.marker i vt) := by
  unfold State.marker
  extract_lets d off _ s1
  have h1 : Keeps s s1 := .parts (.refl s)
  exact .ite (.refl s) (.after (State.raise_keeps _ _)
    (.ite (.after (State.setBit_keeps s1 _ i) h1) (.after (State.setBit_keeps s1 _ _) h1)))

theorem execPeriodMarker_keeps (i : Fin 34) (vt : BitVec 16) (s : State) : AnswerKeeps s (execPeriodMarker i vt s) :=
  .next (.ite (State.marker_keeps s _ vt) (.refl s))

theorem State.markWork_keeps (s : State) (dst : Nat) (w : HWord) : Keeps s (s.markWork dst w) := by
  unfold State.markWork
  extract_lets phase _ s1
  have h1 : Keeps s s1 := .parts (.refl s)
  exact .ite (.after (State.marker_keeps s1 dst _) h1) h1

theorem State.wordWork_keeps (s : State) (dst : Nat) (w : HWord) : Keeps s (s.wordWork dst w) := by
  unfold State.wordWork
  refine .ite (State.markWork_keeps s dst w) ?_
  refine .ite ?_ (.refl s)
  extract_lets src
  exact .after (State.maskSurrender_keeps s _ _) (State.collect_keeps s src _ _)

theorem execWordReceive_keeps (src dst : Fin 34) (s : State) : AnswerKeeps s (execWordReceive src dst s) := by
  unfold execWordReceive
  extract_lets k c
  split
  · exact .next (.refl s)
  · refine .ite (.next (.refl s)) ?_
    extract_lets bad s1 s2
    have h1 : Keeps s s1 := State.setChan_keeps s k _
    have h2 : Keeps s s2 := .ite (.after (State.integrity_keeps s1 _) h1) h1
    exact .next (.ite (.after (State.raise_keeps s2 _) h2) (.after (State.wordWork_keeps s2 _ _) h2))

theorem State.noteLate_keeps (s : State) (e i : Nat) (c : Cue) : Keeps s (s.noteLate e i c) :=
  .ite (State.noteSlack_keeps s _ i _) (.refl s)

theorem State.slotsIn_keeps (s : State) (i : Nat) (x : Xing) (w : BitVec 64) (data : List (Word × Word × Bool)) :
    Keeps s (s.slotsIn i x w data) := by
  unfold State.slotsIn
  extract_lets e lanes y s1 s2
  have h1 : Keeps s s1 := State.setLe_keeps s e y
  have h2 : Keeps s s2 := .ite (.after (State.leIntegrity_keeps s1 e) h1) h1
  refine .after (.foldl _ _ (fun t q => ?_) _) h2
  extract_lets reads
  exact .ite (State.noteLate_keeps t e _ _) (.refl t)

theorem State.sumsIn_keeps (s : State) (x : Xing) (broken : Bool) : Keeps s (s.sumsIn x broken) := by
  unfold State.sumsIn
  extract_lets n k
  exact .ite (State.leIntegrity_keeps s _) (.parts (.refl s))

theorem State.rawIn_keeps (s : State) (key : Nat) (pc : BitVec 32) (r : Option (BitVec 16)) :
    Keeps s (s.rawIn key pc r) := by
  unfold State.rawIn
  extract_lets v
  exact .parts (.refl s)

theorem State.nodesTo_keeps (s : State) (x : Xing) (pcLo : BitVec 16) (damage : List Nat) :
    Keeps s (s.nodesTo x pcLo damage) := by
  unfold State.nodesTo
  extract_lets p e pc q ents s1 s2
  have h1 : Keeps s s1 := .ite (.refl s) (State.leIntegrity_keeps s e)
  have h2 : Keeps s s2 := by
    unfold s2
    refine .after (.foldl _ _ (fun t c => ?_) _) h1
    extract_lets reads
    exact .ite (State.noteLate_keeps t e _ _) (.refl t)
  refine .after (.foldl _ _ (fun t n => ?_) _) h2
  extract_lets k v get
  exact .after (State.rawIn_keeps _ _ pc _) (.after (State.rawIn_keeps _ _ pc _)
    (.after (State.rawIn_keeps _ _ pc _) (State.rawIn_keeps t k pc _)))

theorem State.handIn_keeps (s : State) (x : Xing) (damage : List Nat) : Keeps s (s.handIn x damage) := by
  unfold State.handIn
  extract_lets a p s1 h s2
  have h1 : Keeps s s1 := State.noteSlack_keeps s _ _ _
  have h2 : Keeps s s2 := .ite h1 (.after (State.integrity_keeps s1 _) h1)
  exact .ite h1 (.after (State.setPort_keeps s2 p _) h2)

theorem State.deliver_keeps (s : State) (w : BitVec 64) (data : List (Word × Word × Bool)) (damage : List Nat) :
    Keeps s (s.deliver w data damage) := by
  unfold State.deliver
  extract_lets i x
  split
  · exact State.slotsIn_keeps s i x w data
  · exact State.sumsIn_keeps s x _
  · exact State.nodesTo_keeps s x _ damage
  · exact State.handIn_keeps s x damage
  · exact .refl s

theorem execTransferReceive_keeps (w : BitVec 64) (vals comps : List Word) (held : List Bool) (damage : List Nat)
    (s : State) :
    AnswerKeeps s (execTransferReceive w vals comps held damage s) := by
  unfold execTransferReceive
  split
  · exact .next (.refl s)
  · refine .ite (.next (.refl s)) ?_
    extract_lets s1
    have h1 : Keeps s s1 := State.noteCrossing_keeps s _ _
    exact .next (.ite (.after (State.noteStale_keeps s1) h1) (.after (State.deliver_keeps s1 w _ damage) h1))

theorem execSchCntClr_keeps (s : State) : AnswerKeeps s (execSchCntClr s) := .via State.schCntClr_keeps

/-! ## Trace channels, trigger units, masks and the commands of the Gust recorder (R430 to R468) -/

theorem State.gstSample_keeps (s : State) : Keeps s s.gstSample := by
  unfold State.gstSample
  split
  · exact .refl s
  · refine .ite ?_ (.refl s)
    extract_lets row
    exact .parts (.refl s)

theorem State.gstLate_keeps (s : State) (pc : BitVec 32) : Keeps s (s.gstLate pc) := by
  unfold State.gstLate
  extract_lets s1 held note
  have h1 : Keeps s s1 := State.bump_keeps s _
  exact .ite (.parts h1) (.parts h1)

theorem State.gstStore_keeps (s : State) (pc : BitVec 32) (ch : Nat) (v : BitVec 32) (held : Bool) :
    Keeps s (s.gstStore pc ch v held) := by
  unfold State.gstStore
  extract_lets again put _ s1
  have h1 : Keeps s s1 := .parts (.refl s)
  exact .ite (.after (State.bump_keeps s1 _) h1) h1

theorem execTraceWord_keeps (word : BitVec 64) (s : State) : AnswerKeeps s (execTraceWord word s) := by
  unfold execTraceWord
  extract_lets ch pc
  exact .ite (.next (.refl s)) (.ite (.next (State.bump_keeps s _))
    (.ite (.next (.ite (State.gstStore_keeps s pc ch _ _) (.ite (State.gstLate_keeps s pc) (.refl s))))
    (.next (.ite (State.gstLate_keeps s pc) (.refl s)))))

theorem State.gstDecide_keeps (s : State) (r : GstPer) (codes : List Nat) (stops : Bool) :
    Keeps s (s.gstDecide r codes stops) := by
  unfold State.gstDecide
  split
  · exact .refl s
  · extract_lets halt s1
    have hHalt : ∀ t, Keeps t (halt t) := fun t => .ite (.parts (.refl t)) (.refl t)
    have h1 : Keeps s s1 := .ite (State.gstShowTrig_keeps s _ _ _) (.refl s)
    exact .ite (.ite (State.setBit_keeps s _ _) (.after (hHalt _) (State.gstFire_keeps s r _))) (.after (hHalt s1) h1)

theorem State.gstClose_keeps (s : State) (r : GstPer) : Keeps s (s.gstClose r) := by
  unfold State.gstClose
  extract_lets us fired hit bits r1 units keep u _ s1 s2 s3 stops s4
  have hU : Keeps s u := State.tick1_keeps s
  have h1 : Keeps s s1 := .parts hU
  have h2 : Keeps s s2 := .after (State.wr_keeps s1 _ _) h1
  have h3 : Keeps s s3 := .after (State.setBitIf_keeps s2 _ _ _) h2
  have h4 : Keeps s s4 := .after (State.gstDecide_keeps s3 r1 _ _) h3
  split
  · exact .ite (.after (State.gstEnd_keeps s4) h4) h4
  · exact h4

theorem execTraceRowClose_keeps (s : State) : AnswerKeeps s (execTraceRowClose s) := by
  unfold execTraceRowClose
  split
  · exact .next (.refl s)
  · exact .next (.after (State.gstClose_keeps _ _) (State.advanceTo_keeps s _))

theorem State.gstArm_keeps (s : State) (remote : Bool) : Keeps s (s.gstArm remote) := by
  unfold State.gstArm
  refine .ite ?_ (.after (State.setBitIf_keeps _ remote _ _) (State.setBit_keeps s _ _))
  extract_lets _ s1
  have h1 : Keeps s s1 := .after (State.draftCancel_keeps _ _) (.parts (.refl s))
  exact .ite (.after (State.sendGust_keeps s1 _ _) h1) h1

theorem State.gstStop_keeps (s : State) : Keeps s s.gstStop := .ite (.parts (.refl s)) (State.setBit_keeps s _ _)

theorem State.gstForce_keeps (s : State) : Keeps s s.gstForce := by
  unfold State.gstForce
  split
  · exact State.gstFire_keeps s _ _
  · exact .refl s
  · exact State.setBit_keeps s _ _

theorem State.gstCmd_keeps (s : State) (v : Word) : Keeps s (s.gstCmd v) := by
  unfold State.gstCmd
  split
  · exact State.gstArm_keeps s _
  · exact State.gstStop_keeps s
  · exact State.gstForce_keeps s
  · exact .refl s

theorem execArm_keeps (s : State) : AnswerKeeps s (execArm s) :=
  .via (fun t => .after (State.gstCmd_keeps _ _) (State.wrPair_keeps t _ _))
theorem execStop_keeps (s : State) : AnswerKeeps s (execStop s) :=
  .via (fun t => .after (State.gstCmd_keeps _ _) (State.wrPair_keeps t _ _))
theorem execForce_keeps (s : State) : AnswerKeeps s (execForce s) :=
  .via (fun t => .after (State.gstCmd_keeps _ _) (State.wrPair_keeps t _ _))

theorem execGustArmEffect_keeps (s : State) : AnswerKeeps s (execGustArmEffect s) := by
  unfold execGustArmEffect
  split
  · exact .next (.refl s)
  · refine .ite (.next (.refl s)) ?_
    extract_lets s1
    have h1 : Keeps s s1 := .after (State.clearAll_keeps _ _) (.after (State.setBit_keeps _ _ _) (.parts (.refl s)))
    exact .next (.after (State.draftCancel_keeps s1 _) h1)

theorem execRecordDeadline_keeps (trace : Bool) (s : State) : AnswerKeeps s (execRecordDeadline trace s) := by
  unfold execRecordDeadline
  extract_lets pc mark _ s1
  have h1 : Keeps s s1 := .parts (.refl s)
  split
  · exact .next (.refl s)
  · exact .ite (.next (.refl s)) (.next (.after (State.raise_keeps _ _) (.after (State.setBit_keeps s1 _ _) h1)))

theorem execGustArmReceive_keeps (s : State) : AnswerKeeps s (execGustArmReceive s) :=
  .next (.ite (State.gstArm_keeps s _) (.refl s))

theorem State.gstRemoteFire_keeps (s : State) (t : BitVec 32) (vt : BitVec 64) : Keeps s (s.gstRemoteFire t vt) := by
  unfold State.gstRemoteFire
  extract_lets e last
  split
  · exact .ite (State.setBit_keeps s _ _) (State.gstTrigger_keeps s t vt _ last _)
  · exact .ite (State.gstTrigger_keeps s t vt _ last _) (State.setBit_keeps s _ _)
  · exact State.setBit_keeps s _ _

theorem execGustFireReceive_keeps (vt : BitVec 64) (s : State) : AnswerKeeps s (execGustFireReceive vt s) := by
  unfold execGustFireReceive
  refine .ite (.next (.refl s)) ?_
  split
  · exact .next (.ite (State.gstRemoteFire_keeps s _ _) (State.setBit_keeps s _ _))
  · exact .next (.ite (State.gstRemoteFire_keeps s _ _) (State.setBit_keeps s _ _))
  · exact .next (State.setBit_keeps s _ _)

theorem State.gstCntClr_keeps (s : State) : Keeps s s.gstCntClr := State.clearAll_keeps s _
theorem execGstCntClr_keeps (s : State) : AnswerKeeps s (execGstCntClr s) := .via State.gstCntClr_keeps

/-! ## The arm energy audit and the work of a period boundary -/

theorem State.setEnergy_keeps (s : State) (n : Nat) (x : Energy) : Keeps s (s.setEnergy n x) := .parts (.refl s)

theorem State.energyResidue_keeps (s : State) (n : Nat) : Keeps s (s.energyResidue n) := by
  unfold State.energyResidue
  extract_lets x
  exact .after (State.integrity_keeps _ _) (State.setEnergy_keeps s n _)

theorem State.energyStep_keeps (s : State) (n : Nat) : Keeps s (s.energyStep n) := by
  unfold State.energyStep
  refine .ite (.refl s) ?_
  refine .ite (State.energyResidue_keeps s n) ?_
  extract_lets x a good lastI i e j miss
  split <;> exact State.setEnergy_keeps s n _

theorem execEnergyWindowEnd_keeps (w : ArmWindow) (s : State) : AnswerKeeps s (execEnergyWindowEnd w s) := by
  unfold execEnergyWindowEnd
  extract_lets n x s1
  have h1 : Keeps s s1 := State.setEnergy_keeps s _ _
  exact .ite (.next (.refl s)) (.next (.ite (.after (State.integrity_keeps s1 _) h1)
    (.ite (.after (State.bump_keeps s1 _) h1) (.after (State.raiseIf_keeps s1 _ _) h1))))

theorem State.schPeriodEnd_keeps (s : State) : Keeps s s.schPeriodEnd := by
  unfold State.schPeriodEnd
  extract_lets low s1 warn s2
  have h1 : Keeps s s1 := .after (State.wr_keeps _ _ _) (State.setField_keeps s _ _ _ low)
  have h2 : Keeps s s2 := .ite (.after (State.raiseOnce_keeps _ _) (.after (State.setBit_keeps s1 _ _) h1)) h1
  exact .parts h2

theorem State.aeBoundary_keeps (s : State) (n : Nat) (first : Bool) : Keeps s (s.aeBoundary n first) := by
  unfold State.aeBoundary
  extract_lets a
  exact .ite (State.setAe_keeps s n _) (.ite (State.setAe_keeps s n _) (.refl s))

theorem State.portBoundary_keeps (s : State) (p : Nat) : Keeps s (s.portBoundary p) := by
  unfold State.portBoundary
  refine .ite ?_ (.refl s)
  extract_lets x
  exact .after (State.calEcho_keeps _ p) (State.setPort_keeps s p _)

theorem State.leBoundary_keeps (s : State) (e : Nat) : Keeps s (s.leBoundary e) := by
  unfold State.leBoundary
  extract_lets x stat s1
  have h1 : Keeps s s1 := State.setLe_keeps s e _
  exact .after (State.wr_keeps _ _ _) (.after (State.wr_keeps _ _ _) (.after (State.wr_keeps s1 _ stat) h1))

theorem State.takeOrders_keeps (s : State) : Keeps s s.takeOrders := by
  unfold State.takeOrders
  extract_lets due
  refine .after (.foldl _ _ (fun t w => ?_) _) (.parts (.refl s))
  extract_lets i
  exact .ite (.parts (.refl t)) (.parts (.refl t))

theorem State.showStatus_keeps (s : State) : Keeps s s.showStatus := by
  unfold State.showStatus
  refine .after (.foldl _ _ (fun t e => ?_) _) (.parts (.refl s))
  split
  · exact .after (State.wr_keeps _ _ _) (State.wrPair_keeps t _ _)
  · exact .refl t

theorem State.eddyZero_keeps (s : State) (c : Nat) : Keeps s (s.eddyZero c) := by
  unfold State.eddyZero
  extract_lets x
  exact .parts (.refl s)

theorem State.takeClears_keeps (s : State) : Keeps s s.takeClears := by
  unfold State.takeClears
  extract_lets due
  exact .after (.foldl _ _ (fun t _ => .after (State.clrBit_keeps _ _ _) (State.eddyZero_keeps t _)) _)
    (.parts (.refl s))

theorem State.islBoundary_keeps (s : State) : Keeps s s.islBoundary := by
  unfold State.islBoundary
  refine .ite ?_ (.refl s)
  extract_lets s1 s2 s3 _ s4
  have h1 : Keeps s s1 := .foldl _ _ State.leBoundary_keeps _
  have h2 : Keeps s s2 := .after (State.takeClears_keeps _)
    (.after (State.showStatus_keeps _) (.after (State.takeOrders_keeps s1) h1))
  have h3 : Keeps s s3 := .after (State.wr_keeps s2 _ _) h2
  have h4 : Keeps s s4 := .parts h3
  exact .after (State.injBoundary_keeps s4) h4

theorem State.turn_keeps (s : State) : Keeps s s.turn := by
  unfold State.turn
  refine .ite ?_ ?_
  · extract_lets s1
    have h1 : Keeps s s1 := State.advanceTo_keeps s _
    exact .parts h1
  · extract_lets s1
    have h1 : Keeps s s1 := State.advanceTo_keeps s _
    exact .parts h1

theorem State.noteEcho_keeps (s : State) (p : Nat) : Keeps s (s.noteEcho p) := by
  unfold State.noteEcho
  extract_lets miss s1 s2 s3
  have h1 : Keeps s s1 := State.wr_keeps s _ _
  have h2 : Keeps s s2 := .after (State.wr_keeps s1 _ _) h1
  have h3 : Keeps s s3 := .after (State.setBitIf_keeps s2 _ _ _) h2
  exact .after (State.raiseIf_keeps s3 _ _) h3

theorem State.portPeriodEnd_keeps (s : State) (p : Nat) : Keeps s (s.portPeriodEnd p) := by
  unfold State.portPeriodEnd
  refine .ite ?_ (.refl s)
  extract_lets s1
  have h1 : Keeps s s1 := State.noteEcho_keeps s p
  exact .after (State.raiseIf_keeps s1 _ _) h1

theorem State.periodEnd_keeps (s : State) : Keeps s s.periodEnd := by
  unfold State.periodEnd
  refine .ite ?_ (.refl s)
  extract_lets s1
  have h1 : Keeps s s1 := .after (.foldl _ _ State.energyStep_keeps _)
    (.after (State.gstSample_keeps _) (State.injRead_keeps s))
  exact .after (State.schPeriodEnd_keeps _) (.after (.foldl _ _ State.portPeriodEnd_keeps _) h1)

theorem execPeriodBoundary_keeps (s : State) : AnswerKeeps s (execPeriodBoundary s) := by
  unfold execPeriodBoundary
  refine .ite (.next (.refl s)) ?_
  extract_lets s1 s2 s3 s4
  have h1 : Keeps s s1 := .after (State.turn_keeps _) (.after (State.periodEnd_keeps _) (State.advanceTo_keeps s _))
  have h2 : Keeps s s2 := .after (State.creditAudit_keeps s1) h1
  have h3 : Keeps s s3 := .after (.foldl _ _ (fun t n => State.aeBoundary_keeps t n _) _) h2
  have h4 : Keeps s s4 := .after (.foldl _ _ State.portBoundary_keeps _) h3
  exact .next (.after (State.otherBoundary_keeps _)
    (.after (State.gstBegin_keeps _) (.after (State.islBoundary_keeps s4) h4)))

/-! ## The Draft -/

theorem State.draftRefuse_keeps (s : State) : Keeps s s.draftRefuse := State.setBit_keeps s _ _
theorem State.draftRes_keeps (s : State) (code typ : Nat) : Keeps s (s.draftRes code typ) := State.wr_keeps s _ _
theorem State.draftEmpty_keeps (s : State) : Keeps s s.draftEmpty := .parts (.refl s)
theorem State.drfOpen_keeps (s : State) : Keeps s s.drfOpen :=
  .ite (State.draftRefuse_keeps s) (State.draftEmpty_keeps s)

theorem State.drfLoad_keeps (s : State) : Keeps s s.drfLoad := by
  unfold State.drfLoad
  refine .ite (State.draftRefuse_keeps s) ?_
  refine .ite (.after (State.setBit_keeps _ _ _) (.parts (.refl s))) ?_
  extract_lets x t
  exact .ite (.after (State.setBit_keeps _ _ _) (.parts (.refl s))) (State.setBit_keeps s _ _)

theorem State.drfCheck_keeps (s : State) : Keeps s s.drfCheck := .ite (.parts (.refl s)) (State.draftRefuse_keeps s)

theorem State.draftLoadRes_keeps (s : State) (e : Option DrfErr) : Keeps s (s.draftLoadRes e) := by
  unfold State.draftLoadRes
  refine .ite (.refl s) ?_
  split
  · exact State.wr_keeps s _ _
  · exact .ite (.after (State.setBit_keeps _ _ _) (State.wr_keeps s _ _)) (.ite (State.wr_keeps s _ _) (.refl s))

theorem execCheckDone_keeps (s : State) : AnswerKeeps s (execCheckDone s) := by
  unfold execCheckDone
  refine .ite (.next (.refl s)) ?_
  extract_lets v s1 crcs _ s2 s2'
  have h1 : Keeps s s1 := State.draftLoadRes_keeps s v
  have h2 : Keeps s s2 := .parts h1
  have h2' : Keeps s s2' := .parts h1
  clear_value v
  split
  · exact .next (.after (State.setBit_keeps _ _ _) (.after (State.wr_keeps _ _ _) (.after (State.wr_keeps s2 _ _) h2)))
  · exact .next (.after (State.setBit_keeps _ _ _)
      (.after (State.addField_keeps _ _ _ _ _) (.after (State.wr_keeps s2' _ _) h2')))

theorem State.drfCommit_keeps (s : State) : Keeps s s.drfCommit := by
  unfold State.drfCommit
  extract_lets pc d bad
  have hBad : ∀ c, Keeps s (bad c) := fun c => .after (State.draftRefuse_keeps _) (State.draftRes_keeps s c _)
  exact .ite (hBad _) (.ite (hBad _) (.ite (hBad _) (.ite (hBad _) (.parts (.refl s)))))

theorem State.drfAbort_keeps (s : State) : Keeps s s.drfAbort := by
  unfold State.drfAbort
  split
  · split
    · exact .ite (.parts (.refl s)) (.after (State.draftRefuse_keeps _) (State.draftRes_keeps s _ _))
    · exact .refl s
  · exact State.draftRefuse_keeps s
  · exact State.draftEmpty_keeps s

theorem State.drfCmd_keeps (s : State) (v : Word) : Keeps s (s.drfCmd v) := by
  unfold State.drfCmd
  refine .ite (State.draftRefuse_keeps s) ?_
  split
  · exact State.drfOpen_keeps s
  · exact State.drfLoad_keeps s
  · exact State.drfCheck_keeps s
  · exact State.drfCommit_keeps s
  · exact State.drfAbort_keeps s
  · exact State.draftRefuse_keeps s

theorem State.drfPair_keeps (s : State) (a : Nat) : Keeps s (s.drfPair a) :=
  .after (State.drfCmd_keeps _ _) (State.wrPair_keeps s _ _)
theorem execDraftOpen_keeps (s : State) : AnswerKeeps s (execDraftOpen s) := .via (fun t => State.drfPair_keeps t _)
theorem execLoad_keeps (s : State) : AnswerKeeps s (execLoad s) := .via (fun t => State.drfPair_keeps t _)
theorem execCheck_keeps (s : State) : AnswerKeeps s (execCheck s) := .via (fun t => State.drfPair_keeps t _)
theorem execCommit_keeps (s : State) : AnswerKeeps s (execCommit s) := .via (fun t => State.drfPair_keeps t _)
theorem execAbort_keeps (s : State) : AnswerKeeps s (execAbort s) := .via (fun t => State.drfPair_keeps t _)

theorem State.commitTopo_keeps (s : State) (t : Topo) : Keeps s (s.commitTopo t) := by
  unfold State.commitTopo
  extract_lets old s1 ports _ s2
  have h1 : Keeps s s1 := State.applyTopo_keeps s t
  have h2 : Keeps s s2 := .ite h1 (.parts h1)
  exact .after (.foldl _ _ State.calStart_keeps _) h2

theorem State.commitEnergy_keeps (s : State) (old : Cfg) : Keeps s (s.commitEnergy old) := by
  unfold State.commitEnergy
  refine .foldl _ _ (fun t n => ?_) _
  extract_lets a b e
  exact .ite (State.setEnergy_keeps t n _) (.refl t)

theorem State.commitSch_keeps (s : State) (c : SchSection) : Keeps s (s.commitSch c) := by
  unfold State.commitSch
  extract_lets s1
  have h1 : Keeps s s1 := .after (State.setBit_keeps _ _ _) (State.applySch_keeps s c)
  exact .parts h1

theorem State.commitEngines_keeps (s : State) (par topo samePer : Bool) :
    Keeps s (s.commitEngines par topo samePer) := by
  unfold State.commitEngines
  extract_lets t s1
  have h1 : Keeps s s1 := .ite (.after (State.applyIsland_keeps _ t _ _ par samePer)
    (.ite (State.applyLe_keeps s t) (.refl s))) (.refl s)
  exact .ite (.after (.foldl _ _ (fun u n => State.applyAe_keeps u n t) _) h1) h1

theorem State.commitSet_keeps (s : State) (c : Sections) : Keeps s (s.commitSet c) := by
  unfold State.commitSet
  extract_lets old p0 arms0 s1 s2 _ _ s3 same s4 s5 s6 s7 s8 s9
  have h1 : Keeps s s1 := by
    unfold s1
    split
    · exact State.commitTopo_keeps s _
    · exact .refl s
  have h2 : Keeps s s2 := by
    unfold s2
    split
    · exact .after (State.commitSch_keeps s1 _) h1
    · exact h1
  have h3 : Keeps s s3 := by
    unfold s3
    split
    · exact .parts h2
    · exact h2
  have h4 : Keeps s s4 := .ite (.after (State.commitEngines_keeps s3 _ _ same) h3) h3
  have h5 : Keeps s s5 := by
    unfold s5
    split
    · exact .after (State.applyFlt_keeps s4 _ _) h4
    · exact h4
  have h6 : Keeps s s6 := by
    unfold s6
    split
    · exact .after (State.applyRecs_keeps s5 _) h5
    · exact h5
  have h7 : Keeps s s7 := by
    unfold s7
    split
    · exact .after (State.applyDev_keeps s6 _) h6
    · exact h6
  have h8 : Keeps s s8 := by
    unfold s8
    split
    · exact .after (State.launchAgain_keeps _ _) (.after (State.applyNet_keeps s7 _) h7)
    · exact h7
  have h9 : Keeps s s9 := .after (State.gstMark_keeps _ _ _) (.after (State.commitEnergy_keeps s8 old) h8)
  exact .ite (.after (State.gstCfgStop_keeps s9) h9) h9

theorem execDraftCommitBoundary_keeps (s : State) : AnswerKeeps s (execDraftCommitBoundary s) := by
  unfold execDraftCommitBoundary
  refine .ite (.next (.refl s)) ?_
  extract_lets crcs s1 _ s2
  have h1 : Keeps s s1 := .after (State.draftEmpty_keeps _) (State.commitSet_keeps s _)
  have h2 : Keeps s s2 := .parts h1
  exact .next (.after (State.setBit_keeps _ _ _)
    (.after (State.addField_keeps _ _ _ _ _) (.after (State.wr_keeps s2 _ _) h2)))

/-! ## Commands of the config key -/

theorem State.keyRefuse_keeps (s : State) : Keeps s s.keyRefuse := State.setBit_keeps s _ _

theorem State.keySeen_keeps (s : State) : Keeps s s.keySeen := by
  unfold State.keySeen
  extract_lets own u _ s1
  have hU : Keeps s u := State.setBit_keeps s _ _
  have h1 : Keeps s s1 := .parts hU
  exact .ite (.after (State.setStage_keeps s1 _) h1) (.ite (.after (State.pmScan_keeps _) (.parts h1)) h1)

theorem execKeyInsert_keeps (content : Memory) (s : State) : AnswerKeeps s (execKeyInsert content s) := by
  unfold execKeyInsert
  refine .ite (.next (.refl s)) ?_
  split
  · exact .fault
  · next hok =>
    extract_lets _ s1
    simp only [keyContentOk, Bool.not_eq_false, Bool.and_eq_true] at hok
    have h1 : Keeps s s1 := Keeps.key hok.1
    exact .next (.ite (.after (State.keySeen_keeps s1) h1) h1)

theorem execKeyRemove_keeps (s : State) : AnswerKeeps s (execKeyRemove s) := by
  unfold execKeyRemove
  refine .ite (.next (.refl s)) ?_
  extract_lets _ s1
  have h1 : Keeps s s1 := Keeps.key rfl
  exact .next (.ite (.after (State.raiseIf_keeps _ _ _) (.after (State.setBit_keeps s1 _ _) h1)) h1)

theorem State.keyCmd_keeps (s : State) (v : Word) : Keeps s (s.keyCmd v) := by
  unfold State.keyCmd
  extract_lets c
  exact .ite (.refl s) (.ite (.parts (.refl s)) (State.keyRefuse_keeps s))

theorem State.keyPair_keeps (s : State) (action slot : Nat) : Keeps s (s.keyPair action slot) := by
  unfold State.keyPair
  extract_lets v
  exact .after (State.keyCmd_keeps _ v) (State.wrPair_keeps s _ v)

theorem execKeyRead_keeps (s : State) : AnswerKeeps s (execKeyRead s) := .via (fun t => State.keyPair_keeps t _ _)
theorem execKeyWrite_keeps (s : State) : AnswerKeeps s (execKeyWrite s) := .via (fun t => State.keyPair_keeps t _ _)
theorem execKeyInvalidatePm_keeps (slot : Fin 16) (s : State) : AnswerKeeps s (execKeyInvalidatePm slot s) :=
  .via (fun t => State.keyPair_keeps t _ _)
theorem execKeyVerify_keeps (b : Bool) (s : State) : AnswerKeeps s (execKeyVerify b s) :=
  .via (fun t => State.keyPair_keeps t _ _)

theorem State.keyEffect_keeps (s : State) (c : KeyCmd) : Keeps s (s.keyEffect c) := by
  unfold State.keyEffect
  split
  · exact State.ramWrite_keeps s _ _
  · exact .after (State.lifeUp_keeps _ _) (State.keyPut_keeps s _ _)
  · exact .after (State.pmScan_keeps _) (State.keyPut_keeps s _ _)
  · extract_lets b
    exact State.putImgRes_keeps s b _

theorem execKeyCommandDone_keeps (ok : Bool) (s : State) : AnswerKeeps s (execKeyCommandDone ok s) := by
  unfold execKeyCommandDone
  split
  · exact .next (.refl s)
  · extract_lets _ s1 torn
    have h1 : Keeps s s1 := .parts (.refl s)
    have hTorn : Keeps s torn := .ite (.ite (.after (State.keyTorn_keeps s1 _ _) h1)
      (.after (State.keyTorn_keeps s1 _ _) h1)) h1
    exact .ite (.next (.after (State.setBit_keeps _ _ _) (.ite (.after (State.keyEffect_keeps s1 _) h1) h1)))
      (.ite (.next (.after (State.setBit_keeps _ _ _) (.after (State.keyEffect_keeps s1 _) h1)))
      (.next (.after (State.raise_keeps _ _) (.after (State.setBit_keeps torn _ _) hTorn))))

theorem execCounterAreaWrite_keeps (ok : Bool) (s : State) : AnswerKeeps s (execCounterAreaWrite ok s) := by
  unfold execCounterAreaWrite
  refine .ite (.next (.refl s)) ?_
  extract_lets copy seq s1
  have h1 : Keeps s s1 := State.keyPut_keeps s _ _
  exact .ite (.next (.parts h1)) (.next (.after (State.raise_keeps _ _) (State.keyTorn_keeps s _ _)))

end Sys2Proof.Machine
end

section
/-! What the commands of the station network and of the twin keep: the canonical form of the tables, and the commands
that wait. -/

namespace Sys2Proof.Machine

open Sys2Proof.Safety

/-! ## Commands of the station network -/

theorem execLinkDown_keeps (p : Fin 3) (s : State) : AnswerKeeps s (execLinkDown p s) := by
  unfold execLinkDown
  refine .ite (.next (.refl s)) ?_
  extract_lets _ s1 s2
  have h1 : Keeps s s1 := .after (State.setBit_keeps _ _ _) (.parts (.refl s))
  have h2 : Keeps s s2 := .after (State.raiseIf_keeps s1 _ _) h1
  exact .next (.ite (.after (State.pathLost_keeps s2 _) h2) h2)

theorem execLinkUp_keeps (p : Fin 3) (s : State) : AnswerKeeps s (execLinkUp p s) := by
  unfold execLinkUp
  refine .ite (.next (.refl s)) ?_
  extract_lets _ s1 recent
  have h1 : Keeps s s1 := .after (State.setBit_keeps _ _ _) (.parts (.refl s))
  exact .next (.ite (.parts h1) h1)

theorem State.orderIn_keeps (s : State) (ip : BitVec 32) (d : List Byte) : Keeps s (s.orderIn ip d) := by
  unfold State.orderIn
  extract_lets c
  exact .ite (State.ordAccept_keeps s d) (.ite (State.bump_keeps s _) (State.ordRefuse_keeps s c))

theorem State.orderFrame_keeps (s : State) (f : List Byte) : Keeps s (s.orderFrame f) := by
  unfold State.orderFrame
  split
  · exact State.orderIn_keeps s _ _
  · exact .refl s

theorem State.netFrame_keeps (s : State) (p : Nat) (f : List Byte) : Keeps s (s.netFrame p f) := by
  unfold State.netFrame
  extract_lets ts onB take s1
  have hTake : ∀ t q, Keeps t (take t q) := fun t q => .ite (State.orderFrame_keeps t f)
    (State.ringDeliver_keeps t q f ts onB)
  have h1 : Keeps s s1 := State.pathSeen_keeps s p
  refine .ite ?_ (hTake s p)
  split
  · exact hTake s _
  · extract_lets s2 r
    have h2 : Keeps s s2 := .ite (.after (State.bump_keeps s1 _) h1) h1
    refine .ite (.after (State.ringDeliver_keeps s2 p f ts onB) h2) ?_
    refine .ite (.after (hTake s2 _) h2) ?_
    split
    · exact .after (hTake _ _) (.after (State.prpTake_keeps s2 p _ _ _) h2)
    · exact .ite (.after (State.prpInstead_keeps _ _ f ts) (.after (State.prpTake_keeps s2 p _ _ _) h2))
        (.after (State.prpTake_keeps s2 p _ _ _) h2)

theorem execFrameReceive_keeps (p : Fin 3) (f : List (BitVec 8)) (s : State) : AnswerKeeps s (execFrameReceive p f s) :=
  .ite (.next (.refl s)) (.ite (.next (State.ringDeliver_keeps s _ f _ _)) (.next (State.netFrame_keeps s _ f)))

theorem execPrpSupervisionSend_keeps (s : State) : AnswerKeeps s (execPrpSupervisionSend s) := by
  unfold execPrpSupervisionSend
  refine .ite ?_ (.next (.refl s))
  extract_lets s1 s2
  have h1 : Keeps s s1 := by
    unfold s1
    split
    · exact State.elapse_keeps s _
    · exact .refl s
  have h2 : Keeps s s2 := .after (State.sentFrame_keeps s1 _ _) h1
  exact .next (.parts h2)

theorem execPrpPathTimeout_keeps (p : Fin 2) (s : State) : AnswerKeeps s (execPrpPathTimeout p s) := by
  unfold execPrpPathTimeout
  split
  · exact .ite (.next (.after (State.pathLost_keeps _ _) (State.elapse_keeps s _))) (.next (.refl s))
  · exact .next (.refl s)

theorem execOrderMessage_keeps (c : OrdCopy) (ip : BitVec 32) (d : List (BitVec 8)) (s : State) :
    AnswerKeeps s (execOrderMessage c ip d s) := by
  unfold execOrderMessage
  refine .ite (.next (.refl s)) ?_
  split
  · extract_lets s1 r
    have h1 : Keeps s s1 := State.pathSeen_keeps s _
    exact .ite (.next (.after (State.orderIn_keeps _ ip d) (.after (State.bump_keeps s1 _) h1)))
      (.next (.ite (.after (State.prpTake_keeps s1 _ _ _ _) h1)
      (.after (State.orderIn_keeps _ ip d) (.after (State.prpTake_keeps s1 _ _ _ _) h1))))
  · exact .next (State.orderIn_keeps s ip d)

theorem execOrderApply_keeps (s : State) : AnswerKeeps s (execOrderApply s) := by
  unfold execOrderApply
  split
  · extract_lets s1
    have h1 : Keeps s s1 := State.toNt_keeps s _
    exact .next (.after (State.ordEnter_keeps _ _) (.parts h1))
  · exact .next (.refl s)

theorem execOrderLifetimeExpiry_keeps (s : State) : AnswerKeeps s (execOrderLifetimeExpiry s) := by
  unfold execOrderLifetimeExpiry
  split
  · extract_lets s1
    have h1 : Keeps s s1 := State.elapse_keeps s _
    exact .next (.after (State.raise_keeps _ _) (.parts h1))
  · exact .next (.refl s)

theorem State.ordRel_keeps (s : State) : Keeps s s.ordRel := .parts (.refl s)
theorem execNetOrdRel_keeps (s : State) : AnswerKeeps s (execNetOrdRel s) := .via State.ordRel_keeps

theorem execStatusBuild_keeps (s : State) : AnswerKeeps s (execStatusBuild s) := by
  unfold execStatusBuild
  refine .ite (.next (.refl s)) ?_
  extract_lets lead s1 k launch s2 _ s3
  have h1 : Keeps s s1 := State.toNt_keeps s _
  have h2 : Keeps s s2 := .ite (.after (State.raise_keeps _ _)
    (.after (State.setBit_keeps _ _ _) (.after (State.addField_keeps s1 _ _ _ k) h1))) h1
  have h3 : Keeps s s3 := .after (.foldl _ _ (fun t p => .ite (State.setLaunch_keeps t p _) (.refl t)) _) h2
  exact .ite (.next (.parts h2)) (.next (.parts h3))

theorem State.launchTurn_keeps (s : State) (p : Nat) (x : LaunchItem) : Keeps s (s.launchTurn p x) := by
  unfold State.launchTurn
  extract_lets s1
  have h1 : Keeps s s1 := State.toNt_keeps s _
  split
  · exact h1
  · exact .after (State.toNt_keeps _ _) (.after (State.frameEnd_keeps s1 p) h1)

theorem State.launchHead_keeps (s : State) (p : Nat) (x : LaunchItem) (rest : List LaunchItem) :
    Keeps s (s.launchHead p x rest) := by
  unfold State.launchHead
  extract_lets s1 late s2 s3
  have h1 : Keeps s s1 := State.launchTurn_keeps s p x
  have h2 : Keeps s s2 := .after (State.setLaunch_keeps s1 p rest) h1
  have h3 : Keeps s s3 := .after (State.raise_keeps _ _)
    (.after (State.setBit_keeps _ _ _) (.after (State.bump_keeps s2 _) h2))
  refine .ite ?_ (.parts h2)
  split
  · extract_lets d
    exact .after (State.txStart_keeps _ p) (.after (State.descDone_keeps s3 p _ _ _ _ _) h3)
  · exact .after (State.txStart_keeps s3 p) h3

theorem execLaunchFrameSend_keeps (p : Fin 2) (s : State) : AnswerKeeps s (execLaunchFrameSend p s) := by
  unfold execLaunchFrameSend
  refine .ite (.next (.refl s)) ?_
  split
  · exact .next (.ite (State.launchHead_keeps s _ _ _) (.refl s))
  · exact .next (.refl s)

theorem State.ringTailWrite_keeps (s : State) (p r tail : Nat) : Keeps s (s.ringTailWrite p r tail) := by
  unfold State.ringTailWrite
  extract_lets old s1
  have h1 : Keeps s s1 := State.setField_keeps s _ _ _ tail
  exact .ite (.after (State.setLaunch_keeps s1 p _) h1) (.ite (.after (State.txStart_keeps s1 p) h1) h1)

theorem execRingTailWrite_keeps (p r : Fin 3) (tail : BitVec 10) (s : State) :
    AnswerKeeps s (execRingTailWrite p r tail s) :=
  .via (fun t => State.ringTailWrite_keeps t _ _ _)

theorem execFrameTransmitDone_keeps (p : Fin 3) (s : State) : AnswerKeeps s (execFrameTransmitDone p s) := by
  unfold execFrameTransmitDone
  refine .ite (.next (.refl s)) ?_
  refine .ite (.next (.after (State.txStart_keeps _ _) (State.frameEnd_keeps s _))) ?_
  split
  · exact .ite (.next (.after (State.txStart_keeps _ _) (State.txDone_keeps s _ _ _ _))) (.next (.refl s))
  · exact .next (.refl s)

theorem State.ntAdj_keeps (s : State) (v : Word) : Keeps s (s.ntAdj v) := by
  unfold State.ntAdj
  extract_lets x y s'
  have h' : Keeps s s' := .parts (.refl s)
  exact .after (State.setBitIf_keeps _ _ _ _) (.after (State.wr_keeps s' _ _) h')

theorem execNetNtAdj_keeps (v : Word) (s : State) : AnswerKeeps s (execNetNtAdj v s) :=
  .via (fun t => State.ntAdj_keeps t v)

theorem State.ntStepBy_keeps (s : State) (hi : Word) : Keeps s (s.ntStepBy hi) := by
  unfold State.ntStepBy
  extract_lets step s1 x
  have h1 : Keeps s s1 := .after (State.setBit_keeps _ _ _) (State.wr_keeps s _ hi)
  exact .after (State.ntUnlock_keeps _) (.parts h1)

theorem execNtStep_keeps (hi : Word) (s : State) : AnswerKeeps s (execNtStep hi s) :=
  .via (fun t => State.ntStepBy_keeps t hi)

theorem State.ntOffset_keeps (s : State) (v : Word) : Keeps s (s.ntOffset v) := by
  unfold State.ntOffset
  extract_lets u _ s1 n
  have hU : Keeps s u := State.wr_keeps s _ v
  have h1 : Keeps s s1 := .parts hU
  exact .ite (.parts h1) (.after (State.ntUnlock_keeps s1) h1)

theorem execNetNtOffset_keeps (v : Word) (s : State) : AnswerKeeps s (execNetNtOffset v s) :=
  .via (fun t => State.ntOffset_keeps t v)

theorem execServoUpdateTimeout_keeps (s : State) : AnswerKeeps s (execServoUpdateTimeout s) := by
  unfold execServoUpdateTimeout
  split
  · refine .ite ?_ (.next (.refl s))
    extract_lets s1
    have h1 : Keeps s s1 := State.elapse_keeps s _
    exact .next (.after (State.ntUnlock_keeps _) (.parts h1))
  · exact .next (.refl s)

theorem State.netLatchNow_keeps (s : State) : Keeps s s.netLatchNow := by
  unfold State.netLatchNow
  extract_lets n v
  exact .after (State.wr_keeps _ _ _) (.after (State.wr_keeps _ _ _)
    (.after (State.wr_keeps _ _ _) (State.wr_keeps s _ _)))

theorem execNetLatch_keeps (s : State) : AnswerKeeps s (execNetLatch s) := .via State.netLatchNow_keeps

theorem execNetNtLoRead_keeps (s : State) : AnswerKeeps s (execNetNtLoRead s) := by
  unfold execNetNtLoRead
  refine .ite ?_ (.next (.parts (.refl s)))
  extract_lets n u
  have hU : Keeps s u := State.wr_keeps s _ _
  exact .next (.parts hU)

theorem execTxtsPop_keeps (p : Fin 2) (s : State) : AnswerKeeps s (execTxtsPop p s) := by
  unfold execTxtsPop
  refine .ite ?_ (.next (.parts (.refl s)))
  split
  · extract_lets _ s1 v u
    have h1 : Keeps s s1 := .parts (.refl s)
    have hU : Keeps s u := .after (State.wr_keeps s1 _ _) h1
    exact .next (.parts hU)
  · exact .next (.parts (.refl s))

theorem execSfpDiagRead_keeps (p : Fin 2) (rx tx : BitVec 16) (s : State) : AnswerKeeps s (execSfpDiagRead p rx tx s) :=
  .via (fun t => State.wr_keeps t _ _)
theorem State.netCntClr_keeps (s : State) : Keeps s s.netCntClr :=
  .after (State.clearAll_keeps _ _) (State.setField_keeps s _ _ _ _)
theorem execNetCntClr_keeps (s : State) : AnswerKeeps s (execNetCntClr s) := .via State.netCntClr_keeps

/-! ## The commands of the twin -/

theorem execWitnessReceive_keeps (p : Fin 12) (eMax eMaxC : BitVec 16) (recs : List (BitVec 8)) (s : State) :
    AnswerKeeps s (execWitnessReceive p eMax eMaxC recs s) := by
  unfold execWitnessReceive
  refine .ite (.next (.refl s)) ?_
  refine .ite (.next (State.integrity_keeps s _)) ?_
  extract_lets x s1 s2
  have h1 : Keeps s s1 := State.setPort_keeps s _ _
  have h2 : Keeps s s2 := .after (State.wr_keeps s1 _ _) h1
  exact .next (.ite (.after (State.witness_keeps _ _ eMax) (.after (State.raiseIf_keeps s2 _ _) h2)) h2)

theorem State.leaseAudit_keeps (s : State) : Keeps s s.leaseAudit := by
  unfold State.leaseAudit
  extract_lets seen
  exact .after (State.raiseIf_keeps _ _ _) (State.raiseIf_keeps s _ _)

theorem State.dueAgain_keeps (s : State) (last : Option (BitVec 64)) (n : Nat) : Keeps s (s.dueAgain last n) := by
  unfold State.dueAgain
  split
  · exact State.advanceTo_keeps s _
  · exact .refl s

theorem execRenewSend_keeps (s : State) : AnswerKeeps s (execRenewSend s) := by
  unfold execRenewSend
  refine .ite (.next (.refl s)) ?_
  extract_lets s0 s1 arg s2 s3
  have h0 : Keeps s s0 := State.dueAgain_keeps s _ _
  have h1 : Keeps s s1 := .after (State.leaseAudit_keeps s0) h0
  have h2 : Keeps s s2 := .ite (.after (State.sendMsg_keeps s1 _ _) h1) h1
  have h3 : Keeps s s3 := .after (State.sendLease_keeps s2 _ _) h2
  exact .ite (.next h1) (.next (.parts h3))

theorem execRenew_keeps (m : TwMsgIn) (s : State) : AnswerKeeps s (execRenew m s) := by
  unfold execRenew
  refine State.onMsg_keeps _ _ fun t => ?_
  extract_lets t1 sent t2 _ t3
  have hT1 : Keeps t t1 := State.learnEpoch_keeps t _
  have hT2 : Keeps t t2 := .after (State.dropClaim_keeps t1) hT1
  have hT3 : Keeps t t3 := .parts hT2
  exact .ite hT1 (.ite hT1 (.after (State.startTrees_keeps t3) hT3))

theorem State.statusClash_keeps (s : State) (c : TwClash) : Keeps s (s.statusClash c) := by
  unfold State.statusClash
  split
  · exact .refl s
  · exact .ite (State.twnFail_keeps s _) (.refl s)
  · exact .ite (.refl s) (State.twnFail_keeps s _)

theorem execStatus_keeps (m : TwMsgIn) (clash : TwClash) (s : State) : AnswerKeeps s (execStatus m clash s) := by
  unfold execStatus
  refine State.onMsg_keeps _ _ fun t => ?_
  extract_lets was p _ t1 t2 t3 t4 t5
  have hT1 : Keeps t t1 := .parts (.refl t)
  have hT2 : Keeps t t2 := .ite (.after (State.raise_keeps t1 _) hT1) hT1
  have hT3 : Keeps t t3 := .ite hT2 (.after (State.learnEpoch_keeps t2 _) hT2)
  have hT4 : Keeps t t4 := .ite (.after (State.standDown_keeps t3) hT3) hT3
  have hT5 : Keeps t t5 := .ite (.after (State.startTrees_keeps t4) hT4) hT4
  exact .after (State.statusClash_keeps t5 clash) hT5

theorem execStatusSend_keeps (s : State) : AnswerKeeps s (execStatusSend s) := by
  unfold execStatusSend
  refine .ite (.next (.refl s)) ?_
  extract_lets t0 _ t arg
  have hT0 : Keeps s t0 := State.dueAgain_keeps s _ _
  have hT : Keeps s t := .after (State.noteHealth_keeps _) (.parts hT0)
  exact .next (.after (State.sendMsg_keeps t _ _) hT)

theorem execSurrender_keeps (m : TwMsgIn) (s : State) : AnswerKeeps s (execSurrender m s) :=
  State.onMsg_keeps _ _ (fun t => .ite (.refl t) (State.viewEnds_keeps t))

theorem execReclaim_keeps (m : TwMsgIn) (s : State) : AnswerKeeps s (execReclaim m s) := by
  unfold execReclaim
  refine State.onMsg_keeps _ _ fun t => ?_
  refine .ite ?_ (.refl t)
  extract_lets h t1
  have hT1 : Keeps t t1 := .after (State.setLease_keeps _ _) (State.sendMsg_keeps t _ _)
  exact .parts hT1

theorem execHandover_keeps (m : TwMsgIn) (s : State) : AnswerKeeps s (execHandover m s) :=
  State.onMsg_keeps _ _ (fun t => .ite (.parts (.refl t)) (.refl t))

theorem execAck_keeps (m : TwMsgIn) (s : State) : AnswerKeeps s (execAck m s) := by
  unfold execAck
  refine State.onMsg_keeps _ _ fun t => ?_
  split
  · extract_lets first t1 t2
    have hT1 : Keeps t t1 := .after (State.setBit_keeps _ _ _) (State.wr_keeps t _ _)
    have hT2 : Keeps t t2 := .after (State.wr_keeps t1 _ _) hT1
    exact .after (State.standDown_keeps _) (.after (State.wr_keeps t2 _ first) hT2)
  · exact .refl t

theorem State.retestPorts_keeps (s : State) : Keeps s s.retestPorts := by
  unfold State.retestPorts
  split
  · exact .ite (State.surrender_keeps s _ _) (.refl s)
  · exact .refl s

theorem State.handFail_keeps (s : State) (code : Nat) : Keeps s (s.handFail code) :=
  .after (State.raise_keeps _ _) (.after (State.setBit_keeps _ _ _) (State.twnResult_keeps s code))

theorem execNak_keeps (m : TwMsgIn) (s : State) : AnswerKeeps s (execNak m s) := by
  unfold execNak
  refine State.onMsg_keeps _ _ fun t => ?_
  split
  · extract_lets q t1 from_ _ t2
    have hT1 : Keeps t t1 := State.setLease_keeps t _
    have hT2 : Keeps t t2 := .parts hT1
    exact .after (State.retestPorts_keeps _) (.after (State.handFail_keeps t2 _) hT2)
  · exact .refl t

theorem execEcho_keeps (m : TwMsgIn) (s : State) : AnswerKeeps s (execEcho m s) :=
  State.onMsg_keeps _ _ (fun t => State.putMsg_keeps t _)

theorem execEchoResp_keeps (m : TwMsgIn) (ui : Fin 32) (s : State) : AnswerKeeps s (execEchoResp m ui s) := by
  unfold execEchoResp
  refine State.onMsg_keeps _ _ fun t => ?_
  split
  · exact .refl t
  · extract_lets t4 twice _ u
    have hU : Keeps t u := .after (State.wr_keeps _ _ _) (.parts (.refl t))
    exact .ite hU (.after (State.setOfs_keeps u _) hU)

theorem execTwinEchoSend_keeps (s : State) : AnswerKeeps s (execTwinEchoSend s) :=
  .ite (.next (State.sendEcho_keeps s)) (.next (.refl s))

theorem execPartnerTimeout_keeps (s : State) : AnswerKeeps s (execPartnerTimeout s) := by
  unfold execPartnerTimeout
  refine .ite ?_ (.next (.refl s))
  extract_lets t
  have hT : Keeps s t := State.advanceTo_keeps s _
  exact .next (.parts hT)

theorem State.ckptCount_keeps (s : State) (pc : BitVec 32) (len : Nat) : Keeps s (s.ckptCount pc len) :=
  .after (State.wr_keeps _ _ _) (.after (State.addField_keeps _ _ _ _ _) (State.wr_keeps s _ pc))

theorem execCheckpointCapture_keeps (s : State) : AnswerKeeps s (execCheckpointCapture s) := by
  unfold execCheckpointCapture
  extract_lets due fast part b _ s1
  have h1 : Keeps s s1 := .after (State.startXfer_keeps _ _) (.parts (.refl s))
  exact .ite (.next (.ite (.after (State.ckptCount_keeps s1 _ _) h1) h1)) (.next (.refl s))

theorem State.ckptBad_keeps (s : State) : Keeps s s.ckptBad :=
  .after (State.raise_keeps _ _) (.after (State.setBit_keeps _ _ _) (State.addField_keeps s _ _ _ _))

theorem State.ckptHold_keeps (s : State) (b : List Byte) : Keeps s (s.ckptHold b) := by
  unfold State.ckptHold
  extract_lets n _ s1 s2
  have h1 : Keeps s s1 := .parts (.refl s)
  have h2 : Keeps s s2 := .after (State.ckptCount_keeps s1 _ _) h1
  refine .ite ?_ h2
  split
  · exact .after (State.restoreFrom_keeps s2 _ _) h2
  · exact h2

theorem execCheckpointReceive_keeps (bytes : List (BitVec 8)) (s : State) :
    AnswerKeeps s (execCheckpointReceive bytes s) :=
  .ite (.next (.refl s)) (.ite (.next (State.ckptHold_keeps s bytes)) (.next (State.ckptBad_keeps s)))

theorem execCheckpointTimeout_keeps (s : State) : AnswerKeeps s (execCheckpointTimeout s) := by
  unfold execCheckpointTimeout
  extract_lets shown t
  have hT : Keeps s t := State.advanceTo_keeps s _
  exact .ite (.next (.after (State.raise_keeps _ _) (.parts hT))) (.next (.refl s))

theorem execLeaseViewExpiry_keeps (s : State) : AnswerKeeps s (execLeaseViewExpiry s) := by
  unfold execLeaseViewExpiry
  split
  · exact .next (.refl s)
  · exact .next (.ite (.refl s) (.after (State.viewEnds_keeps _) (State.advanceTo_keeps s _)))

theorem execLeaseQuerySend_keeps (s : State) : AnswerKeeps s (execLeaseQuerySend s) := by
  unfold execLeaseQuerySend
  extract_lets t0 t1 _ t u v
  have hT0 : Keeps s t0 := .after (State.noteHealth_keeps _) (State.initClaim_keeps s)
  have hT1 : Keeps s t1 := .after (State.noteHealth_keeps _) (.after (State.dueAgain_keeps t0 _ _) hT0)
  have hT : Keeps s t := .parts hT1
  have hU : Keeps s u := .ite (.after (State.viewEnds_keeps t) hT) hT
  have hV : Keeps s v := by
    unfold v
    split
    · exact .ite (.after (State.setClaim_keeps u _) hU) hU
    · exact hU
  exact .ite (.next (.after (State.sendLease_keeps v _ _) hV)) (.next hT0)

theorem execClaimDelayExpiry_keeps (s : State) : AnswerKeeps s (execClaimDelayExpiry s) := by
  unfold execClaimDelayExpiry
  split
  · split
    · exact .ite (.next (.after (State.claimNow_keeps _ _) (State.advanceTo_keeps s _))) (.next (.refl s))
    · exact .next (.refl s)
  · exact .next (.refl s)

theorem execClaimSend_keeps (s : State) : AnswerKeeps s (execClaimSend s) := by
  unfold execClaimSend
  split
  · exact .ite (.next (State.claimNow_keeps s _)) (.next (.refl s))
  · exact .next (.refl s)

theorem execEnginePowerUpDone_keeps (testOk : Bool) (s : State) : AnswerKeeps s (execEnginePowerUpDone testOk s) := by
  unfold execEnginePowerUpDone
  split
  · exact .ite (.next (.ite (.after (State.setClaim_keeps _ _) (State.enginesOn_keeps s)) (State.twnFail_keeps s _)))
      (.next (.refl s))
  · exact .next (.refl s)

theorem State.resumePrev_keeps (s : State) : Keeps s s.resumePrev :=
  .foldl _ _ (fun t n => .ite (State.setAe_keeps t n _) (.refl t)) _

theorem execRestoreDone_keeps (s : State) : AnswerKeeps s (execRestoreDone s) := by
  unfold execRestoreDone
  split
  · refine .ite ?_ (.next (.refl s))
    split
    · exact .next (.after (State.setClaim_keeps _ _)
        (.after (State.resumePrev_keeps _) (State.restoreFrom_keeps s _ _)))
    · exact .next (State.twnFail_keeps s _)
  · exact .next (.refl s)

theorem execClaimStepTimeout_keeps (s : State) : AnswerKeeps s (execClaimStepTimeout s) := by
  unfold execClaimStepTimeout
  split
  · extract_lets go
    have hGo : ∀ n code, Keeps s (go n code) := fun n code => .after (State.twnFail_keeps _ code)
      (State.advanceTo_keeps s _)
    refine .ite (.next (.refl s)) ?_
    split
    · exact .next (hGo _ _)
    · exact .next (hGo _ _)
    · exact .next (hGo _ _)
    · exact .next (.refl s)
  · exact .next (.refl s)

theorem execEpochLearnTimeout_keeps (s : State) : AnswerKeeps s (execEpochLearnTimeout s) := by
  unfold execEpochLearnTimeout
  split
  · refine .ite ?_ (.next (.refl s))
    extract_lets t
    have hT : Keeps s t := State.advanceTo_keeps s _
    exact .next (.after (State.sendClaim_keeps _ _ _) (.after (State.learnEpoch_keeps t _) hT))
  · exact .next (.refl s)

theorem execClaimConfirmTimeout_keeps (s : State) : AnswerKeeps s (execClaimConfirmTimeout s) := by
  unfold execClaimConfirmTimeout
  split
  · refine .ite ?_ (.next (.refl s))
    extract_lets t
    have hT : Keeps s t := State.advanceTo_keeps s _
    exact .next (.ite (.after (State.sendClaim_keeps t _ _) hT) (.after (State.twnFail_keeps t _) hT))
  · exact .next (.refl s)

theorem State.enterWarm_keeps (s : State) : Keeps s s.enterWarm := by
  unfold State.enterWarm
  extract_lets t u
  have hT : Keeps s t := .after (State.enginesOn_keeps _) (State.setLease_keeps s _)
  have hU : Keeps s u := by
    unfold u
    split
    · exact .after (State.resumePrev_keeps _) (.after (State.restoreFrom_keeps t _ _) hT)
    · exact hT
  exact .after (State.sendMsg_keeps u _ _) hU

theorem execReclaimHealthTimer_keeps (testOk : Bool) (s : State) : AnswerKeeps s (execReclaimHealthTimer testOk s) := by
  unfold execReclaimHealthTimer
  split
  · extract_lets t
    have hT : Keeps s t := .after (State.noteHealth_keeps _) (State.advanceTo_keeps s _)
    exact .ite (.next (.ite (.after (State.enterWarm_keeps t) hT) (.after (State.twnFail_keeps t _) hT))) (.next hT)
  · exact .next (.refl s)

theorem execLiveCapture_keeps (s : State) : AnswerKeeps s (execLiveCapture s) := by
  unfold execLiveCapture
  split
  · refine .ite ?_ (.next (.refl s))
    extract_lets t b _ u
    have hT : Keeps s t := State.advanceTo_keeps s _
    have hU : Keeps s u := .parts hT
    exact .next (.after (State.startXfer_keeps u _) hU)
  · exact .next (.refl s)

theorem State.liveFail_keeps (s : State) : Keeps s s.liveFail := by
  unfold State.liveFail
  extract_lets t
  have hT : Keeps s t := .after (State.handFail_keeps _ _) (State.sendMsg_keeps s _ _)
  exact .after (State.standDown_keeps _) (.parts hT)

theorem State.handTake_keeps (s : State) (h : Hand) (first : BitVec 32) (code : Nat) :
    Keeps s (s.handTake h first code) := by
  unfold State.handTake
  extract_lets t
  have hT : Keeps s t := State.becomeDuty_keeps s _
  exact .after (State.sendMsg_keeps _ _ _) (.after (State.tookOver_keeps t code _ _ first) hT)

theorem execLiveReceive_keeps (bytes : List (BitVec 8)) (s : State) : AnswerKeeps s (execLiveReceive bytes s) := by
  unfold execLiveReceive
  split
  · extract_lets ok t
    have hT : Keeps s t := .after (State.writeLive_keeps _ bytes) (State.learnEpoch_keeps s _)
    exact .ite (.next (.refl s)) (.ite (.next (State.liveFail_keeps s))
      (.ite (.next (.after (State.handTake_keeps t _ _ _) hT))
      (.ite (.next (.after (State.handTake_keeps t _ _ _) hT)) (.next (State.liveFail_keeps s)))))
  · exact .next (.refl s)

theorem execLiveDeadline_keeps (s : State) : AnswerKeeps s (execLiveDeadline s) := by
  unfold execLiveDeadline
  split
  · exact .next (.after (State.liveFail_keeps _) (State.advanceTo_keeps s _))
  · exact .next (.refl s)

theorem execHandingTimeout_keeps (s : State) : AnswerKeeps s (execHandingTimeout s) := by
  unfold execHandingTimeout
  split
  · exact .next (.after (State.standDown_keeps _) (.after (State.handFail_keeps _ _) (State.advanceTo_keeps s _)))
  · exact .next (.refl s)

theorem State.twnCmd_keeps (s : State) (v : Word) : Keeps s (s.twnCmd v) := by
  unfold State.twnCmd
  split
  · exact .ite (State.surrender_keeps s _ _) (State.setBit_keeps s _ _)
  · refine .ite ?_ (State.setBit_keeps s _ _)
    extract_lets t
    have hT : Keeps s t := State.setLease_keeps s _
    exact .parts hT
  · exact .ite (State.standDown_keeps s) (State.setBit_keeps s _ _)
  · exact .refl s

theorem execTwnSurrenderCmd_keeps (s : State) : AnswerKeeps s (execTwnSurrenderCmd s) :=
  .via (fun t => .after (State.twnCmd_keeps _ _) (State.wrPair_keeps t _ _))
theorem execTwnRetry_keeps (s : State) : AnswerKeeps s (execTwnRetry s) :=
  .via (fun t => .after (State.twnCmd_keeps _ _) (State.wrPair_keeps t _ _))
theorem execTwnAbortWarm_keeps (s : State) : AnswerKeeps s (execTwnAbortWarm s) :=
  .via (fun t => .after (State.twnCmd_keeps _ _) (State.wrPair_keeps t _ _))
theorem execTwnCntClr_keeps (s : State) : AnswerKeeps s (execTwnCntClr s) := .via (fun t => State.wr_keeps t _ _)

end Sys2Proof.Machine
end

section
/-! What the CAN ports, the safety channels, the field I/O, the DMA engine and the supervisor keep: the canonical form
of the tables, and the commands that wait. -/

namespace Sys2Proof.Machine

open Sys2Proof.Safety

/-! ## The CAN FD ports (R802 to R820) -/

theorem State.canRefuse_keeps (s : State) (p : Nat) : Keeps s (s.canRefuse p) := State.setBit_keeps s _ _
theorem State.canAudit_keeps (s : State) (p : Nat) : Keeps s (s.canAudit p) :=
  .ite (.refl s) (.after (State.raise_keeps _ _) (State.setBit_keeps s _ _))
theorem State.canUnpend_keeps (s : State) (p b : Nat) : Keeps s (s.canUnpend p b) :=
  .after (State.clrBit_keeps _ _ _) (State.clrBit_keeps s _ _)

theorem State.canDiscard_keeps (s : State) (p b reason : Nat) : Keeps s (s.canDiscard p b reason) := by
  unfold State.canDiscard
  extract_lets s1
  have h1 : Keeps s s1 := .after (State.wr_keeps _ _ _) (State.canUnpend_keeps s p b)
  exact .after (State.canAudit_keeps _ p) (.after (State.setBit_keeps _ _ _) (.after (State.wr_keeps s1 _ _) h1))

theorem State.canReq_keeps (s : State) (p b : Nat) : Keeps s (s.canReq p b) := by
  unfold State.canReq
  extract_lets cfg s1
  have h1 : Keeps s s1 := .after (State.wr_keeps _ _ _) (State.setBit_keeps s _ _)
  exact .ite (State.canRefuse_keeps s p) (.after (State.wr_keeps s1 _ _) h1)

theorem State.canReqs_keeps (s : State) (p : Nat) (m : BitVec 64) : Keeps s (s.canReqs p m) :=
  .foldl _ _ (fun t b => State.canReq_keeps t p b) _

theorem State.canAborts_keeps (s : State) (p : Nat) (m : BitVec 64) (cur : Option (Fin 64)) :
    Keeps s (s.canAborts p m cur) :=
  .foldl _ _ (fun t b => .ite (.refl t) (.ite (State.setBit_keeps t _ _) (State.canDiscard_keeps t p b _))) _

theorem State.canStore_keeps (s : State) (p b : Nat) (f : CanFrame) (ts : Word) : Keeps s (s.canStore p b f ts) := by
  unfold State.canStore
  extract_lets s1 s2 s3
  have h1 : Keeps s s1 := State.setBit_keeps s _ _
  have h2 : Keeps s s2 := .after (State.wr_keeps _ _ ts)
    (.after (State.wr_keeps _ _ _) (.after (State.wr_keeps s1 _ _) h1))
  have h3 : Keeps s s3 := .after (State.tick1_keeps _) (.after (.foldl _ _ (fun t _ => State.wr_keeps t _ _) _) h2)
  exact .after (State.setBit_keeps s3 _ _) h3

theorem State.canFilter_keeps (s : State) (p : Nat) (f : CanFrame) (ts : Word) : Keeps s (s.canFilter p f ts) := by
  unfold State.canFilter
  extract_lets l
  split
  · exact State.canStore_keeps s p _ f ts
  · split
    · exact .after (State.setBit_keeps _ _ _) (State.canStore_keeps s p _ f ts)
    · exact .ite (State.bump_keeps s _) (.after (State.setBit_keeps _ _ _) (State.bump_keeps s _))

theorem State.canSent_keeps (s : State) (p b : Nat) (start : Word) : Keeps s (s.canSent p b start) := by
  unfold State.canSent
  extract_lets own s1 s2
  have h1 : Keeps s s1 := .after (State.wr_keeps _ _ start)
    (.after (State.wr_keeps _ _ _) (State.canUnpend_keeps s p b))
  have h2 : Keeps s s2 := .after (State.canAudit_keeps _ p) (.after (State.setBit_keeps s1 _ _) h1)
  exact .ite (.after (State.canFilter_keeps s2 p own start) h2) h2

theorem State.canEnter_keeps (s : State) (p : Nat) (st : CanSt) : Keeps s (s.canEnter p st) := by
  unfold State.canEnter
  extract_lets x s1 s1'
  have h1 : Keeps s s1 := .after (State.setBit_keeps _ _ _) (State.setCan_keeps s p _)
  have h1' : Keeps s s1' := .after (State.raise_keeps _ _)
    (.after (State.setBit_keeps _ _ _) (State.setCan_keeps s p _))
  split
  · exact State.setCan_keeps s p _
  · exact .ite (.after (State.raise_keeps s1 _) h1) h1
  · exact .ite (.after (State.setCan_keeps s1' p _) h1') h1'
  · exact State.setCan_keeps s p _
  · exact State.setCan_keeps s p _

theorem State.canInitSet_keeps (s : State) (p : Nat) : Keeps s (s.canInitSet p) := by
  unfold State.canInitSet
  extract_lets s1
  have h1 : Keeps s s1 := .after (State.canEnter_keeps _ p _) (State.setBit_keeps s _ _)
  exact .after (.foldl _ _ (fun t b => State.canDiscard_keeps t p b _) _) h1

theorem State.canRec_keeps (s : State) (p : Nat) : Keeps s (s.canRec p) := .ite (State.canEnter_keeps s p _) (.refl s)

theorem State.canCtl_keeps (s : State) (p : Nat) (v : Word) : Keeps s (s.canCtl p v) := by
  unfold State.canCtl
  extract_lets was loop s1 s2
  have h1 : Keeps s s1 := State.wr_keeps s _ _
  have h2 : Keeps s s2 := .ite (.after (State.canInitSet_keeps s1 p) h1)
    (.ite (.after (State.setCan_keeps _ p _) (.after (State.clrBit_keeps s1 _ _) h1)) h1)
  exact .ite (.after (State.canRec_keeps s2 p) h2) h2

theorem State.canTiming_keeps (s : State) (p : Nat) (k : CanTiming) (v : Word) : Keeps s (s.canTiming p k v) := by
  unfold State.canTiming
  refine .ite (State.canRefuse_keeps s p) ?_
  split
  · exact .ite (State.wr_keeps s _ _) (State.canRefuse_keeps s p)
  · exact .ite (State.wr_keeps s _ _) (State.canRefuse_keeps s p)
  · exact State.wr_keeps s _ _

theorem State.canBufWrite_keeps (s : State) (p b a : Nat) (v : Word) : Keeps s (s.canBufWrite p b a v) :=
  .ite (State.canRefuse_keeps s p) (State.wr_keeps s a v)
theorem State.canCntClr_keeps (s : State) (p : Nat) : Keeps s (s.canCntClr p) := State.clearAll_keeps s _

/-! ## The safety channels (R680 to R720) -/

theorem State.fieldEvent_keeps (s : State) (n : Nat) : Keeps s (s.fieldEvent n) := by
  unfold State.fieldEvent
  extract_lets f b
  exact .ite (.refl s) (.ite (.parts (.refl s)) (.parts (.refl s)))

theorem State.safNote_keeps (s : State) (b : Nat) : Keeps s (s.safNote b) := .parts (.refl s)
theorem State.safLost_keeps (s : State) (x : SafCh) : Keeps s (s.safLost x) := .ite (State.safNote_keeps s _) (.refl s)

theorem State.safTrip_keeps (s : State) (c : Nat) (k : SafCause) : Keeps s (s.safTrip c k) := by
  unfold State.safTrip
  extract_lets x known first x1 s1 _ s2 s3
  have h1 : Keeps s s1 := .after (State.safLost_keeps _ x) (State.setSafCh_keeps s c x1)
  have h2 : Keeps s s2 := .ite (.parts h1) h1
  have h3 : Keeps s s3 := .ite h2 (.after (State.safNote_keeps _ _) (.after (State.fieldEvent_keeps s2 _) h2))
  exact .ite (.refl s) (.ite h3 (.after (State.blockNow_keeps s3) h3))

theorem State.safSwitch_keeps (s : State) (c so : Nat) (v : Bool) : Keeps s (s.safSwitch c so v) := by
  unfold State.safSwitch
  extract_lets s1
  have h1 : Keeps s s1 := State.setSafCh_keeps s c _
  refine .ite h1 ?_
  refine .after (.foldl _ _ (fun t k => ?_) _) h1
  extract_lets x
  exact .ite (State.setSafCh_keeps t k _) (.refl t)

theorem State.safLook_keeps (s : State) : Keeps s s.safLook := by
  unfold State.safLook
  extract_lets out earth _ s1
  have h1 : Keeps s s1 := .parts (.refl s)
  clear_value earth
  split
  · exact .ite (.after (State.safNote_keeps _ _) (.after (State.fieldEvent_keeps s1 _) h1))
      (.ite (.after (State.safNote_keeps s1 _) h1) h1)
  · exact h1

theorem State.safEval_keeps (s : State) (c : Nat) : Keeps s (s.safEval c) := by
  unfold State.safEval
  split
  · exact .after (State.safLook_keeps _) (.foldl _ _ (fun t so => State.safSwitch_keeps t c so _) _)
  · extract_lets put order
    have hPut : ∀ t so, Keeps t (put t so) := by
      intro t so
      unfold put
      extract_lets earthOn
      exact State.safSwitch_keeps t c so _
    exact .after (State.safLook_keeps _) (.foldl _ _ hPut _)

theorem State.safBoth_keeps (s : State) : Keeps s s.safBoth :=
  .after (State.safEval_keeps _ _) (State.safEval_keeps s _)

theorem State.safBank_keeps (s : State) (c : Nat) : Keeps s (s.safBank c) := by
  unfold State.safBank
  extract_lets x
  exact .ite (.refl s) (.after (State.safTrip_keeps _ c _)
    (.after (State.safNote_keeps _ _) (.after (State.fieldEvent_keeps _ _) (State.setSafCh_keeps s c _))))

theorem State.safPair_keeps (s : State) (c : Nat) (b : List Byte) (ins : BitVec 32) (i : Nat) :
    Keeps s (s.safPair c b ins i) := by
  unfold State.safPair
  extract_lets x r s1 fell s2
  have h1 : Keeps s s1 := State.setSafCh_keeps s c _
  have h2 : Keeps s s2 := .ite (.after (State.fieldEvent_keeps s1 _) h1)
    (.ite (.after (State.fieldEvent_keeps s1 _) h1) h1)
  exact .ite (.after (State.safTrip_keeps _ c _)
    (.after (State.safNote_keeps _ _) (.after (State.fieldEvent_keeps s2 _) h2))) h2

theorem State.safRoleTrips_keeps (s : State) (c : Nat) (b : List Byte) : Keeps s (s.safRoleTrips c b) := by
  unfold State.safRoleTrips
  extract_lets x s1 s2
  have h1 : Keeps s s1 := .ite (.refl s) (State.safTrip_keeps s c _)
  have h2 : Keeps s s2 := .ite h1 (.after (State.safTrip_keeps s1 c _) h1)
  exact .ite h2 (.after (State.safTrip_keeps s2 c _) h2)

theorem State.safHeld_keeps (s : State) (c : Nat) : Keeps s (s.safHeld c) :=
  .after (State.safNote_keeps _ _) (.after (State.fieldEvent_keeps _ _) (State.setSafCh_keeps s c _))

theorem State.safResetIn_keeps (s : State) (c : Nat) (b : List Byte) (r caused : Bool) :
    Keeps s (s.safResetIn c b r caused) := by
  unfold State.safResetIn
  extract_lets x edge zeros ones s1 s2
  have h1 : Keeps s s1 := State.setSafCh_keeps s c _
  have h2 : Keeps s s2 := .ite (.after (State.safHeld_keeps s1 c) h1) h1
  exact .ite h2 (.ite (.after (State.setSafCh_keeps s2 c _) h2) (.after (State.safNote_keeps s2 _) h2))

theorem State.safSample_keeps (s : State) (c : Nat) (ins : BitVec 32) : Keeps s (s.safSample c ins) := by
  unfold State.safSample
  split
  · exact .refl s
  · extract_lets before s1 s2
    have h1 : Keeps s s1 := .after (State.safRoleTrips_keeps _ c _)
      (.foldl _ _ (fun t i => State.safPair_keeps t c _ ins i) _)
    have h2 : Keeps s s2 := .after (State.safResetIn_keeps s1 c _ _ _) h1
    exact .after (State.safEval_keeps s2 c) h2

theorem State.safAdopt_keeps (s : State) (c : Nat) : Keeps s (s.safAdopt c) := by
  unfold State.safAdopt
  extract_lets x y s1
  have h1 : Keeps s s1 := .after (State.safLost_keeps _ x) (State.setSafCh_keeps s c _)
  exact .ite (.refl s) (.ite h1 (.after (State.blockNow_keeps s1) h1))

theorem State.safConfirm_keeps (s : State) : Keeps s s.safConfirm := by
  unfold State.safConfirm
  refine .ite ?_ ?_
  · extract_lets s1
    have h1 : Keeps s s1 := .after (State.setSafCh_keeps _ _ _) (State.setSafCh_keeps s _ _)
    exact .after (State.safNote_keeps _ _) (.parts h1)
  · refine .foldl _ _ (fun t c => ?_) _
    split
    · exact .ite (.after (State.safNote_keeps _ _) (State.setSafCh_keeps t c _)) (.refl t)
    · exact .refl t

theorem State.safOutFail_keeps (s : State) (so : Nat) : Keeps s (s.safOutFail so) := by
  unfold State.safOutFail
  extract_lets _ s1 brk
  have h1 : Keeps s s1 := .after (State.safNote_keeps _ _) (.after (State.fieldEvent_keeps _ _) (.parts (.refl s)))
  exact .after (State.safBoth_keeps _) (.ite (.after (State.safTrip_keeps _ _ _)
    (.after (State.safTrip_keeps s1 _ _) h1)) h1)

theorem State.safChunk_keeps (s : State) (c idx : Nat) (data : List Byte) : Keeps s (s.safChunk c idx data) := by
  unfold State.safChunk
  extract_lets x l s1 s2
  have h1 : Keeps s s1 := State.setSafCh_keeps s c _
  have h2 : Keeps s s2 := .ite (.after (State.safNote_keeps s1 _) h1) h1
  exact .ite (.refl s) (.ite (State.setSafCh_keeps s c _)
    (.ite (.after (State.safEval_keeps _ c) (.after (State.safBank_keeps s2 c) h2))
    (.after (State.safNote_keeps _ _) (State.setSafCh_keeps s c _))))

/-! ## The field-I/O island and the isolation link (R721 to R740) -/

theorem State.fioNote_keeps (s : State) (b : Nat) : Keeps s (s.fioNote b) := .parts (.refl s)

theorem State.fioOut_keeps (s : State) (v : Word) : Keeps s (s.fioOut v) := by
  unfold State.fioOut
  extract_lets old u
  have hU : Keeps s u := State.wr_keeps s _ _
  exact .parts hU

theorem State.downSend_keeps (s : State) : Keeps s s.downSend := by
  unfold State.downSend
  extract_lets f next u
  have hU : Keeps s u := State.tick1_keeps s
  exact .parts hU

theorem State.downLost_keeps (s : State) : Keeps s s.downLost := by
  unfold State.downLost
  extract_lets f s1
  have h1 : Keeps s s1 := .parts (.refl s)
  exact .ite (.after (State.fioNote_keeps _ _) (.after (State.fieldEvent_keeps _ _) (.parts h1))) h1

theorem State.downTake_keeps (s : State) (d : BitVec 256) : Keeps s (s.downTake d) := by
  unfold State.downTake
  extract_lets f go f1 s1
  have h1 : Keeps s s1 := .parts (.refl s)
  exact .ite (.after (State.fioNote_keeps s1 _) h1) h1

theorem State.downReceive_keeps (s : State) (d : BitVec 256) : Keeps s (s.downReceive d) :=
  .ite (.after (State.fieldEvent_keeps _ _) (.parts (.refl s)))
    (.ite (.refl s) (.ite (.after (State.fieldEvent_keeps _ _) (State.downLost_keeps s)) (State.downTake_keeps s d)))

theorem State.safShowBlock_keeps (s : State) (ok : Bool) : Keeps s (s.safShowBlock ok) := by
  unfold State.safShowBlock
  extract_lets b crc nibbles s1 s2 s3
  have h1 : Keeps s s1 := .after (State.wr_keeps _ _ _) (.after (State.wr_keeps _ _ _) (State.wr_keeps s _ crc))
  have h2 : Keeps s s2 := .after (State.wr_keeps _ _ _) (.after (State.wr_keeps s1 _ _) h1)
  have h3 : Keeps s s3 := .after (State.wr_keeps s2 _ _) h2
  exact .after (.foldl _ _ (fun t _ => State.wr_keeps t _ _) _) h3

theorem State.safShow_keeps (s : State) (u : BitVec 256) : Keeps s (s.safShow u) := by
  unfold State.safShow
  extract_lets n ok crc s1 s2 s3 s4 s5 s6 u'
  have h1 : Keeps s s1 := .after (State.setBits_keeps _ _ _) (State.wr_keeps s _ _)
  have h2 : Keeps s s2 := .after (State.wr_keeps s1 _ _) h1
  have h3 : Keeps s s3 := .after (State.wr_keeps s2 _ _) h2
  have h4 : Keeps s s4 := .after (State.wr_keeps _ _ _) (.after (State.wr_keeps s3 _ _) h3)
  have h5 : Keeps s s5 := .after (State.addField_keeps _ _ _ _ _) (.after (State.addField_keeps s4 _ _ _ _) h4)
  have h6 : Keeps s s6 := .after (State.addField_keeps _ _ _ _ _) (.after (State.addField_keeps s5 _ _ _ _) h5)
  have hU' : Keeps s u' := .after (State.safShowBlock_keeps s6 ok) h6
  exact .parts hU'

theorem State.fioShow_keeps (s : State) (u : BitVec 256) : Keeps s (s.fioShow u) := by
  unfold State.fioShow
  extract_lets ins changed s1 s2 s3 was now s4 s5
  have h1 : Keeps s s1 := .after (State.setBitIf_keeps _ _ _ _) (.after (State.wr_keeps _ _ _) (State.wr_keeps s _ ins))
  have h2 : Keeps s s2 := .after (State.wr_keeps s1 _ _) h1
  have h3 : Keeps s s3 := .after (State.wr_keeps s2 _ _) h2
  have h4 : Keeps s s4 := .after (State.addField_keeps _ _ _ _ _) (.after (State.addField_keeps s3 _ _ _ _) h3)
  have h5 : Keeps s s5 := .after (State.wr_keeps s4 _ _) h4
  exact .parts h5

theorem State.isoEvents_keeps (s : State) (u : BitVec 256) : Keeps s (s.isoEvents u) := by
  unfold State.isoEvents
  extract_lets no set _ s1 s2
  have h1 : Keeps s s1 := .parts (.refl s)
  have h2 : Keeps s s2 := .after (State.setBitIf_keeps _ _ _ _)
    (.after (State.setBitIf_keeps _ _ _ _) (.after (State.setBitIf_keeps _ _ _ _)
    (.after (State.setBitIf_keeps s1 _ _ _) h1)))
  exact .ite (.refl s) (.after (.foldl _ _ (fun t _ => .ite (State.raise_keeps t _) (.refl t)) _) h2)

theorem State.upReceive_keeps (s : State) (u : BitVec 256) : Keeps s (s.upReceive u) :=
  .ite (.after (State.raise_keeps _ _) (.after (State.setBit_keeps _ _ _) (State.addField_keeps s _ _ _ _)))
    (.ite (.refl s) (.after (State.isoEvents_keeps _ u) (.after (State.safShow_keeps _ u) (State.fioShow_keeps s u))))

theorem State.upLost_keeps (s : State) : Keeps s s.upLost := by
  unfold State.upLost
  extract_lets n u _ s1
  have hU : Keeps s u := State.addField_keeps s _ _ _ _
  have h1 : Keeps s s1 := .parts hU
  exact .ite (.after (State.raise_keeps _ _) (.after (State.setBit_keeps _ _ _) (.parts h1))) h1

theorem State.fioOvlClr_keeps (s : State) (v : BitVec 16) : Keeps s (s.fioOvlClr v) := .parts (.refl s)
theorem State.fioCntClr_keeps (s : State) : Keeps s s.fioCntClr := State.clearAll_keeps s _
theorem State.safCntClr_keeps (s : State) : Keeps s s.safCntClr := State.clearAll_keeps s _
theorem State.fioResume_keeps (s : State) : Keeps s s.fioResume := .parts (.refl s)

/-! ## The interrupt controller -/

theorem execPlicClaim_keeps (c : Fin 8) (s : State) : AnswerKeeps s (execPlicClaim c s) := by
  unfold execPlicClaim
  refine .ite ?_ (.next (.parts (.refl s)))
  extract_lets i _ d
  exact .next (.parts (.refl s))

theorem State.plicComplete_keeps (s : State) (c : Nat) (id : Word) : Keeps s (s.plicComplete c id) :=
  .ite (.parts (.refl s)) (.refl s)
theorem execPlicComplete_keeps (c : Fin 8) (id : Word) (s : State) : AnswerKeeps s (execPlicComplete c id s) :=
  .via (fun t => State.plicComplete_keeps t _ id)

/-! ## The DMA engine (R652 to R665) -/

theorem State.setDmaDesc_keeps (s : State) (n a : Nat) : Keeps s (s.setDmaDesc n a) :=
  .after (State.wr_keeps _ _ _) (State.wr_keeps s _ _)
theorem State.dmaHanded_keeps (s : State) (n : Nat) : Keeps s (s.dmaHanded n) := State.setField_keeps s _ _ _ _
theorem State.dmaReturned_keeps (s : State) (n : Nat) : Keeps s (s.dmaReturned n) :=
  .after (State.addField_keeps _ _ _ _ _) (State.setField_keeps s _ _ _ _)
theorem State.dmaAudit_keeps (s : State) (n : Nat) : Keeps s (s.dmaAudit n) :=
  .ite (.refl s) (.after (State.raise_keeps _ _) (State.setBit_keeps s _ _))

theorem State.dmaIdle_keeps (s : State) (n : Nat) : Keeps s (s.dmaIdle n) :=
  .after (State.dmaAudit_keeps _ n) (.after (State.setBit_keeps _ _ _)
    (.after (State.clrBit_keeps _ _ _) (State.setDmaCh_keeps s n _)))

theorem State.dmaFetch_keeps (s : State) (n : Nat) : Keeps s (s.dmaFetch n) := by
  unfold State.dmaFetch
  extract_lets d
  exact .ite (.after (State.dmaHanded_keeps _ n) (.after (State.wr_keeps _ _ _) (State.setDmaCh_keeps s n _)))
    (State.dmaIdle_keeps s n)

theorem State.dmaStart_keeps (s : State) (n : Nat) (answered : Bool) : Keeps s (s.dmaStart n answered) := by
  unfold State.dmaStart
  refine .ite (State.setBit_keeps s _ _) ?_
  extract_lets s1
  have h1 : Keeps s s1 := State.setField_keeps s _ _ _ _
  exact .ite (.after (State.dmaFetch_keeps s1 n) h1) (.after (State.setDmaCh_keeps s1 n _) h1)

theorem State.dmaMove_keeps (s : State) (d : DmaDesc) (moved : Nat) : Keeps s (s.dmaMove d moved) := by
  unfold State.dmaMove
  extract_lets src k s1
  have h1 : Keeps s s1 := State.tick1_keeps s
  exact .ite (.after (State.busWrite_keeps s1 _ _) h1) (.after (State.busWrite_keeps s1 _ _) h1)

theorem State.dmaGiveBack_keeps (s : State) (d : DmaDesc) (status : Nat) (own : Bool) :
    Keeps s (s.dmaGiveBack d status own) := by
  unfold State.dmaGiveBack
  extract_lets c s1
  have h1 : Keeps s s1 := State.busWrite_keeps s _ _
  exact .ite (.after (State.busWrite_keeps s1 _ _) h1) h1

theorem State.dmaReturn_keeps (s : State) (n : Nat) (d : DmaDesc) (status moved : Nat) :
    Keeps s (s.dmaReturn n d status moved) := by
  unfold State.dmaReturn
  extract_lets s1
  have h1 : Keeps s s1 := .after (State.wr_keeps _ _ _)
    (.after (State.setField_keeps _ _ _ _ status) (State.dmaGiveBack_keeps s d status _))
  exact .after (State.setBitIf_keeps _ _ _ _) (.after (State.dmaAudit_keeps _ n)
    (.after (State.dmaReturned_keeps s1 n) h1))

theorem State.dmaPart_keeps (s : State) (d : DmaDesc) (k : Nat) : Keeps s (s.dmaPart d k).1 := by
  unfold State.dmaPart
  extract_lets m
  exact .ite (.refl s) (State.dmaMove_keeps s d m)

theorem State.dmaError_keeps (s : State) (n : Nat) : Keeps s (s.dmaError n) :=
  .after (State.setBit_keeps _ _ _) (State.dmaIdle_keeps s n)

theorem State.dmaAfter_keeps (s : State) (n : Nat) (d : DmaDesc) (status : Nat) (t : DmaThen) :
    Keeps s (s.dmaAfter n d status t) := by
  unfold State.dmaAfter
  refine .ite (.after (State.setBitIf_keeps _ _ _ _) (State.dmaError_keeps s n)) ?_
  extract_lets chain s1
  have h1 : Keeps s s1 := .ite (State.setDmaDesc_keeps s n _) (.refl s)
  exact .ite (.after (State.setBit_keeps _ _ _) (.after (State.dmaIdle_keeps s1 n) h1))
    (.ite (.after (State.dmaIdle_keeps s1 n) h1)
    (.ite (.after (State.raise_keeps _ _) (.after (State.setBit_keeps _ _ _) (.after (State.dmaIdle_keeps s1 n) h1)))
    (.ite (.after (State.setDmaCh_keeps s1 n _) h1) (.after (State.dmaFetch_keeps s1 n) h1))))

theorem State.dmaStopped_keeps (s : State) (n : Nat) (d : DmaDesc) (e : DmaEnd) : Keeps s (s.dmaStopped n d e) := by
  unfold State.dmaStopped
  extract_lets o s1
  have hpart : Keeps s o.2.1 := by
    unfold o
    split <;> exact State.dmaPart_keeps s d _
  have h1 : Keeps s s1 := .after (State.dmaReturn_keeps _ n d _ _) hpart
  exact .after (State.setBit_keeps _ _ _) (.ite (.after (State.dmaIdle_keeps s1 n) h1)
    (.after (State.dmaError_keeps s1 n) h1))

theorem State.dmaStop_keeps (s : State) (n : Nat) (h : DmaHalt) : Keeps s (s.dmaStop n h) := by
  unfold State.dmaStop
  extract_lets x
  refine .ite (State.clrBit_keeps s _ _) ?_
  split
  · exact .after (State.setBit_keeps _ _ _) (State.dmaIdle_keeps s n)
  · exact State.dmaStopped_keeps s n _ _
  · exact .after (State.setBit_keeps _ _ _) (State.setDmaCh_keeps s n _)

theorem State.dmaTimeout_keeps (s : State) (n : Nat) (a : DmaAccess) : Keeps s (s.dmaTimeout n a) := by
  unfold State.dmaTimeout
  extract_lets x
  refine .ite (.refl s) ?_
  split
  · extract_lets m
    exact .after (State.raise_keeps _ _) (.after (State.dmaError_keeps _ n)
      (.after (State.dmaGiveBack_keeps _ _ _ _) (.after (State.wr_keeps _ _ _) (State.dmaPart_keeps s _ _))))
  · extract_lets m
    exact .after (State.raise_keeps _ _) (.after (State.dmaError_keeps _ n)
      (.after (State.dmaReturn_keeps _ n _ _ _) (State.dmaPart_keeps s _ _)))
  · exact .after (State.raise_keeps _ _) (.after (State.dmaError_keeps _ n) (State.dmaReturn_keeps s n _ _ _))
  · exact .after (State.raise_keeps _ _) (State.dmaError_keeps s n)

theorem State.dmaCtl_keeps (s : State) (n : Nat) (v : Word) : Keeps s (s.dmaCtl n v) := by
  unfold State.dmaCtl
  extract_lets s1
  have h1 : Keeps s s1 := .ite (State.dmaStop_keeps s n _) (.refl s)
  exact .ite (.after (State.dmaStart_keeps s1 n _) h1) h1

/-! ## The arbiter of DRAM channel B and the memory errors (R666 to R674) -/

theorem State.memGrant_keeps (s : State) (r : Nat) : Keeps s (s.memGrant r) := State.bump_keeps s _

theorem State.memTree_keeps (s : State) (want : Nat → Bool) : Keeps s (s.memTree want) := by
  unfold State.memTree
  extract_lets g
  clear_value g
  split
  · exact .refl s
  · split
    · exact .refl s
    · exact .after (State.memGrant_keeps _ _) (.parts (.refl s))

theorem State.memRing_keeps (s : State) (want : Nat → Bool) : Keeps s (s.memRing want) := by
  unfold State.memRing
  extract_lets c m
  refine .ite (.after (State.memGrant_keeps _ c) (.parts (.refl s))) ?_
  split
  · exact .parts (.refl s)
  · exact .after (State.memGrant_keeps _ _) (.parts (.refl s))

theorem State.memSlot_keeps (s : State) (want : BitVec 29) : Keeps s (s.memSlot want) := by
  unfold State.memSlot
  extract_lets others slice _ m s1
  have h1 : Keeps s s1 := .parts (.refl s)
  exact .ite (.after (State.memGrant_keeps s1 _) h1)
    (.ite (.after (State.memRing_keeps s1 _) h1) (.after (State.memTree_keeps s1 _) h1))

theorem State.memMode_keeps (s : State) (v : Word) : Keeps s (s.memMode v) := .parts (State.wr_keeps s _ _)
theorem State.memGrantClr_keeps (s : State) : Keeps s s.memGrantClr := State.clearAll_keeps s _
theorem State.setScCore_keeps (s : State) (c : Nat) (x : ScCore) : Keeps s (s.setScCore c x) := .parts (.refl s)
theorem State.coreFault_keeps (s : State) (c : Nat) (k : AccKind) : Keeps s (s.coreFault c k) :=
  .after (State.setScCore_keeps _ c _) (.parts (.refl s))

theorem State.eccCorrected_keeps (s : State) (chB : Bool) : Keeps s (s.eccCorrected chB) := by
  unfold State.eccCorrected
  extract_lets s1
  have h1 : Keeps s s1 := .after (State.setBit_keeps _ _ _) (State.addField_keeps s _ _ _ _)
  exact .after (State.raise_keeps s1 _) h1

theorem State.eccLatch_keeps (s : State) (chB : Bool) (a : BitVec 35) : Keeps s (s.eccLatch chB a) := by
  unfold State.eccLatch
  extract_lets s1 s2
  have h1 : Keeps s s1 := .after (State.setBit_keeps _ _ _) (State.addField_keeps s _ _ _ _)
  have h2 : Keeps s s2 := .after (State.wr_keeps _ _ _) (.after (State.wr_keeps s1 _ _) h1)
  exact .after (State.raise_keeps s2 _) h2

theorem State.eccReader_keeps (s : State) (w : EccReader) : Keeps s (s.eccReader w) := by
  unfold State.eccReader
  split
  · exact .after (State.raise_keeps _ _) (State.coreFault_keeps s _ _)
  · split
    · exact .ite (.refl s) (State.dmaError_keeps s _)
    · extract_lets m
      exact .after (State.dmaError_keeps _ _) (.after (State.dmaReturn_keeps _ _ _ _ _) (State.dmaPart_keeps s _ _))
  · exact .parts (.refl s)
  · split
    · exact .parts (.refl s)
    · exact .refl s
  · exact .refl s

theorem State.memIdleSlot_keeps (s : State) : Keeps s s.memIdleSlot := by
  unfold State.memIdleSlot
  extract_lets want
  exact .after (State.memSlot_keeps _ want) (State.tick1_keeps s)

theorem State.memTick_keeps (s : State) : Keeps s s.memTick := by
  unfold State.memTick
  refine .ite ?_ (.refl s)
  extract_lets _ s1
  have h1 : Keeps s s1 := .parts (.refl s)
  exact .ite (.after (State.memIdleSlot_keeps _) (.after (State.memIdleSlot_keeps s1) h1))
    (.after (State.memIdleSlot_keeps s1) h1)

theorem State.idleTick_keeps (s : State) : Keeps s s.idleTick := .after (State.memTick_keeps _) (State.elapse_keeps s _)

/-! ## Commands of the supervisor island -/

theorem State.wdogCfg_keeps (s : State) (v : Word) : Keeps s (s.wdogCfg v) := by
  unfold State.wdogCfg
  refine .ite (.refl s) ?_
  extract_lets s1
  have h1 : Keeps s s1 := State.wr_keeps s _ _
  exact .ite (.parts h1) h1

theorem State.wdogKick_keeps (s : State) : Keeps s s.wdogKick := .ite (.parts (.refl s)) (.refl s)
theorem execWatchdogKick_keeps (v : Word) (s : State) : AnswerKeeps s (execWatchdogKick v s) :=
  .via (fun t => .after (State.wdogKick_keeps _) (State.wrPair_keeps t _ v))
theorem execWatchdogEnable_keeps (period : BitVec 16) (s : State) : AnswerKeeps s (execWatchdogEnable period s) :=
  .via (fun t => State.wdogCfg_keeps t _)

theorem execWatchdogExpiry_keeps (s : State) : AnswerKeeps s (execWatchdogExpiry s) := by
  unfold execWatchdogExpiry
  refine .ite (.next (.refl s)) ?_
  extract_lets s1 s2
  have h1 : Keeps s s1 := State.elapse_keeps s _
  have h2 : Keeps s s2 := .after (State.raise_keeps _ _)
    (.after (State.setBit_keeps _ _ _) (.after (State.addField_keeps s1 _ _ _ _) h1))
  exact .next (.parts h2)

theorem execDebugHalt_keeps (c : Fin 8) (s : State) : AnswerKeeps s (execDebugHalt c s) := by
  unfold execDebugHalt
  refine .ite (.next (.refl s)) ?_
  extract_lets was _ s1
  have h1 : Keeps s s1 := .after (State.raise_keeps _ _) (.parts (.refl s))
  exact .next (.ite h1 (.after (State.pwmCalm_keeps s1) h1))

theorem execDebugResume_keeps (c : Fin 8) (s : State) : AnswerKeeps s (execDebugResume c s) := by
  unfold execDebugResume
  refine .ite (.next (.refl s)) ?_
  extract_lets _ s1
  have h1 : Keeps s s1 := .parts (.refl s)
  exact .next (.ite (.after (State.freeCore_keeps s1 _) h1) h1)

theorem State.msipWrite_keeps (s : State) (c : Nat) (v : Word) : Keeps s (s.msipWrite c v) := by
  unfold State.msipWrite
  extract_lets s1 pc
  have h1 : Keeps s s1 := State.wr_keeps s _ _
  exact .ite (.after (State.setScCore_keeps _ c _) (.parts h1)) h1

theorem execCoreStart_keeps (c : Fin 8) (s : State) : AnswerKeeps s (execCoreStart c s) :=
  .via (fun t => State.msipWrite_keeps t _ _)
theorem execMtimecmpMatch_keeps (c : Fin 8) (s : State) : AnswerKeeps s (execMtimecmpMatch c s) :=
  .ite (.next (.refl s)) (.next (State.elapse_keeps s _))

theorem execCreate_keeps (c : Fin 8) (t : BitVec 7) (prio : BitVec 5) (aff : BitVec 8) (s : State) :
    AnswerKeeps s (execCreate c t prio aff s) :=
  .via (fun u => State.dspCmd_keeps u _ _)

theorem execReady_keeps (c : Fin 8) (t : BitVec 7) (s : State) : AnswerKeeps s (execReady c t s) :=
  .via (fun u => State.dspCmd_keeps u _ _)
theorem execBlock_keeps (c : Fin 8) (t : BitVec 7) (s : State) : AnswerKeeps s (execBlock c t s) :=
  .via (fun u => State.dspCmd_keeps u _ _)
theorem execYield_keeps (c : Fin 8) (t : BitVec 7) (s : State) : AnswerKeeps s (execYield c t s) :=
  .via (fun u => State.dspCmd_keeps u _ _)
theorem execPrio_keeps (c : Fin 8) (t : BitVec 7) (prio : BitVec 5) (s : State) : AnswerKeeps s (execPrio c t prio s) :=
  .via (fun u => State.dspCmd_keeps u _ _)

theorem execAffinity_keeps (c : Fin 8) (t : BitVec 7) (aff : BitVec 8) (s : State) :
    AnswerKeeps s (execAffinity c t aff s) :=
  .via (fun u => State.dspCmd_keeps u _ _)

theorem execDelete_keeps (c : Fin 8) (t : BitVec 7) (s : State) : AnswerKeeps s (execDelete c t s) :=
  .via (fun u => State.dspCmd_keeps u _ _)

theorem execDispatchAck_keeps (c : Fin 8) (t : BitVec 7) (idle : Bool) (s : State) :
    AnswerKeeps s (execDispatchAck c t idle s) :=
  .via (fun u => State.dspCmd_keeps u _ _)

theorem execDmaStart_keeps (n : Fin 16) (answered : Bool) (s : State) : AnswerKeeps s (execDmaStart n answered s) :=
  .via (fun t => State.dmaStart_keeps t _ answered)
theorem execDmaStop_keeps (n : Fin 16) (h : DmaHalt) (s : State) : AnswerKeeps s (execDmaStop n h s) :=
  .via (fun t => State.dmaStop_keeps t _ h)

theorem execDescriptorReturn_keeps (n : Fin 16) (e : DmaEnd) (then_ : DmaThen) (s : State) :
    AnswerKeeps s (execDescriptorReturn n e then_ s) := by
  unfold execDescriptorReturn
  split
  · exact .next (.refl s)
  · refine .ite (.next (State.dmaStopped_keeps s _ _ e)) ?_
    refine .ite (.next (.refl s)) ?_
    extract_lets o s1
    have h1 : Keeps s s1 := .ite (.refl s) (State.dmaMove_keeps s _ _)
    exact .next (.after (State.dmaAfter_keeps _ _ _ _ then_) (.after (State.dmaReturn_keeps s1 _ _ _ _) h1))

theorem execDmaAccessTimeout_keeps (n : Fin 16) (a : DmaAccess) (s : State) :
    AnswerKeeps s (execDmaAccessTimeout n a s) :=
  .via (fun t => State.dmaTimeout_keeps t _ a)

theorem execArbModeWrite_keeps (mode : BitVec 1) (s : State) : AnswerKeeps s (execArbModeWrite mode s) :=
  .via (fun t => State.memMode_keeps t _)
theorem execMemGrantClr_keeps (s : State) : AnswerKeeps s (execMemGrantClr s) := .via State.memGrantClr_keeps
theorem execEccCorrected_keeps (chB : Bool) (s : State) : AnswerKeeps s (execEccCorrected chB s) :=
  .via (fun t => State.eccCorrected_keeps t chB)

theorem execEccUncorrectable_keeps (chB : Bool) (a : BitVec 35) (w : EccReader) (s : State) :
    AnswerKeeps s (execEccUncorrectable chB a w s) :=
  .via (fun t => .after (State.eccReader_keeps _ w) (State.eccLatch_keeps t chB a))

theorem execScrubPass_keeps (s : State) : AnswerKeeps s (execScrubPass s) := by
  unfold execScrubPass
  refine .via fun t => ?_
  refine .ite ?_ (.refl t)
  extract_lets u
  have hU : Keeps t u := State.elapse_keeps t _
  exact .after (State.bump_keeps _ _) (.parts hU)

theorem execPmpDenial_keeps (c : Fin 8) (k : CoreAcc) (s : State) : AnswerKeeps s (execPmpDenial c k s) := by
  unfold execPmpDenial
  refine .via fun t => ?_
  extract_lets u
  have hU : Keeps t u := State.setScCore_keeps t _ _
  exact .ite (.after (State.raise_keeps _ _) (.after (State.coreFault_keeps u _ _) hU)) hU

end Sys2Proof.Machine
end

section
/-! What register accesses and the remaining commands keep: the canonical form of the tables, and the commands that
wait. -/

namespace Sys2Proof.Machine

open Sys2Proof.Safety

/-! ## Register accesses -/

theorem State.noteOrder_keeps (s : State) (a : Nat) (v : Word) : Keeps s (s.noteOrder a v) :=
  .parts (State.wrPair_keeps s a v)

theorem State.pairTakes_keeps (s : State) (r : PairReg) (v : Word) : Keeps s (s.pairTakes r v) := by
  unfold State.pairTakes
  split
  · exact .after (State.aeCellCmd_keeps _ _ v) (State.wrPair_keeps s _ v)
  · exact .ite (State.noteOrder_keeps s _ v) (State.setBit_keeps s _ _)
  · exact .ite (State.noteOrder_keeps s _ v) (State.setBit_keeps s _ _)
  · exact .after (State.fltClear_keeps _ v) (State.wrPair_keeps s _ v)
  · exact .after (State.fltInj_keeps _ v) (State.wrPair_keeps s _ v)
  · exact .after (State.fltConv_keeps _ v) (State.wrPair_keeps s _ v)
  · exact .after (State.gstCmd_keeps _ v) (State.wrPair_keeps s _ v)
  · exact .after (State.twnCmd_keeps _ v) (State.wrPair_keeps s _ v)
  · exact .after (State.keyCmd_keeps _ v) (State.wrPair_keeps s _ v)
  · exact .after (State.drfCmd_keeps _ v) (State.wrPair_keeps s _ v)
  · exact .after (State.wdogKick_keeps _) (State.wrPair_keeps s _ v)
  · exact State.pwmArm_keeps s v

theorem State.setHeld_keeps (s : State) (a : Nat) (v : Option Word) : Keeps s (s.setHeld a v) := .parts (.refl s)

theorem State.pairRefuse_keeps (s : State) (b : Blk) : Keeps s (s.pairRefuse b) := by
  unfold State.pairRefuse
  split
  · exact State.setBit_keeps s _ _
  · exact .refl s

theorem State.pairValue_keeps (s : State) (r : PairReg) (v : Word) : Keeps s (s.pairValue r v) :=
  State.setHeld_keeps s _ _

theorem State.pairComplement_keeps (s : State) (r : PairReg) (c : Word) : Keeps s (s.pairComplement r c) := by
  unfold State.pairComplement
  split
  · exact State.pairRefuse_keeps s _
  · extract_lets s1
    have h1 : Keeps s s1 := State.setHeld_keeps s _ _
    exact .ite (.after (State.pairTakes_keeps s1 r _) h1) (.after (State.pairRefuse_keeps s1 _) h1)

theorem execPairedValueWrite_keeps (r : PairReg) (v : Word) (s : State) : AnswerKeeps s (execPairedValueWrite r v s) :=
  .via (fun t => State.pairValue_keeps t r v)

theorem execPairedComplementWrite_keeps (r : PairReg) (c : Word) (s : State) :
    AnswerKeeps s (execPairedComplementWrite r c s) :=
  .via (fun t => State.pairComplement_keeps t r c)

theorem State.injCtl_keeps (s : State) (v : Word) : Keeps s (s.injCtl v) := by
  unfold State.injCtl
  extract_lets s1 s2
  have h1 : Keeps s s1 := .ite (State.injStop_keeps s) (.refl s)
  have h2 : Keeps s s2 := .ite h1 (.after (State.wr_keeps s1 _ _) h1)
  exact .ite (.after (State.injStart_keeps s2) h2) h2

theorem State.leWrite_keeps (s : State) (e off a : Nat) (v : Word) : Keeps s (s.leWrite e off a v) := by
  unfold State.leWrite
  refine .ite (State.eddyClear_keeps s _) ?_
  refine .ite (State.injCtl_keeps s v) ?_
  refine .ite (.ite (.refl s) (State.wr_keeps s a v)) ?_
  refine .ite ?_ (.ite (.ite (State.leCntClr_keeps s e) (.refl s)) (State.wr_keeps s a v))
  refine .ite (.refl s) ?_
  extract_lets i
  exact .parts (.refl s)

theorem State.gstWrite_keeps (s : State) (off a : Nat) (v : Word) : Keeps s (s.gstWrite off a v) :=
  .ite (.ite (State.gstCntClr_keeps s) (.refl s)) (.ite (State.setBit_keeps s _ _) (State.wr_keeps s a v))

theorem State.portWrite_keeps (s : State) (n off a : Nat) (v : Word) : Keeps s (s.portWrite n off a v) := by
  unfold State.portWrite
  split
  · exact State.laneCtl_keeps s n v
  · exact .ite (State.laneCntClr_keeps s n) (.refl s)
  · exact .ite (State.frmCntClr_keeps s n) (.refl s)
  · exact State.ctlReq_keeps s n v
  · exact .ite (State.wr_keeps s _ _) (.refl s)
  · exact State.wr_keeps s a v

theorem State.twnWrite_keeps (s : State) (off a : Nat) (v : Word) : Keeps s (s.twnWrite off a v) := by
  unfold State.twnWrite
  split
  · exact .ite (State.wr_keeps s _ _) (.refl s)
  · exact State.laneCtl_keeps s _ v
  · exact .ite (State.laneCntClr_keeps s _) (.refl s)
  · exact State.wr_keeps s a v

theorem State.sysWrite_keeps (s : State) (off a : Nat) (v : Word) : Keeps s (s.sysWrite off a v) := by
  unfold State.sysWrite
  split
  · exact State.pdCtl_keeps s v
  · exact State.wr_keeps s a _
  · exact State.wr_keeps s a v

theorem State.netWrite_keeps (s : State) (off a : Nat) (v : Word) : Keeps s (s.netWrite off a v) := by
  unfold State.netWrite
  split
  · exact State.ntAdj_keeps s v
  · exact State.ntStepBy_keeps s v
  · exact State.ntOffset_keeps s v
  · exact .ite (State.netLatchNow_keeps s) (.refl s)
  · exact .ite (State.ordRel_keeps s) (.refl s)
  · exact .ite (State.netCntClr_keeps s) (.refl s)
  · split
    · exact State.ringTailWrite_keeps s _ _ _
    · exact State.wr_keeps s a v

theorem State.dspWrite_keeps (s : State) (off a : Nat) (v : Word) : Keeps s (s.dspWrite off a v) := by
  unfold State.dspWrite
  refine .ite (State.wdogCfg_keeps s v) ?_
  refine .ite (State.setField_keeps s _ _ _ _) ?_
  split
  · exact State.dspCmd_keeps s _ v
  · exact State.msipWrite_keeps s _ v
  · exact State.plicComplete_keeps s _ v
  · exact State.wr_keeps s a v

theorem State.dmaWrite_keeps (s : State) (off a : Nat) (v : Word) : Keeps s (s.dmaWrite off a v) := by
  unfold State.dmaWrite
  split
  · exact State.dmaCtl_keeps s _ v
  · exact State.wr_keeps s a v

theorem State.memWrite_keeps (s : State) (off a : Nat) (v : Word) : Keeps s (s.memWrite off a v) := by
  unfold State.memWrite
  split
  · exact State.memMode_keeps s v
  · exact .ite (State.memGrantClr_keeps s) (.refl s)
  · exact State.wr_keeps s a v

theorem State.fioWrite_keeps (s : State) (off a : Nat) (v : Word) : Keeps s (s.fioWrite off a v) := by
  unfold State.fioWrite
  split
  · exact State.fioOut_keeps s v
  · exact .ite (State.fioResume_keeps s) (.refl s)
  · exact State.fioOvlClr_keeps s _
  · exact .ite (State.fioCntClr_keeps s) (.refl s)
  · exact State.wr_keeps s a v

theorem State.adcWrite_keeps (s : State) (off a : Nat) (v : Word) : Keeps s (s.adcWrite off a v) := by
  unfold State.adcWrite
  refine .ite (State.adcCtl_keeps s v) ?_
  refine .ite (State.adcJctl_keeps s v) ?_
  split
  · exact State.adcSeqWrite_keeps s a v _
  · exact State.adcSeqWrite_keeps s a v _
  · exact State.adcFactor_keeps s _ _ v
  · exact State.adcFactor_keeps s _ _ v
  · exact State.wr_keeps s a v

theorem State.shfWrite_keeps (s : State) (off a : Nat) (v : Word) : Keeps s (s.shfWrite off a v) := by
  unfold State.shfWrite
  extract_lets ch
  refine .ite (State.wr_keeps s a v) ?_
  split
  · exact State.shfCfgWrite_keeps s ch v
  · exact State.shfCntWrite_keeps s ch v
  · exact State.absCfgWrite_keeps s ch _ v
  · exact State.absCfgWrite_keeps s ch _ v
  · exact .ite (State.ssiReq_keeps s ch) (.refl s)
  · exact .ite (State.shfCntClr_keeps s ch) (.refl s)
  · exact State.wr_keeps s a v

theorem State.pwmWrite_keeps (s : State) (off a : Nat) (v : Word) : Keeps s (s.pwmWrite off a v) := by
  unfold State.pwmWrite
  refine .ite (State.pwmCtl_keeps s v) ?_
  refine .ite (State.pwmEnWrite_keeps s _) ?_
  refine .ite (State.pwmChopWrite_keeps s _) ?_
  split
  · exact State.pwmMinOffWrite_keeps s _ _
  · exact State.pwmArmPair_keeps s _ _ v
  · exact State.pwmArmPair_keeps s _ _ v
  · exact State.wr_keeps s a v

theorem State.canWrite_keeps (s : State) (p off a : Nat) (v : Word) : Keeps s (s.canWrite p off a v) := by
  unfold State.canWrite
  split
  · exact State.canCtl_keeps s p v
  · exact State.canTiming_keeps s p _ v
  · exact State.canTiming_keeps s p _ v
  · exact State.canTiming_keeps s p _ v
  · exact State.canReqs_keeps s p _
  · exact State.canReqs_keeps s p _
  · exact State.canAborts_keeps s p _ _
  · exact State.canAborts_keeps s p _ _
  · exact .ite (State.canCntClr_keeps s p) (.refl s)
  · exact .ite (State.canBufWrite_keeps s p _ a v) (State.wr_keeps s a v)

theorem State.blkWrite_keeps (s : State) (b : Blk) (off a : Nat) (v : Word) : Keeps s (s.blkWrite b off a v) := by
  unfold State.blkWrite
  split
  · exact State.sysWrite_keeps s off a v
  · exact .ite (.ite (State.schCntClr_keeps s) (.refl s)) (State.wr_keeps s a v)
  · exact .ite (.ite (State.fltCntClr_keeps s) (.refl s)) (State.wr_keeps s a v)
  · exact State.gstWrite_keeps s off a v
  · exact State.twnWrite_keeps s off a v
  · exact State.dspWrite_keeps s off a v
  · exact State.dmaWrite_keeps s off a v
  · exact State.memWrite_keeps s off a v
  · exact State.netWrite_keeps s off a v
  · exact State.canWrite_keeps s _ off a v
  · exact State.pwmWrite_keeps s off a v
  · exact State.shfWrite_keeps s off a v
  · exact State.adcWrite_keeps s off a v
  · exact State.fioWrite_keeps s off a v
  · exact .ite (.ite (State.safCntClr_keeps s) (.refl s)) (State.wr_keeps s a v)
  · exact State.portWrite_keeps s _ off a v
  · exact .ite (.ite (State.aeCntClr_keeps s _) (.refl s)) (State.wr_keeps s a v)
  · exact State.leWrite_keeps s _ off a v
  · exact State.wr_keeps s a v
  · exact State.wr_keeps s a v
  · exact State.wr_keeps s a v

theorem State.regWrite_keeps (s : State) (b : Blk) (off a : Nat) (v : Word) : Keeps s (s.regWrite b off a v) := by
  unfold State.regWrite
  split
  · exact .refl s
  · split
    · exact .refl s
    · exact State.wr_keeps s a _
    · split
      · exact State.pairValue_keeps s _ v
      · exact .refl s
    · split
      · exact State.pairComplement_keeps s _ v
      · exact .refl s
    · exact State.blkWrite_keeps s b off a _
    · exact State.blkWrite_keeps s b off a _
    · exact State.blkWrite_keeps s b off a _

theorem State.busFault_keeps (s : State) (w : Initiator) (k : AccKind) (a : Nat) : Keeps s (s.busFault w k a) := by
  unfold State.busFault
  split
  · exact .parts (.refl s)
  · extract_lets s1
    have h1 : Keeps s s1 := State.coreFault_keeps s _ k
    exact .ite h1 (.after (State.raise_keeps _ _) (.parts h1))

theorem execBusError_keeps (w : Initiator) (k : AccKind) (a : BitVec 64) (s : State) :
    AnswerKeeps s (execBusError w k a s) :=
  .via (fun t => .ite (State.busFault_keeps t w k _) (.refl t))

theorem execRegisterWrite_keeps (w : Initiator) (a : BitVec 64) (v : BusVal) (s : State) :
    AnswerKeeps s (execRegisterWrite w a v s) := by
  unfold execRegisterWrite
  extract_lets n _ ok
  have hOk : Keeps s ok := .parts (.refl s)
  split
  · exact .ite (.next (State.busFault_keeps s w _ n)) (.next (.ite (.after (State.regWrite_keeps ok _ _ n _) hOk) hOk))
  · exact .next (State.busFault_keeps s w _ n)
  · exact .ite (.next (.after (State.busWrite_keeps ok n _) hOk))
      (.ite (.next hOk) (.next (State.busFault_keeps s w _ n)))

theorem execTbVtLoRead_keeps (mtime : Bool) (s : State) : AnswerKeeps s (execTbVtLoRead mtime s) :=
  .ite (.next (.parts (State.wr_keeps s _ _))) (.next (.parts (.refl s)))

/-! ## Commands of the CAN FD ports (R802 to R822) -/

theorem execCanFrameReceive_keeps (p : Fin 2) (f : CanFrame) (ts : BitVec 32) (s : State) :
    AnswerKeeps s (execCanFrameReceive p f ts s) :=
  .ite (.next (.refl s)) (.next (State.canFilter_keeps s _ f ts))

theorem execCanTxReq_keeps (p : Fin 2) (m : BitVec 64) (s : State) : AnswerKeeps s (execCanTxReq p m s) :=
  .via (fun t => State.canReqs_keeps t _ m)

theorem execCanTxAbort_keeps (p : Fin 2) (m : BitVec 64) (cur : Option (Fin 64)) (s : State) :
    AnswerKeeps s (execCanTxAbort p m cur s) :=
  .via (fun t => State.canAborts_keeps t _ m cur)

theorem execCanFrameSent_keeps (p : Fin 2) (b : Fin 64) (start : BitVec 32) (s : State) :
    AnswerKeeps s (execCanFrameSent p b start s) :=
  .ite (.next (.refl s)) (.next (State.canSent_keeps s _ _ start))

theorem execCanFrameFail_keeps (p : Fin 2) (b : Fin 64) (s : State) : AnswerKeeps s (execCanFrameFail p b s) :=
  .ite (.next (.refl s)) (.ite (.next (State.canDiscard_keeps s _ _ _))
    (.ite (.next (State.canDiscard_keeps s _ _ _)) (.next (.refl s))))

theorem execCanStateChange_keeps (p : Fin 2) (rec tec : BitVec 8) (busOff : Bool) (s : State) :
    AnswerKeeps s (execCanStateChange p rec tec busOff s) := by
  unfold execCanStateChange
  extract_lets x s1
  have h1 : Keeps s s1 := State.setCan_keeps s _ _
  exact .ite (.next (.refl s)) (.ite (.next (.after (State.canEnter_keeps s1 _ _) h1))
    (.ite (.next (.ite h1 (.after (State.canEnter_keeps s1 _ _) h1)))
    (.next (.ite h1 (.after (State.canEnter_keeps s1 _ _) h1)))))

theorem execCanRec_keeps (p : Fin 2) (s : State) : AnswerKeeps s (execCanRec p s) :=
  .via (fun t => State.canRec_keeps t _)
theorem execCanRecovered_keeps (p : Fin 2) (s : State) : AnswerKeeps s (execCanRecovered p s) :=
  .ite (.next (.refl s)) (.next (.after (State.setBit_keeps _ _ _) (State.setCan_keeps s _ _)))

theorem execCanStaleTest_keeps (p : Fin 2) (b : Fin 64) (s : State) : AnswerKeeps s (execCanStaleTest p b s) :=
  .via (fun t => .ite (.after (State.raise_keeps _ _)
    (.after (State.setBit_keeps _ _ _) (State.canDiscard_keeps t _ _ _))) (.refl t))

theorem execCanInit_keeps (p : Fin 2) (s : State) : AnswerKeeps s (execCanInit p s) :=
  .via (fun t => .ite (.refl t) (State.canInitSet_keeps t _))

theorem execCanTimingWrite_keeps (p : Fin 2) (k : CanTiming) (v : BitVec 32) (s : State) :
    AnswerKeeps s (execCanTimingWrite p k v s) :=
  .via (fun t => State.canTiming_keeps t _ k v)

theorem execCanCntClr_keeps (p : Fin 2) (s : State) : AnswerKeeps s (execCanCntClr p s) :=
  .via (fun t => State.canCntClr_keeps t _)

/-! ## Commands of the chopper PWM outputs (R784 to R801) -/

theorem execLoadAll_keeps (s : State) : AnswerKeeps s (execLoadAll s) := .via State.pwmLoadAll_keeps

theorem execPwmReload_keeps (n : Fin 16) (s : State) : AnswerKeeps s (execPwmReload n s) := by
  unfold execPwmReload
  extract_lets x
  exact .ite (.next (.refl s)) (.next (.after (State.pwmCycle_keeps _ _ _) (State.elapse_keeps s _)))

theorem execPwmOffEdge_keeps (n : Fin 16) (s : State) : AnswerKeeps s (execPwmOffEdge n s) := by
  unfold execPwmOffEdge
  extract_lets x
  exact .ite (.next (.refl s)) (.next (.after (State.setPwmCh_keeps _ _ _) (State.elapse_keeps s _)))

theorem execPwmEnWrite_keeps (v : BitVec 16) (s : State) : AnswerKeeps s (execPwmEnWrite v s) :=
  .via (fun t => State.pwmEnWrite_keeps t v)
theorem execPwmMinoffWrite_keeps (n : Fin 16) (v : BitVec 16) (s : State) : AnswerKeeps s (execPwmMinoffWrite n v s) :=
  .via (fun t => State.pwmMinOffWrite_keeps t _ v)
theorem execChopperArm_keeps (s : State) : AnswerKeeps s (execChopperArm s) := .via (fun t => State.pwmArm_keeps t _)
theorem execChopperDisarm_keeps (s : State) : AnswerKeeps s (execChopperDisarm s) :=
  .via (fun t => State.pwmArm_keeps t _)

theorem execArmPairWrite_keeps (n : Fin 16) (isT : Bool) (v : BitVec 32) (s : State) :
    AnswerKeeps s (execArmPairWrite n isT v s) :=
  .via (fun t => State.pwmArmPair_keeps t _ isT v)

theorem execPwmChopWrite_keeps (v : BitVec 16) (s : State) : AnswerKeeps s (execPwmChopWrite v s) :=
  .via (fun t => State.pwmChopWrite_keeps t v)
theorem execClockStop_keeps (s : State) : AnswerKeeps s (execClockStop s) :=
  .via (fun t => .after (State.setBit_keeps _ _ _) (.parts (.refl t)))

/-! ## Commands of the precision ΣΔ converter and of the shaft interface (R745 to R783) -/

theorem execAdcStart_keeps (s : State) : AnswerKeeps s (execAdcStart s) := .via State.adcStart_keeps
theorem execAdcStop_keeps (s : State) : AnswerKeeps s (execAdcStop s) := .via State.adcStop_keeps
theorem execAdcCal_keeps (s : State) : AnswerKeeps s (execAdcCal s) := .via State.adcCal_keeps

theorem execCalDone_keeps (o0 o1 o2 o3 r0 r1 r2 r3 : BitVec 32) (s : State) :
    AnswerKeeps s (execCalDone o0 o1 o2 o3 r0 r1 r2 r3 s) := by
  unfold execCalDone
  refine .ite (.next (.refl s)) ?_
  extract_lets put s1
  have hPut : ∀ t e, Keeps t (put t e) := by
    intro t e
    unfold put
    split
    · exact .after (State.wr_keeps _ _ _) (State.wr_keeps t _ _)
    · exact State.setBit_keeps t _ _
  have h1 : Keeps s s1 := .foldl _ _ hPut _
  exact .next (.after (State.setBit_keeps _ _ _) (.parts h1))

theorem execJgo_keeps (s : State) : AnswerKeeps s (execJgo s) := .via State.adcJgo_keeps

theorem execJatMatch_keeps (s : State) : AnswerKeeps s (execJatMatch s) := by
  unfold execJatMatch
  refine .ite (.next (.refl s)) ?_
  extract_lets s1
  have h1 : Keeps s s1 := State.elapse_keeps s _
  exact .next (.ite (.after (State.adcTrigger_keeps s1 _) h1) h1)

theorem execAdcSlotEnd_keeps (m : Fin 4) (raw : BitVec 32) (s : State) : AnswerKeeps s (execAdcSlotEnd m raw s) := by
  unfold execAdcSlotEnd
  refine .ite (.next (.refl s)) ?_
  extract_lets x
  split
  · extract_lets s1
    have h1 : Keeps s s1 := State.elapse_keeps s _
    exact .next (.after (State.adcRegDone_keeps s1 _ _ _) h1)
  · extract_lets s1
    have h1 : Keeps s s1 := State.elapse_keeps s _
    exact .next (.after (State.adcInjDone_keeps s1 _ _ _) h1)
  · extract_lets s1
    have h1 : Keeps s s1 := State.elapse_keeps s _
    exact .next (.after (State.adcRegDone_keeps s1 _ _ _) h1)
  · exact .next (.refl s)

theorem execAdcFactorWrite_keeps (m : Fin 4) (gain : Bool) (v : BitVec 32) (s : State) :
    AnswerKeeps s (execAdcFactorWrite m gain v s) :=
  .via (fun t => State.adcFactor_keeps t _ gain v)

theorem execAdcResRead_keeps (inj : Bool) (n : Fin 16) (s : State) : AnswerKeeps s (execAdcResRead inj n s) := by
  unfold execAdcResRead
  refine .ite (.next (.parts (.refl s))) ?_
  extract_lets j a at_ u
  have hU : Keeps s u := State.wr_keeps s _ at_
  exact .next (.parts hU)

theorem execShaftEdge_keeps (ch : Fin 2) (a b z : Bool) (s : State) : AnswerKeeps s (execShaftEdge ch a b z s) :=
  .via (fun t => State.shfSample_keeps t _ a b z)
theorem execIndexEdge_keeps (ch : Fin 2) (s : State) : AnswerKeeps s (execIndexEdge ch s) :=
  .via (fun t => State.shfSample_keeps t _ _ _ _)
theorem execShfCntWrite_keeps (ch : Fin 2) (v : BitVec 32) (s : State) : AnswerKeeps s (execShfCntWrite ch v s) :=
  .via (fun t => State.shfCntWrite_keeps t _ v)
theorem execShfCfgWrite_keeps (ch : Fin 2) (v : BitVec 32) (s : State) : AnswerKeeps s (execShfCfgWrite ch v s) :=
  .via (fun t => State.shfCfgWrite_keeps t _ v)
theorem execSsiReq_keeps (ch : Fin 2) (s : State) : AnswerKeeps s (execSsiReq ch s) :=
  .via (fun t => State.ssiReq_keeps t _)

theorem execSsiReadDone_keeps (ch : Fin 2) (ready : Bool) (vt bits : BitVec 32) (high : Bool) (s : State) :
    AnswerKeeps s (execSsiReadDone ch ready vt bits high s) := by
  unfold execSsiReadDone
  refine .ite (.next (.refl s)) ?_
  extract_lets _ s1
  have h1 : Keeps s s1 := State.setShf_keeps s _ _
  exact .next (.ite (.after (State.ssiWord_keeps s1 _ vt bits high) h1) (.after (State.setBit_keeps s1 _ _) h1))

theorem execSsiTmEnd_keeps (ch : Fin 2) (s : State) : AnswerKeeps s (execSsiTmEnd ch s) :=
  .via (fun t => .ite (State.setShf_keeps t _ _) (.refl t))

theorem execShfAbsCfgWrite_keeps (ch : Fin 2) (time : Bool) (v : BitVec 32) (s : State) :
    AnswerKeeps s (execShfAbsCfgWrite ch time v s) :=
  .via (fun t => State.absCfgWrite_keeps t _ time v)

theorem execShfCntClr_keeps (ch : Fin 2) (s : State) : AnswerKeeps s (execShfCntClr ch s) :=
  .via (fun t => State.shfCntClr_keeps t _)

/-! ## Feeds, hold-up bank, ride-through and shed, post-mortem records and module temperatures -/

theorem State.feedRead_keeps (s : State) (f : Nat) (v : BitVec 16) : Keeps s (s.feedRead f v) :=
  State.setField_keeps s _ _ _ _

theorem execFeedOutOfRange_keeps (f : Fin 2) (v : BitVec 16) (s : State) :
    AnswerKeeps s (execFeedOutOfRange f v s) := by
  unfold execFeedOutOfRange
  refine .ite (.next (.refl s)) ?_
  extract_lets s1 bit cut _ s2
  have h1 : Keeps s s1 := State.feedRead_keeps s _ v
  have h2 : Keeps s s2 := .parts h1
  exact .ite (.next (.after (State.raise_keeps _ _) (.parts h2))) (.next h2)

theorem execFeedInRange_keeps (f : Fin 2) (v : BitVec 16) (s : State) : AnswerKeeps s (execFeedInRange f v s) := by
  unfold execFeedInRange
  refine .ite (.next (.refl s)) ?_
  extract_lets s1 keep bad cut
  have h1 : Keeps s s1 := State.feedRead_keeps s _ v
  exact .next (.parts h1)

theorem execRideEnd_keeps (f : Fin 2) (v : BitVec 16) (s : State) : AnswerKeeps s (execRideEnd f v s) := by
  unfold execRideEnd
  refine .ite (.next (.refl s)) ?_
  extract_lets s1
  have h1 : Keeps s s1 := State.feedRead_keeps s _ v
  exact .next (.parts h1)

theorem State.holdMeasure_keeps (s : State) (v : BitVec 16) : Keeps s (s.holdMeasure v) := by
  unfold State.holdMeasure
  extract_lets e low s1 _ s2
  have h1 : Keeps s s1 := .after (State.wr_keeps _ _ _) (State.wr_keeps s _ _)
  have h2 : Keeps s s2 := .parts h1
  exact .after (State.raiseIf_keeps s2 _ _) h2

theorem execHoldVoltageMeasure_keeps (v : BitVec 16) (s : State) : AnswerKeeps s (execHoldVoltageMeasure v s) :=
  .next (.ite (State.holdMeasure_keeps s v) (.refl s))

theorem State.shedOff_keeps (s : State) : Keeps s s.shedOff := by
  unfold State.shedOff
  extract_lets d s1 _ s2
  have h1 : Keeps s s1 := .foldl _ _ State.domainOff_keeps _
  have h2 : Keeps s s2 := .parts h1
  split
  · exact .after (State.pmCause_keeps s2 _) h2
  · exact .parts h2

theorem State.shedBegin_keeps (s : State) : Keeps s s.shedBegin := by
  unfold State.shedBegin
  extract_lets s1 s2
  have h1 : Keeps s s1 := State.setBit_keeps s _ _
  have h2 : Keeps s s2 := .after (State.blockNow_keeps s1) h1
  exact .ite (.after (State.shedOff_keeps s1) h1) (.ite (.after (State.shedOff_keeps s2) h2) (.parts h2))

theorem execFeedsLost_keeps (a b : BitVec 16) (s : State) : AnswerKeeps s (execFeedsLost a b s) := by
  unfold execFeedsLost
  refine .ite (.next (.refl s)) ?_
  extract_lets s1 _ s2
  have h1 : Keeps s s1 := .after (State.raise_keeps _ _)
    (.after (State.feedRead_keeps _ _ b) (State.feedRead_keeps s _ a))
  have h2 : Keeps s s2 := .parts h1
  exact .next (.ite (.after (State.shedBegin_keeps s2) h2) (.after (State.setBit_keeps s2 _ _) h2))

theorem execShed_keeps (s : State) : AnswerKeeps s (execShed s) := by
  unfold execShed
  split
  · exact .next (.after (State.shedBegin_keeps _) (.ite (.refl s) (State.advanceTo_keeps s _)))
  · exact .next (.after (State.shedOff_keeps _) (.ite (.refl s) (State.advanceTo_keeps s _)))
  · exact .next (.refl s)

theorem State.powerReset_keeps (s : State) : Keeps s s.powerReset :=
  .after (State.pd0Up_keeps _ _) (State.pd0Down_keeps s)

theorem State.shedEnds_keeps (s : State) : Keeps s s.shedEnds := by
  unfold State.shedEnds
  refine .ite ?_ (.refl s)
  refine .ite (State.powerReset_keeps s) ?_
  extract_lets s1
  have h1 : Keeps s s1 := .after (State.domainOff_keeps _ _) (State.domainOff_keeps s _)
  exact .parts h1

theorem execShedFeedReturn_keeps (s : State) : AnswerKeeps s (execShedFeedReturn s) := by
  unfold execShedFeedReturn
  split
  · exact .next (.refl s)
  · exact .next (.refl s)
  · exact .next (.parts (.refl s))
  · exact .next (State.powerReset_keeps s)

theorem State.pmBegin_keeps (s : State) (d : PmDue) : Keeps s (s.pmBegin d) := by
  unfold State.pmBegin
  extract_lets rate low marker flags nx r last
  exact .parts (.refl s)

theorem execPmRecordStart_keeps (v : BitVec 16) (s : State) : AnswerKeeps s (execPmRecordStart v s) := by
  unfold execPmRecordStart
  split
  · extract_lets _ s1
    have h1 : Keeps s s1 := .after (State.holdMeasure_keeps _ v) (.parts (.refl s))
    exact .ite (.next (.after (State.shedEnds_keeps _) (.after (State.setBit_keeps s1 _ _) h1)))
      (.ite (.next (.after (State.shedEnds_keeps _) (.parts h1))) (.next (.after (State.pmBegin_keeps s1 _) h1)))
  · exact .next (.refl s)

theorem State.pmWritten_keeps (s : State) (r : PmRec) : Keeps s (s.pmWritten r) := by
  unfold State.pmWritten
  extract_lets h at_ had s1 _ s2
  have h1 : Keeps s s1 := .after (State.keyPut_keeps _ at_ _) (State.keyPut_keeps s _ _)
  have h2 : Keeps s s2 := .parts h1
  exact .after (State.raiseIf_keeps _ _ _) (.after (State.setBit_keeps _ _ _) (.after (State.lifeUp_keeps s2 _) h2))

theorem execPmRecordDone_keeps (ok : Bool) (s : State) : AnswerKeeps s (execPmRecordDone ok s) := by
  unfold execPmRecordDone
  split
  · exact .next (.refl s)
  · extract_lets _ s1 s2
    have h1 : Keeps s s1 := .parts (.refl s)
    have h2 : Keeps s s2 := .ite (.after (State.keyTorn_keeps s1 _ _) h1) h1
    exact .ite (.next (.after (State.shedEnds_keeps _) (.after (State.pmWritten_keeps s1 _) h1)))
      (.next (.after (State.shedEnds_keeps _) (.after (State.raise_keeps s2 _) h2)))

theorem State.tempTake_keeps (s : State) (i : Nat) (v : BitVec 16) : Keeps s (s.tempTake i v) := by
  unfold State.tempTake
  refine .ite ?_ (State.wr_keeps s _ _)
  extract_lets l bit up s1
  have h1 : Keeps s s1 := State.wr_keeps s _ _
  exact .parts h1

theorem State.tempShow_keeps (s : State) : Keeps s s.tempShow := by
  unfold State.tempShow
  extract_lets word s1
  have h1 : Keeps s s1 := by
    unfold s1
    split <;> exact State.wr_keeps s _ _
  refine .after (.foldl _ _ (fun t i => ?_) _) h1
  extract_lets top
  split
  · exact .ite (State.wr_keeps t _ _) (.refl t)
  · exact .refl t

theorem execTempMeasure_keeps (t0 t1 t2 t3 t4 : BitVec 16) (s : State) :
    AnswerKeeps s (execTempMeasure t0 t1 t2 t3 t4 s) := by
  unfold execTempMeasure
  refine .ite (.next (.refl s)) ?_
  extract_lets s1 warn shut
  have h1 : Keeps s s1 := .after (State.tempTake_keeps _ _ t4)
    (.after (State.tempTake_keeps _ _ t3) (.after (State.tempTake_keeps _ _ t2)
    (.after (State.tempTake_keeps _ _ t1) (State.tempTake_keeps s _ t0))))
  exact .next (.after (State.raiseIf_keeps _ _ _)
    (.after (State.raiseIf_keeps _ _ _) (.after (State.tempShow_keeps s1) h1)))

theorem execTempCutoff_keeps (i : Fin 5) (s : State) : AnswerKeeps s (execTempCutoff i s) := by
  unfold execTempCutoff
  split
  · exact .next (.refl s)
  · refine .ite ?_ (.next (.refl s))
    extract_lets s1
    have h1 : Keeps s s1 := .foldl _ _ State.domainOff_keeps _
    exact .next (.parts h1)

/-! ## The commands of the lanes (02_uzofy_lanes.md) -/

theorem execPrtTxEnable_keeps (p : Fin 13) (s : State) : AnswerKeeps s (execPrtTxEnable p s) :=
  .via (fun t => State.laneCtl_keeps t _ _)
theorem execPrtTxDisable_keeps (p : Fin 13) (s : State) : AnswerKeeps s (execPrtTxDisable p s) :=
  .via (fun t => State.laneCtl_keeps t _ _)
theorem execTrainReq_keeps (p : Fin 13) (s : State) : AnswerKeeps s (execTrainReq p s) :=
  .via (fun t => State.laneCtl_keeps t _ _)
theorem execAutoRetrainSet_keeps (p : Fin 13) (s : State) : AnswerKeeps s (execAutoRetrainSet p s) :=
  .via (fun t => State.laneCtl_keeps t _ _)

theorem execTestModeWrite_keeps (p : Fin 13) (loop : BitVec 2) (prbsTx prbsRx : Bool) (s : State) :
    AnswerKeeps s (execTestModeWrite p loop prbsTx prbsRx s) :=
  .via (fun t => State.laneCtl_keeps t _ _)

theorem execPrtCntClr_keeps (p : Fin 13) (s : State) : AnswerKeeps s (execPrtCntClr p s) :=
  .via (fun t => State.laneCntClr_keeps t _)

theorem execTrainingFrame_keeps (p : Fin 13) (marker : BitVec 32) (train comp : BitVec 16) (s : State) :
    AnswerKeeps s (execTrainingFrame p marker train comp s) := by
  unfold execTrainingFrame
  extract_lets x stage status
  exact .ite (.next (.refl s)) (.ite (.next (State.laneFail_keeps s _ _))
    (.ite (.next (.after (State.laneTry_keeps _ _) (State.setLane_keeps s _ _)))
    (.ite (.next (State.laneNext_keeps s _)) (.next (.refl s)))))

theorem State.stageMet_keeps {s t : State} {p : Nat} {m : StageMeas} (h : s.stageMet p m = some t) : Keeps s t := by
  revert h
  unfold State.stageMet
  extract_lets x
  split
  · exact keeps_of_ite_some (State.notePhase_keeps s p _)
  · split
    · rintro ⟨⟩
      exact State.wr_keeps s _ _
    · exact nofun
  · exact keeps_of_ite_some (State.setLane_keeps s p _)
  · exact keeps_of_ite_some (State.wr_keeps s _ _)
  · exact keeps_of_ite_some (.refl s)
  · exact nofun

theorem execTrainingStageDone_keeps (p : Fin 13) (st : LaneSt) (m : StageMeas) (s : State) :
    AnswerKeeps s (execTrainingStageDone p st m s) := by
  unfold execTrainingStageDone
  split
  · next t hmet =>
    have ht : Keeps s t := State.stageMet_keeps (Option.ite_none_right_eq_some.1 hmet).2
    exact .next (.after (State.laneTry_keeps _ p) (.after (State.setLane_keeps t p _) ht))
  · exact .next (.refl s)

theorem execTrainingStageTimeout_keeps (p : Fin 13) (s : State) : AnswerKeeps s (execTrainingStageTimeout p s) := by
  unfold execTrainingStageTimeout
  extract_lets x s1
  have h1 : Keeps s s1 := State.advanceVt_keeps s _
  exact .ite (.next (.after (State.laneFail_keeps s1 _ _) h1)) (.next (.refl s))

theorem State.reachData_keeps (s : State) (p ui : Nat) : Keeps s (s.reachData p ui) := by
  unfold State.reachData
  extract_lets _ x s1
  have h1 : Keeps s s1 := .after (State.setBit_keeps _ _ _) (State.setLane_keeps s p x)
  exact .after (State.setPort_keeps s1 p _) h1

theorem State.twinAlign_keeps (s : State) : Keeps s s.twinAlign := .ite (State.sendEcho_keeps s) (.refl s)

theorem execUpDataStart_keeps (p : Fin 13) (ui : Fin 32) (s : State) : AnswerKeeps s (execUpDataStart p ui s) := by
  unfold execUpDataStart
  extract_lets x s1
  have h1 : Keeps s s1 := State.reachData_keeps s _ _
  exact .ite (.next (.ite (.after (State.stageFourDone_keeps _) (.after (State.calStart_keeps s1 _) h1))
    (.after (State.twinAlign_keeps s1) h1))) (.next (.refl s))

theorem execPrbsCheck_keeps (l : DataLane) (group : BitVec 2) (s : State) :
    AnswerKeeps s (execPrbsCheck l group s) := by
  unfold execPrbsCheck
  extract_lets p x c
  split
  · extract_lets e s1
    have h1 : Keeps s s1 := State.setLane_keeps s _ _
    exact .next (.ite h1 (.after (State.setBit_keeps _ _ _) (.after (State.bump_keeps s1 _) h1)))
  · exact .next (.refl s)

theorem execLosAssert_keeps (p : Fin 13) (f : Fibre) (s : State) : AnswerKeeps s (execLosAssert p f s) := by
  unfold execLosAssert
  extract_lets x s1 s2
  have h1 : Keeps s s1 := .after (State.setBit_keeps _ _ _) (State.setLane_keeps s _ _)
  have h2 : Keeps s s2 := .after (State.addField_keeps s1 _ _ _ _) h1
  exact .ite (.next (.refl s)) (.ite (.next (.after (State.portFault_keeps _ _ _)
    (.after (State.addField_keeps s1 _ _ _ _) h1)))
    (.ite (.next (.ite h2 (.after (State.raise_keeps _ _) (.after (State.setLane_keeps s2 _ _) h2))))
    (.ite (.next (.after (State.laneFail_keeps s1 _ _) h1))
    (.ite (.next (.after (State.setLane_keeps s1 _ _) h1)) (.next h1)))))

theorem execLosDeassert_keeps (p : Fin 13) (f : Fibre) (s : State) : AnswerKeeps s (execLosDeassert p f s) := by
  unfold execLosDeassert
  extract_lets x y
  exact .ite (.next (.refl s)) (.next (State.setLane_keeps s _ _))

theorem execLolAssert_keeps (p : Fin 13) (cause : LolCause) (s : State) : AnswerKeeps s (execLolAssert p cause s) := by
  unfold execLolAssert
  refine .ite (.next (.refl s)) ?_
  split
  · exact .next (.ite (.refl s) (.after (State.loseLock_keeps _ _ _) (State.notePhase_keeps s _ _)))
  · exact .next (.after (State.loseLock_keeps _ _ _) (State.setBit_keeps s _ _))
  · exact .next (State.loseLock_keeps s _ _)

theorem execFreqCheck_keeps (p : Fin 13) (m : FreqMeas) (s : State) : AnswerKeeps s (execFreqCheck p m s) := by
  unfold execFreqCheck
  refine .ite (.next (.refl s)) ?_
  extract_lets s1 x
  have h1 : Keeps s s1 := State.notePhase_keeps s _ _
  exact .ite (.next (.after (State.setLane_keeps s1 _ _) h1))
    (.next (.after (State.loseLock_keeps _ _ _) (.after (State.setBit_keeps s1 _ _) h1)))

theorem execAutoRetrainTimer_keeps (p : Fin 13) (s : State) : AnswerKeeps s (execAutoRetrainTimer p s) := by
  unfold execAutoRetrainTimer
  extract_lets x s1
  have h1 : Keeps s s1 := State.advanceVt_keeps s _
  exact .ite (.next (.after (State.laneTrain_keeps _ _) (.ite (.after (State.advanceVt_keeps s1 _) h1) h1)))
    (.next (.refl s))

/-! ## Commands of the safety section, the field I/O and the isolation link (R679 to R744) -/

theorem execSafetyChannelPowerUp_keeps (c : Fin 2) (bank : BitVec 16) (s : State) :
    AnswerKeeps s (execSafetyChannelPowerUp c bank s) :=
  .ite (.next (.refl s)) (.next (.after (State.safBoth_keeps _)
    (.after (State.safTrip_keeps _ _ _) (.after (State.safTrip_keeps _ _ _) (State.setSafCh_keeps s _ _)))))

theorem execSafetySample_keeps (c : Fin 2) (ins : BitVec 32) (s : State) : AnswerKeeps s (execSafetySample c ins s) :=
  .ite (.next (State.safSample_keeps s _ ins)) (.next (.refl s))

theorem execResetHeld_keeps (c : Fin 2) (s : State) : AnswerKeeps s (execResetHeld c s) := by
  unfold execResetHeld
  extract_lets x max
  exact .next (.ite (State.safHeld_keeps s _) (.refl s))

theorem execTripRequestLine_keeps (c : Fin 2) (s : State) : AnswerKeeps s (execTripRequestLine c s) := by
  unfold execTripRequestLine
  extract_lets x s1
  have h1 : Keeps s s1 := State.setSafCh_keeps s _ _
  exact .ite (.next (.refl s)) (.next (.after (State.safEval_keeps _ _)
    (.ite (.after (State.safTrip_keeps s1 _ _) h1) h1)))

theorem execCrossLinkExchange_keeps (s : State) : AnswerKeeps s (execCrossLinkExchange s) := by
  unfold execCrossLinkExchange
  refine .ite ?_ (.next (.refl s))
  extract_lets _ s1
  have h1 : Keeps s s1 := .parts (.refl s)
  exact .next (.after (State.safBoth_keeps _) (.after (State.safConfirm_keeps _)
    (.after (State.safAdopt_keeps _ _) (.after (State.safAdopt_keeps s1 _) h1))))

theorem execCrossCheckFail_keeps (lost : Bool) (s : State) : AnswerKeeps s (execCrossCheckFail lost s) := by
  unfold execCrossCheckFail
  refine .ite (.next (.refl s)) ?_
  extract_lets _ s1
  have h1 : Keeps s s1 := .parts (.refl s)
  exact .next (.after (State.safBoth_keeps _) (.after (State.safTrip_keeps _ _ _)
    (.after (State.safTrip_keeps _ _ _) (.after (State.safNote_keeps _ _) (.after (State.fieldEvent_keeps s1 _) h1)))))

theorem execOffPulseTest_keeps (c : Fin 2) (so : Fin 8) (s : State) : AnswerKeeps s (execOffPulseTest c so s) := by
  unfold execOffPulseTest
  extract_lets x other s1
  have h1 : Keeps s s1 := State.setSafCh_keeps s _ _
  exact .ite (.next (.parts h1)) (.next (.refl s))

theorem execOffPulseVerdict_keeps (c : Fin 2) (pass : Bool) (s : State) :
    AnswerKeeps s (execOffPulseVerdict c pass s) := by
  unfold execOffPulseVerdict
  extract_lets x s1
  have h1 : Keeps s s1 := State.setSafCh_keeps s _ _
  split
  · exact .next (.refl s)
  · exact .ite (.next h1) (.next (.after (State.safOutFail_keeps _ _) (.parts h1)))

theorem execOutputAbove5vWhileOff_keeps (so : Fin 8) (s : State) : AnswerKeeps s (execOutputAbove5vWhileOff so s) := by
  unfold execOutputAbove5vWhileOff
  extract_lets a b
  exact .ite (.next (State.safOutFail_keeps s _)) (.next (.refl s))

theorem execSwitchBankRead_keeps (c : Fin 2) (v : BitVec 16) (s : State) : AnswerKeeps s (execSwitchBankRead c v s) :=
  .ite (.next (.after (State.safEval_keeps _ _) (.after (State.safBank_keeps _ _) (State.setSafCh_keeps s _ _))))
    (.next (.refl s))

theorem execDischargeTimer_keeps (c : Fin 2) (s : State) : AnswerKeeps s (execDischargeTimer c s) := by
  unfold execDischargeTimer
  extract_lets x
  split
  · exact .next (.refl s)
  · refine .ite (.next (.refl s)) ?_
    extract_lets s1
    have h1 : Keeps s s1 := State.elapse_keeps s _
    exact .next (.after (State.safEval_keeps _ _) (.after (State.setSafCh_keeps s1 _ _) h1))

theorem execSafetyBlockLine_keeps (p : Fin 12) (c : Fin 2) (s : State) : AnswerKeeps s (execSafetyBlockLine p c s) := by
  unfold execSafetyBlockLine
  refine .ite (.next (.refl s)) ?_
  extract_lets x v first x1 s1
  have h1 : Keeps s s1 := State.setPort_keeps s _ _
  exact .next (.ite (.after (State.blockNow_keeps s1) h1) h1)

theorem execSafetyPbChunk_keeps (c : Fin 2) (idx : BitVec 8) (data : BitVec 128) (s : State) :
    AnswerKeeps s (execSafetyPbChunk c idx data s) :=
  .next (State.safChunk_keeps s _ _ _)

theorem execFieldInputChange_keeps (n : Fin 32) (level : Bool) (run : Nat) (s : State) :
    AnswerKeeps s (execFieldInputChange n level run s) := by
  unfold execFieldInputChange
  refine .ite ?_ (.next (.refl s))
  extract_lets b
  exact .next (.parts (.refl s))

theorem execOutputOverload_keeps (n : Fin 16) (s : State) : AnswerKeeps s (execOutputOverload n s) :=
  .ite (.next (.after (State.fieldEvent_keeps _ _) (.parts (.refl s)))) (.next (.refl s))

theorem execFieldSupplyLow_keeps (v : BitVec 16) (s : State) : AnswerKeeps s (execFieldSupplyLow v s) :=
  .ite (.next (.refl s)) (.next (.after (State.safLook_keeps _)
    (.after (State.fieldEvent_keeps _ _) (.parts (.refl s)))))

theorem execFieldSupplyRecover_keeps (v : BitVec 16) (s : State) : AnswerKeeps s (execFieldSupplyRecover v s) :=
  .ite (.next (.refl s)) (.next (.after (State.safBoth_keeps _) (.parts (.refl s))))
theorem execDownFrameSend_keeps (s : State) : AnswerKeeps s (execDownFrameSend s) :=
  .ite (.next (.refl s)) (.next (.after (State.downSend_keeps _) (State.elapse_keeps s _)))
theorem execUpFrameReceive_keeps (f : BitVec 256) (s : State) : AnswerKeeps s (execUpFrameReceive f s) :=
  .via (fun t => State.upReceive_keeps t f)
theorem execUpFrameLost_keeps (s : State) : AnswerKeeps s (execUpFrameLost s) :=
  .ite (.next (.refl s)) (.next (.after (State.upLost_keeps _) (State.elapse_keeps s _)))
theorem execFieldDownFrameReceive_keeps (f : BitVec 256) (s : State) : AnswerKeeps s (execFieldDownFrameReceive f s) :=
  .ite (.next (State.downReceive_keeps s f)) (.next (.refl s))
theorem execFieldDownFrameLost_keeps (s : State) : AnswerKeeps s (execFieldDownFrameLost s) :=
  .ite (.next (State.downLost_keeps s)) (.next (.refl s))
theorem execFieldUpFrameSend_keeps (s : State) : AnswerKeeps s (execFieldUpFrameSend s) :=
  .ite (.next (.parts (.refl s))) (.next (.refl s))
theorem execFioResume_keeps (s : State) : AnswerKeeps s (execFioResume s) := .via State.fioResume_keeps
theorem execFioOvlClr_keeps (v : BitVec 16) (s : State) : AnswerKeeps s (execFioOvlClr v s) :=
  .via (fun t => State.fioOvlClr_keeps t v)
theorem execFioCntClr_keeps (s : State) : AnswerKeeps s (execFioCntClr s) := .via State.fioCntClr_keeps
theorem execSafCntClr_keeps (s : State) : AnswerKeeps s (execSafCntClr s) := .via State.safCntClr_keeps

end Sys2Proof.Machine
end

section
/-! Every step keeps the canonical form of the tables, and leaves of the queue what waited behind the front command. -/

namespace Sys2Proof.Machine

open Sys2Proof.Safety

/-- Every command keeps the canonical form of the tables and the commands that wait. -/
theorem exec_keeps (c : Instr) (s : State) : AnswerKeeps s (exec c s) := by
  cases c
  case registerWrite => exact execRegisterWrite_keeps _ _ _ s
  case busError => exact execBusError_keeps _ _ _ s
  case pairedValueWrite => exact execPairedValueWrite_keeps _ _ s
  case pairedComplementWrite => exact execPairedComplementWrite_keeps _ _ s
  case tbVtLoRead => exact execTbVtLoRead_keeps _ s
  case pd0PowerUp => exact execPd0PowerUp_keeps _ s
  case timebaseLockLost => exact execTimebaseLockLost_keeps s
  case periodBoundary => exact execPeriodBoundary_keeps s
  case intakeEnd => exact execIntakeEnd_keeps _ s
  case emitStart => exact execEmitStart_keeps _ s
  case marginStart => exact execMarginStart_keeps _ s
  case periodMarker => exact execPeriodMarker_keeps _ _ s
  case wordSend => exact execWordSend_keeps _ _ _ s
  case wordReceive => exact execWordReceive_keeps _ _ s
  case creditReturn => exact execCreditReturn_keeps _ _ s
  case energyWindowEnd => exact execEnergyWindowEnd_keeps _ s
  case domainSwitch => exact execDomainSwitch_keeps _ s
  case domainPowerOn => exact execDomainPowerOn_keeps _ s
  case domainPowerOff => exact execDomainPowerOff_keeps _ s
  case prtTxEnable => exact execPrtTxEnable_keeps _ s
  case prtTxDisable => exact execPrtTxDisable_keeps _ s
  case trainReq => exact execTrainReq_keeps _ s
  case autoRetrainSet => exact execAutoRetrainSet_keeps _ s
  case testModeWrite => exact execTestModeWrite_keeps _ _ _ _ s
  case prtCntClr => exact execPrtCntClr_keeps _ s
  case trainingFrame => exact execTrainingFrame_keeps _ _ _ _ s
  case trainingStageDone => exact execTrainingStageDone_keeps _ _ _ s
  case trainingStageTimeout => exact execTrainingStageTimeout_keeps _ s
  case upDataStart => exact execUpDataStart_keeps _ _ s
  case prbsCheck => exact execPrbsCheck_keeps _ _ s
  case losAssert => exact execLosAssert_keeps _ _ s
  case losDeassert => exact execLosDeassert_keeps _ _ s
  case lolAssert => exact execLolAssert_keeps _ _ s
  case freqCheck => exact execFreqCheck_keeps _ _ s
  case autoRetrainTimer => exact execAutoRetrainTimer_keeps _ s
  case commandsResume => exact execCommandsResume_keeps _ s
  case upBlockReceive => exact execUpBlockReceive_keeps _ _ s
  case rptBlockReceive => exact execRptBlockReceive_keeps _ _ _ s
  case echoResponse => exact execEchoResponse_keeps _ _ _ _ s
  case censusResponse => exact execCensusResponse_keeps _ _ s
  case barrierResponse => exact execBarrierResponse_keeps _ _ _ s
  case snapshotResponse => exact execSnapshotResponse_keeps _ _ _ s
  case witnessReceive => exact execWitnessReceive_keeps _ _ _ _ s
  case ctrlBlockSend => exact execCtrlBlockSend_keeps _ s
  case echoRequest => exact execEchoRequest_keeps _ s
  case snapRequest => exact execSnapRequest_keeps _ s
  case barrierRequest => exact execBarrierRequest_keeps _ s
  case resetRequest => exact execResetRequest_keeps _ s
  case echoTimeout => exact execEchoTimeout_keeps _ s
  case barrierTimeout => exact execBarrierTimeout_keeps _ s
  case censusTimeout => exact execCensusTimeout_keeps _ s
  case censusRetry => exact execCensusRetry_keeps _ s
  case recalRound => exact execRecalRound_keeps _ s
  case prtFrmCntClr => exact execPrtFrmCntClr_keeps _ s
  case portDueTick => exact execPortDueTick_keeps _ _ s
  case rankStart => exact execRankStart_keeps _ _ s
  case selectStart => exact execSelectStart_keeps _ _ s
  case placeStart => exact execPlaceStart_keeps _ _ s
  case levelOrderReceive => exact execLevelOrderReceive_keeps _ _ _ _ _ _ s
  case swWindowEnd => exact execSwWindowEnd_keeps _ s
  case cellLatchOut => exact execCellLatchOut_keeps _ _ s
  case cellRelease => exact execCellRelease_keeps _ _ s
  case aeCntClr => exact execAeCntClr_keeps _ s
  case prtAudClr => exact execPrtAudClr_keeps _ s
  case cueStart => exact execCueStart_keeps _ _ _ s
  case eddyClear => exact execEddyClear_keeps _ s
  case injStart => exact execInjStart_keeps _ _ s
  case injStop => exact execInjStop_keeps s
  case injRecordEnd => exact execInjRecordEnd_keeps s
  case leCntClr => exact execLeCntClr_keeps _ s
  case transferReceive => exact execTransferReceive_keeps _ _ _ _ _ s
  case creditWaitTimeout => exact execCreditWaitTimeout_keeps _ _ s
  case schCntClr => exact execSchCntClr_keeps s
  case faultEvent => exact execFaultEvent_keeps _ _ s
  case lullExpiry => exact execLullExpiry_keeps _ s
  case clearSource => exact execClearSource_keeps _ s
  case clearAll => exact execClearAll_keeps s
  case inject => exact execInject_keeps _ s
  case injectionFire => exact execInjectionFire_keeps s
  case deblock => exact execDeblock_keeps s
  case blockRequest => exact execBlockRequest_keeps s
  case fltCntClr => exact execFltCntClr_keeps s
  case counterAreaWrite => exact execCounterAreaWrite_keeps _ s
  case arm => exact execArm_keeps s
  case gustArmEffect => exact execGustArmEffect_keeps s
  case stop => exact execStop_keeps s
  case force => exact execForce_keeps s
  case traceWord => exact execTraceWord_keeps _ s
  case traceRowClose => exact execTraceRowClose_keeps s
  case recordDeadline => exact execRecordDeadline_keeps _ s
  case gustArmReceive => exact execGustArmReceive_keeps s
  case gustFireReceive => exact execGustFireReceive_keeps _ s
  case gstCntClr => exact execGstCntClr_keeps s
  case renewSend => exact execRenewSend_keeps s
  case renew => exact execRenew_keeps _ s
  case status => exact execStatus_keeps _ _ s
  case statusSend => exact execStatusSend_keeps s
  case surrender => exact execSurrender_keeps _ s
  case reclaim => exact execReclaim_keeps _ s
  case handover => exact execHandover_keeps _ s
  case ack => exact execAck_keeps _ s
  case nak => exact execNak_keeps _ s
  case echo => exact execEcho_keeps _ s
  case echoResp => exact execEchoResp_keeps _ _ s
  case twinEchoSend => exact execTwinEchoSend_keeps s
  case partnerTimeout => exact execPartnerTimeout_keeps s
  case checkpointCapture => exact execCheckpointCapture_keeps s
  case checkpointReceive => exact execCheckpointReceive_keeps _ s
  case checkpointTimeout => exact execCheckpointTimeout_keeps s
  case leaseViewExpiry => exact execLeaseViewExpiry_keeps s
  case leaseQuerySend => exact execLeaseQuerySend_keeps s
  case claimDelayExpiry => exact execClaimDelayExpiry_keeps s
  case claimSend => exact execClaimSend_keeps s
  case enginePowerUpDone => exact execEnginePowerUpDone_keeps _ s
  case restoreDone => exact execRestoreDone_keeps s
  case claimStepTimeout => exact execClaimStepTimeout_keeps s
  case epochLearnTimeout => exact execEpochLearnTimeout_keeps s
  case claimConfirmTimeout => exact execClaimConfirmTimeout_keeps s
  case reclaimHealthTimer => exact execReclaimHealthTimer_keeps _ s
  case liveCapture => exact execLiveCapture_keeps s
  case liveReceive => exact execLiveReceive_keeps _ s
  case liveDeadline => exact execLiveDeadline_keeps s
  case handingTimeout => exact execHandingTimeout_keeps s
  case twnSurrenderCmd => exact execTwnSurrenderCmd_keeps s
  case twnRetry => exact execTwnRetry_keeps s
  case twnAbortWarm => exact execTwnAbortWarm_keeps s
  case twnCntClr => exact execTwnCntClr_keeps s
  case startStageBound => exact execStartStageBound_keeps s
  case bankCharged => exact execBankCharged_keeps _ s
  case imageCheck => exact execImageCheck_keeps s
  case domainSelfTestDone => exact execDomainSelfTestDone_keeps _ s
  case firstBoundaryPlace => exact execFirstBoundaryPlace_keeps s
  case readyBlocked => exact execReadyBlocked_keeps s
  case keyInsert => exact execKeyInsert_keeps _ s
  case keyRemove => exact execKeyRemove_keeps s
  case keyRead => exact execKeyRead_keeps s
  case keyWrite => exact execKeyWrite_keeps s
  case keyInvalidatePm => exact execKeyInvalidatePm_keeps _ s
  case keyVerify => exact execKeyVerify_keeps _ s
  case keyCommandDone => exact execKeyCommandDone_keeps _ s
  case draftOpen => exact execDraftOpen_keeps s
  case load => exact execLoad_keeps s
  case check => exact execCheck_keeps s
  case checkDone => exact execCheckDone_keeps s
  case commit => exact execCommit_keeps s
  case abort => exact execAbort_keeps s
  case draftCommitBoundary => exact execDraftCommitBoundary_keeps s
  case feedOutOfRange => exact execFeedOutOfRange_keeps _ _ s
  case feedInRange => exact execFeedInRange_keeps _ _ s
  case feedsLost => exact execFeedsLost_keeps _ _ s
  case rideEnd => exact execRideEnd_keeps _ _ s
  case holdVoltageMeasure => exact execHoldVoltageMeasure_keeps _ s
  case shed => exact execShed_keeps s
  case shedFeedReturn => exact execShedFeedReturn_keeps s
  case pmRecordStart => exact execPmRecordStart_keeps _ s
  case pmRecordDone => exact execPmRecordDone_keeps _ s
  case tempMeasure => exact execTempMeasure_keeps _ _ _ _ _ s
  case tempCutoff => exact execTempCutoff_keeps _ s
  case linkDown => exact execLinkDown_keeps _ s
  case linkUp => exact execLinkUp_keeps _ s
  case frameReceive => exact execFrameReceive_keeps _ _ s
  case prpSupervisionSend => exact execPrpSupervisionSend_keeps s
  case prpPathTimeout => exact execPrpPathTimeout_keeps _ s
  case orderMessage => exact execOrderMessage_keeps _ _ _ s
  case orderApply => exact execOrderApply_keeps s
  case orderLifetimeExpiry => exact execOrderLifetimeExpiry_keeps s
  case netOrdRel => exact execNetOrdRel_keeps s
  case statusBuild => exact execStatusBuild_keeps s
  case launchFrameSend => exact execLaunchFrameSend_keeps _ s
  case ringTailWrite => exact execRingTailWrite_keeps _ _ _ s
  case frameTransmitDone => exact execFrameTransmitDone_keeps _ s
  case netNtAdj => exact execNetNtAdj_keeps _ s
  case ntStep => exact execNtStep_keeps _ s
  case netNtOffset => exact execNetNtOffset_keeps _ s
  case servoUpdateTimeout => exact execServoUpdateTimeout_keeps s
  case netLatch => exact execNetLatch_keeps s
  case netNtLoRead => exact execNetNtLoRead_keeps s
  case txtsPop => exact execTxtsPop_keeps _ s
  case sfpDiagRead => exact execSfpDiagRead_keeps _ _ _ s
  case netCntClr => exact execNetCntClr_keeps s
  case watchdogKick => exact execWatchdogKick_keeps _ s
  case watchdogEnable => exact execWatchdogEnable_keeps _ s
  case watchdogExpiry => exact execWatchdogExpiry_keeps s
  case debugHalt => exact execDebugHalt_keeps _ s
  case coreStart => exact execCoreStart_keeps _ s
  case mtimecmpMatch => exact execMtimecmpMatch_keeps _ s
  case plicClaim => exact execPlicClaim_keeps _ s
  case plicComplete => exact execPlicComplete_keeps _ _ s
  case create => exact execCreate_keeps _ _ _ _ s
  case ready => exact execReady_keeps _ _ s
  case block => exact execBlock_keeps _ _ s
  case yield => exact execYield_keeps _ _ s
  case prio => exact execPrio_keeps _ _ _ s
  case affinity => exact execAffinity_keeps _ _ _ s
  case delete => exact execDelete_keeps _ _ s
  case dispatchAck => exact execDispatchAck_keeps _ _ _ s
  case dmaStart => exact execDmaStart_keeps _ _ s
  case dmaStop => exact execDmaStop_keeps _ _ s
  case descriptorReturn => exact execDescriptorReturn_keeps _ _ _ s
  case dmaAccessTimeout => exact execDmaAccessTimeout_keeps _ _ s
  case arbModeWrite => exact execArbModeWrite_keeps _ s
  case memGrantClr => exact execMemGrantClr_keeps s
  case eccCorrected => exact execEccCorrected_keeps _ s
  case eccUncorrectable => exact execEccUncorrectable_keeps _ _ _ s
  case scrubPass => exact execScrubPass_keeps s
  case safetySample => exact execSafetySample_keeps _ _ s
  case resetHeld => exact execResetHeld_keeps _ s
  case tripRequestLine => exact execTripRequestLine_keeps _ s
  case crossLinkExchange => exact execCrossLinkExchange_keeps s
  case crossCheckFail => exact execCrossCheckFail_keeps _ s
  case offPulseTest => exact execOffPulseTest_keeps _ _ s
  case offPulseVerdict => exact execOffPulseVerdict_keeps _ _ s
  case switchBankRead => exact execSwitchBankRead_keeps _ _ s
  case dischargeTimer => exact execDischargeTimer_keeps _ s
  case safetyBlockLine => exact execSafetyBlockLine_keeps _ _ s
  case safetyPbChunk => exact execSafetyPbChunk_keeps _ _ _ s
  case safetyChannelPowerUp => exact execSafetyChannelPowerUp_keeps _ _ s
  case fieldInputChange => exact execFieldInputChange_keeps _ _ _ s
  case outputOverload => exact execOutputOverload_keeps _ s
  case fieldSupplyLow => exact execFieldSupplyLow_keeps _ s
  case fieldSupplyRecover => exact execFieldSupplyRecover_keeps _ s
  case downFrameSend => exact execDownFrameSend_keeps s
  case upFrameReceive => exact execUpFrameReceive_keeps _ s
  case upFrameLost => exact execUpFrameLost_keeps s
  case fieldDownFrameReceive => exact execFieldDownFrameReceive_keeps _ s
  case fieldDownFrameLost => exact execFieldDownFrameLost_keeps s
  case fioResume => exact execFioResume_keeps s
  case fioOvlClr => exact execFioOvlClr_keeps _ s
  case fioCntClr => exact execFioCntClr_keeps s
  case safCntClr => exact execSafCntClr_keeps s
  case adcStart => exact execAdcStart_keeps s
  case adcStop => exact execAdcStop_keeps s
  case adcCal => exact execAdcCal_keeps s
  case calDone => exact execCalDone_keeps _ _ _ _ _ _ _ _ s
  case jgo => exact execJgo_keeps s
  case jatMatch => exact execJatMatch_keeps s
  case adcSlotEnd => exact execAdcSlotEnd_keeps _ _ s
  case adcFactorWrite => exact execAdcFactorWrite_keeps _ _ _ s
  case adcResRead => exact execAdcResRead_keeps _ _ s
  case shaftEdge => exact execShaftEdge_keeps _ _ _ _ s
  case indexEdge => exact execIndexEdge_keeps _ s
  case shfCntWrite => exact execShfCntWrite_keeps _ _ s
  case shfCfgWrite => exact execShfCfgWrite_keeps _ _ s
  case ssiReq => exact execSsiReq_keeps _ s
  case ssiReadDone => exact execSsiReadDone_keeps _ _ _ _ _ s
  case ssiTmEnd => exact execSsiTmEnd_keeps _ s
  case shfAbsCfgWrite => exact execShfAbsCfgWrite_keeps _ _ _ s
  case shfCntClr => exact execShfCntClr_keeps _ s
  case loadAll => exact execLoadAll_keeps s
  case pwmReload => exact execPwmReload_keeps _ s
  case pwmOffEdge => exact execPwmOffEdge_keeps _ s
  case pwmEnWrite => exact execPwmEnWrite_keeps _ s
  case pwmMinoffWrite => exact execPwmMinoffWrite_keeps _ _ s
  case chopperArm => exact execChopperArm_keeps s
  case chopperDisarm => exact execChopperDisarm_keeps s
  case armPairWrite => exact execArmPairWrite_keeps _ _ _ s
  case pwmChopWrite => exact execPwmChopWrite_keeps _ s
  case clockStop => exact execClockStop_keeps s
  case canFrameReceive => exact execCanFrameReceive_keeps _ _ _ s
  case canTxReq => exact execCanTxReq_keeps _ _ s
  case canTxAbort => exact execCanTxAbort_keeps _ _ _ s
  case canFrameSent => exact execCanFrameSent_keeps _ _ _ s
  case canFrameFail => exact execCanFrameFail_keeps _ _ s
  case canStateChange => exact execCanStateChange_keeps _ _ _ _ s
  case canRec => exact execCanRec_keeps _ s
  case canRecovered => exact execCanRecovered_keeps _ s
  case canStaleTest => exact execCanStaleTest_keeps _ _ s
  case canInit => exact execCanInit_keeps _ s
  case canTimingWrite => exact execCanTimingWrite_keeps _ _ _ s
  case canCntClr => exact execCanCntClr_keeps _ s
  case debugResume => exact execDebugResume_keeps _ s
  case railOutOfRange => exact execRailOutOfRange_keeps _ s
  case fieldUpFrameSend => exact execFieldUpFrameSend_keeps s
  case pmpDenial => exact execPmpDenial_keeps _ _ s
  case outputAbove5vWhileOff => exact execOutputAbove5vWhileOff_keeps _ s
  case pd0PowerDown => exact execPd0PowerDown_keeps s

theorem tablesOk_step {s t : State} (hstep : step s = .next t) (h : tablesOk s = true) : tablesOk t = true := by
  unfold step at hstep
  split at hstep
  · cases hstep
    exact (State.idleTick_keeps s).1 h
  · exact ((exec_keeps _ _).keeps t hstep).1 h

theorem pending_step {s t : State} (hstep : step s = .next t) : t.pending = s.pending.tail := by
  unfold step at hstep
  split at hstep
  · next hnone =>
    cases hstep
    rw [(State.idleTick_keeps s).2, hnone]
    rfl
  · next c rest hfront =>
    rw [((exec_keeps _ _).keeps t hstep).2, hfront]
    rfl

end Sys2Proof.Machine

namespace Sys2Proof.Steps

open Sys2Proof.Machine Sys2Proof.Safety

/-- Settles O3: no command changes the queue behind it, and an idle tick leaves it empty. -/
theorem stepTakesExactlyTheFrontCommand : Obligations.StepTakesExactlyTheFrontCommand := fun _ _ => pending_step

/-- Settles O4: each operation on a table keeps it canonical, so each command and the idle tick do. -/
theorem stepKeepsTheTablesCanonical : Obligations.StepKeepsTheTablesCanonical := fun _ _ h hstep => tablesOk_step hstep h

end Sys2Proof.Steps
end

section
/-! The thread dispatcher (R642 to R651): the words of DSP_CMD, what the trace and the placing of threads leave of the threads
and of the registers, and what each command makes of its thread. -/

namespace Sys2Proof.Machine

open Sys2Proof.Safety

/-! ## The words of DSP_CMD (R644) -/

theorem toNat_dspWord {op : Nat} (hop : op < 16) (t : BitVec 7) (p : BitVec 5) (a : BitVec 8) (idle : Bool) :
    (dspWord op t p a idle).toNat = 2 ^ 28 * op + 2 ^ 21 * t.toNat + 2 ^ 16 * p.toNat + 2 ^ 8 * a.toNat + idle.toNat := by
  have ht := t.isLt
  have hp := p.isLt
  have ha := a.isLt
  have hidle : (bitIf idle 0).toNat = idle.toNat := by cases idle <;> rfl
  have hle := Bool.toNat_lt idle
  have h1 : 2 ^ 28 * op ||| 2 ^ 21 * t.toNat = 2 ^ 21 * (2 ^ 7 * op + t.toNat) := by
    rw [← Nat.two_pow_add_eq_or_of_lt (by omega)]
    omega
  have h2 : 2 ^ 21 * (2 ^ 7 * op + t.toNat) ||| 2 ^ 16 * p.toNat = 2 ^ 16 * (2 ^ 5 * (2 ^ 7 * op + t.toNat) + p.toNat) := by
    rw [← Nat.two_pow_add_eq_or_of_lt (by omega)]
    omega
  have h3 : 2 ^ 16 * (2 ^ 5 * (2 ^ 7 * op + t.toNat) + p.toNat) ||| 2 ^ 8 * a.toNat =
      2 ^ 8 * (2 ^ 8 * (2 ^ 5 * (2 ^ 7 * op + t.toNat) + p.toNat) + a.toNat) := by
    rw [← Nat.two_pow_add_eq_or_of_lt (by omega)]
    omega
  simp only [dspWord, putField, BitVec.toNat_or, BitVec.toNat_ofNat, hidle]
  rw [Nat.mod_eq_of_lt (by omega), Nat.mod_eq_of_lt (by omega), Nat.mod_eq_of_lt (by omega), Nat.mod_eq_of_lt (by omega),
    Nat.mul_comm op, Nat.mul_comm t.toNat, Nat.mul_comm p.toNat, Nat.mul_comm a.toNat, h1, h2, h3,
    ← Nat.two_pow_add_eq_or_of_lt (by omega)]
  omega

section
variable {op : Nat} (hop : op < 16) (t : BitVec 7) (p : BitVec 5) (a : BitVec 8) (idle : Bool)
include hop

theorem dspWord_op : fieldOf (dspWord op t p a idle) 28 4 = op := by
  have := t.isLt
  have := p.isLt
  have := a.isLt
  have := Bool.toNat_lt idle
  rw [fieldOf, toNat_dspWord hop]
  omega

theorem dspWord_thread : BitVec.ofNat 7 (fieldOf (dspWord op t p a idle) 21 7) = t := by
  have ht := t.isLt
  have := p.isLt
  have := a.isLt
  have := Bool.toNat_lt idle
  refine BitVec.eq_of_toNat_eq ?_
  rw [fieldOf, toNat_dspWord hop, BitVec.toNat_ofNat]
  omega

theorem dspWord_prio : BitVec.ofNat 5 (fieldOf (dspWord op t p a idle) 16 5) = p := by
  have hp := p.isLt
  have := a.isLt
  have := Bool.toNat_lt idle
  refine BitVec.eq_of_toNat_eq ?_
  rw [fieldOf, toNat_dspWord hop, BitVec.toNat_ofNat]
  omega

theorem dspWord_affinity : BitVec.ofNat 8 (fieldOf (dspWord op t p a idle) 8 8) = a := by
  have ha := a.isLt
  have := Bool.toNat_lt idle
  refine BitVec.eq_of_toNat_eq ?_
  rw [fieldOf, toNat_dspWord hop, BitVec.toNat_ofNat]
  omega

theorem dspWord_idle : (dspWord op t p a idle).getLsbD 0 = idle := by
  rw [BitVec.getLsbD, toNat_dspWord hop, Nat.testBit_zero]
  cases idle <;> simp <;> omega

end

section
variable {s : State} {c : Fin 8} (hopen : s.open .dsp = true) (x : BitVec 7)
include hopen

theorem exec_create (p : BitVec 5) (a : BitVec 8) : exec (.create c x p a) s = .next (s.thrCreate c x p a) := by
  change s.via .dsp (fun u => u.dspCmd c (dspWord 1 x p a false)) = _
  rw [State.via_of_open s _ hopen, State.dspCmd, dspWord_op (by decide), dspWord_thread (by decide), dspWord_prio (by decide),
    dspWord_affinity (by decide)]
  rfl

theorem exec_ready : exec (.ready c x) s = .next (s.thrReady c x) := by
  change s.via .dsp (fun u => u.dspCmd c (dspWord 2 x 0 0 false)) = _
  rw [State.via_of_open s _ hopen, State.dspCmd, dspWord_op (by decide), dspWord_thread (by decide)]
  rfl

theorem exec_block : exec (.block c x) s = .next (s.thrBlock c x) := by
  change s.via .dsp (fun u => u.dspCmd c (dspWord 3 x 0 0 false)) = _
  rw [State.via_of_open s _ hopen, State.dspCmd, dspWord_op (by decide), dspWord_thread (by decide)]
  rfl

theorem exec_yield : exec (.yield c x) s = .next (s.thrYield c x) := by
  change s.via .dsp (fun u => u.dspCmd c (dspWord 4 x 0 0 false)) = _
  rw [State.via_of_open s _ hopen, State.dspCmd, dspWord_op (by decide), dspWord_thread (by decide)]
  rfl

theorem exec_prio (p : BitVec 5) : exec (.prio c x p) s = .next (s.thrPrio c x p) := by
  change s.via .dsp (fun u => u.dspCmd c (dspWord 5 x p 0 false)) = _
  rw [State.via_of_open s _ hopen, State.dspCmd, dspWord_op (by decide), dspWord_thread (by decide), dspWord_prio (by decide)]
  rfl

theorem exec_affinity (a : BitVec 8) : exec (.affinity c x a) s = .next (s.thrAffinity c x a) := by
  change s.via .dsp (fun u => u.dspCmd c (dspWord 6 x 0 a false)) = _
  rw [State.via_of_open s _ hopen, State.dspCmd, dspWord_op (by decide), dspWord_thread (by decide),
    dspWord_affinity (by decide)]
  rfl

theorem exec_delete : exec (.delete c x) s = .next (s.thrDelete c x) := by
  change s.via .dsp (fun u => u.dspCmd c (dspWord 7 x 0 0 false)) = _
  rw [State.via_of_open s _ hopen, State.dspCmd, dspWord_op (by decide), dspWord_thread (by decide)]
  rfl

theorem exec_dispatchAck (idle : Bool) : exec (.dispatchAck c x idle) s = .next (s.thrAck c x idle) := by
  change s.via .dsp (fun u => u.dspCmd c (dspWord 8 x 0 0 idle)) = _
  rw [State.via_of_open s _ hopen, State.dspCmd, dspWord_op (by decide), dspWord_thread (by decide), dspWord_idle (by decide)]
  rfl

end

/-! ## The trace (R651) -/

/-- A trace record leaves the threads, the levels they wait in, the registers above those of the trace, and a refusal shown. -/
structure TraceLeaves (s t : State) : Prop where
  thrs : t.dsp.thrs = s.dsp.thrs
  waits : t.dsp.waits = s.dsp.waits
  rd : ∀ a, Reg.DSP_TR_LOST < a → t.rd a = s.rd a
  evt : s.bitOf Reg.DSP_EVT 1 = true → t.bitOf Reg.DSP_EVT 1 = true

theorem TraceLeaves.refl (s : State) : TraceLeaves s s := ⟨rfl, rfl, fun _ _ => rfl, id⟩

theorem TraceLeaves.trans {s t u : State} (h : TraceLeaves s t) (k : TraceLeaves t u) : TraceLeaves s u :=
  ⟨k.thrs.trans h.thrs, k.waits.trans h.waits, fun a ha => (k.rd a ha).trans (h.rd a ha), k.evt ∘ h.evt⟩

theorem State.busWrite_rest (s : State) (a : Nat) (l : List Byte) : { s.busWrite a l with ram := s.ram } = s := by
  induction l generalizing s a with
  | nil => rfl
  | cons b r ih =>
    rw [State.busWrite]
    split
    · exact congrArg (fun t : State => { t with ram := s.ram }) (ih { s with ram := s.ram.put a b } (a + 1))
    · exact ih s (a + 1)

theorem State.trPut_leaves (s : State) (v : BitVec 64) : TraceLeaves s (s.trPut v) := by
  have hrest := s.busWrite_rest (s.trSlot s.trHead) (natBytes 8 v.toNat)
  have hdsp := congrArg State.dsp hrest
  have hregs := congrArg State.regs hrest
  dsimp only at hdsp hregs
  have hrd : ∀ a, a ≠ Reg.DSP_TR_PTR → (s.trPut v).rd a = s.rd a := by
    intro a ha
    rw [State.trPut, State.rd_setField_other _ _ _ _ _ _ ha, State.rd, hregs]
    rfl
  refine ⟨?_, ?_, fun a ha => hrd a (Nat.ne_of_gt (Nat.lt_trans (by decide) ha)), fun h => ?_⟩
  · rw [State.trPut, State.setField_dsp, hdsp]
  · rw [State.trPut, State.setField_dsp, hdsp]
  · rwa [State.bitOf_congr (hrd _ (by decide))]

theorem State.trLose_leaves (s : State) : TraceLeaves s s.trLose := by
  have hrd : ∀ a, a ≠ Reg.DSP_TR_LOST → a ≠ Reg.DSP_EVT → s.trLose.rd a = s.rd a := by
    intro a hlost hevt
    rw [State.trLose, State.rd_setBit_other _ _ _ _ hevt, State.rd_bump_other _ _ _ hlost]
    rfl
  refine ⟨rfl, rfl, fun a ha => hrd a ha.ne' (Nat.ne_of_gt (Nat.lt_trans (by decide) ha)), fun h => ?_⟩
  rw [State.trLose, State.bitOf_setBit _ _ _ _ (by decide), Bool.or_eq_true]
  exact .inl ((State.bitOf_congr (State.rd_bump_other _ _ _ (by decide)) 1).trans h)

theorem State.trRecord_leaves (s : State) (v : BitVec 64) : TraceLeaves s (s.trRecord v) := by
  unfold State.trRecord
  split
  · exact .refl s
  split
  · exact s.trLose_leaves
  split
  · exact s.trPut_leaves v
  extract_lets w _ _ s1
  have h1 : TraceLeaves s s1 := by
    obtain ⟨hthrs, hwaits, hrd, hevt⟩ := s.trPut_leaves w
    exact ⟨rfl, rfl, hrd, hevt⟩
  split
  · exact h1.trans (s1.trPut_leaves v)
  · exact h1.trans s1.trLose_leaves

theorem State.trace_leaves (s : State) (kind core : Nat) (t t2 : Option (BitVec 7)) :
    TraceLeaves s (s.trace kind core t t2) := by
  unfold State.trace
  split
  · exact .refl s
  · have htick : TraceLeaves s s.tick1 := ⟨rfl, rfl, fun _ _ => rfl, id⟩
    exact htick.trans (s.tick1.trRecord_leaves _)

section
variable (s : State) (kind core : Nat) (t t2 : Option (BitVec 7))

@[simp] theorem State.thr_trace (y : BitVec 7) : (s.trace kind core t t2).thr y = s.thr y := by
  rw [State.thr, (s.trace_leaves kind core t t2).thrs]
  rfl

@[simp] theorem State.waiting_trace (p : Nat) : (s.trace kind core t t2).waiting p = s.waiting p := by
  rw [State.waiting, (s.trace_leaves kind core t t2).waits]
  rfl

theorem lost_lt_res (c : Nat) : Reg.DSP_TR_LOST < Reg.DSP_RES c := by
  unfold Reg.DSP_TR_LOST Reg.DSP_RES
  omega

theorem lost_lt_next (c : Nat) : Reg.DSP_TR_LOST < Reg.DSP_NEXT c := by
  unfold Reg.DSP_TR_LOST Reg.DSP_NEXT
  omega

theorem lost_lt_cur (c : Nat) : Reg.DSP_TR_LOST < Reg.DSP_CUR c := by
  unfold Reg.DSP_TR_LOST Reg.DSP_CUR
  omega

@[simp] theorem State.res_trace (c : Nat) : (s.trace kind core t t2).rd (Reg.DSP_RES c) = s.rd (Reg.DSP_RES c) :=
  (s.trace_leaves kind core t t2).rd _ (lost_lt_res c)

@[simp] theorem State.nextThr_trace (c : Nat) : (s.trace kind core t t2).nextThr c = s.nextThr c :=
  congrArg namedIn ((s.trace_leaves kind core t t2).rd _ (lost_lt_next c))

@[simp] theorem State.curThr_trace (c : Nat) : (s.trace kind core t t2).curThr c = s.curThr c :=
  congrArg namedIn ((s.trace_leaves kind core t t2).rd _ (lost_lt_cur c))

end

/-! ## Threads and levels -/

@[simp] theorem State.rd_unwait (s : State) (x : BitVec 7) (a : Nat) : (s.unwait x).rd a = s.rd a := rfl
@[simp] theorem State.thr_unwait (s : State) (x y : BitVec 7) : (s.unwait x).thr y = s.thr y := rfl
@[simp] theorem State.thr_wr (s : State) (a : Nat) (v : Word) (y : BitVec 7) : (s.wr a v).thr y = s.thr y := rfl
@[simp] theorem State.thr_dspDone (s : State) (c : Nat) (y : BitVec 7) : (s.dspDone c).thr y = s.thr y := rfl
@[simp] theorem State.rd_waitHead (s : State) (x : BitVec 7) (a : Nat) : (s.waitHead x).rd a = s.rd a := rfl
@[simp] theorem State.rd_waitTail (s : State) (x : BitVec 7) (a : Nat) : (s.waitTail x).rd a = s.rd a := rfl
@[simp] theorem State.thr_waitHead (s : State) (x y : BitVec 7) : (s.waitHead x).thr y = s.thr y := rfl
@[simp] theorem State.thr_waitTail (s : State) (x y : BitVec 7) : (s.waitTail x).thr y = s.thr y := rfl

@[simp] theorem State.res_dspDone (s : State) (c : Nat) : (s.dspDone c).rd (Reg.DSP_RES c) = 0 := State.rd_wr_same _ _ _

/-- A thread that has left its level waits in none. -/
theorem State.notMem_waiting_unwait (s : State) (x : BitVec 7) (p : Nat) : x ∉ (s.unwait x).waiting p := by
  unfold State.waiting State.unwait
  dsimp only
  induction s.dsp.waits with
  | nil => exact List.not_mem_nil
  | cons e r ih =>
    rw [List.filterMap_cons]
    split
    · exact ih
    · next q hq =>
      obtain rfl := Option.some.inj (Option.ite_none_left_eq_some.1 hq).2
      rw [Sparse.get]
      split
      · simp
      · exact ih

theorem State.dspRefuse_spec (s : State) (c code : Nat) (x : BitVec 7) :
    (s.dspRefuse c code x).rd (Reg.DSP_RES c) = BitVec.ofNat 32 code ∧ (s.dspRefuse c code x).bitOf Reg.DSP_EVT 1 = true ∧
      ∀ y, (s.dspRefuse c code x).thr y = s.thr y := by
  refine ⟨?_, ?_, fun y => State.thr_trace _ _ _ _ _ y⟩
  · have hne : Reg.DSP_RES c ≠ Reg.DSP_EVT := Nat.ne_of_gt (Nat.lt_trans (by decide) (lost_lt_res c))
    rw [State.dspRefuse, State.res_trace, State.rd_setBit_other _ _ _ _ hne, State.rd_wr_same]
  · exact (State.trace_leaves _ _ _ _ _).evt (State.bitOf_setBit_same _ _ (by decide))

/-! ## What the placing of threads leaves of them (R647 to R649) -/

/-- Threads keep what they hold but whether they run, and results stay. -/
structure Places (s t : State) : Prop where
  prio : ∀ y, (t.thr y).prio = (s.thr y).prio
  affinity : ∀ y, (t.thr y).affinity = (s.thr y).affinity
  st : ∀ y, (t.thr y).st = (s.thr y).st ∨ (t.thr y).st = .ready ∨ (t.thr y).st = .running
  res : ∀ c, t.rd (Reg.DSP_RES c) = s.rd (Reg.DSP_RES c)

theorem Places.of_eq {s t : State} (hthr : ∀ y, t.thr y = s.thr y) (hres : ∀ c, t.rd (Reg.DSP_RES c) = s.rd (Reg.DSP_RES c)) :
    Places s t :=
  ⟨fun y => by rw [hthr], fun y => by rw [hthr], fun y => .inl (by rw [hthr]), hres⟩

theorem Places.refl (s : State) : Places s s := .of_eq (fun _ => rfl) fun _ => rfl

theorem Places.trans {s t u : State} (h : Places s t) (k : Places t u) : Places s u := by
  refine ⟨fun y => (k.prio y).trans (h.prio y), fun y => (k.affinity y).trans (h.affinity y), fun y => ?_,
    fun c => (k.res c).trans (h.res c)⟩
  rcases k.st y with hk | hk
  · rw [hk]
    exact h.st y
  · exact .inr hk

/-- A thread becomes READY or RUNNING. -/
theorem State.setThr_places (s : State) (x : BitVec 7) {st : ThrSt} (hst : st = .ready ∨ st = .running) :
    Places s (s.setThr x { s.thr x with st := st }) := by
  have hy : ∀ y, (s.setThr x { s.thr x with st := st }).thr y = if y = x then { s.thr x with st := st } else s.thr y := by
    intro y
    split
    · next h => rw [h, State.thr_setThr_same]
    · next h => exact State.thr_setThr_other _ _ _ _ h
  refine ⟨fun y => ?_, fun y => ?_, fun y => ?_, fun _ => rfl⟩ <;> rw [hy y] <;> split <;> simp_all

theorem State.runsOn_places (s : State) (c : Nat) (t : Option (BitVec 7)) : Places s (s.runsOn c t) := by
  unfold State.runsOn
  split
  · split
    · exact s.setThr_places _ (.inr rfl)
    · exact .refl s
  · exact .refl s

theorem next_ne_res (c k : Nat) : Reg.DSP_RES k ≠ Reg.DSP_NEXT c := by
  unfold Reg.DSP_RES Reg.DSP_NEXT
  omega

theorem State.setNext_places (s : State) (c : Nat) (t : Option (BitVec 7)) (kind : Nat) : Places s (s.setNext c t kind) := by
  unfold State.setNext
  split
  · exact s.runsOn_places c t
  · refine Places.trans (.of_eq (fun y => ?_) fun k => ?_) (State.runsOn_places _ c t)
    · rw [State.thr_trace, State.thr_wr]
    · rw [State.res_trace, State.rd_wr_other _ _ _ _ (next_ne_res c k)]

theorem State.placeIn_places (s : State) (fuel : Nat) (x : BitVec 7) (head : Bool) : Places s (s.placeIn fuel x head) := by
  induction fuel generalizing s x head with
  | zero => exact .refl s
  | succ fuel ih =>
    unfold State.placeIn
    split
    · split <;> exact .of_eq (fun _ => rfl) fun _ => rfl
    · next c _ =>
      split
      · exact s.setNext_places c (some x) 2
      · extract_lets s1
        have h1 : Places s s1 := s.setNext_places c (some x) 4
        split
        · exact h1
        · exact (h1.trans (s1.setThr_places _ (.inl rfl))).trans (ih _ _ _)

theorem State.place_places (s : State) (x : BitVec 7) (head : Bool) : Places s (s.place x head) := s.placeIn_places 33 x head

theorem State.freeCore_places (s : State) (c : Nat) : Places s (s.freeCore c) := by
  unfold State.freeCore
  split
  · next x _ =>
    have hwait : Places s (s.unwait x) := .of_eq (fun _ => rfl) fun _ => rfl
    exact hwait.trans (State.setNext_places _ c (some x) 2)
  · exact s.setNext_places c none 2

/-- DSP_NEXT[c] changes no thread but the one it names. -/
theorem State.thr_setNext_other (s : State) (c : Nat) {t : Option (BitVec 7)} (kind : Nat) {y : BitVec 7} (h : t ≠ some y) :
    (s.setNext c t kind).thr y = s.thr y := by
  have hruns : ∀ u : State, (u.runsOn c t).thr y = u.thr y := by
    intro u
    unfold State.runsOn
    split
    · next x =>
      split
      · exact State.thr_setThr_other _ _ _ _ fun e => h (congrArg some e.symm)
      · rfl
    · rfl
  unfold State.setNext
  split
  · exact hruns s
  · rw [hruns, State.thr_trace, State.thr_wr]

theorem State.mem_waiting_of_takeFor {s : State} {c : Nat} {x : BitVec 7} (h : s.takeFor c = some x) :
    ∃ p, x ∈ s.waiting p := by
  unfold State.takeFor at h
  split at h
  · exact nomatch h
  · obtain ⟨o, ho, hx⟩ := List.exists_of_findSome?_eq_some h
    obtain ⟨p, -, hp⟩ := List.mem_map.1 ho
    exact ⟨p, List.mem_of_find?_eq_some (hp.trans hx)⟩

/-- A freed core changes no thread that does not wait. -/
theorem State.thr_freeCore_other (s : State) (c : Nat) {y : BitVec 7} (h : ∀ p, y ∉ s.waiting p) :
    (s.freeCore c).thr y = s.thr y := by
  unfold State.freeCore
  split
  · next x hx =>
    obtain ⟨p, hp⟩ := State.mem_waiting_of_takeFor hx
    exact State.thr_setNext_other (s.unwait x) c 2 fun e => h p (Option.some.inj e ▸ hp)
  · exact State.thr_setNext_other s c 2 nofun

/-! ## What each command makes of its thread (R644 to R650) -/

section
variable {s : State} {c : Nat} {x : BitVec 7}

/-- CREATE, AFFINITY and DELETE write the result, the thread and a trace record. -/
theorem State.written_spec (s : State) (c : Nat) (x : BitVec 7) (v : Thr) (kind : Nat) :
    let t := ((s.dspDone c).setThr x v).trace kind c (some x) none
    t.thr x = v ∧ t.rd (Reg.DSP_RES c) = 0 ∧ ∀ y, y ≠ x → t.thr y = s.thr y := by
  refine ⟨by rw [State.thr_trace, State.thr_setThr_same], by rw [State.res_trace, State.rd_setThr, State.res_dspDone],
    fun y hy => ?_⟩
  rw [State.thr_trace, State.thr_setThr_other _ _ _ _ hy, State.thr_dspDone]

theorem State.thrCreate_free (p : BitVec 5) {a : BitVec 8} (hfree : (s.thr x).st = .free) (ha : a ≠ 0) :
    s.thrCreate c x p a =
      ((s.dspDone c).setThr x { st := .blocked, prio := p, affinity := a }).trace 8 c (some x) none := by
  rw [State.thrCreate, if_neg (not_not.2 hfree), if_neg ha]

theorem State.thrReady_spec (hblocked : (s.thr x).st = .blocked) :
    (((s.thrReady c x).thr x).st = .ready ∨ ((s.thrReady c x).thr x).st = .running) ∧
      ((s.thrReady c x).thr x).prio = (s.thr x).prio ∧ (s.thrReady c x).rd (Reg.DSP_RES c) = 0 := by
  rw [State.thrReady, if_neg (not_not.2 hblocked)]
  obtain ⟨hthr, hres, -⟩ := s.written_spec c x { s.thr x with st := .ready } 1
  generalize ((s.dspDone c).setThr x { s.thr x with st := .ready }).trace 1 c (some x) none = u at hthr hres
  have hplace := u.place_places x false
  refine ⟨?_, by rw [hplace.prio, hthr], by rw [hplace.res, hres]⟩
  rcases hplace.st x with h | h
  · exact .inl (by rw [h, hthr])
  · exact h

theorem State.thrBlock_spec (hst : (s.thr x).st = .ready ∨ (s.thr x).st = .running) :
    ((s.thrBlock c x).thr x).st = .blocked ∧ (s.thrBlock c x).rd (Reg.DSP_RES c) = 0 := by
  have hnot : ¬ ((s.thr x).st ≠ .ready ∧ (s.thr x).st ≠ .running) := by
    rw [not_and_or, not_not, not_not]
    exact hst
  rw [State.thrBlock, if_neg hnot]
  extract_lets _ s1
  have hthr : s1.thr x = { s.thr x with st := .blocked } := by rw [State.thr_trace, State.thr_setThr_same]
  have hres : s1.rd (Reg.DSP_RES c) = 0 := by rw [State.res_trace, State.rd_setThr, State.rd_unwait, State.res_dspDone]
  have hwaits : ∀ p, x ∉ s1.waiting p := fun p => by
    rw [State.waiting_trace]
    exact (s.dspDone c).notMem_waiting_unwait x p
  split
  · rw [State.thr_freeCore_other s1 _ hwaits, (s1.freeCore_places _).res, hthr]
    exact ⟨rfl, hres⟩
  · exact ⟨by rw [hthr], hres⟩

theorem State.thrYield_spec (hcur : s.curThr c = some x) (hst : (s.thr x).st = .running) (given : BitVec 7) :
    (((s.thrYield c given).thr x).st = .ready ∨ ((s.thrYield c given).thr x).st = .running) ∧
      (s.thrYield c given).rd (Reg.DSP_RES c) = 0 := by
  generalize ht : s.thrYield c given = t
  unfold State.thrYield at ht
  split at ht
  · next h => exact nomatch hcur.symm.trans h
  next y h =>
  obtain rfl := Option.some.inj (hcur.symm.trans h)
  rw [if_neg (not_not.2 hst)] at ht
  extract_lets _ s1 at ht
  have hthr : (s1.thr x).st = .ready := by rw [State.thr_trace, State.thr_waitTail, State.thr_setThr_same]
  have hres : s1.rd (Reg.DSP_RES c) = 0 := by rw [State.res_trace, State.rd_waitTail, State.rd_setThr, State.res_dspDone]
  have hplace : Places s1 t := by
    rw [← ht]
    split
    · exact s1.freeCore_places c
    · exact .refl s1
  refine ⟨?_, by rw [hplace.res, hres]⟩
  rcases hplace.st x with h | h
  · exact .inl (h.trans hthr)
  · exact h

theorem State.thrPrio_spec (hst : (s.thr x).st ≠ .free) (p : BitVec 5) :
    ((s.thrPrio c x p).thr x).prio = p ∧ ((s.thrPrio c x p).thr x).affinity = (s.thr x).affinity ∧
      (s.thrPrio c x p).rd (Reg.DSP_RES c) = 0 := by
  rw [State.thrPrio, if_neg hst]
  extract_lets queued _ s1
  have hthr : s1.thr x = { s.thr x with prio := p } := by rw [State.thr_trace, State.thr_setThr_same]
  have hres : s1.rd (Reg.DSP_RES c) = 0 := by rw [State.res_trace, State.rd_setThr, State.rd_unwait, State.res_dspDone]
  suffices hplaces : ∀ t, Places s1 t →
      (t.thr x).prio = p ∧ (t.thr x).affinity = (s.thr x).affinity ∧ t.rd (Reg.DSP_RES c) = 0 by
    apply hplaces
    split
    · next k _ =>
      split
      · exact .refl s1
      split
      · exact .refl s1
      extract_lets s2
      have h2 : Places s1 s2 := (s1.setNext_places k none 2).trans (State.place_places _ _ _)
      split
      · exact h2.trans (s2.freeCore_places k)
      · exact h2
    · split
      · exact .of_eq (fun _ => rfl) fun _ => rfl
      · exact .refl s1
  intro t h
  exact ⟨by rw [h.prio, hthr], by rw [h.affinity, hthr], by rw [h.res, hres]⟩

end

theorem namedIn_namedWord (t : Option (BitVec 7)) : namedIn (namedWord t) = t := by
  cases t with
  | none => rfl
  | some x => revert x; decide

theorem cur_ne_res (c k : Nat) : Reg.DSP_RES k ≠ Reg.DSP_CUR c := by
  unfold Reg.DSP_RES Reg.DSP_CUR
  omega

theorem cur_ne_next (c k : Nat) : Reg.DSP_NEXT k ≠ Reg.DSP_CUR c := by
  unfold Reg.DSP_NEXT Reg.DSP_CUR
  omega

theorem next_ne_res' (c k : Nat) : Reg.DSP_NEXT k ≠ Reg.DSP_RES c := (next_ne_res k c).symm

theorem ofNat_toFin (c : Fin 8) : (BitVec.ofNat 3 c).toFin = c := by revert c; decide

/-- DSP_CUR[c] as an ACK writes it. -/
theorem State.ackWritten_spec (s : State) (c : Nat) (want : Option (BitVec 7)) :
    let t := (s.dspDone c).wr (Reg.DSP_CUR c) (namedWord want)
    t.curThr c = want ∧ t.nextThr c = s.nextThr c ∧ t.rd (Reg.DSP_RES c) = 0 ∧ ∀ y, t.thr y = s.thr y := by
  refine ⟨?_, ?_, ?_, fun _ => rfl⟩
  · rw [State.curThr, State.rd_wr_same, namedIn_namedWord]
  · rw [State.nextThr, State.rd_wr_other _ _ _ _ (cur_ne_next c c), State.dspDone, State.rd_wr_other _ _ _ _ (next_ne_res' c c)]
    rfl
  · rw [State.rd_wr_other _ _ _ _ (cur_ne_res c c), State.res_dspDone]

/-- ACK of the thread that DSP_NEXT names, where it puts no other running thread back (R646, R649, R650). -/
theorem State.thrAck_matches {s : State} {c : Fin 8} {x : BitVec 7} (hnext : s.nextThr c = some x)
    (hold : ∀ o, s.curThr c = some o → o = x ∨ (s.thr o).st ≠ .running) :
    let t := s.thrAck c x false
    (t.thr x).st = .running ∧ (t.thr x).last = some c ∧ t.curThr c = some x ∧ t.rd (Reg.DSP_RES c) = 0 ∧
      t.dispatchPending c = false := by
  intro t
  have ht : t = s.thrAck c x false := rfl
  unfold State.thrAck at ht
  extract_lets want old s1 s2 s3 at ht
  have hwant : s.nextThr c = want := hnext
  rw [if_neg (not_not.2 hwant)] at ht
  obtain ⟨hcur, hnext1, hres, hthr⟩ := s.ackWritten_spec c want
  have hs2 : s2 = s1.setThr x { s1.thr x with st := .running, last := some (BitVec.ofNat 3 c).toFin } := rfl
  have hold' : ∀ o, old = some o → o = x ∨ (s.thr o).st ≠ .running := hold
  have hs3 : t = s3 := by
    rw [ht]
    clear_value old
    split
    · next o =>
      rw [if_neg]
      rintro ⟨hne, hrun⟩
      have hox : o ≠ x := fun e => hne (congrArg some e)
      have heq : s3.thr o = s.thr o := by rw [State.thr_trace, hs2, State.thr_setThr_other _ _ _ _ hox, hthr]
      exact ((hold' o rfl).resolve_left hox) (heq ▸ hrun)
    · rfl
  have hx : s3.thr x = { s1.thr x with st := .running, last := some (BitVec.ofNat 3 c).toFin } := by
    rw [State.thr_trace, hs2, State.thr_setThr_same]
  have hcur3 : s3.curThr c = some x := by
    rw [State.curThr_trace]
    exact hcur
  have hnext3 : s3.nextThr c = some x := by
    rw [State.nextThr_trace]
    exact hnext1.trans hnext
  rw [hs3, hx]
  refine ⟨rfl, congrArg some (ofNat_toFin c), hcur3, ?_, ?_⟩
  · rw [State.res_trace]
    exact hres
  · rw [State.dispatchPending, hnext3, hcur3, bne_self_eq_false]

/-- ACK of an idle core (R646, R650). -/
theorem State.thrAck_idle {s : State} {c : Nat} (x : BitVec 7) (hnext : s.nextThr c = none) (hcur : s.curThr c = none) :
    let t := s.thrAck c x true
    t.curThr c = none ∧ t.rd (Reg.DSP_RES c) = 0 ∧ t.dispatchPending c = false ∧ ∀ y, t.thr y = s.thr y := by
  intro t
  have ht : t = ((s.dspDone c).wr (Reg.DSP_CUR c) (namedWord none)).trace 3 c none none := by
    simp only [t, State.thrAck, hcur, if_true]
    rw [if_neg (not_not.2 hnext)]
  obtain ⟨hcur1, hnext1, hres, hthr⟩ := s.ackWritten_spec c none
  rw [ht, State.dispatchPending, State.curThr_trace, State.nextThr_trace, State.res_trace, hcur1, hnext1, hnext]
  exact ⟨rfl, hres, rfl, fun y => by rw [State.thr_trace, hthr]⟩

theorem State.thrAck_refuses {s : State} {c : Nat} {x : BitVec 7} (hnext : s.nextThr c ≠ some x) :
    s.thrAck c x false = s.dspRefuse c 4 x := if_pos hnext

/-! ## Pending interrupts of a core (R650) -/

theorem State.getLsbD_mip (s : State) (c : Nat) {i : Nat} (hi : i < 32) : (s.mip c).getLsbD i =
    ((s.bitOf (Reg.DSP_MSIP c) 0 && decide (i = 3)) || (s.timerPending c && decide (i = 7)) ||
      ((s.irqBest c != 0) && decide (i = 11)) || (s.dispatchPending c && decide (i = 16))) := by
  rw [State.mip, BitVec.getLsbD_setWidth]
  simp only [BitVec.getLsbD_or, getLsbD_bitIf _ _ hi]
  simp [Nat.lt_trans hi (by decide : 32 < 64)]

theorem State.mip_spec (s : State) (c : Fin 8) : ((s.mip c).getLsbD 16 = true ↔ s.nextThr c ≠ s.curThr c) ∧
    ((s.mip c).getLsbD 7 = true ↔ s.mtimecmp c ≤ s.tb.vt.toNat) ∧ ((s.mip c).getLsbD 11 = true ↔ s.irqBest c ≠ 0) ∧
    (s.mip c).getLsbD 3 = s.bitOf (Reg.DSP_MSIP c) 0 := by
  rw [State.getLsbD_mip _ _ (by decide), State.getLsbD_mip _ _ (by decide), State.getLsbD_mip _ _ (by decide),
    State.getLsbD_mip _ _ (by decide)]
  simp [State.dispatchPending, State.timerPending]

end Sys2Proof.Machine

namespace Sys2Proof.Supervisor

open Sys2Proof.Machine Sys2Proof.Safety

/-- Settles O53, command by command: what each writes, and what the placing that may follow leaves of its thread. -/
theorem threadDispatcherCommands : Obligations.ThreadDispatcherCommands := by
  refine ⟨fun c x p a s hopen => ⟨fun hfree ha => ?_, fun hst => ?_, fun hfree ha => ?_, fun hst => ?_, fun hst => ?_,
      fun hst => ?_, fun hst => ?_, fun hst ha => ?_, fun hst => ?_⟩,
    fun c x given s hopen => ⟨fun hcur hst => ?_, fun hnext hold => ?_, fun hnext hcur => ?_, fun hnext => ?_⟩,
    fun c s => s.mip_spec c⟩
  · refine ⟨_, exec_create hopen x p a, ?_⟩
    rw [State.thrCreate_free p hfree ha]
    exact s.written_spec c x _ 8
  · refine ⟨_, exec_create hopen x p a, ?_⟩
    rw [State.thrCreate, if_pos hst]
    exact s.dspRefuse_spec c 2 x
  · refine ⟨_, exec_create hopen x p a, ?_⟩
    rw [State.thrCreate, if_neg (not_not.2 hfree), if_pos ha]
    exact ⟨(s.dspRefuse_spec c 3 x).1, (s.dspRefuse_spec c 3 x).2.2⟩
  · exact ⟨_, exec_ready hopen x, State.thrReady_spec hst⟩
  · refine ⟨_, exec_ready hopen x, ?_⟩
    rw [State.thrReady, if_pos hst]
    exact ⟨(s.dspRefuse_spec c 2 x).1, (s.dspRefuse_spec c 2 x).2.2⟩
  · exact ⟨_, exec_block hopen x, State.thrBlock_spec hst⟩
  · exact ⟨_, exec_prio hopen x p, State.thrPrio_spec hst p⟩
  · refine ⟨_, exec_affinity hopen x a, ?_⟩
    rw [State.thrAffinity, if_neg hst, if_neg ha]
    exact s.written_spec c x _ 7
  · refine ⟨_, exec_delete hopen x, ?_⟩
    rw [State.thrDelete, if_neg (not_not.2 hst)]
    exact s.written_spec c x _ 9
  · exact ⟨_, exec_yield hopen given, State.thrYield_spec hcur hst given⟩
  · exact ⟨_, exec_dispatchAck hopen x false, State.thrAck_matches hnext hold⟩
  · exact ⟨_, exec_dispatchAck hopen x true, State.thrAck_idle x hnext hcur⟩
  · refine ⟨_, exec_dispatchAck hopen x false, ?_⟩
    rw [State.thrAck_refuses hnext]
    exact s.dspRefuse_spec c 4 x

end Sys2Proof.Supervisor
end

section
/-! Cores, watchdog and interrupt claims (R633 to R641): what calming the choppers and freeing a core leave of the cores, and each
command's answer. -/

namespace Sys2Proof.Machine

open Sys2Proof.Safety

/-! ## The cores that the debug module holds (R638) -/

theorem State.halted_trPut (s : State) (v : BitVec 64) : (s.trPut v).dsp.halted = s.dsp.halted := by
  have hdsp := congrArg State.dsp (s.busWrite_rest (s.trSlot s.trHead) (natBytes 8 v.toNat))
  dsimp only at hdsp
  rw [State.trPut, State.setField_dsp, hdsp]

theorem State.halted_trRecord (s : State) (v : BitVec 64) : (s.trRecord v).dsp.halted = s.dsp.halted := by
  unfold State.trRecord
  split
  · rfl
  split
  · rfl
  split
  · exact s.halted_trPut v
  extract_lets _ _ _ s1
  have h1 : s1.dsp.halted = s.dsp.halted := rfl
  split
  · exact (s1.halted_trPut v).trans h1
  · exact h1

theorem State.halted_trace (s : State) (kind core : Nat) (t t2 : Option (BitVec 7)) :
    (s.trace kind core t t2).dsp.halted = s.dsp.halted := by
  unfold State.trace
  split
  · rfl
  · exact s.tick1.halted_trRecord _

theorem State.halted_runsOn (s : State) (c : Nat) (t : Option (BitVec 7)) : (s.runsOn c t).dsp.halted = s.dsp.halted := by
  unfold State.runsOn
  split
  · split <;> rfl
  · rfl

theorem State.halted_setNext (s : State) (c : Nat) (t : Option (BitVec 7)) (kind : Nat) :
    (s.setNext c t kind).dsp.halted = s.dsp.halted := by
  unfold State.setNext
  split
  · exact s.halted_runsOn c t
  · rw [State.halted_runsOn, State.halted_trace]
    rfl

theorem State.halted_freeCore (s : State) (c : Nat) : (s.freeCore c).dsp.halted = s.dsp.halted := by
  unfold State.freeCore
  split
  · next x _ => exact (s.unwait x).halted_setNext c (some x) 2
  · exact s.halted_setNext c none 2

theorem State.dsp_pwmCalm (s : State) : s.pwmCalm.dsp = s.dsp := by
  have hloop : ∀ (l : List Nat) (u : State), (l.foldl (fun t n =>
      if (t.pwmCh n).run then t.setPwmCh n { t.pwmCh n with calm := true } else t) u).dsp = u.dsp := by
    intro l
    induction l with
    | nil => exact fun _ => rfl
    | cons n r ih =>
      intro u
      rw [List.foldl_cons, ih]
      split <;> rfl
  unfold State.pwmCalm
  split
  · rw [State.setBit_dsp, hloop]
  · rfl

theorem State.dsp_of_beside {s t : State} (h : t.beside = s.beside) : t.dsp = s.dsp :=
  congrArg (fun v : State × (Nat → Word) => v.1.dsp) h

/-! ## The timer (R635) -/

theorem State.mtimecmp_lt (s : State) (c : Nat) : s.mtimecmp c < 2 ^ 64 := by
  have hlo := (s.rd (Reg.DSP_MTIMECMP_LO c)).isLt
  have hhi := (s.rd (Reg.DSP_MTIMECMP_HI c)).isLt
  unfold State.mtimecmp State.rdNat
  omega

theorem State.mtimecmp_congr {s t : State} (h : t.regs = s.regs) (c : Nat) : t.mtimecmp c = s.mtimecmp c := by
  rw [State.mtimecmp, State.mtimecmp, State.rdNat, State.rdNat, State.rdNat, State.rdNat, State.rd, State.rd, State.rd,
    State.rd, h]

/-! ## The watchdog (R636) -/

section
variable {s : State} (hopen : s.open .dsp = true)
include hopen

theorem answers_watchdogKick (v : Word) (hen : s.bitOf Reg.DSP_WDOG_CFG 16 = true) :
    answers (.watchdogKick v) s fun t => t.dsp.wdogDue = s.sys.up + s.wdogTicks ∧
      regsBut s t [Reg.DSP_WDOG_KICK, Reg.DSP_WDOG_KICK + 4] ∧ { t with dsp := s.dsp, regs := s.regs } = s := by
  refine answers_of_via (f := fun t => (t.wrPair Reg.DSP_WDOG_KICK v).wdogKick) rfl hopen ?_
  have hcfg : (s.wrPair Reg.DSP_WDOG_KICK v).rd Reg.DSP_WDOG_CFG = s.rd Reg.DSP_WDOG_CFG :=
    s.rd_wrPair_other _ _ (by decide) (by decide)
  rw [State.wdogKick, State.bitOf_congr hcfg, if_pos hen]
  refine ⟨?_, fun a ha => ?_, rfl⟩
  · rw [State.wdogTicks, State.field_congr hcfg]
    rfl
  · rw [List.mem_cons, List.mem_singleton, not_or] at ha
    exact s.rd_wrPair_other _ v ha.1 ha.2

theorem exec_watchdogEnable (period : BitVec 16) :
    exec (.watchdogEnable period) s = .next (s.wdogCfg (bitIf true 16 ||| period.setWidth 32)) :=
  State.via_of_open s (fun t => t.wdogCfg (bitIf true 16 ||| period.setWidth 32)) hopen

theorem answers_watchdogEnable (period : BitVec 16) (hen : s.bitOf Reg.DSP_WDOG_CFG 16 = false) :
    answers (.watchdogEnable period) s fun t => t.rd Reg.DSP_WDOG_CFG = 0x10000 ||| period.setWidth 32 ∧
      t.dsp.wdogDue = s.sys.up + 20000 * period.toNat ∧ regsBut s t [Reg.DSP_WDOG_CFG] := by
  have hval : (bitIf true 16 ||| period.setWidth 32 : Word) &&& 0x1FFFF = 0x10000 ||| period.setWidth 32 := by
    refine BitVec.eq_of_getLsbD_eq fun i hi => ?_
    rw [BitVec.getLsbD_and, BitVec.getLsbD_or, BitVec.getLsbD_or, getLsbD_bitIf _ _ hi, BitVec.getLsbD_setWidth]
    by_cases h : i < 17
    · interval_cases i <;> simp
    · simp [BitVec.getLsbD_of_ge period i (by omega)]
      interval_cases i <;> simp
  have hset : (bitIf true 16 ||| period.setWidth 32 : Word).getLsbD 16 = true := by
    rw [BitVec.getLsbD_or, getLsbD_bitIf _ _ (by decide)]
    rfl
  have hfield : fieldOf (0x10000 ||| period.setWidth 32 : Word) 0 16 = period.toNat := by
    rw [fieldOf_eq_extractLsb']
    congr 1
    refine BitVec.eq_of_getLsbD_eq fun i hi => ?_
    interval_cases i <;> simp
  refine ⟨_, exec_watchdogEnable hopen period, ?_⟩
  rw [State.wdogCfg, if_neg (ne_true_of_eq_false hen), hval]
  dsimp only
  rw [if_pos hset]
  refine ⟨State.rd_wr_same _ _ _, ?_, fun a ha => State.rd_wr_other _ _ _ _ (fun e => ha (List.mem_singleton.2 e))⟩
  change s.sys.up + 20000 * fieldOf ((s.wr _ _).rd _) 0 16 = _
  rw [State.rd_wr_same, hfield]

theorem answers_watchdogExpiry (hen : s.bitOf Reg.DSP_WDOG_CFG 16 = true) (hm : noMarks s) :
    answers .watchdogExpiry s fun t => t.bitOf Reg.DSP_EVT 3 = true ∧ t.dsp.wdogDue = t.sys.up + t.wdogTicks ∧
      t.field Reg.DSP_WDOG_CNT 16 16 = satAdd (s.field Reg.DSP_WDOG_CNT 16 16) 1 0xFFFF := by
  let u := ((s.elapse (s.dsp.wdogDue - s.sys.up)).addField Reg.DSP_WDOG_CNT 16 16 1).setBit Reg.DSP_EVT 3
  have hexec : exec .watchdogExpiry s =
      .next { u.raise 9 with dsp := { (u.raise 9).dsp with wdogDue := (u.raise 9).sys.up + (u.raise 9).wdogTicks } } := by
    change (if s.open .dsp = false ∨ s.bitOf Reg.DSP_WDOG_CFG 16 = false then _ else _) = _
    rw [if_neg (by simp [hopen, hen])]
  have hregs : ∀ a, (s.elapse (s.dsp.wdogDue - s.sys.up)).rd a = s.rd a := by
    obtain ⟨-, -, hrest, -⟩ := s.elapse_spec (s.dsp.wdogDue - s.sys.up)
    intro a
    exact congrArg (fun r => Sparse.get Reg.resetAt r a) (congrArg State.regs hrest :)
  have hmarks : noMarks u := by
    refine noMarks_congr (fun k _ => ?_) hm
    rw [State.rd_setBit_other _ _ _ _ (by unfold Reg.TWN_SURR_MASK Reg.DSP_EVT; omega),
      State.rd_addField_other _ _ _ _ _ _ (by unfold Reg.TWN_SURR_MASK Reg.DSP_WDOG_CNT; omega), hregs]
  have hbeside := u.raise_beside (n := 9) (by decide) hmarks
  refine ⟨_, hexec, ?_, rfl, ?_⟩
  · exact (State.bitOf_congr (State.rd_of_beside hbeside (by decide)) 3).trans (State.bitOf_setBit_same _ _ (by decide))
  · have hcnt : (u.raise 9).rd Reg.DSP_WDOG_CNT = u.rd Reg.DSP_WDOG_CNT := State.rd_of_beside hbeside (by decide)
    refine (State.field_congr hcnt 16 16).trans ?_
    rw [State.field_congr (State.rd_setBit_other _ _ _ _ (by decide)), State.field_addField_same _ _ _ (by decide),
      State.field_congr (hregs _)]
    rfl

/-! ## Halting and starting cores (R634, R638) -/

theorem answers_debugHalt (c : Fin 8) (hrun : s.haltedCore c = false) (hm : noMarks s) : answers (.debugHalt c) s fun t =>
    t.dsp.halted = s.dsp.halted ||| ((1 : BitVec 8) <<< c.val) := by
  let u : State := { s with dsp := { s.dsp with halted := s.dsp.halted ||| ((1 : BitVec 8) <<< (c : Nat)) } }
  have hexec : exec (.debugHalt c) s = .next (if s.pwmHalt then u.raise 18 else (u.raise 18).pwmCalm) := by
    change (if s.open .dsp = false ∨ s.haltedCore c = true then _ else _) = _
    rw [if_neg (by simp [hopen, hrun])]
  have hdsp : (u.raise 18).dsp = u.dsp := State.dsp_of_beside (u.raise_beside (by decide) hm)
  refine ⟨_, hexec, ?_⟩
  split
  · rw [hdsp]
  · rw [State.dsp_pwmCalm, hdsp]

theorem answers_debugResume (c : Fin 8) (hhalt : s.haltedCore c = true) : answers (.debugResume c) s fun t =>
    t.dsp.halted = s.dsp.halted &&& ~~~ ((1 : BitVec 8) <<< c.val) := by
  let u : State := { s with dsp := { s.dsp with halted := s.dsp.halted &&& ~~~ ((1 : BitVec 8) <<< (c : Nat)) } }
  have hexec : exec (.debugResume c) s = .next (if (u.nextThr c).isNone then u.freeCore c else u) := by
    change (if s.open .dsp = false ∨ s.haltedCore c = false then _ else _) = _
    rw [if_neg (by simp [hopen, hhalt])]
  refine ⟨_, hexec, ?_⟩
  split
  · exact u.halted_freeCore c
  · rfl

theorem exec_coreStart (c : Fin 8) : exec (.coreStart c) s = .next (s.msipWrite c 1) :=
  State.via_of_open s (fun t => t.msipWrite c 1) hopen

theorem answers_coreStart_first (c : Fin 8) (hwait : s.dsp.started.getLsbD c = false) (hc : c.val ≠ 0) :
    answers (.coreStart c) s fun t => t.rd (Reg.DSP_MSIP c) = 1 ∧
      t.dsp.started = s.dsp.started ||| ((1 : BitVec 8) <<< c.val) ∧ Sparse.get (fun _ => 0) t.dsp.startPc c =
        BitVec.ofNat 64 (s.rdNat Reg.DSP_BOOT_PC_LO + 0x100000000 * s.rdNat Reg.DSP_BOOT_PC_HI) ∧
      regsBut s t [Reg.DSP_MSIP c] := by
  refine ⟨_, exec_coreStart hopen c, ?_⟩
  rw [State.msipWrite]
  dsimp only
  rw [if_pos ⟨by decide, hwait, hc⟩]
  exact ⟨State.rd_wr_same _ _ _, rfl, Sparse.get_put_same _ _ _ _,
    fun a ha => State.rd_wr_other _ _ _ _ fun e => ha (List.mem_singleton.2 e)⟩

theorem answers_coreStart_again (c : Fin 8) (hstarted : s.dsp.started.getLsbD c = true) :
    answers (.coreStart c) s fun t => t.rd (Reg.DSP_MSIP c) = 1 ∧ t.dsp = s.dsp := by
  refine ⟨_, exec_coreStart hopen c, ?_⟩
  rw [State.msipWrite]
  dsimp only
  rw [if_neg (by simp [hstarted])]
  exact ⟨State.rd_wr_same _ _ _, rfl⟩

/-! ## Timer and claims (R635, R640) -/

theorem answers_mtimecmpMatch (c : Fin 8) (hgo : s.sys.going = true) (hnot : s.timerPending c = false) :
    answers (.mtimecmpMatch c) s fun t => t.tb.vt.toNat = s.mtimecmp c ∧ t.timerPending c = true ∧ t.regs = s.regs := by
  have hexec : exec (.mtimecmpMatch c) s = .next (s.elapse (s.mtimecmp c - s.tb.vt.toNat)) := by
    change (if s.open .dsp = false ∨ s.sys.going = false ∨ s.timerPending c = true then _ else _) = _
    rw [if_neg (by simp [hopen, hgo, hnot])]
  obtain ⟨-, hvt, hrest, -⟩ := s.elapse_spec (s.mtimecmp c - s.tb.vt.toNat)
  have hregs := congrArg State.regs hrest
  dsimp only at hregs
  have hlt : s.tb.vt.toNat < s.mtimecmp c := Nat.lt_of_not_le (of_decide_eq_false hnot)
  have htime : (s.elapse (s.mtimecmp c - s.tb.vt.toNat)).tb.vt.toNat = s.mtimecmp c := by
    have hbound := s.mtimecmp_lt c
    rw [hvt, if_pos hgo, BitVec.toNat_add, BitVec.toNat_ofNat, Nat.add_mod_mod, Nat.mod_eq_of_lt] <;> omega
  refine ⟨_, hexec, htime, decide_eq_true ?_, hregs⟩
  rw [htime, State.mtimecmp_congr hregs]

theorem answers_plicClaim (c : Fin 8) : answers (.plicClaim c) s fun t =>
    t.bus = { data := BitVec.ofNat 32 (s.irqBest c), err := false } ∧
      (s.irqBest c ≠ 0 → t.dsp.claimed = s.dsp.claimed ||| ((1 : BitVec 64) <<< s.irqBest c)) ∧
      (s.irqBest c = 0 → t.dsp = s.dsp) ∧ { t with bus := s.bus, dsp := s.dsp } = s := by
  refine ⟨_, if_pos hopen, rfl, fun h => ?_, fun h => if_pos h, rfl⟩
  exact congrArg Dsp.claimed (if_neg h)

theorem exec_plicComplete (c : Fin 8) (id : Word) : exec (.plicComplete c id) s = .next (s.plicComplete c id) :=
  State.via_of_open s (fun t => t.plicComplete c id) hopen

/-! ## Protection (R633) -/

theorem exec_pmpDenial (c : Fin 8) (k : CoreAcc) : exec (.pmpDenial c k) s =
    .next (if k.denied then ((s.setScCore c k.core).coreFault c k.kind).raise 17 else s.setScCore c k.core) :=
  State.via_of_open s (fun t =>
    let u := t.setScCore c k.core
    if k.denied then (u.coreFault c k.kind).raise 17 else u) hopen

end

end Sys2Proof.Machine

namespace Sys2Proof.Supervisor

open Sys2Proof.Machine Sys2Proof.Safety

/-- Settles O54, command by command. -/
theorem coresWatchdogAndInterrupts : Obligations.CoresWatchdogAndInterrupts := by
  refine ⟨fun v period s hopen => ⟨fun hen => ⟨answers_watchdogKick hopen v hen, ?_, answers_watchdogExpiry hopen hen⟩,
      answers_watchdogEnable hopen period⟩,
    fun c s hopen => ⟨answers_debugHalt hopen c, answers_debugResume hopen c, answers_coreStart_first hopen c,
      answers_coreStart_again hopen c, answers_mtimecmpMatch hopen c, answers_plicClaim hopen c,
      fun id => ⟨fun hid hen => ?_, fun hnot => ?_⟩, fun k => ⟨fun hdenied => ?_, fun hgranted => ?_⟩⟩⟩
  · rw [exec_watchdogEnable hopen, State.wdogCfg, if_pos hen]
  · refine ⟨_, exec_plicComplete hopen c id, ?_⟩
    rw [State.plicComplete, if_pos ⟨hid, hen⟩]
    exact ⟨rfl, rfl⟩
  · rw [exec_plicComplete hopen, State.plicComplete, if_neg]
    rintro ⟨hid, hen⟩
    exact hnot.elim (Nat.not_le.2 hid) fun h => nomatch hen.symm.trans h
  · refine ⟨(s.setScCore c k.core).coreFault c k.kind, State.coreFault_excs _ _ _, ?_, rfl, ?_⟩
    · rw [State.coreFault, State.scCore_setScCore_same, State.scCore_setScCore_same]
    · rw [exec_pmpDenial hopen, if_pos hdenied]
  · refine ⟨_, exec_pmpDenial hopen c k, ?_⟩
    rw [if_neg (ne_true_of_eq_false hgranted)]
    exact ⟨State.scCore_setScCore_same _ _ _, rfl, rfl⟩

end Sys2Proof.Supervisor
end

section
/-! What an event in the collector and a surrender of the lease leave of the supervisor, the DMA engine, the network, the field
link, the shaft channels, the CAN ports and the memory (R498, R499), and of their registers. -/

namespace Sys2Proof.Machine

open Sys2Proof.Safety

/-- Is an address that of a register above the twin's which no event writes? (R857) -/
def farReg (a : Nat) : Prop := 0x20070000 ≤ a ∧ a < 0x20110000 ∧ a ≠ Reg.ADC_EVT ∧ (a < 0x200C0000 ∨ 0x200D0000 ≤ a)

/-- The parts of a state that no event touches. -/
def State.farParts (s : State) : Dsp × Dma × Mem × Net × Fio × Iso × Sparse Shf × Sparse Can × Sparse Byte :=
  (s.dsp, s.dma, s.mem, s.net, s.fio, s.iso, s.shfs, s.cans, s.ram)

/-- From `s` to `t` these parts stay, and of their registers at most those of `l` change. -/
structure State.FarBut (s t : State) (l : List Nat) : Prop where
  parts : t.farParts = s.farParts
  rd : ∀ a, farReg a → a ∉ l → t.rd a = s.rd a

theorem farReg.not_eventReg {a : Nat} (h : farReg a) : eventReg a = false := by
  obtain ⟨hlo, hhi, hadc, hpwm⟩ := h
  refine decide_eq_false ?_
  unfold Reg.LE_INJ_CTL
  omega

theorem farReg.ne_twin {a : Nat} (h : farReg a) : a ≠ Reg.TWN_EVT ∧ a ≠ Reg.TWN_RES ∧ a ≠ Reg.TWN_SURR := by
  obtain ⟨hlo, -, -, -⟩ := h
  unfold Reg.TWN_EVT Reg.TWN_RES Reg.TWN_SURR
  omega

namespace State.FarBut

theorem refl (s : State) : s.FarBut s [] := ⟨rfl, fun _ _ _ => rfl⟩

theorem trans {s t u : State} {l m : List Nat} (h : s.FarBut t l) (k : t.FarBut u m) : s.FarBut u (l ++ m) :=
  ⟨k.parts.trans h.parts, fun a ha hl => by
    rw [List.mem_append, not_or] at hl
    exact (k.rd a ha hl.2).trans (h.rd a ha hl.1)⟩

theorem of_beside {s t : State} (h : t.beside = s.beside) : s.FarBut t [] :=
  ⟨congrArg (fun v : State × (Nat → Word) => v.1.farParts) h, fun _ ha _ => State.rd_of_beside h ha.not_eventReg⟩

variable {s t : State} {l : List Nat} (h : s.FarBut t l)
include h

theorem dsp : t.dsp = s.dsp := congrArg (·.1) h.parts
theorem dma : t.dma = s.dma := congrArg (·.2.1) h.parts
theorem mem : t.mem = s.mem := congrArg (·.2.2.1) h.parts
theorem fio : t.fio = s.fio := congrArg (·.2.2.2.2.1) h.parts
theorem iso : t.iso = s.iso := congrArg (·.2.2.2.2.2.1) h.parts
theorem shfs : t.shfs = s.shfs := congrArg (·.2.2.2.2.2.2.1) h.parts
theorem cans : t.cans = s.cans := congrArg (·.2.2.2.2.2.2.2.1) h.parts
theorem ram : t.ram = s.ram := congrArg (·.2.2.2.2.2.2.2.2) h.parts

end State.FarBut

section
variable (s : State)

theorem State.collect_farBut (n : Nat) (t : BitVec 64) (inj : Bool) : s.FarBut (s.collect n t inj) [] :=
  .of_beside (s.collect_beside n t inj)

theorem State.wr_farBut (a : Nat) (v : Word) : s.FarBut (s.wr a v) [a] :=
  ⟨rfl, fun _ _ hb => State.rd_wr_other _ _ _ _ (by simpa using hb)⟩

theorem State.setBit_farBut (a i : Nat) : s.FarBut (s.setBit a i) [a] :=
  ⟨rfl, fun _ _ hb => State.rd_setBit_other _ _ _ _ (by simpa using hb)⟩

/-- A write of a register that is none of these changes none of them. -/
theorem State.FarBut.drop {s t : State} {l m : List Nat} (h : s.FarBut t (l ++ m)) (hm : ∀ a ∈ m, ¬ farReg a) : s.FarBut t l :=
  ⟨h.parts, fun a ha hl => h.rd a ha fun e => (List.mem_append.1 e).elim hl fun e => hm a e ha⟩

theorem State.twin_farBut {t : State} {a : Nat} (ha : a = Reg.TWN_EVT ∨ a = Reg.TWN_RES ∨ a = Reg.TWN_SURR)
    (h : s.FarBut t [a]) : s.FarBut t [] := by
  refine State.FarBut.drop (l := []) (m := [a]) h fun b hb hfar => ?_
  obtain rfl := List.mem_singleton.1 hb
  obtain ⟨hevt, hres, hsurr⟩ := hfar.ne_twin
  exact ha.elim hevt fun h => h.elim hres hsurr

theorem State.stopFrames_farBut : s.FarBut s.stopFrames [] := by
  obtain ⟨p, hp⟩ := s.stopFrames_portsMoved
  rw [hp]
  exact ⟨rfl, fun _ _ _ => rfl⟩

theorem State.sendMsg_farBut (op : BitVec 8) (arg : BitVec 64) : s.FarBut (s.sendMsg op arg) [] := by
  obtain ⟨l, g, h⟩ := s.sendMsg_eq op arg
  rw [h]
  exact ⟨rfl, fun _ _ _ => rfl⟩

theorem State.setLease_farBut (l : LeaseSt) : s.FarBut (s.setLease l) [] := by
  obtain ⟨-, hrest, hregs⟩ := s.setLease_spec l
  refine State.twin_farBut s (.inl rfl) ⟨?_, fun a _ ha => hregs a ha⟩
  exact (congrArg State.farParts hrest :)

theorem State.domainOff_farBut {d : Nat} (hd : isEngine d) : s.FarBut (s.domainOff d) [] := by
  obtain ⟨-, hrd, -⟩ := s.domainOff_engine hd
  have hregs : ∀ a, farReg a → a ∉ [] → (s.domainOff d).rd a = s.rd a := fun a ha _ =>
    hrd a (outsideEngines_of_lt (ha.2.1.trans (by decide)))
  obtain ⟨r, hl, as, ls, x, hs, -⟩ := s.emptied_eq hd
  obtain ⟨hoff, -⟩ | ⟨c, p, q, hoff⟩ := s.domainOff_eq d
  · rw [hoff]
    exact .refl s
  · exact ⟨by rw [hoff, hs]; rfl, hregs⟩

theorem State.enginesOff_farBut : s.FarBut s.enginesOff [] :=
  ((s.domainOff_farBut (.inl rfl)).trans (State.domainOff_farBut _ (.inr (.inl rfl)))).trans
    (State.domainOff_farBut _ (.inr (.inr rfl)))

theorem State.dropHand_farBut : s.FarBut s.dropHand [] := by
  unfold State.dropHand State.twnResult State.setField
  split
  · exact ((State.twin_farBut s (.inr (.inl rfl)) (s.wr_farBut _ _)).trans
      (State.twin_farBut _ (.inl rfl) (State.setBit_farBut _ _ _))).trans (State.collect_farBut _ _ _ _)
  · exact .refl s

theorem State.standDown_farBut : s.FarBut s.standDown [] :=
  (((s.dropHand_farBut.trans (State.stopFrames_farBut _)).trans (State.setLease_farBut _ _)).trans
    (State.enginesOff_farBut _)).trans (m := []) ⟨rfl, fun _ _ _ => rfl⟩

theorem State.ill_farBut : s.FarBut s.ill [] := by
  have hcount : s.FarBut { s with twn := { s.twn with healthyAt := none } } [] := ⟨rfl, fun _ _ _ => rfl⟩
  unfold State.ill
  dsimp only
  split
  · exact hcount.trans (State.standDown_farBut _)
  · exact hcount

theorem State.surrender_farBut (why what : Nat) : s.FarBut (s.surrender why what) [] := by
  unfold State.surrender
  extract_lets s1 s2 x s3
  have h1 : s.FarBut s1 [] := (s.stopFrames_farBut.trans (State.sendMsg_farBut _ _ _)).trans
    (State.twin_farBut _ (.inr (.inr rfl)) (State.wr_farBut _ _ _))
  have h2 : s1.FarBut s2 [] := (s1.collect_farBut 196 s1.now false).trans
    (State.twin_farBut _ (.inl rfl) (State.setBit_farBut _ _ _))
  have h3 : s2.FarBut s3 [] := ⟨rfl, fun _ _ _ => rfl⟩
  exact (((h1.trans h2).trans h3).trans (s3.setLease_farBut _)).trans (State.enginesOff_farBut _)

/-- An event of a fault source, with everything that follows from it, leaves these parts and registers as they were. -/
theorem State.raise_farBut (n : Nat) : s.FarBut (s.raise n) [] := by
  refine (s.collect_farBut n s.now false).trans (m := []) ?_
  unfold State.raise State.maskSurrender
  split
  · exact State.surrender_farBut _ _ _
  · split
    · exact State.ill_farBut _
    · exact .refl _

end

theorem State.rd_raise_far (s : State) (n : Nat) {a : Nat} (ha : farReg a) : (s.raise n).rd a = s.rd a :=
  (s.raise_farBut n).rd a ha List.not_mem_nil

end Sys2Proof.Machine
end

section
/-! The DMA engine and the memory errors (R652 to R673): what returning a descriptor and going idle leave of a channel, and each
command's answer. -/

namespace Sys2Proof.Machine

open Sys2Proof.Safety

/-! ## Registers of a channel -/

/-- The registers of a channel (R653 to R665), in the order of their addresses. -/
def dmaRegs (n : Nat) : List Nat := [Reg.DMA_CH_CTL n, Reg.DMA_CH_STAT n, Reg.DMA_CH_DESC_LO n, Reg.DMA_CH_DESC_HI n,
  Reg.DMA_CH_LIMIT n, Reg.DMA_CH_DONE n, Reg.DMA_CH_AUDIT n, Reg.DMA_CH_EVT n]

theorem dmaRegs_nodup (n : Nat) : (dmaRegs n).Nodup := by
  simp [dmaRegs, Reg.DMA_CH_CTL, Reg.DMA_CH_STAT, Reg.DMA_CH_DESC_LO, Reg.DMA_CH_DESC_HI, Reg.DMA_CH_LIMIT, Reg.DMA_CH_DONE,
    Reg.DMA_CH_AUDIT, Reg.DMA_CH_EVT]

/-- DMA_CH_STAT, DMA_CH_DONE and DMA_CH_EVT are none of the registers written beside them. -/
theorem dmaRegs_ne (n : Nat) :
    (Reg.DMA_CH_STAT n ≠ Reg.DMA_CH_CTL n ∧ Reg.DMA_CH_STAT n ≠ Reg.DMA_CH_DONE n ∧ Reg.DMA_CH_STAT n ≠ Reg.DMA_CH_AUDIT n ∧
      Reg.DMA_CH_STAT n ≠ Reg.DMA_CH_EVT n ∧ Reg.DMA_CH_STAT n ≠ Reg.DMA_EVT) ∧
    (Reg.DMA_CH_DONE n ≠ Reg.DMA_CH_CTL n ∧ Reg.DMA_CH_DONE n ≠ Reg.DMA_CH_STAT n ∧ Reg.DMA_CH_DONE n ≠ Reg.DMA_CH_AUDIT n ∧
      Reg.DMA_CH_DONE n ≠ Reg.DMA_CH_EVT n ∧ Reg.DMA_CH_DONE n ≠ Reg.DMA_EVT) ∧ Reg.DMA_CH_EVT n ≠ Reg.DMA_EVT := by
  simp only [Reg.DMA_CH_CTL, Reg.DMA_CH_STAT, Reg.DMA_CH_DONE, Reg.DMA_CH_AUDIT, Reg.DMA_CH_EVT, Reg.DMA_EVT]
  omega

theorem dmaRegs_far (n : Fin 16) : farReg (Reg.DMA_CH_STAT n) ∧ farReg (Reg.DMA_CH_DONE n) ∧ farReg (Reg.DMA_CH_EVT n) := by
  have hn := n.isLt
  simp only [farReg, Reg.DMA_CH_STAT, Reg.DMA_CH_DONE, Reg.DMA_CH_EVT, Reg.ADC_EVT]
  omega

/-! ## Going idle, and returning a descriptor (R657, R664, R665) -/

section
variable (s : State) (n : Fin 16)

theorem State.dmaAudit_farBut : s.FarBut (s.dmaAudit n) [Reg.DMA_EVT] := by
  unfold State.dmaAudit
  split
  · exact ⟨rfl, fun _ _ _ => rfl⟩
  · exact (s.setBit_farBut _ _).trans (State.raise_farBut _ _)

/-- The channel goes idle: its status and its count of bytes stay. -/
theorem State.dmaIdle_spec : (s.dmaIdle n).dmaCh n = {} ∧ (s.dmaIdle n).bitOf (Reg.DMA_CH_EVT n) 0 = true ∧
    (s.dmaIdle n).ram = s.ram ∧ (s.dmaIdle n).rd (Reg.DMA_CH_STAT n) = s.rd (Reg.DMA_CH_STAT n) ∧
    (s.dmaIdle n).rd (Reg.DMA_CH_DONE n) = s.rd (Reg.DMA_CH_DONE n) := by
  obtain ⟨⟨hctl, -, -, hevt, hall⟩, ⟨hctl', -, -, hevt', hall'⟩, hne⟩ := dmaRegs_ne n
  obtain ⟨hstat, hdone, hevtFar⟩ := dmaRegs_far n
  have haudit := (((s.setDmaCh n {}).clrBit (Reg.DMA_CH_CTL n) 2).setBit (Reg.DMA_CH_EVT n) 0).dmaAudit_farBut n
  refine ⟨?_, ?_, haudit.ram, ?_, ?_⟩
  · rw [State.dmaCh, State.dmaIdle, haudit.dma]
    exact State.dmaCh_setDmaCh_same s n {}
  · exact (State.bitOf_congr (haudit.rd _ hevtFar (by simpa using hne)) 0).trans (State.bitOf_setBit_same _ _ (by decide))
  · rw [State.dmaIdle, haudit.rd _ hstat (by simpa using hall), State.rd_setBit_other _ _ _ _ hevt,
      State.rd_clrBit_other _ _ _ _ hctl]
    rfl
  · rw [State.dmaIdle, haudit.rd _ hdone (by simpa using hall'), State.rd_setBit_other _ _ _ _ hevt',
      State.rd_clrBit_other _ _ _ _ hctl']
    rfl

/-- The channel stops with an error. -/
theorem State.dmaError_spec : (s.dmaError n).dmaCh n = {} ∧ (s.dmaError n).bitOf (Reg.DMA_CH_EVT n) 3 = true ∧
    (s.dmaError n).ram = s.ram ∧ (s.dmaError n).rd (Reg.DMA_CH_STAT n) = s.rd (Reg.DMA_CH_STAT n) ∧
    (s.dmaError n).rd (Reg.DMA_CH_DONE n) = s.rd (Reg.DMA_CH_DONE n) := by
  obtain ⟨⟨-, -, -, hevt, -⟩, ⟨-, -, -, hevt', -⟩, -⟩ := dmaRegs_ne n
  obtain ⟨hch, -, hram, hstat, hdone⟩ := s.dmaIdle_spec n
  exact ⟨hch, State.bitOf_setBit_same _ _ (by decide), hram, (State.rd_setBit_other _ _ _ _ hevt).trans hstat,
    (State.rd_setBit_other _ _ _ _ hevt').trans hdone⟩

/-- A descriptor is returned: its status and the bytes written show. -/
theorem State.dmaReturn_spec (d : DmaDesc) {status : Nat} (hstatus : status < 256) (moved : Nat) :
    (s.dmaReturn n d status moved).field (Reg.DMA_CH_STAT n) 24 8 = status ∧
      (s.dmaReturn n d status moved).rd (Reg.DMA_CH_DONE n) = BitVec.ofNat 32 moved := by
  obtain ⟨⟨-, hdone, haudit, hevt, hall⟩, ⟨-, hstat', haudit', hevt', hall'⟩, -⟩ := dmaRegs_ne n
  obtain ⟨hstatFar, hdoneFar, -⟩ := dmaRegs_far n
  unfold State.dmaReturn
  extract_lets s1
  have hleft := (s1.dmaReturned n).dmaAudit_farBut n
  constructor
  · rw [State.field_congr ((State.setBitIf_regsBut _ _ _ _ _ (by simpa using hevt)).trans
        (hleft.rd _ hstatFar (by simpa using hall))), State.dmaReturned, State.addField,
      State.field_setField_other _ _ _ (by decide) (by decide), State.field_congr (State.rd_setField_other _ _ _ _ _ _ haudit),
      State.field_congr (State.rd_wr_other _ _ _ _ hdone), State.field_setField_same _ _ _ (by decide),
      Nat.mod_eq_of_lt (show status < 2 ^ 8 from hstatus)]
  · rw [State.setBitIf_regsBut _ _ _ _ _ (by simpa using hevt'), hleft.rd _ hdoneFar (by simpa using hall'), State.dmaReturned,
      State.rd_addField_other _ _ _ _ _ _ hstat', State.rd_setField_other _ _ _ _ _ _ haudit', State.rd_wr_same]

end

/-! ## START, STOP and the ends of a move (R653, R657, R661) -/

section
variable {s : State} {n : Fin 16}

/-- START of an idle channel that may start, its fetch answered. -/
theorem State.dmaStart_fetches (hidle : (s.dmaCh n).st = .idle) (hlimit : s.field (Reg.DMA_CH_LIMIT n) 0 16 ≠ 0)
    (hdesc : dmaDescAt (s.dmaDesc n) = true) (htrace : ¬ (n.val = 15 ∧ s.tracing = true)) :
    s.dmaStart n true = (s.setField (Reg.DMA_CH_STAT n) 0 16 0).dmaFetch n := by
  rw [State.dmaStart, if_neg]
  · rfl
  · rintro (h | h | h | h)
    · exact h hidle
    · exact hlimit h
    · exact nomatch hdesc.symm.trans h
    · exact htrace h

theorem State.dmaDesc_setField_stat (s : State) (n : Nat) :
    (s.setField (Reg.DMA_CH_STAT n) 0 16 0).dmaDesc n = s.dmaDesc n := by
  have hlo : Reg.DMA_CH_DESC_LO n ≠ Reg.DMA_CH_STAT n := by unfold Reg.DMA_CH_DESC_LO Reg.DMA_CH_STAT; omega
  have hhi : Reg.DMA_CH_DESC_HI n ≠ Reg.DMA_CH_STAT n := by unfold Reg.DMA_CH_DESC_HI Reg.DMA_CH_STAT; omega
  have hlo' := State.rd_setField_other s (Reg.DMA_CH_STAT n) _ 0 16 0 hlo
  have hhi' := State.field_congr (State.rd_setField_other s (Reg.DMA_CH_STAT n) _ 0 16 0 hhi) 0 2
  unfold State.dmaDesc State.rdNat
  rw [hlo', hhi']

theorem State.descOf_setField (s : State) (a lo k v x : Nat) : (s.setField a lo k v).descOf x = s.descOf x := rfl

/-- A descriptor is taken: its channel is at work on it, and no byte of it is done. -/
theorem State.dmaTaken_spec (s : State) (n : Fin 16) (d : DmaDesc) :
    let t := (((s.setField (Reg.DMA_CH_STAT n) 0 16 0).setDmaCh n { st := .active, cur := some d }).wr
      (Reg.DMA_CH_DONE n) 0).dmaHanded n
    t.dmaCh n = { st := .active, cur := some d } ∧ t.rd (Reg.DMA_CH_DONE n) = 0 ∧ t.field (Reg.DMA_CH_STAT n) 0 16 = 0 ∧
      t.ram = s.ram ∧ (∀ m, m ≠ n.val → t.dmaCh m = s.dmaCh m) ∧
      regsBut s t [Reg.DMA_CH_STAT n, Reg.DMA_CH_AUDIT n, Reg.DMA_CH_DONE n] := by
  obtain ⟨⟨-, hdone, haudit, -, -⟩, ⟨-, -, haudit', -, -⟩, -⟩ := dmaRegs_ne n
  have hch : ∀ u : State, (((u.setDmaCh n { st := .active, cur := some d }).wr (Reg.DMA_CH_DONE n) 0).dmaHanded n).dma =
      (u.setDmaCh n { st := .active, cur := some d }).dma := fun _ => rfl
  refine ⟨?_, ?_, ?_, rfl, fun m hm => ?_, fun a ha => ?_⟩
  · rw [State.dmaCh, hch, ← State.dmaCh, State.dmaCh_setDmaCh_same]
  · rw [State.dmaHanded, State.rd_setField_other _ _ _ _ _ _ haudit', State.rd_wr_same]
  · rw [State.dmaHanded, State.field_congr (State.rd_setField_other _ _ _ _ _ _ haudit),
      State.field_congr (State.rd_wr_other _ _ _ _ hdone)]
    exact (s.field_setField_same (Reg.DMA_CH_STAT n) 0 (by decide)).trans (by decide)
  · rw [State.dmaCh, hch, ← State.dmaCh, State.dmaCh_setDmaCh_other _ _ _ _ hm]
    rfl
  · simp only [List.mem_cons, List.not_mem_nil, or_false, not_or] at ha
    obtain ⟨hstat, haudit, hdone⟩ := ha
    rw [State.dmaHanded, State.rd_setField_other _ _ _ _ _ _ haudit, State.rd_wr_other _ _ _ _ hdone]
    exact State.rd_setField_other _ _ _ _ _ _ hstat

theorem State.dmaFetch_owned (h : (s.descOf (s.dmaDesc n)).ctl.getLsbD 31 = true) :
    (s.setField (Reg.DMA_CH_STAT n) 0 16 0).dmaFetch n =
      (((s.setField (Reg.DMA_CH_STAT n) 0 16 0).setDmaCh n { st := .active, cur := some (s.descOf (s.dmaDesc n)) }).wr
        (Reg.DMA_CH_DONE n) 0).dmaHanded n := by
  unfold State.dmaFetch
  rw [State.dmaDesc_setField_stat, State.descOf_setField, if_pos h]

theorem State.dmaFetch_free (h : (s.descOf (s.dmaDesc n)).ctl.getLsbD 31 = false) :
    (s.setField (Reg.DMA_CH_STAT n) 0 16 0).dmaFetch n = (s.setField (Reg.DMA_CH_STAT n) 0 16 0).dmaIdle n := by
  unfold State.dmaFetch
  rw [State.dmaDesc_setField_stat, State.descOf_setField, if_neg (ne_true_of_eq_false h)]

/-- What the end of a stopped channel's move shows. -/
theorem State.dmaStopped_spec (s : State) (n : Fin 16) (d : DmaDesc) (e : DmaEnd) :
    (s.dmaStopped n d e).dmaCh n = {} ∧ (s.dmaStopped n d e).bitOf (Reg.DMA_CH_EVT n) 2 = true ∧
      ∀ k, e = .cut k → (s.dmaStopped n d e).field (Reg.DMA_CH_STAT n) 24 8 = 2 ∧
        (s.dmaStopped n d e).rd (Reg.DMA_CH_DONE n) = BitVec.ofNat 32 (if s.dmaMovable d then min k d.len else 0) := by
  obtain ⟨⟨-, -, -, hevt, -⟩, ⟨-, -, -, hevt', -⟩, -⟩ := dmaRegs_ne n
  unfold State.dmaStopped
  extract_lets o s1
  refine ⟨?_, State.bitOf_setBit_same _ _ (by decide), fun k he => ?_⟩
  · by_cases ho : o.1 = 2
    · rw [if_pos ho]
      exact (s1.dmaIdle_spec n).1
    · rw [if_neg ho]
      exact (s1.dmaError_spec n).1
  · have ho : o = (2, s.dmaPart d k) := by
      simp only [o, he]
    rw [if_pos (congrArg Prod.fst ho)]
    obtain ⟨-, -, -, hstat, hdone⟩ := s1.dmaIdle_spec n
    have hs1 : s1 = (s.dmaPart d k).1.dmaReturn n d 2 (s.dmaPart d k).2 := by
      simp only [s1, ho]
    obtain ⟨hstatus, hmoved⟩ := (s.dmaPart d k).1.dmaReturn_spec n d (status := 2) (by decide) (s.dmaPart d k).2
    rw [State.field_congr (State.rd_setBit_other _ _ _ _ hevt), State.rd_setBit_other _ _ _ _ hevt', hdone,
      State.field_congr hstat, hs1]
    exact ⟨hstatus, hmoved⟩

/-- The end of a move that STOP has not cut. -/
theorem exec_descriptorReturn {d : DmaDesc} {e : DmaEnd} (a : DmaThen) (hcur : (s.dmaCh n).cur = some d)
    (hst : (s.dmaCh n).st = .active) (hcut : e.isCut = false) : exec (.descriptorReturn n e a) s =
      .next (((if (s.dmaOutcome d e).2 = 0 then s else s.dmaMove d (s.dmaOutcome d e).2).dmaReturn n d (s.dmaOutcome d e).1
        (s.dmaOutcome d e).2).dmaAfter n d (s.dmaOutcome d e).1 a) := by
  change execDescriptorReturn n e a s = _
  unfold execDescriptorReturn
  simp [hcur, hst, hcut]

theorem exec_descriptorReturn_stopping {d : DmaDesc} (e : DmaEnd) (a : DmaThen) (hcur : (s.dmaCh n).cur = some d)
    (hst : (s.dmaCh n).st = .stopping) : exec (.descriptorReturn n e a) s = .next (s.dmaStopped n d e) := by
  change execDescriptorReturn n e a s = _
  unfold execDescriptorReturn
  simp [hcur, hst]

/-- A descriptor without a chain whose data are all moved. -/
theorem answers_descriptorReturn_whole {d : DmaDesc} (hcur : (s.dmaCh n).cur = some d) (hst : (s.dmaCh n).st = .active)
    (hout : s.dmaOutcome d .whole = (1, d.len)) (hchain : d.ctl.getLsbD 1 = false) :
    answers (.descriptorReturn n .whole .goesOn) s fun t => (t.dmaCh n).st = .idle ∧
      t.field (Reg.DMA_CH_STAT n) 24 8 = 1 ∧ t.rd (Reg.DMA_CH_DONE n) = BitVec.ofNat 32 d.len := by
  refine ⟨_, exec_descriptorReturn .goesOn hcur hst rfl, ?_⟩
  rw [hout]
  dsimp only
  generalize (if d.len = 0 then s else s.dmaMove d d.len) = u
  have hafter : (u.dmaReturn n d 1 d.len).dmaAfter n d 1 .goesOn = (u.dmaReturn n d 1 d.len).dmaIdle n := by
    rw [State.dmaAfter, if_neg (by decide), hchain]
    rfl
  obtain ⟨hstatus, hmoved⟩ := u.dmaReturn_spec n d (status := 1) (by decide) d.len
  obtain ⟨hch, -, -, hstat, hdone⟩ := (u.dmaReturn n d 1 d.len).dmaIdle_spec n
  rw [hafter, hch, State.field_congr hstat, hdone]
  exact ⟨rfl, hstatus, hmoved⟩

/-- A descriptor with reserved control bits. -/
theorem answers_descriptorReturn_badCtl {d : DmaDesc} {e : DmaEnd} (a : DmaThen) (hcur : (s.dmaCh n).cur = some d)
    (hst : (s.dmaCh n).st = .active) (hcut : e.isCut = false) (hbad : d.badCtl = true) :
    answers (.descriptorReturn n e a) s fun t => (t.dmaCh n).st = .idle ∧ t.field (Reg.DMA_CH_STAT n) 24 8 = 8 ∧
      t.rd (Reg.DMA_CH_DONE n) = 0 ∧ t.bitOf (Reg.DMA_CH_EVT n) 3 = true := by
  obtain ⟨⟨-, -, -, hevt, -⟩, ⟨-, -, -, hevt', -⟩, -⟩ := dmaRegs_ne n
  have hout : s.dmaOutcome d e = (8, 0) := if_pos hbad
  refine ⟨_, exec_descriptorReturn a hcur hst hcut, ?_⟩
  rw [hout]
  dsimp only
  rw [if_pos rfl, State.dmaAfter, if_pos (by decide)]
  obtain ⟨hstatus, hmoved⟩ := s.dmaReturn_spec n d (status := 8) (by decide) 0
  obtain ⟨hch, herr, -, hstat, hdone⟩ := (s.dmaReturn n d 8 0).dmaError_spec n
  have hbut := ((s.dmaReturn n d 8 0).dmaError n).setBitIf_regsBut (a == .stopped) (Reg.DMA_CH_EVT n) 2
  refine ⟨?_, ?_, ?_, ?_⟩
  · have hdma := congrArg State.dma (State.setBitIf_rest ((s.dmaReturn n d 8 0).dmaError n) (a == .stopped) (Reg.DMA_CH_EVT n) 2)
    dsimp only at hdma
    rw [State.dmaCh, hdma]
    exact congrArg DmaCh.st hch
  · rw [State.field_congr (hbut _ (by simpa using hevt)), State.field_congr hstat, hstatus]
  · rw [hbut _ (by simpa using hevt'), hdone, hmoved]
    rfl
  · unfold State.setBitIf
    split
    · rw [State.bitOf_setBit _ _ _ _ (by decide), herr, Bool.true_or]
    · exact herr

theorem exec_dmaStart (hopen : s.open .dma = true) (b : Bool) : exec (.dmaStart n b) s = .next (s.dmaStart n b) :=
  State.via_of_open s (fun t => t.dmaStart n b) hopen

theorem exec_dmaStop (hopen : s.open .dma = true) (h : DmaHalt) : exec (.dmaStop n h) s = .next (s.dmaStop n h) :=
  State.via_of_open s (fun t => t.dmaStop n h) hopen

theorem State.dmaStart_refuses (h : s.field (Reg.DMA_CH_LIMIT n) 0 16 = 0 ∨ dmaDescAt (s.dmaDesc n) = false) (b : Bool) :
    s.dmaStart n b = s.setBit (Reg.DMA_CH_EVT n) 5 := if_pos (.inr (h.imp_right .inl))

theorem State.dmaStop_none (hst : (s.dmaCh n).st ≠ .idle) (hcur : (s.dmaCh n).cur = none) (h : DmaHalt) :
    s.dmaStop n h = (s.dmaIdle n).setBit (Reg.DMA_CH_EVT n) 2 := by
  simp [State.dmaStop, hst, hcur]

theorem State.dmaStop_ended {d : DmaDesc} (hst : (s.dmaCh n).st ≠ .idle) (hcur : (s.dmaCh n).cur = some d) (k : Nat) :
    s.dmaStop n (.ended k) = s.dmaStopped n d (.cut k) := by
  simp [State.dmaStop, hst, hcur]

theorem State.dmaStop_stopping {d : DmaDesc} (hst : (s.dmaCh n).st ≠ .idle) (hcur : (s.dmaCh n).cur = some d) :
    s.dmaStop n .stopping = (s.setDmaCh n { st := .stopping, cur := some d }).setBit (Reg.DMA_CH_CTL n) 2 := by
  simp [State.dmaStop, hst, hcur]

theorem exec_dmaAccessTimeout (hopen : s.open .dma = true) (hst : (s.dmaCh n).st ≠ .idle) (hcur : (s.dmaCh n).cur = none)
    (a : DmaAccess) : exec (.dmaAccessTimeout n a) s = .next ((s.dmaError n).raise 248) := by
  change s.via .dma (fun t => t.dmaTimeout n a) = _
  rw [State.via_of_open s _ hopen]
  simp [State.dmaTimeout, hst, hcur]

end

/-! ## Memory errors and the arbiter (R671 to R673) -/

section
variable {s : State} (hopen : s.open .mem = true)
include hopen

theorem answers_arbModeWrite (mode : BitVec 1) : answers (.arbModeWrite mode) s fun t =>
    t.rd Reg.MEM_ARB_CFG = mode.setWidth 32 ∧ t.mem.weighted = mode.getLsbD 0 ∧ t.mem.deficit = [] ∧
      t.mem.served = s.mem.served ∧ regsBut s t [Reg.MEM_ARB_CFG] := by
  have hmode : (mode.setWidth 32 &&& 1 : Word) = mode.setWidth 32 ∧ (mode.setWidth 32 : Word).getLsbD 0 = mode.getLsbD 0 := by
    revert mode
    decide
  refine answers_of_via (f := fun t => t.memMode (mode.setWidth 32)) rfl hopen ?_
  refine ⟨(State.rd_wr_same _ _ _).trans hmode.1, hmode.2, rfl, rfl, fun a ha => ?_⟩
  exact State.rd_wr_other _ _ _ _ fun e => ha (List.mem_singleton.2 e)

theorem exec_eccCorrected (chB : Bool) : ∃ u : State, u.field (if chB then Reg.MEM_ECC_B else Reg.MEM_ECC_A) 0 16 =
        satAdd (s.field (if chB then Reg.MEM_ECC_B else Reg.MEM_ECC_A) 0 16) 1 0xFFFF ∧
      u.bitOf Reg.MEM_EVT (if chB then 2 else 0) = true ∧ { u with regs := s.regs, setAt := s.setAt } = s ∧
      exec (.eccCorrected chB) s = .next (u.raise (if chB then 244 else 242)) := by
  refine ⟨(s.addField (if chB then Reg.MEM_ECC_B else Reg.MEM_ECC_A) 0 16 1).setBit Reg.MEM_EVT (if chB then 2 else 0),
    ?_, State.bitOf_setBit_same _ _ (by cases chB <;> decide), rfl, State.via_of_open s (fun t => t.eccCorrected chB) hopen⟩
  rw [State.field_congr (State.rd_setBit_other _ _ _ _ (by cases chB <;> decide))]
  exact State.field_addField_same _ _ _ (by decide)

theorem exec_eccUncorrectable (chB : Bool) (a : BitVec 35) : ∃ u : State, u.rd Reg.MEM_ECC_ADDR_LO = a.setWidth 32 ∧
      u.rd Reg.MEM_ECC_ADDR_HI = bitIf chB 31 ||| BitVec.ofNat 32 (a.toNat / 0x100000000) ∧
      u.bitOf Reg.MEM_EVT (if chB then 3 else 1) = true ∧ { u with regs := s.regs, setAt := s.setAt } = s ∧
      exec (.eccUncorrectable chB a .other) s = .next (u.raise (if chB then 243 else 241)) := by
  let s1 := (s.addField (if chB then Reg.MEM_ECC_B else Reg.MEM_ECC_A) 16 16 1).setBit Reg.MEM_EVT (if chB then 3 else 1)
  refine ⟨(s1.wr Reg.MEM_ECC_ADDR_LO (a.setWidth 32)).wr Reg.MEM_ECC_ADDR_HI
      (bitIf chB 31 ||| BitVec.ofNat 32 (a.toNat / 0x100000000)), ?_, State.rd_wr_same _ _ _, ?_, rfl,
    State.via_of_open s (fun t => (t.eccLatch chB a).eccReader .other) hopen⟩
  · rw [State.rd_wr_other _ _ _ _ (by decide), State.rd_wr_same]
  · rw [State.bitOf_congr (State.rd_wr_other _ _ _ _ (by decide)), State.bitOf_congr (State.rd_wr_other _ _ _ _ (by decide))]
    exact State.bitOf_setBit_same _ _ (by cases chB <;> decide)

theorem answers_scrubPass (hpower : s.powered 8 = true) : answers .scrubPass s fun t =>
    t.sys.up = max s.sys.up (s.mem.scrubbed + scrubPeriod) ∧ t.mem = { s.mem with scrubbed := t.sys.up } ∧ t.ram = s.ram ∧
      t.rdNat Reg.MEM_SCRUB = satInc (s.rdNat Reg.MEM_SCRUB) 0xFFFFFFFF ∧ regsBut s t [Reg.MEM_SCRUB] := by
  obtain ⟨hup, -, hrest, -⟩ := s.elapse_spec (s.mem.scrubbed + scrubPeriod - s.sys.up)
  have hregs := congrArg State.regs hrest
  have hram := congrArg State.ram hrest
  have hmem := congrArg State.mem hrest
  dsimp only at hregs hram hmem
  refine ⟨_, State.via_of_open s _ hopen, ?_⟩
  dsimp only
  rw [if_pos hpower]
  generalize s.elapse (s.mem.scrubbed + scrubPeriod - s.sys.up) = u at hup hregs hram hmem
  have hrd : ∀ a, State.rd { u with mem := { u.mem with scrubbed := u.sys.up } } a = s.rd a := fun a => by
    rw [State.rd, hregs, State.rd]
  refine ⟨?_, ?_, hram, ?_, fun a ha => ?_⟩
  · change u.sys.up = _
    omega
  · change { u.mem with scrubbed := u.sys.up } = _
    rw [hmem]
    rfl
  · rw [State.rdNat_bump, State.rdNat, hrd, State.rdNat]
  · rw [State.rd_bump_other _ _ _ (fun e => ha (List.mem_singleton.2 e)), hrd]

end

end Sys2Proof.Machine

namespace Sys2Proof.Supervisor

open Sys2Proof.Machine Sys2Proof.Safety

/-- Settles O55, command by command. -/
theorem dmaAndMemoryCommands : Obligations.DmaAndMemoryCommands := by
  refine ⟨fun n s hopen hidle => ⟨fun hlimit hdesc htrace => ⟨fun hown => ?_, fun hown => ?_⟩, fun hbad b => ?_⟩,
    fun n d s hcur => ⟨fun hst => answers_descriptorReturn_whole hcur hst, fun e a k hst => ?_,
      fun e a hst => answers_descriptorReturn_badCtl a hcur hst⟩,
    fun n k h a s hopen hst => ⟨fun hcur => ?_, fun d hcur => ⟨?_, ?_⟩, fun hcur => ?_⟩,
    fun mode chB a s hopen => ⟨answers_arbModeWrite hopen mode, exec_eccCorrected hopen chB, exec_eccUncorrectable hopen chB a,
      answers_scrubPass hopen⟩⟩
  · refine ⟨_, exec_dmaStart hopen true, ?_⟩
    rw [State.dmaStart_fetches hidle hlimit hdesc htrace, State.dmaFetch_owned hown]
    exact s.dmaTaken_spec n _
  · refine ⟨_, exec_dmaStart hopen true, ?_⟩
    rw [State.dmaStart_fetches hidle hlimit hdesc htrace, State.dmaFetch_free hown]
    obtain ⟨hch, hevt, hram, -⟩ := (s.setField (Reg.DMA_CH_STAT n) 0 16 0).dmaIdle_spec n
    exact ⟨congrArg DmaCh.st hch, hevt, hram⟩
  · refine ⟨_, exec_dmaStart hopen b, ?_⟩
    rw [State.dmaStart_refuses hbad]
    exact ⟨State.bitOf_setBit_same _ _ (by decide), State.setBits_onlyRegs _ _ _⟩
  · obtain ⟨hch, hevt, hcut⟩ := s.dmaStopped_spec n d e
    exact ⟨_, exec_descriptorReturn_stopping e a hcur hst, congrArg DmaCh.st hch, hevt, hcut k⟩
  · refine ⟨_, exec_dmaStop hopen h, ?_⟩
    rw [State.dmaStop_none hst hcur]
    exact ⟨congrArg DmaCh.st (s.dmaIdle_spec n).1, State.bitOf_setBit_same _ _ (by decide)⟩
  · refine ⟨_, exec_dmaStop hopen _, ?_⟩
    rw [State.dmaStop_ended hst hcur]
    obtain ⟨hch, hevt, hcut⟩ := s.dmaStopped_spec n d (.cut k)
    exact ⟨congrArg DmaCh.st hch, hevt, (hcut k rfl).1⟩
  · refine ⟨_, exec_dmaStop hopen _, ?_⟩
    rw [State.dmaStop_stopping hst hcur]
    refine ⟨State.dmaCh_setDmaCh_same _ _ _, State.bitOf_setBit_same _ _ (by decide), rfl, fun a ha => ?_⟩
    exact State.rd_setBit_other _ _ _ _ fun e => ha (List.mem_singleton.2 e)
  · obtain ⟨hch, hevt, hram, -⟩ := s.dmaError_spec n
    exact ⟨_, congrArg DmaCh.st hch, hevt, hram, exec_dmaAccessTimeout hopen hst hcur a⟩

end Sys2Proof.Supervisor
end

section
/-! The chopper outputs (R784 to R801): what a step on one channel leaves of the others, what a channel's own operations make of
it, and each command's answer. -/

namespace Sys2Proof.Machine

open Sys2Proof.Safety

/-! ## What a step on another channel leaves of a channel -/

/-- The registers of a channel that a write of PWM_EN or a LOAD_ALL reads or writes, and PWM_CTL. -/
def pwmRegs (n : Nat) : List Nat :=
  [Reg.PWM_PER n, Reg.PWM_T n, Reg.PWM_STG_PER n, Reg.PWM_STG_T n, Reg.PWM_MINOFF n, Reg.PWM_CTL]

/-- Channel `n` stands in `t` as in `s`. -/
structure PwmAlike (n : Nat) (s t : State) : Prop where
  ch : t.pwmCh n = s.pwmCh n
  en : t.pwmEn n = s.pwmEn n
  rd : ∀ a ∈ pwmRegs n, t.rd a = s.rd a
  tb : t.tb = s.tb
  dsp : t.dsp = s.dsp

namespace PwmAlike

variable {n : Nat} {s t u : State}

theorem refl (n : Nat) (s : State) : PwmAlike n s s := ⟨rfl, rfl, fun _ _ => rfl, rfl, rfl⟩

theorem trans (h : PwmAlike n s t) (k : PwmAlike n t u) : PwmAlike n s u :=
  ⟨k.ch.trans h.ch, k.en.trans h.en, fun a ha => (k.rd a ha).trans (h.rd a ha), k.tb.trans h.tb, k.dsp.trans h.dsp⟩

theorem of_regsBut {l : List Nat} (hpwm : t.pwm = s.pwm) (htb : t.tb = s.tb) (hdsp : t.dsp = s.dsp) (h : regsBut s t l)
    (hl : ∀ a ∈ l, a ∉ pwmRegs n ∧ a ≠ Reg.PWM_EN) : PwmAlike n s t :=
  ⟨by rw [State.pwmCh, hpwm, State.pwmCh], State.bitOf_congr (h _ fun e => (hl _ e).2 rfl) n,
    fun a ha => h a fun e => (hl a e).1 ha, htb, hdsp⟩

theorem wr (s : State) {a : Nat} (v : Word) (ha : a ∉ pwmRegs n ∧ a ≠ Reg.PWM_EN) : PwmAlike n s (s.wr a v) :=
  of_regsBut rfl rfl rfl (s.wr_onlyRegs a v).2.1 fun b hb => by rwa [List.mem_singleton.1 hb]

theorem setBit (s : State) {a : Nat} (i : Nat) (ha : a ∉ pwmRegs n ∧ a ≠ Reg.PWM_EN) : PwmAlike n s (s.setBit a i) :=
  of_regsBut rfl rfl rfl (s.setBits_onlyRegs a _).2.1 fun b hb => by rwa [List.mem_singleton.1 hb]

theorem setPwmCh (s : State) {k : Nat} (x : PwmCh) (hk : k ≠ n) : PwmAlike n s (s.setPwmCh k x) :=
  ⟨State.pwmCh_setPwmCh_other _ _ _ _ hk.symm, rfl, fun _ _ => rfl, rfl, rfl⟩

theorem halt (h : PwmAlike n s t) : t.pwmHalt = s.pwmHalt := by
  rw [State.pwmHalt, h.dsp, State.bitOf_congr (h.rd _ (by simp [pwmRegs])), State.pwmHalt]

theorem code (h : PwmAlike n s t) :
    pwmCode (t.rd (Reg.PWM_PER n)) (t.rd (Reg.PWM_T n)) (t.pwmMinOff n) =
      pwmCode (s.rd (Reg.PWM_PER n)) (s.rd (Reg.PWM_T n)) (s.pwmMinOff n) := by
  rw [h.rd _ (by simp [pwmRegs]), h.rd _ (by simp [pwmRegs]), State.pwmMinOff, State.field_congr (h.rd _ (by simp [pwmRegs])),
    State.pwmMinOff]

end PwmAlike

theorem notMem_pwmRegs (n : Nat) : (Reg.PWM_EVT ∉ pwmRegs n ∧ Reg.PWM_EVT ≠ Reg.PWM_EN) ∧
    (Reg.PWM_LOAD_RES ∉ pwmRegs n ∧ Reg.PWM_LOAD_RES ≠ Reg.PWM_EN) := by
  simp only [pwmRegs, List.mem_cons, List.not_mem_nil, or_false, Reg.PWM_PER, Reg.PWM_T, Reg.PWM_STG_PER, Reg.PWM_STG_T,
    Reg.PWM_MINOFF, Reg.PWM_CTL, Reg.PWM_EVT, Reg.PWM_EN, Reg.PWM_LOAD_RES]
  omega

theorem notMem_pwmRegs_other {n k : Nat} (h : k ≠ n) : (Reg.PWM_PER k ∉ pwmRegs n ∧ Reg.PWM_PER k ≠ Reg.PWM_EN) ∧
    (Reg.PWM_T k ∉ pwmRegs n ∧ Reg.PWM_T k ≠ Reg.PWM_EN) := by
  simp only [pwmRegs, List.mem_cons, List.not_mem_nil, or_false, Reg.PWM_PER, Reg.PWM_T, Reg.PWM_STG_PER, Reg.PWM_STG_T,
    Reg.PWM_MINOFF, Reg.PWM_CTL, Reg.PWM_EN]
  omega

section
variable (s : State) {n k : Nat}

theorem State.pwmRefuse_alike (code : Nat) : PwmAlike n s (s.pwmRefuse k code) :=
  (PwmAlike.wr s _ (notMem_pwmRegs n).2).trans (PwmAlike.setBit _ _ (notMem_pwmRegs n).1)

variable (hk : k ≠ n)
include hk

theorem State.pwmTake_alike : PwmAlike n s (s.pwmTake k) := by
  unfold State.pwmTake
  split
  · exact .refl n s
  · next p per t _ =>
    extract_lets _ s1
    have h1 : PwmAlike n s s1 := ((PwmAlike.wr s per (notMem_pwmRegs_other hk).1).trans
      (PwmAlike.wr _ t (notMem_pwmRegs_other hk).2)).trans (PwmAlike.setPwmCh _ _ hk)
    unfold State.setBitIf
    split
    · exact h1.trans (PwmAlike.setBit _ _ (notMem_pwmRegs n).1)
    · exact h1

variable (hn : n < 16)
include hn

theorem State.enBit_alike :
    PwmAlike n s (s.setBit Reg.PWM_EN k) ∧ PwmAlike n s (s.clrBit Reg.PWM_EN k) := by
  have hne : ∀ a ∈ pwmRegs n, a ≠ Reg.PWM_EN := by
    simp only [pwmRegs, List.mem_cons, List.not_mem_nil, or_false, Reg.PWM_PER, Reg.PWM_T, Reg.PWM_STG_PER, Reg.PWM_STG_T,
      Reg.PWM_MINOFF, Reg.PWM_CTL, Reg.PWM_EN]
    omega
  constructor
  · refine ⟨rfl, ?_, fun a ha => State.rd_setBit_other _ _ _ _ (hne a ha), rfl, rfl⟩
    rw [State.pwmEn, State.bitOf_setBit _ _ _ _ (by omega), State.pwmEn]
    simp [hk.symm]
  · refine ⟨rfl, ?_, fun a ha => State.rd_clrBit_other _ _ _ _ (hne a ha), rfl, rfl⟩
    rw [State.pwmEn, State.bitOf_clrBit _ _ _ _ (by omega), State.pwmEn]
    simp [hk.symm]

theorem State.pwmStart_alike : PwmAlike n s (s.pwmStart k) := by
  unfold State.pwmStart
  split
  · exact s.pwmRefuse_alike 6
  · exact (PwmAlike.setPwmCh s _ hk).trans (State.enBit_alike _ hk hn).1

theorem State.pwmOff_alike : PwmAlike n s (s.pwmOff k) :=
  ((s.pwmTake_alike hk).trans (PwmAlike.setPwmCh _ _ hk)).trans (State.enBit_alike _ hk hn).2

end

/-- What every step of a loop leaves as it is, the loop leaves. -/
theorem foldl_leaves {α : Type} {R : State → State → Prop} (hrefl : ∀ t, R t t) (htrans : ∀ t u w, R t u → R u w → R t w)
    {f : State → α → State} {l : List α} (h : ∀ t, ∀ k ∈ l, R t (f t k)) (s : State) : R s (l.foldl f s) := by
  induction l generalizing s with
  | nil => exact hrefl s
  | cons k r ih =>
    exact htrans _ _ _ (h s k List.mem_cons_self) (ih (fun t k hk => h t k (List.mem_cons_of_mem _ hk)) (f s k))

/-- A loop over channels: channel `n` has its own step alone, the steps before and after it leaving what `R` says as it is. -/
theorem foldl_at {α : Type} [DecidableEq α] {R : State → State → Prop} (hrefl : ∀ t, R t t)
    (htrans : ∀ t u w, R t u → R u w → R t w) {n : α} {f : State → α → State} {l : List α}
    (h : ∀ t, ∀ k ∈ l, k ≠ n → R t (f t k))
    (hl : l.Nodup) (hn : n ∈ l) (s : State) : ∃ (u : State) (r : List α), R s u ∧
      l.foldl f s = r.foldl f (f u n) ∧ R (f u n) (l.foldl f s) ∧ ∀ k ∈ r, k ∈ l := by
  have hrest : ∀ (r : List α) (u : State), n ∉ r → (∀ k ∈ r, k ∈ l) → R u (r.foldl f u) := fun r u hr hl =>
    foldl_leaves hrefl htrans (fun t k hk => h t k (hl k hk) fun e => hr (e ▸ hk)) u
  obtain ⟨l1, l2, rfl⟩ := List.append_of_mem hn
  rw [List.nodup_append] at hl
  obtain ⟨-, hl2, hdisj⟩ := hl
  have h1 : n ∉ l1 := fun e => hdisj n e n List.mem_cons_self rfl
  rw [List.foldl_append, List.foldl_cons]
  have hmem2 : ∀ k ∈ l2, k ∈ l1 ++ n :: l2 := fun k hk => List.mem_append_right _ (List.mem_cons_of_mem _ hk)
  exact ⟨l1.foldl f s, l2, hrest l1 s h1 fun k => List.mem_append_left _, rfl,
    hrest l2 _ (List.nodup_cons.1 hl2).1 hmem2, hmem2⟩

/-! ## A channel's own operations -/

section
variable (s : State) (n : Nat)

/-- A channel has taken the pair that waits, if one does (R789, R791). -/
theorem State.pwmTake_spec : (s.pwmTake n).pwmCh n = { s.pwmCh n with pend := none } ∧
    ((s.pwmTake n).rd (Reg.PWM_PER n), (s.pwmTake n).rd (Reg.PWM_T n)) =
      (s.pwmCh n).pend.getD (s.rd (Reg.PWM_PER n), s.rd (Reg.PWM_T n)) ∧
    regsBut s (s.pwmTake n) [Reg.PWM_PER n, Reg.PWM_T n, Reg.PWM_EVT] ∧ (s.pwmTake n).pwm.trip = s.pwm.trip ∧
    (s.pwmTake n).dsp = s.dsp := by
  unfold State.pwmTake
  split
  · next hpend =>
    rw [hpend]
    refine ⟨?_, rfl, fun _ _ => rfl, rfl, rfl⟩
    rw [← hpend]
  · next p per t hpend =>
    extract_lets _ s1
    have hper : Reg.PWM_PER n ≠ Reg.PWM_T n ∧ Reg.PWM_PER n ≠ Reg.PWM_EVT ∧ Reg.PWM_T n ≠ Reg.PWM_EVT := by
      simp only [Reg.PWM_PER, Reg.PWM_T, Reg.PWM_EVT]
      omega
    have hbut := s1.setBitIf_regsBut (s1.pwm.chs.all fun e => e.2.pend.isNone) Reg.PWM_EVT 0
    have hrest := s1.setBitIf_rest (s1.pwm.chs.all fun e => e.2.pend.isNone) Reg.PWM_EVT 0
    generalize s1.setBitIf (s1.pwm.chs.all fun e => e.2.pend.isNone) Reg.PWM_EVT 0 = w at hbut hrest
    have hpwm := congrArg State.pwm hrest
    have hdsp := congrArg State.dsp hrest
    dsimp only at hpwm hdsp
    refine ⟨?_, ?_, fun a ha => ?_, by rw [hpwm]; rfl, by rw [hdsp]; rfl⟩
    · rw [State.pwmCh, hpwm, ← State.pwmCh, State.pwmCh_setPwmCh_same]
    · rw [hbut _ (by simpa using hper.2.1), hbut _ (by simpa using hper.2.2), State.rd_setPwmCh, State.rd_setPwmCh,
        State.rd_wr_other _ _ _ _ hper.1, State.rd_wr_same, State.rd_wr_same, hpend]
      rfl
    · simp only [List.mem_cons, List.not_mem_nil, or_false, not_or] at ha
      obtain ⟨hp, ht, he⟩ := ha
      rw [hbut _ (by simpa using he), State.rd_setPwmCh, State.rd_wr_other _ _ _ _ ht, State.rd_wr_other _ _ _ _ hp]

theorem State.pwmLit_of_dark {s : State} {n : Nat} (h : (s.pwmCh n).on = false) : s.pwmLit n = false := by
  simp [State.pwmLit, h]

/-- EN of a channel is cleared (R786, R791). -/
theorem State.pwmOff_spec {n : Nat} (hn : n < 16) : (s.pwmOff n).pwmEn n = false ∧ ((s.pwmOff n).pwmCh n).on = false ∧
    ((s.pwmOff n).pwmCh n).run = false ∧ ((s.pwmOff n).pwmCh n).pend = none ∧
    ((s.pwmOff n).rd (Reg.PWM_PER n), (s.pwmOff n).rd (Reg.PWM_T n)) =
      (s.pwmCh n).pend.getD (s.rd (Reg.PWM_PER n), s.rd (Reg.PWM_T n)) := by
  obtain ⟨hch, hpair, -⟩ := s.pwmTake_spec n
  have hne : Reg.PWM_PER n ≠ Reg.PWM_EN ∧ Reg.PWM_T n ≠ Reg.PWM_EN := by
    simp only [Reg.PWM_PER, Reg.PWM_T, Reg.PWM_EN]
    omega
  have hx : (s.pwmOff n).pwmCh n = { (s.pwmTake n).pwmCh n with run := false, on := false, armed := false } := by
    have hpwm : ∀ u : State, (u.clrBit Reg.PWM_EN n).pwmCh n = u.pwmCh n := fun _ => rfl
    rw [State.pwmOff, hpwm, State.pwmCh_setPwmCh_same]
  refine ⟨?_, by rw [hx], by rw [hx], by rw [hx, hch], ?_⟩
  · rw [State.pwmEn, State.pwmOff, State.bitOf_clrBit _ _ _ _ (by omega)]
    simp
  · rw [State.pwmOff, State.rd_clrBit_other _ _ _ _ hne.1, State.rd_clrBit_other _ _ _ _ hne.2, State.rd_setPwmCh,
      State.rd_setPwmCh, hpair]

/-- A load refused shows (R788). -/
theorem State.pwmRefuse_spec (code : Nat) : (s.pwmRefuse n code).rd Reg.PWM_LOAD_RES = BitVec.ofNat 32 (256 * n + code) ∧
    (s.pwmRefuse n code).bitOf Reg.PWM_EVT 1 = true ∧ onlyRegs s (s.pwmRefuse n code) [Reg.PWM_LOAD_RES, Reg.PWM_EVT] := by
  refine ⟨?_, State.bitOf_setBit_same _ _ (by decide), onlyRegs_trans (s.wr_onlyRegs _ _) (State.setBits_onlyRegs _ _ _)⟩
  rw [State.pwmRefuse, State.rd_setBit_other _ _ _ _ (by decide), State.rd_wr_same]

/-- A refused start shows, whatever channels start and stop after it (R786). -/
def State.startRefused (s : State) : Prop := s.bitOf Reg.PWM_EVT 1 = true ∧ s.field Reg.PWM_LOAD_RES 0 8 = 6

theorem State.pwmRefuse_startRefused : (s.pwmRefuse n 6).startRefused := by
  obtain ⟨hres, hevt, -⟩ := s.pwmRefuse_spec n 6
  refine ⟨hevt, ?_⟩
  rw [State.field, hres, fieldOf, BitVec.toNat_ofNat]
  omega

theorem State.pwmTake_startRefused {s : State} (n : Nat) (h : s.startRefused) : (s.pwmTake n).startRefused := by
  have hres : Reg.PWM_LOAD_RES ≠ Reg.PWM_PER n ∧ Reg.PWM_LOAD_RES ≠ Reg.PWM_T n ∧ Reg.PWM_EVT ≠ Reg.PWM_PER n ∧
      Reg.PWM_EVT ≠ Reg.PWM_T n := by
    simp only [Reg.PWM_PER, Reg.PWM_T, Reg.PWM_EVT, Reg.PWM_LOAD_RES]
    omega
  obtain ⟨hper, ht, hper', ht'⟩ := hres
  obtain ⟨-, -, hbut, -⟩ := s.pwmTake_spec n
  refine ⟨?_, (State.field_congr (hbut _ (by simp [hper, ht]; decide)) 0 8).trans h.2⟩
  unfold State.pwmTake
  split
  · exact h.1
  · next p per t _ =>
    extract_lets _ s1
    have h1 : s1.bitOf Reg.PWM_EVT 1 = true := by
      refine (State.bitOf_congr ?_ 1).trans h.1
      rw [State.rd_setPwmCh, State.rd_wr_other _ _ _ _ ht', State.rd_wr_other _ _ _ _ hper']
    unfold State.setBitIf
    split
    · rw [State.bitOf_setBit _ _ _ _ (by decide), h1, Bool.true_or]
    · exact h1

end

/-! ## A write of PWM_EN (R786, R791) -/

/-- The step of a write of PWM_EN on a channel. -/
def State.pwmEnStep (v : BitVec 16) (t : State) (n : Nat) : State :=
  if v.getLsbD n = t.pwmEn n then t else if v.getLsbD n then t.pwmStart n else t.pwmOff n

theorem State.pwmEnWrite_eq (s : State) (v : BitVec 16) : s.pwmEnWrite v = (List.range 16).foldl (State.pwmEnStep v) s := rfl

theorem State.pwmEnStep_alike (v : BitVec 16) {n : Nat} (hn : n < 16) (t : State) (k : Nat) (hk : k ≠ n) :
    PwmAlike n t (t.pwmEnStep v k) := by
  unfold State.pwmEnStep
  split
  · exact .refl n t
  split
  · exact t.pwmStart_alike hk hn
  · exact t.pwmOff_alike hk hn

theorem State.pwmEnSteps_startRefused (v : BitVec 16) (l : List Nat) (hl : ∀ k ∈ l, k < 16) {s : State} (h : s.startRefused) :
    (l.foldl (State.pwmEnStep v) s).startRefused := by
  induction l generalizing s with
  | nil => exact h
  | cons k r ih =>
    refine ih (fun k hk => hl k (List.mem_cons_of_mem _ hk)) ?_
    have hk := hl k List.mem_cons_self
    have hen : ∀ u : State, u.startRefused → (u.setBit Reg.PWM_EN k).startRefused ∧ (u.clrBit Reg.PWM_EN k).startRefused := by
      intro u hu
      have hevt : Reg.PWM_EVT ≠ Reg.PWM_EN := by decide
      have hres : Reg.PWM_LOAD_RES ≠ Reg.PWM_EN := by decide
      exact ⟨⟨(State.bitOf_congr (State.rd_setBit_other _ _ _ _ hevt) 1).trans hu.1,
          (State.field_congr (State.rd_setBit_other _ _ _ _ hres) 0 8).trans hu.2⟩,
        ⟨(State.bitOf_congr (State.rd_clrBit_other _ _ _ _ hevt) 1).trans hu.1,
          (State.field_congr (State.rd_clrBit_other _ _ _ _ hres) 0 8).trans hu.2⟩⟩
    unfold State.pwmEnStep
    split
    · exact h
    split
    · unfold State.pwmStart
      split
      · exact s.pwmRefuse_startRefused k
      · exact (hen (s.setPwmCh k _) h).1
    · exact (hen ((s.pwmTake k).setPwmCh k _) (State.pwmTake_startRefused k h)).2

/-- A channel after a write of PWM_EN: its own step, on a state in which it stands as before. -/
theorem State.pwmEnWrite_at (s : State) (v : BitVec 16) (n : Fin 16) : ∃ (u : State) (r : List Nat), PwmAlike n s u ∧
    s.pwmEnWrite v = r.foldl (State.pwmEnStep v) (u.pwmEnStep v n) ∧ PwmAlike n (u.pwmEnStep v n) (s.pwmEnWrite v) ∧
    ∀ k ∈ r, k < 16 := by
  obtain ⟨u, r, hu, heq, hafter, hr⟩ := foldl_at (R := PwmAlike n) (.refl n) (fun _ _ _ => .trans)
    (fun t k _ => State.pwmEnStep_alike v n.isLt t k)
    List.nodup_range (List.mem_range.2 n.isLt) s
  exact ⟨u, r, hu, heq, hafter, fun k hk => List.mem_range.1 (hr k hk)⟩

section
variable {s : State} (hopen : s.open .pwm = true)
include hopen

theorem answers_pwmEnWrite (v : BitVec 16) (n : Fin 16) : answers (.pwmEnWrite v) s fun t =>
    (v.getLsbD n = s.pwmEn n → t.pwmEn n = s.pwmEn n ∧ t.pwmCh n = s.pwmCh n) ∧
    (v.getLsbD n = true → s.pwmEn n = false →
      (pwmCode (s.rd (Reg.PWM_PER n)) (s.rd (Reg.PWM_T n)) (s.pwmMinOff n) = 0 → t.pwmEn n = true ∧
        t.pwmCh n = { s.pwmCh n with run := true, on := false, calm := s.pwmHalt, next := s.tb.vt + 4 }) ∧
      (pwmCode (s.rd (Reg.PWM_PER n)) (s.rd (Reg.PWM_T n)) (s.pwmMinOff n) ≠ 0 → t.pwmEn n = false ∧ t.pwmCh n = s.pwmCh n ∧
        t.bitOf Reg.PWM_EVT 1 = true ∧ t.field Reg.PWM_LOAD_RES 0 8 = 6)) ∧
    (v.getLsbD n = false → s.pwmEn n = true → t.pwmEn n = false ∧ t.pwmLit n = false ∧ (t.pwmCh n).run = false ∧
      (t.pwmCh n).pend = none ∧
      ∀ p, (s.pwmCh n).pend = some p → t.rd (Reg.PWM_PER n) = p.1 ∧ t.rd (Reg.PWM_T n) = p.2) := by
  refine answers_of_via (f := fun t => t.pwmEnWrite v) rfl hopen ?_
  obtain ⟨u, r, hu, heq, hafter, hr⟩ := s.pwmEnWrite_at v n
  have hn := n.isLt
  dsimp only
  rw [hafter.en, hafter.ch, hafter.rd _ (by simp [pwmRegs]), hafter.rd _ (by simp [pwmRegs])]
  refine ⟨fun hv => ?_, fun hv hoff => ⟨fun hcode => ?_, fun hcode => ?_⟩, fun hv hon => ?_⟩
  · rw [State.pwmEnStep, if_pos (hv.trans hu.en.symm)]
    exact ⟨hu.en, hu.ch⟩
  · have hstep : u.pwmEnStep v n =
        (u.setPwmCh n { u.pwmCh n with run := true, on := false, calm := u.pwmHalt, next := u.tb.vt + 4 }).setBit Reg.PWM_EN n := by
      rw [State.pwmEnStep, hv, hu.en, hoff, if_neg (by decide), if_pos rfl, State.pwmStart, hu.code, if_neg (not_not.2 hcode)]
    have hch : ∀ w : State, (w.setBit Reg.PWM_EN n).pwmCh n = w.pwmCh n := fun _ => rfl
    rw [hstep, hch, State.pwmCh_setPwmCh_same, hu.ch, hu.halt, hu.tb]
    exact ⟨State.bitOf_setBit_same _ _ (by omega), rfl⟩
  · have hstep : u.pwmEnStep v n = u.pwmRefuse n 6 := by
      rw [State.pwmEnStep, hv, hu.en, hoff, if_neg (by decide), if_pos rfl, State.pwmStart, hu.code, if_pos hcode]
    have hsame : PwmAlike n u (u.pwmRefuse n 6) := u.pwmRefuse_alike 6
    have hshown := State.pwmEnSteps_startRefused v r hr (u.pwmRefuse_startRefused n)
    rw [heq, hstep, hsame.en, hsame.ch, hu.en, hu.ch]
    exact ⟨hoff, rfl, hshown⟩
  · have hstep : u.pwmEnStep v n = u.pwmOff n := by
      rw [State.pwmEnStep, hv, hu.en, hon, if_neg (by decide), if_neg (by decide)]
    obtain ⟨hen, hdark, hrun, hpend, hpair⟩ := u.pwmOff_spec hn
    rw [← hstep] at hen hdark hrun hpend hpair
    refine ⟨hen, State.pwmLit_of_dark (by rw [hafter.ch, hdark]), hrun, hpend, fun p hp => ?_⟩
    rw [hu.ch, hp] at hpair
    exact Prod.mk.inj hpair

end

/-! ## LOAD_ALL (R788 to R790) -/

/-- What LOAD_ALL does to a channel. -/
def State.loadStep (now : BitVec 64) (t : State) (n : Nat) : State :=
  if t.pwmEn n then
    t.setPwmCh n { t.pwmCh n with pend := some (t.rd (Reg.PWM_STG_PER n), t.rd (Reg.PWM_STG_T n)), pendAt := now }
  else (t.wr (Reg.PWM_PER n) (t.rd (Reg.PWM_STG_PER n))).wr (Reg.PWM_T n) (t.rd (Reg.PWM_STG_T n))

theorem State.pwmLoadAll_passed {s : State} (h : s.pwmFails = none) : ∃ c, s.pwmLoadAll =
    ((List.range 16).foldl (State.loadStep s.tb.vt) (s.wr Reg.PWM_LOAD_RES 0)).setBitIf c Reg.PWM_EVT 0 := by
  rw [State.pwmLoadAll, h]
  exact ⟨_, rfl⟩

theorem State.loadStep_alike (now : BitVec 64) (n : Nat) (t : State) (k : Nat) (hk : k ≠ n) : PwmAlike n t (t.loadStep now k) := by
  unfold State.loadStep
  split
  · exact .setPwmCh t _ hk
  · exact (PwmAlike.wr t _ (notMem_pwmRegs_other hk).1).trans (PwmAlike.wr _ _ (notMem_pwmRegs_other hk).2)

theorem State.loadSteps_res (now : BitVec 64) (l : List Nat) (t : State) :
    (l.foldl (State.loadStep now) t).rd Reg.PWM_LOAD_RES = t.rd Reg.PWM_LOAD_RES := by
  induction l generalizing t with
  | nil => rfl
  | cons k r ih =>
    have hne : Reg.PWM_LOAD_RES ≠ Reg.PWM_PER k ∧ Reg.PWM_LOAD_RES ≠ Reg.PWM_T k := by
      simp only [Reg.PWM_PER, Reg.PWM_T, Reg.PWM_LOAD_RES]
      omega
    rw [List.foldl_cons, ih, State.loadStep]
    split
    · rfl
    · rw [State.rd_wr_other _ _ _ _ hne.2, State.rd_wr_other _ _ _ _ hne.1]

theorem State.pwmLoadAll_spec {s : State} (h : s.pwmFails = none) : s.pwmLoadAll.rd Reg.PWM_LOAD_RES = 0 ∧ ∀ n, n < 16 →
    (s.pwmEn n = true → (s.pwmLoadAll.pwmCh n).pend = some (s.rd (Reg.PWM_STG_PER n), s.rd (Reg.PWM_STG_T n)) ∧
      (s.pwmLoadAll.pwmCh n).pendAt = s.tb.vt ∧
      s.pwmLoadAll.rd (Reg.PWM_PER n) = s.rd (Reg.PWM_PER n) ∧ s.pwmLoadAll.rd (Reg.PWM_T n) = s.rd (Reg.PWM_T n)) ∧
    (s.pwmEn n = false → s.pwmLoadAll.rd (Reg.PWM_PER n) = s.rd (Reg.PWM_STG_PER n) ∧
      s.pwmLoadAll.rd (Reg.PWM_T n) = s.rd (Reg.PWM_STG_T n)) := by
  obtain ⟨c, hload⟩ := State.pwmLoadAll_passed h
  have hshown : ∀ (n : Nat) (u : State), PwmAlike n u (u.setBitIf c Reg.PWM_EVT 0) := by
    intro n u
    unfold State.setBitIf
    split
    · exact .setBit u _ (notMem_pwmRegs n).1
    · exact .refl n u
  refine ⟨?_, fun n hn => ?_⟩
  · rw [hload, State.setBitIf_regsBut _ _ _ _ _ (by decide), State.loadSteps_res, State.rd_wr_same]
  · obtain ⟨u, r, hu, -, hafter, -⟩ := foldl_at (R := PwmAlike n) (.refl n) (fun _ _ _ => .trans)
      (fun t k _ => State.loadStep_alike s.tb.vt n t k) List.nodup_range (List.mem_range.2 hn) (s.wr Reg.PWM_LOAD_RES 0)
    have hbefore : PwmAlike n s u := (PwmAlike.wr s _ (notMem_pwmRegs n).2).trans hu
    have ht : PwmAlike n (u.loadStep s.tb.vt n) s.pwmLoadAll := by
      rw [hload]
      exact hafter.trans (hshown n _)
    have hne : Reg.PWM_PER n ≠ Reg.PWM_T n := by simp [Reg.PWM_PER, Reg.PWM_T]
    rw [ht.ch, ht.rd _ (by simp [pwmRegs]), ht.rd _ (by simp [pwmRegs]), State.loadStep, hbefore.en,
      hbefore.rd (Reg.PWM_STG_PER n) (by simp [pwmRegs]), hbefore.rd (Reg.PWM_STG_T n) (by simp [pwmRegs])]
    refine ⟨fun hen => ?_, fun hen => ?_⟩
    · rw [if_pos hen, State.pwmCh_setPwmCh_same]
      exact ⟨rfl, rfl, hbefore.rd _ (by simp [pwmRegs]), hbefore.rd _ (by simp [pwmRegs])⟩
    · rw [if_neg (ne_true_of_eq_false hen), State.rd_wr_other _ _ _ _ hne, State.rd_wr_same, State.rd_wr_same]
      exact ⟨rfl, rfl⟩

/-- No channel before the first failing one fails (R788). -/
theorem State.passes_of_pwmFails {s : State} {n c : Nat} (h : s.pwmFails = some (n, c)) {k : Nat} (hk : k < n)
    (hen : s.pwmEn k = true) :
    pwmCode (s.rd (Reg.PWM_STG_PER k)) (s.rd (Reg.PWM_STG_T k)) (s.pwmMinOff k) = 0 ∧ (s.pwmCh k).pend = none := by
  unfold State.pwmFails at h
  rw [List.findSome?_eq_some_iff] at h
  obtain ⟨l1, a, l2, hl, hfa, hbefore⟩ := h
  have ha : a = n := by
    split at hfa
    · exact nomatch hfa
    dsimp only at hfa
    split at hfa
    · exact congrArg Prod.fst (Option.some.inj hfa)
    · split at hfa
      · exact congrArg Prod.fst (Option.some.inj hfa)
      · exact nomatch hfa
  have hmem : k ∈ l1 := by
    have hlen : l1.length = n := by
      have hget : (List.range 16)[l1.length]? = some a := by rw [hl]; simp
      rw [List.getElem?_eq_some_iff] at hget
      obtain ⟨hlt, hget⟩ := hget
      rw [List.getElem_range] at hget
      exact hget.trans ha
    have hkl : k < l1.length := hlen ▸ hk
    have hget : l1[k]? = (List.range 16)[k]? := by rw [hl, List.getElem?_append_left hkl]
    rw [List.getElem?_eq_getElem hkl] at hget
    have hlt : k < (List.range 16).length := by rw [hl, List.length_append]; omega
    rw [List.getElem?_eq_getElem hlt, List.getElem_range] at hget
    exact Option.some.inj hget ▸ List.getElem_mem hkl
  have hnone := hbefore k hmem
  rw [if_neg (by simp [hen])] at hnone
  dsimp only at hnone
  split at hnone
  · exact nomatch hnone
  next hcode =>
  split at hnone
  · exact nomatch hnone
  next hpend => exact ⟨not_not.1 hcode, by simpa using hpend⟩

/-! ## Cycles (R785, R789, R796) -/

/-- A channel at its reload, with the pair of an earlier LOAD_ALL taken (R789, R790). -/
def State.atReload (s : State) (n : Nat) (at_ : BitVec 64) : State := if (s.pwmCh n).pendAt = at_ then s else s.pwmTake n

section
variable (s : State) (n : Fin 16) (at_ : BitVec 64)

theorem State.atReload_spec :
    (s.atReload n at_).pwmCh n = { s.pwmCh n with pend := if (s.pwmCh n).pendAt = at_ then (s.pwmCh n).pend else none } ∧
    ((s.atReload n at_).rd (Reg.PWM_PER n), (s.atReload n at_).rd (Reg.PWM_T n)) =
      (if (s.pwmCh n).pendAt = at_ then (s.rd (Reg.PWM_PER n), s.rd (Reg.PWM_T n))
      else (s.pwmCh n).pend.getD (s.rd (Reg.PWM_PER n), s.rd (Reg.PWM_T n))) ∧
    ((s.atReload n at_).pwm.trip && (s.atReload n at_).pwmChop n) = (s.pwm.trip && s.pwmChop n) ∧
    (s.atReload n at_).pwmHalt = s.pwmHalt ∧ (s.atReload n at_).rd (Reg.PWM_ARM_PER n) = s.rd (Reg.PWM_ARM_PER n) := by
  unfold State.atReload
  split
  · exact ⟨rfl, rfl, rfl, rfl, rfl⟩
  · obtain ⟨hch, hpair, hbut, htrip, hdsp⟩ := s.pwmTake_spec n
    have hne : ∀ a, a = Reg.PWM_CHOP ∨ a = Reg.PWM_CTL ∨ a = Reg.PWM_ARM_PER n →
        a ∉ [Reg.PWM_PER n, Reg.PWM_T n, Reg.PWM_EVT] := by
      simp only [List.mem_cons, List.not_mem_nil, or_false, Reg.PWM_CHOP, Reg.PWM_CTL, Reg.PWM_ARM_PER, Reg.PWM_PER, Reg.PWM_T,
        Reg.PWM_EVT]
      omega
    refine ⟨hch, hpair, ?_, ?_, hbut _ (hne _ (.inr (.inr rfl)))⟩
    · rw [htrip, State.pwmChop, State.bitOf_congr (hbut _ (hne _ (.inl rfl))), State.pwmChop]
    · rw [State.pwmHalt, hdsp, State.bitOf_congr (hbut _ (hne _ (.inr (.inl rfl)))), State.pwmHalt]

variable {s n at_}

/-- A reload with the pair in effect (R785). -/
theorem State.pwmCycle_pair (harm : (s.pwm.trip && s.pwmChop n) = false) {p : Word × Word}
    (hp : (if (s.pwmCh n).pendAt = at_ then (s.rd (Reg.PWM_PER n), s.rd (Reg.PWM_T n))
      else (s.pwmCh n).pend.getD (s.rd (Reg.PWM_PER n), s.rd (Reg.PWM_T n))) = p) (hper : pwmPer p.1 ≠ 0) :
    s.pwmCycle n at_ = (s.atReload n at_).setPwmCh n { (s.atReload n at_).pwmCh n with
      run := true, on := decide (0 < pwmOn p.1 p.2), armed := false, calm := s.pwmHalt
      next := at_ + BitVec.ofNat 64 (pwmPer p.1), off := at_ + BitVec.ofNat 64 (pwmOn p.1 p.2) } := by
  obtain ⟨-, hpair, harm', hhalt, -⟩ := s.atReload_spec n at_
  obtain ⟨hP, hT⟩ := Prod.mk.inj (hpair.trans hp)
  unfold State.pwmCycle
  extract_lets s1 x arm per t calm lit
  have hs1 : s1 = s.atReload n at_ := rfl
  have harm0 : arm = false := harm'.trans harm
  have hpers : per = p.1 := by
    simp only [per, harm0]
    exact hP
  have hts : t = p.2 := by
    simp only [t, harm0]
    exact hT
  have hcalm : calm = s.pwmHalt := hhalt
  clear_value per t arm calm
  subst hpers hts harm0 hcalm
  rw [if_neg hper]
  rfl

/-- A reload of a channel that a Trip arms (R796). -/
theorem State.pwmCycle_armed (harm : (s.pwm.trip && s.pwmChop n) = true) (hper : pwmPer (s.rd (Reg.PWM_ARM_PER n)) ≠ 0) :
    ((s.pwmCycle n at_).pwmCh n).armed = true ∧
      ((s.pwmCycle n at_).pwmCh n).next = at_ + BitVec.ofNat 64 (pwmPer (s.rd (Reg.PWM_ARM_PER n))) := by
  obtain ⟨-, -, harm', -, hP⟩ := s.atReload_spec n at_
  unfold State.pwmCycle
  extract_lets s1 x arm per t calm lit
  have harm1 : arm = true := harm'.trans harm
  have hpers : per = s.rd (Reg.PWM_ARM_PER n) := by
    simp only [per, harm1]
    exact hP
  clear_value per arm
  subst hpers harm1
  rw [if_neg hper, State.pwmCh_setPwmCh_same]
  exact ⟨rfl, rfl⟩

end

section
variable {s : State} (hopen : s.open .pwm = true)
include hopen

/-- The tick of the next reload has come: nothing else has changed. -/
theorem exec_pwmReload (n : Fin 16) (hrun : (s.pwmCh n).run = true) : ∃ u : State, u.pwm = s.pwm ∧ u.regs = s.regs ∧ u.dsp = s.dsp ∧
    exec (.pwmReload n) s = .next (u.pwmCycle n (s.pwmCh n).next) := by
  obtain ⟨-, -, hrest, -⟩ := s.elapse_spec (ahead s.tb.vt (s.pwmCh n).next)
  refine ⟨s.elapse (ahead s.tb.vt (s.pwmCh n).next), (congrArg State.pwm hrest :), (congrArg State.regs hrest :),
    (congrArg State.dsp hrest :), ?_⟩
  change (if s.open .pwm = false ∨ (s.pwmCh n).run = false then _ else _) = _
  rw [if_neg (by simp [hopen, hrun])]

theorem answers_pwmReload_pair (n : Fin 16) (hrun : (s.pwmCh n).run = true) (harm : (s.pwm.trip && s.pwmChop n) = false) :
    let old := (s.rd (Reg.PWM_PER n), s.rd (Reg.PWM_T n))
    let p := if (s.pwmCh n).pendAt = (s.pwmCh n).next then old else (s.pwmCh n).pend.getD old
    pwmPer p.1 ≠ 0 → answers (.pwmReload n) s fun t => t.rd (Reg.PWM_PER n) = p.1 ∧ t.rd (Reg.PWM_T n) = p.2 ∧
      (t.pwmCh n).pend = (if (s.pwmCh n).pendAt = (s.pwmCh n).next then (s.pwmCh n).pend else none) ∧ (t.pwmCh n).run = true ∧
      (t.pwmCh n).calm = s.pwmHalt ∧ (t.pwmCh n).on = decide (0 < pwmOn p.1 p.2) ∧
      (t.pwmCh n).next = (s.pwmCh n).next + BitVec.ofNat 64 (pwmPer p.1) ∧
      (t.pwmCh n).off = (s.pwmCh n).next + BitVec.ofNat 64 (pwmOn p.1 p.2) := by
  intro old p hper
  obtain ⟨u, hpwm, hregs, hdsp, hexec⟩ := exec_pwmReload hopen n hrun
  have hch : u.pwmCh n = s.pwmCh n := by rw [State.pwmCh, hpwm, State.pwmCh]
  have hrd : ∀ a, u.rd a = s.rd a := fun a => by rw [State.rd, hregs, State.rd]
  have hbit : ∀ a i, u.bitOf a i = s.bitOf a i := fun a i => State.bitOf_congr (hrd a) i
  have harm' : (u.pwm.trip && u.pwmChop n) = false := by rwa [hpwm, State.pwmChop, hbit, ← State.pwmChop]
  have hhalt : u.pwmHalt = s.pwmHalt := by rw [State.pwmHalt, hdsp, hbit, State.pwmHalt]
  obtain ⟨hch', hpair, -⟩ := u.atReload_spec n (s.pwmCh n).next
  rw [hch, hrd, hrd] at hpair
  have hp := State.pwmCycle_pair (at_ := (s.pwmCh n).next) harm' (p := p) (by rw [hch, hrd, hrd]) hper
  obtain ⟨hP, hT⟩ := Prod.mk.inj (hpair.trans (show _ = (p.1, p.2) from rfl))
  refine ⟨_, hexec, ?_⟩
  rw [hp]
  dsimp only
  rw [State.pwmCh_setPwmCh_same, State.rd_setPwmCh, State.rd_setPwmCh, hch', hch, hhalt]
  exact ⟨hP, hT, rfl, rfl, rfl, rfl, rfl, rfl⟩

theorem answers_pwmReload_armed (n : Fin 16) (hrun : (s.pwmCh n).run = true) (harm : (s.pwm.trip && s.pwmChop n) = true)
    (hper : pwmPer (s.rd (Reg.PWM_ARM_PER n)) ≠ 0) : answers (.pwmReload n) s fun t => (t.pwmCh n).armed = true ∧
      (t.pwmCh n).next = (s.pwmCh n).next + BitVec.ofNat 64 (pwmPer (s.rd (Reg.PWM_ARM_PER n))) := by
  obtain ⟨u, hpwm, hregs, -, hexec⟩ := exec_pwmReload hopen n hrun
  have hrd : ∀ a, u.rd a = s.rd a := fun a => by rw [State.rd, hregs, State.rd]
  have harm' : (u.pwm.trip && u.pwmChop n) = true := by
    rwa [hpwm, State.pwmChop, State.bitOf_congr (hrd _), ← State.pwmChop]
  refine ⟨_, hexec, ?_⟩
  rw [← hrd]
  exact State.pwmCycle_armed harm' (by rwa [hrd])

theorem answers_pwmOffEdge (n : Fin 16) (hrun : (s.pwmCh n).run = true) (hon : (s.pwmCh n).on = true) :
    answers (.pwmOffEdge n) s fun t => t.pwmCh n = { s.pwmCh n with on := false } ∧ t.pwmLit n = false ∧ t.regs = s.regs := by
  obtain ⟨-, -, hrest, -⟩ := s.elapse_spec (ahead s.tb.vt (s.pwmCh n).off)
  refine ⟨(s.elapse (ahead s.tb.vt (s.pwmCh n).off)).setPwmCh n { s.pwmCh n with on := false }, ?_,
    State.pwmCh_setPwmCh_same _ _ _, State.pwmLit_of_dark (by rw [State.pwmCh_setPwmCh_same]), (congrArg State.regs hrest :)⟩
  change (if s.open .pwm = false ∨ (s.pwmCh n).run = false ∨ (s.pwmCh n).on = false then _ else _) = _
  rw [if_neg (by simp [hopen, hrun, hon])]

/-! ## MINOFF, the choppers, their arm and the armed pairs (R787, R793 to R801) -/

theorem exec_pwmMinoffWrite (n : Fin 16) (v : BitVec 16) : exec (.pwmMinoffWrite n v) s = .next (s.pwmMinOffWrite n v) :=
  State.via_of_open s (fun t => t.pwmMinOffWrite n v) hopen

theorem exec_pwmChopWrite (v : BitVec 16) : exec (.pwmChopWrite v) s = .next (s.pwmChopWrite v) :=
  State.via_of_open s (fun t => t.pwmChopWrite v) hopen

theorem exec_chopperArm : exec .chopperArm s = .next (s.pwmArm (putField 1 30)) :=
  State.via_of_open s (fun t => t.pwmArm (putField 1 30)) hopen

theorem exec_chopperDisarm : exec .chopperDisarm s = .next (s.pwmArm (putField 2 30)) :=
  State.via_of_open s (fun t => t.pwmArm (putField 2 30)) hopen

theorem exec_armPairWrite (n : Fin 16) (isT : Bool) (v : Word) : exec (.armPairWrite n isT v) s = .next (s.pwmArmPair n isT v) :=
  State.via_of_open s (fun t => t.pwmArmPair n isT v) hopen

theorem answers_pwmMinoffWrite (n : Fin 16) (v : BitVec 16) (hen : s.pwmEn n = false) :
    answers (.pwmMinoffWrite n v) s fun t => s.pwmEn n = t.pwmEn n ∧ t.pwmMinOff n = v.toNat ∧ onlyRegs s t [Reg.PWM_MINOFF n] := by
  have hne : Reg.PWM_EN ≠ Reg.PWM_MINOFF n := by
    simp only [Reg.PWM_EN, Reg.PWM_MINOFF]
    omega
  refine ⟨_, exec_pwmMinoffWrite hopen n v, ?_⟩
  rw [State.pwmMinOffWrite, if_neg (ne_true_of_eq_false hen)]
  refine ⟨(State.bitOf_congr (State.rd_wr_other _ _ _ _ hne) n).symm, ?_, s.wr_onlyRegs _ _⟩
  rw [State.pwmMinOff, State.field, State.rd_wr_same, fieldOf, BitVec.toNat_setWidth]
  omega

theorem answers_pwmChopWrite (v : BitVec 16) (htrip : s.pwm.trip = false) :
    answers (.pwmChopWrite v) s fun t => t.rd Reg.PWM_CHOP = v.setWidth 32 ∧ onlyRegs s t [Reg.PWM_CHOP] := by
  refine ⟨_, exec_pwmChopWrite hopen v, ?_⟩
  rw [State.pwmChopWrite, if_neg (ne_true_of_eq_false htrip)]
  exact ⟨State.rd_wr_same _ _ _, s.wr_onlyRegs _ _⟩

omit hopen in
/-- An accepted action: the firmware arm is what it says (R795). -/
theorem State.pwmArm_accepted {v : Word} (hv : fieldOf v 30 2 = 1 ∨ fieldOf v 30 2 = 2) (hhalt : s.pwmHalt = false) :
    (s.pwmArm v).pwmFw = (fieldOf v 30 2 == 1) ∧ (s.pwmArm v).pwm = s.pwm ∧
      onlyRegs s (s.pwmArm v) [Reg.PWM_ARM_CMD, Reg.PWM_ARM_CMD + 4] := by
  obtain ⟨hval, hcomp⟩ := s.rd_wrPair_same Reg.PWM_ARM_CMD v
  rw [State.pwmArm, if_pos ⟨hv, hhalt⟩]
  refine ⟨?_, rfl, onlyRegs_trans (s.wr_onlyRegs _ _) (State.wr_onlyRegs _ _ _)⟩
  rw [State.pwmFw, State.paired, hval, hcomp, if_pos rfl]

omit hopen in
theorem State.pwmArm_halted (v : Word) (hhalt : s.pwmHalt = true) : s.pwmArm v = s.setBit Reg.PWM_EVT 2 :=
  if_neg (by simp [hhalt])

theorem answers_clockStop : answers .clockStop s fun t => t.bitOf Reg.PWM_EVT 5 = true ∧ (∀ n, t.pwmLit n = false) ∧
    regsBut s t [Reg.PWM_EVT] := by
  refine answers_of_via (f := fun t => ({ t with pwm := { t.pwm with stopped := true } }).setBit Reg.PWM_EVT 5) rfl hopen ?_
  refine ⟨State.bitOf_setBit_same _ _ (by decide), fun n => ?_, fun a ha => ?_⟩
  · simp [State.pwmLit]
  · exact State.rd_setBit_other _ _ _ _ fun e => ha (List.mem_singleton.2 e)

theorem answers_armPairWrite (n : Fin 16) (isT : Bool) (v : Word) :
    let per := if isT then s.rd (Reg.PWM_ARM_PER n) else v &&& 0x00FFFFFF
    let w := if isT then v &&& 0x80FFFFFF else s.rd (Reg.PWM_ARM_T n)
    let a := if isT then Reg.PWM_ARM_T n else Reg.PWM_ARM_PER n
    (s.pwm.trip = false → pwmCode per w (s.pwmMinOff n) = 0 → answers (.armPairWrite n isT v) s fun t =>
      t.rd a = (if isT then w else per) ∧ onlyRegs s t [a]) ∧
    (s.pwm.trip = true ∨ pwmCode per w (s.pwmMinOff n) ≠ 0 → answers (.armPairWrite n isT v) s fun t =>
      t.bitOf Reg.PWM_EVT 2 = true ∧ onlyRegs s t [Reg.PWM_EVT]) := by
  intro per w a
  have heq : s.pwmArmPair n isT v = if s.pwm.trip = true ∨ pwmCode per w (s.pwmMinOff n) ≠ 0 then s.setBit Reg.PWM_EVT 2
      else s.wr a (if isT then w else per) := by
    cases isT <;> rfl
  refine ⟨fun htrip hcode => ⟨_, exec_armPairWrite hopen n isT v, ?_⟩, fun h => ⟨_, exec_armPairWrite hopen n isT v, ?_⟩⟩
  · have hpass : ¬ (s.pwm.trip = true ∨ pwmCode per w (s.pwmMinOff n) ≠ 0) :=
      not_or.2 ⟨ne_true_of_eq_false htrip, not_not.2 hcode⟩
    rw [heq, if_neg hpass]
    exact ⟨State.rd_wr_same _ _ _, s.wr_onlyRegs _ _⟩
  · rw [heq, if_pos h]
    exact ⟨State.bitOf_setBit_same _ _ (by decide), State.setBits_onlyRegs _ _ _⟩

end

end Sys2Proof.Machine

namespace Sys2Proof.Chopper

open Sys2Proof.Machine Sys2Proof.Safety

/-- Settles O59, command by command. -/
theorem chopperOutputsCommands : Obligations.ChopperOutputsCommands := by
  refine ⟨fun s hopen => ⟨fun hpass => answers_of_via (f := State.pwmLoadAll) rfl hopen (State.pwmLoadAll_spec hpass),
      fun n c hfail => ?_⟩,
    fun n s hopen hrun => ⟨answers_pwmReload_pair hopen n hrun, answers_pwmReload_armed hopen n hrun,
      answers_pwmOffEdge hopen n hrun⟩,
    fun v n s hopen => answers_pwmEnWrite hopen v n,
    fun n v s hopen => ⟨answers_pwmMinoffWrite hopen n v, fun hen => ?_, answers_pwmChopWrite hopen v, fun htrip => ?_⟩,
    fun s hopen => ⟨fun hhalt => ⟨?_, ?_⟩, fun hhalt c hc => ?_, answers_clockStop hopen⟩,
    fun n isT v s hopen => answers_armPairWrite hopen n isT v⟩
  · refine answers_of_via (f := State.pwmLoadAll) rfl hopen ?_
    rw [State.pwmLoadAll, hfail]
    obtain ⟨hres, hevt, hrest⟩ := s.pwmRefuse_spec n c
    exact ⟨hres, hevt, hrest, fun k => State.passes_of_pwmFails hfail⟩
  · refine ⟨_, exec_pwmMinoffWrite hopen n v, ?_⟩
    rw [State.pwmMinOffWrite, if_pos hen]
    exact ⟨State.bitOf_setBit_same _ _ (by decide), State.setBits_onlyRegs _ _ _⟩
  · rw [exec_pwmChopWrite hopen, State.pwmChopWrite, if_pos htrip]
  · obtain ⟨hfw, -, hrest⟩ := State.pwmArm_accepted (v := putField 1 30) (.inl (by decide)) hhalt
    exact ⟨_, exec_chopperArm hopen, hfw.trans (by decide), hrest⟩
  · obtain ⟨hfw, hpwm, hrest⟩ := State.pwmArm_accepted (v := putField 2 30) (.inr (by decide)) hhalt
    exact ⟨_, exec_chopperDisarm hopen, hfw.trans (by decide), congrArg Pwm.trip hpwm, hrest⟩
  · have hshown : (s.setBit Reg.PWM_EVT 2).bitOf Reg.PWM_EVT 2 = true ∧ onlyRegs s (s.setBit Reg.PWM_EVT 2) [Reg.PWM_EVT] :=
      ⟨State.bitOf_setBit_same _ _ (by decide), State.setBits_onlyRegs _ _ _⟩
    rcases hc with rfl | rfl
    · exact ⟨_, (exec_chopperArm hopen).trans (by rw [State.pwmArm_halted _ hhalt]), hshown⟩
    · exact ⟨_, (exec_chopperDisarm hopen).trans (by rw [State.pwmArm_halted _ hhalt]), hshown⟩

end Sys2Proof.Chopper
end

section
/-! The CAN FD ports (R802 to R822): the bits of a buffer, what storing, requesting and discarding a frame write, and each command's
answer. -/

namespace Sys2Proof.Machine

open Sys2Proof.Safety

/-! ## The bits of a buffer (CAN_TX_REQ, CAN_TX_ABORT, CAN_NEW) -/

section
variable (s : State) {lo hi b k : Nat} (hne : lo ≠ hi) (hb : b < 64) (hk : k < 64)
include hne hb hk

theorem canHalf_bit_iff : canHalf lo hi b = canHalf lo hi k ∧ b % 32 = k % 32 ↔ b = k := by
  unfold canHalf
  refine ⟨fun ⟨haddr, hbit⟩ => ?_, fun h => h ▸ ⟨rfl, rfl⟩⟩
  split at haddr <;> split at haddr <;> omega

theorem State.bitOf_setBit_half : (s.setBit (canHalf lo hi k) (k % 32)).bitOf (canHalf lo hi b) (b % 32) =
    (s.bitOf (canHalf lo hi b) (b % 32) || decide (b = k)) := by
  rw [State.bitOf_setBit _ _ _ _ (Nat.mod_lt _ (by decide))]
  simp only [canHalf_bit_iff hne hb hk]

theorem State.bitOf_clrBit_half : (s.clrBit (canHalf lo hi k) (k % 32)).bitOf (canHalf lo hi b) (b % 32) =
    (s.bitOf (canHalf lo hi b) (b % 32) && !decide (b = k)) := by
  rw [State.bitOf_clrBit _ _ _ _ (Nat.mod_lt _ (by decide))]
  simp only [canHalf_bit_iff hne hb hk]

end

/-- The two registers of CAN_TX_REQ, CAN_TX_ABORT and CAN_NEW. -/
theorem canHalves_ne (p : Nat) : Reg.CAN_TX_REQ_LO p ≠ Reg.CAN_TX_REQ_HI p ∧ Reg.CAN_TX_ABORT_LO p ≠ Reg.CAN_TX_ABORT_HI p ∧
    Reg.CAN_NEW_LO p ≠ Reg.CAN_NEW_HI p := by
  simp [Reg.CAN_TX_REQ_LO, Reg.CAN_TX_REQ_HI, Reg.CAN_TX_ABORT_LO, Reg.CAN_TX_ABORT_HI, Reg.CAN_NEW_LO, Reg.CAN_NEW_HI]

/-- The registers that hold the bits of a buffer. -/
def canReqReg (p b : Nat) : Nat := canHalf (Reg.CAN_TX_REQ_LO p) (Reg.CAN_TX_REQ_HI p) b
def canAbortReg (p b : Nat) : Nat := canHalf (Reg.CAN_TX_ABORT_LO p) (Reg.CAN_TX_ABORT_HI p) b
def canNewReg (p b : Nat) : Nat := canHalf (Reg.CAN_NEW_LO p) (Reg.CAN_NEW_HI p) b

/-- Where they lie in the port's window. -/
theorem canBitRegs_at (p b : Nat) :
    (canReqReg p b = 0x200B0000 + 0x8000 * p + 0x20 ∨ canReqReg p b = 0x200B0000 + 0x8000 * p + 0x24) ∧
    (canAbortReg p b = 0x200B0000 + 0x8000 * p + 0x28 ∨ canAbortReg p b = 0x200B0000 + 0x8000 * p + 0x2C) ∧
    (canNewReg p b = 0x200B0000 + 0x8000 * p + 0x30 ∨ canNewReg p b = 0x200B0000 + 0x8000 * p + 0x34) := by
  unfold canReqReg canAbortReg canNewReg canHalf
  refine ⟨?_, ?_, ?_⟩ <;> split <;> simp [Reg.CAN_TX_REQ_LO, Reg.CAN_TX_REQ_HI, Reg.CAN_TX_ABORT_LO, Reg.CAN_TX_ABORT_HI,
    Reg.CAN_NEW_LO, Reg.CAN_NEW_HI]

theorem State.canPend_congr {s t : State} {p b : Nat} (h : t.rd (canReqReg p b) = s.rd (canReqReg p b)) :
    t.canPend p b = s.canPend p b := State.bitOf_congr h _

theorem State.canAborting_congr {s t : State} {p b : Nat} (h : t.rd (canAbortReg p b) = s.rd (canAbortReg p b)) :
    t.canAborting p b = s.canAborting p b := State.bitOf_congr h _

theorem State.canNew_congr {s t : State} {p b : Nat} (h : t.rd (canNewReg p b) = s.rd (canNewReg p b)) :
    t.canNew p b = s.canNew p b := State.bitOf_congr h _

/-- A register of a port's window, far from what an event writes (R857). -/
theorem farReg_can (p : Fin 2) {off : Nat} (h : off < 0x8000) : farReg (0x200B0000 + 0x8000 * p.val + off) := by
  have hp := p.isLt
  unfold farReg Reg.ADC_EVT
  omega

section
variable {p : Fin 2} {b : Nat}

theorem farReg_canReq : farReg (canReqReg p b) := by
  obtain ⟨h | h, -⟩ := canBitRegs_at p b <;> rw [h] <;> exact farReg_can p (by decide)

theorem farReg_canEvt : farReg (Reg.CAN_EVT p) := farReg_can p (by decide)

theorem farReg_canCtl : farReg (Reg.CAN_CTL p) := farReg_can p (by decide)

end

theorem State.can_setBit (s : State) (a i n : Nat) : (s.setBit a i).can n = s.can n := rfl

/-! ## A received frame (R806, R807) -/

section
variable {s : State} {p : Fin 2} {b : Nat} {f : CanFrame}

/-- The data words of a frame stored leave every register but those of the buffer's data. -/
theorem State.rd_canWords (p b : Nat) (l : List (Word × Nat)) (s : State) {a : Nat} (h : ∀ w, a ≠ Reg.CAN_BUF_DATA p b w) :
    (l.foldl (fun (t : State) e => t.wr (Reg.CAN_BUF_DATA p b e.2) e.1) s).rd a = s.rd a := by
  induction l generalizing s with
  | nil => rfl
  | cons e r ih => rw [List.foldl_cons, ih, State.rd_wr_other _ _ _ _ (h e.2)]

theorem State.canStore_spec (s : State) (p : Fin 2) {b : Nat} (hb : b < 64) (f : CanFrame) (ts : Word) :
    (s.canStore p b f ts).canNew p b = true ∧ (s.canStore p b f ts).rd (Reg.CAN_BUF_ID p b) = f.idWord ∧
      (s.canStore p b f ts).rd (Reg.CAN_BUF_TS p b) = ts ∧ (s.canStore p b f ts).bitOf (Reg.CAN_EVT p) 0 = true ∧
      ∀ k, k < 64 → k ≠ b → (s.canStore p b f ts).canNew p k = s.canNew p k := by
  have hnew : ∀ k, (s.canStore p b f ts).canNew p k = (s.setBit (canNewReg p b) (b % 32)).canNew p k := by
    intro k
    obtain ⟨-, -, hk⟩ := canBitRegs_at p k
    refine State.canNew_congr ?_
    simp only [State.canStore]
    rw [State.rd_setBit_other _ _ _ _ (by unfold Reg.CAN_EVT; omega)]
    refine (State.rd_canWords p b _ _ fun w => by unfold Reg.CAN_BUF_DATA; omega).trans ?_
    rw [State.rd_wr_other _ _ _ _ (by unfold Reg.CAN_BUF_TS; omega), State.rd_wr_other _ _ _ _ (by unfold Reg.CAN_BUF_CTL; omega),
      State.rd_wr_other _ _ _ _ (by unfold Reg.CAN_BUF_ID; omega)]
    rfl
  have hbit : ∀ k, k < 64 → (s.canStore p b f ts).canNew p k = (s.canNew p k || decide (k = b)) := fun k hk =>
    (hnew k).trans (State.bitOf_setBit_half s (canHalves_ne p).2.2 hk hb)
  refine ⟨by simp [hbit b hb], ?_, ?_, State.bitOf_setBit_same _ _ (by decide), fun k hk hkb => by simp [hbit k hk, hkb]⟩
  · simp only [State.canStore]
    rw [State.rd_setBit_other _ _ _ _ (by unfold Reg.CAN_EVT Reg.CAN_BUF_ID; omega)]
    refine (State.rd_canWords p b _ _ fun w => by unfold Reg.CAN_BUF_DATA Reg.CAN_BUF_ID; omega).trans ?_
    rw [State.rd_wr_other _ _ _ _ (by unfold Reg.CAN_BUF_TS Reg.CAN_BUF_ID; omega),
      State.rd_wr_other _ _ _ _ (by unfold Reg.CAN_BUF_CTL Reg.CAN_BUF_ID; omega), State.rd_wr_same]
  · simp only [State.canStore]
    rw [State.rd_setBit_other _ _ _ _ (by unfold Reg.CAN_EVT Reg.CAN_BUF_TS; omega)]
    refine (State.rd_canWords p b _ _ fun w => by unfold Reg.CAN_BUF_DATA Reg.CAN_BUF_TS; omega).trans ?_
    rw [State.rd_wr_same]

/-- The lowest fitting buffer with NEW clear takes the frame. -/
theorem State.canFilter_stores (ts : Word) (hb : b < 64) (hfits : s.canFits p f b = true) (hnew : s.canNew p b = false)
    (hlow : ∀ k, k < b → s.canFits p f k = true → s.canNew p k = true) : s.canFilter p f ts = s.canStore p b f ts := by
  have hsplit : List.range 64 = List.range b ++ b :: (List.range (63 - b)).map (b + 1 + ·) := by
    have hadd : 64 = b + (1 + (63 - b)) := by omega
    conv_lhs => rw [hadd, List.range_add, List.range_add]
    simp [List.range_one, Nat.add_assoc, Function.comp_def]
  have hfind : ((List.range 64).filter (s.canFits p f)).find? (fun k => !s.canNew p k) = some b := by
    rw [hsplit, List.filter_append, List.filter_cons_of_pos hfits, List.find?_append]
    have hnone : ((List.range b).filter (s.canFits p f)).find? (fun k => !s.canNew p k) = none := by
      rw [List.find?_eq_none]
      intro k hk
      rw [List.mem_filter, List.mem_range] at hk
      simp [hlow k hk.1 hk.2]
    rw [hnone, List.find?_cons_of_pos (by simp [hnew])]
    rfl
  rw [State.canFilter, hfind]

theorem State.canFilter_noMatch (ts : Word) (h : ∀ k, k < 64 → s.canFits p f k = false) :
    s.canFilter p f ts = s.bump (Reg.CAN_RX_NOMATCH p) := by
  have hnil : (List.range 64).filter (s.canFits p f) = [] := by
    rw [List.filter_eq_nil_iff]
    exact fun k hk => ne_true_of_eq_false (h k (List.mem_range.1 hk))
  rw [State.canFilter, hnil]
  rfl

theorem State.canFilter_lost (ts : Word) (hsome : ∃ k, k < 64 ∧ s.canFits p f k = true)
    (hfull : ∀ k, k < 64 → s.canFits p f k = true → s.canNew p k = true ∧ s.bitOf (Reg.CAN_BUF_CFG p k) 29 = false) :
    s.canFilter p f ts = (s.bump (Reg.CAN_RX_LOST p)).setBit (Reg.CAN_EVT p) 7 := by
  have hmem : ∀ k ∈ (List.range 64).filter (s.canFits p f), s.canNew p k = true ∧ s.bitOf (Reg.CAN_BUF_CFG p k) 29 = false := by
    intro k hk
    rw [List.mem_filter, List.mem_range] at hk
    exact hfull k hk.1 hk.2
  have hfree : ((List.range 64).filter (s.canFits p f)).find? (fun k => !s.canNew p k) = none := by
    rw [List.find?_eq_none]
    exact fun k hk => by simp [(hmem k hk).1]
  have hover : ((List.range 64).filter (s.canFits p f)).find? (fun k => s.bitOf (Reg.CAN_BUF_CFG p k) 29) = none := by
    rw [List.find?_eq_none]
    exact fun k hk => by simp [(hmem k hk).2]
  have hany : ((List.range 64).filter (s.canFits p f)).isEmpty = false := by
    obtain ⟨k, hk, hfits⟩ := hsome
    rw [List.isEmpty_eq_false_iff_exists_mem]
    exact ⟨k, List.mem_filter.2 ⟨List.mem_range.2 hk, hfits⟩⟩
  rw [State.canFilter, hfree]
  dsimp only
  rw [hover]
  dsimp only
  rw [if_neg (ne_true_of_eq_false hany)]

theorem exec_canFrameReceive (ts : Word) (hopen : s.open (.can p) = true) (hlive : (s.can p).live = true) (hloop : s.canLoop p ≠ 1)
    (hfd : f.fdf = true → s.bitOf (Reg.CAN_CTL p) 1 = true) :
    exec (.canFrameReceive p f ts) s = .next (s.canFilter p f ts) := by
  refine if_neg ?_
  rintro (h | h | h | ⟨h, h'⟩)
  · exact nomatch hopen.symm.trans h
  · exact nomatch hlive.symm.trans h
  · exact hloop h
  · exact nomatch (hfd h).symm.trans h'

end

/-! ## Requests (R809) -/

/-- A buffer's queue bit, what decides on a request for it and its queue stamp stay; a refusal shown stays shown. -/
structure CanAlike (p b : Nat) (s t : State) : Prop where
  pend : t.canPend p b = s.canPend p b
  cfg : t.rd (Reg.CAN_BUF_CFG p b) = s.rd (Reg.CAN_BUF_CFG p b)
  qts : t.rd (Reg.CAN_BUF_QTS p b) = s.rd (Reg.CAN_BUF_QTS p b)
  init : t.canInit p = s.canInit p
  ts : t.canTs = s.canTs
  refused : s.bitOf (Reg.CAN_EVT p) 9 = true → t.bitOf (Reg.CAN_EVT p) 9 = true

theorem CanAlike.refl {p b : Nat} (s : State) : CanAlike p b s s := ⟨rfl, rfl, rfl, rfl, rfl, id⟩

theorem CanAlike.trans {p b : Nat} {s t u : State} (h : CanAlike p b s t) (k : CanAlike p b t u) : CanAlike p b s u :=
  ⟨k.pend.trans h.pend, k.cfg.trans h.cfg, k.qts.trans h.qts, k.init.trans h.init, k.ts.trans h.ts, k.refused ∘ h.refused⟩

section
variable (s : State) (p : Nat) {b : Nat}

theorem State.canRefuse_alike : CanAlike p b s (s.canRefuse p) := by
  obtain ⟨hreq, -, -⟩ := canBitRegs_at p b
  refine ⟨State.canPend_congr (State.rd_setBit_other _ _ _ _ ?_), State.rd_setBit_other _ _ _ _ ?_,
    State.rd_setBit_other _ _ _ _ ?_, State.bitOf_congr (State.rd_setBit_other _ _ _ _ ?_) _, rfl, fun _ => ?_⟩
  · unfold Reg.CAN_EVT; omega
  · unfold Reg.CAN_EVT Reg.CAN_BUF_CFG; omega
  · unfold Reg.CAN_EVT Reg.CAN_BUF_QTS; omega
  · unfold Reg.CAN_EVT Reg.CAN_CTL; omega
  · exact State.bitOf_setBit_same _ _ (by decide)

/-- A request accepted for a buffer, on the registers it leaves. -/
theorem State.rd_requested {k a : Nat} (hreq : a ≠ canReqReg p k) (hqueued : a ≠ Reg.CAN_QUEUED p) (hqts : a ≠ Reg.CAN_BUF_QTS p k)
    (x y : Word) : (((s.setBit (canReqReg p k) (k % 32)).wr (Reg.CAN_QUEUED p) x).wr (Reg.CAN_BUF_QTS p k) y).rd a = s.rd a := by
  rw [State.rd_wr_other _ _ _ _ hqts, State.rd_wr_other _ _ _ _ hqueued, State.rd_setBit_other _ _ _ _ hreq]

theorem State.canReq_alike {k : Nat} (hb : b < 64) (hk : k < 64) (hkb : k ≠ b) : CanAlike p b s (s.canReq p k) := by
  unfold State.canReq
  extract_lets cfg s1
  split
  · exact s.canRefuse_alike p
  obtain ⟨hreq, -, -⟩ := canBitRegs_at p k
  obtain ⟨hreqb, -, -⟩ := canBitRegs_at p b
  refine ⟨?_, s.rd_requested p ?_ ?_ ?_ _ _, s.rd_requested p ?_ ?_ ?_ _ _,
    State.bitOf_congr (s.rd_requested p ?_ ?_ ?_ _ _) 0, rfl, fun h => ?_⟩
  · refine (State.canPend_congr (s := s.setBit (canReqReg p k) (k % 32)) ?_).trans ?_
    · rw [State.rd_wr_other _ _ _ _ (by unfold Reg.CAN_BUF_QTS; omega)]
      exact State.rd_wr_other _ _ _ _ (by unfold Reg.CAN_QUEUED; omega)
    · refine (State.bitOf_setBit_half s (canHalves_ne p).1 hb hk).trans ?_
      simp [State.canPend, hkb.symm]
  · unfold Reg.CAN_BUF_CFG; omega
  · unfold Reg.CAN_BUF_CFG Reg.CAN_QUEUED; omega
  · unfold Reg.CAN_BUF_CFG Reg.CAN_BUF_QTS; omega
  · unfold Reg.CAN_BUF_QTS; omega
  · unfold Reg.CAN_BUF_QTS Reg.CAN_QUEUED; omega
  · unfold Reg.CAN_BUF_QTS; omega
  · unfold Reg.CAN_CTL; omega
  · unfold Reg.CAN_CTL Reg.CAN_QUEUED; omega
  · unfold Reg.CAN_CTL Reg.CAN_BUF_QTS; omega
  · refine (State.bitOf_congr (s.rd_requested p ?_ ?_ ?_ _ _) 9).trans h
    · unfold Reg.CAN_EVT; omega
    · unfold Reg.CAN_EVT Reg.CAN_QUEUED; omega
    · unfold Reg.CAN_EVT Reg.CAN_BUF_QTS; omega

theorem State.canReq_accepted (hcfg : (s.bitOf (Reg.CAN_BUF_CFG p b) 31 && s.bitOf (Reg.CAN_BUF_CFG p b) 30) = true)
    (hpend : s.canPend p b = false) (hinit : s.canInit p = false) :
    (s.canReq p b).canPend p b = true ∧ (s.canReq p b).rd (Reg.CAN_BUF_QTS p b) = s.canTs := by
  obtain ⟨h31, h30⟩ := Bool.and_eq_true_iff.1 hcfg
  have hpass : ¬ ((s.rd (Reg.CAN_BUF_CFG p b)).getLsbD 31 = false ∨ (s.rd (Reg.CAN_BUF_CFG p b)).getLsbD 30 = false ∨
      s.canPend p b = true ∨ s.canInit p = true) := by
    rintro (h | h | h | h)
    · exact nomatch h31.symm.trans h
    · exact nomatch h30.symm.trans h
    · exact nomatch hpend.symm.trans h
    · exact nomatch hinit.symm.trans h
  obtain ⟨hreqb, -, -⟩ := canBitRegs_at p b
  rw [State.canReq]
  dsimp only
  rw [if_neg hpass]
  refine ⟨?_, State.rd_wr_same _ _ _⟩
  refine (State.canPend_congr (s := s.setBit (canReqReg p b) (b % 32)) ?_).trans (State.bitOf_setBit_same _ _ ?_)
  · rw [State.rd_wr_other _ _ _ _ (by unfold Reg.CAN_BUF_QTS; omega)]
    exact State.rd_wr_other _ _ _ _ (by unfold Reg.CAN_QUEUED; omega)
  · exact Nat.mod_lt _ (by decide)

theorem State.canReq_refused (h : (s.bitOf (Reg.CAN_BUF_CFG p b) 31 && s.bitOf (Reg.CAN_BUF_CFG p b) 30) = false ∨
    s.canPend p b = true ∨ s.canInit p = true) : s.canReq p b = s.canRefuse p := by
  rw [State.canReq]
  dsimp only
  rw [if_pos]
  rcases h with h | h | h
  · rcases Bool.and_eq_false_iff.1 h with h | h
    · exact .inl h
    · exact .inr (.inl h)
  · exact .inr (.inr (.inl h))
  · exact .inr (.inr (.inr h))

end

theorem maskBuffers_nodup (m : BitVec 64) : (maskBuffers m).Nodup := List.nodup_range.filter _

theorem mem_maskBuffers {m : BitVec 64} {b : Nat} : b ∈ maskBuffers m ↔ b < 64 ∧ m.getLsbD b = true := by
  rw [maskBuffers, List.mem_filter, List.mem_range]

theorem answers_canTxReq {s : State} {p : Fin 2} (hopen : s.open (.can p) = true) (m : BitVec 64) (b : Fin 64) :
    answers (.canTxReq p m) s fun t => (m.getLsbD b = false → t.canPend p b = s.canPend p b) ∧
    (m.getLsbD b = true → ((s.bitOf (Reg.CAN_BUF_CFG p b) 31 && s.bitOf (Reg.CAN_BUF_CFG p b) 30) = true ∧ s.canPend p b = false ∧
        s.canInit p = false → t.canPend p b = true ∧ t.rd (Reg.CAN_BUF_QTS p b) = s.canTs) ∧
      ((s.bitOf (Reg.CAN_BUF_CFG p b) 31 && s.bitOf (Reg.CAN_BUF_CFG p b) 30) = false ∨ s.canPend p b = true ∨ s.canInit p = true →
        t.canPend p b = s.canPend p b ∧ t.bitOf (Reg.CAN_EVT p) 9 = true)) := by
  refine answers_of_via (f := fun t => t.canReqs p m) rfl hopen ?_
  have hstep : ∀ (t : State) (k : Nat), k < 64 → k ≠ b.val → CanAlike p b t (t.canReq p k) := fun t k hk hkb =>
    t.canReq_alike p b.isLt hk hkb
  dsimp only [State.canReqs]
  refine ⟨fun hm => ?_, fun hm => ?_⟩
  · refine (foldl_leaves (R := CanAlike p b) .refl (fun _ _ _ => .trans) (fun t k hk => ?_) s).pend
    obtain ⟨hk, hmk⟩ := mem_maskBuffers.1 hk
    exact hstep t k hk fun e => nomatch (e ▸ hmk).symm.trans hm
  · obtain ⟨u, r, hu, -, hafter, -⟩ := foldl_at (R := CanAlike p b) .refl (fun _ _ _ => .trans)
      (fun t k hk hkb => hstep t k (mem_maskBuffers.1 hk).1 hkb) (maskBuffers_nodup m) (mem_maskBuffers.2 ⟨b.isLt, hm⟩) s
    have hcfg : ∀ i, u.bitOf (Reg.CAN_BUF_CFG p b) i = s.bitOf (Reg.CAN_BUF_CFG p b) i := State.bitOf_congr hu.cfg
    refine ⟨fun ⟨hkind, hpend, hinit⟩ => ?_, fun hrefused => ?_⟩
    · rw [hafter.pend, hafter.qts, ← hu.ts]
      exact u.canReq_accepted p (by rwa [hcfg, hcfg]) (by rwa [hu.pend]) (by rwa [hu.init])
    · have heq : u.canReq p b = u.canRefuse p := u.canReq_refused p (by rwa [hcfg, hcfg, hu.pend, hu.init])
      refine ⟨?_, hafter.refused ?_⟩
      · rw [hafter.pend, heq, (u.canRefuse_alike p).pend, hu.pend]
      · rw [heq]
        exact State.bitOf_setBit_same _ _ (by decide)

/-! ## Discards, aborts and the accounting (R812, R817, R818) -/

/-- The queue bit of a buffer, the ports' states and CAN_CTL stay. -/
structure CanRests (p b : Nat) (s t : State) : Prop where
  pend : t.canPend p b = s.canPend p b
  cans : t.cans = s.cans
  ctl : t.rd (Reg.CAN_CTL p) = s.rd (Reg.CAN_CTL p)

theorem CanRests.refl {p b : Nat} (s : State) : CanRests p b s s := ⟨rfl, rfl, rfl⟩

theorem CanRests.trans {p b : Nat} {s t u : State} (h : CanRests p b s t) (k : CanRests p b t u) : CanRests p b s u :=
  ⟨k.pend.trans h.pend, k.cans.trans h.cans, k.ctl.trans h.ctl⟩

section
variable (s : State) (p : Fin 2)

theorem State.canAudit_farBut : s.FarBut (s.canAudit p) [Reg.CAN_EVT p] := by
  unfold State.canAudit
  split
  · exact ⟨rfl, fun _ _ _ => rfl⟩
  · exact (s.setBit_farBut _ _).trans (State.raise_farBut _ _)

theorem State.canAudit_rests (b : Nat) : CanRests p b s (s.canAudit p) := by
  have h := s.canAudit_farBut p
  obtain ⟨hreq, -, -⟩ := canBitRegs_at p b
  have hne : canReqReg p b ≠ Reg.CAN_EVT p := by unfold Reg.CAN_EVT; omega
  have hctl : Reg.CAN_CTL p ≠ Reg.CAN_EVT p := by simp [Reg.CAN_CTL, Reg.CAN_EVT]
  exact ⟨State.canPend_congr (h.rd _ farReg_canReq (by simpa using hne)), h.cans, h.rd _ farReg_canCtl (by simpa using hctl)⟩

variable {b : Nat} (hb : b < 64)

/-- The registers of the queue's two bits of a buffer, as they leave the queue. -/
theorem State.rd_canUnpend {a : Nat} (hreq : a ≠ canReqReg p b) (habort : a ≠ canAbortReg p b) :
    (s.canUnpend p b).rd a = s.rd a := by
  exact (State.rd_clrBit_other _ _ _ _ habort).trans (State.rd_clrBit_other _ _ _ _ hreq)

include hb

theorem State.canUnpend_spec : (s.canUnpend p b).canPend p b = false ∧ (s.canUnpend p b).canAborting p b = false ∧
    ∀ k, k < 64 → k ≠ b → (s.canUnpend p b).canPend p k = s.canPend p k := by
  have hpend : ∀ k, k < 64 → (s.canUnpend p b).canPend p k = (s.canPend p k && !decide (k = b)) := by
    intro k hk
    obtain ⟨hreq, -, -⟩ := canBitRegs_at p k
    obtain ⟨-, habort, -⟩ := canBitRegs_at p b
    refine (State.canPend_congr (State.rd_clrBit_other _ (canAbortReg p b) _ _ (by omega))).trans ?_
    exact State.bitOf_clrBit_half s (canHalves_ne p).1 hk hb
  refine ⟨by simp [hpend b hb], ?_, fun k hk hkb => by simp [hpend k hk, hkb]⟩
  have hclr := State.bitOf_clrBit_half (s.clrBit (canReqReg p b) (b % 32)) (canHalves_ne p).2.1 hb hb
  refine hclr.trans ?_
  simp

/-- A frame discarded, before the accounting (R817). -/
def State.discarded (s : State) (p b reason : Nat) : State :=
  (((s.canUnpend p b).wr (Reg.CAN_DISCARDED p) (s.rd (Reg.CAN_DISCARDED p) + 1)).wr (Reg.CAN_TX_DISC p)
    (BitVec.ofNat 32 (256 * b + reason))).setBit (Reg.CAN_EVT p) 6

omit hb in
theorem State.canDiscard_eq (reason : Nat) : s.canDiscard p b reason = (s.discarded p b reason).canAudit p := rfl

omit hb in
theorem State.rd_discarded (reason : Nat) {a : Nat} (hreq : a ≠ canReqReg p b) (habort : a ≠ canAbortReg p b)
    (hl : a ∉ [Reg.CAN_DISCARDED p, Reg.CAN_TX_DISC p, Reg.CAN_EVT p]) : (s.discarded p b reason).rd a = s.rd a := by
  simp only [List.mem_cons, List.not_mem_nil, or_false, not_or] at hl
  obtain ⟨hcount, hdisc, hevt⟩ := hl
  rw [State.discarded, State.rd_setBit_other _ _ _ _ hevt, State.rd_wr_other _ _ _ _ hdisc, State.rd_wr_other _ _ _ _ hcount,
    s.rd_canUnpend p hreq habort]

/-- The queue's bits after a discard are those after the buffer has left the queue. -/
theorem State.discarded_spec (reason : Nat) : (s.discarded p b reason).canPend p b = false ∧
    (s.discarded p b reason).canAborting p b = false ∧
    (s.discarded p b reason).rd (Reg.CAN_DISCARDED p) = s.rd (Reg.CAN_DISCARDED p) + 1 ∧
    (s.discarded p b reason).rd (Reg.CAN_TX_DISC p) = BitVec.ofNat 32 (256 * b + reason) ∧
    (s.discarded p b reason).bitOf (Reg.CAN_EVT p) 6 = true ∧
    ∀ k, k < 64 → k ≠ b → CanRests p k s (s.discarded p b reason) := by
  obtain ⟨hpend, habort, hother⟩ := s.canUnpend_spec p hb
  have hbits : ∀ a, a = Reg.CAN_CTL p ∨ (∃ k, a = canReqReg p k ∨ a = canAbortReg p k) →
      (s.discarded p b reason).rd a = (s.canUnpend p b).rd a := by
    intro a ha
    have hne : a ≠ Reg.CAN_DISCARDED p ∧ a ≠ Reg.CAN_TX_DISC p ∧ a ≠ Reg.CAN_EVT p := by
      unfold Reg.CAN_DISCARDED Reg.CAN_TX_DISC Reg.CAN_EVT
      rcases ha with rfl | ⟨k, rfl | rfl⟩
      · unfold Reg.CAN_CTL
        omega
      · obtain ⟨h, -, -⟩ := canBitRegs_at p k
        omega
      · obtain ⟨-, h, -⟩ := canBitRegs_at p k
        omega
    rw [State.discarded, State.rd_setBit_other _ _ _ _ hne.2.2, State.rd_wr_other _ _ _ _ hne.2.1,
      State.rd_wr_other _ _ _ _ hne.1]
  refine ⟨?_, ?_, ?_, ?_, State.bitOf_setBit_same _ _ (by decide), fun k hk hkb => ⟨?_, rfl, ?_⟩⟩
  · rw [State.canPend_congr (hbits _ (.inr ⟨b, .inl rfl⟩)), hpend]
  · rw [State.canAborting_congr (hbits _ (.inr ⟨b, .inr rfl⟩)), habort]
  · rw [State.discarded, State.rd_setBit_other _ _ _ _ (by simp [Reg.CAN_DISCARDED, Reg.CAN_EVT]),
      State.rd_wr_other _ _ _ _ (by simp [Reg.CAN_DISCARDED, Reg.CAN_TX_DISC]), State.rd_wr_same]
  · rw [State.discarded, State.rd_setBit_other _ _ _ _ (by simp [Reg.CAN_TX_DISC, Reg.CAN_EVT]), State.rd_wr_same]
  · rw [State.canPend_congr (hbits _ (.inr ⟨k, .inl rfl⟩)), hother k hk hkb]
  · obtain ⟨hreq, habort, -⟩ := canBitRegs_at p b
    rw [hbits _ (.inl rfl), s.rd_canUnpend p (by unfold Reg.CAN_CTL; omega) (by unfold Reg.CAN_CTL; omega)]

theorem State.canDiscard_spec (reason : Nat) : (s.canDiscard p b reason).canPend p b = false ∧
    ∀ k, k < 64 → k ≠ b → CanRests p k s (s.canDiscard p b reason) := by
  obtain ⟨hpend, -, -, -, -, hother⟩ := s.discarded_spec p hb reason
  rw [State.canDiscard_eq]
  exact ⟨((s.discarded p b reason).canAudit_rests p b).pend.trans hpend,
    fun k hk hkb => (hother k hk hkb).trans ((s.discarded p b reason).canAudit_rests p k)⟩

end

/-! ## Aborts (R812, R813) -/

/-- An abort of one buffer. -/
def State.canAbortStep (p : Nat) (cur : Option (Fin 64)) (t : State) (b : Nat) : State :=
  if t.canPend p b = false then t
  else if cur.map Fin.val = some b then t.setBit (canAbortReg p b) (b % 32)
  else t.canDiscard p b 1

theorem State.canAborts_eq (s : State) (p : Nat) (m : BitVec 64) (cur : Option (Fin 64)) :
    s.canAborts p m cur = (maskBuffers m).foldl (State.canAbortStep p cur) s := rfl

section
variable (s : State) (p : Fin 2) (cur : Option (Fin 64))

theorem State.abortBit_rests (b k : Nat) : CanRests p b s (s.setBit (canAbortReg p k) (k % 32)) := by
  obtain ⟨hreq, -, -⟩ := canBitRegs_at p b
  obtain ⟨-, habort, -⟩ := canBitRegs_at p k
  exact ⟨State.canPend_congr (State.rd_setBit_other _ _ _ _ (by omega)), rfl,
    State.rd_setBit_other _ _ _ _ (by unfold Reg.CAN_CTL; omega)⟩

theorem State.canAbortStep_rests {b k : Nat} (hb : b < 64) (hk : k < 64) (hkb : k ≠ b) :
    CanRests p b s (s.canAbortStep p cur k) := by
  unfold State.canAbortStep
  split
  · exact .refl s
  split
  · exact s.abortBit_rests p b k
  · exact (s.canDiscard_spec p hk 1).2 b hb hkb.symm

theorem map_val_eq_iff {b : Fin 64} : cur.map Fin.val = some b.val ↔ cur = some b := by
  cases cur <;> simp [Fin.ext_iff]

theorem State.canAbortStep_pend (b : Fin 64) : (s.canAbortStep p cur b).canPend p b = (s.canPend p b && cur == some b) := by
  unfold State.canAbortStep
  split
  · next h => simp [h]
  next h =>
  rw [Bool.not_eq_false] at h
  split
  · next hcur =>
    rw [(s.abortBit_rests p b b).pend, h, (map_val_eq_iff cur).1 hcur]
    simp
  · next hcur =>
    rw [(s.canDiscard_spec p b.isLt 1).1]
    have hne : cur ≠ some b := fun e => hcur ((map_val_eq_iff cur).2 e)
    simp [hne]

variable {s p cur} (hopen : s.open (.can p) = true)
include hopen

theorem exec_canTxAbort_one (b : Fin 64) : exec (.canTxAbort p ((1 : BitVec 64) <<< b.val) cur) s = .next (s.canAbortStep p cur b) := by
  have hmask : maskBuffers ((1 : BitVec 64) <<< b.val) = [b.val] := by revert b; decide
  change s.via (.can p) (fun t => t.canAborts p _ cur) = _
  rw [State.via_of_open s _ hopen, State.canAborts_eq, hmask]
  rfl

theorem answers_canTxAbort (b : Fin 64) (m : BitVec 64) : answers (.canTxAbort p m cur) s fun t =>
    (m.getLsbD b = false → t.canPend p b = s.canPend p b) ∧
      (m.getLsbD b = true → t.canPend p b = (s.canPend p b && cur == some b)) := by
  refine answers_of_via (f := fun t => t.canAborts p m cur) rfl hopen ?_
  have hstep : ∀ (t : State), ∀ k ∈ maskBuffers m, k ≠ b.val → CanRests p b t (t.canAbortStep p cur k) := fun t k hk hkb =>
    t.canAbortStep_rests p cur b.isLt (mem_maskBuffers.1 hk).1 hkb
  rw [State.canAborts_eq]
  refine ⟨fun hm => ?_, fun hm => ?_⟩
  · refine (foldl_leaves (R := CanRests p b) .refl (fun _ _ _ => .trans) (fun t k hk => hstep t k hk fun e => ?_) s).pend
    exact nomatch (e ▸ (mem_maskBuffers.1 hk).2).symm.trans hm
  · obtain ⟨u, r, hu, -, hafter, -⟩ := foldl_at (R := CanRests p b) .refl (fun _ _ _ => .trans) hstep (maskBuffers_nodup m)
      (mem_maskBuffers.2 ⟨b.isLt, hm⟩) s
    rw [hafter.pend, u.canAbortStep_pend, hu.pend]

theorem answers_canTxAbort_current (b : Fin 64) (hpend : s.canPend p b = true) (hcur : cur = some b) :
    answers (.canTxAbort p ((1 : BitVec 64) <<< b.val) cur) s fun t =>
      t.canPend p b = true ∧ t.canAborting p b = true ∧ t.rd (Reg.CAN_DISCARDED p) = s.rd (Reg.CAN_DISCARDED p) := by
  obtain ⟨-, habort, -⟩ := canBitRegs_at p b
  refine ⟨_, exec_canTxAbort_one hopen b, ?_⟩
  rw [State.canAbortStep, if_neg (by simp [hpend]), if_pos ((map_val_eq_iff cur).2 hcur)]
  refine ⟨(s.abortBit_rests p b b).pend.trans hpend, State.bitOf_setBit_same _ _ (Nat.mod_lt _ (by decide)), ?_⟩
  exact State.rd_setBit_other _ _ _ _ (by unfold Reg.CAN_DISCARDED; omega)

theorem exec_canTxAbort_waiting (b : Fin 64) (hpend : s.canPend p b = true) (hcur : cur ≠ some b) :
    exec (.canTxAbort p ((1 : BitVec 64) <<< b.val) cur) s = .next (s.canDiscard p b 1) := by
  rw [exec_canTxAbort_one hopen, State.canAbortStep, if_neg (by simp [hpend]), if_neg fun e => hcur ((map_val_eq_iff cur).1 e)]

end

/-! ## Frames sent, failed and stale (R810 to R814) -/

section
variable {s : State} {p : Fin 2} (hopen : s.open (.can p) = true)
include hopen

theorem exec_canFrameSent {b : Fin 64} (start : Word) (hpend : s.canPend p b = true) (hlive : (s.can p).live = true)
    (hwins : s.canWins p b start = true) : ∃ u : State, u.canPend p b = false ∧
      u.rd (Reg.CAN_SENT p) = s.rd (Reg.CAN_SENT p) + 1 ∧ u.rd (Reg.CAN_BUF_TS p b) = start ∧ u.bitOf (Reg.CAN_EVT p) 1 = true ∧
      exec (.canFrameSent p b start) s = .next (if s.canLoop p = 1 ∨ s.canLoop p = 2 then
        (u.canAudit p).canFilter p (s.canFrameOf p b) start else u.canAudit p) := by
  obtain ⟨hreq, -, -⟩ := canBitRegs_at p b
  refine ⟨(((s.canUnpend p b).wr (Reg.CAN_SENT p) (s.rd (Reg.CAN_SENT p) + 1)).wr (Reg.CAN_BUF_TS p b) start).setBit
    (Reg.CAN_EVT p) 1, ?_, ?_, ?_, State.bitOf_setBit_same _ _ (by decide), ?_⟩
  · refine (State.canPend_congr ?_).trans (s.canUnpend_spec p b.isLt).1
    rw [State.rd_setBit_other _ _ _ _ (by unfold Reg.CAN_EVT; omega), State.rd_wr_other _ _ _ _ (by unfold Reg.CAN_BUF_TS; omega),
      State.rd_wr_other _ _ _ _ (by unfold Reg.CAN_SENT; omega)]
  · rw [State.rd_setBit_other _ _ _ _ (by simp [Reg.CAN_SENT, Reg.CAN_EVT]),
      State.rd_wr_other _ _ _ _ (by unfold Reg.CAN_SENT Reg.CAN_BUF_TS; omega), State.rd_wr_same]
  · rw [State.rd_setBit_other _ _ _ _ (by unfold Reg.CAN_EVT Reg.CAN_BUF_TS; omega), State.rd_wr_same]
  · exact if_neg (by simp [hopen, hpend, hlive, hwins])

theorem exec_canFrameFail {b : Fin 64} (hpend : s.canPend p b = true) : exec (.canFrameFail p b) s =
    if s.canAborting p b then .next (s.canDiscard p b 1)
    else if s.bitOf (Reg.CAN_BUF_CFG p b) 28 then .next (s.canDiscard p b 3) else .next s :=
  if_neg (by simp [hopen, hpend])

theorem exec_canStaleTest (b : Fin 64) : exec (.canStaleTest p b) s = .next (if s.canStale p b then
    ((s.canDiscard p b 2).setBit (Reg.CAN_EVT p) 5).raise 219 else s) :=
  State.via_of_open s (fun t => if t.canStale p b then ((t.canDiscard p b 2).setBit (Reg.CAN_EVT p) 5).raise 219 else t) hopen

omit hopen in
theorem State.canStale_iff {b : Fin 64} (hpend : s.canPend p b = true) (hlife : 0 < s.field (Reg.CAN_BUF_CTL p b) 8 16) :
    s.canStale p b = true ↔
      (s.field (Reg.CAN_BUF_CTL p b) 8 16 * 25000 : Nat) < timeDiff s.canTs (s.rd (Reg.CAN_BUF_QTS p b)) := by
  simp [State.canStale, hpend, hlife]

/-! ## Protocol states and INIT (R805, R815, R816) -/

theorem answers_canStateChange_off (rec tec : BitVec 8) (hlive : (s.can p).live = true) :
    answers (.canStateChange p rec tec true) s fun t => t.bitOf (Reg.CAN_EVT p) 3 = true ∧
      (t.can p).st = if s.bitOf (Reg.CAN_CTL p) 6 then .recovering else .busOff := by
  have hctl : Reg.CAN_CTL p ≠ Reg.CAN_EVT p := by simp [Reg.CAN_CTL, Reg.CAN_EVT]
  let u := ((s.setCan p { s.can p with recCnt := rec, tecCnt := tec }).setCan p
    { (s.setCan p { s.can p with recCnt := rec, tecCnt := tec }).can p with st := .busOff }).setBit (Reg.CAN_EVT p) 3
  have hexec : exec (.canStateChange p rec tec true) s = .next (if (u.raise (216 + p)).bitOf (Reg.CAN_CTL p) 6 then
      (u.raise (216 + p)).setCan p { (u.raise (216 + p)).can p with st := .recovering } else u.raise (216 + p)) := by
    change (if s.open (.can p) = false ∨ (s.can p).live = false then _ else _) = _
    rw [if_neg (by simp [hopen, hlive])]
    rfl
  have hfar := u.raise_farBut (216 + p)
  have hbit : (u.raise (216 + p)).bitOf (Reg.CAN_CTL p) 6 = s.bitOf (Reg.CAN_CTL p) 6 :=
    (State.bitOf_congr (u.rd_raise_far _ farReg_canCtl) 6).trans (State.bitOf_congr (State.rd_setBit_other _ _ _ _ hctl) 6)
  have hevt : (u.raise (216 + p)).bitOf (Reg.CAN_EVT p) 3 = true :=
    (State.bitOf_congr (u.rd_raise_far _ farReg_canEvt) 3).trans (State.bitOf_setBit_same _ _ (by decide))
  refine ⟨_, hexec, ?_⟩
  rw [hbit]
  split
  · exact ⟨hevt, congrArg Can.st (State.can_setCan_same _ _ _)⟩
  · refine ⟨hevt, ?_⟩
    rw [State.can, hfar.cans, ← State.can, State.can_setBit]
    exact congrArg Can.st (State.can_setCan_same _ _ _)

omit hopen in
/-- Entry to error-passive (R805). -/
theorem State.canEnter_passive (s : State) (p : Fin 2) : (s.canEnter p .passive).can p = { s.can p with st := .passive, fresh := false } ∧
    (s.canEnter p .passive).bitOf (Reg.CAN_EVT p) 2 = true := by
  let u := (s.setCan p { s.can p with st := .passive, fresh := false }).setBit (Reg.CAN_EVT p) 2
  have hcan : u.can p = { s.can p with st := .passive, fresh := false } :=
    (State.can_setBit _ _ _ _).trans (State.can_setCan_same s p _)
  have hevt : u.bitOf (Reg.CAN_EVT p) 2 = true := State.bitOf_setBit_same _ _ (by decide)
  change (if (s.can p).fresh then u.raise 220 else u).can p = _ ∧ (if (s.can p).fresh then u.raise 220 else u).bitOf _ 2 = true
  split
  · refine ⟨?_, (State.bitOf_congr (u.rd_raise_far _ farReg_canEvt) 2).trans hevt⟩
    rw [State.can, (u.raise_farBut 220).cans, ← State.can, hcan]
  · exact ⟨hcan, hevt⟩

theorem answers_canStateChange_on (rec tec : BitVec 8) (hlive : (s.can p).live = true) :
    answers (.canStateChange p rec tec false) s fun t => (t.can p).recCnt = rec ∧ (t.can p).tecCnt = tec ∧
      (t.can p).st = (if 127 < rec.toNat ∨ 127 < tec.toNat then .passive else .active) ∧
      ((127 < rec.toNat ∨ 127 < tec.toNat) → (s.can p).st = .active → t.bitOf (Reg.CAN_EVT p) 2 = true) := by
  let u := s.setCan p { s.can p with recCnt := rec, tecCnt := tec }
  have hu : u.can p = { s.can p with recCnt := rec, tecCnt := tec } := State.can_setCan_same s p _
  have hexec : exec (.canStateChange p rec tec false) s =
      if 127 < rec.toNat ∨ 127 < tec.toNat then .next (if (s.can p).st = .passive then u else u.canEnter p .passive)
      else .next (if (s.can p).st = .active then u else u.canEnter p .active) := by
    change (if s.open (.can p) = false ∨ (s.can p).live = false then _ else _) = _
    rw [if_neg (by simp [hopen, hlive])]
    rfl
  by_cases hhigh : 127 < rec.toNat ∨ 127 < tec.toNat
  · rw [if_pos hhigh] at hexec
    refine ⟨_, hexec, ?_⟩
    rw [if_pos hhigh]
    split
    · next hst =>
      rw [hu]
      exact ⟨rfl, rfl, hst, fun _ h => nomatch hst.symm.trans h⟩
    · obtain ⟨hcan, hevt⟩ := u.canEnter_passive p
      rw [hcan, hu]
      exact ⟨rfl, rfl, rfl, fun _ _ => hevt⟩
  · rw [if_neg hhigh] at hexec
    refine ⟨_, hexec, ?_⟩
    rw [if_neg hhigh]
    split
    · next hst =>
      rw [hu]
      exact ⟨rfl, rfl, hst, fun h => absurd h hhigh⟩
    · have hcan : (u.canEnter p .active).can p = { u.can p with st := .active, fresh := true } := State.can_setCan_same u p _
      rw [hcan, hu]
      exact ⟨rfl, rfl, rfl, fun h => absurd h hhigh⟩

theorem exec_canRec : exec (.canRec p) s = .next (s.canRec p) := State.via_of_open s (fun t => t.canRec p) hopen

theorem answers_canRecovered (hst : (s.can p).st = .recovering) : answers (.canRecovered p) s fun t => t.can p = { st := .active } ∧
    t.bitOf (Reg.CAN_EVT p) 4 = true ∧ regsBut s t [Reg.CAN_EVT p] := by
  refine ⟨(s.setCan p { st := .active }).setBit (Reg.CAN_EVT p) 4, if_neg (by simp [hopen, hst]),
    (State.can_setBit _ _ _ _).trans (State.can_setCan_same _ _ _), State.bitOf_setBit_same _ _ (by decide), fun a ha => ?_⟩
  exact State.rd_setBit_other _ _ _ _ fun e => ha (List.mem_singleton.2 e)

theorem exec_canInit : exec (.canInit p) s = .next (if s.canInit p then s else s.canInitSet p) :=
  State.via_of_open s (fun t => if t.canInit p then t else t.canInitSet p) hopen

omit hopen in
/-- INIT is set: the port is in CONFIG, and no frame is pending (R816). -/
theorem State.canInitSet_spec (s : State) (p : Fin 2) : (s.canInitSet p).canInit p = true ∧ ((s.canInitSet p).can p).st = .config ∧
    ∀ b, b < 64 → (s.canInitSet p).canPend p b = false := by
  let u := (s.setBit (Reg.CAN_CTL p) 0).canEnter p .config
  have hinit : u.canInit p = true := State.bitOf_setBit_same s _ (by decide)
  have hst : (u.can p).st = .config := congrArg Can.st (State.can_setCan_same (s.setBit (Reg.CAN_CTL p) 0) p _)
  have hpend : ∀ b, u.canPend p b = s.canPend p b := by
    intro b
    obtain ⟨hreq, -, -⟩ := canBitRegs_at p b
    exact State.canPend_congr (s := s) (State.rd_setBit_other _ _ _ _ (by unfold Reg.CAN_CTL; omega))
  let l := (List.range 64).filter fun b => s.canPend p b
  have hmem : ∀ k, k ∈ l ↔ k < 64 ∧ s.canPend p k = true := fun k => by rw [List.mem_filter, List.mem_range]
  have hstep : ∀ b, b < 64 → ∀ (t : State), ∀ k ∈ l, k ≠ b → CanRests p b t (t.canDiscard p k 4) := fun b hb t k hk hkb =>
    (t.canDiscard_spec p ((hmem k).1 hk).1 4).2 b hb hkb.symm
  have hall : ∀ b, b < 64 → b ∉ l → CanRests p b u (s.canInitSet p) := fun b hb hbl =>
    foldl_leaves .refl (fun _ _ _ => .trans) (fun t k hk => hstep b hb t k hk fun e => hbl (e ▸ hk)) u
  have hkept : ∀ (t : State), ∀ k ∈ l, (t.canDiscard p k 4).cans = t.cans ∧
      (t.canDiscard p k 4).rd (Reg.CAN_CTL p) = t.rd (Reg.CAN_CTL p) := by
    intro t k hk
    obtain ⟨b, hb, hkb⟩ : ∃ b, b < 64 ∧ k ≠ b := ⟨if k = 0 then 1 else 0, by split <;> omega, by split <;> omega⟩
    exact ⟨(hstep b hb t k hk hkb).cans, (hstep b hb t k hk hkb).ctl⟩
  have hend : (s.canInitSet p).cans = u.cans ∧ (s.canInitSet p).rd (Reg.CAN_CTL p) = u.rd (Reg.CAN_CTL p) :=
    foldl_leaves (R := fun t w => w.cans = t.cans ∧ w.rd (Reg.CAN_CTL p) = t.rd (Reg.CAN_CTL p)) (fun _ => ⟨rfl, rfl⟩)
      (fun _ _ _ h k => ⟨k.1.trans h.1, k.2.trans h.2⟩) hkept u
  refine ⟨(State.bitOf_congr hend.2 0).trans hinit, ?_, fun b hb => ?_⟩
  · rw [State.can, hend.1, ← State.can, hst]
  · by_cases hbl : b ∈ l
    · obtain ⟨w, r, -, -, hafter, -⟩ := foldl_at (R := CanRests p b) .refl (fun _ _ _ => .trans) (hstep b hb)
        (List.nodup_range.filter _) hbl u
      exact hafter.pend.trans (w.canDiscard_spec p hb 4).1
    · rw [(hall b hb hbl).pend, hpend]
      exact eq_false_of_ne_true fun h => hbl ((hmem b).2 ⟨hb, h⟩)

/-! ## Bit timings (R803, R804) -/

theorem exec_canTimingWrite (k : CanTiming) (v : Word) : exec (.canTimingWrite p k v) s = .next (s.canTiming p k v) :=
  State.via_of_open s (fun t => t.canTiming p k v) hopen

theorem answers_canTimingWrite_refused {k : CanTiming} {v : Word} (h : s.canTiming p k v = s.canRefuse p) :
    answers (.canTimingWrite p k v) s fun t => t.bitOf (Reg.CAN_EVT p) 9 = true ∧ onlyRegs s t [Reg.CAN_EVT p] := by
  refine ⟨_, exec_canTimingWrite hopen k v, ?_⟩
  rw [h]
  exact ⟨State.bitOf_setBit_same _ _ (by decide), State.setBits_onlyRegs _ _ _⟩

theorem answers_canTimingWrite_taken {k : CanTiming} {v w : Word} {a : Nat} (h : s.canTiming p k v = s.wr a w) :
    answers (.canTimingWrite p k v) s fun t => t.rd a = w ∧ onlyRegs s t [a] := by
  refine ⟨_, exec_canTimingWrite hopen k v, ?_⟩
  rw [h]
  exact ⟨State.rd_wr_same _ _ _, s.wr_onlyRegs _ _⟩

end

end Sys2Proof.Machine

namespace Sys2Proof.CanPorts

open Sys2Proof.Machine Sys2Proof.Safety

/-- Settles O60, command by command. -/
theorem canPortsCommands : Obligations.CanPortsCommands := by
  refine ⟨fun p f ts s hopen hlive hloop hfd => ⟨fun b hfits hnew hlow => ?_, fun hnone => ?_, fun hsome hfull => ?_⟩,
    fun p m b s hopen => answers_canTxReq hopen m b,
    fun p b cur s hopen => ⟨fun hpend => ?_, answers_canTxAbort_current hopen b, exec_canTxAbort_waiting hopen b,
      answers_canTxAbort hopen b⟩,
    fun p b reason s => ?_, fun p s => ⟨fun h => if_pos h, fun h => if_neg h⟩,
    fun p b start s hopen hpend => ⟨exec_canFrameSent hopen start hpend, fun habort => ?_, fun habort hone => ?_,
      fun habort hone => ?_, fun hlife => ⟨fun hstale => ?_, fun hfresh => ?_⟩⟩,
    fun p rec tec s hopen hlive => ⟨answers_canStateChange_off hopen rec tec hlive, answers_canStateChange_on hopen rec tec hlive⟩,
    fun p s hopen => ⟨fun hst => ?_, fun hst => ?_, answers_canRecovered hopen, fun hinit => ?_, fun hinit => ?_⟩,
    fun p v s hopen => ⟨fun hinit k => ?_, fun hinit => ⟨fun hok => ?_, fun hok => ?_, fun hok => ?_, fun hok => ?_, ?_⟩⟩⟩
  · refine ⟨_, exec_canFrameReceive ts hopen hlive hloop hfd, ?_⟩
    rw [State.canFilter_stores ts b.isLt hfits hnew hlow]
    exact s.canStore_spec p b.isLt f ts
  · refine ⟨_, exec_canFrameReceive ts hopen hlive hloop hfd, ?_⟩
    rw [State.canFilter_noMatch ts hnone]
    exact ⟨s.rdNat_bump _, s.wr_onlyRegs _ _⟩
  · refine ⟨_, exec_canFrameReceive ts hopen hlive hloop hfd, ?_⟩
    rw [State.canFilter_lost ts hsome hfull]
    refine ⟨?_, State.bitOf_setBit_same _ _ (by decide), onlyRegs_trans (s.wr_onlyRegs _ _) (State.setBits_onlyRegs _ _ _)⟩
    rw [State.rdNat, State.rd_setBit_other _ _ _ _ (by simp [Reg.CAN_RX_LOST, Reg.CAN_EVT]), ← State.rdNat, State.rdNat_bump]
  · rw [exec_canTxAbort_one hopen, State.canAbortStep, if_pos hpend]
  · obtain ⟨hpend, habort, hcount, hreason, hevt, -⟩ := s.discarded_spec p b.isLt reason
    exact ⟨_, hpend, habort, hcount, hreason, hevt, s.canDiscard_eq p reason⟩
  · rw [exec_canFrameFail hopen hpend, if_pos habort]
  · rw [exec_canFrameFail hopen hpend, if_neg (ne_true_of_eq_false habort), if_pos hone]
  · rw [exec_canFrameFail hopen hpend, if_neg (ne_true_of_eq_false habort), if_neg (ne_true_of_eq_false hone)]
  · rw [exec_canStaleTest hopen, if_pos ((State.canStale_iff hpend hlife).2 hstale)]
  · rw [exec_canStaleTest hopen, if_neg fun h => Int.not_lt.2 hfresh ((State.canStale_iff hpend hlife).1 h)]
  · exact ⟨_, exec_canRec hopen, if_pos hst⟩
  · rw [exec_canRec hopen, State.canRec, if_neg hst]
  · rw [exec_canInit hopen, if_pos hinit]
  · refine ⟨_, exec_canInit hopen, ?_⟩
    rw [if_neg (ne_true_of_eq_false hinit)]
    exact s.canInitSet_spec p
  · exact answers_canTimingWrite_refused hopen (if_pos hinit)
  · exact answers_canTimingWrite_taken hopen (by simp [State.canTiming, hinit, hok])
  · exact answers_canTimingWrite_refused hopen (by simp [State.canTiming, hinit, hok])
  · exact answers_canTimingWrite_taken hopen (by simp [State.canTiming, hinit, hok])
  · exact answers_canTimingWrite_refused hopen (by simp [State.canTiming, hinit, hok])
  · exact answers_canTimingWrite_taken hopen (by simp [State.canTiming, hinit])

end Sys2Proof.CanPorts
end

section
/-! The field-I/O island and the isolation link (R721 to R742): the fields and the CRC of a frame, what a field event leaves, what the
safety section's operations leave of the island, and each command's answer. -/

namespace Sys2Proof.Machine

open Sys2Proof.Safety

/-! ## Frames (R731, R732) -/

/-- The width of a list of fields. -/
def fieldsWidth (l : List (Nat × Nat)) : Nat := (l.map (·.2)).sum

theorem packFields_append (l m : List (Nat × Nat)) : packFields (l ++ m) = packFields l * 2 ^ fieldsWidth m + packFields m := by
  have hfrom : ∀ (m : List (Nat × Nat)) (a : Nat), m.foldl (fun a e => a * 2 ^ e.2 + e.1 % 2 ^ e.2) a =
      a * 2 ^ fieldsWidth m + packFields m := by
    intro m
    induction m with
    | nil => simp [packFields, fieldsWidth]
    | cons e r ih =>
      intro a
      rw [packFields, List.foldl_cons, List.foldl_cons, ih, ih (0 * 2 ^ e.2 + e.1 % 2 ^ e.2)]
      simp only [fieldsWidth, List.map_cons, List.sum_cons, pow_add]
      ring
  rw [packFields, List.foldl_append, hfrom]
  rfl

theorem packFields_lt (l : List (Nat × Nat)) : packFields l < 2 ^ fieldsWidth l := by
  induction l with
  | nil => simp [packFields, fieldsWidth]
  | cons e r ih =>
    have hhead : packFields [e] < 2 ^ e.2 := by
      rw [packFields, List.foldl_cons, List.foldl_nil, Nat.zero_mul, Nat.zero_add]
      exact Nat.mod_lt _ (Nat.two_pow_pos _)
    have hwidth : fieldsWidth ([e] ++ r) = e.2 + fieldsWidth r := by simp [fieldsWidth]
    rw [← List.singleton_append, packFields_append, hwidth, pow_add]
    calc packFields [e] * 2 ^ fieldsWidth r + packFields r < (packFields [e] + 1) * 2 ^ fieldsWidth r := by
          rw [Nat.succ_mul]
          omega
      _ ≤ 2 ^ e.2 * 2 ^ fieldsWidth r := Nat.mul_le_mul_right _ hhead

theorem toNat_isoFrame {l : List (Nat × Nat)} (h : fieldsWidth l = 240) : (isoFrame l).toNat =
    2 ^ 16 * packFields l + (crc16 (lineBytes (BitVec.ofNat 256 (packFields l * 65536)) 0 30)).toNat := by
  have hpack := packFields_lt l
  rw [h] at hpack
  have hcrc := (crc16 (lineBytes (BitVec.ofNat 256 (packFields l * 65536)) 0 30)).isLt
  rw [isoFrame, BitVec.toNat_or, BitVec.toNat_ofNat, BitVec.toNat_setWidth, Nat.mod_eq_of_lt (by omega),
    Nat.mod_eq_of_lt (by omega), Nat.mul_comm (packFields l) 65536]
  rw [Nat.mul_comm (packFields l) 65536] at hcrc
  exact (Nat.two_pow_add_eq_or_of_lt hcrc _).symm

/-- A field of a frame, by the fields before it. -/
theorem lineField_isoFrame_append (l1 : List (Nat × Nat)) (x n : Nat) (l2 : List (Nat × Nat))
    (h : fieldsWidth (l1 ++ (x, n) :: l2) = 240) :
    lineField (isoFrame (l1 ++ (x, n) :: l2)) (fieldsWidth l1) n = x % 2 ^ n := by
  have hwidth : fieldsWidth l1 + (n + fieldsWidth l2) = 240 := by
    rw [← h]
    simp [fieldsWidth]
  have hcrc := (crc16 (lineBytes (BitVec.ofNat 256 (packFields (l1 ++ (x, n) :: l2) * 65536)) 0 30)).isLt
  have hlo : 256 - fieldsWidth l1 - n = 16 + fieldsWidth l2 := by omega
  have hsplit : packFields (l1 ++ (x, n) :: l2) = (packFields l1 * 2 ^ n + x % 2 ^ n) * 2 ^ fieldsWidth l2 + packFields l2 := by
    have hone : packFields [(x, n)] = x % 2 ^ n := by simp [packFields]
    have hw : fieldsWidth ([(x, n)] ++ l2) = n + fieldsWidth l2 := by simp [fieldsWidth]
    rw [← List.singleton_append, packFields_append l1, packFields_append [(x, n)], hone, hw, pow_add]
    ring
  have hlow := packFields_lt l2
  rw [lineField, fieldOf, toNat_isoFrame h, hlo, pow_add, ← Nat.div_div_eq_div_mul, Nat.mul_add_div (Nat.two_pow_pos 16),
    Nat.div_eq_of_lt hcrc, Nat.add_zero, hsplit, Nat.mul_comm, Nat.mul_add_div (Nat.two_pow_pos _), Nat.div_eq_of_lt hlow,
    Nat.add_zero, Nat.mul_comm, Nat.mul_add_mod, Nat.mod_mod]

/-- The field of a frame at a place in its list. -/
theorem lineField_isoFrame {l : List (Nat × Nat)} (hl : fieldsWidth l = 240) {i x n f : Nat} (h : l[i]? = some (x, n))
    (hf : fieldsWidth (l.take i) = f) : lineField (isoFrame l) f n = x % 2 ^ n := by
  obtain ⟨hi, hget⟩ := List.getElem?_eq_some_iff.1 h
  have hsplit : l = l.take i ++ (x, n) :: l.drop (i + 1) := by
    rw [← hget, ← List.drop_eq_getElem_cons hi, List.take_append_drop]
  have hfield := lineField_isoFrame_append (l.take i) x n (l.drop (i + 1))
  rw [← hsplit, hf] at hfield
  exact hfield hl

theorem lineBytes_congr {w : Nat} {x y : BitVec w} (n i : Nat)
    (h : ∀ j, i ≤ j → j < i + n → lineField x (8 * j) 8 = lineField y (8 * j) 8) : lineBytes x i n = lineBytes y i n := by
  induction n generalizing i with
  | zero => rfl
  | succ n ih =>
    rw [lineBytes, lineBytes, h i (Nat.le_refl i) (by omega), ih (i + 1) fun j hj hjn => h j (by omega) (by omega)]

/-- The CRC of a frame as it is sent passes. -/
theorem isoCrcOk_isoFrame {l : List (Nat × Nat)} (h : fieldsWidth l = 240) : isoCrcOk (isoFrame l) = true := by
  have hpack := packFields_lt l
  rw [h] at hpack
  have hcrc := (crc16 (lineBytes (BitVec.ofNat 256 (packFields l * 65536)) 0 30)).isLt
  have hbytes : lineBytes (isoFrame l) 0 30 = lineBytes (BitVec.ofNat 256 (packFields l * 65536)) 0 30 := by
    refine lineBytes_congr 30 0 fun j _ hj => ?_
    have hlo : 256 - 8 * j - 8 = 16 + (232 - 8 * j) := by omega
    have hval : packFields l * 65536 % 2 ^ 256 = packFields l * 65536 := Nat.mod_eq_of_lt (by omega)
    rw [lineField, lineField, fieldOf, fieldOf, toNat_isoFrame h, BitVec.toNat_ofNat, hval, hlo, pow_add,
      ← Nat.div_div_eq_div_mul, ← Nat.div_div_eq_div_mul, Nat.mul_add_div (Nat.two_pow_pos 16), Nat.div_eq_of_lt hcrc,
      Nat.add_zero]
    change _ = packFields l * 2 ^ 16 / 2 ^ 16 / _ % _
    rw [Nat.mul_div_cancel _ (Nat.two_pow_pos 16)]
  rw [isoCrcOk, hbytes, beq_iff_eq, lineField, fieldOf, toNat_isoFrame h]
  omega

theorem lineField_lt {w : Nat} (x : BitVec w) (first n : Nat) : lineField x first n < 2 ^ n := Nat.mod_lt _ (Nat.two_pow_pos n)

/-! ## Bits of a list of flags -/

theorem testBit_flagNat (l : List Bool) (i : Nat) : (flagNat l).testBit i = l.getD i false := by
  induction l generalizing i with
  | nil => simp [flagNat]
  | cons b r ih =>
    cases i with
    | zero => cases b <;> simp [flagNat, Nat.testBit_zero, Nat.add_mod]
    | succ i =>
      rw [flagNat, Nat.testBit_succ]
      have hhalf : ((if b then 1 else 0) + 2 * flagNat r) / 2 = flagNat r := by cases b <;> simp; omega
      rw [hhalf, ih]
      simp

theorem getLsbD_flags (f : Nat → Bool) {n i : Nat} (hi : i < n) :
    (BitVec.ofNat n (flagNat ((List.range n).map f))).getLsbD i = f i := by
  rw [BitVec.getLsbD_ofNat, testBit_flagNat]
  simp [hi, List.getD]

/-! ## Events of the field side (R738) -/

/-- The events in transmission and those gathered for the next set. -/
def Fio.evts (f : Fio) : BitVec 16 := f.evtSet ||| f.evtNext

section
variable (s : State) (n : Nat)

/-- A field event changes the event sets alone. -/
theorem State.fieldEvent_rest : ∃ no set next, s.fieldEvent n =
    { s with fio := { s.fio with evtNo := no, evtSet := set, evtNext := next } } := by
  unfold State.fieldEvent
  dsimp only
  split
  · exact ⟨_, _, _, rfl⟩
  split
  · exact ⟨_, _, _, rfl⟩
  · exact ⟨_, _, _, rfl⟩

theorem State.evts_fieldEvent (hpower : s.powered 11 = true) :
    (s.fieldEvent n).fio.evts = s.fio.evts ||| (1 : BitVec 16) <<< n := by
  rw [State.fieldEvent, if_neg (by simp [hpower])]
  split
  · next h =>
    simp only [Fio.evts, h]
    rw [BitVec.or_comm]
    simp
  · exact (BitVec.or_assoc _ _ _).symm

theorem State.evts_fieldEvent_keeps {m : Nat} (h : s.fio.evts.getLsbD m = true) : (s.fieldEvent n).fio.evts.getLsbD m = true := by
  by_cases hpower : s.powered 11 = true
  · rw [s.evts_fieldEvent n hpower, BitVec.getLsbD_or, h, Bool.true_or]
  · rwa [State.fieldEvent, if_pos (by simpa using hpower)]

theorem State.evts_fieldEvent_same (hpower : s.powered 11 = true) (hn : n < 16) :
    (s.fieldEvent n).fio.evts.getLsbD n = true := by
  rw [s.evts_fieldEvent n hpower, BitVec.getLsbD_or, BitVec.getLsbD_shiftLeft]
  simp [hn]

end

/-! ## What the safety section's operations leave -/

/-- The safety section moves: beside it, the field side's events, the block latch, comparators and registers alone may change, and
events gathered stay. -/
structure SafMoved (s t : State) : Prop where
  rest : { t with saf := s.saf, fio := s.fio, flt := s.flt, isl := s.isl, regs := s.regs, setAt := s.setAt } = s
  fio : { t.fio with evtNo := s.fio.evtNo, evtSet := s.fio.evtSet, evtNext := s.fio.evtNext } = s.fio
  evt : ∀ m, s.fio.evts.getLsbD m = true → t.fio.evts.getLsbD m = true

namespace SafMoved

variable {s t u : State}

theorem refl (s : State) : SafMoved s s := ⟨rfl, rfl, fun _ => id⟩

theorem trans (h : SafMoved s t) (k : SafMoved t u) : SafMoved s u := by
  refine ⟨?_, ?_, fun m => k.evt m ∘ h.evt m⟩
  · exact (congrArg (fun v : State => { v with
      saf := s.saf, fio := s.fio, flt := s.flt, isl := s.isl, regs := s.regs, setAt := s.setAt }) k.rest :).trans h.rest
  · exact (congrArg (fun f : Fio => { f with
      evtNo := s.fio.evtNo, evtSet := s.fio.evtSet, evtNext := s.fio.evtNext }) k.fio :).trans h.fio

theorem powered (h : SafMoved s t) (d : Nat) : t.powered d = s.powered d := by
  have hsys := congrArg State.sys h.rest
  dsimp only at hsys
  rw [State.powered, hsys, State.powered]

theorem up (h : SafMoved s t) : t.sys.up = s.sys.up := (congrArg (fun v : State => v.sys.up) h.rest :)

theorem low (h : SafMoved s t) : t.fio.low = s.fio.low := (congrArg Fio.low h.fio :)

theorem fieldEvent (s : State) (n : Nat) : SafMoved s (s.fieldEvent n) := by
  refine ⟨?_, ?_, fun m => s.evts_fieldEvent_keeps n⟩
  · obtain ⟨no, set, next, h⟩ := s.fieldEvent_rest n
    rw [h]
  · obtain ⟨no, set, next, h⟩ := s.fieldEvent_rest n
    rw [h]

theorem setSafCh (s : State) (c : Nat) (x : SafCh) : SafMoved s (s.setSafCh c x) := ⟨rfl, rfl, fun _ => id⟩

theorem safNote (s : State) (b : Nat) : SafMoved s (s.safNote b) := ⟨rfl, rfl, fun _ => id⟩

theorem with_saf (s : State) (x : Saf) : SafMoved s { s with saf := x } := ⟨rfl, rfl, fun _ => id⟩

theorem safSwitch (s : State) (c so : Nat) (v : Bool) : SafMoved s (s.safSwitch c so v) := by
  unfold State.safSwitch
  extract_lets s1
  have h1 : SafMoved s s1 := .setSafCh s _ _
  split
  · exact h1
  · refine h1.trans (foldl_leaves .refl (fun _ _ _ => .trans) (fun t k _ => ?_) s1)
    dsimp only
    split
    · exact .setSafCh t _ _
    · exact .refl t

theorem safLook (s : State) : SafMoved s s.safLook := by
  unfold State.safLook
  extract_lets out earth _ s1
  have h1 : SafMoved s s1 := .with_saf s _
  clear_value earth
  split
  · split
    · exact (h1.trans (.fieldEvent _ _)).trans (.safNote _ _)
    split
    · exact h1.trans (.safNote _ _)
    · exact h1
  · exact h1

theorem safEval (s : State) (c : Nat) : SafMoved s (s.safEval c) := by
  unfold State.safEval
  split
  · exact (foldl_leaves (R := SafMoved) .refl (fun _ _ _ => .trans) (fun t k _ => .safSwitch t _ _ _) s).trans (.safLook _)
  · exact (foldl_leaves (R := SafMoved) .refl (fun _ _ _ => .trans) (fun t k _ => .safSwitch t _ _ _) s).trans (.safLook _)

theorem safBoth (s : State) : SafMoved s s.safBoth := (SafMoved.safEval s 0).trans (.safEval _ 1)

end SafMoved

/-! ## The fields of both frames (R731, R732) -/

section
variable (s : State) (slot : Nat)

/-- The fields of an up frame. -/
def State.upFields : List (Nat × Nat) :=
  let a := s.safCh 0
  let b := s.safCh 1
  let f := s.fio
  [(0x5AA5, 16), (f.slot.toNat, 8), (f.evtNo.toNat, 8), (f.ins.toNat, 32), (a.pairs.toNat, 8), (b.pairs.toNat, 8),
    ((a.disc ||| b.disc).toNat, 8), (s.saf.out.toNat, 8), (s.saf.fail.toNat, 8), (s.safStat, 16), (f.outs, 16),
    (f.ovl.toNat, 16), (f.evtSet.toNat, 16), (f.vsup.toNat, 16), (a.bank.toNat, 16), (s.safCauses.toNat, 16),
    (f.crc.toNat, 4), (f.lost.toNat, 4), (0, 16)]

theorem State.upFrame_eq : s.upFrame = isoFrame s.upFields := rfl

theorem State.upFields_width : fieldsWidth s.upFields = 240 := by simp [fieldsWidth, State.upFields]

/-- The fields of a down frame. -/
def State.downFields : List (Nat × Nat) :=
  [(0xA55A, 16), (slot, 8), (s.outsNow, 16), (65535 - s.outsNow, 16), (if s.iso.resume then 128 else 0, 8), (s.iso.ack.toNat, 8),
    (s.field Reg.FIO_CFG 8 4, 4), (s.field Reg.FIO_CFG 0 4, 4), (0, 8), (s.isoChunk, 8),
    (packFields ((s.chunkBytes s.isoChunk).map fun b => (b.toNat, 8)), 128), (s.field Reg.FIO_GANG 0 12, 12), (0, 4)]

theorem State.downFrame_eq : s.downFrame slot = isoFrame (s.downFields slot) := rfl

theorem State.downFields_width : fieldsWidth (s.downFields slot) = 240 := by simp [fieldsWidth, State.downFields]

end

/-! ## Outputs (R725, R727, R728, R736) -/

theorem Fio.outOn_of_low {f : Fio} (h : f.low = true) (n : Nat) : f.outOn n = false := by simp [Fio.outOn, h]

theorem Fio.outOn_of_heldOff {f : Fio} (h : f.heldOff = true) (n : Nat) : f.outOn n = false := by simp [Fio.outOn, h]

theorem Fio.outOn_of_ovl {f : Fio} {n : Nat} (h : f.ovl.getLsbD n = true) : f.outOn n = false := by simp [Fio.outOn, h]

theorem State.safOutOn_of_low {s : State} (h : s.fio.low = true) (so : Nat) : s.safOutOn so = false := by
  simp [State.safOutOn, h]

section
variable {s : State} (hpower : s.powered 11 = true)
include hpower

theorem answers_fieldInputChange (n : Fin 32) (level : Bool) {run : Nat} (hrun : s.fio.filt.toNat < run) :
    answers (.fieldInputChange n level run) s fun t => t.fio.ins.getLsbD n = level ∧
      (∀ m, m < 32 → m ≠ n.val → t.fio.ins.getLsbD m = s.fio.ins.getLsbD m) ∧ t.regs = s.regs := by
  refine ⟨_, if_pos ⟨hpower, hrun⟩, ?_⟩
  have hone : ∀ m, m < 32 → ((1 : BitVec 32) <<< n.val).getLsbD m = decide (m = n.val) := by
    intro m hm
    rw [BitVec.getLsbD_shiftLeft]
    by_cases h : m = n.val
    · simp [h, n.isLt]
    · by_cases hlt : m < n.val
      · simp [hlt, h]
      · have hsub : m - n.val ≠ 0 := by omega
        simp [hm, hlt, h, hsub]
  cases level
  · have hoff : ∀ m, m < 32 → (s.fio.ins &&& ~~~ ((1 : BitVec 32) <<< n.val)).getLsbD m =
        (s.fio.ins.getLsbD m && !decide (m = n.val)) := fun m hm => by
      rw [BitVec.getLsbD_and, BitVec.getLsbD_not, hone m hm]
      simp [hm]
    exact ⟨(hoff n n.isLt).trans (by simp), fun m hm hne => (hoff m hm).trans (by simp [hne]), rfl⟩
  · have hon : ∀ m, m < 32 → (s.fio.ins ||| ((1 : BitVec 32) <<< n.val)).getLsbD m =
        (s.fio.ins.getLsbD m || decide (m = n.val)) := fun m hm => by
      rw [BitVec.getLsbD_or, hone m hm]
    exact ⟨(hon n n.isLt).trans (by simp), fun m hm hne => (hon m hm).trans (by simp [hne]), rfl⟩

theorem answers_outputOverload (n : Fin 16) (hon : s.fio.outOn n = true) : answers (.outputOverload n) s fun t =>
    (∀ m, m < 16 → t.fio.ovl.getLsbD m = (s.fio.ovl.getLsbD m || s.fio.lead m == s.fio.lead n)) ∧
    (∀ m, m < 16 → s.fio.lead m = s.fio.lead n → t.fio.outOn m = false) ∧ (t.fio.evtSet ||| t.fio.evtNext).getLsbD 2 = true := by
  let u : State := { s with fio := s.fio.overload n }
  have hovl : ∀ m, m < 16 → (u.fieldEvent 2).fio.ovl.getLsbD m = (s.fio.ovl.getLsbD m || s.fio.lead m == s.fio.lead n) := by
    intro m hm
    obtain ⟨no, set, next, h⟩ := u.fieldEvent_rest 2
    rw [h]
    exact (BitVec.getLsbD_or).trans (congrArg (s.fio.ovl.getLsbD m || ·) (getLsbD_flags _ hm))
  refine ⟨_, if_pos ⟨hpower, hon⟩, hovl, fun m hm hlead => Fio.outOn_of_ovl ?_, u.evts_fieldEvent_same 2 hpower (by decide)⟩
  rw [hovl m hm, hlead]
  simp

theorem answers_fieldSupplyLow {v : BitVec 16} (hlow : s.fio.low = false) (hv : v.toNat < 1800) :
    answers (.fieldSupplyLow v) s fun t => t.fio.low = true ∧ t.fio.vsup = v ∧
      (∀ m, m < 16 → t.fio.outOn m = false) ∧ (∀ so, t.safOutOn so = false) ∧
      (t.fio.evtSet ||| t.fio.evtNext).getLsbD 3 = true := by
  let u : State := { s with fio := { s.fio with low := true, vsup := v } }
  have hmoved : SafMoved u (u.fieldEvent 3).safLook := (SafMoved.fieldEvent u 3).trans (.safLook _)
  have hon : (u.fieldEvent 3).safLook.fio.low = true := hmoved.low
  refine ⟨_, if_neg ?_, hon, (congrArg Fio.vsup hmoved.fio :), fun m _ => Fio.outOn_of_low hon m, State.safOutOn_of_low hon,
    (SafMoved.safLook _).evt 3 (u.evts_fieldEvent_same 3 hpower (by decide))⟩
  simp [hpower, hlow, hv]

theorem answers_fieldSupplyRecover {v : BitVec 16} (hlow : s.fio.low = true) (hv : 1900 ≤ v.toNat) :
    answers (.fieldSupplyRecover v) s fun t => t.fio.low = false ∧ t.fio.vsup = v := by
  let u : State := { s with fio := { s.fio with low := false, vsup := v } }
  have hmoved : SafMoved u u.safBoth := .safBoth u
  refine ⟨_, if_neg ?_, hmoved.low, (congrArg Fio.vsup hmoved.fio :)⟩
  simp [hpower, hlow, hv]

/-! ## Up frames on the field side, and down frames taken there (R732 to R738) -/

theorem answers_fieldUpFrameSend : answers .fieldUpFrameSend s fun t => { t with fio := s.fio } = s ∧
    lineField t.fio.up 0 16 = 0x5AA5 ∧ lineField t.fio.up 24 8 = s.fio.evtNo.toNat ∧ lineField t.fio.up 32 32 = s.fio.ins.toNat ∧
    lineField t.fio.up 152 16 = s.fio.evtSet.toNat ∧ isoCrcOk t.fio.up = true := by
  refine ⟨_, if_pos hpower, rfl, ?_⟩
  change lineField s.upFrame 0 16 = _ ∧ lineField s.upFrame 24 8 = _ ∧ lineField s.upFrame 32 32 = _ ∧
    lineField s.upFrame 152 16 = _ ∧ isoCrcOk s.upFrame = true
  rw [s.upFrame_eq]
  refine ⟨lineField_isoFrame s.upFields_width (i := 0) rfl rfl,
    (lineField_isoFrame s.upFields_width (i := 2) rfl rfl).trans (Nat.mod_eq_of_lt s.fio.evtNo.isLt),
    (lineField_isoFrame s.upFields_width (i := 3) rfl rfl).trans (Nat.mod_eq_of_lt s.fio.ins.isLt),
    (lineField_isoFrame s.upFields_width (i := 12) rfl rfl).trans (Nat.mod_eq_of_lt s.fio.evtSet.isLt),
    isoCrcOk_isoFrame s.upFields_width⟩

theorem exec_fieldDownFrameReceive (d : BitVec 256) : exec (.fieldDownFrameReceive d) s = .next (s.downReceive d) := if_pos hpower

theorem exec_fieldDownFrameLost : exec .fieldDownFrameLost s = .next s.downLost := if_pos hpower

omit hpower in
/-- A down frame lost (R734, R736). -/
theorem State.downLost_spec (s : State) : s.downLost.fio.lostRow = s.fio.lostRow + 1 ∧ s.downLost.fio.lost = s.fio.lost + 1 ∧
    s.downLost.fio.heldOff = (s.fio.heldOff || s.fio.lostRow + 1 == 3) ∧ s.downLost.fio.out = s.fio.out ∧
    s.downLost.sys = s.sys := by
  unfold State.downLost
  extract_lets f s1 _
  split
  · next h =>
    obtain ⟨no, set, next, hevt⟩ := State.fieldEvent_rest { s1 with fio := { s1.fio with heldOff := true } } 0
    have h' : s.fio.lostRow + 1 = 3 := h
    rw [State.fioNote, hevt]
    exact ⟨rfl, rfl, by simp [h'], rfl, rfl⟩
  · next h =>
    have h' : s.fio.lostRow + 1 ≠ 3 := h
    refine ⟨rfl, rfl, ?_, rfl, rfl⟩
    change s.fio.heldOff = (s.fio.heldOff || s.fio.lostRow + 1 == 3)
    rw [beq_eq_false_iff_ne.2 h', Bool.or_false]

theorem answers_downFrame_badCrc {d : BitVec 256} (hcrc : isoCrcOk d = false) : answers (.fieldDownFrameReceive d) s fun t =>
    t.fio.crc = s.fio.crc + 1 ∧ t.fio.out = s.fio.out ∧ t.fio.heldOff = s.fio.heldOff ∧
      (t.fio.evtSet ||| t.fio.evtNext).getLsbD 1 = true := by
  let u : State := { s with fio := { s.fio with crc := s.fio.crc + 1 } }
  have heq : s.downReceive d = u.fieldEvent 1 := if_pos hcrc
  obtain ⟨no, set, next, hevt⟩ := u.fieldEvent_rest 1
  have hbit := u.evts_fieldEvent_same 1 hpower (by decide)
  refine ⟨_, exec_fieldDownFrameReceive hpower d, ?_⟩
  rw [heq]
  rw [hevt] at hbit ⊢
  exact ⟨rfl, rfl, rfl, hbit⟩

theorem answers_downFrame_badPair {d : BitVec 256} (hcrc : isoCrcOk d = true) (hsync : lineField d 0 16 = 0xA55A)
    (hpair : lineField d 24 16 + lineField d 40 16 ≠ 65535) : answers (.fieldDownFrameReceive d) s fun t =>
    t.fio.lost = s.fio.lost + 1 ∧ t.fio.out = s.fio.out ∧ (t.fio.evtSet ||| t.fio.evtNext).getLsbD 1 = true := by
  have heq : s.downReceive d = s.downLost.fieldEvent 1 := by
    rw [State.downReceive, if_neg (by simp [hcrc]), if_neg (not_not.2 hsync), if_pos hpair]
  obtain ⟨-, hlost, -, hout, hsys⟩ := s.downLost_spec
  obtain ⟨no, set, next, hevt⟩ := s.downLost.fieldEvent_rest 1
  have hbit := s.downLost.evts_fieldEvent_same 1 (by rwa [State.powered, hsys]) (by decide)
  refine ⟨_, exec_fieldDownFrameReceive hpower d, ?_⟩
  rw [heq]
  rw [hevt] at hbit ⊢
  exact ⟨hlost, hout, hbit⟩

omit hpower in
theorem Fio.acked_rest (f : Fio) (n : BitVec 8) : ∃ no set next, f.acked n = { f with evtNo := no, evtSet := set, evtNext := next } := by
  unfold Fio.acked
  split
  · exact ⟨_, _, _, rfl⟩
  split <;> exact ⟨_, _, _, rfl⟩

theorem answers_downFrame_taken {d : BitVec 256} (hcrc : isoCrcOk d = true) (hsync : lineField d 0 16 = 0xA55A)
    (hpair : lineField d 24 16 + lineField d 40 16 = 65535) : answers (.fieldDownFrameReceive d) s fun t =>
    t.fio.out = BitVec.ofNat 16 (lineField d 24 16) ∧ t.fio.lostRow = 0 ∧
      t.fio.gang = BitVec.ofNat 12 (lineField d 224 12) ∧ t.fio.slot = BitVec.ofNat 8 (lineField d 16 8) ∧
      t.fio.heldOff = (s.fio.heldOff && lineField d 56 1 == 0) ∧ t.fio.ovl = s.fio.ovl := by
  have heq : s.downReceive d = s.downTake d := by
    rw [State.downReceive, if_neg (by simp [hcrc]), if_neg (not_not.2 hsync), if_neg (not_not.2 hpair)]
  have hheld : (s.fio.heldOff && !(s.fio.heldOff && lineField d 56 1 == 1)) = (s.fio.heldOff && lineField d 56 1 == 0) := by
    have hlt := lineField_lt d 56 1
    rcases (by omega : lineField d 56 1 = 0 ∨ lineField d 56 1 = 1) with h | h <;> rw [h] <;> cases s.fio.heldOff <;> rfl
  refine ⟨_, exec_fieldDownFrameReceive hpower d, ?_⟩
  rw [heq]
  unfold State.downTake
  extract_lets f go f1 s1
  obtain ⟨no, set, next, hack⟩ := f1.acked_rest (BitVec.ofNat 8 (lineField d 64 8))
  have hs1 : s1 = { s with fio := { f1 with evtNo := no, evtSet := set, evtNext := next } } :=
    congrArg (fun f : Fio => { s with fio := f }) hack
  clear_value s1
  subst hs1
  split
  · exact ⟨rfl, rfl, rfl, rfl, hheld, rfl⟩
  · exact ⟨rfl, rfl, rfl, rfl, hheld, rfl⟩

end

/-! ## FIO_OUT and the down frame (R731, R740) -/

section
variable {s : State}

theorem State.outsNow_of_other (h : ∀ t o, s.iso.outWas = some (t, o) → t ≠ s.now) : s.outsNow = s.field Reg.FIO_OUT 0 16 := by
  unfold State.outsNow
  split
  · next t o hw => exact if_neg (h t o hw)
  · rfl

/-- What FIO_OUT held before this tick, as a write of it notes it. -/
theorem State.fioOut_outWas (s : State) (v : Word) : (s.fioOut v).iso.outWas = some (s.now, BitVec.ofNat 16 s.outsNow) := by
  unfold State.fioOut State.outsNow
  dsimp only
  split
  · split <;> simp
  · rfl

theorem State.outsNow_lt (s : State) : s.outsNow < 65536 := by
  unfold State.outsNow
  split
  · split
    · exact BitVec.isLt _
    · exact s.field_lt _ 0 16
  · exact s.field_lt _ 0 16

theorem State.outsNow_fioOut (s : State) (v : Word) : (s.fioOut v).outsNow = s.outsNow := by
  have hnow : (s.fioOut v).now = s.now := rfl
  have hlt := s.outsNow_lt
  rw [State.outsNow, s.fioOut_outWas v, hnow]
  dsimp only
  rw [if_pos rfl, BitVec.toNat_ofNat, Nat.mod_eq_of_lt hlt]

theorem State.now_elapse (s : State) (n : Nat) (hgo : s.sys.going = true) : (s.elapse n).now = s.now + BitVec.ofNat 64 n := by
  obtain ⟨-, hvt, hrest, -⟩ := s.elapse_spec n
  have htwn := congrArg State.twn hrest
  dsimp only at htwn
  rw [State.now, hvt, htwn, if_pos hgo, State.now, BitVec.add_assoc, BitVec.add_comm (BitVec.ofNat 64 n), ← BitVec.add_assoc]

/-- A write of FIO_OUT of an earlier tick goes out. -/
theorem State.outsNow_later (s : State) (v : Word) {n : Nat} (hpos : 0 < n) (hlt : n < 2 ^ 64) (hgo : s.sys.going = true) :
    ((s.fioOut v).elapse n).outsNow = fieldOf v 0 16 := by
  obtain ⟨-, -, hrest, -⟩ := (s.fioOut v).elapse_spec n
  have hiso := congrArg State.iso hrest
  have hregs := congrArg State.regs hrest
  dsimp only at hiso hregs
  have hnow := (s.fioOut v).now_elapse n hgo
  rw [State.outsNow_of_other]
  · rw [State.field, State.rd, hregs]
    change fieldOf ((s.wr Reg.FIO_OUT (v &&& 0xFFFF)).rd Reg.FIO_OUT) 0 16 = _
    rw [State.rd_wr_same, fieldOf, fieldOf, BitVec.toNat_and]
    change (v.toNat &&& (2 ^ 16 - 1)) / _ % _ = _
    rw [Nat.and_two_pow_sub_one_eq_mod]
    omega
  · intro t o ht
    rw [hiso, s.fioOut_outWas v] at ht
    obtain ⟨rfl, -⟩ := Prod.mk.inj (Option.some.inj ht)
    rw [hnow]
    intro heq
    have hzero : BitVec.ofNat 64 n = 0 := by
      have hadd : (s.fioOut v).now + BitVec.ofNat 64 n = (s.fioOut v).now + 0 := heq.symm.trans (BitVec.add_zero _).symm
      exact (BitVec.add_right_inj _).1 hadd
    have hn := congrArg BitVec.toNat hzero
    rw [BitVec.toNat_ofNat, Nat.mod_eq_of_lt hlt] at hn
    exact absurd hn (by simpa using hpos.ne')

theorem answers_downFrameSend {s1 : State} (hmain : s.powered 1 = true) (hgo : s.sys.going = true) (hpower : s.powered 11 = true)
    (hlate : s.now.toNat + 10000 < 2 ^ 64) (hs1 : s1 = s.elapse ((10000 - s.now.toNat % 10000) % 10000)) :
    answers .downFrameSend s fun t => t.now.toNat = (s.now.toNat + 9999) / 10000 * 10000 ∧ t.iso.resume = false ∧
      lineField t.fio.down 0 16 = 0xA55A ∧ lineField t.fio.down 16 8 = t.now.toNat / 10000 % 256 ∧
      lineField t.fio.down 24 16 = s1.outsNow ∧ lineField t.fio.down 40 16 = 65535 - s1.outsNow ∧
      lineField t.fio.down 56 8 = (if s.iso.resume then 128 else 0) ∧ lineField t.fio.down 64 8 = s.iso.ack.toNat ∧
      isoCrcOk t.fio.down = true := by
  obtain ⟨-, -, hrest, -, hsys, -⟩ := s.elapse_spec ((10000 - s.now.toNat % 10000) % 10000)
  have hnow := s.now_elapse ((10000 - s.now.toNat % 10000) % 10000) hgo
  rw [← hs1] at hrest hnow hsys
  have hiso := congrArg State.iso hrest
  dsimp only at hiso
  have hpower1 : s1.powered 11 = true := by
    have hpd := congrArg Sys.pdOn hsys
    dsimp only at hpd
    rwa [State.powered, hpd]
  have hexec : exec .downFrameSend s = .next s1.downSend := by
    change (if s.powered 1 = false ∨ s.sys.going = false then _ else _) = _
    rw [if_neg (by simp [hmain, hgo]), hs1]
  have hfio : s1.downSend.fio.down = s1.downFrame (s1.now.toNat / 10000) := by
    change (if s1.powered 11 then _ else _ : Fio).down = _
    rw [if_pos hpower1]
  have hout := s1.outsNow_lt
  refine ⟨_, hexec, ?_, rfl, ?_⟩
  · change s1.now.toNat = _
    rw [hnow, BitVec.toNat_add, BitVec.toNat_ofNat]
    omega
  · rw [hfio]
    change lineField (s1.downFrame _) 0 16 = _ ∧ lineField (s1.downFrame _) 16 8 = s1.now.toNat / 10000 % 256 ∧ _
    rw [← hiso]
    have hwidth := s1.downFields_width (s1.now.toNat / 10000)
    rw [State.downFrame_eq]
    refine ⟨lineField_isoFrame hwidth (i := 0) rfl rfl, lineField_isoFrame hwidth (i := 1) rfl rfl,
      (lineField_isoFrame hwidth (i := 2) rfl rfl).trans (Nat.mod_eq_of_lt hout),
      (lineField_isoFrame hwidth (i := 3) rfl rfl).trans (Nat.mod_eq_of_lt (by omega)),
      (lineField_isoFrame hwidth (i := 4) rfl rfl).trans (Nat.mod_eq_of_lt ?_),
      (lineField_isoFrame hwidth (i := 5) rfl rfl).trans (Nat.mod_eq_of_lt s1.iso.ack.isLt), isoCrcOk_isoFrame hwidth⟩
    split <;> decide

end

/-! ## The supervisor's end (R733 to R736) -/

section
variable {s : State} (hopen : s.open .fio = true)
include hopen

theorem exec_upFrameReceive (u : BitVec 256) : exec (.upFrameReceive u) s = .next (s.upReceive u) :=
  State.via_of_open s (fun t => t.upReceive u) hopen

theorem exec_upFrame_badCrc {u : BitVec 256} (hcrc : isoCrcOk u = false) :
    ∃ w : State, w.field Reg.FIO_LINK_CNT 16 16 = satAdd (s.field Reg.FIO_LINK_CNT 16 16) 1 0xFFFF ∧
      w.bitOf Reg.FIO_EVT 1 = true ∧ onlyRegs s w [Reg.FIO_LINK_CNT, Reg.FIO_EVT] ∧
      exec (.upFrameReceive u) s = .next (w.raise 225) := by
  refine ⟨(s.addField Reg.FIO_LINK_CNT 16 16 1).setBit Reg.FIO_EVT 1, ?_, State.bitOf_setBit_same _ _ (by decide),
    onlyRegs_trans (s.wr_onlyRegs _ _) (State.setBits_onlyRegs _ _ _), ?_⟩
  · rw [State.field_congr (State.rd_setBit_other _ _ _ _ (by decide))]
    exact State.field_addField_same _ _ _ (by decide)
  · rw [exec_upFrameReceive hopen, State.upReceive, if_pos hcrc]

theorem exec_upFrame_good {u : BitVec 256} (hcrc : isoCrcOk u = true) (hsync : lineField u 0 16 = 0x5AA5) :
    exec (.upFrameReceive u) s = .next (((s.fioShow u).safShow u).isoEvents u) := by
  rw [exec_upFrameReceive hopen, State.upReceive, if_neg (by simp [hcrc]), if_neg (not_not.2 hsync)]

end

section
variable (s : State) (u : BitVec 256)

theorem State.rd_setBitIf_other (c : Bool) {a b : Nat} (i : Nat) (h : b ≠ a) : (s.setBitIf c a i).rd b = s.rd b :=
  s.setBitIf_regsBut c a i b (by simpa using h)

/-- What the FIO registers show of an up frame (R735). -/
theorem State.fioShow_spec : (s.fioShow u).rd Reg.FIO_IN = BitVec.ofNat 32 (lineField u 32 32) ∧
    (s.fioShow u).iso.stale = false ∧ (s.fioShow u).iso.lostRow = 0 ∧ (s.fioShow u).iso.ack = s.iso.ack := by
  unfold State.fioShow
  extract_lets ins changed s1 s2 s3 was now s4 s5
  have hiso : s1.iso = s.iso := by
    unfold s1 State.setBitIf
    split <;> rfl
  refine ⟨?_, rfl, rfl, ?_⟩
  case refine_2 =>
    change s1.iso.ack = _
    rw [hiso]
  change (s4.wr Reg.FIO_EVT _).rd Reg.FIO_IN = _
  rw [State.rd_wr_other _ _ _ _ (by decide), State.rd_addField_other _ _ _ _ _ _ (by decide),
    State.rd_addField_other _ _ _ _ _ _ (by decide), State.rd_wr_other _ _ _ _ (by decide),
    State.rd_wr_other _ _ _ _ (by decide), State.rd_setBitIf_other _ _ _ (by decide), State.rd_wr_other _ _ _ _ (by decide),
    State.rd_wr_same]

/-- The writes that show a block. -/
def State.blockWrites (s : State) (crc roles funcs pulse reset disch : Word) (disc : Nat → Word) : State :=
  (List.range 8).foldl (fun (t : State) i => t.wr (Reg.SAF_T_DISC i) (disc i))
    ((((((s.wr Reg.SAF_PB_CRC crc).wr Reg.SAF_ROLES roles).wr Reg.SAF_FUNCS funcs).wr Reg.SAF_PULSE pulse).wr
      Reg.SAF_RESET_CFG reset).wr Reg.SAF_T_DISCH disch)

theorem State.safShowBlock_eq (ok : Bool) : ∃ crc roles funcs pulse reset disch disc,
    s.safShowBlock ok = s.blockWrites crc roles funcs pulse reset disch disc := ⟨_, _, _, _, _, _, _, rfl⟩

/-- The registers that show the block lie above the others. -/
theorem State.safShowBlock_leaves (ok : Bool) : (∀ a, a < Reg.SAF_PB_CRC → (s.safShowBlock ok).rd a = s.rd a) ∧
    (s.safShowBlock ok).iso = s.iso := by
  obtain ⟨crc, roles, funcs, pulse, reset, disch, disc, heq⟩ := s.safShowBlock_eq ok
  rw [heq]
  unfold State.blockWrites
  obtain ⟨hrd, hiso⟩ := foldl_leaves
    (R := fun t w => (∀ a, a < Reg.SAF_PB_CRC → w.rd a = t.rd a) ∧ w.iso = t.iso) (fun _ => ⟨fun _ _ => rfl, rfl⟩)
    (fun _ _ _ h k => ⟨fun a ha => (k.1 a ha).trans (h.1 a ha), k.2.trans h.2⟩)
    (f := fun (t : State) i => t.wr (Reg.SAF_T_DISC i) (disc i)) (l := List.range 8)
    (fun t i _ => ⟨fun a ha => State.rd_wr_other _ _ _ _
      (Nat.ne_of_lt (ha.trans (by unfold Reg.SAF_PB_CRC Reg.SAF_T_DISC; omega))), rfl⟩)
    ((((((s.wr Reg.SAF_PB_CRC crc).wr Reg.SAF_ROLES roles).wr Reg.SAF_FUNCS funcs).wr Reg.SAF_PULSE pulse).wr
      Reg.SAF_RESET_CFG reset).wr Reg.SAF_T_DISCH disch)
  refine ⟨fun a ha => (hrd a ha).trans ?_, hiso⟩
  have hne : ∀ b, Reg.SAF_PB_CRC ≤ b → a ≠ b := fun b hb => Nat.ne_of_lt (ha.trans_le hb)
  rw [State.rd_wr_other _ _ _ _ (hne _ (by decide)), State.rd_wr_other _ _ _ _ (hne _ (by decide)),
    State.rd_wr_other _ _ _ _ (hne _ (by decide)), State.rd_wr_other _ _ _ _ (hne _ (by decide)),
    State.rd_wr_other _ _ _ _ (hne _ (by decide)), State.rd_wr_other _ _ _ _ (hne _ (by decide))]

/-- The writes of an up frame to the SAF registers below the block's (R743). -/
theorem State.safShow_eq : ∃ (w : State) (ok : Bool), (∀ a, (s.safShow u).rd a = (w.safShowBlock ok).rd a) ∧
    (s.safShow u).iso = (w.safShowBlock ok).iso ∧ w.iso = s.iso ∧
    ∀ a, a ∉ [Reg.SAF_EVT, Reg.SAF_PAIR, Reg.SAF_SO, Reg.SAF_CAUSE, Reg.SAF_BANK, Reg.SAF_CNT, Reg.SAF_TEST_CNT] →
      w.rd a = (s.wr Reg.SAF_STAT (BitVec.ofNat 32 (lineField u 104 16))).rd a := by
  unfold State.safShow
  extract_lets n ok crc s1 s2 s3 s4 s5 s6 w
  have hw : w = s6.safShowBlock ok := rfl
  have hiso : s6.iso = s.iso := by
    have hset : s1.iso = (s.wr Reg.SAF_STAT (BitVec.ofNat 32 (lineField u 104 16))).iso := rfl
    simp only [s6, s5, s4, s3, s2, State.addField_iso, State.wr_iso, hset]
  refine ⟨s6, ok, ?_⟩
  rw [← hw]
  clear_value w
  refine ⟨fun _ => rfl, rfl, hiso, fun a ha => ?_⟩
  simp only [List.mem_cons, List.not_mem_nil, or_false, not_or] at ha
  obtain ⟨hevt, hpair, hso, hcause, hbank, hcnt, htest⟩ := ha
  rw [State.rd_addField_other _ _ _ _ _ _ htest, State.rd_addField_other _ _ _ _ _ _ htest,
    State.rd_addField_other _ _ _ _ _ _ hcnt, State.rd_addField_other _ _ _ _ _ _ hcnt, State.rd_wr_other _ _ _ _ hbank,
    State.rd_wr_other _ _ _ _ hcause, State.rd_wr_other _ _ _ _ hso, State.rd_wr_other _ _ _ _ hpair]
  exact (State.setBits_onlyRegs _ _ _).2.1 a (by simpa using hevt)

/-- What the SAF registers show of an up frame (R743). -/
theorem State.safShow_spec : (s.safShow u).rd Reg.SAF_STAT = BitVec.ofNat 32 (lineField u 104 16) ∧
    (s.safShow u).rd Reg.FIO_IN = s.rd Reg.FIO_IN ∧ (s.safShow u).iso = s.iso := by
  obtain ⟨w, ok, hread, hshow, hiso, hrd⟩ := s.safShow_eq u
  obtain ⟨hblock, hblockIso⟩ := w.safShowBlock_leaves ok
  refine ⟨?_, ?_, ?_⟩
  · rw [hread, hblock _ (by decide), hrd _ (by decide), State.rd_wr_same]
  · rw [hread, hblock _ (by decide), hrd _ (by decide), State.rd_wr_other _ _ _ _ (by decide)]
  · rw [hshow, hblockIso, hiso]

/-- The sources of a new event set are raised, and its number is the one acknowledged (R738). -/
theorem State.isoEvents_ack : (s.isoEvents u).iso.ack = BitVec.ofNat 8 (lineField u 24 8) := by
  unfold State.isoEvents
  extract_lets no set _ s1 s2
  split
  · next h => exact h.symm
  · have hiso : s2.iso = s1.iso := by
      unfold s2 State.setBitIf
      split <;> split <;> split <;> split <;> rfl
    refine (congrArg Iso.ack (foldl_leaves (R := fun t w => w.iso = t.iso) (fun _ => rfl) (fun _ _ _ h k => k.trans h)
      (fun t n _ => ?_) s2)).trans (congrArg Iso.ack hiso)
    split
    · exact (t.raise_farBut _).iso
    · rfl

end

section
variable {s : State} (hopen : s.open .fio = true)
include hopen

theorem answers_upFrame_known {u : BitVec 256} (hcrc : isoCrcOk u = true) (hsync : lineField u 0 16 = 0x5AA5)
    (hack : lineField u 24 8 = s.iso.ack.toNat) : answers (.upFrameReceive u) s fun t =>
    t.rd Reg.FIO_IN = BitVec.ofNat 32 (lineField u 32 32) ∧ t.rd Reg.SAF_STAT = BitVec.ofNat 32 (lineField u 104 16) ∧
      t.iso.stale = false ∧ t.iso.lostRow = 0 ∧ t.iso.ack = s.iso.ack := by
  obtain ⟨hin, hstale, hrow, hackFio⟩ := s.fioShow_spec u
  obtain ⟨hstat, hinSaf, hiso⟩ := (s.fioShow u).safShow_spec u
  have hsame : ((s.fioShow u).safShow u).isoEvents u = (s.fioShow u).safShow u := by
    refine if_pos ?_
    rw [hiso, hackFio, hack, BitVec.ofNat_toNat, BitVec.setWidth_eq]
  refine ⟨_, exec_upFrame_good hopen hcrc hsync, ?_⟩
  rw [hsame]
  exact ⟨hinSaf.trans hin, hstat, hiso ▸ hstale, hiso ▸ hrow, hiso ▸ hackFio⟩

omit hopen in
/-- An up frame lost (R734, R735). -/
theorem State.upLost_spec (s : State) : s.upLost.iso.lostRow = s.iso.lostRow + 1 ∧
    s.upLost.iso.stale = (s.iso.stale || s.iso.lostRow + 1 == 3) := by
  by_cases h : s.iso.lostRow + 1 = 3
  · obtain ⟨x, heq, hx⟩ : ∃ x : State, s.upLost = x.raise 224 ∧
        x.iso = { s.iso with lostRow := s.iso.lostRow + 1, up := false, stale := true } := ⟨_, if_pos h, rfl⟩
    rw [heq, (x.raise_farBut 224).iso, hx, h]
    simp
  · obtain ⟨x, heq, hx⟩ : ∃ x : State, s.upLost = x ∧ x.iso = { s.iso with lostRow := s.iso.lostRow + 1, up := false } :=
      ⟨_, if_neg h, rfl⟩
    rw [heq, hx, beq_eq_false_iff_ne.2 h, Bool.or_false]
    exact ⟨rfl, rfl⟩

theorem answers_upFrameLost (hslot : s.iso.slotOk ≠ some (s.now.toNat / 10000)) : answers .upFrameLost s fun t =>
    t.iso.lostRow = s.iso.lostRow + 1 ∧ t.iso.stale = (s.iso.stale || s.iso.lostRow + 1 == 3) := by
  obtain ⟨-, -, hrest, -⟩ := s.elapse_spec (8400 - s.now.toNat % 10000)
  have hiso := congrArg State.iso hrest
  dsimp only at hiso
  refine ⟨_, if_neg (by simp [hopen, hslot]), ?_⟩
  rw [← hiso]
  exact State.upLost_spec _

end

end Sys2Proof.Machine

namespace Sys2Proof.FieldIo

open Sys2Proof.Machine Sys2Proof.Safety

/-- Settles O57, command by command. -/
theorem fieldLinkFramesAndOutputs : Obligations.FieldLinkFramesAndOutputs := by
  refine ⟨fun n level run s hpower => ⟨answers_fieldInputChange hpower n level, fun hrun => if_neg fun h => Nat.not_lt.2 hrun h.2⟩,
    fun n s hpower => answers_outputOverload hpower n,
    fun v s hpower => ⟨answers_fieldSupplyLow hpower, answers_fieldSupplyRecover hpower,
      fun _ hv => if_pos (.inr (.inr hv))⟩,
    fun s s1 hmain hgo hpower hlate => answers_downFrameSend hmain hgo hpower hlate,
    fun v s hother => ⟨State.outsNow_of_other hother, State.rd_wr_same _ _ _, ?_, fun w => ?_,
      fun n hpos hlt hgo => s.outsNow_later v hpos hlt hgo⟩,
    fun s hpower => answers_fieldUpFrameSend hpower,
    fun u s hopen => ⟨exec_upFrame_badCrc hopen, answers_upFrame_known hopen,
      fun hcrc hsync => ⟨_, exec_upFrame_good hopen hcrc hsync, State.isoEvents_ack _ u⟩, answers_upFrameLost hopen,
      ⟨_, State.via_of_open s State.fioResume hopen, rfl⟩,
      fun v => ⟨_, State.via_of_open s (fun t => t.fioOvlClr v) hopen, rfl⟩⟩,
    fun d s hpower => ⟨answers_downFrame_badCrc hpower, answers_downFrame_badPair hpower, answers_downFrame_taken hpower, ?_⟩⟩
  · rw [State.outsNow_fioOut, State.outsNow_of_other hother]
  · rw [State.outsNow_fioOut, State.outsNow_fioOut, State.outsNow_of_other hother]
  · obtain ⟨hrow, hlost, hheld, -⟩ := s.downLost_spec
    refine ⟨_, exec_fieldDownFrameLost hpower, hrow, hlost, hheld, fun hthird m => Fio.outOn_of_heldOff ?_ m⟩
    rw [hheld, hthird]
    simp

end Sys2Proof.FieldIo
end

section
/-! The precision converter (R747 to R764): what a round, an injection and a result make of each modulator and of the registers,
and each command's answer. -/

namespace Sys2Proof.Machine

open Sys2Proof.Safety

/-! ## A loop over the modulators -/

/-- From `s` to `t` only modulators have changed. -/
def AdcMods (s t : State) : Prop := ∃ l, t = { s with adc := { s.adc with mods := l } }

namespace AdcMods

variable {s t u : State}

theorem refl (s : State) : AdcMods s s := ⟨s.adc.mods, rfl⟩

theorem trans (h : AdcMods s t) (k : AdcMods t u) : AdcMods s u := by
  obtain ⟨l, rfl⟩ := h
  obtain ⟨l', rfl⟩ := k
  exact ⟨l', rfl⟩

theorem setAdcMod (s : State) (m : Nat) (x : AdcMod) : AdcMods s (s.setAdcMod m x) := ⟨_, rfl⟩

variable (h : AdcMods s t)
include h

theorem regs : t.regs = s.regs := by obtain ⟨l, rfl⟩ := h; rfl
theorem now : t.now = s.now := by obtain ⟨l, rfl⟩ := h; rfl
theorem run : t.adc.run = s.adc.run := by obtain ⟨l, rfl⟩ := h; rfl
theorem jbusy : t.adc.jbusy = s.adc.jbusy := by obtain ⟨l, rfl⟩ := h; rfl
theorem entries (m : Nat) : t.adcEntries m = s.adcEntries m := by obtain ⟨l, rfl⟩ := h; rfl
theorem jEntries (m : Nat) : t.adcJEntries m = s.adcJEntries m := by obtain ⟨l, rfl⟩ := h; rfl
theorem free (x : AdcMod) (at_ : BitVec 64) : t.adcFree x at_ = s.adcFree x at_ := by obtain ⟨l, rfl⟩ := h; rfl

end AdcMods

/-- From `s` to `t` only modulators other than `m` have changed. -/
def AdcOthers (m : Nat) (s t : State) : Prop := AdcMods s t ∧ t.adcMod m = s.adcMod m

theorem AdcOthers.refl (m : Nat) (s : State) : AdcOthers m s s := ⟨.refl s, rfl⟩

theorem AdcOthers.trans {m : Nat} {s t u : State} (h : AdcOthers m s t) (k : AdcOthers m t u) : AdcOthers m s u :=
  ⟨h.1.trans k.1, k.2.trans h.2⟩

/-- A loop over the modulators does with modulator `m` what its own step does. -/
theorem adcMods_foldl {f : State → Nat → State} {m : Nat} (hm : m < 4) (hf : ∀ t k, k ≠ m → AdcOthers m t (f t k)) (s : State) :
    ∃ u, AdcOthers m s u ∧ ((List.range 4).foldl f s).adcMod m = (f u m).adcMod m := by
  obtain ⟨u, r, hbefore, -, hafter, -⟩ := foldl_at (R := AdcOthers m) (AdcOthers.refl m) (fun _ _ _ => AdcOthers.trans)
    (fun t k _ hk => hf t k hk) List.nodup_range (List.mem_range.2 hm) s
  exact ⟨u, hbefore, hafter.2⟩

/-! ## A round -/

/-- What a round makes of a modulator: it waits for its first entry (R753). -/
def State.adcBegun (s : State) (m : Nat) (at_ : BitVec 64) : AdcMod :=
  { s.adcMod m with
    cur := (s.adcEntries m).head?.map fun e => ⟨e, s.adcFree (s.adcMod m) at_⟩, todo := (s.adcEntries m).tail }

/-- A round is a loop that begins each modulator. -/
theorem State.adcRound_loop (s : State) (at_ : BitVec 64) : ∃ f : State → Nat → State,
    (∀ t m, f t m = t.setAdcMod m (t.adcBegun m at_)) ∧
      s.adcRound at_ = { (List.range 4).foldl f s with adc := { ((List.range 4).foldl f s).adc with done := 0 } } := by
  refine ⟨_, fun t m => ?_, rfl⟩
  dsimp only
  unfold State.adcBegun
  cases t.adcEntries m <;> rfl

theorem State.adcRound_eq (s : State) (at_ : BitVec 64) : ∃ w, AdcMods s w ∧
    s.adcRound at_ = { w with adc := { w.adc with done := 0 } } ∧ ∀ m, m < 4 → w.adcMod m = s.adcBegun m at_ := by
  obtain ⟨f, hf, hround⟩ := s.adcRound_loop at_
  refine ⟨_, foldl_leaves AdcMods.refl (fun _ _ _ => AdcMods.trans) (fun t k _ => hf t k ▸ AdcMods.setAdcMod t k _) s, hround,
    fun m hm => ?_⟩
  obtain ⟨u, ⟨hmods, hsame⟩, hfold⟩ := adcMods_foldl (f := f) hm
    (fun t k hk => hf t k ▸ ⟨.setAdcMod t k _, State.adcMod_setAdcMod_other t k m _ hk.symm⟩) s
  rw [hfold, hf, State.adcMod_setAdcMod_same, State.adcBegun, hsame, hmods.entries, hmods.free, State.adcBegun]

theorem State.adcRound_spec (s : State) (at_ : BitVec 64) : (s.adcRound at_).regs = s.regs ∧
    (s.adcRound at_).adc.run = s.adc.run ∧ ∀ m, m < 4 → (s.adcRound at_).adcMod m = s.adcBegun m at_ := by
  obtain ⟨w, hmods, heq, hmod⟩ := s.adcRound_eq at_
  rw [heq]
  exact ⟨hmods.regs, hmods.run, hmod⟩

/-- A command that the converter refuses sets CMD_REFUSED. -/
theorem State.adcRefuse_spec (s : State) : s.adcRefuse.bitOf Reg.ADC_EVT 7 = true ∧ onlyRegs s s.adcRefuse [Reg.ADC_EVT] :=
  ⟨s.bitOf_setBit_same _ (by decide), s.setBits_onlyRegs _ _⟩

section
variable {s : State} (hopen : s.open .adc = true)
include hopen

theorem answers_adcStart (hrun : s.adc.run = false) (hcal : s.adc.cal = false) : answers .adcStart s fun t =>
    t.adc.run = true ∧ t.regs = s.regs ∧ ∀ m, m < 4 →
      (t.adcMod m).cur = ((s.adcEntries m).head?.map fun e => ⟨e, s.adcFree (s.adcMod m) (s.adcGrid s.now)⟩) ∧
      ((s.adcMod m).inj = none → s.adcFree (s.adcMod m) (s.adcGrid s.now) = s.adcGrid s.now) ∧
      (t.adcMod m).todo = (s.adcEntries m).tail ∧ (t.adcMod m).inj = (s.adcMod m).inj := by
  refine answers_of_via (f := State.adcStart) rfl hopen ?_
  rw [State.adcStart, if_neg (by simp [hrun, hcal])]
  obtain ⟨hregs, hrun', hmod⟩ := State.adcRound_spec { s with adc := { s.adc with run := true } } (s.adcGrid s.now)
  refine ⟨hrun', hregs, fun m hm => ?_⟩
  rw [hmod m hm]
  refine ⟨rfl, fun hinj => ?_, rfl, rfl⟩
  rw [State.adcFree, hinj]

theorem answers_adcStart_refused (hbusy : (s.adc.run || s.adc.cal) = true) : answers .adcStart s fun t =>
    t.bitOf Reg.ADC_EVT 7 = true ∧ onlyRegs s t [Reg.ADC_EVT] := by
  refine answers_of_via (f := State.adcStart) rfl hopen ?_
  rw [State.adcStart, if_pos (by simpa using hbusy)]
  exact s.adcRefuse_spec

theorem answers_adcStop (hrun : s.adc.run = true) : answers .adcStop s fun t => t.adc.run = false ∧ t.adc.jbusy = false ∧
    t.adc.mods = [] ∧ t.bitOf Reg.ADC_EVT 0 = true ∧ regsBut s t [Reg.ADC_EVT] := by
  refine answers_of_via (f := State.adcStop) rfl hopen ?_
  rw [State.adcStop, if_neg (by simp [hrun])]
  exact ⟨rfl, rfl, rfl, State.bitOf_setBit_same _ _ (by decide), (State.setBits_onlyRegs _ _ _).2.1⟩

theorem answers_adcStop_refused (hrun : s.adc.run = false) : answers .adcStop s fun t =>
    t.bitOf Reg.ADC_EVT 7 = true ∧ onlyRegs s t [Reg.ADC_EVT] := by
  refine answers_of_via (f := State.adcStop) rfl hopen ?_
  rw [State.adcStop, if_pos hrun]
  exact s.adcRefuse_spec

theorem answers_adcCal (hbusy : s.adc.busy = false) : answers .adcCal s fun t =>
    t = { s with adc := { s.adc with cal := true } } :=
  answers_of_via (f := State.adcCal) rfl hopen (if_neg (by simp [hbusy]))

theorem answers_adcCal_refused (hbusy : s.adc.busy = true) : answers .adcCal s fun t =>
    t.bitOf Reg.ADC_EVT 7 = true ∧ onlyRegs s t [Reg.ADC_EVT] := by
  refine answers_of_via (f := State.adcCal) rfl hopen ?_
  rw [State.adcCal, if_pos hbusy]
  exact s.adcRefuse_spec

/-! ## Factors and calibration -/

theorem answers_adcFactorWrite (m : Fin 4) (gain : Bool) (v : Word) (hbusy : s.adc.busy = false) :
    answers (.adcFactorWrite m gain v) s fun t => t.adc = { s.adc with calValid := true } ∧
      t.rd (if gain then Reg.ADC_GAIN m else Reg.ADC_OFS m) = v ∧
      regsBut s t [if gain then Reg.ADC_GAIN m else Reg.ADC_OFS m] ∧ { t with adc := s.adc, regs := s.regs } = s := by
  refine answers_of_via (f := fun t => t.adcFactor m gain v) rfl hopen ?_
  rw [State.adcFactor, if_neg (by simp [hbusy])]
  exact ⟨rfl, State.rd_wr_same _ _ _, (State.wr_onlyRegs _ _ _).2.1, rfl⟩

theorem answers_adcFactorWrite_refused (m : Fin 4) (gain : Bool) (v : Word) (hbusy : s.adc.busy = true) :
    answers (.adcFactorWrite m gain v) s fun t => t.bitOf Reg.ADC_EVT 7 = true ∧ onlyRegs s t [Reg.ADC_EVT] := by
  refine answers_of_via (f := fun t => t.adcFactor m gain v) rfl hopen ?_
  rw [State.adcFactor, if_pos hbusy]
  exact s.adcRefuse_spec

end

/-- The factors of a modulator are taken, or the failure is noted (R761, R763). -/
def State.calPut (s : State) (e : Nat × Word × Word) : State :=
  match calFactors e.2.1 e.2.2 with
  | some (o, g) => (s.wr (Reg.ADC_OFS e.1) o).wr (Reg.ADC_GAIN e.1) g
  | none => s.setBit Reg.ADC_EVT 6

/-- What CAL_DONE asks of a modulator, of the state `s` before and the state `t` after (R761, R763). -/
def CalTaken (s t : State) (e : Nat × Word × Word) : Prop :=
  match calFactors e.2.1 e.2.2 with
  | some (o, g) => t.rd (Reg.ADC_OFS e.1) = o ∧ t.rd (Reg.ADC_GAIN e.1) = g
  | none => t.bitOf Reg.ADC_EVT 6 = true ∧ t.rd (Reg.ADC_OFS e.1) = s.rd (Reg.ADC_OFS e.1) ∧
    t.rd (Reg.ADC_GAIN e.1) = s.rd (Reg.ADC_GAIN e.1)

/-- From `s` to `t` modulator `m` keeps its factors, and a failure noted stays noted. -/
structure CalAlike (m : Nat) (s t : State) : Prop where
  adc : t.adc = s.adc
  ofs : t.rd (Reg.ADC_OFS m) = s.rd (Reg.ADC_OFS m)
  gain : t.rd (Reg.ADC_GAIN m) = s.rd (Reg.ADC_GAIN m)
  failed : s.bitOf Reg.ADC_EVT 6 = true → t.bitOf Reg.ADC_EVT 6 = true

namespace CalAlike

variable {m : Nat} {s t u : State}

theorem refl (m : Nat) (s : State) : CalAlike m s s := ⟨rfl, rfl, rfl, id⟩

theorem trans (h : CalAlike m s t) (k : CalAlike m t u) : CalAlike m s u :=
  ⟨k.adc.trans h.adc, k.ofs.trans h.ofs, k.gain.trans h.gain, k.failed ∘ h.failed⟩

theorem setBit (s : State) {m : Nat} (hm : m < 4) (i : Nat) : CalAlike m s (s.setBit Reg.ADC_EVT i) := by
  refine ⟨rfl, State.rd_setBit_other _ _ _ _ ?_, State.rd_setBit_other _ _ _ _ ?_, fun h => ?_⟩
  · simp only [Reg.ADC_OFS, Reg.ADC_EVT]; omega
  · simp only [Reg.ADC_GAIN, Reg.ADC_EVT]; omega
  · rw [State.bitOf_setBit _ _ _ _ (by decide), h, Bool.true_or]

theorem calPut (s : State) {m : Nat} {e : Nat × Word × Word} (hm : m < 4) (he : e.1 < 4) (hne : e.1 ≠ m) :
    CalAlike m s (s.calPut e) := by
  have hother : Reg.ADC_OFS m ≠ Reg.ADC_OFS e.1 ∧ Reg.ADC_OFS m ≠ Reg.ADC_GAIN e.1 ∧ Reg.ADC_GAIN m ≠ Reg.ADC_OFS e.1 ∧
      Reg.ADC_GAIN m ≠ Reg.ADC_GAIN e.1 ∧ Reg.ADC_EVT ≠ Reg.ADC_OFS e.1 ∧ Reg.ADC_EVT ≠ Reg.ADC_GAIN e.1 := by
    simp only [Reg.ADC_OFS, Reg.ADC_GAIN, Reg.ADC_EVT]
    omega
  obtain ⟨hoo, hog, hgo, hgg, heo, heg⟩ := hother
  unfold State.calPut
  split
  · refine ⟨rfl, ?_, ?_, fun h => ?_⟩
    · rw [State.rd_wr_other _ _ _ _ hog, State.rd_wr_other _ _ _ _ hoo]
    · rw [State.rd_wr_other _ _ _ _ hgg, State.rd_wr_other _ _ _ _ hgo]
    · rwa [State.bitOf_congr (s := s) (by rw [State.rd_wr_other _ _ _ _ heg, State.rd_wr_other _ _ _ _ heo])]
  · exact .setBit s hm 6

end CalAlike

theorem CalTaken.of_alike {s s' t t' : State} {e : Nat × Word × Word} (h : CalTaken s t e) (hbefore : CalAlike e.1 s' s)
    (hafter : CalAlike e.1 t t') : CalTaken s' t' e := by
  unfold CalTaken at h ⊢
  split
  · next o g heq =>
    simp only [heq] at h
    exact ⟨hafter.ofs.trans h.1, hafter.gain.trans h.2⟩
  · next heq =>
    simp only [heq] at h
    obtain ⟨hbit, hofs, hgain⟩ := h
    exact ⟨hafter.failed hbit, (hafter.ofs.trans hofs).trans hbefore.ofs, (hafter.gain.trans hgain).trans hbefore.gain⟩

theorem State.calPut_taken (s : State) {e : Nat × Word × Word} (he : e.1 < 4) : CalTaken s (s.calPut e) e := by
  unfold CalTaken State.calPut
  split
  · refine ⟨?_, State.rd_wr_same _ _ _⟩
    rw [State.rd_wr_other _ _ _ _ (by simp only [Reg.ADC_OFS, Reg.ADC_GAIN]; omega), State.rd_wr_same]
  · obtain ⟨-, hofs, hgain, -⟩ := CalAlike.setBit s he 6
    exact ⟨s.bitOf_setBit_same _ (by decide), hofs, hgain⟩

/-- Factors are put for modulators that differ: each is taken. -/
theorem State.calPut_foldl {l : List (Nat × Word × Word)} (hl : (l.map Prod.fst).Nodup) (hlt : ∀ e ∈ l, e.1 < 4) (s : State)
    {e : Nat × Word × Word} (he : e ∈ l) : CalTaken s (l.foldl State.calPut s) e := by
  have hne : ∀ k ∈ l, k ≠ e → k.1 ≠ e.1 := fun k hk hke heq => hke (List.inj_on_of_nodup_map hl hk he heq)
  obtain ⟨u, r, hbefore, -, hafter, -⟩ := foldl_at (R := CalAlike e.1) (CalAlike.refl e.1) (fun _ _ _ => CalAlike.trans)
    (fun t k hk hke => CalAlike.calPut t (hlt e he) (hlt k hk) (hne k hk hke)) (List.Nodup.of_map _ hl) he s
  exact (u.calPut_taken (hlt e he)).of_alike hbefore hafter

theorem answers_calDone (o0 o1 o2 o3 r0 r1 r2 r3 : Word) {s : State} (hopen : s.open .adc = true) (hcal : s.adc.cal = true) :
    answers (.calDone o0 o1 o2 o3 r0 r1 r2 r3) s fun t => t.adc = { s.adc with cal := false, calValid := true } ∧
      t.bitOf Reg.ADC_EVT 5 = true ∧ ∀ e ∈ [(0, o0, r0), (1, o1, r1), (2, o2, r2), (3, o3, r3)], CalTaken s t e := by
  let l : List (Nat × Word × Word) := [(0, o0, r0), (1, o1, r1), (2, o2, r2), (3, o3, r3)]
  have hl : ∀ e ∈ l, e.1 < 4 := by simp [l]
  have hadc : (l.foldl State.calPut s).adc = s.adc :=
    foldl_leaves (R := fun t u => u.adc = t.adc) (fun _ => rfl) (fun _ _ _ h k => k.trans h)
      (fun t e _ => by unfold State.calPut; split <;> rfl) s
  refine ⟨_, if_neg (by simp [hopen, hcal]), ?_⟩
  change (_ ∧ _ ∧ ∀ e ∈ l, CalTaken s ({ l.foldl State.calPut s with
    adc := { (l.foldl State.calPut s).adc with cal := false, calValid := true } }.setBit Reg.ADC_EVT 5) e)
  refine ⟨?_, State.bitOf_setBit_same _ _ (by decide), fun e he => ?_⟩
  · rw [State.setBit_adc]
    change { (l.foldl State.calPut s).adc with cal := false, calValid := true } = _
    rw [hadc]
  · have htaken : CalTaken s { l.foldl State.calPut s with
        adc := { (l.foldl State.calPut s).adc with cal := false, calValid := true } } e :=
      State.calPut_foldl (by simp [l]) hl s he
    exact htaken.of_alike (.refl _ _) (.setBit _ (hl e he) 5)

/-! ## Injections -/

theorem State.adcInject_mods (s : State) (m : Nat) (t : BitVec 64) : AdcMods s (s.adcInject m t) := by
  unfold State.adcInject
  split
  · exact .refl s
  · exact .setAdcMod s m _

theorem State.adcInject_other (s : State) {m k : Nat} (t : BitVec 64) (hk : k ≠ m) : AdcOthers m s (s.adcInject k t) := by
  refine ⟨s.adcInject_mods k t, ?_⟩
  unfold State.adcInject
  split
  · rfl
  · exact State.adcMod_setAdcMod_other _ _ _ _ hk.symm

theorem State.adcInject_none (s : State) {m : Nat} (t : BitVec 64) (h : s.adcJEntries m = []) : s.adcInject m t = s := by
  unfold State.adcInject
  rw [h]

theorem State.adcInject_some (s : State) {m j : Nat} {r : List Nat} (t : BitVec 64) (h : s.adcJEntries m = j :: r) :
    ((s.adcInject m t).adcMod m).inj = some ⟨j, t⟩ ∧ ((s.adcInject m t).adcMod m).injTodo = r := by
  unfold State.adcInject
  rw [h]
  dsimp only
  rw [State.adcMod_setAdcMod_same]
  exact ⟨rfl, rfl⟩

/-- The trigger puts each modulator named on its first injected entry, at most 200 ticks later (R757, R758). -/
theorem State.adcTrigger_spec {s : State} (t : BitVec 64) (hjbusy : s.adc.jbusy = false) (hcal : s.adc.cal = false) :
    (s.adcTrigger t).adc.jbusy = true ∧ (s.adcTrigger t).regs = s.regs ∧ (s.adcTrigger t).now = s.now ∧ ∀ m, m < 4 →
      (∀ j r, s.adcJEntries m = j :: r → ∃ d, d ≤ 200 ∧
        ((s.adcTrigger t).adcMod m).inj = some ⟨j, t + BitVec.ofNat 64 d⟩ ∧ ((s.adcTrigger t).adcMod m).injTodo = r) ∧
      (s.adcJEntries m = [] → (s.adcTrigger t).adcMod m = s.adcMod m) := by
  rw [State.adcTrigger, if_neg (by simp [hjbusy, hcal])]
  let f := fun (u : State) m => u.adcInject m (t + BitVec.ofNat 64 (s.fresh.toNat % 201))
  let b : State := { s.tick1 with adc := { s.adc with jbusy := true } }
  have hall : AdcMods b ((List.range 4).foldl f b) :=
    foldl_leaves AdcMods.refl (fun _ _ _ => AdcMods.trans) (fun u k _ => u.adcInject_mods k _) b
  refine ⟨hall.jbusy, hall.regs, hall.now, fun m hm => ?_⟩
  obtain ⟨u, ⟨hmods, hsame⟩, hfold⟩ := adcMods_foldl (f := f) hm (fun v k hk => v.adcInject_other _ hk) b
  have hentries : u.adcJEntries m = s.adcJEntries m := hmods.jEntries m
  change ((∀ j r, _ → ∃ d, _ ∧ (((List.range 4).foldl f b).adcMod m).inj = _ ∧ (((List.range 4).foldl f b).adcMod m).injTodo = _) ∧
    (_ → ((List.range 4).foldl f b).adcMod m = _))
  rw [hfold]
  refine ⟨fun j r hj => ⟨s.fresh.toNat % 201, by omega, u.adcInject_some _ (hentries.trans hj)⟩, fun hj => ?_⟩
  rw [show f u m = u from u.adcInject_none _ (hentries.trans hj), hsame]
  rfl

section
variable {s : State} (hopen : s.open .adc = true)
include hopen

theorem answers_jgo (hjbusy : s.adc.jbusy = false) (hcal : s.adc.cal = false) (htrig : s.adcTrig = 1) : answers .jgo s fun t =>
    t.adc.jbusy = true ∧ t.regs = s.regs ∧ ∀ m, m < 4 →
      (∀ j r, s.adcJEntries m = j :: r → ∃ d, d ≤ 200 ∧ (t.adcMod m).inj = some ⟨j, s.now + BitVec.ofNat 64 d⟩ ∧
        (t.adcMod m).injTodo = r) ∧ (s.adcJEntries m = [] → t.adcMod m = s.adcMod m) := by
  refine answers_of_via (f := State.adcJgo) rfl hopen ?_
  rw [State.adcJgo, if_pos htrig]
  obtain ⟨hbusy, hregs, -, hmod⟩ := State.adcTrigger_spec s.now hjbusy hcal
  exact ⟨hbusy, hregs, hmod⟩

theorem answers_jatMatch (hjbusy : s.adc.jbusy = false) (hcal : s.adc.cal = false) (htrig : s.adcTrig = 2)
    (hgo : s.sys.going = true) : answers .jatMatch s fun t => t.adc.jbusy = true ∧ t.now.setWidth 32 = s.rd Reg.ADC_JAT ∧
      ∀ m, m < 4 → ∀ j r, s.adcJEntries m = j :: r → ∃ d, d ≤ 200 ∧ (t.adcMod m).inj = some ⟨j, t.now + BitVec.ofNat 64 d⟩ := by
  have hnow := s.now_elapse (s.rd Reg.ADC_JAT - s.now.setWidth 32).toNat hgo
  obtain ⟨-, -, hrest, -⟩ := s.elapse_spec (s.rd Reg.ADC_JAT - s.now.setWidth 32).toNat
  refine ⟨_, if_neg (by simp [hopen, hgo]), ?_⟩
  dsimp only
  generalize s.elapse (s.rd Reg.ADC_JAT - s.now.setWidth 32).toNat = w at hnow hrest
  have hregs := congrArg State.regs hrest
  have hadc := congrArg State.adc hrest
  dsimp only at hregs hadc
  have htrigW : w.adcTrig = 2 := by rw [State.adcTrig, State.field, State.rd, hregs]; exact htrig
  have hentries : ∀ m, w.adcJEntries m = s.adcJEntries m := fun m => by
    simp only [State.adcJEntries, State.adcJIn, State.field, State.rd, hregs]
  rw [if_pos htrigW]
  obtain ⟨hbusy, -, hnowT, hmod⟩ := State.adcTrigger_spec (s := w) w.now (hadc ▸ hjbusy) (hadc ▸ hcal)
  refine ⟨hbusy, ?_, fun m hm j r hj => ?_⟩
  · rw [hnowT, hnow]
    apply BitVec.eq_of_toNat_eq
    rw [BitVec.toNat_setWidth, BitVec.toNat_add, BitVec.toNat_ofNat, BitVec.toNat_sub, BitVec.toNat_setWidth]
    have hjat := (s.rd Reg.ADC_JAT).isLt
    have hnowLt := s.now.isLt
    omega
  · obtain ⟨d, hd, hinj, -⟩ := (hmod m hm).1 j r ((hentries m).trans hj)
    exact ⟨d, hd, by rw [hinj, hnowT]⟩

end

/-! ## Results -/

/-- A result that a modulator gives of a raw code, to within what the spec leaves open (R751, R755). -/
def State.AdcGives (s : State) (m : Nat) (raw : Int) (round : Nat) (w : Word) : Prop :=
  ∃ f : Nat, w = adcWord (adcCode raw (s.rd (Reg.ADC_OFS m)) (s.rd (Reg.ADC_GAIN m)) s.adcFine f) (!s.adc.calValid) round

theorem State.AdcGives.of_elapse {s : State} {n m : Nat} {raw : Int} {round : Nat} {w : Word}
    (h : (s.elapse n).AdcGives m raw round w) : s.AdcGives m raw round w := by
  obtain ⟨-, -, hrest, -⟩ := s.elapse_spec n
  have hregs := congrArg State.regs hrest
  have hadc := congrArg State.adc hrest
  dsimp only at hregs hadc
  simpa only [State.AdcGives, State.adcFine, State.bitOf, State.rd, hregs, hadc] using h

/-- A result is written to its register, and only the event register changes beside it; the modulators stay. -/
theorem State.adcResult_spec (s : State) (m : Nat) (raw : Int) {a : Nat} (slot round : Nat) (at_ : BitVec 64)
    (ha : a ≠ Reg.ADC_EVT) : s.AdcGives m raw round ((s.adcResult m raw a slot round at_).rd a) ∧
      ∀ k, (s.adcResult m raw a slot round at_).adcMod k = s.adcMod k := by
  unfold State.adcResult
  extract_lets code s1
  have hrest := (s.tick1.wr a (adcWord code (!s.adc.calValid) round)).setBitIf_rest code.2 Reg.ADC_EVT 4
  have hadc := congrArg State.adc hrest
  dsimp only at hadc
  refine ⟨⟨s.fresh.toNat, ?_⟩, fun k => ?_⟩
  · change s1.rd a = _
    rw [State.rd_setBitIf_other _ code.2 _ ha, State.rd_wr_same]
  · change Sparse.get _ s1.adc.mods k = _
    rw [hadc]
    rfl

/-- The round's end writes only the round's number and the event register, and leaves the late and the injected conversions. -/
theorem State.adcRegDone_eq (s : State) (m : Fin 4) (c : AdcConv) (raw : Int) : ∃ w x1,
    w = (((s.adcResult m raw (Reg.ADC_RES (s.adcIn c.entry)) (s.adcIn c.entry) (s.rdNat Reg.ADC_ROUND) c.at_).setBit
      Reg.ADC_NEW (s.adcIn c.entry)).setAdcMod m x1) ∧
    x1.late = none ∧ x1.inj = (s.adcMod m).inj ∧ regsBut w (s.adcRegDone m c raw) [Reg.ADC_ROUND, Reg.ADC_EVT] ∧
    ((s.adcRegDone m c raw).adcMod m).late = none ∧ ((s.adcRegDone m c raw).adcMod m).inj = x1.inj := by
  unfold State.adcRegDone
  extract_lets x n ends s1 x1 s2 _ s3 s4
  have hlate : x1.late = none ∧ x1.inj = x.inj := by
    simp only [x1]
    split
    · exact ⟨rfl, rfl⟩
    · next hlate _ => exact ⟨hlate, rfl⟩
    · next hlate _ => exact ⟨hlate, rfl⟩
  have hmod : s4.adcMod m = x1 := State.adcMod_setAdcMod_same s1 m x1
  have hregs4 : regsBut s2 s4 [Reg.ADC_ROUND, Reg.ADC_EVT] := fun a ha => by
    simp only [List.mem_cons, List.not_mem_nil, or_false, not_or] at ha
    change ((s3.wr _ _).setBit _ _).rd a = _
    rw [State.rd_setBit_other _ _ _ _ ha.2, State.rd_wr_other _ _ _ _ ha.1]
    rfl
  refine ⟨s2, x1, rfl, hlate.1, hlate.2, ?_⟩
  split
  · split
    · obtain ⟨hregs, -, hround⟩ := s4.adcRound_spec ends
      refine ⟨fun a ha => ?_, ?_⟩
      · rw [State.rd, hregs]
        exact hregs4 a ha
      · rw [hround m m.isLt, State.adcBegun, hmod]
        exact ⟨hlate.1, rfl⟩
    · refine ⟨hregs4, ?_⟩
      change (s4.adcMod m).late = none ∧ (s4.adcMod m).inj = _
      rw [hmod]
      exact ⟨hlate.1, rfl⟩
  · refine ⟨fun _ _ => rfl, ?_⟩
    have hmod3 : s3.adcMod m = x1 := State.adcMod_setAdcMod_same s1 m x1
    rw [hmod3]
    exact ⟨hlate.1, rfl⟩

/-- A regular conversion gives its result: its input's bit of ADC_NEW is set, and its register holds the result. -/
theorem State.adcRegDone_result (s : State) (m : Fin 4) (c : AdcConv) (raw : Int) :
    (s.adcRegDone m c raw).bitOf Reg.ADC_NEW (s.adcIn c.entry) = true ∧
      s.AdcGives m raw (s.rdNat Reg.ADC_ROUND) ((s.adcRegDone m c raw).rd (Reg.ADC_RES (s.adcIn c.entry))) := by
  have hin : s.adcIn c.entry < 16 := s.field_lt _ _ _
  obtain ⟨w, x1, hw, -, -, hbut, -⟩ := s.adcRegDone_eq m c raw
  generalize s.adcIn c.entry = n at hin hw ⊢
  have hother : Reg.ADC_RES n ≠ Reg.ADC_EVT ∧ Reg.ADC_RES n ≠ Reg.ADC_NEW ∧ Reg.ADC_RES n ≠ Reg.ADC_ROUND := by
    simp only [Reg.ADC_RES, Reg.ADC_EVT, Reg.ADC_NEW, Reg.ADC_ROUND]
    omega
  obtain ⟨hevt, hnew, hround⟩ := hother
  constructor
  · rw [State.bitOf_congr (hbut _ (by decide)), hw]
    exact State.bitOf_setBit_same _ _ (by omega)
  · rw [hbut _ (by simp [hevt, hround]), hw, State.rd_setAdcMod, State.rd_setBit_other _ _ _ _ hnew]
    exact (s.adcResult_spec m raw n _ _ hevt).1

/-- An injected conversion gives its result; the regular one that waits stays (R758, R759). -/
theorem State.adcInjDone_spec (s : State) (m : Nat) (c : AdcConv) (raw : Int) :
    ((s.adcInjDone m c raw).adcMod m).cur = (s.adcMod m).cur ∧
      s.AdcGives m raw 0 ((s.adcInjDone m c raw).rd (Reg.ADC_JRES c.entry)) := by
  have hevt : Reg.ADC_JRES c.entry ≠ Reg.ADC_EVT := by simp only [Reg.ADC_JRES, Reg.ADC_EVT]; omega
  have hresult := (s.adcResult_spec m raw (16 + c.entry) 0 c.at_ hevt).1
  unfold State.adcInjDone
  extract_lets x s1 x1 s2
  have hcur : x1.cur = x.cur := by
    simp only [x1]
    split <;> rfl
  have hmod : s2.adcMod m = x1 := State.adcMod_setAdcMod_same s1 m x1
  change s.AdcGives m raw 0 (s1.rd (Reg.ADC_JRES c.entry)) at hresult
  clear_value s1
  split
  · refine ⟨?_, ?_⟩
    · change (s2.adcMod m).cur = _
      rw [hmod, hcur]
    · rw [State.rd_setBit_other _ _ _ _ hevt]
      exact hresult
  · refine ⟨?_, hresult⟩
    rw [hmod, hcur]

/-- Time moves on to the tick at which a result is written (R750). -/
def State.adcSlotOver (s : State) (c : AdcConv) : State :=
  s.elapse (ahead s.now (c.at_ + BitVec.ofNat 64 (s.adcSlot + 400)))

theorem State.adcSlotOver_same (s : State) (c : AdcConv) :
    (s.adcSlotOver c).regs = s.regs ∧ (s.adcSlotOver c).adc = s.adc := by
  obtain ⟨-, -, hrest, -⟩ := s.elapse_spec (ahead s.now (c.at_ + BitVec.ofNat 64 (s.adcSlot + 400)))
  have hregs := congrArg State.regs hrest
  have hadc := congrArg State.adc hrest
  exact ⟨hregs, hadc⟩

section
variable {m : Fin 4} (raw : Word) {c : AdcConv} {s : State} (hopen : s.open .adc = true)
include hopen

/-- The conversion whose slot has ended, where it is a regular one: one that had ended when an injection came, or the one in
progress. -/
theorem exec_adcSlotEnd_reg (h : (s.adcMod m).late = some c ∨
    ((s.adcMod m).late = none ∧ (s.adcMod m).inj = none ∧ (s.adcMod m).cur = some c)) :
    exec (.adcSlotEnd m raw) s = .next ((s.adcSlotOver c).adcRegDone m c raw.toInt) := by
  refine (if_neg (by simp [hopen])).trans ?_
  obtain hlate | ⟨hlate, hinj, hcur⟩ := h
  · dsimp only
    rw [hlate]
    rfl
  · dsimp only
    rw [hlate, hinj, hcur]
    rfl

theorem answers_adcSlotEnd_reg (h : (s.adcMod m).late = some c ∨
    ((s.adcMod m).late = none ∧ (s.adcMod m).inj = none ∧ (s.adcMod m).cur = some c)) :
    answers (.adcSlotEnd m raw) s fun t => t.bitOf Reg.ADC_NEW (s.adcIn c.entry) = true ∧
      s.AdcGives m raw.toInt (s.rdNat Reg.ADC_ROUND) (t.rd (Reg.ADC_RES (s.adcIn c.entry))) := by
  refine ⟨_, exec_adcSlotEnd_reg raw hopen h, ?_⟩
  obtain ⟨hregs, -⟩ := s.adcSlotOver_same c
  have hin : (s.adcSlotOver c).adcIn c.entry = s.adcIn c.entry := by rw [State.adcIn, State.field, State.rd, hregs]; rfl
  have hround : (s.adcSlotOver c).rdNat Reg.ADC_ROUND = s.rdNat Reg.ADC_ROUND := by
    rw [State.rdNat, State.rd, hregs]; rfl
  obtain ⟨hnew, hgives⟩ := (s.adcSlotOver c).adcRegDone_result m c raw.toInt
  rw [hin] at hnew hgives
  rw [hround] at hgives
  exact ⟨hnew, hgives.of_elapse⟩

theorem answers_adcSlotEnd_late (h : (s.adcMod m).late = some c) : answers (.adcSlotEnd m raw) s fun t =>
    (t.adcMod m).late = none ∧ (t.adcMod m).inj = (s.adcMod m).inj := by
  refine ⟨_, exec_adcSlotEnd_reg raw hopen (.inl h), ?_⟩
  obtain ⟨w, x1, -, -, hinj, -, hlateT, hinjT⟩ := (s.adcSlotOver c).adcRegDone_eq m c raw.toInt
  refine ⟨hlateT, ?_⟩
  rw [hinjT, hinj, State.adcMod, (s.adcSlotOver_same c).2, State.adcMod]

theorem answers_adcSlotEnd_inj (hlate : (s.adcMod m).late = none) (hinj : (s.adcMod m).inj = some c) :
    answers (.adcSlotEnd m raw) s fun t => (t.adcMod m).cur = (s.adcMod m).cur ∧
      s.AdcGives m raw.toInt 0 (t.rd (Reg.ADC_JRES c.entry)) := by
  have hexec : exec (.adcSlotEnd m raw) s = .next ((s.adcSlotOver c).adcInjDone m c raw.toInt) := by
    refine (if_neg (by simp [hopen])).trans ?_
    dsimp only
    rw [hlate, hinj]
    rfl
  refine ⟨_, hexec, ?_⟩
  obtain ⟨hcur, hgives⟩ := (s.adcSlotOver c).adcInjDone_spec m c raw.toInt
  refine ⟨hcur.trans ?_, hgives.of_elapse⟩
  rw [State.adcMod, (s.adcSlotOver_same c).2, State.adcMod]

/-- A read of a result latches the stamp of its slot's start (R752). -/
theorem answers_adcResRead (inj : Bool) (n : Fin 16) : answers (.adcResRead inj n) s fun t =>
    t.bus.data = s.rd (if inj then Reg.ADC_JRES (n.val % 4) else Reg.ADC_RES n) ∧
      t.rd Reg.ADC_RES_VT = Sparse.get (fun _ => 0) s.adc.starts (if inj then 16 + n.val % 4 else n.val) ∧
      regsBut s t [Reg.ADC_RES_VT] ∧ { t with bus := s.bus, regs := s.regs } = s :=
  ⟨_, if_neg (by simp [hopen]), rfl, State.rd_wr_same _ _ _, (State.wr_onlyRegs s _ _).2.1, rfl⟩

end

end Sys2Proof.Machine
end

section
/-! The shaft channels (R765 to R778): counts, indexes and absolute words, and each command's answer. -/

namespace Sys2Proof.Machine

open Sys2Proof.Safety

/-! ## Counts -/

/-- A count by one moves SHF_CNT; its wrap and its direction change show in other registers (R770, R771). -/
theorem State.shfCount_spec (s : State) (ch : Nat) (up : Bool) :
    (s.shfCount ch up).rd (Reg.SHF_CNT ch) = (if up then s.rd (Reg.SHF_CNT ch) + 1 else s.rd (Reg.SHF_CNT ch) - 1) := by
  have hother : Reg.SHF_CNT ch ≠ Reg.SHF_EVT ch ∧ Reg.SHF_CNT ch ≠ Reg.SHF_ERR ch := by
    simp only [Reg.SHF_CNT, Reg.SHF_EVT, Reg.SHF_ERR]
    omega
  obtain ⟨hevt, herr⟩ := hother
  unfold State.shfCount
  extract_lets v x turned s1 s2
  have h1 : s1.rd (Reg.SHF_CNT ch) = if up then v + 1 else v - 1 := State.rd_wr_same _ _ _
  have h2 : s2.rd (Reg.SHF_CNT ch) = s1.rd (Reg.SHF_CNT ch) := by
    simp only [s2]
    split
    · exact State.rd_setBit_other _ _ _ _ hevt
    · split
      · exact State.rd_setBit_other _ _ _ _ hevt
      · rfl
  split
  · rw [State.rd_setBit_other _ _ _ _ hevt, State.rd_addField_other _ _ _ _ _ _ herr, h2, h1]
  · rw [h2, h1]

/-- The registers of a channel and the levels accepted, of one sample that leaves Z. -/
theorem State.shfSample_steady (s : State) (ch : Nat) (a b : Bool) :
    (s.shfSample ch a b (s.shf ch).z).shf ch = { (s.shfAB ch a b).shf ch with a := a, b := b, z := (s.shf ch).z } ∧
      (s.shfSample ch a b (s.shf ch).z).regs = (s.shfAB ch a b).regs := by
  have hrise : ((s.shf ch).z && !(s.shf ch).z) = false := by simp
  unfold State.shfSample
  rw [hrise]
  exact ⟨State.shf_setShf_same _ _ _, rfl⟩

section
variable (s : State) (ch : Nat) (a b : Bool)

theorem State.shfAB_off (h : s.shfMode ch = 0) : s.shfAB ch a b = s := by
  unfold State.shfAB
  rw [h]
  rfl

/-- Both lines change in quadrature: an error, and no count (R768). -/
theorem State.shfAB_both (h : s.shfMode ch = 1) (ha : (s.shf ch).a ≠ a) (hb : (s.shf ch).b ≠ b) :
    s.shfAB ch a b = (s.addField (Reg.SHF_ERR ch) 0 8 1).setBit (Reg.SHF_EVT ch) 3 := by
  unfold State.shfAB
  rw [h]
  exact if_pos ⟨ha, hb⟩

theorem State.shfAB_one (h : s.shfMode ch = 1) (hone : ((s.shf ch).a ^^ a) ≠ ((s.shf ch).b ^^ b)) :
    s.shfAB ch a b = s.shfCount ch (quadUp (s.shf ch).a (s.shf ch).b a b) := by
  unfold State.shfAB
  rw [h]
  have hnot : ¬((s.shf ch).a ≠ a ∧ (s.shf ch).b ≠ b) ∧ ¬((s.shf ch).a = a ∧ (s.shf ch).b = b) := by
    generalize (s.shf ch).a = a0 at hone
    generalize (s.shf ch).b = b0 at hone
    revert hone
    revert a0 b0 a b
    decide
  exact (if_neg hnot.1).trans (if_neg hnot.2)

theorem State.shfAB_step (h : s.shfMode ch = 2) (ha : (s.shf ch).a = false) (ha' : a = true) :
    s.shfAB ch a b = s.shfCount ch (s.shf ch).b := by
  unfold State.shfAB
  rw [h]
  exact if_pos (by simp [ha, ha'])

theorem State.rd_shfAB_two (h : s.shfMode ch = 3) (ha : (s.shf ch).a = false) (hb : (s.shf ch).b = false) :
    (s.shfAB ch a b).rd (Reg.SHF_CNT ch) = if a = b then s.rd (Reg.SHF_CNT ch) else if a then s.rd (Reg.SHF_CNT ch) + 1
      else s.rd (Reg.SHF_CNT ch) - 1 := by
  unfold State.shfAB
  rw [h]
  dsimp only
  rw [ha, hb]
  cases a <;> cases b
  · rfl
  · exact s.shfCount_spec ch false
  · exact s.shfCount_spec ch true
  · rfl

end

theorem answers_shaftEdge (ch : Fin 2) (a b : Bool) {s : State} (hopen : s.open .shf = true) :
    answers (.shaftEdge ch a b (s.shf ch).z) s fun t =>
    let x := s.shf ch
    let v := s.rd (Reg.SHF_CNT ch)
    (t.shf ch).a = a ∧ (t.shf ch).b = b ∧
    (s.shfMode ch = 0 → t.rd (Reg.SHF_CNT ch) = v) ∧
    (s.shfMode ch = 1 → x.a ≠ a → x.b ≠ b → t.rd (Reg.SHF_CNT ch) = v ∧ t.bitOf (Reg.SHF_EVT ch) 3 = true ∧
      t.field (Reg.SHF_ERR ch) 0 8 = satAdd (s.field (Reg.SHF_ERR ch) 0 8) 1 255 ∧ (t.shf ch).dir = x.dir) ∧
    (s.shfMode ch = 1 → (x.a ^^ a) ≠ (x.b ^^ b) → t.rd (Reg.SHF_CNT ch) = if quadUp x.a x.b a b then v + 1 else v - 1) ∧
    (s.shfMode ch = 2 → x.a = false → a = true → t.rd (Reg.SHF_CNT ch) = if x.b then v + 1 else v - 1) ∧
    (s.shfMode ch = 3 → x.a = false → x.b = false →
      t.rd (Reg.SHF_CNT ch) = if a = b then v else if a then v + 1 else v - 1) := by
  refine answers_of_via (f := fun t => t.shfSample ch a b (s.shf ch).z) rfl hopen ?_
  obtain ⟨hshf, hregs⟩ := s.shfSample_steady ch a b
  have hrd : ∀ r, (s.shfSample ch a b (s.shf ch).z).rd r = (s.shfAB ch a b).rd r := fun r => by rw [State.rd, hregs, State.rd]
  dsimp only
  simp only [State.bitOf_congr (hrd (Reg.SHF_EVT ch)), State.field_congr (hrd (Reg.SHF_ERR ch)), hrd, hshf]
  refine ⟨trivial, trivial, fun h => by rw [s.shfAB_off ch a b h], fun h ha hb => ?_, fun h hone => ?_, fun h ha ha' => ?_,
    s.rd_shfAB_two ch a b⟩
  · have hother : Reg.SHF_CNT ch ≠ Reg.SHF_EVT ch ∧ Reg.SHF_CNT ch ≠ Reg.SHF_ERR ch ∧ Reg.SHF_ERR ch ≠ Reg.SHF_EVT ch := by
      simp only [Reg.SHF_CNT, Reg.SHF_EVT, Reg.SHF_ERR]
      omega
    obtain ⟨hevt, herr, herrEvt⟩ := hother
    rw [s.shfAB_both ch a b h ha hb]
    refine ⟨?_, State.bitOf_setBit_same _ _ (by decide), ?_, rfl⟩
    · rw [State.rd_setBit_other _ _ _ _ hevt, State.rd_addField_other _ _ _ _ _ _ herr]
    · rw [State.field_congr (State.rd_setBit_other _ _ _ _ herrEvt)]
      exact s.field_addField_same _ 1 (by decide)
  · rw [s.shfAB_one ch a b h hone, State.shfCount_spec]
  · rw [s.shfAB_step ch a b h ha ha', State.shfCount_spec]

/-! ## Indexes -/

/-- The nearest expected count is one of them, and none is nearer (R776). -/
theorem nearestIdx_spec (v : Word) {l : List Word} (hl : l ≠ []) :
    nearestIdx v l ∈ l ∧ ∀ e ∈ l, (timeDiff (nearestIdx v l) v).natAbs ≤ (timeDiff e v).natAbs := by
  induction l with
  | nil => exact absurd rfl hl
  | cons e r ih =>
    cases r with
    | nil => simp [nearestIdx]
    | cons e' r' =>
      obtain ⟨hmem, hmin⟩ := ih (List.cons_ne_nil _ _)
      rw [nearestIdx.eq_3 _ _ _ (List.cons_ne_nil _ _)]
      split
      · next hle =>
        refine ⟨List.mem_cons_self, fun k hk => ?_⟩
        obtain rfl | hk := List.mem_cons.1 hk
        · exact le_rfl
        · exact hle.trans (hmin k hk)
      · next hgt =>
        refine ⟨List.mem_cons_of_mem _ hmem, fun k hk => ?_⟩
        obtain rfl | hk := List.mem_cons.1 hk
        · exact (Nat.lt_of_not_le hgt).le
        · exact hmin k hk

/-- The counts at which a channel expects its index (R775). -/
def State.shfWant (s : State) (ch : Nat) : List Word :=
  [s.rd (Reg.SHF_IDX ch), s.rd (Reg.SHF_IDX ch) + s.rd (Reg.SHF_CPR ch), s.rd (Reg.SHF_IDX ch) - s.rd (Reg.SHF_CPR ch)]

/-- What a rising edge of Z does in a mode that counts, by what the channel expects (R774 to R776). -/
structure IndexTaken (ch : Nat) (s t : State) : Prop where
  expected : s.rd (Reg.SHF_CPR ch) = 0 ∨ (s.shf ch).next = true ∨ s.rd (Reg.SHF_CNT ch) ∈ s.shfWant ch →
    t.rd (Reg.SHF_IDX ch) = s.rd (Reg.SHF_CNT ch) ∧ t.rd (Reg.SHF_CNT ch) = s.rd (Reg.SHF_CNT ch)
  reference : s.rd (Reg.SHF_CPR ch) ≠ 0 → (s.shf ch).next = true → (t.shf ch).ref = true ∧ (t.shf ch).next = false
  bad : s.rd (Reg.SHF_CPR ch) ≠ 0 → (s.shf ch).next = false → s.rd (Reg.SHF_CNT ch) ∉ s.shfWant ch →
    t.rd (Reg.SHF_IDX_BAD ch) = s.rd (Reg.SHF_CNT ch) ∧ t.bitOf (Reg.SHF_EVT ch) 4 = true ∧
    (s.shfCorr ch = false → t.rd (Reg.SHF_CNT ch) = s.rd (Reg.SHF_CNT ch) ∧ t.rd (Reg.SHF_IDX ch) = s.rd (Reg.SHF_IDX ch)) ∧
    (s.shfCorr ch = true → ∃ e ∈ s.shfWant ch,
      (∀ e' ∈ s.shfWant ch, (timeDiff e (s.rd (Reg.SHF_CNT ch))).natAbs ≤ (timeDiff e' (s.rd (Reg.SHF_CNT ch))).natAbs) ∧
      t.rd (Reg.SHF_CNT ch) = e ∧ t.rd (Reg.SHF_IDX ch) = e)

theorem State.shfIndex_spec {s : State} {ch : Nat} (hlo : 1 ≤ s.shfMode ch) (hhi : s.shfMode ch ≤ 3) :
    ((s.shfIndex ch).shf ch).z = (s.shf ch).z ∧ IndexTaken ch s (s.shfIndex ch) := by
  have hother : Reg.SHF_CNT ch ≠ Reg.SHF_IDX ch ∧ Reg.SHF_CNT ch ≠ Reg.SHF_EVT ch ∧ Reg.SHF_CNT ch ≠ Reg.SHF_IDX_BAD ch ∧
      Reg.SHF_IDX ch ≠ Reg.SHF_EVT ch ∧ Reg.SHF_IDX ch ≠ Reg.SHF_IDX_BAD ch ∧ Reg.SHF_IDX_BAD ch ≠ Reg.SHF_EVT ch := by
    simp only [Reg.SHF_CNT, Reg.SHF_EVT, Reg.SHF_IDX, Reg.SHF_IDX_BAD]
    omega
  obtain ⟨hci, hce, hcb, hie, hib, hbe⟩ := hother
  unfold State.shfIndex
  extract_lets x v cpr idx want s1 e
  rw [if_neg (by omega)]
  by_cases hcpr : cpr = 0
  · rw [if_pos hcpr]
    exact ⟨rfl, fun _ => ⟨State.rd_wr_same _ _ _, State.rd_wr_other _ _ _ _ hci⟩, fun h => absurd hcpr h, fun h => absurd hcpr h⟩
  rw [if_neg hcpr]
  by_cases hnext : x.next = true
  · rw [if_pos hnext]
    refine ⟨?_, fun _ => ⟨State.rd_wr_same _ _ _, State.rd_wr_other _ _ _ _ hci⟩, fun _ _ => ?_, fun _ h => ?_⟩
    · rw [State.shf_setShf_same]
    · rw [State.shf_setShf_same]
      exact ⟨rfl, rfl⟩
    · exact absurd (hnext.symm.trans h) (by decide)
  rw [if_neg hnext]
  by_cases hmem : v ∈ want
  · rw [if_pos hmem]
    exact ⟨rfl, fun _ => ⟨State.rd_wr_same _ _ _, State.rd_wr_other _ _ _ _ hci⟩, fun _ h => absurd h hnext,
      fun _ _ h => absurd hmem h⟩
  rw [if_neg hmem]
  have hexpected : ¬(s.rd (Reg.SHF_CPR ch) = 0 ∨ (s.shf ch).next = true ∨ s.rd (Reg.SHF_CNT ch) ∈ s.shfWant ch) := by
    rintro (h | h | h)
    · exact hcpr h
    · exact hnext h
    · exact hmem h
  have hbad : s1.rd (Reg.SHF_IDX_BAD ch) = v ∧ s1.bitOf (Reg.SHF_EVT ch) 4 = true ∧ s1.rd (Reg.SHF_CNT ch) = v ∧
      s1.rd (Reg.SHF_IDX ch) = idx := by
    refine ⟨?_, State.bitOf_setBit_same _ _ (by decide), ?_, ?_⟩
    · rw [State.rd_setBit_other _ _ _ _ hbe, State.rd_wr_same]
    · rw [State.rd_setBit_other _ _ _ _ hce, State.rd_wr_other _ _ _ _ hcb]
    · rw [State.rd_setBit_other _ _ _ _ hie, State.rd_wr_other _ _ _ _ hib]
  obtain ⟨hbadV, hevt, hcnt, hidx⟩ := hbad
  have hshf : s1.shfs = s.shfs := rfl
  clear_value s1
  obtain ⟨hin, hmin⟩ := nearestIdx_spec v (l := want) (List.cons_ne_nil _ _)
  by_cases hcorr : s.shfCorr ch = true
  · rw [if_pos hcorr]
    refine ⟨congrArg (fun l => (Sparse.get (fun _ => {}) l ch : Shf).z) hshf, fun h => absurd h hexpected,
      fun _ h => absurd h hnext, fun _ _ _ => ⟨?_, ?_, fun h => absurd (hcorr.symm.trans h) (by decide),
      fun _ => ⟨e, hin, hmin, ?_, State.rd_wr_same _ _ _⟩⟩⟩
    · rw [State.rd_wr_other _ _ _ _ hib.symm, State.rd_wr_other _ _ _ _ hcb.symm, hbadV]
    · rw [State.bitOf_congr (State.rd_wr_other _ _ _ _ hie.symm), State.bitOf_congr (State.rd_wr_other _ _ _ _ hce.symm), hevt]
    · rw [State.rd_wr_other _ _ _ _ hci, State.rd_wr_same, BitVec.add_comm, BitVec.sub_add_cancel]
  · rw [if_neg hcorr]
    exact ⟨congrArg (fun l => (Sparse.get (fun _ => {}) l ch : Shf).z) hshf, fun h => absurd h hexpected,
      fun _ h => absurd h hnext, fun _ _ _ => ⟨hbadV, hevt, fun _ => ⟨hcnt, hidx⟩, fun h => absurd h hcorr⟩⟩

/-- A sample that leaves A and B counts nothing (R766, R768, R769). -/
theorem State.shfAB_same (s : State) (ch : Nat) : s.shfAB ch (s.shf ch).a (s.shf ch).b = s := by
  unfold State.shfAB
  dsimp only
  split
  · exact (if_neg fun h => h.1 rfl).trans (if_pos ⟨rfl, rfl⟩)
  · simp
  · simp
  · rfl

theorem answers_indexEdge (ch : Fin 2) {s : State} (hopen : s.open .shf = true) (hz : (s.shf ch).z = false)
    (hlo : 1 ≤ s.shfMode ch) (hhi : s.shfMode ch ≤ 3) :
    answers (.indexEdge ch) s fun t => (t.shf ch).z = true ∧ IndexTaken ch s t := by
  refine answers_of_via (f := fun t => t.shfSample ch (t.shf ch).a (t.shf ch).b true) rfl hopen ?_
  let s2 := s.setShf ch { s.shf ch with a := (s.shf ch).a, b := (s.shf ch).b, z := true }
  have heq : s.shfSample ch (s.shf ch).a (s.shf ch).b true = s2.shfIndex ch := by
    unfold State.shfSample
    dsimp only
    rw [s.shfAB_same ch, hz]
    exact if_pos rfl
  have hshf : s2.shf ch = { s.shf ch with z := true } := State.shf_setShf_same _ _ _
  obtain ⟨hzT, hexpected, href, hbad⟩ := State.shfIndex_spec (s := s2) (ch := ch) hlo hhi
  rw [hshf] at hzT hexpected href hbad
  rw [heq]
  exact ⟨hzT, hexpected, href, hbad⟩

/-! ## Writes, requests and absolute words -/

section
variable (ch : Fin 2) {s : State} (hopen : s.open .shf = true)
include hopen

theorem answers_shfCntWrite (v : Word) : answers (.shfCntWrite ch v) s fun t => t.rd (Reg.SHF_CNT ch) = v ∧
    t.shf ch = { s.shf ch with ref := false, next := true } ∧ regsBut s t [Reg.SHF_CNT ch] := by
  refine answers_of_via (f := fun t => t.shfCntWrite ch v) rfl hopen ?_
  exact ⟨State.rd_wr_same _ _ _, State.shf_setShf_same _ _ _, (State.wr_onlyRegs s _ _).2.1⟩

theorem answers_shfCfgWrite {v : Word} (hv : fieldOf v 0 3 ≤ 3) : answers (.shfCfgWrite ch v) s fun t =>
    t.rd (Reg.SHF_CFG ch) = v &&& 0x00071007 ∧ regsBut s t [Reg.SHF_CFG ch] ∧
      ((s.shfMode ch = 0 ∧ fieldOf v 0 3 ≠ 0) → (t.shf ch).next = true) := by
  refine answers_of_via (f := fun t => t.shfCfgWrite ch v) rfl hopen ?_
  have hwr := (State.wr_onlyRegs s (Reg.SHF_CFG ch) (v &&& 0x00071007)).2.1
  rw [State.shfCfgWrite, if_neg (Nat.not_lt.2 hv)]
  by_cases hleaves : s.shfMode ch = 0 ∧ fieldOf v 0 3 ≠ 0
  · rw [if_pos (by simpa using hleaves)]
    exact ⟨State.rd_wr_same _ _ _, hwr, fun _ => by rw [State.shf_setShf_same]⟩
  · rw [if_neg (by simpa using hleaves)]
    exact ⟨State.rd_wr_same _ _ _, hwr, fun h => absurd h hleaves⟩

omit hopen in
/-- A command that a channel refuses sets its CMD_REFUSED. -/
theorem State.shfRefuse_spec (s : State) (ch : Nat) : (s.setBit (Reg.SHF_EVT ch) 9).bitOf (Reg.SHF_EVT ch) 9 = true ∧
    onlyRegs s (s.setBit (Reg.SHF_EVT ch) 9) [Reg.SHF_EVT ch] :=
  ⟨s.bitOf_setBit_same _ (by decide), s.setBits_onlyRegs _ _⟩

theorem answers_shfCfgWrite_refused {v : Word} (hv : 3 < fieldOf v 0 3) : answers (.shfCfgWrite ch v) s fun t =>
    t.bitOf (Reg.SHF_EVT ch) 9 = true ∧ onlyRegs s t [Reg.SHF_EVT ch] := by
  refine answers_of_via (f := fun t => t.shfCfgWrite ch v) rfl hopen ?_
  rw [State.shfCfgWrite, if_pos hv]
  exact s.shfRefuse_spec ch

theorem answers_ssiReq (hssi : (s.shf ch).ssi = .idle) (habs : s.absEn ch = true) : answers (.ssiReq ch) s fun t =>
    t.shf ch = { s.shf ch with ssi := .reading } ∧ t.regs = s.regs := by
  refine answers_of_via (f := fun t => t.ssiReq ch) rfl hopen ?_
  rw [State.ssiReq, if_neg (by simp [hssi, habs])]
  exact ⟨State.shf_setShf_same _ _ _, rfl⟩

theorem answers_ssiReq_refused (h : (s.shf ch).ssi ≠ .idle ∨ s.absEn ch = false) : answers (.ssiReq ch) s fun t =>
    t.bitOf (Reg.SHF_EVT ch) 9 = true ∧ onlyRegs s t [Reg.SHF_EVT ch] := by
  refine answers_of_via (f := fun t => t.ssiReq ch) rfl hopen ?_
  rw [State.ssiReq, if_pos h]
  exact s.shfRefuse_spec ch

theorem answers_ssiTmEnd (hssi : (s.shf ch).ssi = .pause) : answers (.ssiTmEnd ch) s fun t =>
    t.shf ch = { s.shf ch with ssi := .idle } ∧ t.regs = s.regs := by
  refine answers_of_via (f := fun t => if (t.shf ch).ssi = .pause then t.setShf ch { t.shf ch with ssi := .idle } else t) rfl
    hopen ?_
  rw [if_pos hssi]
  exact ⟨State.shf_setShf_same _ _ _, rfl⟩

theorem answers_absTimeWrite {v : Word} (hssi : (s.shf ch).ssi = .idle) (hhigh : fieldOf v 16 8 ≠ 0)
    (hlow : fieldOf v 0 12 ≠ 0) : answers (.shfAbsCfgWrite ch true v) s fun t =>
      t.rd (Reg.SHF_ABS_TIME ch) = v &&& 0x00FF0FFF ∧ onlyRegs s t [Reg.SHF_ABS_TIME ch] := by
  refine answers_of_via (f := fun t => t.absCfgWrite ch true v) rfl hopen ?_
  rw [State.absCfgWrite, if_neg (by simp [hssi, hhigh, hlow]), if_pos rfl]
  exact ⟨State.rd_wr_same _ _ _, State.wr_onlyRegs _ _ _⟩

theorem answers_absCfgWrite {v : Word} (hssi : (s.shf ch).ssi = .idle) (hbits : 8 ≤ fieldOf v 20 6 ∧ fieldOf v 20 6 ≤ 32)
    (hhalf : 50 ≤ fieldOf v 10 10 ∧ fieldOf v 10 10 ≤ 1000) : answers (.shfAbsCfgWrite ch false v) s fun t =>
      t.rd (Reg.SHF_ABS_CFG ch) = v &&& 0xF3FFFC7F ∧ onlyRegs s t [Reg.SHF_ABS_CFG ch] := by
  refine answers_of_via (f := fun t => t.absCfgWrite ch false v) rfl hopen ?_
  rw [State.absCfgWrite, if_neg (by simp [hssi, hbits, hhalf]), if_neg (by decide)]
  exact ⟨State.rd_wr_same _ _ _, State.wr_onlyRegs _ _ _⟩

theorem answers_absWrite_refused (v : Word) (hssi : (s.shf ch).ssi ≠ .idle) (time : Bool) :
    answers (.shfAbsCfgWrite ch time v) s fun t => t.bitOf (Reg.SHF_EVT ch) 9 = true ∧ onlyRegs s t [Reg.SHF_EVT ch] := by
  refine answers_of_via (f := fun t => t.absCfgWrite ch time v) rfl hopen ?_
  rw [State.absCfgWrite, if_pos (.inr hssi)]
  exact s.shfRefuse_spec ch

end

/-- A word exclusive-or its own shift: shifts add up when the step is taken twice. -/
def xorShift (n : Nat) (x : Word) : Word := x ^^^ (x >>> n)

theorem xorShift_comm (m n : Nat) (x : Word) : xorShift m (xorShift n x) = xorShift n (xorShift m x) := by
  simp only [xorShift, BitVec.ushiftRight_xor_distrib, ← BitVec.shiftRight_add, Nat.add_comm n m]
  rw [BitVec.xor_assoc, BitVec.xor_assoc, ← BitVec.xor_assoc (x >>> n), BitVec.xor_comm (x >>> n), BitVec.xor_assoc (x >>> m)]

theorem xorShift_twice (n : Nat) (x : Word) : xorShift n (xorShift n x) = xorShift (n + n) x := by
  simp only [xorShift, BitVec.ushiftRight_xor_distrib, ← BitVec.shiftRight_add]
  rw [BitVec.xor_assoc, ← BitVec.xor_assoc (x >>> n), BitVec.xor_self, BitVec.zero_xor]

/-- Binary, Gray-coded again, is the word that was read (R777). -/
theorem xorShift_grayToBin (x : Word) : grayToBin x ^^^ (grayToBin x >>> 1) = x := by
  change xorShift 1 (xorShift 16 (xorShift 8 (xorShift 4 (xorShift 2 (xorShift 1 x))))) = x
  rw [xorShift_comm 1 16, xorShift_comm 1 8, xorShift_comm 1 4, xorShift_comm 1 2, xorShift_twice 1, xorShift_twice 2,
    xorShift_twice 4, xorShift_twice 8, xorShift_twice 16, xorShift, BitVec.ushiftRight_eq_zero le_rfl, BitVec.xor_zero]

/-- What a word read asks of the registers (R777). -/
theorem State.ssiWord_spec (s : State) (ch : Fin 2) (vt bits : Word) (high : Bool) :
    (s.ssiWord ch vt bits high).shfs = s.shfs ∧ (s.ssiWord ch vt bits high).rd (Reg.SHF_ABS_VT ch) = vt ∧
      ((s.bitOf (Reg.SHF_ABS_CFG ch) 29 && high) = true → (s.ssiWord ch vt bits high).bitOf (Reg.SHF_EVT ch) 7 = true ∧
        (s.ssiWord ch vt bits high).rd (Reg.SHF_ABS_POS ch) = s.rd (Reg.SHF_ABS_POS ch)) ∧
      ((s.bitOf (Reg.SHF_ABS_CFG ch) 29 && high) = false → (s.ssiWord ch vt bits high).bitOf (Reg.SHF_EVT ch) 5 = true ∧
        let w := bits &&& BitVec.ofNat 32 (2 ^ s.field (Reg.SHF_ABS_CFG ch) 20 6 - 1)
        (s.bitOf (Reg.SHF_ABS_CFG ch) 30 = false → (s.ssiWord ch vt bits high).rd (Reg.SHF_ABS_POS ch) = w) ∧
        (s.bitOf (Reg.SHF_ABS_CFG ch) 30 = true → (s.ssiWord ch vt bits high).rd (Reg.SHF_ABS_POS ch) ^^^
          ((s.ssiWord ch vt bits high).rd (Reg.SHF_ABS_POS ch) >>> 1) = w)) := by
  have hother : Reg.SHF_ABS_VT ch ≠ Reg.SHF_EVT ch ∧ Reg.SHF_ABS_VT ch ≠ Reg.SHF_ABS_POS ch ∧
      Reg.SHF_ABS_CFG ch ≠ Reg.SHF_ABS_VT ch ∧ Reg.SHF_ABS_POS ch ≠ Reg.SHF_EVT ch := by
    simp only [Reg.SHF_ABS_VT, Reg.SHF_EVT, Reg.SHF_ABS_POS, Reg.SHF_ABS_CFG]
    omega
  obtain ⟨hve, hvp, hcv, hpe⟩ := hother
  unfold State.ssiWord
  extract_lets n w s1
  have hcfg : ∀ i, s1.bitOf (Reg.SHF_ABS_CFG ch) i = s.bitOf (Reg.SHF_ABS_CFG ch) i :=
    State.bitOf_congr (State.rd_wr_other _ _ _ _ hcv)
  simp only [hcfg]
  by_cases hframe : s.bitOf (Reg.SHF_ABS_CFG ch) 29 = true ∧ high = true
  · rw [if_pos hframe]
    refine ⟨rfl, ?_, fun _ => ⟨State.bitOf_setBit_same _ _ (by decide), ?_⟩, fun h => ?_⟩
    · rw [State.rd_setBit_other _ _ _ _ hve, State.rd_wr_same]
    · rw [State.rd_setBit_other _ _ _ _ hpe, State.rd_wr_other _ _ _ _ hvp.symm]
    · simp [hframe] at h
  · rw [if_neg hframe]
    refine ⟨rfl, ?_, fun h => absurd (by simpa using h) hframe, fun _ => ⟨State.bitOf_setBit_same _ _ (by decide), ?_⟩⟩
    · rw [State.rd_setBit_other _ _ _ _ hve, State.rd_wr_other _ _ _ _ hvp, State.rd_wr_same]
    · rw [State.rd_setBit_other _ _ _ _ hpe, State.rd_wr_same]
      refine ⟨fun h => if_neg (by simp [h]), fun h => ?_⟩
      rw [if_pos h]
      exact xorShift_grayToBin w

section
variable (ch : Fin 2) (vt bits : Word) (high : Bool) {s : State} (hopen : s.open .shf = true)
  (hssi : (s.shf ch).ssi = .reading)
include hopen hssi

theorem answers_ssiReadDone_word : answers (.ssiReadDone ch true vt bits high) s fun t =>
    t.shf ch = { s.shf ch with ssi := .pause } ∧ t.rd (Reg.SHF_ABS_VT ch) = vt ∧
      ((s.bitOf (Reg.SHF_ABS_CFG ch) 29 && high) = true → t.bitOf (Reg.SHF_EVT ch) 7 = true ∧
        t.rd (Reg.SHF_ABS_POS ch) = s.rd (Reg.SHF_ABS_POS ch)) ∧
      ((s.bitOf (Reg.SHF_ABS_CFG ch) 29 && high) = false → t.bitOf (Reg.SHF_EVT ch) 5 = true ∧
        let w := bits &&& BitVec.ofNat 32 (2 ^ s.field (Reg.SHF_ABS_CFG ch) 20 6 - 1)
        (s.bitOf (Reg.SHF_ABS_CFG ch) 30 = false → t.rd (Reg.SHF_ABS_POS ch) = w) ∧
        (s.bitOf (Reg.SHF_ABS_CFG ch) 30 = true →
          t.rd (Reg.SHF_ABS_POS ch) ^^^ (t.rd (Reg.SHF_ABS_POS ch) >>> 1) = w)) := by
  refine ⟨_, if_neg (by simp [hopen, hssi]), ?_⟩
  obtain ⟨hshf, hrest⟩ := (s.setShf ch { s.shf ch with ssi := .pause }).ssiWord_spec ch vt bits high
  refine ⟨?_, hrest⟩
  change Sparse.get _ ((s.setShf ch { s.shf ch with ssi := .pause }).ssiWord ch vt bits high).shfs ch = _
  rw [hshf]
  exact State.shf_setShf_same _ _ _

theorem answers_ssiReadDone_none : answers (.ssiReadDone ch false vt bits high) s fun t =>
    t.shf ch = { s.shf ch with ssi := .pause } ∧ t.bitOf (Reg.SHF_EVT ch) 6 = true ∧ regsBut s t [Reg.SHF_EVT ch] :=
  ⟨_, if_neg (by simp [hopen, hssi]), State.shf_setShf_same _ _ _, State.bitOf_setBit_same _ _ (by decide),
    (State.setBits_onlyRegs (s.setShf ch { s.shf ch with ssi := .pause }) _ _).2.1⟩

end

end Sys2Proof.Machine

namespace Sys2Proof.ConverterAndShaft

open Sys2Proof.Machine Sys2Proof.Safety

/-- Settles O58, command by command. -/
theorem converterAndShaftCommands : Obligations.ConverterAndShaftCommands := by
  refine ⟨fun s hopen => ⟨answers_adcStart hopen, answers_adcStart_refused hopen, answers_adcStop hopen,
      answers_adcStop_refused hopen, answers_adcCal hopen, answers_adcCal_refused hopen⟩,
    fun m gain v s hopen => ⟨answers_adcFactorWrite hopen m gain v, answers_adcFactorWrite_refused hopen m gain v⟩,
    fun o0 o1 o2 o3 r0 r1 r2 r3 s hopen hcal => answers_calDone o0 o1 o2 o3 r0 r1 r2 r3 hopen hcal,
    fun s hopen hjbusy hcal => ⟨answers_jgo hopen hjbusy hcal, answers_jatMatch hopen hjbusy hcal⟩,
    fun m raw c s hopen => ⟨answers_adcSlotEnd_reg raw hopen, answers_adcSlotEnd_late raw hopen,
      fun hlate hinj _ => answers_adcSlotEnd_inj raw hopen hlate hinj⟩,
    fun n s hopen => ⟨answers_adcResRead hopen false n, ?_⟩,
    fun ch a b s hopen => answers_shaftEdge ch a b hopen,
    fun ch s hopen hz hlo hhi => ?_,
    fun ch v s hopen => ⟨answers_shfCntWrite ch hopen v, answers_shfCfgWrite ch hopen, answers_shfCfgWrite_refused ch hopen,
      answers_ssiReq ch hopen, answers_ssiReq_refused ch hopen, answers_ssiTmEnd ch hopen, answers_absTimeWrite ch hopen,
      fun hssi hlo hhi hlo' hhi' => answers_absCfgWrite ch hopen hssi ⟨hlo, hhi⟩ ⟨hlo', hhi'⟩,
      answers_absWrite_refused ch hopen v⟩,
    fun ch vt bits high s hopen hssi => ⟨answers_ssiReadDone_word ch vt bits high hopen hssi,
      answers_ssiReadDone_none ch vt bits high hopen hssi⟩⟩
  · obtain ⟨t, hexec, hdata, hvt, hbut, -⟩ := answers_adcResRead hopen true n
    exact ⟨t, hexec, hdata, hvt, hbut⟩
  · obtain ⟨t, hexec, hz', hexpected, href, hbad⟩ := answers_indexEdge ch hopen hz hlo hhi
    exact ⟨t, hexec, hz', hexpected, href, hbad⟩

end Sys2Proof.ConverterAndShaft
end

section
/-! The safety channels (R680 to R720): what an announcement, a switching and a trip leave of them, and when a switch is off. -/

namespace Sys2Proof.Machine

/-- A bit is set or cleared in a vector: that bit is so, the others stay. -/
theorem getLsbD_putBit {w : Nat} (x : BitVec w) {i j : Nat} (v : Bool) (hi : i < w) :
    (if v then x ||| (1#w) <<< i else x &&& ~~~ ((1#w) <<< i)).getLsbD j = if j = i then v else x.getLsbD j := by
  rw [← BitVec.twoPow_eq]
  by_cases hij : j = i
  · subst hij
    cases v <;> simp [hi]
  · cases v
    · by_cases hj : j < w
      · simp [hij, hj]
      · simp [BitVec.getLsbD_of_ge _ _ (Nat.le_of_not_lt hj), hij]
    · simp [hij, Ne.symm hij]

/-! ## What is only announced -/

/-- From `s` to `t` the safety section has only announced: its channels stay, events and notes gathered stay. -/
structure SafTold (s t : State) : Prop where
  moved : SafMoved s t
  rest : { t.saf with out := s.saf.out, note := s.saf.note, trips := s.saf.trips } = s.saf
  note : ∀ m, s.saf.note.getLsbD m = true → t.saf.note.getLsbD m = true

namespace SafTold

variable {s t u : State}

theorem refl (s : State) : SafTold s s := ⟨.refl s, rfl, fun _ => id⟩

theorem trans (h : SafTold s t) (k : SafTold t u) : SafTold s u :=
  ⟨h.moved.trans k.moved, (congrArg (fun x : Saf => { x with out := s.saf.out, note := s.saf.note, trips := s.saf.trips }) k.rest
    :).trans h.rest, fun m => k.note m ∘ h.note m⟩

theorem safCh (h : SafTold s t) (c : Nat) : t.safCh c = s.safCh c := by
  rw [State.safCh, (congrArg Saf.chs h.rest :), State.safCh]

theorem fieldEvent (s : State) (n : Nat) : SafTold s (s.fieldEvent n) := by
  have hmoved := SafMoved.fieldEvent s n
  obtain ⟨no, set, next, h⟩ := s.fieldEvent_rest n
  rw [h] at hmoved ⊢
  exact ⟨hmoved, rfl, fun _ => id⟩

theorem safNote (s : State) (b : Nat) : SafTold s (s.safNote b) :=
  ⟨.safNote s b, rfl, fun m h => by rw [State.safNote, BitVec.getLsbD_or, h, Bool.true_or]⟩

theorem safLost (s : State) (x : SafCh) : SafTold s (s.safLost x) := by
  unfold State.safLost
  split
  · exact .safNote s 2
  · exact .refl s

theorem blockNow (s : State) : SafTold s s.blockNow := by
  obtain ⟨-, -, hrest, -⟩ := s.blockNow_spec
  have hsaf := congrArg State.saf hrest
  have hfio := congrArg State.fio hrest
  dsimp only at hsaf hfio
  refine ⟨⟨?_, by rw [hfio], fun m => by rw [hfio]; exact id⟩, by rw [hsaf], fun m => by rw [hsaf]; exact id⟩
  exact (congrArg (fun v : State => { v with saf := s.saf, fio := s.fio }) hrest :)

theorem safLook (s : State) : SafTold s s.safLook := by
  unfold State.safLook
  extract_lets out earth _ s1
  have h1 : SafTold s s1 := ⟨.with_saf s _, rfl, fun _ => id⟩
  clear_value earth
  split
  · split
    · exact (h1.trans (.fieldEvent _ _)).trans (.safNote _ _)
    split
    · exact h1.trans (.safNote _ _)
    · exact h1
  · exact h1

end SafTold

/-! ## What only switches -/

/-- A channel but its switches and its off-pulse test. -/
def SafCh.core (x : SafCh) : SafCh := { x with sw := 0, test := none }

/-- From `s` to `t` the safety section has only announced and switched: an off-pulse test may end. -/
structure SafSwitched (s t : State) : Prop where
  moved : SafMoved s t
  core : ∀ c, (t.safCh c).core = (s.safCh c).core
  test : ∀ c, (t.safCh c).test = (s.safCh c).test ∨ (t.safCh c).test = none
  rest : { t.saf with chs := s.saf.chs, out := s.saf.out, note := s.saf.note, trips := s.saf.trips } = s.saf
  note : ∀ m, s.saf.note.getLsbD m = true → t.saf.note.getLsbD m = true

/-- What a change of one channel keeps, it keeps of every channel. -/
theorem State.setSafCh_each (s : State) (c : Nat) {x : SafCh} {P : SafCh → SafCh → Prop} (hrefl : ∀ y, P y y)
    (h : P (s.safCh c) x) (k : Nat) : P (s.safCh k) ((s.setSafCh c x).safCh k) := by
  rw [State.safCh_setSafCh]
  split
  · next hk => exact hk ▸ h
  · exact hrefl _

/-- A test that has stayed or ended, and then stayed or ended. -/
theorem test_trans {a b c : Option (Fin 8)} (h : b = a ∨ b = none) (k : c = b ∨ c = none) : c = a ∨ c = none := by
  obtain rfl | rfl := k
  · exact h
  · exact .inr rfl

namespace SafSwitched

variable {s t u : State}

theorem refl (s : State) : SafSwitched s s := ⟨.refl s, fun _ => rfl, fun _ => .inl rfl, rfl, fun _ => id⟩

theorem trans (h : SafSwitched s t) (k : SafSwitched t u) : SafSwitched s u :=
  ⟨h.moved.trans k.moved, fun c => (k.core c).trans (h.core c), fun c => test_trans (h.test c) (k.test c),
    (congrArg (fun x : Saf => { x with chs := s.saf.chs, out := s.saf.out, note := s.saf.note, trips := s.saf.trips }) k.rest
      :).trans h.rest, fun m => k.note m ∘ h.note m⟩

theorem of_told (h : SafTold s t) : SafSwitched s t :=
  ⟨h.moved, fun c => by rw [h.safCh], fun c => .inl (by rw [h.safCh]), (congrArg (fun x : Saf => { x with chs := s.saf.chs }) h.rest :),
    h.note⟩

theorem setSafCh (s : State) (c : Nat) {x : SafCh} (hcore : x.core = (s.safCh c).core)
    (htest : x.test = (s.safCh c).test ∨ x.test = none) : SafSwitched s (s.setSafCh c x) := by
  exact ⟨.setSafCh s c x, s.setSafCh_each c (P := fun y z => z.core = y.core) (fun _ => rfl) hcore,
    s.setSafCh_each c (P := fun y z => z.test = y.test ∨ z.test = none) (fun _ => .inl rfl) htest, rfl, fun _ => id⟩

theorem on (h : SafSwitched s t) (c : Nat) : (t.safCh c).on = (s.safCh c).on := (congrArg SafCh.on (h.core c) :)
theorem blk (h : SafSwitched s t) (c : Nat) : (t.safCh c).blk = (s.safCh c).blk := (congrArg SafCh.blk (h.core c) :)
theorem latch (h : SafSwitched s t) (c : Nat) : (t.safCh c).latch = (s.safCh c).latch := (congrArg SafCh.latch (h.core c) :)
theorem causes (h : SafSwitched s t) (c : Nat) : (t.safCh c).causes = (s.safCh c).causes := (congrArg SafCh.causes (h.core c) :)
theorem bank (h : SafSwitched s t) (c : Nat) : (t.safCh c).bank = (s.safCh c).bank := (congrArg SafCh.bank (h.core c) :)
theorem bankBad (h : SafSwitched s t) (c : Nat) : (t.safCh c).bankBad = (s.safCh c).bankBad := (congrArg SafCh.bankBad (h.core c) :)
theorem dischOk (h : SafSwitched s t) (c : Nat) : (t.safCh c).dischOk = (s.safCh c).dischOk := (congrArg SafCh.dischOk (h.core c) :)
theorem fail (h : SafSwitched s t) : t.saf.fail = s.saf.fail := (congrArg Saf.fail h.rest :)

end SafSwitched

/-- A command of a switch: it stands so, and the channel's other switches and the other channel's stay. -/
theorem State.safSwitch_spec (s : State) (c so : Nat) (v : Bool) : SafSwitched s (s.safSwitch c so v) ∧
    ∀ k, ((s.safSwitch c so v).safCh k).sw = if k = c then ((s.safCh c).setSw so v).sw else (s.safCh k).sw := by
  unfold State.safSwitch
  extract_lets s1
  have h1 : SafSwitched s s1 := .setSafCh s c rfl (.inl rfl)
  have hsw1 : ∀ k, (s1.safCh k).sw = if k = c then ((s.safCh c).setSw so v).sw else (s.safCh k).sw := fun k => by
    rw [State.safCh_setSafCh]
    split <;> rfl
  split
  · exact ⟨h1, hsw1⟩
  · obtain ⟨h2, hsw2⟩ := foldl_leaves (R := fun t u => SafSwitched t u ∧ ∀ k, (u.safCh k).sw = (t.safCh k).sw)
      (f := fun (t : State) (k : Nat) =>
        if (t.safCh k).test.map Fin.val = some so then t.setSafCh k { t.safCh k with test := none } else t) (l := [0, 1])
      (fun t => ⟨.refl t, fun _ => rfl⟩) (fun _ _ _ h k => ⟨h.1.trans k.1, fun n => (k.2 n).trans (h.2 n)⟩) (fun t k _ => by
        split
        · refine ⟨.setSafCh t k rfl (.inr rfl), fun n => ?_⟩
          rw [State.safCh_setSafCh]
          split
          · next h => rw [h]
          · rfl
        · exact ⟨.refl t, fun _ => rfl⟩) s1
    exact ⟨h1.trans h2, fun k => (hsw2 k).trans (hsw1 k)⟩

/-- From `s` to `t` there is only switching, none of the switch `so` of channel `c`. -/
def SafSwitchedElse (c so : Nat) (s t : State) : Prop :=
  SafSwitched s t ∧ (t.safCh c).sw.getLsbD so = (s.safCh c).sw.getLsbD so

theorem SafSwitchedElse.refl (c so : Nat) (s : State) : SafSwitchedElse c so s s := ⟨.refl s, rfl⟩

theorem SafSwitchedElse.trans {c so : Nat} {s t u : State} (h : SafSwitchedElse c so s t) (k : SafSwitchedElse c so t u) :
    SafSwitchedElse c so s u := ⟨h.1.trans k.1, k.2.trans h.2⟩

theorem State.safSwitch_else (s : State) {c k so o : Nat} (v : Bool) (ho : o < 8) (h : k ≠ c ∨ o ≠ so) :
    SafSwitchedElse c so s (s.safSwitch k o v) := by
  obtain ⟨hsw, hbits⟩ := s.safSwitch_spec k o v
  refine ⟨hsw, ?_⟩
  rw [hbits]
  split
  · next hk =>
    subst hk
    exact (getLsbD_putBit _ v ho).trans (if_neg (h.resolve_left fun h => h rfl).symm)
  · rfl

theorem State.safSwitch_own (s : State) (c : Nat) {so : Nat} (v : Bool) (hso : so < 8) :
    ((s.safSwitch c so v).safCh c).sw.getLsbD so = v := by
  rw [(s.safSwitch_spec c so v).2 c, if_pos rfl]
  exact (getLsbD_putBit _ v hso).trans (if_pos rfl)

/-- The order in which a channel sets its switches: DOOR last (R701). -/
def safOrder (b : List Byte) : List Nat :=
  ((List.range 8).filter fun so => safFunc b so != 3) ++ (List.range 8).filter fun so => safFunc b so == 3

theorem mem_safOrder (b : List Byte) (so : Nat) : so ∈ safOrder b ↔ so < 8 := by
  simp only [safOrder, List.mem_append, List.mem_filter, List.mem_range, bne_iff_ne, beq_iff_eq]
  tauto

theorem nodup_safOrder (b : List Byte) : (safOrder b).Nodup := by
  refine List.Nodup.append (List.nodup_range.filter _) (List.nodup_range.filter _) fun so h h' => ?_
  simp only [List.mem_filter, bne_iff_ne, beq_iff_eq] at h h'
  exact h.2 h'.2

/-- A channel's setting of its switches is a loop of commands to them: all off without a block, else as each function says. -/
theorem State.safEval_loop (s : State) (c : Nat) : ∃ (l : List Nat) (v : State → Nat → Bool),
    s.safEval c = (l.foldl (fun t so => t.safSwitch c so (v t so)) s).safLook ∧ l.Nodup ∧ (∀ so, so ∈ l ↔ so < 8) ∧
      ∀ t so, SafSwitched s t → v t so = true → ∃ b crc earth, (t.safCh c).blk = some (b, crc) ∧
        (t.safMay c so && (t.safCh c).funOn b (safFunc b so) earth) = true := by
  unfold State.safEval
  split
  · exact ⟨List.range 8, fun _ _ => false, rfl, List.nodup_range, fun _ => List.mem_range, fun _ _ _ h => nomatch h⟩
  · next b crc hblk =>
    exact ⟨safOrder b, _, rfl, nodup_safOrder b, mem_safOrder b,
      fun t so ht hv => ⟨b, crc, _, (ht.blk c).trans hblk, hv⟩⟩

/-- Nothing lets channel `c` close its switch `so`, as long as there is only switching. -/
def State.MayNot (s : State) (c so : Nat) : Prop := ∀ t, SafSwitched s t → ∀ b crc earth, (t.safCh c).blk = some (b, crc) →
  (t.safMay c so && (t.safCh c).funOn b (safFunc b so) earth) = false

theorem State.MayNot.switched {s t : State} {c so : Nat} (h : s.MayNot c so) (k : SafSwitched s t) : t.MayNot c so :=
  fun u hu => h u (k.trans hu)

theorem State.safEval_switched (s : State) (c : Nat) : SafSwitched s (s.safEval c) := by
  obtain ⟨l, v, heq, -⟩ := s.safEval_loop c
  rw [heq]
  exact (foldl_leaves (R := SafSwitched) .refl (fun _ _ _ => .trans) (fun t k _ => (t.safSwitch_spec c k _).1) s).trans
    (.of_told (.safLook _))

/-- A channel sets its own switches only. -/
theorem State.safEval_other (s : State) {c k : Nat} (hk : k ≠ c) (so : Nat) : SafSwitchedElse c so s (s.safEval k) := by
  obtain ⟨l, v, heq, -, hmem, -⟩ := s.safEval_loop k
  rw [heq]
  refine (foldl_leaves (R := SafSwitchedElse c so) (.refl c so) (fun _ _ _ => .trans)
    (fun t o ho => t.safSwitch_else _ ((hmem o).1 ho) (.inl hk)) s).trans ⟨.of_told (.safLook _), ?_⟩
  rw [(SafTold.safLook _).safCh]

/-- A channel opens a switch that nothing lets it close. -/
theorem State.safEval_off {s : State} {c so : Nat} (hso : so < 8) (h : s.MayNot c so) :
    ((s.safEval c).safCh c).sw.getLsbD so = false := by
  obtain ⟨l, v, heq, hnodup, hmem, hv⟩ := s.safEval_loop c
  obtain ⟨u, r, ⟨hu, -⟩, -, ⟨-, hafter⟩, -⟩ := foldl_at (R := SafSwitchedElse c so) (.refl c so) (fun _ _ _ => .trans)
    (f := fun t so => t.safSwitch c so (v t so)) (fun t o ho hne => t.safSwitch_else _ ((hmem o).1 ho) (.inr hne)) hnodup
    ((hmem so).2 hso) s
  rw [heq, (SafTold.safLook _).safCh, hafter, State.safSwitch_own _ _ _ hso]
  by_contra hon
  obtain ⟨b, crc, earth, hblk, hmay⟩ := hv u so hu (by simpa using hon)
  rw [h u hu b crc earth hblk] at hmay
  exact Bool.false_ne_true hmay

theorem State.safBoth_switched (s : State) : SafSwitched s s.safBoth :=
  (s.safEval_switched 0).trans (State.safEval_switched _ 1)

theorem State.safBoth_off {s : State} {c so : Nat} (hc : c < 2) (hso : so < 8) (h : s.MayNot c so) :
    (s.safBoth.safCh c).sw.getLsbD so = false := by
  obtain rfl | rfl : c = 0 ∨ c = 1 := by omega
  · exact ((s.safEval 0).safEval_other (c := 0) (k := 1) (by decide) so).2.trans (State.safEval_off hso h)
  · exact State.safEval_off hso (h.switched (s.safEval_switched 0))

theorem State.mayNot_of_fail {s : State} {so : Nat} (c : Nat) (h : s.saf.fail.getLsbD so = true) : s.MayNot c so := by
  intro t ht b crc earth _
  simp [State.safMay, ht.fail, h]

theorem State.mayNot_of_bankBad {s : State} {c : Nat} (h : (s.safCh c).bankBad = true) (so : Nat) : s.MayNot c so := by
  intro t ht b crc earth _
  simp [State.safMay, ht.bankBad c, h]

theorem State.mayNot_of_noBlk {s : State} {c : Nat} (h : (s.safCh c).blk = none) (so : Nat) : s.MayNot c so := by
  intro t ht b crc earth hblk
  rw [ht.blk, h] at hblk
  exact nomatch hblk

/-- BRK stays off while the latch is set (R701). -/
theorem State.mayNot_of_latch {s : State} {c so : Nat} {b : List Byte} {crc : Word} (hblk : (s.safCh c).blk = some (b, crc))
    (hfun : safFunc b so = 1) (h : (s.safCh c).latch = true) : s.MayNot c so := by
  intro t ht b' crc' earth hblk'
  rw [ht.blk, hblk] at hblk'
  obtain ⟨rfl, -⟩ := Prod.mk.inj (Option.some.inj hblk')
  simp [hfun, SafCh.funOn, ht.latch c, h]

/-! ## What trips and samples -/

/-- A channel but what a trip and the reset input change of it, and its switches. -/
def SafCh.frame (x : SafCh) : SafCh :=
  { x.core with
    latch := false, causes := 0, latchAt := 0, dischOk := false, edgeAt := none, zeros := 0, ones := 0, held := false
    bankBad := false }

/-- From `s` to `t` no latch and no cause has cleared, and beside what trips, the reset input and switching change the channels
stay. -/
structure SafKept (s t : State) : Prop where
  moved : SafMoved s t
  frame : ∀ c, (t.safCh c).frame = (s.safCh c).frame
  latch : ∀ c, (s.safCh c).latch = true → (t.safCh c).latch = true
  causes : ∀ c m, (s.safCh c).causes.getLsbD m = true → (t.safCh c).causes.getLsbD m = true
  test : ∀ c, (t.safCh c).test = (s.safCh c).test ∨ (t.safCh c).test = none
  rest : { t.saf with chs := s.saf.chs, out := s.saf.out, note := s.saf.note, trips := s.saf.trips } = s.saf
  note : ∀ m, s.saf.note.getLsbD m = true → t.saf.note.getLsbD m = true

namespace SafKept

variable {s t u : State}

theorem trans (h : SafKept s t) (k : SafKept t u) : SafKept s u :=
  ⟨h.moved.trans k.moved, fun c => (k.frame c).trans (h.frame c), fun c => k.latch c ∘ h.latch c,
    fun c m => k.causes c m ∘ h.causes c m, fun c => test_trans (h.test c) (k.test c),
    (congrArg (fun x : Saf => { x with chs := s.saf.chs, out := s.saf.out, note := s.saf.note, trips := s.saf.trips }) k.rest
      :).trans h.rest, fun m => k.note m ∘ h.note m⟩

theorem of_switched (h : SafSwitched s t) : SafKept s t :=
  ⟨h.moved, fun c => (congrArg SafCh.frame (h.core c) :), fun c => by rw [h.latch]; exact id,
    fun c m => by rw [h.causes]; exact id, h.test, h.rest, h.note⟩

theorem of_told (h : SafTold s t) : SafKept s t := of_switched (.of_told h)

theorem refl (s : State) : SafKept s s := of_told (.refl s)

theorem setSafCh (s : State) (c : Nat) {x : SafCh} (hframe : x.frame = (s.safCh c).frame)
    (hlatch : (s.safCh c).latch = true → x.latch = true)
    (hcauses : ∀ m, (s.safCh c).causes.getLsbD m = true → x.causes.getLsbD m = true) (htest : x.test = (s.safCh c).test) :
    SafKept s (s.setSafCh c x) := by
  exact ⟨.setSafCh s c x, s.setSafCh_each c (P := fun y z => z.frame = y.frame) (fun _ => rfl) hframe,
    s.setSafCh_each c (P := fun y z => y.latch = true → z.latch = true) (fun _ => id) hlatch,
    s.setSafCh_each c (P := fun y z => ∀ m, y.causes.getLsbD m = true → z.causes.getLsbD m = true) (fun _ _ => id) hcauses,
    s.setSafCh_each c (P := fun y z => z.test = y.test ∨ z.test = none) (fun _ => .inl rfl) (.inl htest), rfl, fun _ => id⟩

theorem on (h : SafKept s t) (c : Nat) : (t.safCh c).on = (s.safCh c).on := (congrArg SafCh.on (h.frame c) :)
theorem blk (h : SafKept s t) (c : Nat) : (t.safCh c).blk = (s.safCh c).blk := (congrArg SafCh.blk (h.frame c) :)
theorem pairs (h : SafKept s t) (c : Nat) : (t.safCh c).pairs = (s.safCh c).pairs := (congrArg SafCh.pairs (h.frame c) :)
theorem disc (h : SafKept s t) (c : Nat) : (t.safCh c).disc = (s.safCh c).disc := (congrArg SafCh.disc (h.frame c) :)
theorem differ (h : SafKept s t) (c : Nat) : (t.safCh c).differ = (s.safCh c).differ := (congrArg SafCh.differ (h.frame c) :)
theorem req (h : SafKept s t) (c : Nat) : (t.safCh c).req = (s.safCh c).req := (congrArg SafCh.req (h.frame c) :)
theorem rx (h : SafKept s t) (c : Nat) : (t.safCh c).rx = (s.safCh c).rx := (congrArg SafCh.rx (h.frame c) :)
theorem bank (h : SafKept s t) (c : Nat) : (t.safCh c).bank = (s.safCh c).bank := (congrArg SafCh.bank (h.frame c) :)
theorem fail (h : SafKept s t) : t.saf.fail = s.saf.fail := (congrArg Saf.fail h.rest :)
theorem fails (h : SafKept s t) : t.saf.fails = s.saf.fails := (congrArg Saf.fails h.rest :)
theorem linkOk (h : SafKept s t) : t.saf.linkOk = s.saf.linkOk := (congrArg Saf.linkOk h.rest :)

end SafKept

/-! ## Trips -/

/-- A channel that trips with a cause (R696). -/
def SafCh.tripped (x : SafCh) (k : SafCause) (up : Nat) : SafCh :=
  { x with
    latch := true, causes := x.causes ||| ((1 : BitVec 10) <<< k.bit), edgeAt := none
    latchAt := if x.latch then x.latchAt else up, dischOk := x.latch && x.dischOk }

theorem SafCh.tripped_cause (x : SafCh) (k : SafCause) (up : Nat) : (x.tripped k up).causes.getLsbD k.bit = true := by
  have hbit : ((1 : BitVec 10) <<< k.bit).getLsbD k.bit = true := by cases k <;> decide
  rw [SafCh.tripped, BitVec.getLsbD_or, hbit, Bool.or_true]

/-- A trip that is none: of a channel that is off, or with a cause that is latched. -/
theorem State.safTrip_known {s : State} {c : Nat} {k : SafCause}
    (h : (s.safCh c).on = false ∨ ((s.safCh c).latch = true ∧ (s.safCh c).causes.getLsbD k.bit = true)) : s.safTrip c k = s :=
  if_pos h

/-- A trip changes its channel and else only announces. -/
theorem State.safTrip_new {s : State} {c : Nat} {k : SafCause}
    (h : ¬((s.safCh c).on = false ∨ ((s.safCh c).latch = true ∧ (s.safCh c).causes.getLsbD k.bit = true))) :
    SafTold (s.setSafCh c ((s.safCh c).tripped k s.sys.up)) (s.safTrip c k) := by
  unfold State.safTrip
  extract_lets x known first x1 s1 _ s2 s3
  rw [if_neg h]
  have h1 : SafTold (s.setSafCh c ((s.safCh c).tripped k s.sys.up)) s1 := .safLost _ x
  clear_value s1
  have h2 : SafTold s1 s2 := by
    simp only [s2]
    split
    · exact ⟨.with_saf s1 _, rfl, fun _ => id⟩
    · exact .refl s1
  have h3 : SafTold s2 s3 := by
    simp only [s3]
    split
    · exact .refl s2
    · exact (SafTold.fieldEvent s2 11).trans (.safNote _ 0)
  split
  · exact (h1.trans h2).trans h3
  · exact ((h1.trans h2).trans h3).trans (.blockNow s3)

theorem SafKept.tripped (s : State) (c : Nat) (k : SafCause) : SafKept s (s.setSafCh c ((s.safCh c).tripped k s.sys.up)) :=
  .setSafCh s c rfl (fun _ => rfl) (fun m h => by rw [SafCh.tripped, BitVec.getLsbD_or, h, Bool.true_or]) rfl

theorem State.safTrip_kept (s : State) (c : Nat) (k : SafCause) : SafKept s (s.safTrip c k) := by
  by_cases h : (s.safCh c).on = false ∨ ((s.safCh c).latch = true ∧ (s.safCh c).causes.getLsbD k.bit = true)
  · rw [State.safTrip_known h]
    exact .refl s
  · exact (SafKept.tripped s c k).trans (.of_told (State.safTrip_new h))

/-- A trip of a running channel sets its latch and its cause. -/
theorem State.safTrip_latched {s : State} {c : Nat} (k : SafCause) (hon : (s.safCh c).on = true) :
    ((s.safTrip c k).safCh c).latch = true ∧ ((s.safTrip c k).safCh c).causes.getLsbD k.bit = true := by
  by_cases h : (s.safCh c).on = false ∨ ((s.safCh c).latch = true ∧ (s.safCh c).causes.getLsbD k.bit = true)
  · rw [State.safTrip_known h]
    exact h.resolve_left (by simp [hon])
  · rw [(State.safTrip_new h).safCh, State.safCh_setSafCh_same]
    exact ⟨rfl, SafCh.tripped_cause _ k _⟩

/-- What a trip latched stays latched. -/
theorem SafKept.tripStays {s t : State} {c : Nat} {k : SafCause} (h : SafKept (s.safTrip c k) t) (hon : (s.safCh c).on = true) :
    (t.safCh c).latch = true ∧ (t.safCh c).causes.getLsbD k.bit = true :=
  ⟨h.latch c (State.safTrip_latched k hon).1, h.causes c _ (State.safTrip_latched k hon).2⟩

end Sys2Proof.Machine
end

section
/-! The commands of the safety section (R687 to R720): what each makes of the channels. -/

namespace Sys2Proof.Machine

open Sys2Proof.Safety

/-! ## A pair in a sample -/

/-- Consecutive samples in which the inputs of a pair differ, with this one (R690). -/
def SafCh.pairCount (x : SafCh) (i : Nat) (p q : Bool) : Nat := if p = q then 0 else Sparse.get (fun _ => 0) x.differ i + 1

/-- A discrepancy that stays latched in a sample (R692). -/
def SafCh.pairLatched (x : SafCh) (i : Nat) (p q : Bool) : Bool := x.disc.getLsbD i && (p || q)

/-- A discrepancy that a sample declares (R690). -/
def SafCh.pairBad (x : SafCh) (b : List Byte) (i : Nat) (p q : Bool) : Bool :=
  !x.pairLatched i p q && x.pairCount i p q == bytesAt b (0x10 + 2 * i) 2

/-- A pair's value in a sample (R687). -/
def SafCh.pairValue (x : SafCh) (b : List Byte) (i : Nat) (p q : Bool) : Bool :=
  p && q && !x.pairLatched i p q && !x.pairBad b i p q

theorem SafCh.samplePair_rest (x : SafCh) (b : List Byte) (i : Nat) (p q : Bool) :
    { (x.samplePair b i p q).1 with differ := x.differ, disc := x.disc, pairs := x.pairs } = x := by
  unfold SafCh.samplePair
  split <;> rfl

/-- A pair's sample leaves the other pairs. -/
theorem SafCh.samplePair_other (x : SafCh) (b : List Byte) {i j : Nat} (p q : Bool) (hj : j < 8) (h : i ≠ j) :
    (x.samplePair b j p q).1.pairs.getLsbD i = x.pairs.getLsbD i ∧ (x.samplePair b j p q).1.disc.getLsbD i = x.disc.getLsbD i ∧
      Sparse.get (fun _ => 0) (x.samplePair b j p q).1.differ i = Sparse.get (fun _ => 0) x.differ i := by
  unfold SafCh.samplePair
  split
  · exact ⟨rfl, rfl, rfl⟩
  · exact ⟨(getLsbD_putBit _ _ hj).trans (if_neg h), (getLsbD_putBit _ _ hj).trans (if_neg h),
      (Sparse.get_put _ _ _ _ _).trans (if_neg h)⟩

theorem SafCh.samplePair_own (x : SafCh) {b : List Byte} {i : Nat} (p q : Bool) (hi : i < 8) (hrole : safRole b i ≠ 0) :
    (x.samplePair b i p q).1.pairs.getLsbD i = x.pairValue b i p q ∧
      (x.samplePair b i p q).1.disc.getLsbD i = (x.pairLatched i p q || x.pairBad b i p q) ∧
      (x.samplePair b i p q).2 = x.pairBad b i p q := by
  unfold SafCh.samplePair
  rw [if_neg hrole]
  exact ⟨(getLsbD_putBit _ _ hi).trans (if_pos rfl), (getLsbD_putBit _ _ hi).trans (if_pos rfl), rfl⟩

/-- A pair's sample in the state changes the channel's pair, and else trips and announces alone. -/
theorem State.safPair_spec (s : State) (c : Nat) (b : List Byte) (ins : BitVec 32) (i : Nat) :
    let r := (s.safCh c).samplePair b i (ins.getLsbD (2 * i)) (ins.getLsbD (2 * i + 1))
    SafKept (s.setSafCh c r.1) (s.safPair c b ins i) ∧
      (r.2 = true → (s.safCh c).on = true → ((s.safPair c b ins i).safCh c).latch = true ∧
        ((s.safPair c b ins i).safCh c).causes.getLsbD 4 = true) ∧
      ((s.safCh c).pairs.getLsbD i = true → r.1.pairs.getLsbD i = false → safRole b i = 1 → s.powered 11 = true →
        (s.safPair c b ins i).fio.evts.getLsbD 6 = true) := by
  intro r
  have hon : r.1.on = (s.safCh c).on := (congrArg SafCh.on ((s.safCh c).samplePair_rest b i _ _) :)
  unfold State.safPair
  extract_lets x _ s1 fell s2
  have h2 : SafTold s1 s2 := by
    simp only [s2]
    split
    · exact .fieldEvent s1 6
    split
    · exact .fieldEvent s1 7
    · exact .refl s1
  have hon2 : (s2.safCh c).on = (s.safCh c).on := by
    rw [h2.safCh, State.safCh_setSafCh_same]
    exact hon
  have hfell : (s.safCh c).pairs.getLsbD i = true → r.1.pairs.getLsbD i = false → safRole b i = 1 → s.powered 11 = true →
      s2.fio.evts.getLsbD 6 = true := fun hwas his hrole hpower => by
    have hfell : fell = true := by
      change (x.pairs.getLsbD i && !r.1.pairs.getLsbD i) = true
      rw [his, show x.pairs.getLsbD i = true from hwas]
      rfl
    simp only [s2]
    rw [if_pos ⟨hfell, hrole⟩]
    exact s1.evts_fieldEvent_same 6 hpower (by decide)
  clear_value s2
  split
  · next hbad =>
    have h3 : SafTold s2 ((s2.fieldEvent 4).safNote 3) := (SafTold.fieldEvent s2 4).trans (.safNote _ 3)
    have h4 := State.safTrip_kept ((s2.fieldEvent 4).safNote 3) c .disc
    refine ⟨(SafKept.of_told (h2.trans h3)).trans h4, fun _ hon' => ?_, fun hwas his hrole hpower => ?_⟩
    · exact State.safTrip_latched .disc (by rw [h3.safCh, hon2, hon'])
    · exact h4.moved.evt 6 (h3.moved.evt 6 (hfell hwas his hrole hpower))
  · next hbad =>
    exact ⟨.of_told h2, fun h => absurd h hbad, hfell⟩

/-- From `s` to `t` channel `c` keeps pair `i`, its block and what has tripped. -/
structure PairKept (c i : Nat) (s t : State) : Prop where
  moved : SafMoved s t
  on : (t.safCh c).on = (s.safCh c).on
  latch : (s.safCh c).latch = true → (t.safCh c).latch = true
  causes : ∀ m, (s.safCh c).causes.getLsbD m = true → (t.safCh c).causes.getLsbD m = true
  pairs : (t.safCh c).pairs.getLsbD i = (s.safCh c).pairs.getLsbD i
  disc : (t.safCh c).disc.getLsbD i = (s.safCh c).disc.getLsbD i
  differ : Sparse.get (fun _ => 0) (t.safCh c).differ i = Sparse.get (fun _ => 0) (s.safCh c).differ i

namespace PairKept

variable {c i : Nat} {s t u : State}

theorem refl (c i : Nat) (s : State) : PairKept c i s s := ⟨.refl s, rfl, id, fun _ => id, rfl, rfl, rfl⟩

theorem trans (h : PairKept c i s t) (k : PairKept c i t u) : PairKept c i s u :=
  ⟨h.moved.trans k.moved, k.on.trans h.on, k.latch ∘ h.latch, fun m => k.causes m ∘ h.causes m, k.pairs.trans h.pairs,
    k.disc.trans h.disc, k.differ.trans h.differ⟩

theorem of_kept (h : SafKept s t) : PairKept c i s t :=
  ⟨h.moved, h.on c, h.latch c, h.causes c, by rw [h.pairs], by rw [h.disc], by rw [h.differ]⟩

/-- The sample of another pair. -/
theorem safPair (s : State) (b : List Byte) (ins : BitVec 32) {j : Nat} (hj : j < 8) (h : j ≠ i) :
    PairKept c i s (s.safPair c b ins j) := by
  refine PairKept.trans ?_ (.of_kept (s.safPair_spec c b ins j).1)
  obtain ⟨hpairs, hdisc, hdiffer⟩ :=
    (s.safCh c).samplePair_other b (ins.getLsbD (2 * j)) (ins.getLsbD (2 * j + 1)) hj h.symm
  have hrest := (s.safCh c).samplePair_rest b j (ins.getLsbD (2 * j)) (ins.getLsbD (2 * j + 1))
  generalize (s.safCh c).samplePair b j (ins.getLsbD (2 * j)) (ins.getLsbD (2 * j + 1)) = r at *
  have hlatch : r.1.latch = (s.safCh c).latch := (congrArg SafCh.latch hrest :)
  have hcauses : r.1.causes = (s.safCh c).causes := (congrArg SafCh.causes hrest :)
  have hon : r.1.on = (s.safCh c).on := (congrArg SafCh.on hrest :)
  have hsame : (s.setSafCh c r.1).safCh c = r.1 := State.safCh_setSafCh_same _ _ _
  refine ⟨.setSafCh s c r.1, ?_, ?_, ?_, ?_, ?_, ?_⟩ <;> rw [hsame]
  · exact hon
  · rw [hlatch]; exact id
  · rw [hcauses]; exact fun _ => id
  · exact hpairs
  · exact hdisc
  · exact hdiffer

end PairKept

/-- What one sample makes of a pair with a role (R687, R690, R692). -/
structure PairSampled (c i : Nat) (b : List Byte) (p q : Bool) (s t : State) : Prop where
  pairs : (t.safCh c).pairs.getLsbD i = (s.safCh c).pairValue b i p q
  disc : (t.safCh c).disc.getLsbD i = ((s.safCh c).pairLatched i p q || (s.safCh c).pairBad b i p q)
  bad : (s.safCh c).pairBad b i p q = true → (t.safCh c).latch = true ∧ (t.safCh c).causes.getLsbD 4 = true
  fell : (s.safCh c).pairs.getLsbD i = true → (s.safCh c).pairValue b i p q = false → safRole b i = 1 → s.powered 11 = true →
    t.fio.evts.getLsbD 6 = true

theorem State.safPair_sampled {s : State} {c i : Nat} {b : List Byte} (ins : BitVec 32) (hi : i < 8) (hrole : safRole b i ≠ 0)
    (hon : (s.safCh c).on = true) :
    PairSampled c i b (ins.getLsbD (2 * i)) (ins.getLsbD (2 * i + 1)) s (s.safPair c b ins i) := by
  obtain ⟨hkept, hbad, hfell⟩ := s.safPair_spec c b ins i
  obtain ⟨hpairs, hdisc, hr⟩ := (s.safCh c).samplePair_own (ins.getLsbD (2 * i)) (ins.getLsbD (2 * i + 1)) hi hrole
  refine ⟨?_, ?_, fun h => hbad (hr.trans h) hon, fun hwas his => hfell hwas (hpairs.trans his)⟩
  · rw [hkept.pairs, State.safCh_setSafCh_same, hpairs]
  · rw [hkept.disc, State.safCh_setSafCh_same, hdisc]

/-- A pair's sample among those of the other pairs. -/
theorem PairSampled.among {c i : Nat} {b : List Byte} {p q : Bool} {s u v t : State} (h : PairSampled c i b p q u v)
    (hbefore : PairKept c i s u) (hafter : PairKept c i v t) : PairSampled c i b p q s t := by
  have hlatched : (u.safCh c).pairLatched i p q = (s.safCh c).pairLatched i p q := by
    rw [SafCh.pairLatched, hbefore.disc, SafCh.pairLatched]
  have hbad : (u.safCh c).pairBad b i p q = (s.safCh c).pairBad b i p q := by
    rw [SafCh.pairBad, SafCh.pairCount, hlatched, hbefore.differ, SafCh.pairBad, SafCh.pairCount]
  have hvalue : (u.safCh c).pairValue b i p q = (s.safCh c).pairValue b i p q := by
    rw [SafCh.pairValue, hlatched, hbad, SafCh.pairValue]
  refine ⟨?_, ?_, fun hb => ?_, fun hwas his hrole hpower => ?_⟩
  · rw [hafter.pairs, h.pairs, hvalue]
  · rw [hafter.disc, h.disc, hlatched, hbad]
  · obtain ⟨hlatch, hcause⟩ := h.bad (hbad.trans hb)
    exact ⟨hafter.latch hlatch, hafter.causes 4 hcause⟩
  · exact hafter.moved.evt 6 (h.fell (hbefore.pairs.trans hwas) (hvalue.trans his) hrole ((hbefore.moved.powered 11).trans hpower))

/-! ## A sample -/

/-- The causes that the pairs give: an ESTOP pair that reads 0 trips (R696). -/
theorem State.safRoleTrips_spec (s : State) (c : Nat) (b : List Byte) : SafKept s (s.safRoleTrips c b) ∧
    ((s.safCh c).on = true → (s.safCh c).all b 1 true = false → ((s.safRoleTrips c b).safCh c).latch = true ∧
      ((s.safRoleTrips c b).safCh c).causes.getLsbD 1 = true) := by
  unfold State.safRoleTrips
  extract_lets x s1 s2
  have hrest : SafKept s1 (if x.all b 3 true = true then s2 else s2.safTrip c .earthReq) := by
    have h2 : SafKept s1 s2 := by
      simp only [s2]
      split
      · exact .refl s1
      · exact s1.safTrip_kept c .access
    split
    · exact h2
    · exact h2.trans (s2.safTrip_kept c .earthReq)
  by_cases hall : x.all b 1 true = true
  · have h1 : s1 = s := if_pos hall
    rw [h1] at hrest
    exact ⟨hrest, fun _ h => absurd (hall.symm.trans h) (by decide)⟩
  · have h1 : s1 = s.safTrip c .estop := if_neg hall
    rw [h1] at hrest
    exact ⟨(s.safTrip_kept c .estop).trans hrest, fun hon _ => hrest.tripStays hon⟩

theorem State.safHeld_kept (s : State) (c : Nat) : SafKept s (s.safHeld c) :=
  ((SafKept.setSafCh s c (x := { s.safCh c with held := true }) rfl id (fun _ => id) rfl).trans
    (.of_told (.fieldEvent _ 12))).trans (.of_told (.safNote _ 9))

theorem State.safResetIn_kept (s : State) (c : Nat) (b : List Byte) (r caused : Bool) : SafKept s (s.safResetIn c b r caused) := by
  unfold State.safResetIn
  extract_lets x edge zeros ones s1 s2
  have h1 : SafKept s s1 := .setSafCh s c rfl id (fun _ => id) rfl
  have h2 : SafKept s s2 := by
    simp only [s2]
    split
    · exact h1.trans (s1.safHeld_kept c)
    · exact h1
  split
  · exact h2
  split
  · exact h2.trans (.setSafCh s2 c rfl id (fun _ => id) rfl)
  · exact h2.trans (.of_told (.safNote s2 2))

/-- What a sample of a channel makes of a pair with a role; an ESTOP pair that reads 0 has tripped. -/
theorem State.safSample_spec {s : State} {c i : Nat} {b : List Byte} {crc : Word} (ins : BitVec 32) (hi : i < 8)
    (hon : (s.safCh c).on = true) (hblk : (s.safCh c).blk = some (b, crc)) (hrole : safRole b i ≠ 0) :
    PairSampled c i b (ins.getLsbD (2 * i)) (ins.getLsbD (2 * i + 1)) s (s.safSample c ins) ∧
      (safRole b i = 1 → (s.safCh c).pairValue b i (ins.getLsbD (2 * i)) (ins.getLsbD (2 * i + 1)) = false →
        ((s.safSample c ins).safCh c).latch = true ∧ ((s.safSample c ins).safCh c).causes.getLsbD 1 = true) := by
  unfold State.safSample
  rw [hblk]
  dsimp only
  obtain ⟨u, r, hbefore, -, hafter, -⟩ := foldl_at (R := PairKept c i) (.refl c i) (fun _ _ _ => .trans)
    (f := fun (t : State) i => t.safPair c b ins i) (fun t j hj hne => .safPair t b ins (List.mem_range.1 hj) hne) List.nodup_range
    (List.mem_range.2 hi) s
  have hown := (State.safPair_sampled (s := u) ins hi hrole (hbefore.on.trans hon)).among hbefore hafter
  generalize (List.range 8).foldl (fun (t : State) i => t.safPair c b ins i) s = w at hafter hown
  have honW : (w.safCh c).on = true := by
    rw [hafter.on, (u.safPair_spec c b ins i).1.on, State.safCh_setSafCh_same,
      (congrArg SafCh.on ((u.safCh c).samplePair_rest b i _ _) : _ = (u.safCh c).on), hbefore.on, hon]
  obtain ⟨htrips, hestop⟩ := w.safRoleTrips_spec c b
  have hrest : SafKept (w.safRoleTrips c b) (((w.safRoleTrips c b).safResetIn c b (ins.getLsbD (bytesAt b 0x2C 1))
      (((w.safRoleTrips c b).safCh c).causes != (s.safCh c).causes)).safEval c) :=
    (State.safResetIn_kept _ c b _ _).trans (.of_switched (State.safEval_switched _ c))
  refine ⟨hown.among (.refl c i s) (.of_kept (htrips.trans hrest)), fun hone hvalue => ?_⟩
  obtain ⟨hlatch, hcause⟩ := hestop honW (by
    rw [SafCh.all, List.all_eq_false]
    exact ⟨i, List.mem_range.2 hi, by simp [hone, hown.pairs, hvalue]⟩)
  exact ⟨hrest.latch c hlatch, hrest.causes c 1 hcause⟩

theorem answers_safetySample {c : Fin 2} (ins : BitVec 32) {i : Fin 8} {b : List Byte} {crc : Word} {s : State}
    (hon : (s.safCh c).on = true) (hblk : (s.safCh c).blk = some (b, crc)) (hrole : safRole b i ≠ 0)
    (htime : bytesAt b (0x10 + 2 * i) 2 ≠ 0) : answers (.safetySample c ins) s fun t =>
      (ins.getLsbD (2 * i) = true → ins.getLsbD (2 * i + 1) = true → (t.safCh c).pairs.getLsbD i = !(s.safCh c).disc.getLsbD i) ∧
      (ins.getLsbD (2 * i) ≠ ins.getLsbD (2 * i + 1) → (t.safCh c).pairs.getLsbD i = false ∧
        ((s.safCh c).disc.getLsbD i = true → (t.safCh c).disc.getLsbD i = true) ∧
        ((s.safCh c).disc.getLsbD i = false → Sparse.get (fun _ => 0) (s.safCh c).differ i + 1 = bytesAt b (0x10 + 2 * i) 2 →
          (t.safCh c).disc.getLsbD i = true ∧ (t.safCh c).latch = true ∧ (t.safCh c).causes.getLsbD 4 = true)) ∧
      (ins.getLsbD (2 * i) = false → ins.getLsbD (2 * i + 1) = false → (t.safCh c).pairs.getLsbD i = false ∧
        (t.safCh c).disc.getLsbD i = false) ∧
      (safRole b i = 1 → (ins.getLsbD (2 * i) && ins.getLsbD (2 * i + 1)) = false → (t.safCh c).latch = true ∧
        (t.safCh c).causes.getLsbD 1 = true ∧
        ((s.safCh c).pairs.getLsbD i = true → s.powered 11 = true → (t.fio.evtSet ||| t.fio.evtNext).getLsbD 6 = true)) := by
  refine ⟨_, if_pos hon, ?_⟩
  obtain ⟨⟨hpairs, hdisc, hbad, hfell⟩, hestop⟩ := State.safSample_spec ins i.isLt hon hblk hrole
  generalize ins.getLsbD (2 * i) = p at *
  generalize ins.getLsbD (2 * i + 1) = q at *
  have hzero : (0 == bytesAt b (0x10 + 2 * i) 2) = false := beq_eq_false_iff_ne.2 htime.symm
  have hnone : (p && q) = false → (s.safCh c).pairValue b i p q = false := fun h => by simp [SafCh.pairValue, h]
  refine ⟨fun hp hq => ?_, fun hpq => ⟨?_, fun hd => ?_, fun hd hcount => ?_⟩, fun hp hq => ⟨?_, ?_⟩, fun hone hpq => ?_⟩
  · rw [hpairs]
    simp [SafCh.pairValue, SafCh.pairBad, SafCh.pairCount, SafCh.pairLatched, hp, hq, hzero]
  · rw [hpairs]
    refine hnone ?_
    revert hpq
    cases p <;> cases q <;> decide
  · have hor : (p || q) = true := by
      revert hpq
      cases p <;> cases q <;> decide
    rw [hdisc, SafCh.pairLatched, hd, hor]
    rfl
  · have hb : (s.safCh c).pairBad b i p q = true := by
      rw [SafCh.pairBad, SafCh.pairLatched, SafCh.pairCount, hd, if_neg hpq, hcount, Bool.false_and, beq_self_eq_true]
      rfl
    rw [hdisc, hb, Bool.or_true]
    exact ⟨rfl, hbad hb⟩
  · rw [hpairs]
    exact hnone (by rw [hp, Bool.false_and])
  · rw [hdisc]
    simp [SafCh.pairBad, SafCh.pairLatched, SafCh.pairCount, hp, hq, hzero]
  · obtain ⟨hlatch, hcause⟩ := hestop hone (hnone hpq)
    exact ⟨hlatch, hcause, fun hwas hpower => hfell hwas (hnone hpq) hone hpower⟩

/-! ## Power-up, reset held, trip request and cross-check -/

theorem answers_safetyPowerUp (c : Fin 2) (bank : BitVec 16) {s : State} (hpower : s.powered (12 + c) = true)
    (hoff : (s.safCh c).on = false) : answers (.safetyChannelPowerUp c bank) s fun t => (t.safCh c).on = true ∧
      (t.safCh c).latch = true ∧ (t.safCh c).causes = 0x201 ∧ (t.safCh c).bank = bank ∧ (t.safCh c).blk = none ∧
      (t.safCh c).sw = 0 := by
  refine ⟨_, if_neg (by simp [hpower, hoff]), ?_⟩
  have h0 : (s.setSafCh c { on := true, bank := bank }).safCh c = { on := true, bank := bank } :=
    State.safCh_setSafCh_same _ _ _
  generalize s.setSafCh c { on := true, bank := bank } = u at h0
  have h1 : (u.safTrip c .start).safCh c = SafCh.tripped { on := true, bank := bank } .start u.sys.up := by
    rw [(State.safTrip_new (k := .start) (by simp [h0])).safCh, State.safCh_setSafCh_same, h0]
  generalize u.safTrip c .start = v at h1
  have h2 : (v.safTrip c .pb).safCh c =
      SafCh.tripped (SafCh.tripped { on := true, bank := bank } .start u.sys.up) .pb v.sys.up := by
    rw [(State.safTrip_new (k := .pb) (by rw [h1]; simp [SafCh.tripped, SafCause.bit])).safCh, State.safCh_setSafCh_same, h1]
  generalize v.safTrip c .pb = w at h2
  have hblk : (w.safCh c).blk = none := by rw [h2]; rfl
  have hsw := w.safBoth_switched
  refine ⟨?_, ?_, ?_, ?_, ?_, ?_⟩
  · rw [hsw.on, h2]; rfl
  · rw [hsw.latch, h2]; rfl
  · rw [hsw.causes, h2]
    change ((0 : BitVec 10) ||| 1 <<< 0) ||| 1 <<< 9 = 0x201
    decide
  · rw [hsw.bank, h2]; rfl
  · rw [hsw.blk, hblk]
  · refine BitVec.eq_of_getLsbD_eq fun so hso => ?_
    exact (State.safBoth_off c.isLt hso (State.mayNot_of_noBlk hblk so)).trans BitVec.getLsbD_zero.symm

/-- A reset input held beyond RESET_MAX raises FS236 (R694). -/
theorem State.safHeld_spec (s : State) (c : Nat) : (s.safHeld c).safCh c = { s.safCh c with held := true } ∧
    (s.powered 11 = true → (s.safHeld c).fio.evts.getLsbD 12 = true) := by
  let u := s.setSafCh c { s.safCh c with held := true }
  have htold : SafTold u (s.safHeld c) := (SafTold.fieldEvent u 12).trans (.safNote _ 9)
  exact ⟨(htold.safCh c).trans (State.safCh_setSafCh_same _ _ _),
    fun hpower => (SafMoved.safNote _ 9).evt 12 (u.evts_fieldEvent_same 12 hpower (by decide))⟩

section
variable {c : Fin 2} {s : State} (hon : (s.safCh c).on = true)
include hon

theorem answers_resetHeld (hones : 0 < (s.safCh c).ones)
    (hmax : ∀ b crc, (s.safCh c).blk = some (b, crc) → bytesAt b 0x2E 2 * 200 ≤ (s.safCh c).ones)
    (hheld : (s.safCh c).held = false) : answers (.resetHeld c) s fun t => t.safCh c = { s.safCh c with held := true } ∧
      (s.powered 11 = true → (t.fio.evtSet ||| t.fio.evtNext).getLsbD 12 = true) := by
  have hle : (match (s.safCh c).blk with | some (b, _) => bytesAt b 0x2E 2 * 200 | none => 1) ≤ (s.safCh c).ones := by
    split
    · next b crc hblk => exact hmax b crc hblk
    · exact hones
  refine ⟨_, congrArg Host.Outcome.next (if_pos ⟨hon, hones, hle, hheld⟩), s.safHeld_spec c⟩

omit hon in
theorem exec_resetHeld_early {b : List Byte} {crc : Word} (hblk : (s.safCh c).blk = some (b, crc))
    (hmax : (s.safCh c).ones < bytesAt b 0x2E 2 * 200) : exec (.resetHeld c) s = .next s := by
  refine congrArg Host.Outcome.next (if_neg fun h => ?_)
  obtain ⟨-, -, hle, -⟩ := h
  rw [hblk] at hle
  exact absurd hle (Nat.not_le.2 hmax)

theorem answers_tripRequestLine : answers (.tripRequestLine c) s fun t => (t.safCh c).req = s.saf.req ∧
    (s.saf.req = true → (t.safCh c).latch = true ∧ (t.safCh c).causes.getLsbD 8 = true ∧
      ∀ b crc, (s.safCh c).blk = some (b, crc) → ∀ so, so < 8 → safFunc b so = 1 → (t.safCh c).sw.getLsbD so = false) := by
  refine ⟨_, if_neg (by simp [hon]), ?_⟩
  let s1 := s.setSafCh c { s.safCh c with req := s.saf.req }
  have hch : s1.safCh c = { s.safCh c with req := s.saf.req } := State.safCh_setSafCh_same _ _ _
  by_cases hreq : s.saf.req = true
  · have htrip : (if s.saf.req = true then s1.safTrip c .collector else s1) = s1.safTrip c .collector := if_pos hreq
    dsimp only
    rw [htrip]
    have hkept := s1.safTrip_kept c .collector
    have hall := hkept.trans (.of_switched (State.safEval_switched _ c))
    obtain ⟨hlatch, hcause⟩ := (SafKept.of_switched (State.safEval_switched (s1.safTrip c .collector) c)).tripStays
      (show (s1.safCh c).on = true by rw [hch]; exact hon)
    refine ⟨by rw [hall.req, hch], fun _ => ⟨hlatch, hcause, fun b crc hblk so hso hfun => State.safEval_off hso ?_⟩⟩
    exact State.mayNot_of_latch ((hkept.blk c).trans (by rw [hch]; exact hblk)) hfun
      (State.safTrip_latched .collector (by rw [hch]; exact hon)).1
  · have htrip : (if s.saf.req = true then s1.safTrip c .collector else s1) = s1 := if_neg hreq
    dsimp only
    rw [htrip]
    exact ⟨by rw [(SafKept.of_switched (s1.safEval_switched c)).req, hch], fun h => absurd h hreq⟩

theorem answers_crossCheckFail (lost : Bool) : answers (.crossCheckFail lost) s fun t => (t.safCh c).latch = true ∧
    (t.safCh c).causes.getLsbD 7 = true ∧ t.saf.linkOk = (s.saf.linkOk && !lost) := by
  have hany : ¬((s.safCh 0).on = false ∧ (s.safCh 1).on = false) := by
    intro h
    obtain hc | hc : (c : Nat) = 0 ∨ (c : Nat) = 1 := by omega
    · rw [hc, h.1] at hon; exact nomatch hon
    · rw [hc, h.2] at hon; exact nomatch hon
  refine ⟨_, if_neg hany, ?_⟩
  let s1 : State := { s with saf := { s.saf with linkOk := s.saf.linkOk && !lost } }
  let u := (s1.fieldEvent 9).safNote 6
  have htold : SafTold s1 u := (SafTold.fieldEvent s1 9).trans (.safNote _ 6)
  have honU : (u.safCh c).on = true := by rw [htold.safCh]; exact hon
  have h0 := u.safTrip_kept 0 .cross
  have h1 := (u.safTrip 0 .cross).safTrip_kept 1 .cross
  have h2 := SafKept.of_switched ((u.safTrip 0 .cross).safTrip 1 .cross).safBoth_switched
  have htripped : ((((u.safTrip 0 .cross).safTrip 1 .cross).safBoth).safCh c).latch = true ∧
      ((((u.safTrip 0 .cross).safTrip 1 .cross).safBoth).safCh c).causes.getLsbD 7 = true := by
    obtain hc | hc : (c : Nat) = 0 ∨ (c : Nat) = 1 := by omega
    · rw [hc] at honU ⊢
      exact (h1.trans h2).tripStays honU
    · rw [hc] at honU ⊢
      exact h2.tripStays ((h0.on 1).trans honU)
  exact ⟨htripped.1, htripped.2, ((((SafKept.of_told htold).trans h0).trans h1).trans h2).linkOk⟩

end

/-! ## The exchange -/

/-- A channel that adopts the other's trip (R697). -/
def SafCh.adopted (x y : SafCh) (up : Nat) : SafCh :=
  { x with
    latch := true, causes := x.causes ||| y.causes, edgeAt := none
    latchAt := if x.latch then x.latchAt else up, dischOk := x.latch && x.dischOk }

theorem State.safAdopt_none {s : State} {c : Nat} (h : (s.safCh c).on = false ∨ (s.safCh (1 - c)).latch = false ∨
    (s.safCh (1 - c)).causes &&& ~~~ (s.safCh c).causes = 0) : s.safAdopt c = s := if_pos h

theorem State.safAdopt_some {s : State} {c : Nat} (h : ¬((s.safCh c).on = false ∨ (s.safCh (1 - c)).latch = false ∨
    (s.safCh (1 - c)).causes &&& ~~~ (s.safCh c).causes = 0)) :
    SafTold (s.setSafCh c ((s.safCh c).adopted (s.safCh (1 - c)) s.sys.up)) (s.safAdopt c) := by
  unfold State.safAdopt
  extract_lets x y s1
  rw [if_neg h]
  have h1 : SafTold (s.setSafCh c ((s.safCh c).adopted (s.safCh (1 - c)) s.sys.up)) s1 := .safLost _ x
  split
  · exact h1
  · exact h1.trans (.blockNow s1)

theorem State.safAdopt_spec (s : State) (c : Nat) : SafKept s (s.safAdopt c) ∧ ∀ k, k ≠ c → (s.safAdopt c).safCh k = s.safCh k := by
  by_cases h : (s.safCh c).on = false ∨ (s.safCh (1 - c)).latch = false ∨ (s.safCh (1 - c)).causes &&& ~~~ (s.safCh c).causes = 0
  · rw [State.safAdopt_none h]
    exact ⟨.refl s, fun _ _ => rfl⟩
  · have htold := State.safAdopt_some h
    refine ⟨(SafKept.setSafCh s c (x := (s.safCh c).adopted (s.safCh (1 - c)) s.sys.up) rfl (fun _ => rfl) (fun m h => ?_) rfl).trans
      (.of_told htold), fun k hk => ?_⟩
    · rw [SafCh.adopted, BitVec.getLsbD_or, h, Bool.true_or]
    · rw [htold.safCh, State.safCh_setSafCh_other _ _ _ _ hk]

/-- Without a confirmed edge, a reset edge may only run out (R695). -/
theorem State.safConfirm_waits {s : State} (h : s.safConfirmed = false) : SafKept s s.safConfirm := by
  rw [State.safConfirm, if_neg (by simp [h])]
  refine foldl_leaves (R := SafKept) .refl (fun _ _ _ => .trans) (fun t c _ => ?_) s
  dsimp only
  split
  · split
    · exact (SafKept.setSafCh t c (x := { t.safCh c with edgeAt := none }) rfl id (fun _ => id) rfl).trans (.of_told (.safNote _ 2))
    · exact .refl t
  · exact .refl t

/-- The bits of a word that another lacks are none exactly where the other has them all. -/
theorem and_not_eq_zero_iff {w : Nat} (x y : BitVec w) : x &&& ~~~ y = 0 ↔ ∀ m, x.getLsbD m = true → y.getLsbD m = true := by
  constructor
  · intro h m hm
    have hbit := congrArg (fun v : BitVec w => v.getLsbD m) h
    have hlt := BitVec.lt_of_getLsbD hm
    simpa [hm, hlt] using hbit
  · intro h
    refine BitVec.eq_of_getLsbD_eq fun m hm => ?_
    have hxy := h m
    cases hx : x.getLsbD m
    · simp [hx]
    · simp [hx, hxy hx]

section
variable {s : State}

/-- A trip of channel A is adopted by channel B (R697). -/
theorem State.exchange_adopts (hon : (s.safCh 1).on = true) (hlatch : (s.safCh 0).latch = true)
    (hcauses : (s.safCh 0).causes &&& ~~~ (s.safCh 1).causes ≠ 0) :
    (((((s.safAdopt 0).safAdopt 1).safConfirm).safBoth).safCh 1).latch = true ∧
      (s.safCh 0).causes &&& ~~~ (((((s.safAdopt 0).safAdopt 1).safConfirm).safBoth).safCh 1).causes = 0 := by
  obtain ⟨hkept, hother⟩ := s.safAdopt_spec 0
  generalize s.safAdopt 0 = u at hkept hother
  have hone : u.safCh 1 = s.safCh 1 := hother 1 (by decide)
  have hadopts : ¬((u.safCh 1).on = false ∨ (u.safCh (1 - 1)).latch = false ∨
      (u.safCh (1 - 1)).causes &&& ~~~ (u.safCh 1).causes = 0) := by
    rintro (h | h | h)
    · rw [hone, hon] at h
      exact nomatch h
    · rw [show (u.safCh (1 - 1)).latch = true from hkept.latch 0 hlatch] at h
      exact nomatch h
    · rw [and_not_eq_zero_iff, hone] at h
      exact hcauses ((and_not_eq_zero_iff _ _).2 fun m hm => h m (hkept.causes 0 m hm))
  have hB : (u.safAdopt 1).safCh 1 = (u.safCh 1).adopted (u.safCh 0) u.sys.up := by
    rw [(State.safAdopt_some hadopts).safCh, State.safCh_setSafCh_same]
  generalize u.safAdopt 1 = v at hB
  have hwaits : v.safConfirmed = false := by
    have hedge : (v.safCh 1).edgeAt = none := by rw [hB]; rfl
    unfold State.safConfirmed
    rw [hedge]
    cases (v.safCh 0).edgeAt <;> rfl
  have hrest := (State.safConfirm_waits hwaits).trans (.of_switched v.safConfirm.safBoth_switched)
  refine ⟨hrest.latch 1 (by rw [hB]; rfl), (and_not_eq_zero_iff _ _).2 fun m hm => hrest.causes 1 m ?_⟩
  rw [hB, SafCh.adopted, BitVec.getLsbD_or, hkept.causes 0 m hm, Bool.or_true]

/-- A confirmed edge clears both latches and the off-pulse failures (R699). -/
theorem State.safConfirm_clears (h : s.safConfirmed = true) : (s.safConfirm.safCh 0) = (s.safCh 0).cleared ∧
    (s.safConfirm.safCh 1) = (s.safCh 1).cleared ∧ s.safConfirm.saf.fail = 0 ∧
    s.safConfirm.saf.resets = s.saf.resets + 1 ∧ s.safConfirm.saf.linkOk = s.saf.linkOk := by
  rw [State.safConfirm, if_pos h]
  refine ⟨?_, ?_, rfl, rfl, rfl⟩
  · exact (State.safCh_setSafCh_other (s.setSafCh 0 (s.safCh 0).cleared) 1 0 _ (by decide)).trans
      (State.safCh_setSafCh_same _ _ _)
  · exact State.safCh_setSafCh_same _ _ _

theorem State.safConfirm_linkOk (s : State) : s.safConfirm.saf.linkOk = s.saf.linkOk := by
  cases h : s.safConfirmed
  · exact (State.safConfirm_waits h).linkOk
  · obtain ⟨-, -, -, -, hlink⟩ := State.safConfirm_clears h
    exact hlink

/-- An edge accepted in both channels within 10 ms clears both latches, where neither has a trip to adopt (R699). -/
theorem State.exchange_confirms {a b : Nat} (ha : (s.safCh 0).edgeAt = some a) (hb : (s.safCh 1).edgeAt = some b)
    (hcauses : (s.safCh 0).causes = (s.safCh 1).causes) (hab : a ≤ b + msTicks 10) (hba : b ≤ a + msTicks 10) :
    ∀ t, t = (((s.safAdopt 0).safAdopt 1).safConfirm).safBoth → (t.safCh 0).latch = false ∧ (t.safCh 1).latch = false ∧
      t.saf.fail = 0 ∧ (t.safCh 0).causes = 0 ∧ (t.safCh 1).causes = 0 ∧ t.saf.resets = s.saf.resets + 1 := by
  rintro _ rfl
  have h0 : s.safAdopt 0 = s := State.safAdopt_none (.inr (.inr ((and_not_eq_zero_iff _ _).2 fun m hm => hcauses ▸ hm)))
  have h1 : s.safAdopt 1 = s := State.safAdopt_none (.inr (.inr ((and_not_eq_zero_iff _ _).2 fun m hm => hcauses ▸ hm)))
  have hconfirmed : s.safConfirmed = true := by
    unfold State.safConfirmed
    rw [ha, hb]
    exact decide_eq_true ⟨hab, hba⟩
  rw [h0, h1]
  obtain ⟨hA, hB, hfail, hresets, -⟩ := State.safConfirm_clears hconfirmed
  have hsw := s.safConfirm.safBoth_switched
  refine ⟨?_, ?_, hsw.fail.trans hfail, ?_, ?_, (congrArg Saf.resets hsw.rest :).trans hresets⟩
  · rw [hsw.latch, hA]; rfl
  · rw [hsw.latch, hB]; rfl
  · rw [hsw.causes, hA]; rfl
  · rw [hsw.causes, hB]; rfl

theorem answers_crossLinkExchange (hon0 : (s.safCh 0).on = true) (hon1 : (s.safCh 1).on = true) :
    answers .crossLinkExchange s fun t => t.saf.linkOk = true ∧
    ((s.safCh 0).latch = true → (s.safCh 0).causes &&& ~~~ (s.safCh 1).causes ≠ 0 → (t.safCh 1).latch = true ∧
      (s.safCh 0).causes &&& ~~~ (t.safCh 1).causes = 0) ∧
    (∀ a b, (s.safCh 0).edgeAt = some a → (s.safCh 1).edgeAt = some b → (s.safCh 0).causes = (s.safCh 1).causes →
      a ≤ b + msTicks 10 → b ≤ a + msTicks 10 → (t.safCh 0).latch = false ∧ (t.safCh 1).latch = false ∧ t.saf.fail = 0 ∧
        (t.safCh 0).causes = 0 ∧ (t.safCh 1).causes = 0 ∧ t.saf.resets = s.saf.resets + 1) := by
  refine ⟨_, if_pos ⟨hon0, hon1⟩, ?_⟩
  let s1 : State := { s with saf := { s.saf with linkOk := true } }
  refine ⟨?_, fun hlatch hcauses => State.exchange_adopts (s := s1) hon1 hlatch hcauses,
    fun a b ha hb hcauses hab hba => State.exchange_confirms (s := s1) ha hb hcauses hab hba _ rfl⟩
  have hadopt := (s1.safAdopt_spec 0).1.trans ((s1.safAdopt 0).safAdopt_spec 1).1
  have hboth := SafKept.of_switched (((s1.safAdopt 0).safAdopt 1).safConfirm).safBoth_switched
  exact hboth.linkOk.trans ((State.safConfirm_linkOk _).trans hadopt.linkOk)

end

/-! ## Off-pulse tests -/

/-- An output that fails is latched off in both channels (R709). -/
theorem State.safOutFail_spec (s : State) {so : Nat} (hso : so < 8) : (s.safOutFail so).saf.fail.getLsbD so = true ∧
    (s.safOutFail so).saf.fails = s.saf.fails ∧
    (∀ c, ((s.safOutFail so).safCh c).test = (s.safCh c).test ∨ ((s.safOutFail so).safCh c).test = none) ∧
    ∀ c, c < 2 → ((s.safOutFail so).safCh c).sw.getLsbD so = false := by
  unfold State.safOutFail
  extract_lets _ s1 brk
  let s0 : State := { s with saf := { s.saf with fail := s.saf.fail ||| ((1 : BitVec 8) <<< so) } }
  have hfail0 : s0.saf.fail.getLsbD so = true := (getLsbD_putBit s.saf.fail true hso).trans (if_pos rfl)
  have h1 : SafKept s0 s1 := .of_told ((SafTold.fieldEvent s0 5).trans (.safNote _ 4))
  have h2 : SafKept s0 (if brk = true then (s1.safTrip 0 .test).safTrip 1 .test else s1) := by
    split
    · exact (h1.trans (s1.safTrip_kept 0 .test)).trans (State.safTrip_kept _ 1 .test)
    · exact h1
  generalize (if brk = true then (s1.safTrip 0 .test).safTrip 1 .test else s1) = w at h2
  have hfailW : w.saf.fail.getLsbD so = true := by rw [h2.fail]; exact hfail0
  have hall := h2.trans (.of_switched w.safBoth_switched)
  refine ⟨by rw [hall.fail]; exact hfail0, hall.fails, hall.test,
    fun c hc => State.safBoth_off hc hso (State.mayNot_of_fail c hfailW)⟩

section
variable (c : Fin 2) {so : Fin 8} {s : State}

theorem answers_offPulseTest (hout : s.safOutOn so = true) (htest : (s.safCh c).test = none)
    (hother : (s.safCh (1 - c.val)).test ≠ some so) : answers (.offPulseTest c so) s fun t =>
      t.safCh c = { s.safCh c with test := some so } ∧ t.safCh (1 - c.val) = s.safCh (1 - c.val) ∧
        t.saf.tests = s.saf.tests + 1 := by
  refine ⟨_, if_pos ⟨hout, htest, hother⟩, State.safCh_setSafCh_same s c _, ?_, rfl⟩
  exact State.safCh_setSafCh_other s c _ _ (by omega)

theorem answers_offPulseVerdict_pass (htest : (s.safCh c).test = some so) : answers (.offPulseVerdict c true) s fun t =>
    t.safCh c = { s.safCh c with test := none } ∧ t.saf.fail = s.saf.fail := by
  have hexec : exec (.offPulseVerdict c true) s = .next (s.setSafCh c { s.safCh c with test := none }) := by
    change execOffPulseVerdict c true s = _
    unfold execOffPulseVerdict
    dsimp only
    rw [htest]
    rfl
  exact ⟨_, hexec, State.safCh_setSafCh_same _ _ _, rfl⟩

theorem answers_offPulseVerdict_fail (htest : (s.safCh c).test = some so) : answers (.offPulseVerdict c false) s fun t =>
    (t.safCh c).test = none ∧ t.saf.fail.getLsbD so = true ∧ t.saf.fails = s.saf.fails + 1 ∧
      (t.safCh 0).sw.getLsbD so = false ∧ (t.safCh 1).sw.getLsbD so = false := by
  let s1 := s.setSafCh c { s.safCh c with test := none }
  let s2 : State := { s1 with saf := { s1.saf with fails := s1.saf.fails + 1 } }
  have hexec : exec (.offPulseVerdict c false) s = .next (s2.safOutFail so) := by
    change execOffPulseVerdict c false s = _
    unfold execOffPulseVerdict
    dsimp only
    rw [htest]
    rfl
  obtain ⟨hfail, hfails, htests, hsw⟩ := s2.safOutFail_spec so.isLt
  have htest2 : (s2.safCh c).test = none := congrArg SafCh.test (State.safCh_setSafCh_same s c _)
  refine ⟨_, hexec, (htests c).elim (fun h => h.trans htest2) id, hfail, hfails, hsw 0 (by decide), hsw 1 (by decide)⟩

theorem answers_outputAbove5v (hon : (s.safCh c).on = true) (hsw : (s.safCh c).sw.getLsbD so = false)
    (hfail : s.saf.fail.getLsbD so = false) : answers (.outputAbove5vWhileOff so) s fun t =>
      t.saf.fail.getLsbD so = true ∧ (t.safCh 0).sw.getLsbD so = false ∧ (t.safCh 1).sw.getLsbD so = false := by
  obtain ⟨hfail', -, -, hsw'⟩ := s.safOutFail_spec so.isLt
  refine ⟨_, if_pos ?_, hfail', hsw' 0 (by decide), hsw' 1 (by decide)⟩
  obtain hc | hc : (c : Nat) = 0 ∨ (c : Nat) = 1 := by omega
  · rw [hc] at hon hsw
    rw [hon, hsw, hfail]
    simp
  · rw [hc] at hon hsw
    rw [hon, hsw, hfail]
    simp

/-! ## The switch bank, the discharge timer, the block lines and the block -/

variable {b : List Byte} {crc : Word} (hblk : (s.safCh c).blk = some (b, crc))
include hblk

theorem answers_switchBankRead_match {v : BitVec 16} (hon : (s.safCh c).on = true) (hv : v = crc.setWidth 16) :
    answers (.switchBankRead c v) s fun t => (t.safCh c).bank = v ∧ (t.safCh c).latch = (s.safCh c).latch ∧
      (t.safCh c).causes = (s.safCh c).causes := by
  refine ⟨_, if_pos hon, ?_⟩
  let u := s.setSafCh c { s.safCh c with bank := v }
  have hch : u.safCh c = { s.safCh c with bank := v } := State.safCh_setSafCh_same _ _ _
  have hbank : u.safBank c = u := by
    refine if_pos (.inr ?_)
    rw [hch]
    simp [SafCh.bankOk, hblk, hv]
  change ((((u.safBank c).safEval c).safCh c).bank = v ∧ (((u.safBank c).safEval c).safCh c).latch = _ ∧
    (((u.safBank c).safEval c).safCh c).causes = _)
  rw [hbank]
  have hsw := u.safEval_switched c
  exact ⟨by rw [hsw.bank, hch], by rw [hsw.latch, hch], by rw [hsw.causes, hch]⟩

theorem answers_switchBankRead_differs {v : BitVec 16} (hon : (s.safCh c).on = true) (hv : v ≠ crc.setWidth 16) :
    answers (.switchBankRead c v) s fun t => (t.safCh c).bank = v ∧ (t.safCh c).latch = true ∧
      (t.safCh c).causes.getLsbD 6 = true ∧ (t.safCh c).sw = 0 := by
  refine ⟨_, if_pos hon, ?_⟩
  let u := s.setSafCh c { s.safCh c with bank := v }
  have hch : u.safCh c = { s.safCh c with bank := v } := State.safCh_setSafCh_same _ _ _
  let u1 := u.setSafCh c { u.safCh c with bankBad := true }
  have hch1 : u1.safCh c = { s.safCh c with bank := v, bankBad := true } := by
    rw [State.safCh_setSafCh_same, hch]
  let w := (u1.fieldEvent 10).safNote 5
  have htold : SafTold u1 w := (SafTold.fieldEvent u1 10).trans (.safNote _ 5)
  have hbank : u.safBank c = w.safTrip c .bank := by
    refine if_neg ?_
    rw [hch]
    simp [SafCh.bankOk, hblk, hv]
  have honW : (w.safCh c).on = true := by rw [htold.safCh, hch1]; exact hon
  have hkept := w.safTrip_kept c .bank
  obtain ⟨hlatch, hcause⟩ := State.safTrip_latched .bank honW
  have hbad : ((w.safTrip c .bank).safCh c).bankBad = true := by
    have hbadW : (w.safCh c).bankBad = true := by rw [htold.safCh, hch1]
    by_cases h : (w.safCh c).on = false ∨ ((w.safCh c).latch = true ∧ (w.safCh c).causes.getLsbD SafCause.bank.bit = true)
    · rw [State.safTrip_known h, hbadW]
    · rw [(State.safTrip_new h).safCh, State.safCh_setSafCh_same]
      exact hbadW
  have hbankW : ((w.safTrip c .bank).safCh c).bank = v := by rw [hkept.bank, htold.safCh, hch1]
  change ((((u.safBank c).safEval c).safCh c).bank = v ∧ (((u.safBank c).safEval c).safCh c).latch = _ ∧
    (((u.safBank c).safEval c).safCh c).causes.getLsbD 6 = _ ∧ (((u.safBank c).safEval c).safCh c).sw = _)
  rw [hbank]
  have hsw := (w.safTrip c .bank).safEval_switched c
  refine ⟨by rw [hsw.bank, hbankW], by rw [hsw.latch, hlatch], by rw [hsw.causes]; exact hcause,
    BitVec.eq_of_getLsbD_eq fun so hso => ?_⟩
  exact (State.safEval_off hso (State.mayNot_of_bankBad hbad so)).trans BitVec.getLsbD_zero.symm

theorem answers_dischargeTimer (hlatch : (s.safCh c).latch = true) (hdisch : (s.safCh c).dischOk = false) :
    answers (.dischargeTimer c) s fun t => (t.safCh c).dischOk = true ∧
      t.sys.up = max s.sys.up ((s.safCh c).latchAt + msTicks (bytesAt b 0x30 4)) := by
  let s1 := s.elapse ((s.safCh c).latchAt + msTicks (bytesAt b 0x30 4) - s.sys.up)
  let u := s1.setSafCh c { s1.safCh c with dischOk := true }
  have hexec : exec (.dischargeTimer c) s = .next (u.safEval c) := by
    change execDischargeTimer c s = _
    unfold execDischargeTimer
    dsimp only
    rw [hblk]
    exact if_neg (by simp [hlatch, hdisch])
  refine ⟨_, hexec, ?_, ?_⟩
  · rw [(u.safEval_switched c).dischOk, State.safCh_setSafCh_same]
  · obtain ⟨hup, -⟩ := s.elapse_spec ((s.safCh c).latchAt + msTicks (bytesAt b 0x30 4) - s.sys.up)
    rw [(u.safEval_switched c).moved.up]
    exact hup.trans (by omega)

end

/-- An arm port takes the level of a block line, and an asserted one is a block request (R680 to R682). -/
theorem answers_safetyBlockLine (p : Fin 12) (c : Fin 2) {s : State} (hopen : s.open (.port p) = true) :
    answers (.safetyBlockLine p c) s fun t =>
      (if (c : Nat) = 0 then (t.port p).lineA else (t.port p).lineB) = s.safLine c ∧
      (if (c : Nat) = 0 then (t.port p).lineB = (s.port p).lineB else (t.port p).lineA = (s.port p).lineA) ∧
      t.flt.latch = (s.flt.latch || s.safLine c) := by
  obtain ⟨x, hexec, hA, hB⟩ : ∃ x, exec (.safetyBlockLine p c) s =
      .next (if s.safLine c = true then (s.setPort p x).blockNow else s.setPort p x) ∧
      x.lineA = (if (c : Nat) = 0 then s.safLine c else (s.port p).lineA) ∧
      x.lineB = (if (c : Nat) = 0 then (s.port p).lineB else s.safLine c) := by
    refine ⟨_, if_neg (by simp [hopen]), ?_, ?_⟩
    · dsimp only
      split <;> rfl
    · dsimp only
      split <;> rfl
  have hstate : ((if s.safLine c = true then (s.setPort p x).blockNow else s.setPort p x).port p) = x ∧
      (if s.safLine c = true then (s.setPort p x).blockNow else s.setPort p x).flt.latch = (s.flt.latch || s.safLine c) := by
    obtain ⟨hflt, -, hrest, -⟩ := (s.setPort p x).blockNow_spec
    have hports := congrArg State.ports hrest
    dsimp only at hports
    cases s.safLine c
    · exact ⟨State.port_setPort_same _ _ _, (Bool.or_false _).symm⟩
    · refine ⟨?_, ?_⟩
      · rw [if_pos rfl, State.port, hports]
        exact State.port_setPort_same s p x
      · rw [if_pos rfl, hflt, Bool.or_true]
        rfl
  obtain ⟨hport, hlatch⟩ := hstate
  refine ⟨_, hexec, ?_⟩
  dsimp only
  rw [hport, hA, hB]
  refine ⟨?_, ?_, hlatch⟩
  · by_cases hc : (c : Nat) = 0
    · rw [if_pos hc, if_pos hc]
    · rw [if_neg hc, if_neg hc]
  · by_cases hc : (c : Nat) = 0
    · rw [if_pos hc, if_pos hc]
    · rw [if_neg hc, if_neg hc]

theorem length_lineBytes {w : Nat} (x : BitVec w) (n i : Nat) : (lineBytes x i n).length = n := by
  induction n generalizing i with
  | zero => rfl
  | succ n ih => rw [lineBytes, List.length_cons, ih]

/-- A bank that may mismatch keeps the block and what has been received (R720). -/
theorem State.safBank_kept (s : State) (c : Nat) : SafKept s (s.safBank c) := by
  unfold State.safBank
  extract_lets x
  split
  · exact .refl s
  · exact (((SafKept.setSafCh s c (x := { s.safCh c with bankBad := true }) rfl id (fun _ => id) rfl).trans
      (.of_told (.fieldEvent _ 10))).trans
      (.of_told (.safNote _ 5))).trans (State.safTrip_kept _ c .bank)

/-- The bytes of a section that a channel has, with a chunk (R715). -/
def SafCh.received (x : SafCh) (idx : Nat) (data : List Byte) : List Byte :=
  if idx = 0 then data else if x.rx.length = 16 * idx then x.rx ++ data else x.rx

/-- A section that has passed the checks is taken (R716, R720). -/
def State.safTake (s : State) (c : Nat) (l : List Byte) : State :=
  let s1 := s.setSafCh c { s.safCh c with rx := [], blk := some (l.drop 16, wordAt l 12) }
  let s2 := if s1.safPbOk then s1.safNote 10 else s1
  (s2.safBank c).safEval c

theorem State.safTake_spec (s : State) (c : Nat) (l : List Byte) : ((s.safTake c l).safCh c).rx = [] ∧
    ((s.safTake c l).safCh c).blk = some (l.drop 16, wordAt l 12) := by
  unfold State.safTake
  extract_lets _ s1 s2
  have hch : s1.safCh c = { s.safCh c with rx := [], blk := some (l.drop 16, wordAt l 12) } := State.safCh_setSafCh_same _ _ _
  have h2 : SafKept s1 s2 := by
    simp only [s2]
    split
    · exact .of_told (.safNote s1 10)
    · exact .refl s1
  have hall := (h2.trans (State.safBank_kept s2 c)).trans (.of_switched (State.safEval_switched _ c))
  exact ⟨by rw [hall.rx, hch], by rw [hall.blk, hch]⟩

section
variable {c : Fin 2} (data : BitVec 128) {s : State} (hon : (s.safCh c).on = true) (hblk : (s.safCh c).blk = none)
include hon hblk

theorem exec_safetyPbChunk (idx : BitVec 8) {l : List Byte}
    (hl : (s.safCh c).received idx.toNat (lineBytes data 0 16) = l) : exec (.safetyPbChunk c idx data) s = .next
      (if l.length < 80 then s.setSafCh c { s.safCh c with rx := l }
      else if safSectionOk l then s.safTake c l else (s.setSafCh c { s.safCh c with rx := [] }).safNote 11) := by
  subst hl
  exact congrArg Host.Outcome.next (if_neg (by simp [hon, hblk]))

theorem answers_safetyPbChunk_first : answers (.safetyPbChunk c 0 data) s fun t =>
    t.safCh c = { s.safCh c with rx := lineBytes data 0 16 } := by
  refine ⟨_, exec_safetyPbChunk data hon hblk 0 (if_pos (by decide)), ?_⟩
  rw [length_lineBytes, if_pos (by decide)]
  exact State.safCh_setSafCh_same _ _ _

/-- The last chunk: a section that passes the checks is taken, another noted (R716, R717). -/
theorem answers_safetyPbChunk_last (hrx : (s.safCh c).rx.length = 64) : answers (.safetyPbChunk c 4 data) s fun t =>
    (t.safCh c).rx = [] ∧
      let l := (s.safCh c).rx ++ lineBytes data 0 16
      (safSectionOk l = true → (t.safCh c).blk = some (l.drop 16, wordAt l 12)) ∧
      (safSectionOk l = false → (t.safCh c).blk = none ∧ t.saf.note.getLsbD 11 = true) := by
  have hlen : ((s.safCh c).rx ++ lineBytes data 0 16).length = 80 := by
    rw [List.length_append, length_lineBytes, hrx]
  refine ⟨_, exec_safetyPbChunk data hon hblk 4 ((if_neg (by decide)).trans (if_pos (by rw [hrx]; decide))), ?_⟩
  dsimp only
  rw [hlen, if_neg (by decide)]
  generalize (s.safCh c).rx ++ lineBytes data 0 16 = l
  cases hok : safSectionOk l
  · rw [if_neg (by decide)]
    have hch : (s.setSafCh c { s.safCh c with rx := [] }).safCh c = { s.safCh c with rx := [] } :=
      State.safCh_setSafCh_same _ _ _
    have htold := SafTold.safNote (s.setSafCh c { s.safCh c with rx := [] }) 11
    refine ⟨by rw [htold.safCh, hch], (fun h => nomatch h), fun _ => ⟨by rw [htold.safCh, hch]; exact hblk, ?_⟩⟩
    exact (getLsbD_putBit s.saf.note true (i := 11) (j := 11) (by decide)).trans (if_pos rfl)
  · rw [if_pos rfl]
    obtain ⟨hrx', hblk'⟩ := s.safTake_spec c l
    exact ⟨hrx', fun _ => hblk', fun h => nomatch h⟩

end

end Sys2Proof.Machine

namespace Sys2Proof.SafetyChannels

open Sys2Proof.Machine Sys2Proof.Safety

/-- Settles O56, command by command. -/
theorem safetyChannelsSampleTestAndTrip : Obligations.SafetyChannelsSampleTestAndTrip := by
  refine ⟨fun c bank s hpower hoff => answers_safetyPowerUp c bank hpower hoff,
    fun c ins i b crc s hon hblk hrole htime => answers_safetySample ins hon hblk hrole htime,
    fun c s hon => ⟨fun hones hmax _ hheld => answers_resetHeld hon hones hmax hheld,
      fun b crc hblk hmax => exec_resetHeld_early hblk hmax, answers_tripRequestLine hon, answers_crossCheckFail hon⟩,
    fun s hon0 hon1 => answers_crossLinkExchange hon0 hon1,
    fun c so s => ⟨answers_offPulseTest c,
      fun htest => ⟨answers_offPulseVerdict_pass c htest, answers_offPulseVerdict_fail c htest⟩, answers_outputAbove5v c⟩,
    fun c v b crc s hon hblk => ⟨answers_switchBankRead_match c hblk hon, answers_switchBankRead_differs c hblk hon,
      answers_dischargeTimer c hblk⟩,
    fun p c s hopen => answers_safetyBlockLine p c hopen,
    fun c idx data s hon hblk => ⟨?_, ?_⟩⟩
  · rintro rfl
    exact answers_safetyPbChunk_first data hon hblk
  · rintro rfl
    exact answers_safetyPbChunk_last data hon hblk

end Sys2Proof.SafetyChannels
end
